-- ==== Sys2Proof/Word.lean ====
section
/-! DEFINITION. The word types of the part: the 36-bit native word, the 9-bit nonet, and the widths that chapters 0 and 2 fix
(R1 to R5). Field access and arithmetic helpers stand in Machine/Ops.lean. -/

namespace Sys2Proof

/-- The native register and bus word (chapter 0, Data sizes). -/
abbrev Word := BitVec 36

/-- The smallest addressable unit of data space (chapter 0, Data sizes). -/
abbrev Nonet := BitVec 9

/-- A byte of the host's memory and of the host-visible registers (R4). -/
abbrev Byte := BitVec 8

/-- A host-visible 32-bit register value (R4). -/
abbrev Dword := BitVec 32

/-- A 144-bit barge instruction (R18). -/
abbrev Insn := BitVec 144

/-- A 576-bit code line: four instructions (R25). -/
abbrev LineBits := BitVec 576

/-- Device time in units of 1/12 ns: the smallest unit in which every clock period of every profile is whole
(log entry 1). -/
abbrev Time := Nat

end Sys2Proof
end

