-- ==== Sys2Proof/Syntax.lean ====
section
/-! DEFINITION. The commands: one constructor per row of spec/opcode_table.json, in the table's order, with the operands
that the row's rule gives it. Every command's first operand `dt` says how long after the previous step it happens, in
units of 1/12 ns (log entry 1). What comes from outside the part (pad levels, bit streams, frames, host data, readings,
upsets) is an operand too (log entry 2). -/

namespace Sys2Proof

/-- The index of a barge (R85), a basin, a bank of a basin (R209). -/
abbrev BargeIx := Fin 48
abbrev BasinIx := Fin 12
abbrev BankIx := Fin 16

/-- A requester of a port A bank that asks in the same BCLK (R216): the bank and 0–3 barge position, 4 basin target
port, 5 scrubber. -/
structure Rival where
  bank : BankIx
  who : Fin 6
  deriving DecidableEq, Repr

/-- Who writes a register that has a barge window and a bridge view: a barge (world and level are its own), or an
initiator of the peripheral register bridge (R83, R235). -/
inductive Writer where
  | barge (g : BargeIx)
  | bridge
  deriving DecidableEq, Repr

/-- Who writes a staging register (R192): a barge through its window, with the tag of its IOU trigger, or the bridge. -/
inductive StgWriter where
  | window (g : BargeIx) (world : Bool) (date : BitVec 32) (att : Bool)
  | bridge
  deriving DecidableEq, Repr

/-- What HM1 presents at the Keeper's load port beside HM0: a word of the Keeper space and its new content (R175). -/
structure LoadWrite where
  addr : BitVec 16
  data : Word
  deriving DecidableEq, Repr

/-- What a host write of one DWORD carries besides its value: its byte enables, and whether its TLP is poisoned or fails its ECRC
(R356, R358). -/
structure HostFlags where
  be : BitVec 4 := 0xF
  poisoned : Bool := false
  ecrc : Bool := false
  deriving DecidableEq, Repr

/-- Where a register write with no row of its own comes from (R6, R175, R235, R358): a barge window, the peripheral
register bridge (by its Wharf address, from the Harbourmaster or from DEBUG), NVP, BAR0, or the Keeper's load port. -/
inductive RegPath where
  | window (g : BargeIx) (addr : BitVec 16)
  | per (debug : Bool) (addr : BitVec 32)
  | bar0 (offset : BitVec 16) (tlp : HostFlags)
  | port (addr : BitVec 16) (hm1 : LoadWrite)
  deriving DecidableEq, Repr

/-- The size of a Wharf transaction (R237): a nonet, half or word single, any set of words of one row with one enable per
nonet, or a burst of full rows. -/
inductive TxSize where
  | nonet
  | half
  | word
  | row (enables : BitVec 32)
  | burst (beats : Nat)
  deriving DecidableEq, Repr

/-- A Wharf transaction as an initiator presents it (R237); the QoS is the Wharf's (R238). -/
structure Tx where
  addr : BitVec 32
  write : Bool
  size : TxSize
  id : BitVec 5
  world : Bool
  data : List Word
  deriving DecidableEq, Repr

/-- The monitored clocks (R340). -/
inductive Clk where
  | bclk (n : BasinIx)
  | xclk
  | hclk
  | pclk
  | fclk
  | tclk
  | refclk
  deriving DecidableEq, Repr

/-- The monitored rails (R341). -/
inductive Rail where
  | core
  | kp
  | sram
  | nvm
  | phyLow
  | phyHigh
  | vddio (k : BasinIx)
  deriving DecidableEq, Repr

/-- The strap and reset pins as they stand (R432): strapped low where nothing says otherwise (log entry 75). -/
structure Pins where
  profile : BitVec 2 := 0
  bootMode : BitVec 2 := 0
  testmode : Bool := false
  ktest : Bool := false
  deriving DecidableEq, Repr

/-- A PLL (R336): core 0–3, fabric, field, in the order of CRP_PLLSTAT. -/
abbrev PllIx := Fin 6

/-- The outcome of a host transfer (R367, R368). -/
inductive HostEnd where
  | ok
  | timeout
  | urca
  | poisoned
  deriving DecidableEq, Repr

/-- A scrubbed memory bank (R221, R230). -/
inductive ScrubBank where
  | basin (n : BasinIx) (b : BankIx)
  | reservoir (b : BankIx)
  deriving DecidableEq, Repr

/-- A barge halt or resume target, and the output blocks a safe-level order reaches (R191, R283, R310, R332). -/
inductive OutBlock where
  | hrpwm
  | fio
  | towline (l : Fin 16)
  deriving DecidableEq, Repr

/-- A byte-enabled host access of one DWORD or more (R358, R364): offset, bytes with enables, and whether its TLP is poisoned
or fails its ECRC (R356). -/
structure HostBytes where
  offset : Nat
  bytes : List (Option Byte)
  poisoned : Bool := false
  ecrc : Bool := false
  deriving DecidableEq, Repr

/-- The instruction a JTAG Update-IR loads (R409): its 6-bit opcode. -/
abbrev JtagIr := BitVec 6

/-- A host configuration write (R352 to R355): the fields that change the Ferry's behaviour, Max Read Request Size, the completion
timeout's range and disable, the enable and the function mask of MSI-X and the enables of the L1 PM Substates among them, the base of one BAR, and the AER status
bits that it clears. -/
structure ConfigWrite where
  bme : Bool
  d3hot : Bool
  ltrEn : Bool
  l1En : Bool
  mps : BitVec 3
  mrrs : BitVec 3 := 2
  ctoRange : BitVec 4 := 0
  ctoDis : Bool := false
  msixEn : Bool := true
  msixMask : Bool := false
  l1ss : BitVec 4 := 0
  bar : Option (Fin 3 × BitVec 64) := none
  aerClear : BitVec 32 := 0
  deriving DecidableEq, Repr

/-- The commands, one per row of the table. -/
inductive Instr where
  -- barge execution (chapters 2 to 6)
  | instructionIssue (dt : Nat) (g : BargeIx) (rivals : List Rival)
  | idleCount (dt : Nat) (g : BargeIx)
  | resultDelivery (dt : Nat) (g : BargeIx) (split : Bool)
  | storeBufferDrain (dt : Nat) (g : BargeIx) (rivals : List Rival)
  | xluDepart (dt : Nat) (g : BargeIx)
  | xluResponse (dt : Nat) (g : BargeIx)
  | rptElement (dt : Nat) (g : BargeIx) (rivals : List Rival)
  | iouComplete (dt : Nat) (g : BargeIx)
  | cntWaitEnd (dt : Nat) (g : BargeIx)
  | gateEntry (dt : Nat) (g : BargeIx)
  | gateReturn (dt : Nat) (g : BargeIx)
  | syncEffect (dt : Nat) (g : BargeIx)
  | bankOwnHandoverComplete (dt : Nat) (n : BasinIx) (b : BankIx)
  | sealDepart (dt : Nat) (g : BargeIx)
  | lineReadDeliver (dt : Nat) (n : BasinIx) (k : Fin 4) (way : Fin 4)
  | patrolRead (dt : Nat) (n : BasinIx) (k : Fin 4) (way : Fin 4)
  | codeWindowRead (dt : Nat) (g : BargeIx)
  | interruptEntry (dt : Nat) (g : BargeIx)
  | tcmpWrite (dt : Nat) (g : BargeIx) (k : Fin 4) (value : Word)
  | tcmpReached (dt : Nat) (g : BargeIx) (k : Fin 4)
  | intcSwiWrite (dt : Nat) (g : BargeIx) (value : Word)
  | basinDbellWrite (dt : Nat) (n : BasinIx) (src : Writer) (value : Word)
  | bankOwnWrite (dt : Nat) (n : BasinIx) (b : BankIx) (src : Writer) (value : Word)
  | codemapWrite (dt : Nat) (n : BasinIx) (p : Fin 4) (src : Writer) (value : Word)
  | bcPswWrite (dt : Nat) (g : BargeIx) (value : Word)
  | unitContextWrite (dt : Nat) (g : BargeIx) (word : BitVec 5) (value : Word)
  | registerWrite (dt : Nat) (path : RegPath) (value : Word)
  | dateArrival (dt : Nat) (g : BargeIx)
  | retryRequestArrival (dt : Nat) (g : BargeIx)
  | decisionNoticeArrival (dt : Nat) (g : BargeIx)
  | haltEntry (dt : Nat) (g : BargeIx)
  -- memories, code store, Wharf (chapters 8 and 9)
  | scrubAccess (dt : Nat) (bank : ScrubBank) (rivals : List Rival)
  | nvpProgram (dt : Nat) (c : Fin 4)
  | nvpBlank (dt : Nat) (c : Fin 4)
  | nvpComplete (dt : Nat) (c : Fin 4) (verified : Bool)
  | wharfAccept (dt : Nat) (init : Fin 16) (tx : Tx)
  | targetGrant (dt : Nat) (target : Fin 20) (rivals : List Rival)
  | targetResponse (dt : Nat) (init : Fin 16) (id : BitVec 5)
  | wharfCntclr (dt : Nat)
  -- the Keeper (chapter 7)
  | keeperCycleStart (dt : Nat) (task : Fin 256)
  | sealArrival (dt : Nat) (g : BargeIx) (crcOk : Bool) (disagree : Bool)
  | faultReportArrival (dt : Nat) (g : BargeIx) (crcOk : Bool)
  | resetReportArrival (dt : Nat) (g : BargeIx) (crcOk : Bool)
  | decision (dt : Nat) (task : Fin 256)
  | windowClose (dt : Nat) (task : Fin 256)
  | retryRequest (dt : Nat) (task : Fin 256)
  | lockGateOpen (dt : Nat) (task : Fin 256)
  | channelRetirementReport (dt : Nat)
  | keeperSelfTest (dt : Nat) (pass : Bool)
  | kclkMonitorWindow (dt : Nat) (count : Nat)
  | safeHalfPeriod (dt : Nat) (padA : Bool) (padB : Bool)
  | arm (dt : Nat) (arg : BitVec 8) (hm1 : LoadWrite)
  | run (dt : Nat) (arg : BitVec 8) (hm1 : LoadWrite)
  | startTask (dt : Nat) (arg : BitVec 8) (hm1 : LoadWrite)
  | stopTask (dt : Nat) (arg : BitVec 8) (hm1 : LoadWrite)
  | retireBarge (dt : Nat) (arg : BitVec 8) (hm1 : LoadWrite)
  | forceSafe (dt : Nat) (arg : BitVec 8) (hm1 : LoadWrite)
  | clearFc (dt : Nat) (arg : BitVec 8) (hm1 : LoadWrite)
  | restoreBarge (dt : Nat) (arg : BitVec 8) (hm1 : LoadWrite)
  | clearDegraded (dt : Nat) (arg : BitVec 8) (hm1 : LoadWrite)
  | kpDseedWrite (dt : Nat) (hm0 : Word) (hm1 : LoadWrite)
  | kpCfgWrite (dt : Nat) (hm0 : Word) (hm1 : LoadWrite)
  | taskEntryWrite (dt : Nat) (task : Fin 256) (word : Fin 16) (hm0 : Word) (hm1 : LoadWrite)
  | kpLogRead (dt : Nat)
  -- outputs (chapters 11 and 12)
  | hrpwmStgWrite (dt : Nat) (n : Fin 192) (src : StgWriter) (value : Word)
  | foStgWrite (dt : Nat) (n : Fin 128) (src : StgWriter) (value : Word)
  | tlStgWrite (dt : Nat) (l : Fin 16) (slot : Fin 64) (src : StgWriter) (value : Word)
  | hrpwmCommit (dt : Nat) (disagree : List (Fin 192))
  | foCommit (dt : Nat) (disagree : List (Fin 128))
  | tlCommit (dt : Nat) (l : Fin 16) (disagree : Bool)
  | groupSafeOrder (dt : Nat) (block : OutBlock)
  | timebaseEnable (dt : Nat) (m : Fin 16) (en : Bool)
  | periodBoundary (dt : Nat) (m : Fin 16)
  | zxmissExpiry (dt : Nat) (m : Fin 16)
  | hrpwmChannelEnable (dt : Nat) (n : Fin 192) (en : Bool)
  | tripZoneChange (dt : Nat) (z : Fin 32)
  | tripclr (dt : Nat) (n : Fin 192) (src : Writer)
  | hrpwmReadbackSample (dt : Nat) (n : Fin 192) (level : Bool)
  | hrpwmCrst (dt : Nat) (n : Fin 192)
  | resWrite (dt : Nat) (value : Bool)
  | calibrationLock (dt : Nat)
  -- the Weir (chapter 10)
  | weirGroupEnable (dt : Nat) (g : Fin 48) (en : Bool)
  | weirChannelEnable (dt : Nat) (n : Fin 384) (en : Bool)
  | mainSampleReady (dt : Nat) (n : Fin 384) (bits : List (Bool × Bool)) (upset : Bool)
  | fastSample (dt : Nat) (n : Fin 384) (bits : List Bool)
  | demodOutput (dt : Nat) (n : Fin 384) (upset : Bool)
  | recordAccept (dt : Nat) (n : Fin 384)
  | recordWrite (dt : Nat) (basin : BasinIx) (bank : Bool)
  | weirFreeze (dt : Nat) (task : Fin 256)
  | headerWrite (dt : Nat) (n : Fin 384)
  | stuckStream (dt : Nat) (n : Fin 384) (bits : List Bool)
  | clockLoss (dt : Nat) (g : Fin 48)
  | grst (dt : Nat) (g : Fin 48)
  | fthrWrite (dt : Nat) (n : Fin 384) (src : Writer) (value : Word)
  -- field inputs and outputs (chapter 12)
  | fiRawChange (dt : Nat) (n : Fin 128) (pad : Bool)
  | fiAccept (dt : Nat) (n : Fin 128)
  | fiFreeze (dt : Nat) (task : Fin 256)
  | pairDiscrepancy (dt : Nat) (m : Fin 64)
  | fret (dt : Nat) (n : Fin 128)
  | fiCrst (dt : Nat) (n : Fin 128)
  | foEnable (dt : Nat) (n : Fin 128) (en : Bool)
  | foReadbackSample (dt : Nat) (n : Fin 128) (level : Bool)
  | offTestStart (dt : Nat) (n : Fin 64)
  | offTestEnd (dt : Nat) (n : Fin 64) (level : Bool)
  | foCrst (dt : Nat) (n : Fin 128)
  -- Towline (chapter 12)
  | tlLinkEnable (dt : Nat) (l : Fin 16) (en : Bool)
  | rxLock (dt : Nat) (l : Fin 16) (chars : List Bool)
  | lockLoss (dt : Nat) (l : Fin 16) (chars : List Bool)
  | capResend (dt : Nat) (l : Fin 16)
  | frameReceive (dt : Nat) (l : Fin 16) (units : List Word) (aborted : Bool)
  | ackTimeout (dt : Nat) (l : Fin 16)
  | rxtoExpiry (dt : Nat) (l : Fin 16)
  | outFrameSend (dt : Nat) (l : Fin 16)
  | safeFrameSend (dt : Nat) (l : Fin 16)
  | poisonRecord (dt : Nat) (l : Fin 16)
  | tlFreeze (dt : Nat) (task : Fin 256)
  | tlMtxGo (dt : Nat) (l : Fin 16)
  | lrst (dt : Nat) (l : Fin 16)
  -- clocks, reset, power (chapter 13)
  | pllLock (dt : Nat) (p : PllIx)
  | pllLockLoss (dt : Nat) (p : PllIx)
  | clockMonitorWindow (dt : Nat) (clk : Clk) (count : Nat)
  | supplyFault (dt : Nat) (rail : Rail) (inRange : Bool)
  | keeperPowerOn (dt : Nat)
  | coldReset (dt : Nat) (pins : Pins) (levels : BitVec 12)
  | resetNPulse (dt : Nat) (width : Nat) (pins : Pins)
  | rstcmdWarm (dt : Nat) (value : Word) (pins : Pins)
  | lockstepMismatch (dt : Nat) (pins : Pins)
  | basinReset (dt : Nat) (n : BasinIx)
  | bargeResetCmd (dt : Nat) (g : BargeIx)
  | bholdWrite (dt : Nat) (high : Bool) (value : Word)
  | stsetWrite (dt : Nat) (value : Word)
  | stationTimeTrim (dt : Nat)
  | bpwrReqWrite (dt : Nat) (n : BasinIx) (value : Word)
  | b1Entry (dt : Nat) (n : BasinIx)
  | b1Wake (dt : Nat) (n : BasinIx)
  | powerTransitionComplete (dt : Nat) (n : BasinIx)
  | thermalConversion (dt : Nat) (readings : List (BitVec 12 × Bool))
  | bootVerify (dt : Nat) (firmware : List Byte) (sig : List Byte)
  | muartRecovery (dt : Nat) (firmware : List Byte) (sig : List Byte)
  -- host interface and Ferry (chapter 14)
  | hifDbellWrite (dt : Nat) (value : Dword) (tlp : HostFlags)
  | mailboxWrite (dt : Nat) (k : Fin 4) (data : HostBytes)
  | hifRciWrite (dt : Nat) (r : Fin 4) (value : Dword) (tlp : HostFlags)
  | hifRcfgWrite (dt : Nat) (r : Fin 4) (value : Dword) (tlp : HostFlags)
  | bar2Access (dt : Nat) (write : Bool) (data : HostBytes)
  | bar4Access (dt : Nat) (write : Bool) (data : HostBytes)
  | flr (dt : Nat)
  | perst (dt : Nat)
  | pcioAccess (dt : Nat) (data : List Word)
  | pcioFailure (dt : Nat) (kind : HostEnd)
  | ingressGo (dt : Nat) (e : Fin 4)
  | ingressDone (dt : Nat) (e : Fin 4) (data : List Byte) (how : HostEnd)
  | eqPush (dt : Nat) (q : Fin 14)
  | ferryStrmWrite (dt : Nat) (value : Word)
  | egressDraw (dt : Nat)
  | egressWrite (dt : Nat)
  | creditRefill (dt : Nat)
  | erst (dt : Nat)
  | l1Entry (dt : Nat)
  | ltrSend (dt : Nat)
  | ringEntryWrite (dt : Nat) (r : Fin 4)
  -- Harbourmaster firmware (chapter 15)
  | mailboxTake (dt : Nat) (k : Fin 4)
  | deadlineExpiry (dt : Nat) (k : Fin 4)
  | eventPost (dt : Nat)
  | hello (dt : Nat) (k : Fin 4)
  | info (dt : Nat) (k : Fin 4)
  | resetHost (dt : Nat) (k : Fin 4)
  | loadImage (dt : Nat) (k : Fin 4) (bindings : List Byte) (first : List Byte) (second : List Byte) (key : List Byte)
      (writes : Option Nat) (how : HostEnd) (differ : List Nat)
  | imageStat (dt : Nat) (k : Fin 4)
  | role (dt : Nat) (k : Fin 4)
  | taskStart (dt : Nat) (k : Fin 4) (differ : List Nat)
  | taskStop (dt : Nat) (k : Fin 4) (mismatch : Bool)
  | keeper (dt : Nat) (k : Fin 4) (mismatch : Bool)
  | claim (dt : Nat) (k : Fin 4)
  | release (dt : Nat) (k : Fin 4)
  | latTol (dt : Nat) (k : Fin 4)
  | counters (dt : Nat) (k : Fin 4)
  | reset (dt : Nat) (k : Fin 4)
  | eventRoute (dt : Nat) (k : Fin 4)
  | setTime (dt : Nat) (k : Fin 4)
  -- debug and security (chapter 16)
  | dbgHalt (dt : Nat) (g : BargeIx)
  | dbgResume (dt : Nat) (g : BargeIx)
  | dbgStep (dt : Nat) (g : BargeIx) (rivals : List Rival)
  | dbgPcWrite (dt : Nat) (g : BargeIx) (value : Word)
  | dbgRegdataWrite (dt : Nat) (g : BargeIx) (value : Word)
  | drst (dt : Nat)
  | newchal (dt : Nat) (random : BitVec 256)
  | verify (dt : Nat) (slot : Fin 4)
  | verifyComplete (dt : Nat) (key : List Byte)
  | relock (dt : Nat)
  | fuseLifeAdvance (dt : Nat) (value : Word)
  | fuseKeyProgram (dt : Nat) (value : Word)
  | fuseDbgSet (dt : Nat) (value : Word)
  | fuseRevoke (dt : Nat) (value : Word)
  | fuseArbAdvance (dt : Nat) (value : Word)
  | fuseFwcntAdvance (dt : Nat) (value : Word)
  | fusePfuseBlow (dt : Nat) (value : Word)
  | fusePlockBlow (dt : Nat) (value : Word)
  | fuseOpComplete (dt : Nat)
  | jtagUpdateDr (dt : Nat) (dr : BitVec 72)
  | tapReset (dt : Nat)
  -- rows added at the table's end
  | coldResetAssert (dt : Nat) (rail : Rail)
  | keeperPowerOnReset (dt : Nat)
  | noCrystalEdge (dt : Nat)
  | basinSelfTestComplete (dt : Nat) (n : BasinIx) (defects : List (Fin 16 × Fin 348))
  | reservoirSelfTestComplete (dt : Nat) (p : Fin 4) (defects : List (Fin 4 × Fin 348))
  | fiEnable (dt : Nat) (n : Fin 128) (en : Bool)
  | jtagUpdateIr (dt : Nat) (ir : JtagIr)
  | configSpaceWrite (dt : Nat) (cfg : ConfigWrite)
  deriving DecidableEq, Repr

end Sys2Proof
end

