-- ==== Sys2Proof/Config.lean ====
section
/-! DEFINITION. What the source leaves open, as opaque constants that nothing can evaluate: free values, and the
cryptographic functions that the source names but does not define. -/

namespace Sys2Proof.Config

/-- A free 61-bit value: the signature S after a reset of the SIG unit ("S is then undefined until a date loads it", R166).
Its argument is the state's counter of free values (log entry 3). -/
opaque freeSignature : Nat → BitVec 61

/-- A free choice: old setting or new one for an SY field between its write and its SYNC (R6, R46), and old or new content
of a line reprogrammed while it can be fetched (R97). Its argument is the state's counter of free values (log entry 3). -/
opaque freeChoice : Nat → Bool

/-- A free word: the data of a store, code or host transfer that the source leaves open (log entry 3). -/
opaque freeWord : Nat → BitVec 36

/-- A free code line: what a reset or a failed verify during programming leaves in a line (R229, R402). -/
opaque freeLine : Nat → BitVec 576

/-- The 256 bits that the on-die random source gives a challenge (R408) when SEC_CTL is written as a register (log entry 3). -/
opaque freeRandom : Nat → BitVec 256

/-- SHA-384 of a list of bytes (R399, R418): the standard's function, which the source names and does not restate
(log entry 4). Byte i of the digest stands in bits 8i+7 to 8i. -/
opaque sha384 : List (BitVec 8) → BitVec 384

/-- ECDSA P-384 verification of a signature (96 bytes, r then s) over a hash under a key (R399, R408, R417): the
standard's function, which the source names and does not restate (log entry 4). -/
opaque ecdsaVerify : (key : List (BitVec 8)) → (hash : BitVec 384) → (sig : List (BitVec 8)) → Bool

/-- The two vendor public keys that the boot ROM holds (R417): the source does not give them. -/
opaque vendorKey : Bool → List (BitVec 8)

/-- Which vendor key a firmware image names in its header, and the header's FWSEC (R417): the source does not lay the header
out. -/
opaque firmwareKey : List (BitVec 8) → Bool
opaque firmwareSec : List (BitVec 8) → Nat

/-- The version of a firmware image (R393 word 0): [15:0] major·256 + minor, [31:16] build. -/
opaque firmwareVersion : List (BitVec 8) → BitVec 32

end Sys2Proof.Config
end

