-- ==== Sys2Proof/Machine/State.lean ====
section
/-! DEFINITION. The state of the part, as plain data: every register, FIFO, queue, counter, mode and pin that the spec
names, and the queue of waiting commands. Registers whose fields hardware does not update are held as one word, masked to
their fields (R7); the others field by field. `State.reset` is the device right after the release of a cold reset. -/

namespace Sys2Proof.Machine

/-- Why the machine stops with a fault. Nothing in the source stops the part, so there is no fault. -/
inductive Fault where
  deriving DecidableEq, Repr

/-- Why a command has no meaning. -/
inductive Refusal where
  /-- No meaning has been written for the command's row. Raised by no meaning. Safe. -/
  | notModelled (mnemonic : String)
  /-- TESTMODE was high at the last reset release: "no function of this manual is available" (R432). Raised by
  `exec` of every command. Safe. -/
  | factoryMode
  deriving DecidableEq, Repr

/-! ### Barges (chapters 2 to 6) -/

/-- FLAGS (R34). -/
structure Flags where
  z : Bool := false
  n : Bool := false
  c : Bool := false
  v : Bool := false
  g : Bool := false
  deriving DecidableEq, Repr

/-- One world's register bank (R36). -/
structure WorldRegs where
  w : Vector Word 64 := Vector.replicate 64 0
  lnk : Word := 0
  deriving DecidableEq, Repr

/-- The fixed-latency result ports (R41). -/
inductive ResultPort where
  | alu0
  | alu1
  | mul
  | lsu
  | mac0
  | mac1
  | mac2
  | vmul
  | vchk
  | cnt
  deriving DecidableEq, Repr

/-- A fixed-latency result in flight (R41): its port, the instruction count at which it falls due, its value (none for cmp
and tst, R55), the flags or G that it updates (R35), and the delivery fault that it carries (R52). -/
structure Flight where
  port : ResultPort
  due : Nat
  value : Option Word
  flags : Option (Bool × Bool × Bool × Bool) := none
  g : Option Bool := none
  fault : Option (BitVec 8) := none
  faddr : Word := 0
  deriving DecidableEq, Repr

/-- The operand and result ports, pointers and accumulators of the function units (R26, R27, R74, R120). -/
structure Units where
  alu0o : Word := 0
  alu1o : Word := 0
  mulo : Word := 0
  lsua : Word := 0
  lsux : Word := 0
  lsud : Word := 0
  xlua : Word := 0
  xlud : Word := 0
  macxs : Word := 0
  macys : Word := 0
  macxm : Word := 0
  macym : Word := 0
  ioua : Word := 0
  ioud : Word := 0
  vmulo : Word := 0
  vmuls : Word := 0
  vmulk : Word := 0
  vchko : Word := 0
  vchks : Word := 0
  vchkh : Word := 0
  alu0r : Word := 0
  alu1r : Word := 0
  mulr : Word := 0
  lsur : Word := 0
  xlur : Word := 0
  macv : Vector Word 3 := Vector.replicate 3 0
  rptr : Word := 0
  iour : Word := 0
  vmulr : Word := 0
  vchkr : Word := 0
  cntr : Word := 0
  cntLatch : BitVec 28 := 0
  acc : Vector (BitVec 84) 3 := Vector.replicate 3 0
  macxa : BitVec 20 := 0
  macya : BitVec 20 := 0
  rc : Word := 0
  rs : Word := 0
  rd : Word := 0
  rmode : Word := 0
  deriving DecidableEq, Repr

/-- A store-buffer entry (R64): address, size in nonets, data, world, its place in program order, the basin BCLK of its
trigger, and how often it has given way to a load of its own barge. -/
structure StoreEntry where
  addr : Nat
  size : Nat
  data : BitVec 72
  world : Bool
  seq : Nat
  since : Nat
  gaveWay : Nat := 0
  deriving DecidableEq, Repr

/-- An XLU transaction (R68): it departs once every store-buffer entry older than `after` has drained (R66). -/
structure XluOp where
  write : Bool
  size : TxSize
  addr : BitVec 32
  data : Word
  world : Bool
  after : Nat
  load : Nat
  deriving DecidableEq, Repr

/-- An XLU response on its way back to the barge (R71). -/
structure XluResp where
  write : Bool
  load : Nat
  data : Word
  ok : Bool
  deriving DecidableEq, Repr

/-- The IOU operation in progress (R82), with the world and level of its trigger and the generation tag that travels with a
staging write (R192). `line` holds the word a code-window read has delivered (R84). -/
structure IouOp where
  write : Bool
  addr : BitVec 16
  data : Word
  world : Bool
  sup : Bool
  after : Nat
  date : BitVec 32
  att : Bool
  line : Option Word := none
  deriving DecidableEq, Repr

/-- What a CNT wait waits for (R87): a station time, or an end in the basin's BCLK count. -/
inductive CntWait where
  | time (t : Word)
  | count (last : Nat)
  deriving DecidableEq, Repr

/-- The hold of a gate or gate return before its drain ends (R107, R108, R444): the world its instruction issued in, the trigger
operand, its address and that of the instruction in sequence after it. -/
structure GateHold where
  isReturn : Bool
  world : Bool
  t : Word
  pc : BitVec 14
  next : BitVec 14
  /-- Its operations have drained and its SYNC has acted (R100, R107). -/
  synced : Bool := false
  deriving DecidableEq, Repr

/-- The second part of a split load (R63), read at the earliest in the BCLK after its first part's, BCLK `since`: the op, the
address and size of the whole access, what the first part read and the uncorrectable words it met, the count at which the load
falls due, and what its delivery faults need. -/
structure SecondPart where
  since : Nat
  op : Nat
  addr : Nat
  size : Nat
  first : Nat
  ues : List Nat
  due : Nat
  tagMode : Bool
  pc : BitVec 14
  deriving DecidableEq, Repr

/-- An access of the held instruction, or of the RPT element in progress, that its bank has already granted (R44, R76, R79):
its place among the instruction's accesses, its address, and what it read with the uncorrectable words met, by word index. -/
structure DoneAccess where
  place : Nat
  addr : Nat
  raw : Nat
  ues : List Nat
  deriving DecidableEq, Repr

/-- A line held by the line buffer or a BTB entry (R88, R93): its content as read, whether the read failed ECC or CRC (R96),
and whether an instruction of it has issued (R95). -/
structure HeldLine where
  line : BitVec 12
  data : LineBits
  bad : Bool
  used : Bool := false
  deriving DecidableEq, Repr

/-- A BTB entry (R93). -/
structure BtbEntry where
  src : BitVec 14
  tgt : BitVec 14
  /-- The target's line once it has been read. -/
  line : Option HeldLine := none
  deriving DecidableEq, Repr

/-- A setting that waits for SYNC (R98). -/
inductive SyKey where
  | psw
  | ctxid
  | fps (world : Bool)
  | fpu (world : Bool)
  | vbase (world : Bool)
  | bankOwn (b : BankIx) (world : Bool)
  | codemap
  | sigCfg
  | unit (word : BitVec 5)
  deriving DecidableEq, Repr

/-- One interrupt source of a barge (R110). -/
structure IntSource where
  en : Bool := false
  pri : BitVec 3 := 0
  world : Bool := false
  pend : Bool := false
  /-- The basin BCLK count at which PEND was last set (R113). -/
  since : Nat := 0
  deriving DecidableEq, Repr

/-- An entry whose first handler instruction has not issued (R114, R124, R126): its handler's world, the frame that was
written, the frame pointer before it, the fault or interrupt and the context it interrupted, whether it is a double fault's,
and an interrupted RPT instruction's address. -/
structure EntryRec where
  handler : Bool
  frame : List Word
  ctxWorld : Bool
  ctxSup : Bool
  oldFp : BitVec 20
  cause : BitVec 8
  faddr : Word
  pc : BitVec 14
  double : Bool
  /-- The RPT instruction's address of an operation that the entry interrupted (R80). -/
  rptPc : Option (BitVec 14) := none
  deriving DecidableEq, Repr

/-- The frame accesses of an entry, while not all are made (R114 step 4, R117, R124): the area's first nonet, how many of its three
row writes and three readbacks have been made, and the BCLK of the next one at the earliest. -/
structure FrameRun where
  addr : Nat
  made : Nat := 0
  next : Nat
  deriving DecidableEq, Repr

/-- An rfe whose return is not complete (R100, R118): its operand, its address and BCLK, whether its SYNC has acted, the frame words
that it has read, and the BCLK of its next row read at the earliest. -/
structure RfeRun where
  t : Word
  pc : BitVec 14
  since : Nat
  synced : Bool := false
  words : List Word := []
  next : Nat
  deriving DecidableEq, Repr

/-- The barge control words of one world's window (R102, R84, R110). -/
structure WorldCtl where
  fps : BitVec 20 := 0
  fpu : BitVec 20 := 0
  vbase : BitVec 7 := 0
  pbar : Bool := false
  cause : BitVec 8 := 0
  causeUl : Bool := false
  causeInexact : Bool := false
  faddr : Word := 0
  last : Option (BitVec 6) := none
  cwBlk : BitVec 4 := 0
  cwBank : BitVec 2 := 0
  cwUe : Bool := false
  cwCrce : Bool := false
  deriving DecidableEq, Repr

/-- A message on a barge's seal link (R164), in the order sent. -/
inductive SealMsg where
  | seal (s : BitVec 61) (task : BitVec 8) (n : BitVec 16)
  | fault (cause : BitVec 8) (pc : BitVec 14) (task : BitVec 8)
  | reset (rstinfo : Word)
  deriving DecidableEq, Repr

/-- The signature unit (R155 to R166). -/
structure Sig where
  s : BitVec 61 := 0
  task : BitVec 8 := 0
  n : BitVec 16 := 0
  date : BitVec 32 := 0
  isOpen : Bool := false
  retry : Bool := false
  queue : List (BitVec 32 × BitVec 8) := []
  qovf : Bool := false
  en : Bool := false
  tchk : Bool := true
  seals : Word := 0
  captured : Option (SealMsg × Bool) := none
  retryHeld : Option (BitVec 32 × BitVec 8) := none
  deriving DecidableEq, Repr

/-- A breakpoint (R414, R422): DBG_BPA, DBG_BPC.CTXID and HITS. -/
structure Breakpoint where
  bpa : BitVec 21 := 0
  ctxid : BitVec 16 := 0
  hits : BitVec 20 := 0
  deriving DecidableEq, Repr

/-- A barge debug module (R411 to R416, R422). -/
structure Dbg where
  maski : Bool := false
  hor : Bool := false
  tup : Bool := false
  halted : Bool := false
  refused : Bool := false
  cause : BitVec 3 := 0
  bphit : BitVec 3 := 0
  haltReq : Option (BitVec 3 × BitVec 3) := none
  skipBp : Bool := false
  /-- A step is to halt the barge after its next instruction (R413). -/
  stepping : Bool := false
  regsel : BitVec 8 := 0
  bps : Vector Breakpoint 8 := Vector.replicate 8 {}
  tptr : BitVec 5 := 0
  wrap : Bool := false
  trace : Vector (BitVec 16) 32 := Vector.replicate 32 0
  /-- Writes to PSW and unit context that take effect when the barge resumes (R415). -/
  atResume : List (SyKey × Word) := []
  deriving DecidableEq, Repr

/-- The running RPT operation (R79 to R81): the RPT instruction's address, the world and coding mode of its trigger, and the
basin BCLK from which its next element may be taken; its element accesses use RC, RS, RD. -/
structure RptRun where
  pc : BitVec 14
  world : Bool
  vital : Bool
  next : Nat
  deriving DecidableEq, Repr

/-- One barge. -/
structure Barge where
  pc : BitVec 14 := 0
  /-- Counts of the current idle run still to issue (R24). -/
  irun : Nat := 0
  psw : Word := 0x13
  ctxid : BitVec 16 := 0
  vital : WorldRegs := {}
  ordinary : WorldRegs := {}
  flags : Flags := {}
  u : Units := {}
  /-- Instructions issued since the barge's reset (R86 counter 1); the count of R41. -/
  count : Nat := 0
  flights : List Flight := []
  stores : List StoreEntry := []
  storeSeq : Nat := 0
  xluq : List XluOp := []
  xluResps : List XluResp := []
  xluCredits : Nat := 0
  xluIssued : Nat := 0
  xluSeen : Nat := 0
  iou : Option IouOp := none
  rpt : Option RptRun := none
  /-- The RPT instruction's address of each operation that an entry interrupted, by the nonet address of its frame (R80, R81). -/
  rptFrames : List (Nat × BitVec 14) := []
  /-- The basin BCLK from which the next instruction may issue after an RPT operation (R79). -/
  issueFrom : Nat := 0
  /-- The second part of the last split load, while it has not been read (R63). -/
  second : Option SecondPart := none
  /-- The accesses of the held instruction or of the RPT element that have been granted. -/
  done : List DoneAccess := []
  /-- The BCLK in which an instruction with more than four register writes was first tried (R44). -/
  wide : Option Nat := none
  /-- The BCLK in which the store buffer last drained an entry (R64). -/
  drainAt : Option Nat := none
  wait : Option CntWait := none
  gate : Option GateHold := none
  /-- The basin BCLK count from which VMUL accepts its next trigger (R41). -/
  vmulReady : Nat := 0
  /-- A SYNC was requested by the last instruction (R98). -/
  sync : Bool := false
  syPend : List (SyKey × Word) := []
  /-- A trap whose entry waits for an IOU write (R100): t, the address of the instruction after it, and the world it arose in. -/
  trapDue : Option (Word × BitVec 14 × Bool) := none
  /-- An rfe whose return is not complete (R100, R118). -/
  rfeDue : Option RfeRun := none
  /-- The frame accesses of the present entry (R114, R124). -/
  frameRun : Option FrameRun := none
  entry : Option EntryRec := none
  /-- While a double-fault handler runs (R126): PC and world of the context whose entry failed first, and that entry's cause. -/
  dbl : Option (BitVec 14 × Bool × BitVec 8) := none
  /-- The last station-time sample (R87). -/
  lastSample : BitVec 64 := 0
  /-- A dropped handover's I/O access fault, taken at the next boundary (R215): the I/O word address. -/
  hoFault : Option Word := none
  lineBuf : List HeldLine := []
  btb : List BtbEntry := []
  /-- The target line that the last taken branch found stored in its own BTB entry (R88, R93). -/
  btbLine : Option HeldLine := none
  wantLine : Option (BitVec 12) := none
  /-- The last taken branch with PSW.P = 1 reads its target line from eNVM even when it is held (R92). -/
  mustRead : Bool := false
  /-- The line of the last instruction issued since a flush (R89). -/
  lastLine : Option (BitVec 12) := none
  wrongPath : Word := 0
  intc : Vector IntSource 64 := Vector.ofFn fun i => { world := decide (i.val < 3) }
  tcmp : Vector Word 4 := Vector.replicate 4 0
  tcmpArmed : Vector Bool 4 := Vector.replicate 4 false
  vctl : WorldCtl := {}
  octl : WorldCtl := {}
  gateBase : BitVec 20 := 0
  gateCnt : BitVec 9 := 0
  rstinfo : Word := 0
  sig : Sig := {}
  dbg : Dbg := {}
  /-- The basin BCLK count at the barge's reset (R86 counter 0). -/
  bclkBase : Nat := 0
  /-- The device time at which an instruction was first found held, and the BCLK spent stalled (R86 counter 2). -/
  holdSince : Option Nat := none
  stalled : Nat := 0
  /-- The next instruction has lost an arbitration for a bank and holds (R44, R113, R216). -/
  arb : Bool := false
  /-- The banks that the next instruction still asks for after such a loss (R64, R216). -/
  arbAt : List BankIx := []
  deriving DecidableEq, Repr

/-! ### Memories (chapter 8) -/

/-- The SECDED status of a stored word (R210): one wrong bit, uncorrectable, or uncorrectable in cells that hold no value, so
that a write leaves it uncorrectable (log entry 2). Unlisted words are clean. -/
inductive EccMark where
  | ce
  | ue
  | stuck
  deriving DecidableEq, Repr

/-- A memory by nonet: the nonets that are not 0, by rising address, and the marked words by rising word index. -/
structure Mem where
  cells : List (Nat × Nonet) := []
  marks : List (Nat × EccMark) := []
  deriving DecidableEq, Repr

/-- A programmed code line (R225): its data bits as corrected, which of its 72-bit groups hold a correctable or an
uncorrectable error, and its stored CRC. An unlisted line is blank: its CRC fails. -/
structure CodeLine where
  data : LineBits
  ce : BitVec 8 := 0
  ue : BitVec 8 := 0
  crc : BitVec 32
  deriving DecidableEq, Repr

/-- What occupies a way of a code bank (R226). -/
inductive WayUse where
  | demand (p : Fin 4)
  | window (p : Fin 4)
  | ahead (p : Fin 4)
  | patrol
  | program (c : Fin 4)
  deriving DecidableEq, Repr

/-- A read or programming in a way: its use, its line, the BCLK of its start, that of its request (R226), and the device time
of its start (R229). -/
structure WayRead where
  use : WayUse
  line : BitVec 12
  since : Nat
  asked : Nat
  time : Nat
  deriving DecidableEq, Repr

/-- One code bank (R225 to R227). -/
structure CodeBank where
  lines : List (Nat × CodeLine) := []
  ways : Vector (Option WayRead) 4 := Vector.replicate 4 none
  /-- The BCLK from which each way may start a read (R88), and the BCLK of its last patrol read's end (R227). -/
  wayFrom : Vector Nat 4 := Vector.replicate 4 0
  patrolAt : Vector Nat 4 := Vector.replicate 4 0
  /-- Demand fetches waiting for a way, each with the BCLK of its request (R226). -/
  demands : List (Fin 4 × BitVec 12 × Nat) := []
  /-- Prefetches waiting for a way (R89). -/
  aheads : List (Fin 4 × BitVec 12) := []
  /-- The ways that take a patrol read next, and keep it to its end: 65,536 BCLK without one have passed (R227). -/
  patrolDue : BitVec 4 := 0
  patrolNext : Vector (BitVec 10) 4 := Vector.replicate 4 0
  /-- The ways that have wrapped since the last whole patrol pass (R227, R231). -/
  patrolDone : BitVec 4 := 0
  ceCnt : BitVec 12 := 0
  ueCnt : BitVec 12 := 0
  crcCnt : BitVec 12 := 0
  deriving DecidableEq, Repr

/-- A bank handover between its steps 2 and 4 (R214): the value before, the writing barge (none: the Harbourmaster), and
the accesses checked against the old value that have not finished: the store-buffer entries as barge position and place in
program order, and the number of target-port transactions. -/
structure Handover where
  old : BitVec 7
  writer : Option (Fin 4)
  stores : List (Fin 4 × Nat)
  tport : List Nat := []
  deriving DecidableEq, Repr

/-- A handover waiting for an earlier one of its bank (R215). -/
structure WaitingHo where
  value : BitVec 7
  writer : Option (Fin 4)
  world : Bool
  deriving DecidableEq, Repr

/-- The handovers of a bank that became effective in one BCLK (R215): the BCLK, the bank as it stood before them, and the
handovers in the order in which they take effect. -/
structure HoTurn where
  bclk : Nat
  own : BitVec 7
  ho : Option Handover
  hoWait : List WaitingHo
  list : List WaitingHo
  deriving DecidableEq, Repr

/-- One BCLK's grant of a bank's port A (R216, R217): the BCLK, the requester granted, whether it has made its access, and the
requesters that asked and lost. -/
structure PortTurn where
  bclk : Nat
  winner : Fin 6
  used : Bool
  losers : List (Fin 6)
  /-- Requesters that no command of the BCLK had named when it was granted: they ask from the next BCLK on. -/
  late : List (Fin 6) := []
  deriving DecidableEq, Repr

/-- A requester of port B of a quay bank (R219). -/
inductive PortB where
  | weir
  | towline
  | target
  deriving DecidableEq, Repr

/-- One bank's ownership and port arbitration (R212 to R219). `losses` and `lift` stand as at the start of BCLK `turn.bclk`. -/
structure Bank where
  own : BitVec 7 := 7
  ho : Option Handover := none
  hoWait : List WaitingHo := []
  hoTurn : Option HoTurn := none
  losses : Vector Nat 6 := Vector.replicate 6 0
  lift : List (Fin 6) := []
  turn : Option PortTurn := none
  /-- The requesters that have asked and not been granted since (R216, R217). -/
  waiters : List (Fin 6) := []
  /-- The BCLK of port B's last access, and whether Towline was the last of Towline and the target port to get it (R219). -/
  portBAt : Option Nat := none
  towlineLast : Bool := false
  scrubRow : Nat := 0
  scrubFront : List Nat := []
  /-- A row read by the scrubber with a correctable error, to be written back unless written meanwhile (R221). -/
  scrubBack : Option Nat := none
  scrubLast : Nat := 0
  deriving DecidableEq, Repr

/-- What a quay port has written in one BCLK (R211): the BCLK, each nonet written with the value it had before, and each word
written with the mark it had before. -/
structure PortWrite where
  bclk : Nat
  old : List (Nat × Nonet)
  oldMarks : List (Nat × Option EccMark)
  deriving DecidableEq, Repr

/-- An outbound window (R366). -/
structure PcioWin where
  baseL : Word := 0
  baseH : BitVec 16 := 0
  en : Bool := false
  deriving DecidableEq, Repr

/-- A transaction accepted at an initiator port (R237 to R241): `since` is the XCLK from which it is presented at its target's
input, `load` the XLU load that it serves. -/
structure WharfReq where
  init : Fin 16
  target : Fin 20
  tx : Tx
  qos : Nat
  since : Nat
  seq : Nat
  load : Nat := 0
  /-- Its initiator was reset: the response is discarded (R247). -/
  drop : Bool := false
  /-- The basin target port that took it refuses it, in its turn behind an earlier one of its initiator and ID (R240). -/
  refuse : Bool := false
  /-- The beats of a burst that a basin's target port has made, what they have read, and whether one met an uncorrectable word:
  the port makes one access per BCLK (R210). -/
  beat : Nat := 0
  got : List Word := []
  bad : Bool := false
  /-- WHARF_INTEN as this transaction's decode error or refusal uses it: a write acts on those accepted from the next XCLK (R248). -/
  irq : Bool × Bool := (true, false)
  /-- The outbound window as it stood when the transaction was accepted, for one to PCIO (R377). -/
  win : PcioWin := {}
  deriving DecidableEq, Repr

/-- One basin (R209 to R231). -/
structure Basin where
  mem : Mem := {}
  banks : Vector Bank 16 := Vector.replicate 16 {}
  code : Vector CodeBank 4 := Vector.replicate 4 {}
  codemap : Vector (BitVec 2) 4 := #v[0, 1, 2, 3]
  scrubIdle : Bool := true
  scrubPatrol : Bool := true
  scrubPass : BitVec 16 := 0
  codePass : BitVec 4 := 0
  ceCnt : Word := 0
  ueCnt : Word := 0
  errAddr : BitVec 20 := 0
  errUe : Bool := false
  errSrc : BitVec 3 := 0
  quayColl : Word := 0
  refAddr : BitVec 20 := 0
  refWr : Bool := false
  refCnt : Word := 0
  bistS : BitVec 16 := 0
  bistC : BitVec 4 := 0
  bistDone : Bool := false
  /-- A self-test is running (R224); the BASIN bit of HIF_READY is clear meanwhile. -/
  testing : Bool := true
  /-- The self-test is that of a wake from B3, which is no reset (R224, R347). -/
  waking : Bool := false
  repair : Vector Word 16 := Vector.replicate 16 0xFFFFFFFFF
  portA : Option PortWrite := none
  portB : Option PortWrite := none
  /-- The BCLK of the last collision counted (R211). -/
  collAt : Option Nat := none
  /-- Counters that an event has changed, by register offset, each with the BCLK of its last event and its value before that
  BCLK's events (R6, R231). -/
  before : List (Nat × Nat × Word) := []
  /-- The basin's BCLK count up to `bclkSince`, from which it counts on at the present divider (R338). -/
  bclkAcc : Nat := 0
  bclkSince : Nat := 0
  /-- The tender's queue: departed XLU transactions by barge position, and its round-robin position (R241). -/
  tender : List (Fin 4 × XluOp) := []
  tenderRr : Fin 4 := 3
  /-- The XCLK in which the tender last presented a request: it presents one per XCLK (R241). -/
  tenderAt : Option Nat := none
  /-- The transactions that the target port holds: admitted, and waiting for their bank (R214, R239). -/
  tport : List WharfReq := []
  /-- Harbourmaster writes of BANK_OWN that are answered when their bank's handover ends (R214). -/
  hoAcks : List (BankIx × WharfReq) := []
  deriving DecidableEq, Repr

/-- A port of the Reservoir (R230). -/
structure RvPort where
  ceCnt : Word := 0
  ueCnt : Word := 0
  errWord : BitVec 20 := 0
  errUe : Bool := false
  fail : BitVec 4 := 0
  done : Bool := false
  repair : Vector Word 4 := Vector.replicate 4 0xFFFFFFFFF
  deriving DecidableEq, Repr

/-- The Reservoir: its words, its four ports and its 16 bank scrubbers (R230). -/
structure Reservoir where
  mem : Mem := {}
  ports : Vector RvPort 4 := Vector.replicate 4 {}
  banks : Vector Bank 16 := Vector.replicate 16 {}
  deriving DecidableEq, Repr

/-- One channel of the eNVM programming target (R229). -/
structure NvpChan where
  data : Vector Word 16 := Vector.replicate 16 0
  addr : BitVec 18 := 0
  busy : Bool := false
  done : Bool := false
  err : Bool := false
  /-- The operation in progress: its bank coordinates, its line, and the new content (none: blank). -/
  op : Option (Nat × Nat × Nat × Option LineBits) := none
  deriving DecidableEq, Repr

/-! ### The Wharf (chapter 9) -/

/-- The status of a response (R242). -/
inductive TxStatus where
  | ok
  | decerr
  | refused
  deriving DecidableEq, Repr

/-- A response not yet returned to its initiator (R242). -/
structure WharfResp where
  init : Fin 16
  id : BitVec 5
  write : Bool
  status : TxStatus
  data : List Word
  seq : Nat
  load : Nat := 0
  deriving DecidableEq, Repr

/-- A PCIO access sent to the host and not yet completed (R366, R367). -/
structure PcioReq where
  req : WharfReq
  haddr : BitVec 64
  words : Nat
  deriving DecidableEq, Repr

/-- What a counter of R248 has counted: a grant at a target after a wait, or an initiator's outstanding count. -/
inductive CountEvent where
  | grant (target : Fin 20) (wait : Nat)
  | outstanding (init : Fin 16) (cur : Nat)
  deriving DecidableEq, Repr

/-- The Wharf (R232 to R248). -/
structure Wharf where
  slice : Bool := true
  cnten : Bool := true
  intDecerr : Bool := false
  intRefuse : Bool := false
  enDecerr : Bool := true
  enRefuse : Bool := false
  /-- The Harbourmaster's Wharf interrupt (R243). -/
  hmInt : Bool := false
  decAddr : BitVec 32 := 0
  decInfo : BitVec 14 := 0
  /-- The XCLK of the recorded decode error (R243). -/
  decAt : Option Nat := none
  decCnt : Word := 0
  refCnt : Word := 0
  qos : Vector (BitVec 8) 16 :=
    #v[0x4E, 0x4E, 0x4E, 0x4E, 0x4E, 0x4E, 0x4E, 0x4E, 0x4E, 0x4E, 0x4E, 0x4E, 0x0F, 0x08, 0x0C, 0x01]
  /-- The latest write of each QoS register: its XCLK, and the value that transactions accepted in that XCLK still have (R248). -/
  qosWas : Vector (Option (Nat × BitVec 8)) 16 := Vector.replicate 16 none
  /-- The latest write of WHARF_INTEN: its XCLK, and the values that transactions accepted in that XCLK still have (R248). -/
  enWas : Option (Nat × Bool × Bool) := none
  /-- Since when an access that one command makes as a whole is held back, by its initiator (R248, log entry 49). -/
  directAt : Vector (Option Nat) 16 := Vector.replicate 16 none
  /-- The register write that its target performs now: a reset that it causes may end it (R247). -/
  serving : Option WharfReq := none
  cur : Vector Nat 16 := Vector.replicate 16 0
  maxOut : Vector Nat 16 := Vector.replicate 16 0
  istall : Vector Word 16 := Vector.replicate 16 0
  stallSince : Vector (Option Nat) 16 := Vector.replicate 16 none
  tgrant : Vector Word 20 := Vector.replicate 20 0
  twait : Vector Word 20 := Vector.replicate 20 0
  tmaxw : Vector (BitVec 16) 20 := Vector.replicate 20 0
  /-- The events counted in the latest XCLK that had one (R248). -/
  recent : List (Nat × CountEvent) := []
  rr : Vector (Fin 16) 20 := Vector.replicate 20 15
  /-- The XCLK in which each target may grant again: a transaction of k beats holds it for k XCLK (R239). -/
  busyTill : Vector Nat 20 := Vector.replicate 20 0
  reqs : List WharfReq := []
  resps : List WharfResp := []
  pcio : List PcioReq := []
  seq : Nat := 0
  deriving DecidableEq, Repr

/-! ### The Keeper (chapter 7) -/

/-- The Keeper's states (R176). -/
inductive KMode where
  | starting
  | armed
  | running
  | degraded
  | safe
  deriving DecidableEq, Repr

/-- A cycle of a task (R182 to R188), on the barge that got its date. -/
structure Cycle where
  start : BitVec 48
  date : BitVec 32
  barge : BargeIx
  /-- The current attempt of the generation (D, attempt): true once the retry's generation is open (R188). -/
  att : Bool := false
  /-- A retry has been decided on in the cycle (R188). -/
  retried : Bool := false
  /-- The tick at which the retry request is to be sent (R188). -/
  retryAt : Option (BitVec 48) := none
  /-- A seal has been judged (R184): the decision's code and the tick at which it takes effect. -/
  judged : Option (BitVec 4 × BitVec 48) := none
  /-- The barge has had a fault event in the cycle (R189). -/
  event : Bool := false
  deriving DecidableEq, Repr

/-- A task entry (R179): its words 0–12, its status words, and its current cycle. -/
structure KTask where
  words : Vector Word 13 := #v[0x4000, 0, 0, 0, 0, 0, 0, 0, 0, 0, 0, 0, 0]
  tstate : BitVec 2 := 0
  last : BitVec 4 := 0
  /-- A retry is pending: its request has been sent and its seal has not arrived (R184). -/
  rpend : Bool := false
  failrun : BitVec 4 := 0
  onbarge : BitVec 6 := 0
  date : BitVec 32 := 0
  fails : BitVec 18 := 0
  retries : BitVec 18 := 0
  /-- The cycles without a final decision, oldest first: the last is the current one. An earlier one is there only while its
  judged seal's decision has not taken effect (R184). -/
  cycles : List Cycle := []
  /-- The opening to be made at this tick, for this generation (R193). -/
  openAt : Option (BitVec 48 × BitVec 32 × Bool) := none
  /-- No cycle starts before this tick: a takeover's 10 µs (R190), until the standby's first cycle. -/
  notBefore : Option (BitVec 48) := none
  /-- The tick of the last cycle start, so that one tick starts one cycle. -/
  lastStart : Option (BitVec 48) := none
  /-- Dates issued to ONBARGE whose seal has not arrived (R196). -/
  outstanding : Nat := 0
  /-- After STOP_TASK: the barge, and how many later seals are logged but not counted (R196). -/
  stale : Option (BitVec 6 × Nat) := none
  deriving DecidableEq, Repr

/-- A message from the Keeper to a barge (R445). -/
inductive KMsg where
  | date (d : BitVec 32) (task : BitVec 8)
  | retry (d : BitVec 32) (task : BitVec 8)
  | notice
  deriving DecidableEq, Repr

/-- The fault events of one barge (R189): the ordinals of the dates during which the events among the last W dates fell, the
number of dates issued to it, and all events. -/
structure BargeFaults where
  events : List Nat := []
  dates : Nat := 0
  total : BitVec 32 := 0
  deriving DecidableEq, Repr

/-- A group's gate (R191 to R195): 0 safe level, 1 live, 2 holding after a failure; and its owner. -/
structure KGroup where
  owner : Option (BitVec 8) := none
  gstate : BitVec 2 := 0
  deriving DecidableEq, Repr

/-- A block's report of a retired vital channel (R197): the kind of R386 and the channel index. -/
structure RetReport where
  kind : Nat
  index : Nat
  deriving DecidableEq, Repr

/-- The Keeper (R173 to R206). -/
structure Keeper where
  /-- VDD_KP is present and power-on reset released (R345, R426). -/
  powered : Bool := true
  mode : KMode := .starting
  kt : BitVec 48 := 0
  lerr : Bool := false
  safecause : BitVec 8 := 0
  stok : Bool := false
  cmdOp : BitVec 4 := 0
  cmdResult : BitVec 4 := 0
  k : BitVec 4 := 3
  w : BitVec 16 := 1000
  comm : Bool := false
  date : BitVec 32 := 0
  retired : BitVec 48 := 0
  bf : Vector BargeFaults 48 := Vector.replicate 48 {}
  groups : Vector KGroup 64 := Vector.replicate 64 {}
  log : List Word := []
  /-- The device time of the latest KP_LOG entry, and how many entries its KCLK has added: a read of that KCLK does not see them (R6). -/
  logNew : Nat × Nat := (0, 0)
  logOvf : Bool := false
  tasks : Vector KTask 256 := Vector.replicate 256 {}
  toBarge : List (BargeIx × KMsg) := []
  links : Vector (List SealMsg) 48 := Vector.replicate 48 []
  reports : List RetReport := []
  /-- The pins SAFE_A and SAFE_B (R199, R200); KFAULT_N is high only in RUNNING (`kfaultN`). -/
  safeA : Bool := false
  safeB : Bool := false
  /-- The tick of the SAFE decision (R198). -/
  safeAt : Option (BitVec 48) := none
  /-- The tick at which the half-period of SAFE_A and SAFE_B ends (R200). -/
  toggleAt : Option (BitVec 48) := none
  testHold : Bool := false
  /-- The tick of the last event, and its stage in the order of R187. -/
  stageAt : BitVec 48 := 0
  stage : Nat := 0
  deriving DecidableEq, Repr

/-- A lock-gate opening or a safe-level order on its way to an output block (R193, R446). -/
inductive GateMsg where
  | opening (group : BitVec 6) (date : BitVec 32) (att : Bool) (since : Nat)
  | safe (group : BitVec 6)
  | safeAll
  deriving DecidableEq, Repr

/-! ### Outputs (chapters 11 and 12) -/

/-- A staged value with its generation tag (R192). -/
structure Staged where
  value : Word
  date : BitVec 32
  att : Bool
  deriving DecidableEq, Repr

/-- What a pad does (R291). -/
inductive Drive where
  | low
  | high
  | z
  deriving DecidableEq, Repr

/-- A timebase (R273 to R275, R296). -/
structure Timebase where
  en : Bool := false
  mode : BitVec 2 := 0
  src : BitVec 7 := 0
  cfgerr : Bool := false
  zxmiss : Bool := false
  per : BitVec 24 := 1000
  ofs : BitVec 24 := 0
  start : Word := 0
  slot : BitVec 16 := 1
  patlen : BitVec 5 := 0
  blen : BitVec 12 := 1
  /-- The PCLK in which EN took effect, the PCLK of the last boundary, and the PCLK at which a zero-cross delay ends. -/
  since : Nat := 0
  lastB : Option Nat := none
  zxDue : Option Nat := none
  /-- RES as its channels use it since the last boundary (R276). -/
  res : Bool := false
  bpos : BitVec 12 := 0
  slotcnt : BitVec 16 := 0
  patpos : BitVec 5 := 0
  deriving DecidableEq, Repr

/-- A trip zone (R285, R297). -/
structure TripZone where
  src0 : BitVec 30 := 0x3FFFFFFF
  src1 : BitVec 30 := 0x3FFFFFFF
  src2 : BitVec 23 := 0xFFFFF
  act : Bool := false
  count : BitVec 35 := 0
  orSince : Option Nat := none
  deriving DecidableEq, Repr

/-- An HRPWM channel (R276 to R293, R298). -/
structure PwmChan where
  stg : Option Staged := none
  cfg : Word := 2
  ores : BitVec 18 := 0
  dt : BitVec 24 := 0
  width : BitVec 30 := 0
  pat : BitVec 32 := 0
  trip : BitVec 33 := 0
  rb : BitVec 11 := 0x129
  /-- The pending value and the device time from which a boundary applies it (R282, R284). -/
  pend : Option (BitVec 24 × Nat) := none
  appl : Option (BitVec 24) := none
  /-- 0 safe level, 1 live, 2 retired (R298 STATE). -/
  st : BitVec 2 := 0
  /-- No value has applied since the enable or a channel reset (R283, R284, R290). -/
  fresh : Bool := true
  /-- As the odd partner of a pair: a value has applied to the pair since this channel's enable or reset (R279, R283, R290). -/
  joined : Bool := false
  /-- A commit has released the channel from its safe level without a value of its own: the device time from which a boundary
  lets it go (R195). -/
  relAt : Option Nat := none
  tripped : Bool := false
  trclr : Bool := false
  rcause : BitVec 2 := 0
  cfgerr : Bool := false
  range : Bool := false
  rbh : BitVec 4 := 0
  rbl : BitVec 4 := 0
  tripcnt : BitVec 21 := 0
  /-- The end, in this period, of a phase-shift interval that began in an earlier one (R278). -/
  spill : Nat := 0
  /-- The waveform at the end of the period before, and its last rising and falling edges before the last boundary, in fine
  units from time 0 (R277, R279). -/
  prevHigh : Bool := false
  lastRise : Nat := 0
  lastFall : Nat := 0
  /-- The pad's level when it last changed by anything but the waveform, or at the period's start, and since when it has been
  driven, in fine units; and the PCLK of the last readback sample (R288). -/
  phaseLvl : Drive := .z
  phaseAt : Nat := 0
  sampledAt : Option Nat := none
  deriving DecidableEq, Repr

/-- The HRPWM array (R273 to R298). -/
structure Hrpwm where
  res : Bool := false
  calok : Bool := false
  evt : BitVec 8 := 0
  tb : Vector Timebase 16 := Vector.replicate 16 {}
  tz : Vector TripZone 32 := Vector.replicate 32 {}
  ch : Vector PwmChan 192 := Vector.replicate 192 {}
  /-- Openings, discards and orders from the Keeper that the array has not acted on (R281, R282, R283). -/
  gates : List GateMsg := []
  deriving DecidableEq, Repr

/-- A field input (R299 to R307, R317). -/
structure FieldIn where
  cfg : BitVec 34 := 0x50028
  res : BitVec 22 := 0
  lvl : Bool := false
  raw : Bool := false
  pad : Bool := false
  /-- The device time and the stamp of the raw change that began the present run (R300). -/
  rawAt : Nat := 0
  rawTs : Word := 0
  ts : Word := 0
  retired : Bool := false
  rcause : BitVec 2 := 0
  cfgerr : Bool := false
  chg : Bool := false
  snap : Word := 0x800000000
  snapseq : BitVec 8 := 0
  edges : BitVec 21 := 0
  /-- Since when the pair's accepted levels have been equal (even channels with PAIR = 1, R305). -/
  equalAt : Option Nat := none
  /-- The device time of FI_CVAL's last change, and its value before the PCLK of that change (R302). -/
  cvalAt : Option Nat := none
  cvalOld : Word := 0x800000000
  deriving DecidableEq, Repr

/-- A field output (R308 to R315, R318). -/
structure FieldOut where
  stg : Option Staged := none
  cfg : BitVec 28 := 0x1914800
  test : BitVec 27 := 0x6414
  ores : BitVec 18 := 0
  appl : Option Bool := none
  st : BitVec 2 := 0
  rcause : BitVec 2 := 0
  cfgerr : Bool := false
  range : Bool := false
  tests : BitVec 30 := 0
  pad : Bool := false
  /-- The start of the off-test pulse in progress (R313). -/
  pulse : Option Nat := none
  /-- The start of the schedule (enable or CRST) and the number of the next test. -/
  schedAt : Nat := 0
  nextTest : Nat := 0
  miss : BitVec 10 := 0
  /-- The device time of the last change of driven level, and the microsecond of the last readback sample (R312). -/
  driveAt : Nat := 0
  sampledAt : Option Nat := none
  /-- No value has applied since the enable or a channel reset (R310). -/
  fresh : Bool := true
  deriving DecidableEq, Repr

/-- The field I/O block (R299 to R318). -/
structure Fio where
  evt : BitVec 8 := 0
  fi : Vector FieldIn 128 := Vector.replicate 128 {}
  fo : Vector FieldOut 128 := Vector.replicate 128 {}
  gates : List GateMsg := []
  /-- Tasks whose freeze signal is on its way (R302). -/
  freezes : List (BitVec 8) := []
  deriving DecidableEq, Repr

/-! ### Weir (chapter 10) -/

/-- A clock group (R249, R271). -/
structure WeirGroup where
  en : Bool := false
  /-- The device time at which EN was set, where SDCK starts high (R249). -/
  since : Nat := 0
  /-- The group has been enabled: from then on its pad is driven (R427). -/
  taken : Bool := false
  div : BitVec 7 := 20
  capt : BitVec 7 := 8
  clkloss : Bool := false
  gcfgerr : Bool := false
  deriving DecidableEq, Repr

/-- A record on its way to a delivery area: its channel or link, its words, the half and flags it carries, and the device time of
its acceptance (R258, R261). -/
structure Record where
  src : Nat
  half : Bool
  words : List Word
  time : Nat
  deriving DecidableEq, Repr

/-- A delivery area's state (R259 to R262): NEXT and WRAP of both halves, the live half, the freeze count, and the half whose
header is still to be written. -/
structure Area where
  next0 : BitVec 8 := 0
  next1 : BitVec 8 := 0
  wrap0 : Bool := false
  wrap1 : Bool := false
  half : Bool := false
  seq : BitVec 26 := 0
  seq0 : BitVec 26 := 0
  seq1 : BitVec 26 := 0
  header : Option Bool := none
  /-- The header row that is due is that of the enable: both words 0 (R261). -/
  zero : Bool := false
  deriving DecidableEq, Repr

/-- A Weir channel (R250 to R272). -/
structure WeirChan where
  cfg : BitVec 29 := 0x8080204
  chres : BitVec 26 := 0
  dst : Word := 0x10000
  fcfg : BitVec 27 := 0x6082
  fthr : Word := 0x80001FFFF
  dmcfg : BitVec 34 := 0xA
  dmftw : BitVec 32 := 0
  /-- Thresholds and HYST overwritten, oldest first, each with the device time until which samples still use it (R255). -/
  fthrPast : List (Word × BitVec 12 × Nat) := []
  retired : Bool := false
  rcause : BitVec 2 := 0
  cfgerr : Bool := false
  gap : Bool := false
  ff : Bool := false
  hi : Bool := false
  lo : Bool := false
  drops : BitVec 10 := 0
  /-- GAP of the next delivered record (R258). -/
  gapNext : Bool := false
  /-- The captured bits still within reach of the main and the fast filter, newest first, and the samples formed (R251, R254). -/
  bits : List Bool := []
  samples : Nat := 0
  fbits : List Bool := []
  fsamples : Nat := 0
  /-- The demodulator's products within reach of its decimator, newest first, and the main outputs and its own outputs counted (R256). -/
  ui : List Int := []
  uq : List Int := []
  dmMain : Nat := 0
  dmOut : Nat := 0
  /-- Of the main outputs since the last demodulator output: the last one's stamp, whether one was clamped, whether one was
  glitched, whether one met a filter fault. -/
  dmStamp : BitVec 32 := 0
  dmSat : Bool := false
  dmGlitch : Bool := false
  dmFault : Bool := false
  /-- Glitched or faulted among the last GWIN samples, newest first (R267). -/
  window : List Bool := []
  /-- A sample ready and not yet accepted by the delivery FIFO (R263). -/
  ready : Option (List Word) := none
  area : Area := {}
  deriving DecidableEq, Repr

/-- The Weir (R249 to R272). -/
structure Weir where
  glim : BitVec 4 := 4
  gwin : BitVec 12 := 1000
  bdrop : Vector Word 12 := Vector.replicate 12 0
  /-- The device time of each WEIR_BDROP counter's latest drop, and its value before the drops of that FCLK (R6). -/
  bdropWas : Vector (Option (Nat × Word)) 12 := Vector.replicate 12 none
  grp : Vector WeirGroup 48 := Vector.replicate 48 {}
  ch : Vector WeirChan 384 := Vector.replicate 384 {}
  fifo : Vector (List Record) 12 := Vector.replicate 12 []
  freezes : List (BitVec 8) := []
  deriving DecidableEq, Repr

/-! ### Towline (chapter 12) -/

/-- A data frame sent and not acknowledged (R324, R325): its units, its kind, its SEQ, the retries made, and its EOF's time. -/
structure TxFrame where
  kind : BitVec 4
  seq : BitVec 8
  units : List Word
  tries : Nat
  eof : Nat
  deriving DecidableEq, Repr

/-- A MAINT frame on its way into the Reservoir ring (R329): the Wharf writes not yet presented, how many are not yet answered, and
the words of the ring that it takes. -/
structure MaintIn where
  txs : List Tx
  left : Nat
  size : Nat
  deriving DecidableEq, Repr

/-- A Towline link (R319 to R335). -/
structure Link where
  cfg : BitVec 34 := 0x30000001A
  time : BitVec 28 := 0xC80000
  rxdst : Word := 0x10000
  rxcfg : BitVec 26 := 1
  mrx : Word := 0
  mrxWr : BitVec 16 := 0
  mrxRd : BitVec 16 := 0
  mtxAddr : BitVec 20 := 0
  mtxLen : BitVec 9 := 1
  mtxBusy : Bool := false
  mtxDone : Bool := false
  mtxFail : Bool := false
  /-- The Wharf reads of TL_MTX not yet presented, and the words that they have returned (R329). -/
  mtxTxs : List Tx := []
  mtxGot : List Word := []
  mrxFrames : List MaintIn := []
  up : Bool := false
  ver : BitVec 2 := 0
  nover : Bool := false
  lenerr : Bool := false
  retired : Bool := false
  rcause : BitVec 3 := 0
  cfgerr : Bool := false
  peer : BitVec 34 := 0
  crcerr : BitVec 18 := 0
  retries : BitVec 18 := 0
  drop : BitVec 18 := 0
  rxdup : BitVec 18 := 0
  lock : Bool := false
  /-- Consecutive valid characters received, up to 64, and which of the last 16 were violations, the newest in bit 0 (R319). -/
  rxRun : Nat := 0
  rxHist : BitVec 16 := 0
  /-- When the transmit line's next frame can start: two idle characters follow each frame (R319). -/
  lineFree : Nat := 0
  peerCap : Bool := false
  capAcked : Bool := false
  txSeq : BitVec 8 := 0
  rxSeq : Option (BitVec 8) := none
  unacked : Option TxFrame := none
  /-- The answer (ACK or NAK unit) sent last, and the last data frame sent, as units between SOF and EOF. -/
  answer : List Word := []
  sent : List Word := []
  image : Vector Word 64 := Vector.replicate 64 0
  imageDate : BitVec 32 := 0
  stg : Vector (Option Staged) 64 := Vector.replicate 64 none
  /-- A frame waits for its turn (R322, R329, R331, R332). -/
  outDue : Bool := false
  maintDue : Bool := false
  capDue : Bool := false
  safeDue : Bool := false
  capAt : Nat := 0
  /-- The version selected last, which fixes the poison word (R328). -/
  pver : BitVec 2 := 0
  lastOut : Nat := 0
  lastIn : Nat := 0
  lastPoison : Nat := 0
  lastSafe : Nat := 0
  gapNext : Bool := false
  area : Area := {}
  fifo : List Record := []
  /-- The rows of the first record that have been written (R327). -/
  recRow : Nat := 0
  gates : List GateMsg := []
  groupSafe : Bool := true
  deriving DecidableEq, Repr

/-- The Towline block (R319 to R335). -/
structure Towline where
  link : Vector Link 16 := Vector.replicate 16 {}
  freezes : List (BitVec 8) := []
  deriving DecidableEq, Repr

/-! ### Clocks, reset, power (chapter 13) -/

/-- A field VDDIO bank (R341, R351). Its level is what COLD_RESET detects; before the first it is 3.3 V (log entry 75). -/
structure IoBank where
  level : Bool := true
  mon : Bool := true
  inr : Bool := false
  flt : Bool := false
  deriving DecidableEq, Repr

/-- A basin's power state (R347, R351). -/
structure Bpwr where
  req : BitVec 2 := 0
  cur : BitVec 2 := 0
  autob1 : Bool := false
  tdiv : BitVec 2 := 0
  waking : Bool := false
  wakes : BitVec 27 := 0
  /-- The state a transition in progress leads to, and a request written meanwhile (R351). -/
  target : Option (BitVec 2) := none
  later : Option (BitVec 2) := none
  /-- REQ has changed, or an engine has reached a bank of port A, since the basin entered B1 (R347). -/
  changed : Bool := false
  deriving DecidableEq, Repr

/-- The clock, reset and power block (R336 to R351). -/
structure Crp where
  pins : Pins := {}
  /-- The resolved profile: 0 Full, 1 Direct, 2 Cool (R16, R337). -/
  profile : BitVec 2 := 0
  factory : Bool := false
  /-- BOOT_MODE as sampled at the last reset release (R417). -/
  bootMode : BitVec 2 := 0
  /-- Held in cold reset by a rail below its threshold (R426). -/
  coldHeld : Bool := false
  warm : Bool := false
  src : BitVec 2 := 0
  bhold : BitVec 48 := BitVec.allOnes 48
  locked : BitVec 6 := 0
  lost : BitVec 6 := 0
  clkflt : BitVec 18 := 0
  /-- The clocks whose last monitor window was faulty, in the order of CRP_CLKFLT (R340, R346). -/
  clkbad : BitVec 18 := 0
  /-- The clock and supply monitors are armed: step 6 of the bring-up has been reached (R345). -/
  armed : Bool := false
  inr : BitVec 6 := 0
  flt : BitVec 6 := 0
  iobank : Vector IoBank 12 := Vector.replicate 12 {}
  temp : Vector (BitVec 13) 8 := Vector.replicate 8 0
  tmax : BitVec 12 := 0
  hotRun : Vector Nat 8 := Vector.replicate 8 0
  failRun : Vector Nat 8 := Vector.replicate 8 0
  thi : BitVec 8 := 110
  tlo : BitVec 8 := 105
  then' : Bool := true
  level : BitVec 2 := 0
  hot : Bool := false
  steps : BitVec 33 := 0
  riseAt : Option Nat := none
  fallAt : Option Nat := none
  bpwr : Vector Bpwr 12 := Vector.replicate 12 {}
  stTime : BitVec 64 := 0
  sth : BitVec 28 := 0
  stsetl : Word := 0
  stIntvl : BitVec 20 := 0
  stDir : Bool := false
  trimAt : Nat := 0
  /-- The device time of the last warm reset (R344). -/
  warmAt : Option Nat := none
  deriving DecidableEq, Repr

/-! ### Host interface and Ferry (chapter 14) -/

/-- An event ring (R360). -/
structure Ring where
  base : BitVec 64 := 0
  log2n : BitVec 5 := 4
  en : Bool := false
  pi : BitVec 16 := 0
  ci : BitVec 16 := 0
  deriving DecidableEq, Repr

/-- The host interface (R358 to R361) and what the device has written to host memory. -/
structure Hif where
  busy : BitVec 4 := 0
  ovr : BitVec 4 := 0
  mb : Vector (List Byte) 4 := Vector.replicate 4 []
  /-- The HCLK in which the last doorbell set a mailbox's BUSY, and in which BUSY was last cleared (R359, R379). -/
  rungAt : Vector Nat 4 := Vector.replicate 4 0
  clearAt : Vector (Option Nat) 4 := Vector.replicate 4 none
  ring : Vector Ring 4 := Vector.replicate 4 {}
  /-- MSI-X messages sent, by vector, and the pending-bit array (R357, R361). -/
  sent : Vector Nat 64 := Vector.replicate 64 0
  pba : BitVec 64 := 0
  /-- The MSI-X table (R358): four DWORDs a vector, every vector masked at reset. -/
  table : Vector (BitVec 32) 256 := Vector.ofFn fun i => if i.val % 4 = 3 then 1 else 0
  /-- Configuration: Bus Master Enable, D3hot, LTR Mechanism Enable, ASPM L1 enable; link in L1 (R354, R355). -/
  bme : Bool := false
  d3hot : Bool := false
  ltrEn : Bool := false
  l1En : Bool := false
  inL1 : Bool := false
  /-- Max Payload Size as the host has set it: 128 · 2^mps bytes. -/
  mps : BitVec 3 := 0
  /-- Max Read Request Size as the host has set it: 128 · 2^mrrs bytes; the completion timeout's range and disable; MSI-X's enable and
  function mask; the enables of the L1 PM Substates (R352, R355). -/
  mrrs : BitVec 3 := 2
  ctoRange : BitVec 4 := 0
  ctoDis : Bool := false
  msixEn : Bool := false
  msixMask : Bool := false
  l1ss : BitVec 4 := 0
  /-- Subsystem Vendor ID and Subsystem ID, and what the configuration store holds for them (R353). -/
  subsys : BitVec 16 × BitVec 16 := (0x1F5C, 0x7240)
  subsysStore : Option (BitVec 16 × BitVec 16) := none
  /-- The base addresses of BAR0/1, BAR2/3 and BAR4/5 (R353), and AER's Uncorrectable Error Status (R352, R356). -/
  bar : Vector (BitVec 64) 3 := Vector.replicate 3 0
  aer : BitVec 32 := 0
  lastBusy : Nat := 0
  ltrSent : BitVec 14 := 0
  ltrCount : Nat := 0
  /-- What the last read of BAR2 or BAR4 returned (R362, R363). -/
  hostRead : List Byte := []
  /-- Bytes that the device has written to host memory, by rising address. -/
  hostMem : List Host.Cell := []
  deriving DecidableEq, Repr

/-- An ingress engine (R368). -/
structure Ingress where
  haddr : BitVec 64 := 0
  waddr : BitVec 32 := 0
  len : BitVec 20 := 1
  fmt : BitVec 2 := 0
  busy : Bool := false
  done : Bool := false
  err : Bool := false
  barge : BitVec 6 := 0
  ben : Bool := false
  men : Bool := false
  /-- The transfer in progress, as it stood at GO: Wharf address, length, format. -/
  run : Option (BitVec 32 × Nat × BitVec 2) := none
  /-- BARGE, BEN and MEN as they stood at GO (R377). -/
  runBarge : BitVec 6 := 0
  runBen : Bool := false
  runMen : Bool := false
  deriving DecidableEq, Repr

/-- What the Harbourmaster sends as a transfer of its egress requester: its bytes, and the number by which its end is known (R360,
R393, log entry 91). -/
structure HmXfer where
  bytes : List (BitVec 8)
  number : Nat
  deriving DecidableEq, Repr

/-- A queued egress descriptor and the payload bytes sent of it (R370, R371). -/
structure EgDesc where
  haddr : BitVec 64
  waddr : BitVec 32
  len : Nat
  fmt : BitVec 2
  stream : Bool
  sent : Nat := 0
  /-- The words read of it that a posted write has cut: none is read twice (R370). -/
  held : List Word := []
  /-- The Harbourmaster's own transfer. -/
  own : Option HmXfer := none
  deriving DecidableEq, Repr

/-- An egress requester (R370 to R376). -/
structure EgReq where
  haddr : BitVec 64 := 0
  waddr : BitVec 32 := 0
  len : BitVec 20 := 1
  fmt : BitVec 2 := 0
  stream : Bool := false
  queue : List EgDesc := []
  full : Bool := false
  failf : Bool := false
  done : BitVec 29 := 0
  tickets : BitVec 8 := 16
  share : BitVec 8 := 16
  bonus : BitVec 8 := 0
  credit : BitVec 16 := 0
  grants : BitVec 32 := 0
  waitN : BitVec 48 := 0
  lwait : BitVec 32 := 0
  fails : Word := 0
  /-- Since when the request line is asserted without the grant (R376). -/
  askAt : Option Nat := none
  /-- The last changes of the request line, the newest first: the XCLK, and the line after it (R374). -/
  edges : List (Nat × Bool) := []
  deriving DecidableEq, Repr

/-- The Ferry (R366 to R377). -/
structure Ferry where
  credMode : Bool := true
  park : Bool := true
  lfsr : BitVec 32 := 1
  lfsrAt : Nat := 0
  owner : Fin 14 := 0
  grant : Bool := false
  parked : Bool := false
  qpos : Nat := 0
  /-- The requesters that asked at the lottery draw of the present grant, until it carries data (R372). -/
  drawn : Option (BitVec 14) := none
  /-- The XCLK of a void grant, which carries no data and lasts that XCLK (R374). -/
  voidAt : Option Nat := none
  /-- MODE as it stood at the latest draw: a change applies from the next (R373). -/
  drawMode : Bool := true
  /-- The ring whose entry requester 12 has begun to write, and the bytes of it that have left (R360, R371). -/
  entry : Option (Fin 4 × Nat) := none
  /-- The Harbourmaster's transfers begun so far, and how each that has ended did: with its bytes, or failed. -/
  ownBegun : Nat := 0
  ownEnds : List (Nat × Option Nat) := []
  /-- The XCLK in which a descriptor's last write was handed to PCIe (R375). -/
  sentAt : Option Nat := none
  /-- The window of 4,096 XCLK whose refill has been made (R373). -/
  window : Nat := 0
  egprog : Word := 0
  strm : List Word := []
  trace : List Word := []
  traceLost : Nat := 0
  egrst : BitVec 18 := 0
  strmdrop : BitVec 18 := 0
  ltr : BitVec 14 := 0
  l1idle : BitVec 8 := 10
  errInit : BitVec 4 := 0
  errWr : Bool := false
  errKind : BitVec 2 := 0
  errCnt : BitVec 29 := 0
  hosterr : Word := 0
  win : Vector PcioWin 8 := Vector.replicate 8 {}
  ig : Vector Ingress 4 := Vector.replicate 4 {}
  eq : Vector EgReq 14 := Vector.replicate 14 {}
  deriving DecidableEq, Repr

/-! ### The Harbourmaster's firmware (chapter 15) -/

/-- A command taken from a mailbox and not yet completed (R378, R379). -/
structure FwCmd where
  op : BitVec 16
  tag : BitVec 16
  len : Nat
  deadline : BitVec 32
  /-- The LEN bytes of payload (R378). -/
  payload : List Byte
  takenAt : Nat
  /-- Its place in take order. -/
  seq : Nat
  /-- A LOAD_IMAGE that runs: the bindings that it read (R402, R442). -/
  started : Option (List (Nat × Nat × Nat)) := none
  /-- An INFO or COUNTERS whose record has been given to the egress engine: the number of its transfer (R392). -/
  sending : Option Nat := none
  deriving DecidableEq, Repr

/-- Something the firmware has been told of and has still to report as an event (R398). -/
inductive FwNotice where
  | keeperState (old new : BitVec 8) (cause : BitVec 8)
  | ready (words : BitVec 96)
  | retired (kind : Nat) (index : Nat) (cause : BitVec 8)
  | bargeReset (g : BargeIx) (info : Word)
  | thermal (level : BitVec 2) (tmax : BitVec 12)
  | decerr (addr : BitVec 32) (info : BitVec 14)
  | power (n : BasinIx) (cur : BitVec 2)
  | memerr (n : BasinIx) (src : BitVec 3) (codeBank : BitVec 2) (addr : BitVec 20)
  deriving DecidableEq, Repr

/-- The firmware's side of a ring (R380, R381): entries waiting, events lost, and the entries written so far. -/
structure FwRing where
  queue : List (List Byte) := []
  lost : BitVec 32 := 0
  seq : BitVec 32 := 0
  deriving DecidableEq, Repr

/-- A manifest entry (R400): kind, register field index, target and value. -/
structure ManEntry where
  kind : Nat
  field : Nat
  target : Nat
  value : Nat
  deriving DecidableEq, Repr

/-- A basin's image (R392 IMAGE_STAT, R402, R404): its state, 0 NONE, 1 LOADING, 2 VALID, 3 INVALID, and what the firmware
retains of it: its data words by basin-local word, its manifest, its bindings (class, slot, index), and its Keeper entries by
task, each as it was loaded. -/
structure FwImage where
  state : BitVec 2 := 0
  build : BitVec 64 := 0
  secver : BitVec 64 := 0
  words : List (Nat × Word) := []
  manifest : List ManEntry := []
  bindings : List (Nat × Nat × Nat) := []
  keeper : List (Nat × List Word) := []
  retainBytes : Nat := 0
  /-- The basin's SRAM has been zeroed since the retained data was last applied. -/
  stale : Bool := false
  deriving DecidableEq, Repr

/-- The firmware (R378 to R405). -/
structure Firmware where
  up : Bool := false
  recovery : Bool := false
  /-- The Harbourmaster code store: a firmware image and its signature (R417); none until a boot has said what the part holds. -/
  store : Option (List Byte × List Byte) := none
  /-- The failures that the boot ROM has reported on MUART (R417). -/
  bootFails : Nat := 0
  session : Option (BitVec 16) := none
  slot : Vector (Option FwCmd) 4 := Vector.replicate 4 none
  /-- A response of mailbox k's previous command is still to be written to ring k (R379). -/
  respDue : Vector Bool 4 := Vector.replicate 4 false
  rings : Vector FwRing 4 := Vector.replicate 4 {}
  route : Vector (BitVec 2) 16 := Vector.replicate 16 0
  /-- What is still to be reported, oldest first, each with bits [31:0] of the station time at the event (R380) and the epoch
  that the event made (R398). -/
  notices : List (BitVec 32 × BitVec 16 × FwNotice) := []
  epBasin : Vector (BitVec 16) 12 := Vector.replicate 12 1
  epBarge : Vector (BitVec 16) 48 := Vector.replicate 48 1
  epWeir : Vector (BitVec 16) 384 := Vector.replicate 384 1
  epPwm : Vector (BitVec 16) 192 := Vector.replicate 192 1
  epFi : Vector (BitVec 16) 128 := Vector.replicate 128 1
  epFo : Vector (BitVec 16) 128 := Vector.replicate 128 1
  epLink : Vector (BitVec 16) 16 := Vector.replicate 16 1
  epTb : Vector (BitVec 16) 16 := Vector.replicate 16 1
  epBall : Vector (BitVec 16) 32 := Vector.replicate 32 1
  /-- Owners (basin, world) of timebases and of shared balls, and which function owns the ball (true: field output). -/
  tbOwner : Vector (Option (BasinIx × Bool)) 16 := Vector.replicate 16 none
  ballOwner : Vector (Option (BasinIx × Bool × Bool)) 32 := Vector.replicate 32 none
  image : Vector FwImage 12 := Vector.replicate 12 {}
  latTol : Vector (BitVec 32) 13 := Vector.replicate 13 0
  lostTotal : BitVec 32 := 0
  /-- The basin whose image loaded a Keeper task's entry, and whether the entry is usable (R394, R402). -/
  taskFrom : Vector (Option BasinIx) 256 := Vector.replicate 256 none
  taskUsable : Vector Bool 256 := Vector.replicate 256 false
  /-- A reset has cleared the task's entry, which TASK_START then reloads (R404). -/
  taskStale : Vector Bool 256 := Vector.replicate 256 false
  /-- Commands taken since reset. -/
  taken : Nat := 0
  deriving DecidableEq, Repr

/-! ### Debug and security (chapter 16) -/

/-- The fuses (R337, R406, R418, R419): nonvolatile, kept by every reset. -/
structure Fuses where
  life : BitVec 2 := 0
  prog : BitVec 4 := 0
  rev : BitVec 4 := 0
  dbg : BitVec 4 := 0
  vrev : BitVec 2 := 0
  arb : BitVec 7 := 0
  fwcnt : BitVec 6 := 0
  pfuse : BitVec 2 := 0
  plock : Bool := false
  step : BitVec 8 := 0x10
  serial : BitVec 64 := 0
  hash : Vector (BitVec 384) 4 := Vector.replicate 4 0
  deriving DecidableEq, Repr

/-- A fuse operation in progress (R419): OP, SLOT, VALUE, and the hash that op 2 programs. -/
structure FuseOp where
  op : Nat
  slot : Fin 4
  value : BitVec 7
  hash : BitVec 384
  deriving DecidableEq, Repr

/-- The debug and security block (R406 to R422). -/
structure Sec where
  fuses : Fuses := {}
  /-- The fuses as the registers show them: loaded at the last fuse load (R8, R345). -/
  loaded : Fuses := {}
  unlocked : Bool := false
  failcnt : BitVec 2 := 0
  lockout : Bool := false
  /-- A verification in progress: its slot, and whether it can succeed: a fresh challenge, an eligible slot, no lockout. -/
  vbusy : Option (Fin 4 × Bool) := none
  /-- The device time of the last write of RELOCK (R408). -/
  relockAt : Option Nat := none
  vok : Bool := false
  vfail : Bool := false
  fpop : Option FuseOp := none
  fperr : Bool := false
  chal : BitVec 256 := 0
  fresh : Bool := false
  /-- The public keys of the configuration store, by slot (R418); none until a use has said what the store holds. -/
  keys : Vector (Option (List Byte)) 4 := Vector.replicate 4 none
  resp : Vector (BitVec 32) 24 := Vector.replicate 24 0
  fdata : Vector (BitVec 32) 12 := Vector.replicate 12 0
  /-- The JTAG instruction: IDCODE in Test-Logic-Reset. -/
  jtagIr : JtagIr := 1
  /-- The access register (R409): the data and status of the last completed access; status 3 while one is in progress. -/
  jtagStatus : BitVec 2 := 0
  jtagData : Word := 0
  /-- The DBGACC access that waits for a place of port DEBUG (R241). -/
  dbgWait : Option Tx := none
  /-- The bypass bit and the boundary register, as the last Update-DR left them (R409, log entry 95). -/
  bypass : Bool := false
  boundary : BitVec 72 := 0
  deriving DecidableEq, Repr

/-! ### The whole -/

/-- A register with W1C fields (R6). -/
inductive W1cReg where
  | intc (g : BargeIx)
  | codeWin (g : BargeIx) (world : Bool)
  | sigStat (g : BargeIx)
  | dbgStat (g : BargeIx)
  | scrubStat (n : BasinIx)
  | nvpStat (c : Fin 4)
  | wharfInt
  | kpStat
  | kpLog
  | weirGroup (g : Fin 48)
  | weirChan (n : Fin 384)
  | pwmEvt
  | timebase (m : Fin 16)
  | pwmChan (n : Fin 192)
  | fioEvt
  | fieldIn (n : Fin 128)
  | fieldOut (n : Fin 128)
  | linkStat (l : Fin 16)
  | linkMtx (l : Fin 16)
  | pllStat
  | clkFlt
  | supStat
  | ioBank (k : BasinIx)
  | doorbell
  | ingress (k : Fin 4)
  | egress (r : Fin 14)
  | secStat
  deriving DecidableEq, Repr

/-- A hardware event that set a W1C bit, and its device time (R6). For `intc` the bit is the source's number. -/
structure W1cEvent where
  reg : W1cReg
  bit : Nat
  time : Nat
  deriving DecidableEq, Repr

/-- The part. `now` is device time (log entry 1); `freeCtr` counts the free values read (log entry 3); `pending` is the
queue of waiting commands, first in, first out. -/
structure State where
  now : Nat := 0
  freeCtr : Nat := 0
  barges : Vector Barge 48 := Vector.ofFn fun g => { octl := { cwBank := BitVec.ofNat 2 g.val }, vctl := { cwBank := BitVec.ofNat 2 g.val, pbar := true } }
  basins : Vector Basin 12 := Vector.replicate 12 {}
  rv : Reservoir := {}
  hms : Mem := {}
  nvp : Vector NvpChan 4 := Vector.replicate 4 {}
  wharf : Wharf := {}
  kp : Keeper := {}
  pwm : Hrpwm := {}
  weir : Weir := {}
  fio : Fio := {}
  tl : Towline := {}
  crp : Crp := {}
  hif : Hif := {}
  ferry : Ferry := {}
  fw : Firmware := {}
  sec : Sec := {}
  /-- The latest W1C events (R6). -/
  events : List W1cEvent := []
  pending : List Instr := []
  deriving DecidableEq, Repr

/-- The device right after the release of a cold reset (R8, R342 to R345): every register at its Reset column's value, the
memories zeroed with nothing listed, the Keeper in STARTING, every barge held. Fuses are unprogrammed (log entry 6). -/
def State.reset : State := {}

end Sys2Proof.Machine
end

