-- ==== Sys2Proof/Machine/Ops.lean ====
section
/-! DEFINITION. The named operations that every meaning uses: bit fields, vectors, the passing of device time, the updates of
one part of the state, and the frame of a command. -/

namespace Sys2Proof.Machine

/-- The result type of `exec` and `step`. -/
abbrev Out := Host.Outcome State Fault Refusal

/-! ### Bit fields -/

/-- Bits lo+len−1 to lo of a word, as a number. -/
def bitsN {w : Nat} (x : BitVec w) (lo len : Nat) : Nat := x.toNat / 2 ^ lo % 2 ^ len

/-- Bits lo+len−1 to lo of a word. -/
def fld {w : Nat} (x : BitVec w) (lo len : Nat) : BitVec len := x.extractLsb' lo len

/-- Bit i of a word. -/
def bit {w : Nat} (x : BitVec w) (i : Nat) : Bool := x.getLsbD i

/-- A number placed at bit lo of a native word. -/
def at36 (lo : Nat) (v : Nat) : Word := BitVec.ofNat 36 (v * 2 ^ lo)

/-- A bit placed at bit lo of a native word. -/
def bit36 (lo : Nat) (b : Bool) : Word := if b then BitVec.ofNat 36 (2 ^ lo) else 0

/-- A value placed at bit lo of a native word, bits above bit 35 cut off. -/
def put36 {w : Nat} (lo : Nat) (v : BitVec w) : Word := at36 lo v.toNat

/-- A word with the bits lo+len−1 to lo set and no other. -/
def mask36 (lo len : Nat) : Word := BitVec.ofNat 36 ((2 ^ len - 1) * 2 ^ lo)

/-- The value of a word narrowed to `w` bits. -/
def low {v : Nat} (w : Nat) (x : BitVec v) : BitVec w := x.setWidth w

/-- A word with the bits of `m` taken from `new` and the others from `old`. -/
def mergeBits (m old new : Word) : Word := (old &&& ~~~m) ||| (new &&& m)

/-- One more, holding at the maximum: a counter that "saturates at its maximum" (chapter 0, Register conventions). -/
def satInc {w : Nat} (x : BitVec w) : BitVec w := if x = BitVec.allOnes w then x else x + 1

/-- n more, holding at the maximum (chapter 0, Register conventions). -/
def satAdd {w : Nat} (x : BitVec w) (n : Nat) : BitVec w :=
  if x.toNat + n < 2 ^ w then BitVec.ofNat w (x.toNat + n) else BitVec.allOnes w

/-! ### Vectors and lists -/

/-- A vector with its element i replaced by `f` of it. -/
def vmod {α : Type} {n : Nat} (v : Vector α n) (i : Fin n) (f : α → α) : Vector α n :=
  v.set i.val (f (v.get i)) i.isLt

/-- A vector with its element i replaced. -/
def vput {α : Type} {n : Nat} (v : Vector α n) (i : Fin n) (x : α) : Vector α n := v.set i.val x i.isLt

/-- A vector with its element i replaced by `f` of it, unchanged where there is no element i. -/
def vmodN {α : Type} {n : Nat} (v : Vector α n) (i : Nat) (f : α → α) : Vector α n :=
  if h : i < n then vmod v ⟨i, h⟩ f else v

/-- Element i of a vector, or `d` where there is none. -/
def vgetN {α : Type} {n : Nat} (v : Vector α n) (i : Nat) (d : α) : α := if h : i < n then v.get ⟨i, h⟩ else d

/-- The numbers below n that satisfy `p`. -/
def ixs (n : Nat) (p : Fin n → Bool) : List (Fin n) := (List.finRange n).filter p

/-- A list without its first element that satisfies `p`. -/
def dropFirst {α : Type} (p : α → Bool) : List α → List α
  | [] => []
  | x :: xs => if p x then xs else x :: dropFirst p xs

/-! ### Time (chapter 0, Clocks; log entry 1) -/

/-- The period of the undivided BCLK of a profile (R336), in units of 1/12 ns: 1.0 GHz, 750 MHz in Cool. -/
def bclkPeriod (s : State) : Nat := if s.crp.profile = 2 then 16 else 12

/-- The period of XCLK of a profile (R336): 800 MHz in Full, else 600 MHz. -/
def xclkPeriod (s : State) : Nat := if s.crp.profile = 0 then 15 else 20

/-- The periods of HCLK, PCLK, FCLK, TCLK and KCLK, and one microsecond, in units of 1/12 ns (R336). -/
def hclkPeriod : Nat := 20
def pclkPeriod : Nat := 24
def fclkPeriod : Nat := 30
def tclkPeriod : Nat := 480
def kclkPeriod : Nat := 120
def microsecond : Nat := 12000

/-- Station time after `t` more nanoseconds (R346). -/
def stAfter (c : Crp) (t : Nat) : BitVec 64 := c.stTime + BitVec.ofNat 64 t

/-- Device time passes: `now` advances, and with it the two counters that count it at a fixed rate, station time (one per ns,
R346) and the Keeper's KT (one per KCLK, R177, while VDD_KP is present). -/
def State.elapse (s : State) (dt : Nat) : State :=
  { s with
    now := s.now + dt
    crp := { s.crp with stTime := stAfter s.crp ((s.now + dt) / 12 - s.now / 12) }
    kp := { s.kp with
      kt := if s.kp.powered then s.kp.kt + BitVec.ofNat 48 ((s.now + dt) / kclkPeriod - s.now / kclkPeriod) else s.kp.kt } }

/-- The frame of what happens to the supplies and the reset pin, in every mode (R426, R432): time passes, then it acts. -/
def actPins (s : State) (dt : Nat) (f : State → State) : Out := .next (f (s.elapse dt))

/-- The frame of every other command: while a cold reset holds the part (R342, R426), only time passes. In factory mode no
function of the manual is available (R432): the command is refused (log entry 12). -/
def act (s : State) (dt : Nat) (f : State → State) : Out :=
  if s.crp.factory then .refused .factoryMode else .next (if s.crp.coldHeld then s.elapse dt else f (s.elapse dt))

/-- Tick `due` of KT has been reached: KT wraps at 2^48 (R177), and of two ticks the later one is less than half its range ahead. -/
def ktReached (kt due : BitVec 48) : Bool := decide ((kt - due).toNat < 2 ^ 47)

/-- The KCLK of a device time has ended. -/
def kclkOver (s : State) (time : Nat) : Bool := decide (time / kclkPeriod < s.now / kclkPeriod)

/-- A command that its own condition lets through, or that leaves all but time as it is. -/
def gated (c : State → Bool) (f : State → State) (s : State) : State := if c s then f s else s

/-! ### One part of the state -/

def State.modBarge (s : State) (g : BargeIx) (f : Barge → Barge) : State := { s with barges := vmod s.barges g f }
def State.modBasin (s : State) (n : BasinIx) (f : Basin → Basin) : State := { s with basins := vmod s.basins n f }
def State.modBank (s : State) (n : BasinIx) (b : BankIx) (f : Bank → Bank) : State :=
  s.modBasin n fun x => { x with banks := vmod x.banks b f }
def State.modCode (s : State) (n : BasinIx) (k : Fin 4) (f : CodeBank → CodeBank) : State :=
  s.modBasin n fun x => { x with code := vmod x.code k f }
def State.modTask (s : State) (t : Fin 256) (f : KTask → KTask) : State :=
  { s with kp := { s.kp with tasks := vmod s.kp.tasks t f } }
def State.modGroup (s : State) (r : Fin 64) (f : KGroup → KGroup) : State :=
  { s with kp := { s.kp with groups := vmod s.kp.groups r f } }
def State.modPwm (s : State) (n : Fin 192) (f : PwmChan → PwmChan) : State :=
  { s with pwm := { s.pwm with ch := vmod s.pwm.ch n f } }
def State.modTb (s : State) (m : Fin 16) (f : Timebase → Timebase) : State :=
  { s with pwm := { s.pwm with tb := vmod s.pwm.tb m f } }
def State.modTz (s : State) (z : Fin 32) (f : TripZone → TripZone) : State :=
  { s with pwm := { s.pwm with tz := vmod s.pwm.tz z f } }
def State.modWeir (s : State) (n : Fin 384) (f : WeirChan → WeirChan) : State :=
  { s with weir := { s.weir with ch := vmod s.weir.ch n f } }
def State.modWeirGroup (s : State) (g : Fin 48) (f : WeirGroup → WeirGroup) : State :=
  { s with weir := { s.weir with grp := vmod s.weir.grp g f } }
def State.modFi (s : State) (n : Fin 128) (f : FieldIn → FieldIn) : State :=
  { s with fio := { s.fio with fi := vmod s.fio.fi n f } }
def State.modFo (s : State) (n : Fin 128) (f : FieldOut → FieldOut) : State :=
  { s with fio := { s.fio with fo := vmod s.fio.fo n f } }
def State.modLink (s : State) (l : Fin 16) (f : Link → Link) : State :=
  { s with tl := { s.tl with link := vmod s.tl.link l f } }
def State.modBpwr (s : State) (n : BasinIx) (f : Bpwr → Bpwr) : State :=
  { s with crp := { s.crp with bpwr := vmod s.crp.bpwr n f } }

/-- A basin number of a register field. -/
def basinIx (n : Nat) : Option BasinIx := if h : n < 12 then some ⟨n, h⟩ else none

/-- The basin and the position of barge g (R85: "g = 4n + p"). -/
def basinOf (g : BargeIx) : BasinIx := ⟨g.val / 4, by omega⟩
def posOf (g : BargeIx) : Fin 4 := ⟨g.val % 4, by omega⟩
def bargeOf (n : BasinIx) (p : Fin 4) : BargeIx := ⟨4 * n.val + p.val, by omega⟩

/-- The next value of the counter of free values, read and advanced (log entry 3). -/
def State.free (s : State) : State := { s with freeCtr := s.freeCtr + 1 }

/-- Vector v of MSI-X can be sent: Bus Master Enable, not in D3hot (R354), MSI-X enabled and not masked as a whole (R352), and the
vector not masked in the table (R358). -/
def State.vectorOpen (s : State) (v : Fin 64) : Bool :=
  s.hif.bme && !s.hif.d3hot && s.hif.msixEn && !s.hif.msixMask && !bit (vgetN s.hif.table (4 * v.val + 3) 1) 0

/-- MSI-X vector v is sent (R361); where it cannot be, its pending bit is set instead. -/
def State.msix (s : State) (v : Fin 64) : State :=
  if s.vectorOpen v then
    { s with hif := { s.hif with sent := vmod s.hif.sent v (· + 1) } }
  else { s with hif := { s.hif with pba := s.hif.pba ||| BitVec.ofNat 64 (2 ^ v.val) } }

/-- KP_STAT.STATE (R176). -/
def KMode.code : KMode → BitVec 3
  | .starting => 0
  | .armed => 1
  | .running => 2
  | .degraded => 3
  | .safe => 4

/-- PCLK, or another clock of the field PLL, is locked and monitored without fault (R346): `k` is its CRP_CLKFLT bit. -/
def fieldClockOk (s : State) (k : Nat) : Bool := bit s.crp.locked 5 && s.crp.armed && !bit s.crp.clkbad k

/-- The bits of a word set where `p` holds. -/
def bitsWhere (n w : Nat) (p : Fin n → Bool) : BitVec w :=
  (List.finRange n).foldl (fun x i => if p i then x ||| BitVec.ofNat w (2 ^ i.val) else x) 0

/-- The BASIN bit of HIF_READY (R346). -/
def basinReady (s : State) (n : BasinIx) : Bool :=
  let b := s.basins.get n
  b.bistDone && b.bistS == 0 && b.bistC == 0 && !b.testing && (s.crp.bpwr.get n).cur != 3

/-- The RSV bit of HIF_READY (R230, R346). -/
def reservoirReady (s : State) : Bool := s.crp.armed && s.rv.ports.toList.all fun p => p.done && p.fail == 0

/-- HIF_READY words 0 to 2, word 0 in the low 32 bits (R346). -/
def readyBits (s : State) : BitVec 96 :=
  let k := s.kp.mode
  let w0 : BitVec 96 := (BitVec.ofBool s.fw.up).setWidth 96 |||
    (BitVec.ofBool (s.kp.powered && (k == .armed || k == .running || k == .degraded))).setWidth 96 <<< 1 |||
    (BitVec.ofBool (fieldClockOk s 14 && s.pwm.calok)).setWidth 96 <<< 2 |||
    (BitVec.ofBool (fieldClockOk s 14)).setWidth 96 <<< 3 |||
    (BitVec.ofBool (reservoirReady s)).setWidth 96 <<< 4 |||
    bitsWhere 12 96 (basinReady s) <<< 16
  let weir := bitsWhere 48 96 fun g => fieldClockOk s 15 && !(s.weir.grp.get g).clkloss
  let link := bitsWhere 16 96 fun l => bit s.crp.locked 5 && !(s.tl.link.get l).retired
  w0 ||| weir <<< 32 ||| link <<< 80

/-- A change of HIF_READY sends vector 8 (R361), and the firmware reports it (R398). -/
def watchReady (f : State → State) (s : State) : State :=
  let s1 := f s
  if readyBits s1 = readyBits s then s1
  else { s1 with fw := { s1.fw with notices := s1.fw.notices ++ [(low 32 s1.crp.stTime, 0, FwNotice.ready (readyBits s1))] } }.msix 8

/-- The basin's BCLK count at a device time since the last change of divider (R338): what it counted up to that change, and
since then at the present divider. -/
def bclkAt (s : State) (n : BasinIx) (time : Nat) : Nat :=
  let b := s.basins.get n
  b.bclkAcc + (time - b.bclkSince) / (bclkPeriod s * 2 ^ (s.crp.bpwr.get n).tdiv.toNat)

/-- The basin's BCLK count (R338). -/
def bclkCount (s : State) (n : BasinIx) : Nat := bclkAt s n s.now

/-! ### Payload numbers and resource IDs (R378, R386) -/

/-- The value of a list of bytes, the first lowest. -/
def bytesNat : List Byte → Nat
  | [] => 0
  | b :: rest => b.toNat + 256 * bytesNat rest

/-- The little-endian number in n bytes from an offset; bytes past the end count as 0. -/
def leAt (f : List Byte) (off n : Nat) : Nat := bytesNat ((f.drop off).take n)

/-- A number of one of a command's payload fields. -/
def FwCmd.arg (c : FwCmd) (off n : Nat) : Nat := leAt c.payload off n

/-- The kind and the index of a resource ID. -/
def idKind (id : Nat) : Nat := id / 2 ^ 24
def idIndex (id : Nat) : Nat := id % 2 ^ 24

/-- A basin by resource ID. -/
def basinOfId (id : Nat) : Option BasinIx := if idKind id = 1 then basinIx (idIndex id) else none

/-! ### Events and W1C writes in one clock cycle (R6) -/

/-- A hardware event sets a W1C bit at the present device time; events older than any clock cycle of the part are dropped. -/
def State.mark (r : W1cReg) (i : Nat) (s : State) : State :=
  { s with events := { reg := r, bit := i, time := s.now } ::
      s.events.filter fun e => !(e.reg == r && e.bit == i) && s.now < e.time + 2000 }

/-- The bits of a W1C register that a write with value v clears: not those whose event fell in the write's own clock cycle,
which `same` decides of a device time (R6). -/
def State.w1c (s : State) (r : W1cReg) (same : Nat → Bool) (v : Word) : Word :=
  s.events.foldl (fun w e => if e.reg = r ∧ same e.time then w &&& ~~~(bit36 e.bit true) else w) v

/-- The present cycle of a clock of the given period, which starts with device time 0 (log entry 1). -/
def sameCycle (period : Nat) (s : State) (time : Nat) : Bool := time / period == s.now / period

/-- The present BCLK of a basin. -/
def sameBclk (n : BasinIx) (s : State) (time : Nat) : Bool :=
  decide ((s.basins.get n).bclkSince ≤ time) && bclkAt s n time == bclkCount s n

end Sys2Proof.Machine
end

