-- ==== Sys2Proof/Machine/BargeDecode.lean ====
section
/-! DEFINITION. A barge instruction's encoding: template, slots, port identifiers, and the decode checks of R45. -/

namespace Sys2Proof.Machine

/-- The operand ports (R27). -/
inductive OpPort where
  | alu0o
  | alu1o
  | mulo
  | lsua
  | lsux
  | lsud
  | xlua
  | xlud
  | macxs
  | macys
  | macxm
  | macym
  | ioua
  | ioud
  | vmulo
  | vmuls
  | vmulk
  | vchko
  | vchks
  | vchkh
  deriving DecidableEq, Repr

/-- The units that have trigger ports (R27). -/
inductive TrigUnit where
  | alu0
  | alu1
  | mul
  | lsu
  | xlu
  | mac
  | rpt
  | bru
  | iou
  | cnt
  | vmul
  | vchk
  | sig
  deriving DecidableEq, Repr

/-- A source port (R26). -/
inductive Src where
  | reg (i : Fin 64)
  | lnk
  | flags
  | limm
  | rc
  | rs
  | rd
  | rmode
  | alu0
  | alu1
  | mul
  | lsu
  | xlu
  | mac (k : Fin 3)
  | macxa
  | macya
  | rpt
  | iou
  | vmul
  | vchk
  | cnt
  | imm (v : BitVec 8)
  deriving DecidableEq, Repr

/-- A destination port (R27): a register, an operand port, or a trigger port with its op index. -/
inductive Dst where
  | reg (i : Fin 64)
  | lnk
  | flags
  | rc
  | rs
  | rd
  | rmode
  | macxa
  | macya
  | opnd (p : OpPort)
  | trig (u : TrigUnit) (op : Nat)
  deriving DecidableEq, Repr

/-- A slot that is not empty (R19). -/
structure Slot where
  guard : BitVec 3
  src : BitVec 9
  dst : BitVec 9
  chain : Bool
  deriving DecidableEq, Repr

/-- A move of a valid instruction. -/
structure Move where
  guard : BitVec 3
  src : Src
  chain : Bool
  dst : Dst
  deriving DecidableEq, Repr

/-- The port of a source ID (R26, R23); none for a reserved ID. -/
def srcPort (id : BitVec 9) : Option Src :=
  let n := id.toNat
  if h : n < 0x40 then some (.reg ⟨n, h⟩)
  else if 0x100 ≤ n then some (.imm (id.setWidth 8))
  else match n with
    | 0x40 => some .lnk
    | 0x41 => some .flags
    | 0x42 => some .limm
    | 0x43 => some .rc
    | 0x44 => some .rs
    | 0x45 => some .rd
    | 0x46 => some .rmode
    | 0x48 => some .alu0
    | 0x49 => some .alu1
    | 0x4A => some .mul
    | 0x4B => some .lsu
    | 0x4C => some .xlu
    | 0x4D => some (.mac 0)
    | 0x4E => some (.mac 1)
    | 0x4F => some (.mac 2)
    | 0x50 => some .macxa
    | 0x51 => some .macya
    | 0x52 => some .rpt
    | 0x53 => some .iou
    | 0x54 => some .vmul
    | 0x55 => some .vchk
    | 0x56 => some .cnt
    | _ => none

/-- The operand ports by destination ID (R27). -/
def operandPort : Nat → Option OpPort
  | 0x48 => some .alu0o
  | 0x49 => some .alu1o
  | 0x4A => some .mulo
  | 0x4B => some .lsua
  | 0x4C => some .lsux
  | 0x4D => some .lsud
  | 0x4E => some .xlua
  | 0x4F => some .xlud
  | 0x52 => some .macxs
  | 0x53 => some .macys
  | 0x54 => some .macxm
  | 0x55 => some .macym
  | 0x56 => some .ioua
  | 0x57 => some .ioud
  | 0x58 => some .vmulo
  | 0x59 => some .vmuls
  | 0x5A => some .vmulk
  | 0x5B => some .vchko
  | 0x5C => some .vchks
  | 0x5D => some .vchkh
  | _ => none

/-- An LSU op index is one of the 40 valid ones (R29): no sign extension on stores, words or doubles. -/
def lsuOpValid (op : Nat) : Bool := op < 64 && (op % 2 == 0 || (op < 32 && op / 8 % 4 < 2))

/-- The trigger ports by destination ID (R27, R29). -/
def triggerPort (n : Nat) : Option (TrigUnit × Nat) :=
  let within (lo cnt : Nat) (u : TrigUnit) : Option (TrigUnit × Nat) :=
    if lo ≤ n ∧ n < lo + cnt then some (u, n - lo) else none
  (within 0x80 32 .alu0).orElse fun _ =>
  (within 0xA0 32 .alu1).orElse fun _ =>
  (within 0xC0 4 .mul).orElse fun _ =>
  (if 0xE0 ≤ n ∧ n ≤ 0x11F ∧ lsuOpValid (n - 0xE0) then some (.lsu, n - 0xE0) else none).orElse fun _ =>
  (within 0x120 6 .xlu).orElse fun _ =>
  (within 0x130 5 .mac).orElse fun _ =>
  (within 0x138 5 .rpt).orElse fun _ =>
  (within 0x140 8 .bru).orElse fun _ =>
  (within 0x150 2 .iou).orElse fun _ =>
  (within 0x158 5 .cnt).orElse fun _ =>
  (within 0x160 1 .vmul).orElse fun _ =>
  (within 0x168 5 .vchk).orElse fun _ =>
  within 0x170 3 .sig

/-- The port of a destination ID (R27); none for a reserved ID. -/
def dstPort (id : BitVec 9) : Option Dst :=
  let n := id.toNat
  if h : n < 0x40 then some (.reg ⟨n, h⟩)
  else match n with
    | 0x40 => some .lnk
    | 0x41 => some .flags
    | 0x42 => some .rc
    | 0x43 => some .rs
    | 0x44 => some .rd
    | 0x45 => some .rmode
    | 0x50 => some .macxa
    | 0x51 => some .macya
    | n =>
      match operandPort n with
      | some p => some (.opnd p)
      | none => (triggerPort n).map fun (u, op) => .trig u op

/-- FMT (R20). -/
def fmtOf (i : Insn) : Nat := bitsN i 0 2

/-- RUN (R20). -/
def runOf (i : Insn) : Nat := bitsN i 4 8

/-- The number of move slots of a format (R21). -/
def slotCount : Nat → Nat
  | 0 => 6
  | 1 => 4
  | 2 => 2
  | _ => 0

/-- Slot k (R18, R19); none when its 22 bits are all zero. -/
def slotAt (i : Insn) (k : Nat) : Option Slot :=
  let s := fld i (12 + 22 * k) 22
  if s = 0 then none
  else some { guard := fld s 19 3, src := fld s 10 9, dst := fld s 1 9, chain := bit s 0 }

/-- The slots of an instruction that are not empty, in order. -/
def slotsOf (i : Insn) : List Slot := (List.range (slotCount (fmtOf i))).filterMap (slotAt i)

/-- The long immediates (R21): LIMM0 and LIMM1. -/
def limmOf (i : Insn) (chain : Bool) : Word :=
  match fmtOf i with
  | 1 => fld i 100 36
  | 2 => if chain then fld i 92 36 else fld i 56 36
  | _ => 0

/-- LIMM's source ID. -/
def limmId : BitVec 9 := 0x042

/-- Check 1 of R45 passes (R20 to R22, R24). -/
def formOk (i : Insn) : Bool :=
  let slots := slotsOf i
  let fmt := fmtOf i
  !bit i 3 &&
  (if fmt = 3 then
    runOf i != 0 && !bit i 2 && fld i 12 132 == 0
  else
    fld i 6 6 == 0 &&
    (fmt != 1 || fld i 136 8 == 0) &&
    (fmt != 2 || fld i 128 16 == 0) &&
    slots.all (fun s => !(s.src == limmId && fmt == 0)) &&
    slots.all (fun s => !s.chain || (s.src == limmId && fmt == 2)))

/-- Check 2 passes (R30): no reserved ID; the SIG triggers are reserved in the ordinary world. -/
def portsKnown (slots : List Slot) (vital : Bool) : Bool :=
  slots.all fun s => (srcPort s.src).isSome &&
    (match dstPort s.dst with
    | some (.trig .sig _) => vital
    | some _ => true
    | none => false)

/-- A supervisor source or destination (R31). -/
def supervisorSrc (s : Src) : Bool := s == .iou
def supervisorDst : Dst → Bool
  | .opnd .ioua | .opnd .ioud => true
  | .trig .iou _ => true
  | .trig .bru op => op == 6 || op == 7
  | _ => false

/-- Check 3 passes (R31). -/
def portsAllowed (slots : List Slot) (sup : Bool) : Bool :=
  sup || slots.all fun s => !((srcPort s.src).any supervisorSrc || (dstPort s.dst).any supervisorDst)

/-- A flag-setting ALU op (R28): the odd ops up to sars, cmp and tst. -/
def aluSetsFlags (op : Nat) : Bool := (op % 2 == 1 && op ≤ 0x15) || op == 0x18 || op == 0x19

/-- What counts as one destination in check 4: all trigger ports of one unit are one. -/
def dstKey : Dst → Dst
  | .trig u _ => .trig u 0
  | d => d

/-- A second write besides the named one (R45, check 4): a flag-setting ALU op writes FLAGS, a call writes LNK. -/
def dstExtra : Dst → List Dst
  | .trig .alu0 op => if aluSetsFlags op then [.flags] else []
  | .trig .alu1 op => if aluSetsFlags op then [.flags] else []
  | .trig .bru op => if op = 1 then [.lnk] else []
  | _ => []

/-- Whether an instruction triggers a flag-setting op on an ALU. -/
def setsFlagsOn (ds : List Dst) (u : TrigUnit) : Bool :=
  ds.any fun d => match d with
    | .trig v op => v == u && aluSetsFlags op
    | _ => false

/-- Check 4 passes: no two writes to one destination, guards ignored. Two flag-setting ALU ops are check 5's. -/
def dstsDistinct (ds : List Dst) : Bool :=
  let keys := ds.map dstKey
  let extra := (ds.flatMap dstExtra).dedup
  decide keys.Nodup && extra.all fun e => !keys.contains e

/-- Check 5 passes. -/
def oneFlagSetter (ds : List Dst) : Bool := !(setsFlagsOn ds .alu0 && setsFlagsOn ds .alu1)

/-- The first failing check's cause (R45, R121), or none. -/
def decodeFault (i : Insn) (vital sup : Bool) : Option (BitVec 8) :=
  let slots := slotsOf i
  let ds := slots.filterMap fun s => dstPort s.dst
  if !formOk i then some 0x01
  else if !portsKnown slots vital then some 0x02
  else if !portsAllowed slots sup then some 0x03
  else if !dstsDistinct ds then some 0x01
  else if !oneFlagSetter ds then some 0x01
  else none

/-- The moves of an instruction, in slot order. -/
def movesOf (i : Insn) : List Move :=
  (slotsOf i).filterMap fun s =>
    match srcPort s.src, dstPort s.dst with
    | some a, some d => some { guard := s.guard, src := a, chain := s.chain, dst := d }
    | _, _ => none

/-- A guard holds (R32). -/
def guardHolds (f : Flags) (g : BitVec 3) : Bool :=
  match g.toNat with
  | 0 => true
  | 1 => f.z
  | 2 => !f.z
  | 3 => f.n
  | 4 => !f.n
  | 5 => f.c
  | 6 => f.g
  | _ => !f.g

/-- The template's SYNC, NPF and NBTB bits (R20). -/
def syncBit (i : Insn) : Bool := fmtOf i != 3 && bit i 2
def npfBit (i : Insn) : Bool := fmtOf i != 3 && bit i 4
def nbtbBit (i : Insn) : Bool := fmtOf i != 3 && bit i 5

end Sys2Proof.Machine
end

