-- ==== Sys2Proof/Machine/Flags.lean ====
section
/-! DEFINITION. The ALU and MUL operations with their flags, in plain and in tagged mode (R55 to R58, R129 to R132). -/

namespace Sys2Proof.Machine

/-- FLAGS as a word (R34). -/
def Flags.word (f : Flags) : Word :=
  bit36 0 f.z ||| bit36 1 f.n ||| bit36 2 f.c ||| bit36 3 f.v ||| bit36 4 f.g

/-- FLAGS from bits [4:0] of a word (R34). -/
def Flags.ofWord {w : Nat} (x : BitVec w) : Flags :=
  { z := bit x 0, n := bit x 1, c := bit x 2, v := bit x 3, g := bit x 4 }

/-- An ALU result: v, and C and V as R56 sets them (Z and N follow from v). -/
structure AluOut (n : Nat) where
  v : BitVec n
  c : Bool
  ovf : Bool

/-- Addition with a carry in (R55, R56). -/
def addOut {n : Nat} (o t : BitVec n) (cin : Bool) : AluOut n :=
  let v := o + t + (if cin then 1 else 0)
  { v := v, c := decide (2 ^ n ≤ o.toNat + t.toNat + cin.toNat), ovf := o.msb == t.msb && v.msb != o.msb }

/-- Subtraction with a borrow in (R55, R56). -/
def subOut {n : Nat} (o t : BitVec n) (bin : Bool) : AluOut n :=
  let v := o - t - (if bin then 1 else 0)
  { v := v, c := decide (t.toNat + bin.toNat ≤ o.toNat), ovf := o.msb != t.msb && v.msb == t.msb }

/-- Logic ops clear C and V (R56). -/
def logicOut {n : Nat} (v : BitVec n) : AluOut n := { v := v, c := false, ovf := false }

/-- Left shift by k read as unsigned (R55, R56). -/
def shlOut {n : Nat} (o : BitVec n) (k : Nat) : AluOut n :=
  let v := if k ≥ n then 0 else o <<< k
  { v := v
    c := decide (1 ≤ k ∧ k ≤ n) && o.getLsbD (n - k)
    ovf := if k ≥ n then decide (o ≠ 0) else decide (v.toInt ≠ o.toInt * 2 ^ k) }

/-- Logical right shift (R55, R56). -/
def shrOut {n : Nat} (o : BitVec n) (k : Nat) : AluOut n :=
  { v := if k ≥ n then 0 else o >>> k, c := decide (1 ≤ k ∧ k ≤ n) && o.getLsbD (k - 1), ovf := false }

/-- Arithmetic right shift (R55, R56). -/
def sarOut {n : Nat} (o : BitVec n) (k : Nat) : AluOut n :=
  { v := if k ≥ n then (if o.msb then BitVec.allOnes n else 0) else o.sshiftRight k
    c := if k > n then o.msb else decide (1 ≤ k) && o.getLsbD (k - 1)
    ovf := false }

/-- sat: o clamped to w bits (R55). -/
def satTo {n : Nat} (o : BitVec n) (w : Nat) : BitVec n :=
  if w = 0 ∨ w ≥ n then o
  else
    let hi : Int := 2 ^ (w - 1) - 1
    let lo : Int := - 2 ^ (w - 1)
    BitVec.ofInt n (max lo (min hi o.toInt))

/-- An ALU op on n-bit values (R55, R56; n = 32 in tagged mode, R131). -/
def aluOut {n : Nat} (op : Nat) (o t : BitVec n) (c : Bool) : AluOut n :=
  match op with
  | 0x00 | 0x01 => addOut o t false
  | 0x02 | 0x03 => addOut o t c
  | 0x04 | 0x05 | 0x18 => subOut o t false
  | 0x06 | 0x07 => subOut o t (!c)
  | 0x08 | 0x09 | 0x19 => logicOut (o &&& t)
  | 0x0A | 0x0B => logicOut (o ||| t)
  | 0x0C | 0x0D => logicOut (o ^^^ t)
  | 0x0E | 0x0F => logicOut (o &&& ~~~t)
  | 0x10 | 0x11 => shlOut o t.toNat
  | 0x12 | 0x13 => shrOut o t.toNat
  | 0x14 | 0x15 => sarOut o t.toNat
  | 0x16 => logicOut (o.rotateLeft (t.toNat % n))
  | 0x17 => logicOut (o.rotateRight (t.toNat % n))
  | 0x1A => logicOut (if o.toInt ≤ t.toInt then o else t)
  | 0x1B => logicOut (if o.toInt ≤ t.toInt then t else o)
  | 0x1C => logicOut (if o.toNat ≤ t.toNat then o else t)
  | 0x1D => logicOut (if o.toNat ≤ t.toNat then t else o)
  | 0x1E => logicOut (satTo o (t.toNat % 64))
  | _ => logicOut t

/-- The ops that fault on overflow with PSW.V = 1 (R57): add, adc, sub, sbc, their flag-setting forms, shl and shls. -/
def aluOverflowFaults (op : Nat) : Bool := op ≤ 0x07 || op == 0x10 || op == 0x11

/-- cmp and tst deliver no result (R55). -/
def aluDelivers (op : Nat) : Bool := op != 0x18 && op != 0x19

/-! ### Tagged mode (chapter 5) -/

/-- The tag and the value of a tagged word (R127). -/
def tagOf (w : Word) : Nat := bitsN w 32 4
def valOf (w : Word) : BitVec 32 := fld w 0 32
def tagged (tag : Nat) (v : BitVec 32) : Word := at36 32 tag ||| v.setWidth 36

/-- The tag codes of R127. -/
def tagInt : Nat := 0
def tagUint : Nat := 1
def tagBool : Nat := 2
def tagTime : Nat := 3
def tagChan : Nat := 4
def tagAddr : Nat := 5
def tagCfg : Nat := 6
def tagStatus : Nat := 7
def tagNull : Nat := 14
def tagPoison : Nat := 15

/-- A reserved tag, or POISON (R127). -/
def tagReserved (t : Nat) : Bool := 8 ≤ t && t ≤ 13

/-- A short immediate in tagged mode: INT, sign-extended to 32 bits (R128). -/
def taggedImm (v : BitVec 8) : Word := tagged tagInt (v.signExtend 32)

/-- The result tag of a listed operand pair of an ALU op (R130); none for a pair that is not listed. -/
def aluTag (op : Nat) (o t : Nat) : Option Nat :=
  let first (l : List (Nat × Nat × Nat)) : Option Nat := (l.find? fun x => x.1 == o && x.2.1 == t).map fun x => x.2.2
  if op ≤ 0x03 then
    first [(0, 0, 0), (1, 1, 1), (3, 0, 3), (0, 3, 3), (5, 0, 5), (4, 0, 4)]
  else if op ≤ 0x07 ∨ op = 0x18 then
    first [(0, 0, 0), (1, 1, 1), (3, 0, 3), (3, 3, 0), (5, 0, 5), (5, 5, 0), (4, 0, 4)]
  else if op ≤ 0x0F ∨ op = 0x19 then
    first [(1, 1, 1), (2, 2, 2), (6, 1, 6), (7, 1, 7)]
  else if op ≤ 0x17 then
    if (o = 0 ∨ o = 1 ∨ o = 6 ∨ o = 7) ∧ t ≤ 1 then some o else none
  else if op = 0x1A ∨ op = 0x1B then first [(0, 0, 0), (3, 3, 3)]
  else if op = 0x1C ∨ op = 0x1D then first [(1, 1, 1), (3, 3, 3), (4, 4, 4)]
  else if op = 0x1E then first [(0, 0, 0), (0, 1, 0)]
  else some o

/-- A BOOL operand whose value is neither 0 nor 1 (R129). -/
def badBool (w : Word) : Bool := tagOf w == tagBool && !(valOf w == 0 || valOf w == 1)

/-- cmp or tst with a NULL operand (R132); with a POISON or reserved tag beside it the tag fault stands (log entry 103). -/
def nullCompare (op : Nat) (o t : Word) : Bool :=
  !aluDelivers op && (tagOf o == tagNull || tagOf t == tagNull) &&
    !(tagOf o == tagPoison || tagReserved (tagOf o) || tagOf t == tagPoison || tagReserved (tagOf t))

/-- An ALU trigger raises the tag fault (R129, R130, R132). -/
def aluTagFault (op : Nat) (o t : Word) : Bool :=
  op != 0x1F && !nullCompare op o t && ((aluTag op (tagOf o) (tagOf t)).isNone || badBool o || badBool t)

/-- A MUL trigger raises the tag fault (R130): mul and mulh take INT pairs, mulu and mulhu UINT pairs. -/
def mulTagFault (op : Nat) (o t : Word) : Bool :=
  let want := if op % 2 = 0 then tagInt else tagUint
  !(tagOf o == want && tagOf t == want)

/-- What an ALU trigger computes: the word delivered, Z, N, C and V, and whether the V condition holds (R55, R56, R131, R132). -/
def aluCompute (tmode : Bool) (op : Nat) (o t : Word) (c : Bool) : Word × (Bool × Bool × Bool × Bool) :=
  if tmode then
    if nullCompare op o t then (0, (tagOf o == tagNull && tagOf t == tagNull, false, false, false))
    else
      let r := aluOut op (valOf o) (valOf t) c
      (tagged ((aluTag op (tagOf o) (tagOf t)).getD 0) r.v, (r.v == 0, r.v.msb, r.c, r.ovf))
  else
    let r := aluOut op o t c
    (r.v, (r.v == 0, r.v.msb, r.c, r.ovf))

/-- The signed product lies outside the signed 36-bit range (R58). -/
def mulOverflows (o t : Word) : Bool :=
  let p := o.toInt * t.toInt
  decide (p < -34359738368 ∨ 34359738367 < p)

/-- MUL's result (R58; R131 in tagged mode). -/
def mulCompute (tmode : Bool) (op : Nat) (o t : Word) : Word :=
  if tmode then
    let a := valOf o
    let b := valOf t
    let p : BitVec 64 := if op % 2 = 0 then BitVec.ofInt 64 (a.toInt * b.toInt) else BitVec.ofNat 64 (a.toNat * b.toNat)
    tagged (if op % 2 = 0 then tagInt else tagUint) (if op < 2 then fld p 0 32 else fld p 32 32)
  else
    let p : BitVec 72 := if op % 2 = 0 then BitVec.ofInt 72 (o.toInt * t.toInt) else BitVec.ofNat 72 (o.toNat * t.toNat)
    if op < 2 then fld p 0 36 else fld p 36 36

end Sys2Proof.Machine
end

