-- ==== Sys2Proof/Machine/Code.lean ====
section
/-! DEFINITION. Coded words, signature folds and the line CRC: the arithmetic of chapter 6 and R225. -/

namespace Sys2Proof.Machine

/-- A, the code's constant (R140). -/
def codeA : Int := 4093

/-- P = 2^61 − 1, the modulus of the signature (R160). -/
def sigP : Nat := 2 ^ 61 - 1

/-- The coded poison word (R142). -/
def poisonWord : Word := 0x800000000

/-- r(w) = w mod 4093, w read as signed, the result in 0 to 4092 (R141). -/
def residue (w : Word) : Nat := (w.toInt % codeA).toNat

/-- What a code check finds (R141): the value, a residue failure, or a range failure. -/
inductive Decoded where
  | ok (x : Int)
  | residue
  | range
  deriving DecidableEq, Repr

/-- x is a signed 24-bit value (R140). -/
def inRange24 (x : Int) : Bool := decide (-8388608 ≤ x ∧ x ≤ 8388607)

/-- Decoding w with residue b (R141): the residue condition first, then the range of the exact quotient. -/
def decodeCoded (w : Word) (b : Nat) : Decoded :=
  if w.toInt % codeA ≠ b then .residue
  else
    let q := (w.toInt - b) / codeA
    if inRange24 q then .ok q else .range

/-- The coded word A·x + B (R140). -/
def encodeCoded (x : Int) (b : Nat) : Word := BitVec.ofInt 36 (codeA * x + b)

/-- The coded boolean of b with a residue (R153). -/
def codedBool (b : Bool) (bz : Nat) : Word := encodeCoded (if b then 1 else 0) bz

/-- One fold of residue r (R160): S rotated left by 13, plus r + 1, modulo P. -/
def sigFold (s : BitVec 61) (r : Nat) : BitVec 61 :=
  let u := (s.rotateLeft 13).toNat + r + 1
  BitVec.ofNat 61 (if u ≥ sigP then u - sigP else u)

/-- c folds of one residue (R162). -/
def sigFolds (s : BitVec 61) (r : Nat) : Nat → BitVec 61
  | 0 => s
  | c + 1 => sigFolds (sigFold s r) r c

/-- The value that the Keeper compares a seal with: (D·M + C) mod P (R161). -/
def expectedSeal (d : BitVec 32) (m c : Nat) : Nat := (d.toNat * m + c) % sigP

/-- VMUL's rounding: half away from zero, p divided by 2^k (R149). -/
def roundAway (p : Int) (k : Nat) : Int :=
  if k = 0 then p else p.sign * (((p.natAbs + 2 ^ (k - 1)) / 2 ^ k : Nat) : Int)

/-- VMUL's result (R148, R149): the word, or the check that fails first. -/
def vmulResult (xc yc s : Word) (k : Nat) : Decoded × Word :=
  let bx := bitsN s 0 12
  let bY := bitsN s 12 12
  let bz := bitsN s 24 12
  if bx > 4092 ∨ bY > 4092 ∨ bz > 4092 then (.residue, 0)
  else
    match decodeCoded xc bx with
    | .ok x =>
      match decodeCoded yc bY with
      | .ok y =>
        if k > 23 then (.range, 0)
        else
          let p := roundAway (x * y) k
          if inRange24 p then (.ok p, encodeCoded p bz) else (.range, 0)
      | e => (e, 0)
    | e => (e, 0)

/-- VCHK's operations (R151). -/
inductive VchkOp where
  | dec
  | eq
  | lt
  | le
  | rng
  deriving DecidableEq, Repr

/-- VCHK's result and G (R151, R152), or the check that fails first: the residue fields the operation uses, then o, h, t. -/
def vchkResult (op : VchkOp) (o h t s : Word) : Decoded × Word × Bool :=
  let b0 := bitsN s 0 12
  let b1 := bitsN s 12 12
  let bz := bitsN s 24 12
  match op with
  | .dec =>
    if b0 > 4092 then (.residue, 0, false)
    else
      match decodeCoded t b0 with
      | .ok x => (.ok x, BitVec.ofInt 36 x, decide (x ≠ 0))
      | e => (e, 0, false)
  | .rng =>
    if b0 > 4092 ∨ b1 > 4092 ∨ bz > 4092 then (.residue, 0, false)
    else
      match decodeCoded o b0 with
      | .ok lo =>
        match decodeCoded h b0 with
        | .ok hi =>
          match decodeCoded t b1 with
          | .ok x => let b := decide (lo ≤ x ∧ x ≤ hi); (.ok x, codedBool b bz, b)
          | e => (e, 0, false)
        | e => (e, 0, false)
      | e => (e, 0, false)
  | cmp =>
    if b0 > 4092 ∨ b1 > 4092 ∨ bz > 4092 then (.residue, 0, false)
    else
      match decodeCoded o b0 with
      | .ok x =>
        match decodeCoded t b1 with
        | .ok y =>
          let b := match cmp with
            | .eq => decide (x = y)
            | .lt => decide (x < y)
            | _ => decide (x ≤ y)
          (.ok x, codedBool b bz, b)
        | e => (e, 0, false)
      | e => (e, 0, false)

/-- The vital arithmetic fault's cause of a failed check (R150): residue 0x0E, range 0x0F. -/
def Decoded.cause : Decoded → Option (BitVec 8)
  | .ok _ => none
  | .residue => some 0x0E
  | .range => some 0x0F

/-! ### CRCs -/

/-- One bit of a reflected CRC-32C. -/
def crc32cBit (c : BitVec 32) : BitVec 32 := if c.getLsbD 0 then (c >>> 1) ^^^ 0x82F63B78 else c >>> 1

/-- One byte of a reflected CRC-32C (R225): polynomial 0x1EDC6F41, reflected. -/
def crc32cByte (c : BitVec 32) (b : BitVec 8) : BitVec 32 :=
  let x := c ^^^ b.setWidth 32
  crc32cBit (crc32cBit (crc32cBit (crc32cBit (crc32cBit (crc32cBit (crc32cBit (crc32cBit x)))))))

/-- CRC-32C of bytes (R225): initial value and final XOR 0xFFFFFFFF. -/
def crc32c (bs : List (BitVec 8)) : BitVec 32 := ~~~ bs.foldl crc32cByte 0xFFFFFFFF

/-- The 72 bytes of a code line, byte j being line bits 8j+7 to 8j (R225). -/
def lineBytes (l : LineBits) : List (BitVec 8) := (List.range 72).map fun j => l.extractLsb' (8 * j) 8

/-- The CRC of a code line (R225). -/
def lineCrc (l : LineBits) : BitVec 32 := crc32c (lineBytes l)

/-- Word j of a line (R25). -/
def lineWord (l : LineBits) (j : Nat) : Word := l.extractLsb' (36 * j) 36

/-- Instruction i of a line (R25). -/
def lineInsn (l : LineBits) (i : Nat) : Insn := l.extractLsb' (144 * i) 144

/-- A line of 16 words (R25, R229). -/
def lineOfWords (ws : List Word) : LineBits :=
  BitVec.ofNat 576 ((ws.zipIdx.map fun (w, j) => w.toNat * 2 ^ (36 * j)).foldl (· + ·) 0)

end Sys2Proof.Machine
end

