-- ==== Sys2Proof/Machine/Memory.lean ====
section
/-! DEFINITION. The memories: sorted cells, ECC marks, quay ports, bank ownership, port A arbitration, and what every SRAM
access does on an error (R209 to R222). -/

namespace Sys2Proof.Machine

/-! ### Sorted lists keyed by number -/

/-- The value at a key. -/
def kget {α : Type} : List (Nat × α) → Nat → Option α
  | [], _ => none
  | (j, x) :: r, k => if j = k then some x else kget r k

/-- The list with a key set, or removed where the value is none; rising keys stay rising. -/
def kset {α : Type} : List (Nat × α) → Nat → Option α → List (Nat × α)
  | [], k, some v => [(k, v)]
  | [], _, none => []
  | (j, x) :: r, k, v =>
    if j < k then (j, x) :: kset r k v
    else
      let rest := if j = k then r else (j, x) :: r
      match v with
      | some y => (k, y) :: rest
      | none => rest

/-- The keys rise strictly. -/
def keysRise {α : Type} : List (Nat × α) → Bool
  | [] => true
  | [_] => true
  | (j, _) :: (k, y) :: r => decide (j < k) && keysRise ((k, y) :: r)

/-! ### A memory -/

/-- The canonical form: cells by strictly rising address, none of them 0, and marks by strictly rising word index. -/
def Mem.wf (m : Mem) : Bool := keysRise m.cells && m.cells.all (fun c => c.2 != 0) && keysRise m.marks

/-- A nonet; one that no cell lists is 0. -/
def Mem.nonet (m : Mem) (a : Nat) : Nonet := (kget m.cells a).getD 0

/-- A nonet written. -/
def Mem.setNonet (m : Mem) (a : Nat) (v : Nonet) : Mem := { m with cells := kset m.cells a (if v = 0 then none else some v) }

/-- The value of n nonets from address a, the lowest address in the low bits (R2). -/
def Mem.read (m : Mem) (a : Nat) : Nat → Nat
  | 0 => 0
  | n + 1 => (m.nonet a).toNat + 512 * m.read (a + 1) n

/-- n nonets of a value as (address, nonet) pairs (R2). -/
def nonetsOf (a v : Nat) : Nat → List (Nat × Nonet)
  | 0 => []
  | n + 1 => (a, BitVec.ofNat 9 v) :: nonetsOf (a + 1) (v / 512) n

/-- Nonets written in turn. -/
def Mem.setAll (m : Mem) (ws : List (Nat × Nonet)) : Mem := ws.foldl (fun m w => m.setNonet w.1 w.2) m

/-- The word with index i (nonets 4i to 4i+3). -/
def Mem.word (m : Mem) (i : Nat) : Word := BitVec.ofNat 36 (m.read (4 * i) 4)

/-- The ECC mark of a word. -/
def Mem.mark (m : Mem) (i : Nat) : Option EccMark := kget m.marks i

/-- The word is uncorrectable (R210). -/
def Mem.isUe (m : Mem) (i : Nat) : Bool := m.mark i == some .ue || m.mark i == some .stuck

/-- The word has a correctable error (R210). -/
def Mem.isCe (m : Mem) (i : Nat) : Bool := m.mark i == some .ce

/-- The word is re-encoded: a mark that is no property of its cells goes. -/
def Mem.heal (m : Mem) (i : Nat) : Mem :=
  if m.mark i = some .stuck then m else { m with marks := kset m.marks i none }

/-- The word indices that n nonets from address a touch. -/
def wordsOf (a n : Nat) : List Nat := if n = 0 then [] else (List.range ((a + n - 1) / 4 + 1 - a / 4)).map (· + a / 4)

/-- Nonets written with their words re-encoded (R210). -/
def Mem.write (m : Mem) (ws : List (Nat × Nonet)) : Mem :=
  ((ws.map fun w => w.1 / 4).dedup).foldl Mem.heal (m.setAll ws)

/-- Every word set to 0 with valid check bits (R224): stuck cells stay marked. -/
def Mem.zeroed (m : Mem) : Mem := { cells := [], marks := m.marks.filter fun x => x.2 == .stuck }

/-- Block p of a memory, of n words, set to 0 so (R343). -/
def Mem.zeroBlock (m : Mem) (n p : Nat) : Mem :=
  { cells := m.cells.filter fun c => c.1 / (4 * n) != p, marks := m.marks.filter fun x => x.2 == .stuck || x.1 / n != p }

/-- The words of an access that are written only in part (R210): they are read, modified and written. -/
def partialWords (ws : List (Nat × Nonet)) : List Nat :=
  (ws.map fun w => w.1 / 4).dedup.filter fun i => (ws.filter fun w => w.1 / 4 == i).length != 4

/-! ### Interrupt requests -/

/-- A source event sets PEND (R109, R110) of source n in a barge, at the basin's present BCLK. -/
def State.pend (s : State) (g : BargeIx) (n : Fin 64) : State :=
  let c := bclkCount s (basinOf g)
  (s.modBarge g fun b => { b with intc := vmod b.intc n fun i =>
    if i.pend then i else { i with pend := true, since := c } }).mark (.intc g) n.val

/-- An event asserts a source in all four barges of a basin. -/
def State.pendBasin (s : State) (n : BasinIx) (src : Fin 64) : State :=
  (((s.pend (bargeOf n 0) src).pend (bargeOf n 1) src).pend (bargeOf n 2) src).pend (bargeOf n 3) src

/-- The epoch after one (R387): 65,535 wraps to 1. -/
def nextEpoch (e : BitVec 16) : BitVec 16 := if e = 0xFFFF then 1 else e + 1

/-- The epoch of a resource increases (R386, R387). -/
def Firmware.bump (f : Firmware) (kind i : Nat) : Firmware :=
  match kind with
  | 1 => { f with epBasin := vmodN f.epBasin i nextEpoch }
  | 2 => { f with epBarge := vmodN f.epBarge i nextEpoch }
  | 3 => { f with epWeir := vmodN f.epWeir i nextEpoch }
  | 4 => { f with epPwm := vmodN f.epPwm i nextEpoch }
  | 5 => { f with epFi := vmodN f.epFi i nextEpoch }
  | 6 => { f with epFo := vmodN f.epFo i nextEpoch }
  | 7 => { f with epLink := vmodN f.epLink i nextEpoch }
  | 8 => { f with epTb := vmodN f.epTb i nextEpoch }
  | 9 => { f with epBall := vmodN f.epBall i nextEpoch }
  | _ => f

def State.bump (s : State) (kind i : Nat) : State := { s with fw := s.fw.bump kind i }

/-- The epoch of a resource (R386, R387); none where there is no such resource. -/
def epochOf (f : Firmware) (kind i : Nat) : Option (BitVec 16) :=
  match kind with
  | 1 => f.epBasin[i]?
  | 2 => f.epBarge[i]?
  | 3 => f.epWeir[i]?
  | 4 => f.epPwm[i]?
  | 5 => f.epFi[i]?
  | 6 => f.epFo[i]?
  | 7 => f.epLink[i]?
  | 8 => f.epTb[i]?
  | 9 => f.epBall[i]?
  | _ => none

/-- The epoch that an event reports (R398), which the event itself has made. -/
def Firmware.eventEpoch (f : Firmware) : FwNotice → BitVec 16
  | .retired kind i _ => (epochOf f kind i).getD 0
  | .bargeReset g _ => f.epBarge.get g
  | _ => 0

/-- The epochs that an event increases (R387): a retirement, a barge's reset, a basin's entry to B3. -/
def Firmware.noticed (f : Firmware) : FwNotice → Firmware
  | .retired kind i _ => f.bump kind i
  | .bargeReset g _ => f.bump 2 g.val
  | .power n cur => if cur = 3 then f.bump 1 n.val else f
  | _ => f

/-- The Harbourmaster is told of something that it reports as an event (R398). -/
def State.notify (s : State) (x : FwNotice) : State :=
  let f := s.fw.noticed x
  { s with fw := { f with notices := f.notices ++ [(low 32 s.crp.stTime, f.eventEpoch x, x)] } }

/-- A block retires a channel (R197): the Keeper is told of a vital one, the Harbourmaster of every one. -/
def State.reportRetired (s : State) (kind index : Nat) (cause : BitVec 8) (vital : Bool) : State :=
  let s1 := if vital then { s with kp := { s.kp with reports := s.kp.reports ++ [{ kind := kind, index := index }] } } else s
  s1.notify (.retired kind index cause)

/-! ### ECC -/

/-- MEM_ERRADDR.SRC (R231). -/
def srcLsu : Nat := 0
def srcMac : Nat := 1
def srcRpt : Nat := 2
def srcTarget : Nat := 3
def srcScrub : Nat := 4
def srcPartial : Nat := 5
def srcFrame : Nat := 6

/-- The value of a counter or a record before its events of BCLK c is kept for the reads of that BCLK (R6, R231). -/
def Basin.counted (x : Basin) (c off : Nat) (cur : Word) : Basin :=
  if x.before.any fun e => e.1 == off && e.2.1 == c then x
  else { x with before := (off, c, cur) :: x.before.filter fun e => e.1 != off }

/-- A counter as a read in BCLK c returns it (R6). -/
def Basin.counterAt (x : Basin) (c off : Nat) (cur : Word) : Word :=
  ((x.before.find? fun e => e.1 == off && e.2.1 == c).map fun e => e.2.2).getD cur

/-- MEM_ERRADDR and REF_ADDR as words (R231). -/
def Basin.errReg (x : Basin) : Word := put36 0 x.errAddr ||| bit36 20 x.errUe ||| put36 21 x.errSrc
def Basin.refReg (x : Basin) : Word := put36 0 x.refAddr ||| bit36 20 x.refWr

/-- One word with an error met by a read of a basin's SRAM, which the reader sees as `m` (R211, R220). -/
def noteErrorIn (n : BasinIx) (src : Nat) (m : Mem) (s : State) (i : Nat) : State :=
  let c := bclkCount s n
  if m.isUe i then
    let s1 := s.modBasin n fun x =>
      { (x.counted c 0x1B x.ueCnt).counted c 0x1C x.errReg with
        ueCnt := x.ueCnt + 1, errAddr := BitVec.ofNat 20 (4 * i), errUe := true, errSrc := BitVec.ofNat 3 src }
    let s2 := if src = srcScrub then s1.pendBasin n 57 else s1
    if src = srcScrub ∨ src = srcPartial then
      s2.notify (.memerr n (BitVec.ofNat 3 src) 0 (BitVec.ofNat 20 (4 * i)))
    else s2
  else if m.isCe i then
    let s1 := s.modBasin n fun x =>
      { (x.counted c 0x1A x.ceCnt).counted c 0x1C x.errReg with
        ceCnt := x.ceCnt + 1, errAddr := BitVec.ofNat 20 (4 * i), errUe := false, errSrc := BitVec.ofNat 3 src
        banks := vmodN x.banks (i / 16384) fun b =>
          let row := i / 8 % 2048
          if src = srcScrub ∨ b.scrubFront.contains row then b else { b with scrubFront := row :: b.scrubFront } }
    s1.pendBasin n 56
  else s

/-- Every word of a list that a read returns, with its errors recorded in order. -/
def noteErrorsIn (n : BasinIx) (src : Nat) (m : Mem) (s : State) (words : List Nat) : State :=
  words.foldl (noteErrorIn n src m) s

/-- The errors of words read from the memory as it stands. -/
def noteErrors (n : BasinIx) (src : Nat) (s : State) (words : List Nat) : State :=
  noteErrorsIn n src (s.basins.get n).mem s words

/-- The lowest uncorrectable word of a list, as a nonet address (R54). -/
def firstUe (m : Mem) (words : List Nat) : Option Nat := (words.filter m.isUe).min?.map (4 * ·)

/-! ### Quay ports -/

/-- A quay address (R209). -/
def isQuay (a : Nat) : Bool := 0xE0000 ≤ a && a < 0x100000

/-- The nonets a port wrote in BCLK c, with their values before. -/
def portOld (p : Option PortWrite) (c : Nat) : List (Nat × Nonet) :=
  match p with
  | some w => if w.bclk = c then w.old else []
  | none => []

/-- The words a port wrote in BCLK c, with their marks before. -/
def portMarks (p : Option PortWrite) (c : Nat) : List (Nat × Option EccMark) :=
  match p with
  | some w => if w.bclk = c then w.oldMarks else []
  | none => []

/-- The memory as a port reads it in BCLK c (R211): what the other port writes in that BCLK is not yet seen. -/
def Basin.seenBy (x : Basin) (portB : Bool) (c : Nat) : Mem :=
  let other := if portB then x.portA else x.portB
  { cells := (x.mem.setAll (portOld other c)).cells
    marks := (portMarks other c).foldl (fun m w => kset m w.1 w.2) x.mem.marks }

/-- n nonets from address a as a port reads them in BCLK c. -/
def Basin.readBy (x : Basin) (portB : Bool) (c a n : Nat) : Nat := (x.seenBy portB c).read a n

/-- The basin's memory as its port A reads it in the present BCLK (R211). -/
def portAMem (s : State) (n : BasinIx) : Mem := (s.basins.get n).seenBy false (bclkCount s n)

/-- A write to a row drops the scrubber's write-back of it (R221): `rows` is the number of rows of a bank. -/
def cancelBack {k : Nat} (rows : Nat) (banks : Vector Bank k) (ws : List (Nat × Nonet)) : Vector Bank k :=
  ws.foldl (fun bs w => vmodN bs (w.1 / (32 * rows)) fun b =>
    if b.scrubBack = some (w.1 / 32 % rows) then { b with scrubBack := none } else b) banks

/-- A write by a port in BCLK c (R211): where the other port writes a nonet in the same BCLK, port B's value stands; a word
that both write counts once per BCLK. -/
def Basin.writeBy (x : Basin) (portB : Bool) (c : Nat) (ws : List (Nat × Nonet)) : Basin :=
  if (ws.all fun w => !isQuay w.1) then { x with mem := x.mem.write ws, banks := cancelBack 2048 x.banks ws }
  else
    let other := portOld (if portB then x.portA else x.portB) c
    let mine := portOld (if portB then x.portB else x.portA) c
    let eff := if portB then ws else ws.filter fun w => !(other.any fun o => o.1 == w.1)
    let old := eff.filterMap fun w =>
      if mine.any fun o => o.1 == w.1 then none
      else some (w.1, ((other.find? fun o => o.1 == w.1).map fun o => o.2).getD (x.mem.nonet w.1))
    let hit := ws.any fun w => other.any fun o => o.1 / 4 == w.1 / 4
    let count := hit && x.collAt != some c
    let port := if portB then x.portB else x.portA
    let marks := ((eff.map fun w => w.1 / 4).dedup.filter fun i => !((portMarks port c).any fun m => m.1 == i)).map fun i =>
      (i, ((portMarks (if portB then x.portA else x.portB) c).find? fun m => m.1 == i).elim (x.mem.mark i) fun m => m.2)
    let rec' := some { bclk := c, old := mine ++ old, oldMarks := portMarks port c ++ marks }
    let x1 := if count then x.counted c 0x1D x.quayColl else x
    { x1 with
      mem := x.mem.write eff
      banks := cancelBack 2048 x.banks eff
      portA := if portB then x.portA else rec'
      portB := if portB then rec' else x.portB
      quayColl := if count then x.quayColl + 1 else x.quayColl
      collAt := if hit then some c else x.collAt }

/-! ### Ownership (R212, R125) -/

/-- BANK_OWN's fields (R231). -/
def ownOwner (o : BitVec 7) : Nat := bitsN o 0 3
def ownWorld (o : BitVec 7) : Bool := bit o 3
def ownSup (o : BitVec 7) : Bool := bit o 4
def ownWh (o : BitVec 7) : Nat := bitsN o 5 2

/-- A barge is admitted on port A (R212). -/
def bargeAdmitted (o : BitVec 7) (p : Fin 4) (world sup : Bool) : Bool :=
  (ownOwner o == p.val || ownOwner o == 4) && ownWorld o == world && (!ownSup o || sup)

/-- The target port is admitted (R212); owner 6 is treated as 7. -/
def targetAdmitted (o : BitVec 7) (write : Bool) : Bool :=
  ownOwner o < 6 && (if write then ownWh o == 2 else 1 ≤ ownWh o)

/-- The emergency slot of basin position p and world w (R125). -/
def slotBase (p : Fin 4) (w : Bool) : Nat := 0xFFC00 + 128 * (2 * p.val + w.toNat)

/-- A basin-local address in the emergency area (R125). -/
def inEmergency (a : Nat) : Bool := 0xFFC00 ≤ a && a < 0x100000

/-- The bank of a basin-local address (R209). -/
def bankOf (a : Nat) : BankIx := ⟨a / 65536 % 16, Nat.mod_lt _ (by decide)⟩

/-- The beats of a transaction (R237). -/
def txBeats (t : Tx) : Nat := match t.size with
  | .burst k => k
  | _ => 1

/-- The bank that a transaction at a basin's target port asks for next, and whether it is still to touch a bank. -/
def reqBank (r : WharfReq) : BankIx := bankOf (r.tx.addr.toNat + 32 * r.beat)
def reqTouches (r : WharfReq) (b : BankIx) : Bool := reqBank r == b || bankOf (r.tx.addr.toNat + 32 * (txBeats r.tx - 1)) == b

/-- A barge access to nonets a to a+n−1, all in one bank, is admitted (R212, R125). -/
def admits (x : Basin) (p : Fin 4) (world sup : Bool) (a n : Nat) : Bool :=
  if inEmergency a ∨ inEmergency (a + n - 1) then
    sup && slotBase p world ≤ a && a + n ≤ slotBase p world + 128
  else bargeAdmitted (x.banks.get (bankOf a)).own p world sup

/-- A part of an access: a signed nonet address and a length. -/
structure Part where
  addr : Int
  len : Nat
  deriving DecidableEq, Repr

/-- The parts of an access of s nonets at a signed address (R63): split at the next multiple of s. -/
def partsOf (a : Int) (s : Nat) : List Part :=
  let r := (a % (s : Int)).toNat
  if r = 0 then [{ addr := a, len := s }]
  else [{ addr := a, len := s - r }, { addr := a + ((s - r : Nat) : Int), len := r }]

/-- A part lies in basin-local space (R62). -/
def Part.inRange (p : Part) : Bool := decide (0 ≤ p.addr ∧ p.addr + p.len ≤ 1048576)

/-- The first failing check of an access, part by part: range, then ownership (R63, R443); its cause and FADDR. -/
def accessFault (x : Basin) (pos : Fin 4) (world sup : Bool) : List Part → Option (BitVec 8 × Word)
  | [] => none
  | p :: ps =>
    if !p.inRange then some (0x04, BitVec.ofInt 36 p.addr)
    else if !admits x pos world sup p.addr.toNat p.len then some (0x05, BitVec.ofInt 36 p.addr)
    else accessFault x pos world sup ps

/-! ### The Reservoir (R230) -/

/-- One Reservoir word with an error met by a read (R230). -/
def noteRvError (s : State) (w : Nat) : State :=
  let m := s.rv.mem
  let p := w / 262144
  if m.isUe w then
    { s with rv := { s.rv with ports := vmodN s.rv.ports p fun x =>
      { x with ueCnt := x.ueCnt + 1, errWord := BitVec.ofNat 20 w, errUe := true } } }
  else if m.isCe w then
    { s with rv := { s.rv with
      ports := vmodN s.rv.ports p fun x =>
        { x with ceCnt := x.ceCnt + 1, errWord := BitVec.ofNat 20 w, errUe := false }
      banks := vmodN s.rv.banks (w / 65536) fun b =>
        let row := w / 8 % 8192
        if b.scrubFront.contains row then b else { b with scrubFront := row :: b.scrubFront } } }
  else s

/-- Reservoir words read: errors are recorded, and an uncorrectable word reads 0 (R230). -/
def rvRead (ws : List Nat) (s : State) : List Word × State :=
  (ws.map fun w => if s.rv.mem.isUe w then 0 else s.rv.mem.word w, ws.foldl noteRvError s)

/-- Reservoir nonets written. -/
def rvWriteNonets (ws : List (Nat × Nonet)) (s : State) : State :=
  { s with rv := { s.rv with mem := s.rv.mem.write ws, banks := cancelBack 8192 s.rv.banks ws } }

/-- Reservoir words written whole. -/
def rvWrite (ws : List (Nat × Word)) (s : State) : State :=
  rvWriteNonets (ws.flatMap fun w => nonetsOf (4 * w.1) w.2.toNat 4) s

/-! ### Port A arbitration (R216 to R218) -/

/-- The place of a requester in the fixed order (R216). -/
def fixedRank (b : Bank) (who : Fin 6) : Nat := if ownOwner b.own = who.val ∧ who.val < 4 then 0 else who.val + 1

/-- The requesters in fixed order (R216). -/
def fixedOrder (b : Bank) : List (Fin 6) :=
  ixs 6 (fun r => fixedRank b r == 0) ++ ixs 6 fun r => fixedRank b r != 0

/-- The place of a requester: the lift queue first, then the fixed order (R216, R217). -/
def bankRank (b : Bank) (who : Fin 6) : Nat :=
  let k := b.lift.idxOf who
  if k < b.lift.length then k else 10 + fixedRank b who

/-- The end of a BCLK (R217): the winner's count returns to 0 and it leaves the lift queue; every loser counts a loss, and
those whose count has reached 3 join the queue in fixed order. Who has asked and not been served waits on. -/
def Bank.endTurn (b : Bank) (w : PortTurn) : Bank :=
  let losses := w.losers.foldl (fun v r => vmod v r (· + 1)) (vput b.losses w.winner 0)
  let lift := b.lift.filter (· != w.winner)
  let join := (fixedOrder b).filter fun r => w.losers.contains r && 3 ≤ losses.get r && !lift.contains r
  let waiters := (b.waiters ++ w.losers ++ w.late).dedup.filter fun r => !(w.used && r == w.winner)
  { b with losses := losses, lift := lift ++ join, turn := none, waiters := waiters }

/-- The bank at the start of BCLK c: an earlier BCLK's grant has ended. -/
def Bank.inTurn (b : Bank) (c : Nat) : Bank :=
  match b.turn with
  | some w => if w.bclk = c then b else b.endTurn w
  | none => b

/-- The requester that the bank grants of those that ask in one BCLK (R216, R217). -/
def bankWinner (b : Bank) (who : Fin 6) (rivals : List (Fin 6)) : Fin 6 :=
  rivals.foldl (fun w r => if bankRank b r < bankRank b w then r else w) who

/-- A requester asks for a bank in BCLK c against its rivals of that BCLK, those that a command names and those that have waited and
still want the bank: whether it is granted, and the bank with the BCLK's grant, which is made once and serves one access (R210,
R216). The first command of a BCLK names all that ask in it; another requester asks from the next BCLK on (log entry 94). -/
def Bank.ask (b : Bank) (c : Nat) (who : Fin 6) (rivals : List (Fin 6)) (wants : Fin 6 → Bool) : Bool × Bank :=
  let b1 := b.inTurn c
  match b1.turn with
  | some w =>
    if w.winner = who then (!w.used, { b1 with turn := some { w with used := true } })
    else if w.losers.contains who then (false, b1)
    else (false, { b1 with turn := some { w with late := (who :: w.late).dedup } })
  | none =>
    let waits := b1.waiters.filter fun r => r != who && wants r
    let others := (rivals ++ waits).dedup
    let win := bankWinner b1 who others
    let turn : PortTurn := { bclk := c, winner := win, used := win == who, losers := (who :: others).dedup.filter (· != win) }
    (win == who, { b1 with turn := some turn, waiters := waits })

/-- The target port of a basin is clocked for a bank (R347). -/
def targetClocked (s : State) (n : BasinIx) (b : BankIx) : Bool :=
  let cur := (s.crp.bpwr.get n).cur
  cur == 0 || (cur == 1 && decide (14 ≤ b.val))

/-- A held transaction may be performed (R214): one accepted since a handover began waits for its end. -/
def mayPerform (s : State) (n : BasinIx) (r : WharfReq) : Bool :=
  targetClocked s n (reqBank r) && ((s.basins.get n).banks.get (reqBank r)).ho.all fun h => h.tport.contains r.seq

/-- A transaction that the target port holds asks for a bank (R214, R219). -/
def targetWaits (s : State) (n : BasinIx) (b : BankIx) : Bool :=
  (s.basins.get n).tport.any fun r => !r.refuse && reqBank r == b && mayPerform s n r

/-- A requester that waits for a bank still wants it: a barge for its next instruction, a frame, a return, a gate's entry, a split
load, an RPT element or its oldest store, the target port for a transaction, the scrubber for the access that it owes (R216, R221). -/
def stillWants (s : State) (n : BasinIx) (b : BankIx) (who : Fin 6) : Bool :=
  if h : who.val < 4 then
    let x := s.barges.get (bargeOf n ⟨who.val, h⟩)
    x.arb || x.frameRun.isSome || x.rfeDue.isSome || x.gate.isSome || x.second.isSome || x.rpt.isSome ||
      x.stores.head?.any fun e => bankOf e.addr == b
  else if who = 4 then targetWaits s n b
  else decide (((s.basins.get n).banks.get b).scrubLast + 4096 ≤ bclkCount s n)

/-- One requester asks for one bank in the basin's present BCLK. -/
def askBank (s : State) (n : BasinIx) (b : BankIx) (who : Fin 6) (rivals : List Rival) : Bool × State :=
  let r := ((s.basins.get n).banks.get b).ask (bclkCount s n) who ((rivals.filter fun r => r.bank == b).map fun r => r.who)
    (stillWants s n b)
  (r.1, s.modBank n b fun _ => r.2)

/-- Nobody waits for a bank's port A, and it has granted none in the present BCLK. -/
def bankQuiet (s : State) (n : BasinIx) (b : BankIx) : Bool :=
  let x := ((s.basins.get n).banks.get b).inTurn (bclkCount s n)
  x.turn.isNone && !x.waiters.any (stillWants s n b)

/-- A barge position as a requester. -/
def whoBarge (p : Fin 4) : Fin 6 := ⟨p.val, by omega⟩

/-! ### Port B arbitration (R219) -/

/-- The quay bank that a Weir channel or a link names with its BANK bit. -/
def quayBank (bank : Bool) : BankIx := if bank then 15 else 14

/-- An area's header row can be written (R261): the row of the enable, or a frozen half's once its records are. -/
def Area.headerReady (a : Area) (src : Nat) (fifo : List Record) : Bool :=
  a.header.any fun h => a.zero || fifo.all fun r => !(r.src == src && r.half == h)

/-- A Weir record or header row waits for a quay bank. -/
def weirWaits (s : State) (n : BasinIx) (b : BankIx) : Bool :=
  let fifo := s.weir.fifo.get n
  (fifo.any fun r => if h : r.src < 384 then quayBank (bit (s.weir.ch.get ⟨r.src, h⟩).dst 4) == b else false) ||
    (s.weir.ch.toList.zipIdx).any fun c =>
      bitsN c.1.dst 0 4 == n.val && quayBank (bit c.1.dst 4) == b && c.1.area.headerReady c.2 fifo

/-- A Towline record or header row waits for a quay bank. -/
def towlineWaits (s : State) (n : BasinIx) (b : BankIx) : Bool :=
  s.tl.link.toList.any fun l =>
    bitsN l.rxdst 0 4 == n.val && quayBank (bit l.rxdst 4) == b && (!l.fifo.isEmpty || l.area.header.isSome)

/-- A requester's access by port B of a quay bank in the present BCLK: one in each BCLK, the Weir's first, Towline's and the
target port's in turn in the BCLK that it leaves free. -/
def askPortB (s : State) (n : BasinIx) (b : BankIx) (who : PortB) : Bool × State :=
  let c := bclkCount s n
  let bank := (s.basins.get n).banks.get b
  let yields : Bool := match who with
    | .weir => false
    | .towline => weirWaits s n b || (bank.towlineLast && targetWaits s n b)
    | .target => weirWaits s n b || (!bank.towlineLast && towlineWaits s n b)
  if yields ∨ bank.portBAt = some c then (false, s)
  else (true, s.modBank n b fun x =>
    { x with portBAt := some c, towlineLast := if who = .weir then x.towlineLast else who == .towline })

/-- A bank is between steps 2 and 4 of a handover, so that admitted accesses wait (R214). -/
def inHandover (x : Basin) (b : BankIx) : Bool := (x.banks.get b).ho.isSome

end Sys2Proof.Machine
end

