-- ==== Sys2Proof/Machine/BargeOps.lean ====
section
/-! DEFINITION. What every barge command uses: the PSW's fields, the register banks, interrupt requests of the SIG unit, the
seal link, tracing, breakpoints, code-line reads, flushes and the reset of a barge. -/

namespace Sys2Proof.Machine

/-! ### PSW (R101) -/

def pswW (p : Word) : Bool := bit p 0
def pswL (p : Word) : Bool := bit p 1
def pswT (p : Word) : Bool := bit p 2
def pswV (p : Word) : Bool := bit p 3
def pswP (p : Word) : Bool := bit p 4
def pswIE (p : Word) : Bool := bit p 5
def pswIPL (p : Word) : BitVec 3 := fld p 6 3
def pswGA (p : Word) : Bool := bit p 9
def pswGL (p : Word) : Bool := bit p 10
def pswGT (p : Word) : Bool := bit p 11
def pswGV (p : Word) : Bool := bit p 12
def pswDFA (p : Word) : Bool := bit p 13

/-- A PSW with one bit set to a value. -/
def pswPut (i : Nat) (v : Bool) (p : Word) : Word := mergeBits (mask36 i 1) p (bit36 i v)

/-- The PSW fields that a write through the IOU sets: W, L, T, V, P, IE and IPL (R98, R101). -/
def pswWritable : Word := mask36 0 9

/-- The bits of the PSW that hold a field (R101, R7). -/
def pswMask : Word := mask36 0 14

/-- The bits of RMODE that hold a field (R77, R7). -/
def rmodeMask : Word := mask36 0 6 ||| mask36 8 18

/-! ### Register banks (R36) -/

def Barge.bank (b : Barge) (w : Bool) : WorldRegs := if w then b.vital else b.ordinary
def Barge.setBank (b : Barge) (w : Bool) (r : WorldRegs) : Barge := if w then { b with vital := r } else { b with ordinary := r }
def Barge.ctl (b : Barge) (w : Bool) : WorldCtl := if w then b.vctl else b.octl
def Barge.setCtl (b : Barge) (w : Bool) (c : WorldCtl) : Barge := if w then { b with vctl := c } else { b with octl := c }

/-- The frame pointer of a world and level (R114). -/
def Barge.fp (b : Barge) (w sup : Bool) : BitVec 20 := if sup then (b.ctl w).fps else (b.ctl w).fpu
def Barge.setFp (b : Barge) (w sup : Bool) (v : BitVec 20) : Barge :=
  b.setCtl w (if sup then { b.ctl w with fps := v } else { b.ctl w with fpu := v })

/-- The basin of a barge is in B0, so that its BCLK runs (R347). -/
def basinRuns (s : State) (n : BasinIx) : Bool := (s.crp.bpwr.get n).cur == 0

/-- A barge is out of reset and clocked (R347, R351). -/
def bargeRuns (s : State) (g : BargeIx) : Bool := basinRuns s (basinOf g) && !bit s.crp.bhold g.val && !s.crp.coldHeld

/-! ### The signature unit's requests and the seal link -/

/-- Source 0 or 1 asserts (R155, R156) and sets its PEND. -/
def latchSig (g : BargeIx) (s : State) : State :=
  let x := (s.barges.get g).sig
  let s1 := if !x.queue.isEmpty ∧ x.en ∧ !x.isOpen then s.pend g 0 else s
  if x.retryHeld.isSome then s1.pend g 1 else s1

/-- A message put on a barge's seal link (R164). -/
def State.linkSend (g : BargeIx) (m : SealMsg) (s : State) : State :=
  { s with kp := { s.kp with links := vmod s.kp.links g (· ++ [m]) } }

/-- A captured seal departs once the IOU writes before it have completed (R163). -/
def departSeal (g : BargeIx) (s : State) : State :=
  match (s.barges.get g).sig.captured with
  | some (m, false) =>
    (s.modBarge g fun b => { b with sig := { b.sig with captured := none, seals := b.sig.seals + 1 } }).linkSend g m
  | _ => s

/-! ### Folds (R157 to R160) -/

/-- c folds of residue r into the open cycle. -/
def Sig.fold (x : Sig) (r c : Nat) : Sig := { x with s := sigFolds x.s r c, n := x.n + BitVec.ofNat 16 c }

/-! ### Debug: breakpoints, halts, trace (R411 to R416) -/

/-- DEBUG transactions, the barge debug modules and trace are allowed (R407): in OPEN, and unlocked in CUSTOMER. -/
def debugAllowed (s : State) : Bool := s.sec.loaded.life == 0 || (s.sec.loaded.life == 1 && s.sec.unlocked)

/-- A halt request is allowed (R412). -/
def haltAllowed (s : State) (g : BargeIx) : Bool :=
  s.kp.mode == .starting || s.kp.comm ||
    s.kp.tasks.toList.all fun t =>
      t.tstate != 1 ||
        !(t.onbarge.toNat == g.val || (bit (t.words.get 0) 12 && bitsN (t.words.get 0) 6 6 == g.val))

/-- A halt request (R411, R412): it waits for its boundary, or is refused. It is nothing to a barge that is halted, or whose debug
module is not allowed (R407). -/
def requestHalt (g : BargeIx) (cause : BitVec 3) (hit : BitVec 3) (s : State) : State :=
  if !debugAllowed s ∨ (s.barges.get g).dbg.halted then s
  else if haltAllowed s g then
    s.modBarge g fun b => { b with dbg := { b.dbg with haltReq := b.dbg.haltReq.orElse fun _ => some (cause, hit) } }
  else (s.modBarge g fun b => { b with dbg := { b.dbg with refused := true } }).mark (.dbgStat g) 1

/-- Breakpoint j matches an address set in a mode (R414). -/
def bpMatches (b : Barge) (x : Breakpoint) (mode : Nat) (p : BitVec 14 → Bool) : Bool :=
  bitsN x.bpa 14 2 == mode && p (fld x.bpa 0 14) && (!bit x.bpa 18 || bit x.bpa 19 == pswW b.psw) &&
    (!bit x.bpa 20 || x.ctxid == b.ctxid)

/-- One breakpoint's match: it counts a hit and acts (R414). -/
def bpHit (g : BargeIx) (mode : Nat) (p : BitVec 14 → Bool) (s : State) (j : Fin 8) : State :=
  let b := s.barges.get g
  let x := b.dbg.bps.get j
  if debugAllowed s ∧ bpMatches b x mode p then
    let s1 := s.modBarge g fun b => { b with dbg := { b.dbg with bps := vmod b.dbg.bps j fun y => { y with hits := y.hits + 1 } } }
    match bitsN x.bpa 16 2 with
    | 1 => requestHalt g 2 (BitVec.ofNat 3 j.val) s1
    | 2 => s1.pend g 60
    | _ => s1
  else s

/-- Every breakpoint of a barge against an address set. -/
def bpHits (g : BargeIx) (mode : Nat) (p : BitVec 14 → Bool) (s : State) : State :=
  (List.finRange 8).foldl (bpHit g mode p) s

/-- An executed-mode breakpoint halts the barge before the instruction at its PC (R411, R414). -/
def bpStops (s : State) (g : BargeIx) : Bool :=
  let b := s.barges.get g
  !b.dbg.skipBp && debugAllowed s && haltAllowed s g &&
    b.dbg.bps.toList.any fun x => bpMatches b x 2 (fun a => a == b.pc) && bitsN x.bpa 16 2 == 1

/-- An issued instruction enters the trace ring (R416). -/
def Dbg.record (d : Dbg) (pc : BitVec 14) (w idle : Bool) : Dbg :=
  { d with
    trace := vmodN d.trace d.tptr.toNat fun _ => low 16 (put36 0 pc ||| bit36 14 w ||| bit36 15 idle)
    tptr := d.tptr + 1
    wrap := d.wrap || d.tptr == 31 }

/-- A word for the trace stream (R416): kind 0 branch, 1 entry, 2 rfe, 3 gate or gate return. -/
def traceWord (g : BargeIx) (kind : Nat) (s : State) : State :=
  let b := s.barges.get g
  if !b.dbg.tup ∨ !debugAllowed s then s
  else
    let tail := bit36 20 (pswW b.psw) ||| put36 24 (low 12 (BitVec.ofNat 36 b.count))
    let w := put36 0 b.pc ||| at36 14 g.val ||| tail ||| at36 21 kind
    let f := s.ferry
    let ovf := if f.traceLost = 0 then [] else [at36 0 (f.traceLost % 1048576) ||| tail ||| at36 21 7]
    if f.trace.length + ovf.length < 256 then
      { s with ferry := { f with trace := f.trace ++ ovf ++ [w], traceLost := 0 } }
    else { s with ferry := { f with traceLost := f.traceLost + 1 } }

/-! ### Code lines (R88, R96, R225 to R227) -/

/-- The code bank a barge fetches from (R228). -/
def codeBankOf (x : Basin) (p : Fin 4) : Fin 4 := ⟨(x.codemap.get p).toNat % 4, Nat.mod_lt _ (by decide)⟩

/-- The way of a line (R226). -/
def wayOf (l : BitVec 12) : Fin 4 := ⟨l.toNat % 4, Nat.mod_lt _ (by decide)⟩

/-- A line as its bank holds it; a blank line's data is not stated (R225, log entry 3). -/
def codeLine (k : CodeBank) (l : BitVec 12) : Option CodeLine := kget k.lines l.toNat
def lineData (k : CodeBank) (l : BitVec 12) : LineBits := ((codeLine k l).map fun x => x.data).getD (Config.freeLine l.toNat)

/-- The CRC of a line fails; a blank line's always does (R225). -/
def lineCrcFails (k : CodeBank) (l : BitVec 12) : Bool :=
  match codeLine k l with
  | some x => lineCrc x.data != x.crc
  | none => true

/-- The number of bits set in a group mask. -/
def groupCount (x : BitVec 8) : Nat := ((List.range 8).filter fun i => bit x i).length

/-- CODE_ERR[k] (R231). -/
def CodeBank.errWord (c : CodeBank) : Word := put36 0 c.ceCnt ||| put36 12 c.ueCnt ||| put36 24 c.crcCnt

/-- The errors of a line count in CODE_ERR (R227, R231). -/
def countLine (l : BitVec 12) (k : CodeBank) : CodeBank :=
  let x := codeLine k l
  { k with
    ceCnt := satAdd k.ceCnt (groupCount ((x.map fun y => y.ce).getD 0))
    ueCnt := satAdd k.ueCnt (groupCount ((x.map fun y => y.ue).getD 0))
    crcCnt := satAdd k.crcCnt (if lineCrcFails k l then 1 else 0) }

/-- A line that cannot be executed (R96). -/
def lineBad (k : CodeBank) (l : BitVec 12) : Bool := ((codeLine k l).any fun x => x.ue != 0) || lineCrcFails k l

/-- The code-window read of a barge that waits for its way (R84, R226). -/
def windowWants (b : Barge) : Option (BitVec 2 × BitVec 12) :=
  match b.iou with
  | some o =>
    if !o.write ∧ 0x1000 ≤ o.addr.toNat ∧ o.addr.toNat < 0x2000 ∧ o.line.isNone ∧ (b.stores.all fun e => o.after ≤ e.seq) then
      let c := b.ctl o.world
      some (c.cwBank, c.cwBlk ++ fld o.addr 4 8)
    else none
  | none => none

/-- The eNVM channel whose operation waits for a way (R229): it takes the way as a code-window read does. -/
def programWants (s : State) (n : BasinIx) (k w : Fin 4) : Option (WayUse × BitVec 12) :=
  (List.finRange 4).findSome? fun c =>
    match (s.nvp.get c).op with
    | some (bn, bk, l, _) =>
      let line : BitVec 12 := BitVec.ofNat 12 l
      if bn = n.val ∧ bk = k.val ∧ wayOf line = w ∧
          !((s.basins.get n).code.get k).ways.toList.any (fun r => r.any fun x => x.use == .program c) then some (.program c, line)
      else none
    | none => none

/-- A demand fetch goes before another: the longer wait first, at equal waits the lower position (R226). -/
def demandFirst (d e : Fin 4 × BitVec 12 × Nat) : Bool :=
  decide (d.2.2 < e.2.2) || (d.2.2 == e.2.2 && decide (d.1.val < e.1.val))

/-- The demand fetch that a way serves next. -/
def nextDemand (c : CodeBank) (w : Fin 4) : Option (Fin 4 × BitVec 12 × Nat) :=
  (c.demands.filter fun d => wayOf d.2.1 == w).foldl (fun acc d =>
    match acc with
    | some e => if demandFirst d e then some d else some e
    | none => some d) none

/-- The patrol's next line of a way (R227). -/
def patrolLine (c : CodeBank) (w : Fin 4) : BitVec 12 := BitVec.ofNat 12 (4 * (c.patrolNext.get w).toNat + w.val)

/-- Who waits for a way, in the order of R226, a patrol read that is due under R227 first; and the BCLK of its request. -/
def wayNext (s : State) (n : BasinIx) (k w : Fin 4) : Option (WayUse × BitVec 12) :=
  let c := (s.basins.get n).code.get k
  if bit c.patrolDue w.val then some (.patrol, patrolLine c w)
  else match nextDemand c w with
  | some (p, l, _) => some (.demand p, l)
  | none =>
    let win := (List.finRange 4).findSome? fun p =>
      if c.ways.toList.any fun r => r.any fun x => x.use == .window p then none
      else match windowWants (s.barges.get (bargeOf n p)) with
        | some (bk, l) => if bk.toNat = k.val ∧ wayOf l = w then some (WayUse.window p, l) else none
        | none => none
    match win.orElse fun _ => programWants s n k w with
    | some x => some x
    | none => (c.aheads.find? fun d => wayOf d.2 == w).map fun d => (.ahead d.1, d.2)

/-- A waiting request cancels the read in a way: a demand fetch a prefetch or patrol read, a prefetch a patrol read (R226). -/
def preempts (c : CodeBank) (w : Fin 4) (u : WayUse) : Bool :=
  let demand := c.demands.any fun d => wayOf d.2.1 == w
  match u with
  | .ahead _ => demand
  | .patrol => !bit c.patrolDue w.val && (demand || c.aheads.any fun d => wayOf d.2 == w)
  | _ => false

/-- A way starts its next read if it is free or its read is cancelled (R226), no sooner than the BCLK after its last delivery
(R88). -/
def kickWay (n : BasinIx) (k : Fin 4) (s : State) (w : Fin 4) : State :=
  let c := (s.basins.get n).code.get k
  let clk := bclkCount s n
  if (c.ways.get w).all fun r => preempts c w r.use then
    match wayNext s n k w with
    | some (u, l) =>
      let r : WayRead := { use := u, line := l, since := max clk (c.wayFrom.get w), asked := (nextDemand c w).elim clk (·.2.2), time := s.now }
      s.modCode n k fun c =>
        { c with
          ways := vput c.ways w (some r)
          demands := match u with
            | .demand p => dropFirst (fun d => d.1 == p && d.2.1 == l) c.demands
            | _ => c.demands
          aheads := match u with
            | .ahead p => dropFirst (fun d => d == (p, l)) c.aheads
            | _ => c.aheads }
    | none => s
  else s

/-- Every way of a bank starts what it can. -/
def kickBank (n : BasinIx) (k : Fin 4) (s : State) : State := (List.finRange 4).foldl (kickWay n k) s

/-- Every way of a basin's banks starts what it can. -/
def kickBasin (n : BasinIx) (s : State) : State := (List.finRange 4).foldl (fun s k => kickBank n k s) s

/-- The code bank that a barge's next line comes from (R228): of a CODEMAP value written and not yet synchronised, the old
mapping or the new, by the free choice of `effView` (R46). -/
def mapBank (g : BargeIx) (s : State) : Fin 4 :=
  let chosen := (s.barges.get g).syPend.zipIdx.filter fun kv => kv.1.1 == .codemap && Config.freeChoice (s.freeCtr + kv.2)
  match chosen.getLast? with
  | some kv => ⟨(low 2 kv.1.2).toNat % 4, Nat.mod_lt _ (by decide)⟩
  | none => codeBankOf (s.basins.get (basinOf g)) (posOf g)

/-- A demand fetch of barge position p, asked in BCLK c, joins those that wait (R226); one of a higher position that was asked
and has started in the same BCLK waits behind it. -/
def CodeBank.demand (k : CodeBank) (p : Fin 4) (l : BitVec 12) (c : Nat) : CodeBank :=
  let w := wayOf l
  let k1 := { k with demands := k.demands ++ [(p, l, c)] }
  match k1.ways.get w with
  | some r =>
    match r.use with
    | .demand q =>
      if p.val < q.val ∧ r.asked = c ∧ c ≤ r.since then
        { k1 with ways := vput k1.ways w none, demands := k1.demands ++ [(q, r.line, c)] }
      else k1
    | _ => k1
  | none => k1

/-- A barge asks for a line (R88, R226): its own prefetch of the line in progress or waiting becomes the demand, except where
the line must be read afresh (R92). -/
def demandLine (g : BargeIx) (l : BitVec 12) (s : State) : State :=
  let n := basinOf g
  let p := posOf g
  let k := mapBank g s
  let b := s.barges.get g
  if b.wantLine = some l then s
  else
    let c := (s.basins.get n).code.get k
    let w := wayOf l
    let mine := (c.ways.get w).any fun r => r.use == .ahead p && r.line == l
    let s1 := s.modBarge g fun b => { b with wantLine := some l }
    if mine ∧ !b.mustRead then
      s1.modCode n k fun c => { c with ways := vmod c.ways w fun r => r.map fun x => { x with use := .demand p } }
    else
      kickBank n k (s1.modCode n k fun c =>
        { c with aheads := c.aheads.filter (· != (p, l)) }.demand p l (bclkCount s n))

/-- A line holds an instruction with NPF = 1 (R89). -/
def lineHasNpf (d : LineBits) : Bool :=
  (List.range 4).any fun i => let x := lineInsn d i; bitsN x 0 2 != 3 && bit x 4

/-- The line as the barge holds it (R88): in the line buffer, or as the first line that the last branch found stored in its BTB
entry when prediction is not barred. -/
def Barge.heldLine (b : Barge) (l : BitVec 12) : Option HeldLine :=
  match b.lineBuf.reverse.find? fun h => h.line == l with
  | some h => some h
  | none => if pswP b.psw then none else b.btbLine.filter fun h => h.line == l

/-- The lines that a prefetch from line l reads (R89): the next three, up to line 4,095 and up to one with NPF = 1. -/
def aheadLines (c : CodeBank) (l : BitVec 12) : Nat → List (BitVec 12)
  | 0 => []
  | m + 1 =>
    if lineHasNpf (lineData c l) ∨ l = 4095 then []
    else (l + 1) :: aheadLines c (l + 1) m

/-- A line is being read or is waiting to be read for a barge position. -/
def CodeBank.reading (c : CodeBank) (p : Fin 4) (l : BitVec 12) : Bool :=
  c.ways.toList.any (fun r => r.any fun y => (y.use == .ahead p || y.use == .demand p) && y.line == l) ||
    c.aheads.contains (p, l) || c.demands.any fun d => d.1 == p && d.2.1 == l

/-- Reads of lines that are neither held nor already being read start ahead of their use (R89, R95). -/
def readAhead (g : BargeIx) (want : CodeBank → List (BitVec 12)) (s : State) : State :=
  let n := basinOf g
  let p := posOf g
  let k := mapBank g s
  let b := s.barges.get g
  let c := (s.basins.get n).code.get k
  let new := (want c).filter fun x => (b.heldLine x).isNone && !c.reading p x
  kickBank n k (s.modCode n k fun c => { c with aheads := c.aheads ++ new.map fun x => (p, x) })

/-- Prefetch at the first instruction of a line (R89). -/
def prefetch (g : BargeIx) (l : BitVec 12) (s : State) : State := readAhead g (fun c => aheadLines c l 3) s

/-- A line enters the line buffer and replaces the oldest (R88, R95). -/
def Barge.enterLine (b : Barge) (h : HeldLine) : Barge :=
  match b.lineBuf with
  | x :: rest =>
    if rest.length = 3 then { b with lineBuf := rest ++ [h], wrongPath := if x.used then b.wrongPath else b.wrongPath + 1 }
    else { b with lineBuf := b.lineBuf ++ [h] }
  | [] => { b with lineBuf := [h] }

/-- The code-line reads that a barge has in progress or waiting end. -/
def cancelReads (g : BargeIx) (s : State) : State :=
  let n := basinOf g
  let p := posOf g
  let s1 := s.modBasin n fun x => { x with code := x.code.map fun c =>
    { c with
      ways := c.ways.map fun r => r.filter fun y => !(y.use == .demand p || y.use == .ahead p)
      demands := c.demands.filter fun d => d.1 != p
      aheads := c.aheads.filter fun d => d.1 != p } }
  kickBasin n s1

/-- The flush of a barge (R94): line buffer and BTB empty; lines none of whose instructions issued count as wrong-path (R95). -/
def flush (g : BargeIx) (s : State) : State :=
  cancelReads g (s.modBarge g fun b =>
    { b with
      wrongPath := b.wrongPath + BitVec.ofNat 36 (b.lineBuf.filter fun h => !h.used).length
      lineBuf := [], btb := [], btbLine := none, wantLine := none, mustRead := false, lastLine := none })

/-- A line read is delivered to the barge that asked (R88, R93, R414). A line read ahead of its use that cannot be executed is
dropped, and counts as a wrong-path line (R95). -/
def deliverLine (g : BargeIx) (demand : Bool) (h : HeldLine) (s : State) : State :=
  let s1 := s.modBarge g fun b =>
    if h.bad ∧ !demand then { b with wrongPath := b.wrongPath + 1 }
    else
      let b1 := b.enterLine h
      { b1 with
        btb := b1.btb.map fun e =>
          if e.line.isNone ∧ bitsN e.tgt 2 12 = h.line.toNat then { e with line := some h } else e
        wantLine := if demand then none else b1.wantLine
        mustRead := if demand then false else b1.mustRead }
  bpHits g 1 (fun a => bitsN a 2 12 == h.line.toNat) s1

/-! ### Reset of a barge (R126, R343) -/

/-- An initiator's transactions of some IDs end (R247): those not granted are dropped; those that their target has granted
complete, and their responses are discarded. Each frees its place as it ends. -/
def State.dropTx (init : Fin 16) (ids : BitVec 5 → Bool) (s : State) : State :=
  let w := s.wharf
  let mineQ (r : WharfReq) : Bool := r.init == init && ids r.tx.id
  let mineR (r : WharfResp) : Bool := r.init == init && ids r.id
  let gone := (w.reqs.filter mineQ).length + (w.resps.filter mineR).length
  let mark (r : WharfReq) : WharfReq := if mineQ r then { r with drop := true } else r
  { s with
    basins := s.basins.map fun x => { x with tport := x.tport.map mark, hoAcks := x.hoAcks.map fun a => (a.1, mark a.2) }
    wharf := { w with
      reqs := w.reqs.filter fun r => !mineQ r
      resps := w.resps.filter fun r => !mineR r
      pcio := w.pcio.map fun r => { r with req := mark r.req }
      serving := w.serving.map mark
      cur := vmod w.cur init fun c => c - gone } }

/-- The transactions of a barge at its tender and in the Wharf end (R247, R343). -/
def dropXlu (g : BargeIx) (s : State) : State :=
  (s.modBasin (basinOf g) fun x => { x with tender := x.tender.filter fun t => t.1 != posOf g }).dropTx
    ⟨(basinOf g).val, by omega⟩ fun i => i.toNat == (posOf g).val

/-- A barge as its reset leaves it: what the reset restores at its reset value, the rest kept (R77, R84, R86, R102, R110,
R166, R421; R8 for what is kept). Counter 0 counts from the assertion of the reset (log entry 99). -/
def Barge.restored (b : Barge) (g : BargeIx) (info : Word) (bclk : Nat) (sfree : BitVec 61) : Barge :=
  { vital := b.vital, ordinary := b.ordinary, flags := b.flags
    u := { b.u with xlur := 0, rptr := 0, iour := 0, cntLatch := 0, rc := 0, rs := 0, rd := 0, rmode := 0 }
    storeSeq := b.storeSeq, lastSample := b.lastSample
    vctl := { cwBank := BitVec.ofNat 2 g.val, pbar := true }, octl := { cwBank := BitVec.ofNat 2 g.val }
    rstinfo := info, sig := { s := sfree }, bclkBase := bclk
    dbg := { b.dbg with halted := false, cause := 0, haltReq := none, skipBp := false, stepping := false, atResume := [] } }

/-- Barge g is reset (R126, R343): it is held until the Harbourmaster clears its CRP_BHOLD bit. -/
def resetBarge (g : BargeIx) (info : Word) (s : State) : State :=
  let s1 := (cancelReads g (dropXlu g s)).free
  let s2 := s1.modBarge g fun b => b.restored g info (bclkCount s (basinOf g)) (Config.freeSignature s.freeCtr)
  { s2 with crp := { s2.crp with bhold := s2.crp.bhold ||| BitVec.ofNat 48 (2 ^ g.val) } }

end Sys2Proof.Machine
end

