-- ==== Sys2Proof/Machine/Entry.lean ====
section
/-! DEFINITION. Result delivery, SYNC and bank handover, the taking of an interrupt, fault or trap, double faults, the return
from an entry, and gates (R41 to R43, R52, R53, R98 to R126, R213 to R215, R444). -/

namespace Sys2Proof.Machine

/-! ### Results (R41 to R43, R52, R53) -/

/-- A result port set. -/
def Units.put (u : Units) (p : ResultPort) (v : Word) : Units :=
  match p with
  | .alu0 => { u with alu0r := v }
  | .alu1 => { u with alu1r := v }
  | .mul => { u with mulr := v }
  | .lsu => { u with lsur := v }
  | .mac0 => { u with macv := vput u.macv 0 v }
  | .mac1 => { u with macv := vput u.macv 1 v }
  | .mac2 => { u with macv := vput u.macv 2 v }
  | .vmul => { u with vmulr := v }
  | .vchk => { u with vchkr := v }
  | .cnt => { u with cntr := v }

/-- One result delivered: its port, and the flags it updates. -/
def Barge.deliver (b : Barge) (f : Flight) : Barge :=
  { b with
    u := match f.value with
      | some v => b.u.put f.port v
      | none => b.u
    flags :=
      let x := match f.flags with
        | some (z, n, c, v) => { b.flags with z := z, n := n, c := c, v := v }
        | none => b.flags
      match f.g with
      | some g => { x with g := g }
      | none => x }

/-- A disagreement of the two datapaths of VMUL or VCHK counts as a residue failure (R150, R152); an operation that
has failed by itself keeps its own cause (log entry 104). -/
def Flight.disagreed (f : Flight) : Flight :=
  if f.port = .vmul ∨ f.port = .vchk then { f with fault := f.fault.orElse fun _ => some 0x0E } else f

/-- The results due at the present boundary are delivered in trigger order; the earliest faulting one is answered, and every
faulting one is dropped (R42, R52, R53). Of two results due together on one port, of which one carries a delivery fault, the other
still stands on the port (log entry 72). -/
def Barge.deliverDue (b : Barge) (split : Bool) : Option Flight × Barge :=
  let due := (b.flights.filter fun f => f.due ≤ b.count).map fun f => if split then f.disagreed else f
  let b1 := (due.filter fun f => f.fault.isNone).foldl Barge.deliver b
  (due.find? fun f => f.fault.isSome, { b1 with flights := b.flights.filter fun f => b.count < f.due })

/-- Every result in flight is delivered at once, the faulting ones kept (R444). -/
def Barge.deliverAll (b : Barge) : Barge :=
  let b1 := (b.flights.filter fun f => f.fault.isNone).foldl Barge.deliver b
  { b1 with flights := b.flights.filter fun f => f.fault.isSome }

/-- The boundary is takeable (R112). -/
def takeable (b : Barge) : Bool :=
  let later := b.flights.filter fun f => b.count < f.due
  later.all (fun f => f.port == .lsu || f.port == .mul || f.port == .alu0 || f.port == .alu1 || f.port == .cnt) &&
    (later.filter fun f => f.port == .lsu).length ≤ 1 && (later.filter fun f => f.port == .mul).length ≤ 1

/-! ### Bank handover (R213 to R215) -/

/-- A BANK_OWN write by a barge is refused (R213). -/
def bankOwnRefused (own : BitVec 7) (p : Fin 4) (world sup : Bool) (v : Word) : Bool :=
  !sup || ownWorld own != world || (!world && bit v 3) || (ownOwner own < 4 && ownOwner own != p.val) || bitsN v 5 2 == 3

/-- The buffered stores of a basin that touch a bank, by barge position and place in program order. -/
def bankStores (s : State) (n : BasinIx) (b : BankIx) : List (Fin 4 × Nat) :=
  (List.finRange 4).flatMap fun p =>
    ((s.barges.get (bargeOf n p)).stores.filter fun e => bankOf e.addr == b).map fun e => (p, e.seq)

/-- Step 2 of a handover (R214): the new value governs from here, and what was checked against the old one is noted. -/
def beginHandover (n : BasinIx) (b : BankIx) (value : BitVec 7) (writer : Option (Fin 4)) (s : State) : State :=
  let st := bankStores s n b
  let tp := (((s.basins.get n).tport.filter fun r => !r.refuse && reqTouches r b).map fun r => r.seq)
  s.modBank n b fun x =>
    { x with
      own := value
      ho := if st.isEmpty ∧ tp.isEmpty then none else some { old := x.own, writer := writer, stores := st, tport := tp } }

/-- The handovers that wait for a bank begin in turn while none is under way; a barge's is checked again, and one that fails
is dropped with the I/O access fault (R215). -/
def runWaiting (n : BasinIx) (b : BankIx) : List WaitingHo → State → State
  | [], s => s.modBank n b fun x => { x with hoWait := [] }
  | w :: rest, s =>
    let bank := (s.basins.get n).banks.get b
    if bank.ho.isSome then s.modBank n b fun x => { x with hoWait := w :: rest }
    else
      match w.writer with
      | none => runWaiting n b rest (beginHandover n b w.value none s)
      | some p =>
        if bankOwnRefused bank.own p w.world true (w.value.setWidth 36) then
          runWaiting n b rest (s.modBarge (bargeOf n p) fun x => { x with hoFault := some (at36 0 (0x400 + b.val)) })
        else runWaiting n b rest (beginHandover n b w.value (some p) s)

/-- A handover takes its place among those of its BCLK: the Harbourmaster's first, then the barges' by ascending position
(R215). -/
def insertHo (w : WaitingHo) : List WaitingHo → List WaitingHo
  | [] => [w]
  | x :: r =>
    let rank (y : WaitingHo) : Nat := y.writer.elim 0 (·.val + 1)
    if rank w < rank x then w :: x :: r else x :: insertHo w r

/-- A handover becomes effective (R214, R215). Those of one BCLK run again, from the bank as it stood before them, whenever one
more joins them, so that they take effect in the order of R215 whatever order their commands came in. -/
def handover (n : BasinIx) (b : BankIx) (value : BitVec 7) (writer : Option (Fin 4)) (world : Bool) (s : State) : State :=
  let bank := (s.basins.get n).banks.get b
  let c := bclkCount s n
  let fresh : HoTurn := { bclk := c, own := bank.own, ho := bank.ho, hoWait := bank.hoWait, list := [] }
  let turn := (bank.hoTurn.filter fun t => t.bclk == c).getD fresh
  let list := insertHo { value := value, writer := writer, world := world } turn.list
  let s1 := s.modBank n b fun x => { x with own := turn.own, ho := turn.ho, hoTurn := some { turn with list := list } }
  let s2 := list.foldl (fun s w => w.writer.elim s fun p => s.modBarge (bargeOf n p) fun x =>
    if x.hoFault = some (at36 0 (0x400 + b.val)) then { x with hoFault := none } else x) s1
  runWaiting n b (turn.hoWait ++ list) s2

/-- Every access that was checked against the old value has finished (R214 step 3). -/
def handoverDrained (s : State) (n : BasinIx) (h : Handover) : Bool :=
  (h.stores.all fun e => (s.barges.get (bargeOf n e.1)).stores.all fun x => x.seq != e.2) &&
    (h.tport.all fun q => (s.basins.get n).tport.all fun r => r.seq != q)

/-- The barge's next instruction issues in BCLK c at the earliest (R79, R99, R117, R118). -/
def Barge.from (b : Barge) (c : Nat) : Barge := { b with issueFrom := max b.issueFrom c }

/-- Step 4 of a handover (R214): the new value is in full effect, and a barge that wrote it issues its next instruction 2 BCLK later. -/
def completeHandover (n : BasinIx) (b : BankIx) (s : State) : State :=
  match ((s.basins.get n).banks.get b).ho with
  | some h =>
    if handoverDrained s n h then
      let s1 := s.modBank n b fun x => { x with ho := none, hoTurn := none }
      let s2 := h.writer.elim s1 fun p => s1.modBarge (bargeOf n p) fun x => x.from (bclkCount s n + 2)
      runWaiting n b ((s2.basins.get n).banks.get b).hoWait s2
    else s
  | none => s

/-- The barge waits for a handover of its own (R214 step 4). -/
def ownHandover (s : State) (g : BargeIx) : Bool :=
  (s.basins.get (basinOf g)).banks.toList.any fun x =>
    (x.ho.any fun h => h.writer == some (posOf g)) || x.hoWait.any fun w => w.writer == some (posOf g)

/-! ### SYNC (R98 to R100) -/

/-- A unit context register set (R120). -/
def Units.setWord (u : Units) (k : Nat) (v : Word) : Units :=
  match k with
  | 0x00 => { u with alu0o := v }
  | 0x01 => { u with alu1o := v }
  | 0x02 => { u with mulo := v }
  | 0x03 => { u with lsua := v }
  | 0x04 => { u with lsux := v }
  | 0x05 => { u with lsud := v }
  | 0x06 => { u with xlua := v }
  | 0x07 => { u with xlud := v }
  | 0x08 => { u with macxs := v }
  | 0x09 => { u with macys := v }
  | 0x0A => { u with macxm := v &&& mask36 0 20 }
  | 0x0B => { u with macym := v &&& mask36 0 20 }
  | 0x0C => u.put .mac0 v
  | 0x0D => u.put .mac1 v
  | 0x0E => u.put .mac2 v
  | 0x0F => { u with xlur := v }
  | 0x10 => { u with rptr := v }
  | 0x11 => { u with cntr := v }
  | 0x12 => { u with cntLatch := low 28 v }
  | 0x16 => { u with vmulo := v }
  | 0x17 => { u with vmuls := v }
  | 0x18 => { u with vmulk := v &&& mask36 0 5 }
  | 0x19 => { u with vmulr := v }
  | 0x1A => { u with vchko := v }
  | 0x1B => { u with vchks := v }
  | 0x1C => { u with vchkh := v }
  | 0x1D => { u with vchkr := v }
  | _ => u

/-- A unit context register read (R120). -/
def Units.getWord (u : Units) (k : Nat) : Word :=
  match k with
  | 0x00 => u.alu0o
  | 0x01 => u.alu1o
  | 0x02 => u.mulo
  | 0x03 => u.lsua
  | 0x04 => u.lsux
  | 0x05 => u.lsud
  | 0x06 => u.xlua
  | 0x07 => u.xlud
  | 0x08 => u.macxs
  | 0x09 => u.macys
  | 0x0A => u.macxm &&& mask36 0 20
  | 0x0B => u.macym &&& mask36 0 20
  | 0x0C => u.macv.get 0
  | 0x0D => u.macv.get 1
  | 0x0E => u.macv.get 2
  | 0x0F => u.xlur
  | 0x10 => u.rptr
  | 0x11 => u.cntr
  | 0x12 => u.cntLatch.setWidth 36
  | 0x16 => u.vmulo
  | 0x17 => u.vmuls
  | 0x18 => u.vmulk &&& mask36 0 5
  | 0x19 => u.vmulr
  | 0x1A => u.vchko
  | 0x1B => u.vchks
  | 0x1C => u.vchkh
  | 0x1D => u.vchkr
  | _ => 0

/-- A setting made effective in the barge itself (R98); BANK_OWN and CODEMAP act on the basin. -/
def Barge.setting (b : Barge) (kv : SyKey × Word) : Barge :=
  match kv.1 with
  | .psw => { b with psw := mergeBits pswWritable b.psw kv.2 }
  | .ctxid => { b with ctxid := low 16 kv.2 }
  | .fps w => b.setCtl w { b.ctl w with fps := low 20 kv.2 &&& ~~~31 }
  | .fpu w => b.setCtl w { b.ctl w with fpu := low 20 kv.2 &&& ~~~31 }
  | .vbase w => b.setCtl w { b.ctl w with vbase := fld kv.2 7 7, pbar := bit kv.2 14 }
  | .sigCfg => { b with sig := { b.sig with en := bit kv.2 0, tchk := bit kv.2 1 } }
  | .unit k => { b with u := b.u.setWord k.toNat kv.2 }
  | .bankOwn _ _ => b
  | .codemap => b

/-- A setting made effective in the barge's basin (R214, R228). -/
def basinSetting (g : BargeIx) (s : State) (kv : SyKey × Word) : State :=
  match kv.1 with
  | .bankOwn b w => handover (basinOf g) b (low 7 kv.2) (some (posOf g)) w s
  | .codemap => s.modBasin (basinOf g) fun x => { x with codemap := vput x.codemap (posOf g) (low 2 kv.2) }
  | _ => s

/-- The SYNC of a barge (R98): every completed write's setting becomes effective, with the flush of R94 where it changes W, L,
CTXID or CODEMAP. -/
def applySync (g : BargeIx) (s : State) : State :=
  let b := s.barges.get g
  if b.syPend.isEmpty then s.modBarge g fun x => { x with sync := false }
  else
    let map0 := (s.basins.get (basinOf g)).codemap.get (posOf g)
    let s1 := s.modBarge g fun x => { x.syPend.foldl Barge.setting x with syPend := [], sync := false }
    let s2 := b.syPend.foldl (basinSetting g) s1
    let b2 := s2.barges.get g
    let changed := (b.psw ^^^ b2.psw) &&& 3 != 0 || b.ctxid != b2.ctxid ||
      (s2.basins.get (basinOf g)).codemap.get (posOf g) != map0
    latchSig g (if changed then flush g s2 else s2)

/-- An IOU write of the barge is in progress, so that a SYNC waits (R98, R100). -/
def iouWriting (b : Barge) : Bool := b.iou.any fun o => o.write

/-! ### The frame (R114 to R116) -/

/-- The pending delivery of a port that a frame records (R116): the first to fall due, of two due together the later trigger's. -/
def pendingOf (b : Barge) (p : ResultPort) : Option Flight :=
  (b.flights.filter fun f => f.port == p).foldl (fun acc f =>
    match acc with
    | some x => if f.due ≤ x.due then some f else some x
    | none => some f) none

/-- LREM or MREM, and the value or FADDR recorded (R116). -/
def pendingWords (b : Barge) (f : Option Flight) : Nat × Word :=
  match f with
  | some x => (x.due - b.count, if x.fault.isSome then x.faddr else x.value.getD 0)
  | none => (0, 0)

/-- The accumulators as one number (R115). -/
def accNat (u : Units) : Nat := (u.acc.get 0).toNat + (u.acc.get 1).toNat * 2 ^ 84 + (u.acc.get 2).toNat * 2 ^ 168

/-- A pending delivery is discarded (R116). -/
def frameInexact (b : Barge) : Bool :=
  b.flights.length != ((pendingOf b .lsu).toList ++ (pendingOf b .mul).toList).length

/-- The 24 words of the frame (R115). -/
def frameWords (b : Barge) (pc : BitVec 14) (irun : Nat) (cause : BitVec 8) (faddr : Word) : List Word :=
  let l := pendingOf b .lsu
  let m := pendingOf b .mul
  let pl := pendingWords b l
  let pm := pendingWords b m
  let fault (f : Option Flight) : Bool := f.any fun x => x.fault.isSome
  [put36 0 pc ||| at36 14 b.flags.word.toNat ||| at36 19 irun, b.psw, (b.bank (pswW b.psw)).lnk,
    b.u.rc, b.u.rs, b.u.rd, b.u.rmode, b.u.lsur, pl.2, b.u.mulr, pm.2, b.u.alu0r, b.u.alu1r] ++
  ((List.range 7).map fun k => BitVec.ofNat 36 (accNat b.u / 2 ^ (36 * k))) ++
  [b.u.macxa.setWidth 36, b.u.macya.setWidth 36,
    at36 0 pl.1 ||| at36 2 pm.1 ||| bit36 4 (frameInexact b) ||| bit36 5 (fault l) |||
      bit36 6 (l.any fun x => x.fault == some 0x10) ||| bit36 7 (fault m) ||| put36 16 cause,
    faddr]

/-- The context that a frame holds, restored (R118); the accumulators, pointers, registers and pending results. What is
still in flight of the handler itself stays in flight (log entry 27). -/
def Barge.restore (b : Barge) (ws : List Word) : Barge :=
  let w (k : Nat) : Word := ws.getD k 0
  let acc := (List.range 7).foldl (fun a k => a + (w (13 + k)).toNat * 2 ^ (36 * k)) 0
  let rem (lo : Nat) : Nat := bitsN (w 22) lo 2
  let lsu : List Flight :=
    if rem 0 = 0 then []
    else if bit (w 22) 5 then
      [{ port := .lsu, due := b.count + rem 0, value := none, fault := some (if bit (w 22) 6 then 0x10 else 0x06), faddr := w 8 }]
    else [{ port := .lsu, due := b.count + rem 0, value := some (w 8) }]
  let mul : List Flight :=
    if rem 2 = 0 then []
    else if bit (w 22) 7 then [{ port := .mul, due := b.count + rem 2, value := none, fault := some 0x0D, faddr := w 10 }]
    else [{ port := .mul, due := b.count + rem 2, value := some (w 10) }]
  let world := pswW (w 1)
  let b1 := b.setBank world { b.bank world with lnk := w 2 }
  { b1 with
    pc := fld (w 0) 0 14
    flags := Flags.ofWord (fld (w 0) 14 5)
    irun := bitsN (w 0) 19 8
    psw := w 1 &&& pswMask
    flights := lsu ++ mul ++ b.flights
    u := { b.u with
      rc := w 3, rs := w 4, rd := w 5, rmode := w 6 &&& rmodeMask, lsur := w 7, mulr := w 9, alu0r := w 11, alu1r := w 12
      acc := #v[BitVec.ofNat 84 acc, BitVec.ofNat 84 (acc / 2 ^ 84), BitVec.ofNat 84 (acc / 2 ^ 168)]
      macxa := low 20 (w 20), macya := low 20 (w 21) } }

/-- The words of a 96-nonet area of quay memory. -/
def frameAt (a : Nat) : List Nat := (List.range 24).map fun k => a / 4 + k

/-- Row i of a frame area: its words, by index (R114 step 4). -/
def frameRow (a i : Nat) : List Nat := wordsOf (a + 32 * i) 32

/-- A barge's hold begins, and its end (R44, R86): the BCLK that it has lasted count as stalled. -/
def Barge.stall (b : Barge) (clk : Nat) : Barge := { b with holdSince := b.holdSince.orElse fun _ => some clk }
def Barge.unstall (b : Barge) (clk : Nat) : Barge :=
  { b with stalled := b.stalled + (b.holdSince.map fun h => clk - h).getD 0, holdSince := none }

/-! ### Entry (R114, R117, R122 to R126) -/

/-- What an entry is for: its cause and FADDR, the handler's world, the vector's offset from 128·BASE, the PRI of an interrupt,
and the PC and remaining idle count to resume at. -/
structure EntryFor where
  cause : BitVec 8
  faddr : Word
  handler : Bool
  vector : Nat
  pri : Option (BitVec 3) := none
  pc : BitVec 14
  irun : Nat := 0

/-- The PSW at a handler's start (R114 step 6, R124). -/
def handlerPsw (b : Barge) (handler : Bool) (pri : Option (BitVec 3)) (dfa : Bool) : Word :=
  let p := b.psw &&& ~~~(mask36 0 5 ||| mask36 9 4)
  let p := p ||| bit36 0 handler ||| bit36 1 true ||| bit36 4 (b.ctl handler).pbar
  let p := if dfa then pswPut 13 true p else p
  match pri with
  | some x => mergeBits (mask36 5 4) p (bit36 5 true ||| put36 6 x)
  | none => p

/-- The instruction address of a vector (R114 step 7). -/
def vectorAt (b : Barge) (handler : Bool) (k : Nat) : BitVec 14 := BitVec.ofNat 14 (128 * (b.ctl handler).vbase.toNat + k)

/-- A fault of vital code is reported to the Keeper (R123); traps and interrupts are not. -/
def reportFault (g : BargeIx) (vital : Bool) (cause : BitVec 8) (pc : BitVec 14) (s : State) : State :=
  if vital ∧ cause ≠ 0x0C ∧ cause.toNat < 0x40 then s.linkSend g (.fault cause pc (s.barges.get g).sig.task) else s

/-- BC_RSTINFO of a reset by fault escalation (R102, R126). -/
def escalationInfo (code : BitVec 8) (pc : BitVec 14) (world : Bool) (orig : BitVec 8) : Word :=
  put36 0 code ||| at36 8 2 ||| put36 10 pc ||| bit36 24 world ||| put36 25 orig

/-- The barge resets itself (R126). -/
def escalate (g : BargeIx) (code : BitVec 8) (pc : BitVec 14) (world : Bool) (orig : BitVec 8) (s : State) : State :=
  let info := escalationInfo code pc world orig
  resetBarge g info ((s.linkSend g (.reset info)).notify (.bargeReset g info))

/-- The context of an entry is captured: nothing of it stays in progress. -/
def Barge.captured (b : Barge) : Barge :=
  { b with flights := [], rpt := none, wait := none, gate := none, irun := 0, sync := false, trapDue := none, rfeDue := none
           done := [], wide := none, arb := false, arbAt := [], dbg := { b.dbg with skipBp := false } }

/-- The RPT instruction's address that goes with the frame at address a (R80, R81). -/
def noteRpt (a : Nat) (pc : Option (BitVec 14)) (l : List (Nat × BitVec 14)) : List (Nat × BitVec 14) :=
  (pc.toList.map fun p => (a, p)) ++ l.filter fun e => e.1 != a

/-- The PC, the world and the cause of the entry that failed first (R126). -/
def firstFailed (b : Barge) (e : EntryRec) (dfa : Bool) : BitVec 14 × Bool × BitVec 8 :=
  if dfa then b.dbl.getD (e.pc, e.ctxWorld, e.cause) else (e.pc, e.ctxWorld, e.cause)

/-- A double fault (R124, R126): the frame goes to the emergency slot of the handler's world, from BCLK `next` on. A vector-fetch
double fault of an interrupt's entry keeps the IE and IPL that the failed entry has set (log entry 76). -/
def doubleFault (g : BargeIx) (e : EntryRec) (dfa : Bool) (code : BitVec 8) (addr : Word) (next : Nat) (s : State) : State :=
  let first := firstFailed (s.barges.get g) e dfa
  if dfa ∨ e.double then escalate g code first.1 first.2.1 first.2.2 s
  else
    flush g (s.modBarge g fun b =>
      let b1 := (b.setFp e.ctxWorld e.ctxSup e.oldFp).captured
      let b2 := b1.setCtl e.handler { b1.ctl e.handler with cause := code, faddr := addr }
      { b2 with
        psw := handlerPsw b2 e.handler none true, pc := vectorAt b2 e.handler 65
        entry := some { e with double := true }, dbl := some first
        frameRun := some { addr := slotBase (posOf g) e.handler, next := next } })

/-- An interrupt, fault or trap entry (R114), after the results due at the boundary have been delivered: all but the frame's
accesses, which follow in BCLK of their own (R117). A fault is reported when it arose in the vital world, which is its handler's
(R104, R123); a double fault of an interrupt's entry, when the interrupted context is vital. -/
def enter (g : BargeIx) (x : EntryFor) (s : State) : State :=
  let s0 := departSeal g (applySync g s)
  let clk := bclkCount s (basinOf g)
  let b := s0.barges.get g
  let w := pswW b.psw
  let sup := pswL b.psw
  let rec' : EntryRec :=
    { handler := x.handler, frame := frameWords b x.pc x.irun x.cause x.faddr, ctxWorld := w, ctxSup := sup, oldFp := b.fp w sup
      cause := x.cause, faddr := x.faddr, pc := x.pc, double := false, rptPc := b.rpt.map fun r => r.pc }
  let vital := if x.pri.isSome then w else x.handler
  let a : Int := (b.fp w sup).toNat - 96
  let own (k : Nat) : Bool := bargeAdmitted ((s0.basins.get (basinOf g)).banks.get (bankOf k)).own (posOf g) w true
  let s1 := s0.modBarge g fun b =>
    ((b.setCtl x.handler { b.ctl x.handler with
      cause := x.cause, faddr := x.faddr, causeUl := !sup, causeInexact := frameInexact b }).captured).from (clk + 14)
  let fail (code : BitVec 8) : State :=
    doubleFault g rec' (pswDFA b.psw) code ((b.fp w sup - 96).setWidth 36) (clk + 2) (reportFault g vital code x.pc s1)
  if !decide (0xE0000 ≤ a ∧ a + 96 ≤ 0xFFC00) then fail 0x20
  else if !(own a.toNat && own (a.toNat + 95)) then fail 0x21
  else
    flush g ((reportFault g vital x.cause x.pc s1).modBarge g fun b =>
      let b1 := b.setFp w sup (BitVec.ofInt 20 a)
      { b1 with
        psw := handlerPsw b1 x.handler x.pri false, pc := vectorAt b1 x.handler x.vector, entry := some rec'
        frameRun := some { addr := a.toNat, next := clk + 2 } })

/-- An entry cannot begin yet: an IOU write is in progress (R100, R117), or a split load is not complete (R63). -/
def entryWaits (s : State) (g : BargeIx) : Bool := iouWriting (s.barges.get g) || (s.barges.get g).second.isSome

/-- A failure of a frame access of an entry (R114, R124, R126): of the emergency slot's it resets the barge; else it makes a double
fault, for which the PSW is again that of the frame. -/
def frameFails (g : BargeIx) (e : EntryRec) (code : BitVec 8) (addr : Word) (s : State) : State :=
  let b := s.barges.get g
  let old := e.frame.getD 1 0
  if e.double then
    let first := firstFailed b e true
    escalate g (b.ctl e.handler).cause first.1 first.2.1 first.2.2 s
  else
    let vital := if 0x40 ≤ e.cause.toNat then e.ctxWorld else e.handler
    doubleFault g e (pswDFA old) code addr (bclkCount s (basinOf g) + 1)
      (reportFault g vital code e.pc (s.modBarge g fun b => { b with psw := old }))

/-- The next frame access of an entry (R114 step 4, R117): the read of the vector line starts with the first one that is due; each asks
for its bank, after a handover of it (R214), under the ownership that is then in effect. The last readback ends the entry, 2 BCLK
before the handler's first instruction. -/
def frameStep (g : BargeIx) (rivals : List Rival) (s : State) : State :=
  let n := basinOf g
  let clk := bclkCount s n
  let b := s.barges.get g
  match b.frameRun, b.entry with
  | some f, some e =>
    if clk < f.next then s
    else
      let line := fld b.pc 2 12
      let s := if (b.heldLine line).isSome then s else demandLine g line s
      let a := f.addr + 32 * (f.made % 3)
      let x := s.basins.get n
      if inHandover x (bankOf a) then s
      else if !inEmergency a ∧ !bargeAdmitted (x.banks.get (bankOf a)).own (posOf g) e.ctxWorld true then
        frameFails g e 0x21 (BitVec.ofNat 36 f.addr) s
      else
        let r := askBank s n (bankOf a) (whoBarge (posOf g)) rivals
        if !r.1 then r.2.modBarge g fun b => b.stall clk
        else
          let next : FrameRun := { f with made := f.made + 1, next := clk + 1 }
          let s1 := r.2.modBarge g fun b => { b.unstall clk with frameRun := some next }
          if f.made < 3 then
            s1.modBasin n fun x => x.writeBy false clk
              ((((e.frame.drop (8 * f.made)).take 8).zipIdx.map fun w => nonetsOf (a + 4 * w.2) w.1.toNat 4).flatten)
          else
            let m := portAMem s1 n
            let ws := frameRow f.addr (f.made % 3)
            let s2 := noteErrorsIn n srcFrame m s1 ws
            match firstUe m ws with
            | some ue => frameFails g e 0x22 (BitVec.ofNat 36 ue) s2
            | none =>
              if f.made < 5 then s2
              else
                traceWord g 1 (s2.modBarge g fun b =>
                  { b.from (clk + 2) with frameRun := none, rptFrames := noteRpt f.addr e.rptPc b.rptFrames })
  | _, _ => s

/-- A fault at a boundary, handled in the world in which it arose (R104, R114); any fault before the first instruction of a double
fault's handler resets the barge (R126). -/
def takeFault (g : BargeIx) (world : Bool) (cause : BitVec 8) (faddr : Word) (pc : BitVec 14) (irun : Nat) (s : State) : State :=
  let b := s.barges.get g
  let entry := enter g { cause := cause, faddr := faddr, handler := world, vector := 64, pc := pc, irun := irun } s
  match b.entry with
  | some e =>
    if e.double then
      let first := firstFailed b e true
      escalate g (b.ctl e.handler).cause first.1 first.2.1 first.2.2 s
    else entry
  | none => entry

/-- A fetch fault on the vector line of an entry (R114 step 7): a double fault, or a reset in a double fault's entry. -/
def vectorFault (g : BargeIx) (e : EntryRec) (s : State) : State :=
  let b := s.barges.get g
  if e.double then
    let first := firstFailed b e true
    escalate g (b.ctl e.handler).cause first.1 first.2.1 first.2.2 s
  else
    doubleFault g e (pswDFA (e.frame.getD 1 0)) 0x23 (b.pc.setWidth 36) (bclkCount s (basinOf g) + 1)
      (reportFault g (pswW b.psw) 0x23 e.pc s)

/-! ### Interrupts (R111, R113, R155, R156) -/

/-- A source is eligible (R111, R113). -/
def eligible (b : Barge) (now : Nat) (i : IntSource) : Bool :=
  i.en && i.pend && i.pri != 0 && i.since + 2 ≤ now &&
    (if i.world == pswW b.psw then pswIE b.psw && (pswIPL b.psw).toNat < i.pri.toNat else i.world)

/-- A source ranks before another (R111): vital-routed first, then the higher PRI; the lower number stands first. -/
def outranks (x y : IntSource) : Bool := (x.world && !y.world) || (x.world == y.world && y.pri.toNat < x.pri.toNat)

/-- The source selected at a boundary (R111). -/
def selectInterrupt (b : Barge) (now : Nat) : Option (Fin 64) :=
  (List.finRange 64).foldl (fun acc n =>
    if eligible b now (b.intc.get n) then
      match acc with
      | some m => if outranks (b.intc.get n) (b.intc.get m) then some n else some m
      | none => some n
    else acc) none

/-- The SIG unit at the entry for source 0 or 1 (R155, R156): the oldest date or the retry's opens the cycle, whatever its state. -/
def Sig.atEntry (x : Sig) (n : Fin 64) : Sig :=
  if n = 0 then
    match x.queue with
    | (d, t) :: rest => { x with s := d.setWidth 61, n := 0, task := t, date := d, isOpen := true, retry := false, queue := rest }
    | [] => x
  else if n = 1 then
    match x.retryHeld with
    | some (d, t) => { x with s := d.setWidth 61, n := 0, task := t, date := d, isOpen := true, retry := true, retryHeld := none }
    | none => x
  else x

/-- The remaining wait that an interrupted CNT wait leaves in CNT.r (R87); a counted wait ends with BCLK `last` − 1. -/
def waitRemaining (s : State) (g : BargeIx) (sample : BitVec 64) : CntWait → Word
  | .time t => let d := t - low 36 sample; if bit d 35 then 0 else d
  | .count last => BitVec.ofNat 36 (last - bclkCount s (basinOf g))

/-- The entry for interrupt source n (R114, R109, R110, R155, R156). -/
def enterInterrupt (g : BargeIx) (n : Fin 64) (s : State) : State :=
  let b := s.barges.get g
  let i := b.intc.get n
  let s1 := s.modBarge g fun b =>
    let b1 := b.setCtl i.world { b.ctl i.world with last := some (BitVec.ofNat 6 n.val) }
    { b1 with intc := vmod b1.intc n fun i => { i with pend := false }, sig := b1.sig.atEntry n }
  let s2 := enter g { cause := BitVec.ofNat 8 (0x40 + n.val), faddr := 0, handler := i.world, vector := n.val,
                      pri := some i.pri, pc := b.pc, irun := b.irun } s1
  latchSig g s2

/-! ### Return from an entry (R118) -/

/-- Where the frame that rfe names lies. -/
def rfeFrame (b : Barge) (g : BargeIx) (t : Word) : Nat :=
  if bit t 2 then slotBase (posOf g) (bit t 1) else (b.fp (bit t 1) (bit t 0)).toNat

/-- The return fault's FADDR, when rfe raises one (R118, R137). An uncorrectable frame word is reported before T = V = 1 in the
frame PSW (log entry 79). -/
def rfeFault (s : State) (g : BargeIx) (t : Word) : Option Word :=
  let b := s.barges.get g
  let x := s.basins.get (basinOf g)
  let a := rfeFrame b g t
  let world := bit t 1
  let own (k : Nat) : Bool := bargeAdmitted (x.banks.get (bankOf k)).own (posOf g) world true
  let m := portAMem s (basinOf g)
  let psw := m.word (a / 4 + 1)
  let at' : Word := BitVec.ofNat 36 a
  if !pswW b.psw ∧ world then some at'
  else if !decide (0xE0000 ≤ a ∧ a + 96 ≤ 0x100000) then some at'
  else if !bit t 2 ∧ !(own a && own (a + 95)) then some at'
  else if bit t 2 ∧ !pswDFA b.psw then some at'
  else if !m.isUe (a / 4 + 1) ∧ (fld psw 0 1 != fld t 1 1 || fld psw 1 1 != fld t 0 1) then some at'
  else match firstUe m (frameAt a) with
    | some ue => some (BitVec.ofNat 36 ue)
    | none => if pswT psw ∧ pswV psw then some at' else none

/-- An RPT operation that a restored RMODE has running continues (R80), from BCLK c on; `pc` is its instruction's address, and the
address before the restored PC where no operation of this barge was interrupted with the frame (log entry 18). -/
def Barge.resumeRpt (b : Barge) (pc : Option (BitVec 14)) (c : Nat) : Barge :=
  if bit b.u.rmode 2 ∧ bitsN b.u.rmode 3 3 ≤ 4 then
    { b with rpt := some { pc := pc.getD (b.pc - 1), world := pswW b.psw, vital := pswW b.psw && pswV b.psw, next := c } }
  else b

/-- The errors that a return fault's reading of its frame meets are recorded (R220). -/
def noteReturnRead (g : BargeIx) (cause : BitVec 8) (faddr : Word) (s : State) : State :=
  if cause = 0x0B ∧ (s.basins.get (basinOf g)).mem.isUe (faddr.toNat / 4) then noteErrors (basinOf g) srcFrame s [faddr.toNat / 4]
  else s

/-- The return fault of an rfe that has issued, at its own address. -/
def returnFails (g : BargeIx) (r : RfeRun) (faddr : Word) (s : State) : State :=
  takeFault g (pswW (s.barges.get g).psw) 0x0B faddr r.pc 0 (s.modBarge g fun b => { b with rfeDue := none })

/-- The implicit SYNC of an rfe (R100, R118), once its instruction's IOU write and split load are complete; the checks are made again
on the settings that it has made effective. -/
def rfeSync (g : BargeIx) (s : State) : State :=
  let b := s.barges.get g
  match b.rfeDue with
  | none => s
  | some r =>
    if r.synced ∨ iouWriting b ∨ b.second.isSome then s
    else
      let s1 := (applySync g s).modBarge g fun b => { b with rfeDue := some { r with synced := true } }
      match rfeFault s1 g r.t with
      | some a => returnFails g r a (noteReturnRead g 0x0B a s1)
      | none => s1

/-- The return that a fault-free rfe makes (R118) with the frame words read from address a: its context is restored, FP advanced
except from a slot, and the first restored instruction issues 14 BCLK after the rfe, or 2 BCLK after the last row read. -/
def rfeReturn (g : BargeIx) (r : RfeRun) (a : Nat) (ws : List Word) (s : State) : State :=
  let n := basinOf g
  let clk := bclkCount s n
  let s1 := s.modBarge g fun b =>
    let b1 := if bit r.t 2 then b else b.setFp (bit r.t 1) (bit r.t 0) (b.fp (bit r.t 1) (bit r.t 0) + 96)
    let b2 := b1.restore ws
    let pc := (b.rptFrames.find? fun e => e.1 == a).map fun e => e.2
    { (b2.resumeRpt pc clk).from (max (r.since + 14) (clk + 2)) with
      dbl := if pswDFA b2.psw then b2.dbl else none, rptFrames := noteRpt a none b.rptFrames, wide := none, done := [], rfeDue := none }
  traceWord g 2 (flush g s1)

/-- The next row read of an rfe's frame (R118, under the arbitration of R117), and with the last one the return. What R118 checks is
checked of the words as they are read, too. -/
def rfeStep (g : BargeIx) (rivals : List Rival) (s : State) : State :=
  let n := basinOf g
  let clk := bclkCount s n
  let b := s.barges.get g
  match b.rfeDue with
  | none => s
  | some r =>
    if !r.synced ∨ clk < r.next then s
    else
      let base := rfeFrame b g r.t
      let i := r.words.length / 8
      let x := s.basins.get n
      let a := base + 32 * i
      if inHandover x (bankOf a) then s
      else if !bit r.t 2 ∧ !bargeAdmitted (x.banks.get (bankOf a)).own (posOf g) (bit r.t 1) true then
        returnFails g r (BitVec.ofNat 36 base) s
      else
        let q := askBank s n (bankOf a) (whoBarge (posOf g)) rivals
        if !q.1 then q.2.modBarge g fun b => b.stall clk
        else
          let m := portAMem q.2 n
          let ws := frameRow base i
          let s1 := noteErrorsIn n srcFrame m (q.2.modBarge g fun b => b.unstall clk) ws
          let words := r.words ++ ws.map m.word
          let psw := words.getD 1 0
          match firstUe m ws with
          | some ue => returnFails g r (BitVec.ofNat 36 ue) s1
          | none =>
            if words.length < 24 then s1.modBarge g fun b => { b with rfeDue := some { r with words := words, next := clk + 1 } }
            else if pswW psw != bit r.t 1 ∨ pswL psw != bit r.t 0 ∨ (pswT psw ∧ pswV psw) then returnFails g r (BitVec.ofNat 36 base) s1
            else rfeReturn g r base words s1

/-! ### Gates (R106 to R108, R444) -/

/-- Every interlocked operation, RPT operation and buffered store of the barge has finished (R107 step 1). -/
def drained (b : Barge) : Bool :=
  b.stores.isEmpty && b.xluCredits == 0 && b.iou.isNone && b.rpt.isNone && b.second.isNone

/-- A faulting result delivered at once is taken when the hold ends (R444). -/
def gateDelivery (g : BargeIx) (h : GateHold) (k : State → State) (s : State) : State :=
  let b := s.barges.get g
  match b.flights.find? fun f => f.fault.isSome with
  | some f => takeFault g (pswW b.psw) (f.fault.getD 0) f.faddr h.next 0 (s.modBarge g fun b => { b with gate := none, flights := [] })
  | none => k s

/-- The address of gate entry t (R106). -/
def gateEntryAddr (b : Barge) (t : Word) : Nat := b.gateBase.toNat + 4 * t.toNat

/-- The gate fault's condition (R107 step 3). -/
def gateRefused (s : State) (g : BargeIx) (t : Word) : Bool :=
  let b := s.barges.get g
  let x := s.basins.get (basinOf g)
  let a := gateEntryAddr b t
  pswW b.psw || b.gateCnt.toNat ≤ t.toNat || 0x100000 < a + 4 || !admits x (posOf g) true true a 4 ||
    (portAMem s (basinOf g)).isUe (a / 4) || !bit ((portAMem s (basinOf g)).word (a / 4)) 15

/-- The gate fault (R107 step 3), raised in the world in which the gate instruction issued. -/
def gateFails (g : BargeIx) (h : GateHold) (s : State) : State :=
  takeFault g h.world 0x0A h.t h.pc 0 (s.modBarge g fun b => { b with gate := none })

/-- The gate's entry is there to be read (R107 steps 2 and 3). -/
def gateReads (s : State) (g : BargeIx) (h : GateHold) : Bool :=
  let b := s.barges.get g
  let a := gateEntryAddr b h.t
  !pswW b.psw && h.t.toNat < b.gateCnt.toNat && a + 4 ≤ 0x100000 && admits (s.basins.get (basinOf g)) (posOf g) true true a 4

/-- The gated entry to the vital world (R107), its entry's bank granted; the target issues 14 BCLK after the hold's end. -/
def passGate (g : BargeIx) (h : GateHold) (s : State) : State :=
  let n := basinOf g
  let a := gateEntryAddr (s.barges.get g) h.t
  let m := portAMem s n
  let s0 := noteErrorsIn n srcLsu m s [a / 4]
  if gateRefused s g h.t then gateFails g h s0
  else
    let e := m.word (a / 4)
    let s1 := s0.modBarge g fun b =>
      let o := b.ordinary.w
      let w := (List.finRange 8).foldl (fun v i => vmodN v i.val fun _ => vgetN o i.val 0) b.vital.w
      let p := pswPut 12 (pswV b.psw) (pswPut 11 (pswT b.psw) (pswPut 10 (pswL b.psw) (pswPut 9 true b.psw)))
      { b.from (bclkCount s n + 14) with
        gate := none
        vital := { w := w, lnk := 0x800000000 ||| put36 0 h.next }
        psw := pswPut 0 true (pswPut 1 (bit e 14) (pswPut 2 false (pswPut 3 false p)))
        pc := fld e 0 14 }
    traceWord g 3 (flush g s1)

/-- The gate return to the ordinary world (R108). Its requirement GA = 1 is met after the hold (log entry 77); of a saved T and V that
are both 1, T is restored as 0 (R137; log entry 78). -/
def passGateReturn (g : BargeIx) (h : GateHold) (s : State) : State :=
  let b := s.barges.get g
  if !pswGA b.psw then gateFails g h s
  else
    let s1 := s.modBarge g fun b =>
      let v := b.vital.w
      let p := b.psw
      { b.from (bclkCount s (basinOf g) + 14) with
        gate := none
        ordinary := { b.ordinary with w := vmodN (vmodN b.ordinary.w 0 fun _ => vgetN v 0 0) 1 fun _ => vgetN v 1 0 }
        psw := pswPut 0 false (pswPut 1 (pswGL p) (pswPut 2 (pswGT p && !pswGV p) (pswPut 3 (pswGV p) (pswPut 9 false p))))
        pc := fld h.t 0 14 }
    traceWord g 3 (flush g s1)

/-- The read of a gate's entry as a vital supervisor access (R107 step 2): after a handover of its bank (R214), once the bank grants
it (R216). -/
def readGate (g : BargeIx) (h : GateHold) (s : State) : State :=
  let n := basinOf g
  let clk := bclkCount s n
  let b := bankOf (gateEntryAddr (s.barges.get g) h.t)
  if !gateReads s g h then gateFails g h s
  else if inHandover (s.basins.get n) b then s
  else
    let r := askBank s n b (whoBarge (posOf g)) []
    if r.1 then passGate g h (r.2.modBarge g fun b => b.unstall clk) else r.2.modBarge g fun b => b.stall clk

end Sys2Proof.Machine
end

