-- ==== Sys2Proof/Machine/Waveform.lean ====
section
/-! DEFINITION. The HRPWM array's waveforms and pads, the phases that its readback samples, and its trip matrix (chapter 11). -/

namespace Sys2Proof.Machine

/-! ### Fields (R296 to R298) -/

def PwmChan.en (c : PwmChan) : Bool := bit c.cfg 0
def PwmChan.mode (c : PwmChan) : Nat := bitsN c.cfg 1 3
def PwmChan.tb (c : PwmChan) : Fin 16 := ⟨bitsN c.cfg 4 4 % 16, Nat.mod_lt _ (by decide)⟩
def PwmChan.vital (c : PwmChan) : Bool := bit c.cfg 8
def PwmChan.group (c : PwmChan) : BitVec 6 := fld c.cfg 9 6
def PwmChan.pair (c : PwmChan) : Bool := bit c.cfg 15
def PwmChan.safelvl (c : PwmChan) : Nat := bitsN c.cfg 16 2
def PwmChan.triplvl (c : PwmChan) : Nat := bitsN c.cfg 18 2
def PwmChan.dsc (c : PwmChan) : Nat := bitsN c.cfg 20 3
def PwmChan.pol (c : PwmChan) : Bool := bit c.cfg 23
def PwmChan.evten (c : PwmChan) : Bool := bit c.cfg 24
def PwmChan.evt (c : PwmChan) : Nat := bitsN c.cfg 25 3
def PwmChan.residue (c : PwmChan) : Nat := bitsN c.ores 0 12
def PwmChan.basin (c : PwmChan) : Nat := bitsN c.ores 12 4
def PwmChan.world (c : PwmChan) : Bool := bit c.ores 16
def PwmChan.ownv (c : PwmChan) : Bool := bit c.ores 17
def PwmChan.dtr (c : PwmChan) : Nat := bitsN c.dt 0 12
def PwmChan.dtf (c : PwmChan) : Nat := bitsN c.dt 12 12
def PwmChan.tzmask (c : PwmChan) : BitVec 32 := fld c.trip 0 32
def PwmChan.tlatch (c : PwmChan) : Bool := bit c.trip 32
def PwmChan.rben (c : PwmChan) : Bool := bit c.rb 0
def PwmChan.rbset (c : PwmChan) : Nat := max 4 (bitsN c.rb 1 6)
def PwmChan.rblim (c : PwmChan) : Nat := max 1 (bitsN c.rb 7 4)

/-- PCLK since device time 0. -/
def pclkNow (s : State) : Nat := s.now / pclkPeriod

/-- The even partner of an odd channel whose pair is formed (R279). -/
def evenOf (n : Fin 192) : Fin 192 := ⟨2 * (n.val / 2), by omega⟩
def oddOf (n : Fin 192) : Fin 192 := ⟨2 * (n.val / 2) + 1, by omega⟩

/-- The channel is the odd partner of a pair (R279). -/
def isPartner (s : State) (n : Fin 192) : Bool := n.val % 2 == 1 && (s.pwm.ch.get (evenOf n)).pair

/-- The channel whose waveform and timebase a channel's pad follows: of a pair, the even one (R279). -/
def leadOf (s : State) (n : Fin 192) : PwmChan := s.pwm.ch.get (if isPartner s n then evenOf n else n)

/-- The channel is vital; an odd partner's own VITAL is ignored (R279). -/
def isVital (s : State) (n : Fin 192) : Bool := (leadOf s n).vital

/-! ### Waveforms (R276 to R279) -/

/-- T_f (R276). -/
def Timebase.fine (t : Timebase) : Nat := 64 * t.per.toNat

/-- SLOT and BLEN as they act (R296). -/
def Timebase.slots (t : Timebase) : Nat := max 1 t.slot.toNat
def Timebase.frame (t : Timebase) : Nat := max 1 t.blen.toNat

/-- x is valid for the channel's mode (R278). -/
def validX (t : Timebase) (c : PwmChan) (x : Int) : Bool :=
  let d := x * 2 ^ c.dsc
  let tf : Int := t.fine
  match c.mode with
  | 1 | 2 | 5 => decide (0 ≤ d ∧ d ≤ tf)
  | 3 => decide (0 ≤ d ∧ d < tf ∧ (c.width.toNat : Int) ≤ tf)
  | 4 => decide (0 ≤ x ∧ x ≤ (t.frame : Int))
  | _ => false

/-- An edge position as placed: with RES = 1 rounded down to a multiple of 4 (R276). -/
def placeEdge (res : Bool) (u : Nat) : Nat := if res then u / 4 * 4 else u

/-- The ON intervals of a period for the applied value (R278), with what an earlier period left over. -/
def onIntervals (t : Timebase) (c : PwmChan) : List (Nat × Nat) :=
  let tf := t.fine
  let pl := placeEdge t.res
  let spill := if c.spill = 0 then [] else [(0, pl c.spill)]
  match c.appl with
  | none => spill
  | some v =>
    let x := v.toInt
    let d := (x * 2 ^ c.dsc).toNat
    spill ++ match c.mode with
    | 1 => [(0, pl d)]
    | 2 => [(pl ((tf - d) / 2), pl ((tf - d) / 2 + d))]
    | 3 => [(pl d, pl (min tf (d + c.width.toNat)))]
    | 4 => if (t.bpos.toNat : Int) < x then [(0, tf)] else []
    | 5 => if bit c.pat t.patpos.toNat then [(0, pl d)] else []
    | _ => []

/-- What a phase-shift interval leaves for the next period (R278). -/
def spillOf (t : Timebase) (c : PwmChan) : Nat :=
  match c.appl with
  | some v => if c.mode = 3 then (v.toInt * 2 ^ c.dsc).toNat + c.width.toNat - t.fine else 0
  | none => 0

/-- The waveform before POL at fine unit u of the period. -/
def waveAt (iv : List (Nat × Nat)) (u : Nat) : Bool := iv.any fun i => i.1 ≤ u && u < i.2

/-- The last rising and falling edges at or before fine unit u of a period that began at `base`, or the earlier ones. -/
def lastEdges (iv : List (Nat × Nat)) (c : PwmChan) (base u : Nat) : Nat × Nat :=
  let before (x : Nat) : Bool := if x = 0 then c.prevHigh else waveAt iv (x - 1)
  let points := (0 :: (iv.flatMap fun i => [i.1, i.2])).filter (· ≤ u)
  points.foldl (fun e x =>
    if waveAt iv x && !before x then (max e.1 (base + x), e.2)
    else if !waveAt iv x && before x then (e.1, max e.2 (base + x))
    else e) (c.lastRise, c.lastFall)

/-- A SAFELVL or TRIPLVL code (R291). -/
def levelDrive : Nat → Drive
  | 1 => .high
  | 2 => .z
  | _ => .low

/-- A logic level as driven. -/
def boolDrive (b : Bool) : Drive := if b then .high else .low

/-- The ball of channel 160 + i is owned by the field output, or claimed by nobody (R291, R292). -/
def pwmBallOk (s : State) (n : Fin 192) : Bool :=
  if h : 160 ≤ n.val then
    match s.fw.ballOwner.get ⟨n.val - 160, by omega⟩ with
    | some (_, _, fo) => !fo
    | none => false
  else true

/-- The level that a channel's waveform gives its pad at fine unit u of the period, after dead time and POL (R277, R279); with
RES = 1 a delayed edge lies on the reduced grid too (R276). -/
def pwmLevel (s : State) (n : Fin 192) (u : Nat) : Bool :=
  let c := leadOf s n
  let t := s.pwm.tb.get c.tb
  let base := 64 * t.lastB.getD 0
  let iv := onIntervals t c
  let w := waveAt iv u
  let e := lastEdges iv c base u
  let v :=
    if isPartner s n then !w && decide (e.2 + placeEdge t.res c.dtf ≤ base + u)
    else if c.pair && n.val % 2 == 0 then w && decide (e.1 + placeEdge t.res c.dtr ≤ base + u)
    else w
  v != (s.pwm.ch.get n).pol

/-- The fine unit of the present period of a channel's timebase. -/
def fineNow (s : State) (n : Fin 192) : Nat := s.now * 64 / pclkPeriod - 64 * ((s.pwm.tb.get (leadOf s n).tb).lastB.getD 0)

/-- What drives a channel's pad in place of its waveform (R291), if anything does. -/
def pwmOverride (s : State) (n : Fin 192) : Option Drive :=
  let own := s.pwm.ch.get n
  let c := leadOf s n
  if !own.en ∨ !pwmBallOk s n then some .z
  else if own.st = 2 ∨ c.st ≠ 1 ∨ (isPartner s n ∧ !own.joined) then some (levelDrive own.safelvl)
  else if own.tripped ∨ c.tripped then some (levelDrive own.triplvl)
  else none

/-- The pad of a channel at the present time (R279, R291). -/
def pwmDrive (s : State) (n : Fin 192) : Drive := (pwmOverride s n).getD (boolDrive (pwmLevel s n (fineNow s n)))

/-! ### Phases (R288) -/

/-- The fine units of a period at which a channel's waveform may change its pad. -/
def pwmEdges (s : State) (n : Fin 192) : List Nat :=
  let c := leadOf s n
  let t := s.pwm.tb.get c.tb
  let base := 64 * t.lastB.getD 0
  let ends := 0 :: (c.lastRise - base) :: (c.lastFall - base) :: (onIntervals t c).flatMap fun i => [i.1, i.2]
  let after (d : Nat) : List Nat := (c.lastRise + d - base) :: (c.lastFall + d - base) :: ends.map (· + d)
  ends ++ (if c.pair then after (placeEdge t.res c.dtr) ++ after (placeEdge t.res c.dtf) else [])

/-- The phase of a channel's pad at fine unit u of the period: its level, and the fine unit since time 0 at which it began. -/
def pwmPhase (s : State) (n : Fin 192) (u : Nat) : Drive × Nat :=
  let own := s.pwm.ch.get n
  let start : Drive × Nat := (own.phaseLvl, own.phaseAt)
  match pwmOverride s n with
  | some d => if d = own.phaseLvl then start else (d, s.now * 64 / pclkPeriod)
  | none =>
    let base := 64 * (s.pwm.tb.get (leadOf s n).tb).lastB.getD 0
    let before (p : Nat) : Drive := if p = 0 ∨ base + p ≤ own.phaseAt then own.phaseLvl else boolDrive (pwmLevel s n (p - 1))
    let changes := (pwmEdges s n).filter fun p =>
      p ≤ u && own.phaseAt ≤ base + p && before p != boolDrive (pwmLevel s n p)
    match changes.max? with
    | some p => (boolDrive (pwmLevel s n u), base + p)
    | none => (boolDrive (pwmLevel s n u), own.phaseAt)

/-- The present phase of a channel's pad. -/
def phaseNow (s : State) (n : Fin 192) : Drive × Nat := pwmPhase s n (fineNow s n)

/-- A channel's pad is taken over in a phase: it goes on where the level stays the same. -/
def pwmRecord (n : Fin 192) (p : Drive × Nat) (s : State) : State :=
  let d := pwmDrive s n
  s.modPwm n fun c => { c with phaseLvl := d, phaseAt := if d = p.1 then p.2 else s.now * 64 / pclkPeriod }

/-- A change to a channel, with the phases of its pad and of its partner's. -/
def pwmWatch (n : Fin 192) (f : State → State) (s : State) : State :=
  pwmRecord (oddOf n) (phaseNow s (oddOf n)) (pwmRecord (evenOf n) (phaseNow s (evenOf n)) (f s))

/-! ### Events (R293) -/

/-- A channel's event (R293). -/
def pwmEvent (n : Fin 192) (s : State) : State :=
  let c := s.pwm.ch.get n
  if !c.evten then s
  else
    let s1 := ({ s with pwm := { s.pwm with evt := s.pwm.evt ||| BitVec.ofNat 8 (2 ^ c.evt) } }).mark .pwmEvt c.evt
    match basinIx c.basin with
    | some b => s1.pendBasin b ⟨36 + c.evt % 8, by omega⟩
    | none => s1

/-! ### Trips (R285, R286) -/

/-- The trip source of a field input (R304): r while it is enabled and live, asserted while retired, deasserted while
disabled. -/
def FieldIn.tripSource (c : FieldIn) : Bool := bit c.cfg 0 && (c.retired || c.raw)

/-- A source code is asserted (R285). -/
def tripSource (s : State) (code : Nat) : Bool :=
  if h : code < 384 then (s.weir.ch.get ⟨code, h⟩).hi
  else if h : 384 ≤ code ∧ code < 768 then (s.weir.ch.get ⟨code - 384, by omega⟩).lo
  else if h : 768 ≤ code ∧ code < 896 then (s.fio.fi.get ⟨code - 768, by omega⟩).tripSource
  else false

/-- The OR of a zone's eight selectors. -/
def zoneOr (s : State) (z : TripZone) : Bool :=
  tripSource s (bitsN z.src0 0 10) || tripSource s (bitsN z.src0 10 10) || tripSource s (bitsN z.src0 20 10) ||
  tripSource s (bitsN z.src1 0 10) || tripSource s (bitsN z.src1 10 10) || tripSource s (bitsN z.src1 20 10) ||
  tripSource s (bitsN z.src2 0 10) || tripSource s (bitsN z.src2 10 10)

/-- A zone of the channel's mask is active (R286). -/
def maskActive (s : State) (c : PwmChan) : Bool := (List.finRange 32).any fun z => bit c.tzmask z.val && (s.pwm.tz.get z).act

/-- A channel, enabled or not, is tripped where a masked zone is active; becoming tripped counts and makes the event (R286, R293). -/
def pwmTripOne (n : Fin 192) (s : State) : State :=
  let c := s.pwm.ch.get n
  if !c.tripped && maskActive s c then
    pwmEvent n (pwmWatch n (fun s => s.modPwm n fun c => { c with tripped := true, trclr := false, tripcnt := c.tripcnt + 1 }) s)
  else s

/-- A zone's filter and activity at the present PCLK (R285): it becomes active once its OR has held 1 for f + 1 whole PCLK. -/
def zoneStep (now : Nat) (orv : Bool) (z : TripZone) : TripZone :=
  if orv then
    let since := z.orSince.getD now
    let act := z.act || decide (since + bitsN z.src2 20 3 < now)
    { z with orSince := some since, act := act, count := if act && !z.act then z.count + 1 else z.count }
  else { z with orSince := none, act := false }

/-- A zone's sources are taken as they stand; where it becomes active, its channels trip (R285, R286). -/
def tripZoneEval (z : Fin 32) (s : State) : State :=
  let old := s.pwm.tz.get z
  let new := zoneStep (pclkNow s) (zoneOr s old) old
  let s1 := s.modTz z fun _ => new
  if new.act && !old.act then (ixs 192 fun n => bit (s1.pwm.ch.get n).tzmask z.val).foldl (fun s n => pwmTripOne n s) s1
  else s1

/-- Every zone follows its sources. -/
def followZones (s : State) : State := (List.finRange 32).foldl (fun s z => tripZoneEval z s) s

/-- A change that may move a trip source: the zones are taken as they have stood up to it, and then as it leaves them (R285). -/
def watchTrips (f : State → State) (s : State) : State := followZones (f (followZones s))

/-- A TRIPCLR write (R286): nothing while a masked zone is active. -/
def pwmTripClear (n : Fin 192) (s : State) : State :=
  if maskActive s (s.pwm.ch.get n) then s else s.modPwm n fun c => { c with trclr := true }

end Sys2Proof.Machine
end

