-- ==== Sys2Proof/Machine/Weir.lean ====
section
/-! DEFINITION. The Weir: filters, comparators, demodulators, records, delivery areas, stream health and registers
(chapter 10). -/

namespace Sys2Proof.Machine

/-! ### Fields of the channel registers (R271, R272) -/

def WeirChan.en (c : WeirChan) : Bool := bit c.cfg 0
def WeirChan.order (c : WeirChan) : Nat := bitsN c.cfg 1 2 + 1
def WeirChan.osr (c : WeirChan) : Nat := bitsN c.cfg 3 11
def WeirChan.sh (c : WeirChan) : Nat := bitsN c.cfg 14 5
def WeirChan.coded (c : WeirChan) : Bool := bit c.cfg 19
def WeirChan.inv (c : WeirChan) : Bool := bit c.cfg 20
def WeirChan.stk (c : WeirChan) : Nat := bitsN c.cfg 21 7
def WeirChan.evten (c : WeirChan) : Bool := bit c.cfg 28
def WeirChan.bv (c : WeirChan) : Nat := bitsN c.chres 0 12
def WeirChan.bq (c : WeirChan) : Nat := bitsN c.chres 12 12
def WeirChan.ownv (c : WeirChan) : Bool := bit c.chres 24
def WeirChan.oworld (c : WeirChan) : Bool := bit c.chres 25
def WeirChan.basin (c : WeirChan) : Nat := bitsN c.dst 0 4
def WeirChan.bank (c : WeirChan) : Bool := bit c.dst 4
def WeirChan.row (c : WeirChan) : Nat := bitsN c.dst 5 11
def WeirChan.depth (c : WeirChan) : Nat := bitsN c.dst 16 8
def WeirChan.frz (c : WeirChan) : Bool := bit c.dst 24
def WeirChan.ftask (c : WeirChan) : BitVec 8 := fld c.dst 25 8
def WeirChan.evt (c : WeirChan) : Nat := bitsN c.dst 33 3
def WeirChan.fen (c : WeirChan) : Bool := bit c.fcfg 0
def WeirChan.forder (c : WeirChan) : Nat := bitsN c.fcfg 1 2 + 1
def WeirChan.fosr (c : WeirChan) : Nat := bitsN c.fcfg 3 7
def WeirChan.fsh (c : WeirChan) : Nat := bitsN c.fcfg 10 3
def WeirChan.retact (c : WeirChan) : Nat := bitsN c.fcfg 13 2
def WeirChan.hyst (c : WeirChan) : BitVec 12 := fld c.fcfg 15 12
def WeirChan.dmen (c : WeirChan) : Bool := bit c.dmcfg 0
def WeirChan.dorder (c : WeirChan) : Nat := bitsN c.dmcfg 1 2 + 1
def WeirChan.dec (c : WeirChan) : Nat := bitsN c.dmcfg 3 13
def WeirChan.dsh (c : WeirChan) : Nat := bitsN c.dmcfg 16 6
def WeirChan.ph0 (c : WeirChan) : Nat := bitsN c.dmcfg 22 12

/-- The clock group of a channel (R249). -/
def weirGroupOf (n : Fin 384) : Fin 48 := ⟨n.val / 8, by omega⟩

/-- The level that group g drives on SDCK_g (R249): none, high impedance, until the group is first enabled and in factory mode (R427,
R432), and low while it is not enabled. -/
def weirClock (s : State) (g : Fin 48) : Option Bool :=
  let x := s.weir.grp.get g
  if !x.taken ∨ s.crp.factory then none
  else some (x.en && decide ((s.now - x.since) / fclkPeriod % x.div.toNat < x.div.toNat / 2))

/-- The present FCLK. -/
def sameFclk (s : State) (time : Nat) : Bool := sameCycle fclkPeriod s time

/-- The channel is enabled and its group's clock runs (R272 RUN). -/
def weirRunning (s : State) (n : Fin 384) : Bool := (s.weir.ch.get n).en && (s.weir.grp.get (weirGroupOf n)).en

/-! ### Filters (R251, R254, R256) -/

/-- The sums of R consecutive values, newest first: one stage of the sinc filter. -/
def boxSums (r : Nat) (xs : List Int) : List Int :=
  (List.range (xs.length + 1 - r)).map fun m => ((xs.drop m).take r).sum

/-- k stages: the newest output of the filter (1 + z⁻¹ + … + z^−(R−1))^k over values newest first (R251). -/
def sincSum (k r : Nat) (xs : List Int) : Int := ((boxSums r)^[k] xs).headD 0

/-- The values within reach of a filter of order k and ratio R. -/
def sincReach (k r : Nat) : Nat := k * (r - 1) + 1

/-- A bit's value (R250). -/
def bitValue (inv b : Bool) : Int := if b != inv then 1 else -1

/-- Rounding half away from zero and the clamp to 24 bits, with SAT (R251). -/
def scaleClamp (x : Int) (sh : Nat) : Int × Bool :=
  let y := roundAway x sh
  if y > 8388607 then (8388607, true) else if y < -8388608 then (-8388608, true) else (y, false)

/-- The filter-fault word (R252). -/
def filterFaultWord : Word := 0x800000001

/-- A value as delivered: coded with a residue, or plain (R252). -/
def deliverWord (coded : Bool) (y : Int) (b : Nat) : Word := if coded then encodeCoded y b else BitVec.ofInt 36 y

/-- cos(2π·r/4096) for r from 0 to 1024 in units of 2^−80: the sum of its power series to 18 terms. -/
def cosFix (r : Nat) : Int :=
  let scale : Int := 1208925819614629174706176
  let x : Int := (r : Int) * 3797952473636338580787993 / 2048
  let x2 := x * x / scale
  ((List.range 18).foldl (fun (acc : Int × Int) k =>
    (acc.1 + acc.2, -((acc.2 * x2 / scale) / ((2 * k + 1) * (2 * k + 2))))) (0, scale)).1

/-- round((2^15 − 1)·cos(2π·r/4096)) for r from 0 to 1024. -/
def cosQuarter (r : Nat) : Int := (cosFix r * 32767 + 604462909807314587353088) / 1208925819614629174706176

/-- c of R256: round((2^15 − 1)·cos(2π·idx/4096)), half away from zero. -/
def ncoCos (idx : Nat) : Int :=
  let r := idx % 1024
  match idx / 1024 % 4 with
  | 0 => cosQuarter r
  | 1 => -cosQuarter (1024 - r)
  | 2 => -cosQuarter r
  | _ => cosQuarter (1024 - r)

/-- q of R256: −round((2^15 − 1)·sin(2π·idx/4096)). -/
def ncoSin (idx : Nat) : Int := -ncoCos (idx + 3072)

/-- The NCO's index at main output j (R256). -/
def ncoIndex (c : WeirChan) (j : Nat) : Nat := (c.ph0 * 1048576 + j * c.dmftw.toNat) % 4294967296 / 1048576

/-! ### Records (R258) -/

/-- STAMP: station time bits [31:0] at the capture edge, 4 FCLK before the sample is ready (R253, R258). -/
def captureStamp (s : State) : BitVec 32 := low 32 (s.crp.stTime - 10)

/-- The stamp-and-flags word without GAP and RET, which are settled at acceptance (R258). -/
def stampWord (stamp : BitVec 32) (sat ff : Bool) : Word := put36 0 stamp ||| bit36 32 sat ||| bit36 34 ff

/-- A record's words on a retired channel: poison and RET (R268). -/
def poisonWords (ws : List Word) : List Word :=
  let ret (f : Word) : Word := (f &&& 0xAFFFFFFFF) ||| bit36 35 true
  match ws with
  | [_, f] => [poisonWord, ret f]
  | [_, _, f, z] => [poisonWord, poisonWord, ret f, z]
  | other => other

/-- A sample as the delivery FIFO takes it: poison and RET on a retired channel (R268), GAP where samples were lost (R258). -/
def acceptWords (c : WeirChan) (ws : List Word) : List Word :=
  let flags (w : Word) : Word := w ||| bit36 33 c.gapNext
  let ws' := match ws with
    | [x, f] => [x, flags f]
    | [i, q, f, z] => [i, q, flags f, z]
    | other => other
  if c.retired then poisonWords ws' else ws'

/-! ### Retirement (R266 to R268) -/

/-- HI and LO of a retired channel (R255). -/
def retactHi (c : WeirChan) : Bool := c.retact == 1 || c.retact == 3
def retactLo (c : WeirChan) : Bool := c.retact == 2 || c.retact == 3

/-- The records of a channel that the delivery FIFOs have accepted in the present FCLK, changed. -/
def mapFresh (n : Fin 384) (f : Record → Record) (s : State) : State :=
  { s with weir := { s.weir with fifo := s.weir.fifo.map fun q => q.map fun r =>
      if r.src = n.val ∧ sameFclk s r.time then f r else r } }

/-- A channel retires with a cause: its fast outputs follow RETACT, what it accepts from this FCLK on is poison, and it reports
(R268, R197). -/
def weirRetire (n : Fin 384) (cause : Nat) (s : State) : State :=
  let c := s.weir.ch.get n
  if c.retired then s
  else
    let s1 := (mapFresh n (fun r => { r with words := poisonWords r.words }) s).modWeir n fun c =>
      { c with retired := true, rcause := BitVec.ofNat 2 cause, hi := retactHi c, lo := retactLo c }
    s1.reportRetired 3 n.val (BitVec.ofNat 8 cause) (c.ownv && c.oworld)

/-- GLIM and GWIN as they act (R271). -/
def weirGlim (s : State) : Nat := if s.weir.glim = 0 then 1 else s.weir.glim.toNat
def weirGwin (s : State) : Nat := max 16 s.weir.gwin.toNat

/-- A sample enters the window of R267, glitched or faulted or not; at GLIM the channel retires. -/
def countSample (n : Fin 384) (bad : Bool) (s : State) : State :=
  let s1 := s.modWeir n fun c => { c with window := (bad :: c.window).take (weirGwin s) }
  if ((s1.weir.ch.get n).window.count true) ≥ weirGlim s then weirRetire n 3 s1 else s1

/-- A channel's filters start again (R253, R269). -/
def weirRestart (c : WeirChan) : WeirChan :=
  { c with
    bits := [], samples := 0, fbits := [], fsamples := 0, ui := [], uq := [], dmMain := 0, dmOut := 0
    dmSat := false, dmGlitch := false, dmFault := false, ready := none
    hi := if c.retired then retactHi c else false
    lo := if c.retired then retactLo c else false }

/-! ### Samples -/

/-- A sample is ready for the delivery FIFO, or is discarded for a glitch (R266). -/
def weirSample (n : Fin 384) (glitched : Bool) (ws : List Word) (ff : Bool) (s : State) : State :=
  let s1 := countSample n (glitched || ff) s
  if glitched && !(s1.weir.ch.get n).retired then
    (s1.modWeir n fun c => { c with gap := true, gapNext := true }).mark (.weirChan n) 5
  else
    let s2 := s1.modWeir n fun c => { c with ready := some ws, ff := c.ff || ff }
    if ff then s2.mark (.weirChan n) 6 else s2

/-- R bits complete a main output (R251 to R253). On a channel with its demodulator enabled it feeds the demodulator (R256). -/
def mainSample (n : Fin 384) (bits : List (Bool × Bool)) (upset : Bool) (s : State) : State :=
  let c := s.weir.ch.get n
  if !weirRunning s n ∨ (bits.length ≠ c.osr ∧ !c.retired) then s
  else
    let vals := (bits.map fun b => bitValue c.inv b.1).reverse ++ c.bits.map fun b => if b then (1 : Int) else -1
    let glitched := bits.any fun b => b.1 != b.2
    let kept := ((bits.map fun b => b.1 != c.inv).reverse ++ c.bits).take (sincReach c.order c.osr)
    let j := c.samples + 1
    let s1 := s.modWeir n fun c => { c with bits := kept, samples := j }
    if j < c.order then s1
    else
      let y := scaleClamp (sincSum c.order c.osr vals) c.sh
      let stamp := captureStamp s
      if c.dmen then
        let idx := ncoIndex c c.dmMain
        let keep := sincReach c.dorder c.dec
        s1.modWeir n fun c =>
          { c with
            ui := (y.1 * ncoCos idx :: c.ui).take keep
            uq := (y.1 * ncoSin idx :: c.uq).take keep
            dmMain := c.dmMain + 1, dmStamp := stamp
            dmSat := c.dmSat || y.2, dmGlitch := c.dmGlitch || glitched, dmFault := c.dmFault || upset }
      else
        let w := if upset then filterFaultWord else deliverWord c.coded y.1 c.bv
        weirSample n glitched [w, stampWord stamp y.2 upset] upset s1

/-- DEC main outputs complete a demodulator output (R256). -/
def demodSample (n : Fin 384) (upset : Bool) (s : State) : State :=
  let c := s.weir.ch.get n
  if !weirRunning s n ∨ !c.dmen ∨ c.dmMain < (c.dmOut + 1) * c.dec then s
  else
    let m := c.dmOut + 1
    let ff := upset || c.dmFault
    let s1 := s.modWeir n fun c => { c with dmOut := m, dmSat := false, dmGlitch := false, dmFault := false }
    if m < c.dorder then s1
    else
      let i := scaleClamp (sincSum c.dorder c.dec c.ui) c.dsh
      let q := scaleClamp (sincSum c.dorder c.dec c.uq) c.dsh
      let wi := if ff then filterFaultWord else deliverWord c.coded i.1 c.bv
      let wq := if ff then filterFaultWord else deliverWord c.coded q.1 c.bq
      weirSample n c.dmGlitch [wi, wq, stampWord c.dmStamp (i.2 || q.2 || c.dmSat) ff, 0] ff s1

/-- The thresholds and HYST that a fast sample completed now uses (R255): of values overwritten within 2 FCLK, the oldest. -/
def fastThresholds (s : State) (c : WeirChan) : Word × BitVec 12 :=
  match c.fthrPast.find? fun p => s.now < p.2.2 with
  | some p => (p.1, p.2.1)
  | none => (c.fthr, c.hyst)

/-- R_f bits complete a fast sample; the comparator outputs follow (R254). -/
def fastStep (n : Fin 384) (bits : List Bool) (s : State) : State :=
  let c := s.weir.ch.get n
  if !weirRunning s n ∨ !c.fen ∨ bits.length ≠ c.fosr then s
  else
    let vals := (bits.map (bitValue c.inv)).reverse ++ c.fbits.map fun b => if b then (1 : Int) else -1
    let kept := ((bits.map (· != c.inv)).reverse ++ c.fbits).take (sincReach c.forder c.fosr)
    let j := c.fsamples + 1
    let raw := sincSum c.forder c.fosr vals / 2 ^ c.fsh
    let v := max (-131072) (min 131071 raw)
    let t := fastThresholds s c
    let hi := (fld t.1 0 18).toInt
    let lo := (fld t.1 18 18).toInt
    let h : Int := t.2.toNat
    s.modWeir n fun c =>
      if j < c.forder ∨ c.retired then { c with fbits := kept, fsamples := j }
      else
        { c with
          fbits := kept, fsamples := j
          hi := if v ≥ hi then true else if v < hi - h then false else c.hi
          lo := if v ≤ lo then true else if v > lo + h then false else c.lo }

/-! ### The delivery path (R259 to R265) -/

/-- The record size in nonets (R259). -/
def WeirChan.recSize (c : WeirChan) : Nat := if c.dmen then 16 else 8

/-- The area base (R259). -/
def areaBase (bank : Bool) (row : Nat) : Nat := 0xE0000 + 0x10000 * bank.toNat + 32 * row

/-- Slot i of half h (R259). -/
def areaSlot (base depth rs : Nat) (half : Bool) (i : Nat) : Nat := base + 32 + half.toNat * depth * rs + i * rs

/-- NEXT and WRAP of a half. -/
def Area.next (a : Area) (half : Bool) : BitVec 8 := if half then a.next1 else a.next0
def Area.wrap (a : Area) (half : Bool) : Bool := if half then a.wrap1 else a.wrap0

/-- NEXT moves on after a record in a half of DEPTH slots (R260). -/
def Area.advance (a : Area) (half : Bool) (depth : Nat) : Area :=
  let nx : BitVec 8 := BitVec.ofNat 8 (((a.next half).toNat + 1) % depth)
  let wr := a.wrap half || nx == 0
  if half then { a with next1 := nx, wrap1 := wr } else { a with next0 := nx, wrap0 := wr }

/-- A freeze takes effect on an area in snapshot mode (R261): the other half becomes live and empty, and the header is due. -/
def Area.freeze (a0 : Area) (running : Bool) : Area :=
  let a := { a0 with zero := false }
  let h := a.half
  let seq := a.seq + 1
  let a1 := if running then a else if h then { a with next1 := 0, wrap1 := false } else { a with next0 := 0, wrap0 := false }
  if h then { a1 with half := false, next0 := 0, wrap0 := false, seq := seq, seq1 := seq, header := some true }
  else { a1 with half := true, next1 := 0, wrap1 := false, seq := seq, seq0 := seq, header := some false }

/-- Header word h of an area whose half `done` is frozen, or at its enable (R261). -/
def Area.headerWord (a : Area) (h done : Bool) : Word :=
  if a.zero then 0
  else if h = done then put36 0 (a.next h) ||| bit36 8 (a.wrap h) ||| bit36 9 true ||| put36 10 (if h then a.seq1 else a.seq0)
  else put36 10 (if h then a.seq1 else a.seq0)

/-- The words of a row write as nonets. -/
def wordsAt (a : Nat) : List Word → List (Nat × Nonet)
  | [] => []
  | w :: ws => nonetsOf a w.toNat 4 ++ wordsAt (a + 4) ws

/-- A write by quay port B of a basin. -/
def portBWrite (n : BasinIx) (ws : List (Nat × Nonet)) (s : State) : State :=
  s.modBasin n fun x => x.writeBy true (bclkCount s n) ws

/-- The basin is in B0 or B1, so that port B is clocked (R263). -/
def portBUp (s : State) (n : BasinIx) : Bool := (s.crp.bpwr.get n).cur.toNat ≤ 1

/-- WEIR_BDROP as a read finds it: before the drops of the present FCLK (R6). -/
def bdropSeen (s : State) (b : BasinIx) : Word :=
  match s.weir.bdropWas.get b with
  | some (t, v) => if sameFclk s t then v else s.weir.bdrop.get b
  | none => s.weir.bdrop.get b

/-- A ready sample meets the delivery FIFO: it is accepted, or dropped where the FIFO is full or the basin in B2 or B3 (R263). -/
def acceptRecord (n : Fin 384) (s : State) : State :=
  let c := s.weir.ch.get n
  match c.ready, basinIx c.basin with
  | some ws, some b =>
    let fifo := s.weir.fifo.get b
    if fifo.length < 128 ∧ portBUp s b then
      let r : Record := { src := n.val, half := c.frz && c.area.half, words := acceptWords c ws, time := s.now }
      let s1 := { s with weir := { s.weir with fifo := vput s.weir.fifo b (fifo ++ [r]) } }
      s1.modWeir n fun c => { c with ready := none, gapNext := false }
    else
      let s1 := { s with weir := { s.weir with
        bdrop := vmod s.weir.bdrop b (· + 1), bdropWas := vput s.weir.bdropWas b (some (s.now, bdropSeen s b)) } }
      (s1.modWeir n fun c => { c with ready := none, drops := satInc c.drops, gap := true, gapNext := true }).mark (.weirChan n) 5
  | _, _ => s

/-- The channel's event is asserted in its basin (R265). -/
def weirEvent (c : WeirChan) (b : BasinIx) (s : State) : State :=
  if c.evten then s.pendBasin b ⟨20 + c.evt % 8, by omega⟩ else s

/-- A Weir record is written into its slot (R260, R263, R265). -/
def writeWeirRecord (b : BasinIx) (r : Record) (s : State) : State :=
  if h : r.src < 384 then
    let n : Fin 384 := ⟨r.src, h⟩
    let c := s.weir.ch.get n
    let slot := (c.area.next r.half).toNat
    let a := areaSlot (areaBase c.bank c.row) c.depth c.recSize r.half slot
    let s1 := (portBWrite b (wordsAt a r.words) s).modWeir n fun c => { c with area := c.area.advance r.half c.depth }
    if !c.frz ∧ (slot = 0 ∨ slot = c.depth / 2) then weirEvent c b s1 else s1
  else s

/-- The first Weir record of a FIFO for a quay bank, and the FIFO without it. -/
def nextForBank (s : State) (bank : Bool) : List Record → Option (Record × List Record)
  | [] => none
  | r :: rs =>
    if h : r.src < 384 then
      if (s.weir.ch.get ⟨r.src, h⟩).bank = bank then some (r, rs)
      else (nextForBank s bank rs).map fun x => (x.1, r :: x.2)
    else (nextForBank s bank rs).map fun x => (x.1, r :: x.2)

/-- A freeze takes effect on a channel (R261): records accepted in its own FCLK go to the half that becomes live. -/
def weirFreezeOne (n : Fin 384) (s : State) : State :=
  let s1 := s.modWeir n fun c => { c with area := c.area.freeze (weirRunning s n) }
  mapFresh n (fun r => { r with half := (s1.weir.ch.get n).area.half }) s1

/-- A freeze of a task reaches the Weir (R261, R262). -/
def weirFreezeAll (t : BitVec 8) (s : State) : State :=
  (ixs 384 fun n => (s.weir.ch.get n).frz && (s.weir.ch.get n).ftask == t).foldl (fun s n => weirFreezeOne n s)
    { s with weir := { s.weir with freezes := dropFirst (· == t) s.weir.freezes } }

/-- The area of an enable: half 0 is live, and in snapshot mode both header words are to be written as 0 (R261). -/
def Area.fresh (frz : Bool) : Area := { header := if frz then some false else none, zero := frz }

/-- The header row is written: none is due. -/
def Area.written (a : Area) : Area := { a with header := none, zero := false }

/-- The header row of a frozen half is due, its half's records written (R261 step 3), or that of the enable. -/
def headerDue (s : State) (n : Fin 384) : Option (BasinIx × Bool) :=
  let c := s.weir.ch.get n
  match c.area.header, basinIx c.basin with
  | some h, some b =>
    if portBUp s b && c.area.headerReady n.val (s.weir.fifo.get b) then some (b, h) else none
  | _, _ => none

/-- The header row is written, in a BCLK of port B, and the event of a frozen half asserted (R219, R261, R265). -/
def writeHeader (n : Fin 384) (s : State) : State :=
  match headerDue s n with
  | some (b, h) =>
    let c := s.weir.ch.get n
    let a := areaBase c.bank c.row
    let p := askPortB s b (quayBank c.bank) .weir
    if !p.1 then s
    else
      let s1 := portBWrite b (wordsAt a [c.area.headerWord false h, c.area.headerWord true h]) p.2
      let s2 := s1.modWeir n fun c => { c with area := c.area.written }
      if c.area.zero then s2 else weirEvent c b s2
  | none => s

/-! ### Enabling and registers (R249, R257, R269 to R272) -/

/-- The limits of R257 that involve rates, multiplied out: f_main = 400 MHz/(DIV·R). -/
def demodLimits (div : Nat) (c : WeirChan) : Bool :=
  let d := div * c.osr
  let ftw := c.dmftw.toNat
  5000 * d * 4294967296 ≤ ftw * 400000000 && ftw * 400000000 ≤ 100000 * d * 4294967296 &&
  4 * ftw ≤ 4294967296 &&
  1 ≤ c.dec &&
  1000 * d * c.dec ≤ 400000000 && 400000000 ≤ 50000 * d * c.dec

/-- The enable is accepted (R257). -/
def weirEnableOk (g : WeirGroup) (c : WeirChan) : Bool :=
  let div := g.div.toNat
  let capt := g.capt.toNat
  c.bv ≤ 4092 && c.bq ≤ 4092 && 1 ≤ c.depth &&
  16 ≤ div && div ≤ 80 && 1 ≤ capt && capt + 3 ≤ div &&
  4 ≤ c.osr && c.osr ≤ 1024 && 4 ≤ c.fosr && c.fosr ≤ 64 && c.forder ≤ 3 &&
  16 ≤ c.stk && c.stk ≤ 64 && (!c.dmen || (c.dorder ≤ 3 && demodLimits div c))

/-- A channel's records: one per `recordCycles` cycles of 400 MHz. -/
def recordCycles (s : State) (n : Fin 384) : Nat :=
  let c := s.weir.ch.get n
  max 1 ((s.weir.grp.get (weirGroupOf n)).div.toNat * c.osr * (if c.dmen then c.dec else 1))

/-- A fraction and one more of unit numerator. -/
def addUnit (x : Nat × Nat) (d : Nat) : Nat × Nat := (x.1 * d + x.2, x.2 * d)

/-- The channels whose records count for a claim of channel i (R264): those enabled, those that wait for their image, and i. -/
def countedChannels (s : State) (i : Nat) : List (Fin 384) :=
  let c0 := s.weir.ch[i]?
  ixs 384 fun n =>
    let c := s.weir.ch.get n
    n.val == i || (c0.any (fun x => x.basin == c.basin) && (c.en || (c.ownv && c.oworld)))

/-- The limits of R264 are broken with channel i: more than 128 channels, or more than a record per 4 BCLK into its bank. -/
def recordsOut (s : State) (i : Nat) : Bool :=
  let xs := countedChannels s i
  let bank := (s.weir.ch[i]?).map fun c => c.bank
  let rate := ((xs.filter fun n => some (s.weir.ch.get n).bank == bank).map (recordCycles s)).foldl addUnit (0, 1)
  decide (128 < xs.length) || decide (12000 * rate.2 < 400 * rate.1 * 4 * bclkPeriod s)

/-- A Weir channel's enable or write is refused with CFGERR (R257, R270). -/
def weirRefuse (n : Fin 384) (s : State) : State := (s.modWeir n fun c => { c with cfgerr := true }).mark (.weirChan n) 4

/-- A write of a channel's EN (R257, R272); the Harbourmaster makes none that would break a limit of R264. -/
def weirSetEnable (n : Fin 384) (en : Bool) (s : State) : State :=
  let c := s.weir.ch.get n
  if en = c.en then s
  else if !en then s.modWeir n fun c => { c with cfg := c.cfg &&& ~~~1, hi := c.retired && c.hi, lo := c.retired && c.lo }
  else if !weirEnableOk (s.weir.grp.get (weirGroupOf n)) c ∨ 12 ≤ c.basin then weirRefuse n s
  else if recordsOut s n.val then s
  else
    writeHeader n (s.modWeir n fun c => { weirRestart c with cfg := c.cfg ||| 1, area := Area.fresh c.frz, gapNext := false })

/-- Channel m of group g. -/
def weirMember (g : Fin 48) (m : Fin 8) : Fin 384 := ⟨8 * g.val + m.val, by omega⟩

/-- The same for every channel of a group. -/
def eachMember (g : Fin 48) (f : Fin 384 → State → State) (s : State) : State :=
  (List.finRange 8).foldl (fun s m => f (weirMember g m) s) s

/-- A write of a group's EN through PER (R249): the channels' filters start with the clock. -/
def weirSetGroup (g : Fin 48) (en : Bool) (s : State) : State :=
  let s1 := s.modWeirGroup g fun x =>
    { x with en := en, since := if en && !x.en then s.now else x.since, taken := x.taken || en }
  if en && !(s.weir.grp.get g).en then eachMember g (fun n s => s.modWeir n weirRestart) s1 else s1

/-- A group reset (R269). -/
def weirGroupReset (g : Fin 48) (s : State) : State :=
  let s1 := s.modWeirGroup g fun x => { x with clkloss := false }
  eachMember g (fun n s => s.modWeir n fun c =>
    weirRestart { c with retired := false, rcause := 0, window := [], hi := false, lo := false }) s1

/-- The clock of a group is lost (R266): every enabled channel of it retires. -/
def weirClockLoss (g : Fin 48) (s : State) : State :=
  if !(s.weir.grp.get g).en then s
  else
    eachMember g (fun n s => if (s.weir.ch.get n).en then weirRetire n 2 s else s)
      (s.modWeirGroup g fun x => { x with clkloss := true })

/-- STK equal bits, after INV, retire a channel (R266). -/
def weirStuck (n : Fin 384) (bits : List Bool) (s : State) : State :=
  let c := s.weir.ch.get n
  if weirRunning s n && bits.length == c.stk && (bits.all (· == true) || bits.all (· == false)) then weirRetire n 1 s else s

/-- A write of WEIR_FTHR or HYST (R255): samples completed in its FCLK and the next still use the old values. -/
def setThresholds (now : Nat) (thr : Word) (fcfg : BitVec 27) (c : WeirChan) : WeirChan :=
  if thr = c.fthr ∧ fld fcfg 15 12 = c.hyst then { c with fthr := thr, fcfg := fcfg }
  else
    { c with
      fthr := thr, fcfg := fcfg
      fthrPast := (c.fthrPast.filter fun p => now < p.2.2) ++ [(c.fthr, c.hyst, (now / fclkPeriod + 2) * fclkPeriod)] }

/-- A write of the W1C fields of WEIR_CHSTAT (R272). -/
def weirStatClear (v : Word) (c : WeirChan) : WeirChan :=
  { c with cfgerr := c.cfgerr && !bit v 4, gap := c.gap && !bit v 5, ff := c.ff && !bit v 6 }

/-- The bits of a channel word that are not reserved (R7, R272). -/
def weirMask (k : Nat) : Word :=
  match k with
  | 0 => mask36 0 29
  | 1 => mask36 0 26
  | 3 => mask36 0 27
  | 5 => mask36 0 34
  | 6 => mask36 0 32
  | _ => mask36 0 36

/-- The bits of a channel word that an enabled channel still takes through PER (R270). -/
def weirOpenBits (k : Nat) : Word :=
  match k with
  | 0 => bit36 0 true ||| bit36 28 true
  | 2 => mask36 33 3
  | 3 => bit36 0 true ||| mask36 15 12
  | _ => 0

/-- A channel word as stored (R272). -/
def weirStored (c : WeirChan) (k : Nat) : Word :=
  match k with
  | 0 => c.cfg.setWidth 36
  | 1 => c.chres.setWidth 36
  | 2 => c.dst
  | 3 => c.fcfg.setWidth 36
  | 4 => c.fthr
  | 5 => c.dmcfg.setWidth 36
  | 6 => c.dmftw.setWidth 36
  | _ => 0

/-- A channel configuration word replaced (R272); EN of word 0 is the enable's own. -/
def weirStore (now : Nat) (n : Fin 384) (k : Nat) (v : Word) (c : WeirChan) : WeirChan :=
  match k with
  | 0 => { c with cfg := (low 29 v &&& ~~~1) ||| (c.cfg &&& 1) }
  | 1 => { c with chres := low 26 v }
  | 2 => { c with dst := v }
  | 3 =>
    let c1 := setThresholds now c.fthr (low 27 v) c
    if c.retired then { c1 with hi := retactHi c1, lo := retactLo c1 }
    else if bit v 0 then c1 else { c1 with fbits := [], fsamples := 0, hi := false, lo := false }
  | 4 => setThresholds now v c.fcfg c
  | 5 => { c with dmcfg := if 128 ≤ n.val then low 34 v &&& ~~~1 else low 34 v }
  | 6 => { c with dmftw := low 32 v }
  | _ => c

/-- A write of channel word k through PER (R270, R272). -/
def weirWriteChan (n : Fin 384) (k : Nat) (v : Word) (s : State) : State :=
  let c := s.weir.ch.get n
  let now := s.now
  if k = 7 then s.modWeir n (weirStatClear (s.w1c (.weirChan n) (sameFclk s) v))
  else if k = 4 then s.modWeir n (weirStore now n k v)
  else
    let old := weirStored c k
    let refused := c.en && (weirOpenBits k == 0 || (old ^^^ v) &&& weirMask k &&& ~~~(weirOpenBits k) != 0)
    let new := if c.en then mergeBits (weirOpenBits k) old v else v
    let s0 := s.modWeir n (weirStore now n k new)
    let s1 := if refused then weirRefuse n s0 else s0
    if k = 0 then weirSetEnable n (bit v 0) s1 else s1

/-- A write of WEIR_GRPCFG (R270, R271). -/
def weirWriteGroup (g : Fin 48) (v : Word) (s : State) : State :=
  let x := s.weir.grp.get g
  let refused := x.en && (fld v 1 7 != x.div || fld v 8 7 != x.capt)
  let s1 := s.modWeirGroup g fun x =>
    { x with
      div := if x.en then x.div else fld v 1 7
      capt := if x.en then x.capt else fld v 8 7
      gcfgerr := (x.gcfgerr && !bit (s.w1c (.weirGroup g) (sameFclk s) v) 17) || refused }
  let s1 := if refused then s1.mark (.weirGroup g) 17 else s1
  let s2 := weirSetGroup g (bit v 0) s1
  if bit v 15 then weirGroupReset g s2 else s2

/-- Channel word k as read (R272). -/
def weirReadChan (s : State) (n : Fin 384) (k : Nat) : Word :=
  let c := s.weir.ch.get n
  if k = 7 then
    bit36 0 (weirRunning s n) ||| bit36 1 c.retired ||| put36 2 c.rcause ||| bit36 4 c.cfgerr ||| bit36 5 c.gap |||
    bit36 6 c.ff ||| bit36 7 c.hi ||| bit36 8 c.lo ||| put36 9 (c.area.next c.area.half) ||| bit36 17 c.area.half |||
    at36 18 (min 255 (c.window.count true)) ||| put36 26 c.drops
  else weirStored c k

/-- A read through PER at a block offset (R271, R272); none where no register is mapped. -/
def weirRead (s : State) (off : Nat) : Option Word :=
  if off = 0 then some 0x17240
  else if off = 1 then some (put36 0 s.weir.glim ||| put36 4 s.weir.gwin)
  else if h : 0x10 ≤ off ∧ off < 0x1C then some (bdropSeen s ⟨off - 0x10, by omega⟩)
  else if 0x20 ≤ off ∧ off < 0x2B then
    some ((List.range 36).foldl (fun w j =>
      w ||| bit36 j (vgetN (s.weir.ch.map fun c => c.retired) (36 * (off - 0x20) + j) false)) 0)
  else if h : 0x40 ≤ off ∧ off < 0x70 then
    let x := s.weir.grp.get ⟨off - 0x40, by omega⟩
    some (bit36 0 x.en ||| put36 1 x.div ||| put36 8 x.capt ||| bit36 16 x.clkloss ||| bit36 17 x.gcfgerr)
  else if h : 0x100 ≤ off ∧ off < 0x100 + 8 * 384 then
    some (weirReadChan s ⟨(off - 0x100) / 8, by omega⟩ ((off - 0x100) % 8))
  else none

/-- A write through PER at a block offset (R270 to R272); none where no register is mapped. -/
def weirWrite (off : Nat) (v : Word) (s : State) : Option State :=
  if off = 1 then some { s with weir := { s.weir with glim := low 4 v, gwin := fld v 4 12 } }
  else if h : 0x40 ≤ off ∧ off < 0x70 then some (weirWriteGroup ⟨off - 0x40, by omega⟩ v s)
  else if h : 0x100 ≤ off ∧ off < 0x100 + 8 * 384 then
    some (weirWriteChan ⟨(off - 0x100) / 8, by omega⟩ ((off - 0x100) % 8) v s)
  else (weirRead s off).map fun _ => s

/-- A barge's window admits a channel (R270). -/
def weirAdmits (s : State) (g : BargeIx) (world : Bool) (n : Fin 384) : Bool :=
  let c := s.weir.ch.get n
  c.ownv && c.basin == (basinOf g).val && c.oworld == world

/-! ### The commands -/

/-- WEIR_GROUP_ENABLE (R249): EN of WEIR_GRPCFG is written. -/
def execWeirGroupEnable (dt : Nat) (g : Fin 48) (en : Bool) (s : State) : Out := act s dt (watchTrips (weirSetGroup g en))

/-- WEIR_CHANNEL_ENABLE (R257): EN of WEIR_CHCFG is written. -/
def execWeirChannelEnable (dt : Nat) (n : Fin 384) (en : Bool) (s : State) : Out := act s dt (watchTrips (weirSetEnable n en))

/-- MAIN_SAMPLE_READY (R253). -/
def execMainSampleReady (dt : Nat) (n : Fin 384) (bits : List (Bool × Bool)) (upset : Bool) (s : State) : Out :=
  act s dt (watchTrips (mainSample n bits upset))

/-- FAST_SAMPLE (R254). -/
def execFastSample (dt : Nat) (n : Fin 384) (bits : List Bool) (s : State) : Out := act s dt (watchTrips (fastStep n bits))

/-- DEMOD_OUTPUT (R256). -/
def execDemodOutput (dt : Nat) (n : Fin 384) (upset : Bool) (s : State) : Out := act s dt (watchTrips (demodSample n upset))

/-- RECORD_ACCEPT (R263). -/
def execRecordAccept (dt : Nat) (n : Fin 384) (s : State) : Out := act s dt (acceptRecord n)

/-- WEIR_FREEZE (R261): a freeze on its way from the Keeper takes effect. -/
def execWeirFreeze (dt : Nat) (task : Fin 256) (s : State) : Out :=
  act s dt (gated (fun s => s.weir.freezes.contains (BitVec.ofNat 8 task.val)) (weirFreezeAll (BitVec.ofNat 8 task.val)))

/-- HEADER_WRITE (R261). -/
def execHeaderWrite (dt : Nat) (n : Fin 384) (s : State) : Out := act s dt (writeHeader n)

/-- STUCK_STREAM (R266). -/
def execStuckStream (dt : Nat) (n : Fin 384) (bits : List Bool) (s : State) : Out := act s dt (watchTrips (weirStuck n bits))

/-- CLOCK_LOSS (R266). -/
def execClockLoss (dt : Nat) (g : Fin 48) (s : State) : Out := act s dt (watchTrips (watchReady (weirClockLoss g)))

/-- GRST (R269). -/
def execGrst (dt : Nat) (g : Fin 48) (s : State) : Out := act s dt (watchTrips (watchReady (weirGroupReset g)))

/-- FTHR_WRITE (R255): from the owning world's window (R270) or through PER. -/
def execFthrWrite (dt : Nat) (n : Fin 384) (src : Writer) (value : Word) (s : State) : Out :=
  act s dt fun s =>
    match src with
    | .bridge => weirWriteChan n 4 value s
    | .barge g => if weirAdmits s g (bit (s.barges.get g).psw 0) n then weirWriteChan n 4 value s else s

end Sys2Proof.Machine
end

