-- ==== Sys2Proof/Machine/Hrpwm.lean ====
section
/-! DEFINITION. The HRPWM array: timebases, staging and commit, boundaries, enables, readback and registers (chapter 11). -/

namespace Sys2Proof.Machine

/-! ### Events and retirement (R290, R293) -/

/-- A channel retires (R290, R197). -/
def pwmRetire (n : Fin 192) (cause : Nat) (s : State) : State :=
  let c := s.pwm.ch.get n
  if c.st = 2 then s
  else
    let s1 := pwmWatch n (fun s => s.modPwm n fun c =>
      { c with st := 2, rcause := BitVec.ofNat 2 cause, pend := none, relAt := none, stg := none }) s
    pwmEvent n (s1.reportRetired 4 n.val (BitVec.ofNat 8 cause) (isVital s n))

/-! ### Staging and commit (R280 to R284) -/

/-- An enable or a write is refused with CFGERR; an ordinary write is discarded with RANGE (R284, R294). -/
def pwmRefuse (n : Fin 192) (s : State) : State := (s.modPwm n fun c => { c with cfgerr := true }).mark (.pwmChan n) 5
def pwmOutOfRange (n : Fin 192) (s : State) : State := (s.modPwm n fun c => { c with range := true }).mark (.pwmChan n) 6

/-- A staging write comes from a retired barge: the output blocks ignore it, to a vital resource and to an ordinary one (R190). -/
def fromRetired (s : State) : StgWriter → Bool
  | .window g _ _ _ => bit s.kp.retired g.val
  | .bridge => false

/-- A write of HRPWM_STG (R190, R280, R284, R290, R298). -/
def pwmStage (n : Fin 192) (src : StgWriter) (v : Word) (s : State) : State :=
  let c := s.pwm.ch.get n
  if isPartner s n ∨ c.st = 2 ∨ fromRetired s src then s
  else if c.vital then
    match src with
    | .window _ _ d a => s.modPwm n fun c => { c with stg := some { value := v, date := d, att := a } }
    | .bridge => pwmRefuse n s
  else
    let x : BitVec 24 := low 24 v
    if validX (s.pwm.tb.get c.tb) c x.toInt then
      s.modPwm n fun c => { c with pend := some (x, s.now + 20 * pclkPeriod) }
    else pwmOutOfRange n s

/-- A commit without a value for a channel at its safe level releases it to its committed value, if it has one since its enable,
at the boundary at which a value would apply (R193, R195, R283). -/
def pwmReleaseOne (since : Nat) (n : Fin 192) (s : State) : State :=
  s.modPwm n fun c =>
    if c.st = 0 && !c.fresh && c.appl.isSome && c.pend.isNone then { c with relAt := some (since + 480) } else c

/-- One channel's part in a commit of generation (d, a) opened at `since` (R281). -/
def pwmCommitOne (d : BitVec 32) (a : Bool) (since : Nat) (disagree : List (Fin 192)) (n : Fin 192) (s : State) : State :=
  let c := s.pwm.ch.get n
  match c.stg with
  | none => pwmReleaseOne since n s
  | some x =>
    let s1 := s.modPwm n fun c => { c with stg := none }
    if x.date = d ∧ x.att = a then
      match decodeCoded x.value c.residue with
      | .ok v =>
        if validX (s.pwm.tb.get c.tb) c v ∧ !disagree.contains n then
          s1.modPwm n fun c => { c with pend := some (BitVec.ofInt 24 v, since + 480), relAt := none }
        else pwmRetire n 1 s1
      | _ => pwmRetire n 1 s1
    else pwmReleaseOne since n s1

/-- The channels a group's commit or order concerns (R281): enabled, vital, of the group, not retired, no odd partner. -/
def pwmInGroup (s : State) (g : BitVec 6) (n : Fin 192) : Bool :=
  let c := s.pwm.ch.get n
  c.en && c.vital && c.group == g && c.st != 2 && !isPartner s n

/-- The lock gate of a group has opened for a generation (R281). -/
def pwmCommit (g : BitVec 6) (d : BitVec 32) (a : Bool) (since : Nat) (disagree : List (Fin 192)) (s : State) : State :=
  (ixs 192 (pwmInGroup s g)).foldl (fun s n => pwmCommitOne d a since disagree n s) s

/-- Staged values of a generation, or all of them, are cleared (R193, R195, R282). -/
def pwmDiscard (g : BitVec 6) (gen : Option (BitVec 32 × Bool)) (s : State) : State :=
  { s with pwm := { s.pwm with ch := s.pwm.ch.map fun c =>
    if c.vital && c.group == g && (match gen, c.stg with
      | some x, some y => y.date == x.1 && y.att == x.2
      | _, _ => gen.isNone) then { c with stg := none } else c } }

/-- The safe-level order (R283): of one group, or of all vital channels. -/
def pwmSafe (g : Option (BitVec 6)) (s : State) : State :=
  let mine := ixs 192 fun n =>
    let c := s.pwm.ch.get n
    c.vital && (match g with
      | some x => c.group == x
      | none => true) && c.st != 2
  mine.foldl (fun s n => pwmWatch n (fun s => s.modPwm n fun c => { c with st := 0, pend := none, relAt := none }) s) s

/-! ### Boundaries (R273 to R275, R282, R284, R286) -/

/-- The PCLK at which the timebase's next boundary falls, where it is known (R274); with SYNC 2 and none yet, the present one if
station time had reached START at its edge, after EN's (log entry 44). -/
def nextBoundary (s : State) (t : Timebase) : Option Nat :=
  match t.mode.toNat with
  | 0 => some (match t.lastB with
      | none => t.since + 1
      | some b => b + t.per.toNat)
  | 1 =>
    if h : t.src.toNat < 16 then
      match (s.pwm.tb.get ⟨t.src.toNat, h⟩).lastB with
      | some b =>
        let d := b + t.ofs.toNat
        if t.since < d && t.lastB.all (fun l => l < d) then some d else none
      | none => none
    else none
  | 2 =>
    match t.lastB with
    | some b => some (b + t.per.toNat)
    | none =>
      let past := ((low 36 s.crp.stTime : Word) - t.start).toNat
      if past < 34359738368 ∧ s.now % pclkPeriod / 12 ≤ past ∧ t.since < pclkNow s then some (pclkNow s) else none
  | _ => t.zxDue

/-- The timebase's counters at a boundary (R275, R276). -/
def tbAdvance (res : Bool) (b : Nat) (t : Timebase) : Timebase :=
  match t.lastB with
  | none => { t with lastB := some b, res := res, bpos := 0, slotcnt := 0, patpos := 0, zxDue := none }
  | some _ =>
    let wrapS := t.slotcnt.toNat + 1 ≥ t.slots
    { t with
      lastB := some b, res := res, zxDue := none
      bpos := if t.bpos.toNat + 1 ≥ t.frame then 0 else t.bpos + 1
      slotcnt := if wrapS then 0 else t.slotcnt + 1
      patpos := if wrapS then (if t.patpos.toNat ≥ t.patlen.toNat then 0 else t.patpos + 1) else t.patpos }

/-- A channel at a boundary at PCLK b of its timebase, whose state before it is `t` (R277, R278, R282, R284, R286). -/
def pwmAtBoundary (s : State) (t : Timebase) (b : Nat) (c : PwmChan) : PwmChan :=
  let base := 64 * t.lastB.getD b
  let len := 64 * b - base
  let iv := onIntervals t c
  let e := lastEdges iv c base (len - 1)
  let high := if len = 0 then c.prevHigh else waveAt iv (len - 1)
  let c1 := { c with prevHigh := high, lastRise := e.1, lastFall := e.2, spill := if len = 0 then c.spill else spillOf t c }
  let c2 := if c1.tripped && !maskActive s c && (!c.tlatch || c.trclr) then { c1 with tripped := false, trclr := false } else c1
  match c2.pend with
  | some (x, due) =>
    if due ≤ b * pclkPeriod ∧ c2.st ≠ 2 then
      { c2 with pend := none, appl := some x, st := if c2.en then 1 else c2.st, fresh := c2.fresh && !c2.en }
    else c2
  | none => if c2.relAt.any (· ≤ b * pclkPeriod) then { c2 with relAt := none, st := 1 } else c2

/-- A boundary of timebase m at PCLK b: its counters advance, and its channels, of a pair both by the even one's timebase (R279),
take what is pending, an odd partner with the even one; the phases of their pads go on from where the period has left them. -/
def boundaryAt (m : Fin 16) (b : Nat) (s : State) : State :=
  let t := s.pwm.tb.get m
  let res := s.pwm.res || s.crp.profile == 2
  let s1 := s.modTb m (tbAdvance res b)
  let last := 64 * b - 64 * t.lastB.getD b
  { s1 with pwm := { s1.pwm with ch := Vector.ofFn fun n =>
      let c := s1.pwm.ch.get n
      if (leadOf s n).tb ≠ m then c
      else
        let p := if last = 0 then (c.phaseLvl, c.phaseAt) else pwmPhase s n (last - 1)
        let e := s1.pwm.ch.get (evenOf n)
        let joins := isPartner s n && c.en && e.en && e.st != 2 && e.pend.any fun x => x.2 ≤ b * pclkPeriod
        { pwmAtBoundary s t b c with phaseLvl := p.1, phaseAt := p.2, joined := c.joined || joins } } }

/-- PERIOD_BOUNDARY's own gate: the timebase runs and its boundary has come. -/
def atBoundary (m : Fin 16) (s : State) : State :=
  let t := s.pwm.tb.get m
  match nextBoundary s t with
  | some b => if t.en ∧ b ≤ pclkNow s then boundaryAt m b s else s
  | none => s

/-- A period of a zero-cross timebase has ended with no event boundary (R274). -/
def zxExpire (m : Fin 16) (s : State) : State :=
  let t := s.pwm.tb.get m
  match t.lastB with
  | some l =>
    let b := l + t.per.toNat
    if t.en && t.mode == 3 && decide (b ≤ pclkNow s) && t.zxDue.all (fun d => b < d) then
      let s1 := if t.zxDue.isNone then (s.modTb m fun t => { t with zxmiss := true }).mark (.timebase m) 11 else s
      let keep := t.zxDue
      (boundaryAt m b s1).modTb m fun t => { t with zxDue := keep }
    else s
  | none => s

/-- A zero-cross event of field input n (R274, R303): it starts OFS on each zero-cross timebase that follows it. -/
def zeroCross (n : Nat) (s : State) : State :=
  { s with pwm := { s.pwm with tb := s.pwm.tb.map fun t =>
    if t.en && t.mode == 3 && t.src.toNat == n && t.zxDue.isNone then
      { t with zxDue := some (pclkNow s + t.ofs.toNat) } else t } }

/-! ### Enables (R273 to R275, R278, R288, R292) -/

/-- The follow chain from timebase `src` does not reach m (R274). -/
def chainFree (tbs : Vector Timebase 16) (m : Fin 16) : Nat → Nat → Bool
  | 0, _ => true
  | k + 1, src =>
    if h : src < 16 then
      let t := tbs.get ⟨src, h⟩
      src != m.val && (!(t.en && t.mode == 1) || chainFree tbs m k t.src.toNat)
    else true

/-- The timebase may be enabled (R273, R274). -/
def tbEnableOk (s : State) (m : Fin 16) : Bool :=
  let t := s.pwm.tb.get m
  25 ≤ t.per.toNat &&
  (t.mode != 1 ||
    (if h : t.src.toNat < 16 then
      let r := s.pwm.tb.get ⟨t.src.toNat, h⟩
      r.en && r.per == t.per && t.ofs.toNat < t.per.toNat && chainFree s.pwm.tb m 16 t.src.toNat
    else false))

/-- An enabled channel or follower uses the timebase (R275); an odd partner's own TB is ignored (R279). -/
def tbInUse (s : State) (m : Fin 16) : Bool :=
  ((List.finRange 192).any fun n => (s.pwm.ch.get n).en && (leadOf s n).tb == m) ||
  ((List.finRange 16).any fun k =>
    let t := s.pwm.tb.get k
    t.en && t.mode == 1 && t.src.toNat == m.val)

/-- An enable or a write of a timebase is refused with CFGERR (R275). -/
def tbRefuse (m : Fin 16) (s : State) : State := (s.modTb m fun t => { t with cfgerr := true }).mark (.timebase m) 10

/-- A write of TB_CTL.EN (R275). -/
def tbSetEnable (m : Fin 16) (en : Bool) (s : State) : State :=
  let t := s.pwm.tb.get m
  if en = t.en then s
  else if en then
    if tbEnableOk s m then
      s.modTb m fun t => { t with
        en := true, since := pclkNow s, lastB := none, zxDue := none, bpos := 0, slotcnt := 0, patpos := 0 }
    else tbRefuse m s
  else if tbInUse s m then tbRefuse m s
  else s.modTb m fun t => { t with en := false, lastB := none, zxDue := none }

/-- The channel may be enabled (R278, R288, R292). -/
def pwmEnableOk (s : State) (n : Fin 192) : Bool :=
  let c := s.pwm.ch.get n
  (isPartner s n || (1 ≤ c.mode && c.mode ≤ 5)) && (!c.vital || c.rben || isPartner s n) &&
  (if h : 160 ≤ n.val then
    (match s.fw.ballOwner.get ⟨n.val - 160, by omega⟩ with
    | some (_, _, fo) => !fo
    | none => true)
  else true)

/-- A write of HRPWM_CFG.EN (R283, R284); a trip stays until its release (R286). -/
def pwmSetEnable (n : Fin 192) (en : Bool) (s : State) : State :=
  let c := s.pwm.ch.get n
  if en = c.en then s
  else if !en then
    pwmWatch n (fun s => s.modPwm n fun c =>
      { c with cfg := c.cfg &&& ~~~1, st := if c.st = 2 then 2 else 0, joined := false, pend := none, relAt := none }) s
  else if pwmEnableOk s n then
    pwmWatch n (fun s => s.modPwm n fun c =>
      { c with
        cfg := c.cfg ||| 1, st := if c.st = 2 then 2 else 0, fresh := true, joined := false
        pend := if c.vital then none else c.pend, relAt := none }) s
  else pwmRefuse n s

/-- A channel reset (R290): a vital channel's pending value goes with it, for only the next commit makes it live (R397). -/
def pwmReset (n : Fin 192) (s : State) : State :=
  pwmWatch n (fun s => s.modPwm n fun c =>
    { c with
      st := 0, fresh := true, joined := false, pend := if isVital s n then none else c.pend, relAt := none, rcause := 0, tripped := c.tripped && maskActive s c, trclr := false, rbh := 0, rbl := 0 }) s

/-- A sample's comparison with the driven level (R288, R293). -/
def pwmCompare (n : Fin 192) (driven level : Bool) (s : State) : State :=
  let bad := level != driven
  let s1 := s.modPwm n fun c =>
    if driven then { c with rbh := if bad then c.rbh + 1 else 0 } else { c with rbl := if bad then c.rbl + 1 else 0 }
  let s2 := if bad then pwmEvent n s1 else s1
  let c := s2.pwm.ch.get n
  if c.rblim ≤ max c.rbh.toNat c.rbl.toNat then pwmRetire n 2 s2 else s2

/-- The pad is sampled in the present PCLK: RBSET PCLK after the start of its phase, and every 125 PCLK from then on, once
(R288). -/
def sampleDue (s : State) (n : Fin 192) : Bool :=
  let c := s.pwm.ch.get n
  let k := pclkNow s - (phaseNow s n).2 / 64
  c.rbset ≤ k && (k - c.rbset) % 125 == 0 && c.sampledAt != some (pclkNow s)

/-- A readback sample (R288), of a safe or a trip level too. -/
def pwmReadback (n : Fin 192) (level : Bool) (s : State) : State :=
  let own := s.pwm.ch.get n
  if !own.en ∨ !own.rben ∨ !sampleDue s n then s
  else
    let s1 := s.modPwm n fun c => { c with sampledAt := some (pclkNow s) }
    match pwmDrive s n with
    | .high => pwmCompare n true level s1
    | .low => pwmCompare n false level s1
    | .z => s

/-! ### Registers (R294 to R298) -/

/-- A write of HRPWM_CFG (R294): on an enabled channel only EN is open; on another, no value that was checked against the old
configuration stays pending once it changes (log entry 44). -/
def pwmWriteCfg (n : Fin 192) (v : Word) (s : State) : State :=
  let v := if n.val % 2 = 1 then v &&& ~~~(bit36 15 true) else v
  let v := v &&& mask36 0 28
  let c := s.pwm.ch.get n
  let s1 :=
    if c.en then if (v ^^^ c.cfg) &&& ~~~1 != 0 then pwmRefuse n s else s
    else pwmWatch n (fun s => s.modPwm n fun c => { c with cfg := v &&& ~~~1, pend := if (v ^^^ c.cfg) &&& ~~~1 = 0 then c.pend else none }) s
  pwmSetEnable n (bit v 0) s1

/-- A configuration word replaced (R298). -/
def pwmStore (k : Nat) (v : Word) (c : PwmChan) : PwmChan :=
  match k with
  | 3 => { c with ores := low 18 v }
  | 4 => { c with dt := low 24 v }
  | 5 => { c with width := low 30 v, pend := none }
  | 6 => { c with pat := low 32 v }
  | 8 => { c with rb := low 11 v }
  | _ => c

/-- A write of channel word k through PER (R294, R298); none where the word is unmapped. -/
def pwmWriteChan (n : Fin 192) (k : Nat) (v : Word) (s : State) : Option State :=
  match k with
  | 0 => if isPartner s n then none else some (pwmStage n .bridge v s)
  | 1 => if isPartner s n then none else some s
  | 2 => some (pwmWriteCfg n v s)
  | 7 => some (pwmTripOne n (s.modPwm n fun c => { c with trip := low 33 v }))
  | 9 => some s
  | 10 =>
    let m := s.w1c (.pwmChan n) (sameCycle pclkPeriod s) v
    some (s.modPwm n fun c => { c with cfgerr := c.cfgerr && !bit m 5, range := c.range && !bit m 6 })
  | 11 =>
    let s1 := if bit v 1 then pwmReset n s else s
    some (if bit v 0 then pwmTripClear n s1 else s1)
  | k =>
    if k = 3 ∨ k = 4 ∨ k = 5 ∨ k = 6 ∨ k = 8 then
      if (s.pwm.ch.get n).en then some (pwmRefuse n s) else some (s.modPwm n (pwmStore k v))
    else none

/-- A write of a timebase word through PER (R275, R296). -/
def tbWrite (m : Fin 16) (k : Nat) (v : Word) (s : State) : State :=
  let t := s.pwm.tb.get m
  match k with
  | 0 =>
    let m1 := s.w1c (.timebase m) (sameCycle pclkPeriod s) v
    let s1 := s.modTb m fun t =>
      { t with
        cfgerr := t.cfgerr && !bit m1 10
        zxmiss := t.zxmiss && !bit m1 11
        mode := if t.en then t.mode else fld v 1 2
        src := fld v 3 7 }
    tbSetEnable m (bit v 0) (if t.en && fld v 1 2 != t.mode then tbRefuse m s1 else s1)
  | k =>
    if 1 ≤ k ∧ k ≤ 5 then
      if t.en then tbRefuse m s
      else s.modTb m fun t => match k with
        | 1 => { t with per := low 24 v }
        | 2 => { t with ofs := low 24 v }
        | 3 => { t with start := v }
        | 4 => { t with slot := low 16 v, patlen := fld v 16 5 }
        | _ => { t with blen := low 12 v }
    else s

/-- A trip zone word replaced (R297). -/
def tzStore (z : Fin 32) (k : Nat) (v : Word) (s : State) : State :=
  match k with
  | 0 => s.modTz z fun x => { x with src0 := low 30 v }
  | 1 => s.modTz z fun x => { x with src1 := low 30 v }
  | 2 => s.modTz z fun x => { x with src2 := low 23 v }
  | _ => s

/-- A write of a trip zone word (R297): the zone follows its new sources. -/
def tzWrite (z : Fin 32) (k : Nat) (v : Word) (s : State) : State := tripZoneEval z (tzStore z k v (tripZoneEval z s))

/-- A write of HRPWM_CFG.RES (R276, R295): read-only in Cool. -/
def pwmSetRes (v : Bool) (s : State) : State :=
  if s.crp.profile = 2 then s else { s with pwm := { s.pwm with res := v } }

/-- HRPWM_STAT.STATE (R298): an odd partner that is not retired is live with its pair (R279), once a value has applied. -/
def pwmState (s : State) (n : Fin 192) : BitVec 2 :=
  let c := s.pwm.ch.get n
  if isPartner s n ∧ c.st ≠ 2 then (if (leadOf s n).st = 1 ∧ c.joined then 1 else 0) else c.st

/-- Channel word k as read (R298); none where it is unmapped. -/
def pwmReadChan (s : State) (n : Fin 192) (k : Nat) : Option Word :=
  let c := s.pwm.ch.get n
  match k with
  | 0 => if isPartner s n then none else some 0
  | 1 =>
    if isPartner s n then none
    else some (match c.stg with
      | some x => put36 0 x.date ||| bit36 32 x.att ||| bit36 33 true
      | none => 0)
  | 2 => some c.cfg
  | 3 => some (c.ores.setWidth 36)
  | 4 => some (c.dt.setWidth 36)
  | 5 => some (c.width.setWidth 36)
  | 6 => some (c.pat.setWidth 36)
  | 7 => some (c.trip.setWidth 36)
  | 8 => some (c.rb.setWidth 36)
  | 9 => some (put36 0 (c.appl.getD 0) ||| bit36 24 c.appl.isSome ||| bit36 25 c.pend.isSome)
  | 10 =>
    some (put36 0 (pwmState s n) ||| bit36 2 c.tripped ||| put36 3 c.rcause ||| bit36 5 c.cfgerr ||| bit36 6 c.range |||
      put36 7 c.rbh ||| put36 11 c.rbl ||| put36 15 c.tripcnt)
  | 11 => some 0
  | _ => none

/-- A timebase word as read (R296). -/
def tbRead (s : State) (m : Fin 16) (k : Nat) : Word :=
  let t := s.pwm.tb.get m
  match k with
  | 0 => bit36 0 t.en ||| put36 1 t.mode ||| put36 3 t.src ||| bit36 10 t.cfgerr ||| bit36 11 t.zxmiss
  | 1 => t.per.setWidth 36
  | 2 => t.ofs.setWidth 36
  | 3 => t.start
  | 4 => put36 0 t.slot ||| put36 16 t.patlen
  | 5 => t.blen.setWidth 36
  | 6 =>
    at36 0 ((match t.lastB with
      | some b => pclkNow s - b
      | none => 0) % 16777216) ||| bit36 24 t.en ||| put36 25 t.patpos
  | _ => put36 0 t.bpos ||| put36 12 t.slotcnt

/-- A read through PER at a block offset (R295 to R298); none where no register is mapped. -/
def pwmRead (s : State) (off : Nat) : Option Word :=
  if off = 0 then some 0x17240
  else if off = 1 then some (bit36 0 (s.pwm.res || s.crp.profile == 2) ||| bit36 1 s.pwm.calok)
  else if off = 2 then some (s.pwm.evt.setWidth 36)
  else if 0x10 ≤ off ∧ off < 0x16 then
    some ((List.range 36).foldl (fun w j =>
      w ||| bit36 j (vgetN (s.pwm.ch.map fun c => c.st == 2) (36 * (off - 0x10) + j) false)) 0)
  else if h : 0x40 ≤ off ∧ off < 0xC0 then some (tbRead s ⟨(off - 0x40) / 8, by omega⟩ ((off - 0x40) % 8))
  else if h : 0xC0 ≤ off ∧ off < 0x140 then
    let z := s.pwm.tz.get ⟨(off - 0xC0) / 4, by omega⟩
    some (match (off - 0xC0) % 4 with
      | 0 => z.src0.setWidth 36
      | 1 => z.src1.setWidth 36
      | 2 => z.src2.setWidth 36
      | _ => bit36 0 z.act ||| put36 1 z.count)
  else if h : 0x400 ≤ off ∧ off < 0x400 + 16 * 192 then
    pwmReadChan s ⟨(off - 0x400) / 16, by omega⟩ ((off - 0x400) % 16)
  else none

/-- A write through PER at a block offset; none where no register is mapped. -/
def pwmWrite (off : Nat) (v : Word) (s : State) : Option State :=
  if off = 1 then some (pwmSetRes (bit v 0) s)
  else if off = 2 then some { s with pwm := { s.pwm with evt := s.pwm.evt &&& ~~~(low 8 (s.w1c .pwmEvt (sameCycle pclkPeriod s) v)) } }
  else if h : 0x40 ≤ off ∧ off < 0xC0 then some (tbWrite ⟨(off - 0x40) / 8, by omega⟩ ((off - 0x40) % 8) v s)
  else if h : 0xC0 ≤ off ∧ off < 0x140 then some (tzWrite ⟨(off - 0xC0) / 4, by omega⟩ ((off - 0xC0) % 4) v s)
  else if h : 0x400 ≤ off ∧ off < 0x400 + 16 * 192 then
    pwmWriteChan ⟨(off - 0x400) / 16, by omega⟩ ((off - 0x400) % 16) v s
  else (pwmRead s off).map fun _ => s

/-- A barge's window admits a channel (R294). -/
def pwmAdmits (s : State) (g : BargeIx) (world : Bool) (n : Fin 192) : Bool :=
  let c := s.pwm.ch.get n
  c.ownv && c.basin == (basinOf g).val && c.world == world

/-! ### The commands -/

/-- HRPWM_STG_WRITE (R280): through the window of a barge that owns the channel, or through PER. -/
def execHrpwmStgWrite (dt : Nat) (n : Fin 192) (src : StgWriter) (value : Word) (s : State) : Out :=
  act s dt fun s =>
    match src with
    | .window g w _ _ => if pwmAdmits s g w n then pwmStage n src value s else s
    | .bridge => pwmStage n src value s

/-- HRPWM_COMMIT (R281): an opening on its way from the Keeper reaches the array. -/
def execHrpwmCommit (dt : Nat) (disagree : List (Fin 192)) (s : State) : Out :=
  act s dt fun s =>
    match s.pwm.gates with
    | .opening g d a since :: rest => if !kclkOver s since then s else pwmCommit g d a since disagree { s with pwm := { s.pwm with gates := rest } }
    | _ => s

/-- TIMEBASE_ENABLE (R275): TB_CTL.EN is written. -/
def execTimebaseEnable (dt : Nat) (m : Fin 16) (en : Bool) (s : State) : Out := act s dt (tbSetEnable m en)

/-- PERIOD_BOUNDARY (R273). -/
def execPeriodBoundary (dt : Nat) (m : Fin 16) (s : State) : Out := act s dt (atBoundary m)

/-- ZXMISS_EXPIRY (R274). -/
def execZxmissExpiry (dt : Nat) (m : Fin 16) (s : State) : Out := act s dt (zxExpire m)

/-- HRPWM_CHANNEL_ENABLE (R278, R283, R288, R292): HRPWM_CFG.EN is written. -/
def execHrpwmChannelEnable (dt : Nat) (n : Fin 192) (en : Bool) (s : State) : Out := act s dt (pwmSetEnable n en)

/-- TRIP_ZONE_CHANGE (R285): a zone's sources are evaluated. -/
def execTripZoneChange (dt : Nat) (z : Fin 32) (s : State) : Out := act s dt (tripZoneEval z)

/-- TRIPCLR (R286): from the owner's window or through PER. -/
def execTripclr (dt : Nat) (n : Fin 192) (src : Writer) (s : State) : Out :=
  act s dt fun s =>
    match src with
    | .bridge => pwmTripClear n s
    | .barge g => if pwmAdmits s g (bit (s.barges.get g).psw 0) n then pwmTripClear n s else s

/-- HRPWM_READBACK_SAMPLE (R288). -/
def execHrpwmReadbackSample (dt : Nat) (n : Fin 192) (level : Bool) (s : State) : Out := act s dt (pwmReadback n level)

/-- HRPWM_CRST (R290). -/
def execHrpwmCrst (dt : Nat) (n : Fin 192) (s : State) : Out := act s dt (pwmReset n)

/-- RES_WRITE (R276). -/
def execResWrite (dt : Nat) (value : Bool) (s : State) : Out := act s dt (pwmSetRes value)

/-- CALIBRATION_LOCK (R276): the field PLL is locked and PCLK is not faulted. -/
def execCalibrationLock (dt : Nat) (s : State) : Out :=
  act s dt (gated (fun s => bit s.crp.locked 5 && !bit s.crp.clkbad 14) (watchReady fun s => { s with pwm := { s.pwm with calok := true } }))

end Sys2Proof.Machine
end

