-- ==== Sys2Proof/Machine/FieldIo.lean ====
section
/-! DEFINITION. Field inputs and outputs: stamps, debounce, pairs, staging and commit, readback, off-tests and registers
(R299 to R318). -/

namespace Sys2Proof.Machine

/-! ### Fields (R317, R318) -/

def FieldIn.en (c : FieldIn) : Bool := bit c.cfg 0
def FieldIn.inv (c : FieldIn) : Bool := bit c.cfg 1
def FieldIn.deb (c : FieldIn) : Nat := bitsN c.cfg 2 12
def FieldIn.pair (c : FieldIn) : Bool := bit c.cfg 14
def FieldIn.disc (c : FieldIn) : Nat := max 1 (bitsN c.cfg 15 8)
def FieldIn.zxe (c : FieldIn) : Nat := bitsN c.cfg 23 2
def FieldIn.frz (c : FieldIn) : Bool := bit c.cfg 25
def FieldIn.ftask (c : FieldIn) : BitVec 8 := fld c.cfg 26 8
def FieldIn.residue (c : FieldIn) : Nat := bitsN c.res 0 12
def FieldIn.basin (c : FieldIn) : Nat := bitsN c.res 12 4
def FieldIn.world (c : FieldIn) : Bool := bit c.res 16
def FieldIn.evten (c : FieldIn) : Bool := bit c.res 17
def FieldIn.evt (c : FieldIn) : Nat := bitsN c.res 18 3
def FieldIn.ownv (c : FieldIn) : Bool := bit c.res 21

def FieldOut.en (c : FieldOut) : Bool := bit c.cfg 0
def FieldOut.vital (c : FieldOut) : Bool := bit c.cfg 1
def FieldOut.group (c : FieldOut) : BitVec 6 := fld c.cfg 2 6
def FieldOut.safelvl (c : FieldOut) : Nat := bitsN c.cfg 8 2
def FieldOut.pol (c : FieldOut) : Bool := bit c.cfg 10
def FieldOut.rben (c : FieldOut) : Bool := bit c.cfg 11
def FieldOut.rbset (c : FieldOut) : Nat := max 1 (bitsN c.cfg 12 6)
def FieldOut.rbt (c : FieldOut) : Nat := min 900 (max 1 (bitsN c.cfg 18 10))
def FieldOut.ten (c : FieldOut) : Bool := bit c.test 0
def FieldOut.tint (c : FieldOut) : Nat := bitsN c.test 1 7
def FieldOut.tpulse (c : FieldOut) : Nat := bitsN c.test 8 9
def FieldOut.tofs (c : FieldOut) : Nat := bitsN c.test 17 10
def FieldOut.residue (c : FieldOut) : Nat := bitsN c.ores 0 12
def FieldOut.basin (c : FieldOut) : Nat := bitsN c.ores 12 4
def FieldOut.world (c : FieldOut) : Bool := bit c.ores 16
def FieldOut.ownv (c : FieldOut) : Bool := bit c.ores 17

/-! ### Inputs -/

/-- FI_CVAL (R301). -/
def FieldIn.cval (c : FieldIn) : Word := if c.en && !c.retired then codedBool c.lvl c.residue else poisonWord

/-- An input's event (R307). -/
def fiEvent (n : Fin 128) (s : State) : State :=
  let c := s.fio.fi.get n
  if !c.evten then s
  else
    let s1 := ({ s with fio := { s.fio with evt := s.fio.evt ||| BitVec.ofNat 8 (2 ^ c.evt) } }).mark .fioEvt c.evt
    match basinIx c.basin with
    | some b => s1.pendBasin b ⟨44 + c.evt % 8, by omega⟩
    | none => s1

/-- The even channel of a field input's pair, and its odd one. -/
def fiEven (n : Fin 128) : Fin 128 := ⟨2 * (n.val / 2), by omega⟩
def fiOdd (n : Fin 128) : Fin 128 := ⟨2 * (n.val / 2) + 1, by omega⟩

/-- Since when the pair's accepted levels have been equal (R305). -/
def fiPairWatch (n : Fin 128) (s : State) : State :=
  let a := s.fio.fi.get (fiEven n)
  let b := s.fio.fi.get (fiOdd n)
  let eq := a.pair && a.en && b.en && a.lvl == b.lvl
  s.modFi (fiEven n) fun c => { c with equalAt := if eq then some (c.equalAt.getD s.now) else none }

/-- The present PCLK. -/
def samePclk (s : State) (time : Nat) : Bool := sameCycle pclkPeriod s time

/-- FI_CVAL as it stood at the end of the PCLK before the present one (R302). -/
def cvalBefore (s : State) (c : FieldIn) : Word := if c.cvalAt.any (samePclk s) then c.cvalOld else c.cval

/-- An input changes, with what FI_CVAL was before the PCLK of the change. -/
def fiChange (n : Fin 128) (f : FieldIn → FieldIn) (s : State) : State :=
  s.modFi n fun c =>
    let c1 := f c
    if c1.cval = c.cval then c1 else { c1 with cvalAt := some s.now, cvalOld := cvalBefore s c }

/-- An accepted change of LVL is a zero-cross event (R303). -/
def fiZeroCross (c : FieldIn) (new : Bool) : Bool :=
  c.en && !c.retired && (c.zxe == 3 || (c.zxe == 1 && new) || (c.zxe == 2 && !new))

/-- The accepted level takes the raw one once it has held for DEB µs (R300, R303, R307). -/
def fiAcceptLevel (n : Fin 128) (s : State) : State :=
  let c := s.fio.fi.get n
  if c.en && c.raw != c.lvl && decide (c.rawAt + c.deb * microsecond ≤ s.now) then
    let s1 := (fiChange n (fun c => { c with lvl := c.raw, ts := c.rawTs, chg := true, edges := c.edges + 1 }) s).mark (.fieldIn n) 6
    let s2 := if fiZeroCross c c.raw then zeroCross n.val s1 else s1
    fiEvent n (fiPairWatch n s2)
  else s

/-- A raw level is seen (R299): a change of r is stamped less the two PCLK of the synchroniser. A level that has held for DEB µs
is accepted before it goes (R300). -/
def fiRaw (n : Fin 128) (pad : Bool) (s : State) : State :=
  let seen (s : State) : State := s.modFi n fun c => { c with pad := pad }
  let c := s.fio.fi.get n
  if c.en && (pad != c.inv) != c.raw then
    (seen (fiAcceptLevel n s)).modFi n fun c => { c with raw := pad != c.inv, rawAt := s.now, rawTs := low 36 (s.crp.stTime - 4) }
  else seen s

/-- A freeze of a task reaches the block (R302): the snapshot is FI_CVAL as the PCLK before left it. -/
def fiFreezeAll (t : BitVec 8) (s : State) : State :=
  { s with fio := { s.fio with
    freezes := dropFirst (· == t) s.fio.freezes
    fi := s.fio.fi.map fun c =>
      if c.frz && c.ftask == t then { c with snap := cvalBefore s c, snapseq := c.snapseq + 1 } else c } }

/-- An input retires (R306, R197, R307). -/
def fiRetire (n : Fin 128) (cause : Nat) (s : State) : State :=
  let c := s.fio.fi.get n
  if c.retired then s
  else
    let s1 := fiChange n (fun c => { c with retired := true, rcause := BitVec.ofNat 2 cause }) s
    fiEvent n (s1.reportRetired 5 n.val (BitVec.ofNat 8 cause) c.world)

/-- The levels of an antivalent pair have been equal for DISC ms (R305): both channels retire. -/
def fiDiscrepancy (m : Fin 64) (s : State) : State :=
  let e : Fin 128 := ⟨2 * m.val, by omega⟩
  let o : Fin 128 := ⟨2 * m.val + 1, by omega⟩
  let c := s.fio.fi.get e
  match c.equalAt with
  | some t => if t + c.disc * 1000 * microsecond ≤ s.now then fiRetire o 1 (fiRetire e 1 s) else s
  | none => s

/-- A channel reset of an input (R306). -/
def fiReset (n : Fin 128) (s : State) : State := fiChange n (fun c => { c with retired := false, rcause := 0 }) s

/-- An input's enable is accepted (R301, R305). -/
def fiEnableOk (s : State) (n : Fin 128) (en : Bool) : Bool :=
  let c := s.fio.fi.get n
  if en then c.residue ≤ 4092 && (!c.pair || (s.fio.fi.get (fiOdd n)).en)
  else !(n.val % 2 == 1 && (s.fio.fi.get (fiEven n)).en && (s.fio.fi.get (fiEven n)).pair)

/-- An input's enable or write is refused with CFGERR (R316). -/
def fiRefuse (n : Fin 128) (s : State) : State := (s.modFi n fun c => { c with cfgerr := true }).mark (.fieldIn n) 5

/-- A write of FI_CFG.EN (R301, R305). -/
def fiSetEnable (n : Fin 128) (en : Bool) (s : State) : State :=
  let c := s.fio.fi.get n
  if en = c.en then s
  else if fiEnableOk s n en then
    fiPairWatch n (fiChange n (fun c =>
      if en then { c with cfg := c.cfg ||| 1, raw := c.pad != c.inv, rawAt := s.now, rawTs := low 36 (s.crp.stTime - 4) }
      else { c with cfg := c.cfg &&& ~~~1 }) s)
  else fiRefuse n s

/-! ### Outputs -/

/-- The ball of FO_96 + i is claimed for the field output (R292, R311). -/
def foBallOk (s : State) (n : Fin 128) : Bool :=
  if h : 96 ≤ n.val then
    match s.fw.ballOwner.get ⟨n.val - 96, by omega⟩ with
    | some (_, _, fo) => fo
    | none => false
  else true

/-- The pad of an output (R311). -/
def foDrive (s : State) (n : Fin 128) : Drive :=
  let c := s.fio.fo.get n
  if !c.en ∨ !foBallOk s n then .z
  else if c.st ≠ 1 then levelDrive c.safelvl
  else if c.pulse.isSome then boolDrive c.pol
  else
    match c.appl with
    | some x => boolDrive (x != c.pol)
    | none => levelDrive c.safelvl

/-- A change that may move an output's driven level, which suspends its readback (R312). -/
def foWatch (n : Fin 128) (f : State → State) (s : State) : State :=
  let s1 := f s
  if foDrive s n = foDrive s1 n then s1 else s1.modFo n fun c => { c with driveAt := s.now }

/-- An output changes (R312). -/
def foChange (n : Fin 128) (f : FieldOut → FieldOut) (s : State) : State := foWatch n (fun s => s.modFo n f) s

/-- An output retires (R315, R197). -/
def foRetire (n : Fin 128) (cause : Nat) (s : State) : State :=
  let c := s.fio.fo.get n
  if c.st = 2 then s
  else
    (foChange n (fun c => { c with st := 2, rcause := BitVec.ofNat 2 cause, stg := none, pulse := none }) s).reportRetired
      6 n.val (BitVec.ofNat 8 cause) c.vital

/-- A value applies at the pad (R308, R309): x = 0 ends a test without a verdict (R314). -/
def foApply (n : Fin 128) (x : Bool) (s : State) : State :=
  foChange n (fun c => { c with appl := some x, st := 1, fresh := false, pulse := if x then c.pulse else none }) s

/-- An output's enable or write is refused with CFGERR (R308, R316). -/
def foRefuse (n : Fin 128) (s : State) : State := (s.modFo n fun c => { c with cfgerr := true }).mark (.fieldOut n) 4

/-- A write of FO_STG (R190, R308, R315). -/
def foStage (n : Fin 128) (src : StgWriter) (v : Word) (s : State) : State :=
  let c := s.fio.fo.get n
  if c.st = 2 ∨ fromRetired s src then s
  else if c.vital then
    match src with
    | .window _ _ d a => s.modFo n fun c => { c with stg := some { value := v, date := d, att := a } }
    | .bridge => foRefuse n s
  else if v = 0 ∨ v = 1 then (if c.en then foApply n (v == 1) s else s)
  else (s.modFo n fun c => { c with range := true }).mark (.fieldOut n) 5

/-- A commit without a value for an output at its safe level releases it to its committed value, if it has one since its enable
(R193, R195). -/
def foReleaseOne (n : Fin 128) (s : State) : State :=
  let c := s.fio.fo.get n
  match c.appl with
  | some x => if c.st = 0 && !c.fresh then foApply n x s else s
  | none => s

/-- One output's part in a commit (R309). -/
def foCommitOne (d : BitVec 32) (a : Bool) (disagree : List (Fin 128)) (n : Fin 128) (s : State) : State :=
  let c := s.fio.fo.get n
  match c.stg with
  | none => foReleaseOne n s
  | some x =>
    let s1 := s.modFo n fun c => { c with stg := none }
    if x.date = d ∧ x.att = a then
      match decodeCoded x.value c.residue with
      | .ok v => if (v = 0 ∨ v = 1) ∧ !disagree.contains n then foApply n (v == 1) s1 else foRetire n 1 s1
      | _ => foRetire n 1 s1
    else foReleaseOne n s1

/-- The lock gate of a group has opened (R309). -/
def foCommit (g : BitVec 6) (d : BitVec 32) (a : Bool) (disagree : List (Fin 128)) (s : State) : State :=
  (ixs 128 fun n => let c := s.fio.fo.get n; c.en && c.vital && c.group == g && c.st != 2).foldl
    (fun s n => foCommitOne d a disagree n s) s

/-- Staged values of a generation, or all of them, are cleared (R193, R195). -/
def foDiscard (g : BitVec 6) (gen : Option (BitVec 32 × Bool)) (s : State) : State :=
  { s with fio := { s.fio with fo := s.fio.fo.map fun c =>
    if c.vital && c.group == g && (match gen, c.stg with
      | some x, some y => y.date == x.1 && y.att == x.2
      | _, _ => gen.isNone) then { c with stg := none } else c } }

/-- The safe-level order (R310, R314). -/
def foSafe (g : Option (BitVec 6)) (s : State) : State :=
  (ixs 128 fun n =>
    let c := s.fio.fo.get n
    c.vital && c.st != 2 && (match g with
      | some x => c.group == x
      | none => true)).foldl (fun s n => foChange n (fun c => { c with st := 0, pulse := none }) s) s

/-- A readback sample (R312), one in each microsecond: suspended after a change of driven level, in a test, and at high
impedance. -/
def foReadback (n : Fin 128) (level : Bool) (s : State) : State :=
  let c := s.fio.fo.get n
  let s0 := s.modFo n fun c => { c with pad := level, sampledAt := some (s.now / microsecond) }
  if c.sampledAt = some (s.now / microsecond) then s
  else if !c.en ∨ !c.rben ∨ c.st = 2 ∨ c.pulse.isSome ∨ s.now < c.driveAt + c.rbset * microsecond then s0
  else
    match foDrive s n with
    | .z => s0
    | d =>
      if boolDrive level = d then s0.modFo n fun c => { c with miss := 0 }
      else
        let s1 := s0.modFo n fun c => { c with miss := c.miss + 1 }
        if c.rbt ≤ c.miss.toNat + 1 then foRetire n 2 s1 else s1

/-- The time of off-test k (R313). -/
def foTestAt (c : FieldOut) (k : Nat) : Nat := c.schedAt + c.tofs * 10 * microsecond + k * c.tint * 1000 * microsecond

/-- The next off-test's time has come (R313): it starts on a live channel with applied x = 1, and is skipped otherwise. -/
def foTestStart (n : Fin 128) (s : State) : State :=
  let c := s.fio.fo.get n
  if !c.en ∨ !c.ten ∨ c.pulse.isSome ∨ s.now < foTestAt c c.nextTest then s
  else
    let run := c.st == 1 && c.appl == some true
    foChange n (fun c => { c with nextTest := c.nextTest + 1, pulse := if run then some s.now else none }) s

/-- The last PCLK of an off-test pulse (R313): the sample decides. -/
def foTestEnd (n : Fin 128) (level : Bool) (s : State) : State :=
  let c := s.fio.fo.get n
  match c.pulse with
  | some t =>
    if s.now + pclkPeriod < t + c.tpulse * microsecond then s
    else
      let s1 := s.modFo n fun c => { c with pad := level }
      if level = c.pol then foChange n (fun c => { c with pulse := none, tests := c.tests + 1 }) s1 else foRetire n 3 s1
  | none => s

/-- A channel reset of an output (R315): the test schedule restarts. -/
def foReset (n : Fin 128) (s : State) : State :=
  foChange n (fun c => { c with
    st := if c.st = 2 then 0 else c.st, fresh := c.fresh || c.st == 2, rcause := 0, miss := 0, pulse := none, schedAt := s.now, nextTest := 0 }) s

/-- An output's enable is accepted (R308, R313, R318). -/
def foEnableOk (n : Fin 128) (c : FieldOut) : Bool :=
  (!c.vital || (n.val < 64 && c.rben && c.ten)) && c.residue ≤ 4092 &&
  1 ≤ c.tint && c.tint ≤ 100 && 50 ≤ c.tpulse && c.tpulse ≤ 500 && c.tpulse * 2 ≤ c.tint * 1000

/-- A write of FO_CFG.EN (R310, R313). -/
def foSetEnable (n : Fin 128) (en : Bool) (s : State) : State :=
  let c := s.fio.fo.get n
  if en = c.en then s
  else if !en then foChange n (fun c => { c with cfg := c.cfg &&& ~~~1, pulse := none, st := if c.st = 2 then 2 else 0 }) s
  else if foEnableOk n c then
    foChange n (fun c => { c with
      cfg := c.cfg ||| 1, st := if c.st = 2 then 2 else 0, fresh := true, schedAt := s.now, nextTest := 0, miss := 0, pulse := none }) s
  else foRefuse n s

/-! ### Registers (R316 to R318) -/

/-- Input word k as read, FI_CVAL as it stood before an event of the read's PCLK (R6, R302); none where it is unmapped. -/
def fiReadChan (s : State) (n : Fin 128) (k : Nat) : Option Word :=
  let c := s.fio.fi.get n
  match k with
  | 0 => some (cvalBefore s c)
  | 1 => some (if c.frz then c.snap else poisonWord)
  | 2 => some c.ts
  | 3 =>
    some (bit36 0 c.lvl ||| bit36 1 c.raw ||| bit36 2 c.retired ||| put36 3 c.rcause ||| bit36 5 c.cfgerr |||
      bit36 6 c.chg ||| put36 7 c.snapseq ||| put36 15 c.edges)
  | 4 => some (c.cfg.setWidth 36)
  | 5 => some (c.res.setWidth 36)
  | 6 => some 0
  | _ => none

/-- A write of input word k through PER; none where it is unmapped. -/
def fiWriteChan (n : Fin 128) (k : Nat) (v : Word) (s : State) : Option State :=
  let c := s.fio.fi.get n
  match k with
  | 3 =>
    let m := s.w1c (.fieldIn n) (samePclk s) v
    some (s.modFi n fun c => { c with cfgerr := c.cfgerr && !bit m 5, chg := c.chg && !bit m 6 })
  | 4 =>
    let v := if n.val % 2 = 1 then v &&& ~~~(bit36 14 true) else v
    let v := v &&& mask36 0 34
    let s1 :=
      if c.en then if (v ^^^ c.cfg.setWidth 36) &&& ~~~1 != 0 then fiRefuse n s else s
      else s.modFi n fun c => { c with cfg := low 34 (v &&& ~~~1) }
    some (fiSetEnable n (bit v 0) s1)
  | 5 => some (if c.en then fiRefuse n s else s.modFi n fun c => { c with res := low 22 v })
  | 6 =>
    let s1 := if bit v 0 then fiReset n s else s
    some (if bit v 1 then fiRetire n 2 s1 else s1)
  | k => if k < 3 then some s else none

/-- Output word k as read (R318). -/
def foReadChan (s : State) (n : Fin 128) (k : Nat) : Word :=
  let c := s.fio.fo.get n
  match k with
  | 1 =>
    match c.stg with
    | some x => put36 0 x.date ||| bit36 32 x.att ||| bit36 33 true
    | none => 0
  | 2 => bit36 0 (c.appl.getD false) ||| bit36 1 c.appl.isSome ||| bit36 2 c.pad ||| bit36 3 c.pulse.isSome
  | 3 => put36 0 c.st ||| put36 2 c.rcause ||| bit36 4 c.cfgerr ||| bit36 5 c.range ||| put36 6 c.tests
  | 4 => c.cfg.setWidth 36
  | 5 => c.test.setWidth 36
  | 6 => c.ores.setWidth 36
  | _ => 0

/-- A write of output word k through PER (R316, R318). -/
def foWriteChan (n : Fin 128) (k : Nat) (v : Word) (s : State) : State :=
  let c := s.fio.fo.get n
  match k with
  | 0 => foStage n .bridge v s
  | 3 =>
    let m := s.w1c (.fieldOut n) (samePclk s) v
    s.modFo n fun c => { c with cfgerr := c.cfgerr && !bit m 4, range := c.range && !bit m 5 }
  | 4 =>
    let v := v &&& mask36 0 28
    let s1 :=
      if c.en then if (v ^^^ c.cfg.setWidth 36) &&& ~~~1 != 0 then foRefuse n s else s
      else s.modFo n fun c => { c with cfg := low 28 (v &&& ~~~1) }
    foSetEnable n (bit v 0) s1
  | 5 =>
    if c.en then foRefuse n s else s.modFo n fun c => { c with test := if 64 ≤ n.val then low 27 v &&& ~~~1 else low 27 v }
  | 6 => if c.en then foRefuse n s else s.modFo n fun c => { c with ores := low 18 v }
  | 7 => if bit v 0 then foReset n s else s
  | _ => s

/-- A read through PER at a block offset; none where no register is mapped. -/
def fioRead (s : State) (off : Nat) : Option Word :=
  if off = 0 then some 0x17240
  else if off = 1 then some (s.fio.evt.setWidth 36)
  else if 0x10 ≤ off ∧ off < 0x14 then
    some ((List.range 36).foldl (fun w j =>
      w ||| bit36 j (vgetN (s.fio.fi.map fun c => c.retired) (36 * (off - 0x10) + j) false)) 0)
  else if 0x14 ≤ off ∧ off < 0x18 then
    some ((List.range 36).foldl (fun w j =>
      w ||| bit36 j (vgetN (s.fio.fo.map fun c => c.st == 2) (36 * (off - 0x14) + j) false)) 0)
  else if h : 0x100 ≤ off ∧ off < 0x500 then fiReadChan s ⟨(off - 0x100) / 8, by omega⟩ ((off - 0x100) % 8)
  else if h : 0x500 ≤ off ∧ off < 0x900 then some (foReadChan s ⟨(off - 0x500) / 8, by omega⟩ ((off - 0x500) % 8))
  else none

/-- A write through PER at a block offset; none where no register is mapped. -/
def fioWrite (off : Nat) (v : Word) (s : State) : Option State :=
  if off = 1 then some { s with fio := { s.fio with evt := s.fio.evt &&& ~~~(low 8 (s.w1c .fioEvt (samePclk s) v)) } }
  else if h : 0x100 ≤ off ∧ off < 0x500 then fiWriteChan ⟨(off - 0x100) / 8, by omega⟩ ((off - 0x100) % 8) v s
  else if h : 0x500 ≤ off ∧ off < 0x900 then some (foWriteChan ⟨(off - 0x500) / 8, by omega⟩ ((off - 0x500) % 8) v s)
  else (fioRead s off).map fun _ => s

/-- A barge's window admits an input or an output (R316). -/
def fiAdmits (s : State) (g : BargeIx) (world : Bool) (n : Fin 128) : Bool :=
  let c := s.fio.fi.get n
  c.ownv && c.basin == (basinOf g).val && c.world == world
def foAdmits (s : State) (g : BargeIx) (world : Bool) (n : Fin 128) : Bool :=
  let c := s.fio.fo.get n
  c.ownv && c.basin == (basinOf g).val && c.world == world

/-! ### The commands -/

/-- FO_STG_WRITE (R308). -/
def execFoStgWrite (dt : Nat) (n : Fin 128) (src : StgWriter) (value : Word) (s : State) : Out :=
  act s dt fun s =>
    match src with
    | .window g w _ _ => if foAdmits s g w n then foStage n src value s else s
    | .bridge => foStage n src value s

/-- FO_COMMIT (R309). -/
def execFoCommit (dt : Nat) (disagree : List (Fin 128)) (s : State) : Out :=
  act s dt fun s =>
    match s.fio.gates with
    | .opening g d a since :: rest => if !kclkOver s since then s else foCommit g d a disagree { s with fio := { s.fio with gates := rest } }
    | _ => s

/-- FI_RAW_CHANGE (R299). -/
def execFiRawChange (dt : Nat) (n : Fin 128) (pad : Bool) (s : State) : Out := act s dt (watchTrips (fiRaw n pad))

/-- FI_ACCEPT (R300). -/
def execFiAccept (dt : Nat) (n : Fin 128) (s : State) : Out := act s dt (fiAcceptLevel n)

/-- FI_FREEZE (R302). -/
def execFiFreeze (dt : Nat) (task : Fin 256) (s : State) : Out :=
  act s dt (gated (fun s => s.fio.freezes.contains (BitVec.ofNat 8 task.val)) (fiFreezeAll (BitVec.ofNat 8 task.val)))

/-- PAIR_DISCREPANCY (R305). -/
def execPairDiscrepancy (dt : Nat) (m : Fin 64) (s : State) : Out := act s dt (watchTrips (fiDiscrepancy m))

/-- FRET (R306). -/
def execFret (dt : Nat) (n : Fin 128) (s : State) : Out := act s dt (watchTrips (fiRetire n 2))

/-- FI_CRST (R306). -/
def execFiCrst (dt : Nat) (n : Fin 128) (s : State) : Out := act s dt (watchTrips (fiReset n))

/-- FI_ENABLE (R301, R305): FI_CFG.EN is written. -/
def execFiEnable (dt : Nat) (n : Fin 128) (en : Bool) (s : State) : Out := act s dt (watchTrips (fiSetEnable n en))

/-- FO_ENABLE (R308, R313): FO_CFG.EN is written. -/
def execFoEnable (dt : Nat) (n : Fin 128) (en : Bool) (s : State) : Out := act s dt (foSetEnable n en)

/-- FO_READBACK_SAMPLE (R312). -/
def execFoReadbackSample (dt : Nat) (n : Fin 128) (level : Bool) (s : State) : Out := act s dt (foReadback n level)

/-- OFF_TEST_START (R313). -/
def execOffTestStart (dt : Nat) (n : Fin 64) (s : State) : Out := act s dt (foTestStart ⟨n.val, by omega⟩)

/-- OFF_TEST_END (R313). -/
def execOffTestEnd (dt : Nat) (n : Fin 64) (level : Bool) (s : State) : Out := act s dt (foTestEnd ⟨n.val, by omega⟩ level)

/-- FO_CRST (R315). -/
def execFoCrst (dt : Nat) (n : Fin 128) (s : State) : Out := act s dt (foReset n)

end Sys2Proof.Machine
end

