-- ==== Sys2Proof/Machine/Wharf.lean ====
section
/-! DEFINITION. The Wharf (chapter 9) up to its targets' memories: transactions, decoding and decode errors, acceptance, the
tender, responses; the basin target ports, the Reservoir and the Harbourmaster SRAM as targets; the scrubbers (R221) and the
eNVM programming channels (R229). -/

namespace Sys2Proof.Machine

/-! ### Transactions (R234, R237) -/

/-- The first nonet of a transaction, and one past its last (R237). -/
def txLo (t : Tx) : Nat := match t.size with
  | .row _ => t.addr.toNat / 32 * 32
  | _ => t.addr.toNat
def txLen (t : Tx) : Nat := match t.size with
  | .nonet => 1
  | .half => 2
  | .word => 4
  | .row _ => 32
  | .burst k => 32 * k

/-- A nonet of the transaction is enabled (R237). -/
def txEnabled (t : Tx) (i : Nat) : Bool := match t.size with
  | .row e => bit e i
  | _ => true

/-- The nonets of a transaction, by their place from its first (R237). -/
def txPlaces (t : Tx) : List Nat := (List.range (txLen t)).filter (txEnabled t)

/-- The nonets that a write carries, at offsets from a base address. -/
def txWrites (t : Tx) (base : Nat) : List (Nat × Nonet) :=
  (txPlaces t).map fun i => (base + i, fld (t.data.getD (i / 4) 0) (9 * (i % 4)) 9)

/-- What a read returns, as words from the nonets of the span; a nonet or half is zero-extended (R68, R242). -/
def readWords (t : Tx) (nonet : Nat → Nonet) : List Word :=
  let at' (i : Nat) : Nat := if i < (txLen t) ∧ (txEnabled t) i then (nonet i).toNat else 0
  (List.range (((txLen t) + 3) / 4)).map fun j =>
    BitVec.ofNat 36 (at' (4 * j) + 512 * at' (4 * j + 1) + 262144 * at' (4 * j + 2) + 134217728 * at' (4 * j + 3))

/-- The target of an address, and the first and one past the last address of its range (R234). -/
def decodeTarget (a : Nat) : Option (Fin 20 × Nat × Nat) :=
  if h : 0x01000000 ≤ a ∧ a < 0x01C00000 then
    let n := (a - 0x01000000) / 0x100000
    some (⟨n % 20, Nat.mod_lt _ (by decide)⟩, 0x01000000 + n * 0x100000, 0x01100000 + n * 0x100000)
  else if 0x10000000 ≤ a ∧ a < 0x10400000 then
    let p := (a - 0x10000000) / 0x100000
    some (⟨(12 + p) % 20, Nat.mod_lt _ (by decide)⟩, 0x10000000 + p * 0x100000, 0x10100000 + p * 0x100000)
  else if 0x11000000 ≤ a ∧ a < 0x11080000 then some (16, 0x11000000, 0x11080000)
  else if 0x20000000 ≤ a ∧ a < 0x21000000 then some (17, 0x20000000, 0x21000000)
  else if 0x21000000 ≤ a ∧ a < 0x21000200 then some (18, 0x21000000, 0x21000200)
  else if 0x80000000 ≤ a ∧ a < 0x100000000 then some (19, 0x80000000, 0x100000000)
  else none

/-- An address of the clock, reset and power block (R235). -/
def inCrp (a : Nat) : Bool := 0x20070000 ≤ a && a < 0x20080000

/-- An initiator may reach a target (R236), and DEBUG under R407 and R351. -/
def permitted (s : State) (init : Fin 16) (target : Fin 20) (t : Tx) : Bool :=
  let i := init.val
  let g := target.val
  (if g < 16 then true
   else if g = 16 then i == 12 || i == 13 || i == 15
   else if g = 17 then i == 12 || i == 15
   else if g = 18 then i == 12
   else i ≤ 12) &&
    (i != 15 || (debugAllowed s && !(t.write && inCrp t.addr.toNat && s.sec.loaded.life != 0)))

/-- A target accepts a size (R237, R366), aligned to it. -/
def sizeAccepted (init : Fin 16) (target : Fin 20) (t : Tx) : Bool :=
  match t.size with
  | .nonet => target.val < 17
  | .half => target.val < 17 && t.addr.toNat % 2 == 0
  | .word => t.addr.toNat % 4 == 0
  | .row _ => target.val < 17 || target == 19
  | .burst k => (target.val < 17 || target == 19) && 12 ≤ init.val && 2 ≤ k && k ≤ 16 && t.addr.toNat % 32 == 0

/-- The decode error that the Wharf answers itself, with its reason (R243), or the target; of several reasons the lowest
is given (log entry 106). -/
def decodeTx (s : State) (init : Fin 16) (t : Tx) : Nat ⊕ Fin 20 :=
  match decodeTarget t.addr.toNat with
  | none => .inl 1
  | some (g, _, last) =>
    if !permitted s init g t then .inl 2
    else if last < (txLo t) + (txLen t) then .inl 3
    else if !sizeAccepted init g t then .inl 4
    else .inr g

/-- WHARF_DECERR_INFO (R248). -/
def decerrInfo (init : Fin 16) (t : Tx) (reason : Nat) : BitVec 14 :=
  BitVec.ofNat 14 (init.val + 16 * t.id.toNat + 512 * t.write.toNat + 1024 * reason + 8192 * (decide (init.val < 12) && t.world).toNat)

/-- The XCLK of a device time, counted from device time 0, and the present one. -/
def xclkAt (s : State) (time : Nat) : Nat := time / xclkPeriod s
def xclk (s : State) : Nat := xclkAt s s.now

/-- A decode error is recorded (R243): of several in one XCLK, that of the lowest initiator index; `irq`: it asserts the
Harbourmaster's Wharf interrupt, which the model holds from then on (log entry 107). -/
def noteDecerr (irq : Bool) (init : Fin 16) (t : Tx) (reason : Nat) (s : State) : State :=
  let w := s.wharf
  let later := w.decAt == some (xclk s) && decide (bitsN w.decInfo 0 4 < init.val)
  let w1 := { w with
    decCnt := if w.cnten then w.decCnt + 1 else w.decCnt, intDecerr := true, hmInt := w.hmInt || irq }
  let w2 := if later then w1 else { w1 with decAddr := t.addr, decInfo := decerrInfo init t reason, decAt := some (xclk s) }
  let s1 := ({ s with wharf := w2 }).mark .wharfInt 0
  if irq then s1.notify (.decerr t.addr (decerrInfo init t reason)) else s1

/-- A REFUSED status is recorded (R243). -/
def noteRefused (irq : Bool) (s : State) : State :=
  let w := s.wharf
  ({ s with wharf := { w with
    refCnt := if w.cnten then w.refCnt + 1 else w.refCnt, intRefuse := true, hmInt := w.hmInt || irq } }).mark .wharfInt 1

/-! ### Acceptance and responses (R238, R241, R242) -/

/-- An initiator's QoS register as a transaction accepted now has it: a write takes effect from the next XCLK (R248). -/
def qosReg (s : State) (init : Fin 16) : BitVec 8 :=
  match s.wharf.qosWas.get init with
  | some (k, q) => if k = xclk s then q else s.wharf.qos.get init
  | none => s.wharf.qos.get init

/-- WHARF_INTEN as a transaction accepted now has it (R248). -/
def intenReg (s : State) : Bool × Bool :=
  match s.wharf.enWas with
  | some (k, e) => if k = xclk s then e else (s.wharf.enDecerr, s.wharf.enRefuse)
  | none => (s.wharf.enDecerr, s.wharf.enRefuse)

/-- The window of a PCIO address (R366). -/
def pcioWindow (a : Nat) : Fin 8 := ⟨(a - 0x80000000) / 0x10000000 % 8, Nat.mod_lt _ (by decide)⟩

/-- The QoS of a transaction (R238). -/
def qosOf (s : State) (init : Fin 16) (world : Bool) : Nat :=
  let q := qosReg s init
  if init = 12 then 15
  else min 14 (if init.val < 12 ∧ !world then bitsN q 4 4 else bitsN q 0 4)

/-- A response goes on its way to its initiator; where that was reset meanwhile, it is discarded and its place is free (R242,
R247). -/
def respond (r : WharfReq) (status : TxStatus) (data : List Word) (s : State) : State :=
  let s1 := match status with
    | .refused => noteRefused r.irq.2 s
    | _ => s
  if r.drop then { s1 with wharf := { s1.wharf with cur := vmod s1.wharf.cur r.init (· - 1) } }
  else { s1 with wharf := { s1.wharf with resps := s1.wharf.resps ++
    [{ init := r.init, id := r.tx.id, write := r.tx.write, status := status, data := data, seq := r.seq, load := r.load }] } }

/-- A decode error answered to its initiator (R242, R243). -/
def respondDecerr (r : WharfReq) (reason : Nat) (s : State) : State := respond r .decerr [] (noteDecerr r.irq.1 r.init r.tx reason s)

/-- A counted event enters its counters (R248). -/
def Wharf.count (w : Wharf) : CountEvent → Wharf
  | .grant g wait =>
    { w with
      tgrant := vmod w.tgrant g (· + 1)
      twait := vmod w.twait g (· + BitVec.ofNat 36 wait)
      tmaxw := vmod w.tmaxw g fun m => if m.toNat < wait then BitVec.ofNat 16 (min 65535 wait) else m }
  | .outstanding i cur => if w.maxOut.get i < cur then { w with maxOut := vput w.maxOut i cur } else w

/-- An event of XCLK k is counted while CNTEN = 1, and kept for a clear in the same XCLK (R248). -/
def Wharf.countAt (w : Wharf) (k : Nat) (e : CountEvent) : Wharf :=
  if w.cnten then { w.count e with recent := (k, e) :: w.recent.filter fun x => x.1 == k } else w

/-- The XCLK of a hold that ISTALL has yet to count, in XCLK k (R248). -/
def stallDue (w : Wharf) (k : Nat) (i : Fin 16) : Nat :=
  match w.stallSince.get i with
  | some a => if w.cnten then k - a else 0
  | none => 0

/-- A transaction is accepted at its initiator port: decoded, and answered or sent to its target, where it is presented from
XCLK `since` on (R237, R241, R243). -/
def acceptTx (init : Fin 16) (t : Tx) (load since : Nat) (s : State) : State :=
  let w := s.wharf
  let cur := w.cur.get init + 1
  let w1 : Wharf := { w with
    cur := vput w.cur init cur
    istall := vmod w.istall init fun c => c + BitVec.ofNat 36 (stallDue w (xclk s) init)
    stallSince := vput w.stallSince init none
    seq := w.seq + 1 }
  let s1 := { s with wharf := w1.countAt (xclk s) (.outstanding init cur) }
  let r (g : Fin 20) : WharfReq :=
    { init := init, target := g, tx := t, qos := qosOf s init t.world, since := since, seq := w.seq, load := load
      irq := intenReg s, win := s.ferry.win.get (pcioWindow t.addr.toNat) }
  match decodeTx s init t with
  | .inl reason => respondDecerr (r 0) reason s1
  | .inr g => { s1 with wharf := { s1.wharf with reqs := s1.wharf.reqs ++ [r g] } }

/-- An initiator with 32 transactions outstanding holds its next one back (R241). -/
def portFull (s : State) (init : Fin 16) : Bool := 32 ≤ s.wharf.cur.get init

/-- The hold is noted, to be counted (R248). -/
def noteStall (init : Fin 16) (s : State) : State :=
  { s with wharf := { s.wharf with stallSince := vmod s.wharf.stallSince init fun a => a.orElse fun _ => some (xclk s) } }

/-- A tender's XLU transaction as the Wharf carries it (R68, R241). -/
def tenderTx (p : Fin 4) (o : XluOp) : Tx :=
  { addr := o.addr, write := o.write, size := o.size, id := BitVec.ofNat 5 p.val, world := o.world, data := [o.data] }

/-- The position whose request the tender presents (R241): the highest QoS, then the first above the last in turn. -/
def tenderPick (s : State) (n : BasinIx) : Option (Fin 4 × XluOp) :=
  let x := s.basins.get n
  let first (p : Fin 4) : Option (Fin 4 × XluOp) := x.tender.find? fun t => t.1 == p
  let order := (List.range 4).map fun i => (⟨(x.tenderRr.val + 1 + i) % 4, Nat.mod_lt _ (by decide)⟩ : Fin 4)
  order.foldl (fun best p =>
    match first p, best with
    | some t, some b => if qosOf s ⟨n.val, by omega⟩ b.2.world < qosOf s ⟨n.val, by omega⟩ t.2.world then some t else some b
    | some t, none => some t
    | none, _ => best) none

/-- An initiator port accepts (R237, R241): a basin's from its tender, one in each XCLK, another's the transaction it presents.
A target considers it from the next XCLK on (R239). -/
def portAccept (init : Fin 16) (t : Tx) (s : State) : State :=
  if h : init.val < 12 then
    let n : BasinIx := ⟨init.val, h⟩
    match tenderPick s n with
    | some (p, o) =>
      if portFull s init then noteStall init s
      else if (s.basins.get n).tenderAt = some (xclk s) then s
      else
        acceptTx init (tenderTx p o) o.load (xclk s + 1) (s.modBasin n fun x =>
          { x with tender := dropFirst (fun q => q.1 == p) x.tender, tenderRr := p, tenderAt := some (xclk s) })
    | none => s
  else if portFull s init then noteStall init s
  else acceptTx init t 0 (xclk s + 1) s

/-- The DBGACC access that waits is accepted once port DEBUG has a place, and else is held back (R241, R409). -/
def debugPresent (s : State) : State :=
  match s.sec.dbgWait with
  | some t => if portFull s 15 then noteStall 15 s else portAccept 15 t { s with sec := { s.sec with dbgWait := none } }
  | none => s

/-- A response reaches its initiator and frees its place (R241, R242): a barge's XLU, or the JTAG access register. -/
def portResponse (init : Fin 16) (id : BitVec 5) (s : State) : State :=
  match s.wharf.resps.find? fun r => r.init == init && r.id == id with
  | none => s
  | some r =>
    let w := s.wharf
    let s1 := { s with wharf := { w with
      resps := dropFirst (fun r => r.init == init && r.id == id) w.resps, cur := vmod w.cur init (· - 1) } }
    if h : init.val < 12 then
      s1.modBarge (bargeOf ⟨init.val, h⟩ ⟨id.toNat % 4, Nat.mod_lt _ (by decide)⟩) fun b =>
        { b with xluResps := b.xluResps ++ [{ write := r.write, load := r.load, data := r.data.headD 0, ok := r.status == .ok }] }
    else if init = 15 then
      let st : BitVec 2 := match r.status with
        | .ok => 0
        | .decerr => 1
        | .refused => 2
      debugPresent (if s1.sec.dbgWait.isSome then s1
        else { s1 with sec := { s1.sec with jtagStatus := st, jtagData := if r.write then s1.sec.jtagData else r.data.headD 0 } })
    else s1

/-! ### Selection at a target (R239, R240) -/

/-- Earlier transactions of the same initiator, ID and target go first (R240). -/
def sameOrder (a b : WharfReq) : Bool := a.init == b.init && a.tx.id == b.tx.id && a.target == b.target

/-- A transaction waits behind an earlier one of its initiator, ID and target that its target has taken and not answered
(R240): at a basin's target port, at PER a write of BANK_OWN whose handover goes on (R214), or at PCIO a read. -/
def behindTaken (s : State) (r : WharfReq) : Bool :=
  if h : r.target.val < 12 then
    (s.basins.get ⟨r.target.val, h⟩).tport.any fun q => sameOrder q r && decide (q.seq < r.seq)
  else if r.target = 17 then s.basins.toList.any fun x => x.hoAcks.any fun a => sameOrder a.2 r && decide (a.2.seq < r.seq)
  else s.wharf.pcio.any fun q => !q.req.tx.write && sameOrder q.req r

/-- A target has a place for a transaction: a basin's target port for its bank (R214, R239), PCIO for a read among 64 outstanding
(R352). -/
def placeFree (s : State) (r : WharfReq) : Bool :=
  if h : r.target.val < 12 then
    decide (((s.basins.get ⟨r.target.val, h⟩).tport.filter fun q => reqBank q == reqBank r).length < 8)
  else r.target != 19 || r.tx.write || decide ((s.wharf.pcio.filter fun q => !q.req.tx.write).length < 64)

/-- The Reservoir bank of a transaction, taken by its scrubber in XCLK k (R230). -/
def rvTaken (s : State) (r : WharfReq) (k : Nat) : Bool :=
  12 ≤ r.target.val && r.target.val < 16 && (s.rv.banks.get ⟨r.tx.addr.toNat / 262144 % 16, Nat.mod_lt _ (by decide)⟩).portBAt == some k

/-- The QoS with which a request competes: the highest of those that wait behind it (R240). -/
def heldQos (s : State) (r : WharfReq) : Nat :=
  (s.wharf.reqs.filter fun q => sameOrder q r).foldl (fun m q => max m q.qos) r.qos

/-- The requests that a target considers in XCLK k (R239, R240). -/
def considered (s : State) (g : Fin 20) (k : Nat) : List WharfReq :=
  s.wharf.reqs.filter fun r =>
    r.target == g && decide (r.since ≤ k) && placeFree s r && !(s.wharf.reqs.any fun q => sameOrder q r && decide (q.seq < r.seq)) &&
      !(decide (17 ≤ r.target.val) && behindTaken s r) && !rvTaken s r k

/-- How far an initiator stands above the round-robin pointer (R239). -/
def rrDistance (ptr init : Fin 16) : Nat := (init.val + 15 - ptr.val) % 16

/-- The request that a target grants in XCLK k (R239): none while it is held by an earlier one; the highest QoS, then the first
index above the pointer. -/
def grantPick (s : State) (g : Fin 20) (k : Nat) : Option WharfReq :=
  if k < s.wharf.busyTill.get g then none
  else (considered s g k).foldl (fun best r =>
    match best with
    | none => some r
    | some b =>
      let d := rrDistance (s.wharf.rr.get g)
      if heldQos s b < heldQos s r ∨ (heldQos s r = heldQos s b ∧ d r.init < d b.init) then some r else some b) none

/-- A grant in XCLK k: the pointer, the hold of the target for the transaction's beats, and the counters (R239, R248). -/
def noteGrant (r : WharfReq) (k : Nat) (s : State) : State :=
  let w := s.wharf
  let g := r.target
  let w1 := { w with
    rr := vput w.rr g r.init, busyTill := vput w.busyTill g (k + txBeats r.tx), reqs := w.reqs.filter fun q => q.seq != r.seq }
  { s with wharf := w1.countAt k (.grant g (k - r.since)) }

/-! ### Memory targets (R210 to R214, R220, R230, R242) -/

/-- The words that a list of nonets touches. -/
def touched (ws : List Nat) : List Nat := (ws.map (· / 4)).dedup

/-- A refused access at a basin's target port (R212). -/
def refuseBasin (n : BasinIx) (r : WharfReq) (s : State) : State :=
  let c := bclkCount s n
  respond r .refused [] (s.modBasin n fun x =>
    { (x.counted c 0x1F x.refCnt).counted c 0x1E x.refReg with refAddr := low 20 r.tx.addr, refWr := r.tx.write, refCnt := x.refCnt + 1 })

/-- The basin-local nonets of a transaction. -/
def localNonets (r : WharfReq) : List Nat := (txPlaces r.tx).map fun i => (txLo r.tx) % 0x100000 + i

/-- A transaction is admitted by the ownership of every bank it touches, and touches no emergency slot (R125, R212). -/
def basinAdmits (s : State) (n : BasinIx) (r : WharfReq) : Bool :=
  let x := s.basins.get n
  (localNonets r).all fun a => !inEmergency a && targetAdmitted (x.banks.get (bankOf a)).own r.tx.write

/-- The present access of a transaction lies at a nonet: a burst makes one access per beat (R210, R237). -/
def inBeat (r : WharfReq) (a : Nat) : Bool := txBeats r.tx == 1 || a / 32 % 32768 == (r.tx.addr.toNat / 32 + r.beat) % 32768

/-- One access of an admitted transaction is made in its basin (R210, R211, R220): the transaction with what it has read, and
the state. -/
def beatBasin (n : BasinIx) (r : WharfReq) (s : State) : WharfReq × State :=
  let quay := decide (14 ≤ (reqBank r).val)
  let c := bclkCount s n
  let m := if quay then (s.basins.get n).seenBy true c else (s.basins.get n).mem
  let base := (txLo r.tx) % 0x100000
  let next : WharfReq := { r with beat := r.beat + 1 }
  if r.tx.write then
    let ws := (txWrites r.tx base).filter fun w => inBeat r w.1
    let part := partialWords ws
    let s1 := noteErrorsIn n srcTarget m s part
    if part.any m.isUe then ({ next with bad := true }, s1) else (next, s1.modBasin n fun x => x.writeBy quay c ws)
  else
    let words := touched ((localNonets r).filter (inBeat r))
    let all := readWords r.tx fun i => m.nonet (base + i)
    ({ next with bad := r.bad || words.any m.isUe, got := r.got ++ if txBeats r.tx = 1 then all else (all.drop (8 * r.beat)).take 8 },
      noteErrorsIn n srcTarget m s words)

/-- A transaction whose accesses have all been made is answered (R220, R242). -/
def endBasin (n : BasinIx) (r : WharfReq) (s : State) : State :=
  if r.bad then refuseBasin n r s else respond r .ok (if r.tx.write then [] else r.got) s

/-- The target port asks for a bank in the present BCLK: on port A under R216, on port B of a quay bank under R219. -/
def askTarget (s : State) (n : BasinIx) (b : BankIx) (rivals : List Rival) : Bool × State :=
  if b.val < 14 then askBank s n b 4 rivals else askPortB s n b .target

/-- A transaction that the target port holds is refused, or its next access is made where its bank is granted (R214, R216). -/
def tryHeld (n : BasinIx) (rivals : List Rival) (s : State) (r : WharfReq) : State :=
  let without (s : State) : State := s.modBasin n fun x => { x with tport := x.tport.filter fun q => q.seq != r.seq }
  if r.refuse then refuseBasin n r (without s)
  else if !mayPerform s n r then s
  else
    let a := askTarget s n (reqBank r) rivals
    if !a.1 then a.2
    else
      let x := beatBasin n r a.2
      if x.1.beat < txBeats r.tx then
        x.2.modBasin n fun y => { y with tport := y.tport.map fun q => if q.seq = r.seq then x.1 else q }
      else endBasin n x.1 (without x.2)

/-- The transactions that the target port tries in one BCLK: those refused, and of each bank the first, behind none of their own
initiator and ID (R240). -/
def heldFirst (x : Basin) : List WharfReq :=
  let ready := x.tport.filter fun r => !(x.tport.any fun q => sameOrder q r && decide (q.seq < r.seq))
  ready.filter (·.refuse) ++ (List.finRange 16).filterMap fun b => ready.find? fun r => !r.refuse && reqBank r == b

/-- The target port tries what it holds. -/
def tryAllHeld (n : BasinIx) (rivals : List Rival) (s : State) : State :=
  (heldFirst (s.basins.get n)).foldl (tryHeld n rivals) s

/-- A basin's target port takes a granted transaction (R212, R214): it is checked here, and refused in its turn (R240) or
held. -/
def grantBasin (n : BasinIx) (r : WharfReq) (s : State) : State :=
  let ok := basinAdmits s n r
  if ok ∨ behindTaken s r then s.modBasin n fun x => { x with tport := x.tport ++ [{ r with refuse := !ok }] } else refuseBasin n r s

/-- The Reservoir's nonet address of a transaction (R230). -/
def rvBase (r : WharfReq) : Nat := (txLo r.tx) - 0x10000000

/-- A Reservoir bank serves a transaction for its beats (R230). -/
def takeRvBank (r : WharfReq) (s : State) : State :=
  { s with rv := { s.rv with banks := vmodN s.rv.banks (rvBase r / 262144) fun b => { b with portBAt := some (xclk s + txBeats r.tx - 1) } } }

/-- A transaction is performed in the Reservoir (R230, R242). -/
def performRv (r : WharfReq) (s0 : State) : State :=
  let s := takeRvBank r s0
  if r.tx.write then
    let ws := (txWrites r.tx) (rvBase r)
    let part := partialWords ws
    let s1 := part.foldl noteRvError s
    if part.any s.rv.mem.isUe then respond r .refused [] s1 else respond r .ok [] (rvWriteNonets ws s1)
  else
    let words := touched ((txPlaces r.tx).map (rvBase r + ·))
    let s1 := words.foldl noteRvError s
    if words.any s.rv.mem.isUe then respond r .refused [] s1
    else respond r .ok (readWords r.tx fun i => s.rv.mem.nonet (rvBase r + i)) s1

/-- A transaction is performed in the Harbourmaster SRAM (R233). -/
def performHms (r : WharfReq) (s : State) : State :=
  let base := (txLo r.tx) - 0x11000000
  if r.tx.write then respond r .ok [] { s with hms := s.hms.write ((txWrites r.tx) base) }
  else respond r .ok (readWords r.tx fun i => s.hms.nonet (base + i)) s

/-! ### Accesses made in one step (log entry 49) -/

/-- The accesses that an admitted transaction has still to make are made, and it is answered. -/
def finishBasin (n : BasinIx) (s : State) (r : WharfReq) : State :=
  let x := (List.range (txBeats r.tx - r.beat)).foldl (fun x _ => beatBasin n x.1 x.2) (r, s)
  endBasin n x.1 x.2

/-- A transaction is performed at a memory target. -/
def performMemory (r : WharfReq) (s : State) : State :=
  if h : r.target.val < 12 then
    let n : BasinIx := ⟨r.target.val, h⟩
    if basinAdmits s n r then finishBasin n s r else refuseBasin n r s
  else if r.target.val < 16 then performRv r s
  else performHms r s

/-- Nobody but the target port asks for a bank (R216, R219). -/
def bankToItself (s : State) (n : BasinIx) (b : BankIx) : Bool :=
  let x := ((s.basins.get n).banks.get b).inTurn (bclkCount s n)
  if b.val < 14 then
    x.turn.all (fun w => w.winner == 4 && w.losers.isEmpty && w.late.isEmpty) && !x.waiters.any fun r => r != 4 && stillWants s n b r
  else !weirWaits s n b && !towlineWaits s n b

/-- A transaction that a basin admits may be performed now, its bank granted; one that meets port A of a basin in B1 lets it
leave B1 (R214, R216, R219, R347). Elsewhere the grant is enough. `first`: the first transaction of its command; a later one, or a
burst, is made where nobody else asks for its banks (log entry 49). -/
def portReady (first : Bool) (r : WharfReq) (s : State) : Bool × State :=
  if h : r.target.val < 12 then
    let n : BasinIx := ⟨r.target.val, h⟩
    if !basinAdmits s n r then (!behindTaken s r, s)
    else if !targetClocked s n (reqBank r) then (false, s.modBpwr n fun p => { p with changed := p.changed || p.cur == 1 })
    else if !mayPerform s n r ∨ (s.basins.get n).tport.any (fun q => sameOrder q r || reqBank q == reqBank r) then (false, s)
    else if (!first ∨ 1 < txBeats r.tx) ∧ (List.finRange 16).any (fun b => reqTouches r b && !bankToItself s n b) then (false, s)
    else if first then askTarget s n (reqBank r) [] else (true, s)
  else (true, s)

/-- The response to transaction q is taken from those on their way, and its place is free. -/
def takeResponse (init : Fin 16) (q : Nat) (s : State) : Option WharfResp × State :=
  match s.wharf.resps.find? fun r => r.seq == q with
  | some r => (some r, { s with wharf := { s.wharf with
      resps := s.wharf.resps.filter fun r => r.seq != q, cur := vmod s.wharf.cur init (· - 1) } })
  | none => (none, s)

/-- An access that a command makes as a whole is held back, by the full port or by its target: since when is kept (R248). -/
def holdDirect (init : Fin 16) (s : State) : State :=
  if portFull s init then noteStall init s
  else { s with wharf := { s.wharf with directAt := vmod s.wharf.directAt init fun a => a.orElse fun _ => some (xclk s) } }

/-- A transaction taken from acceptance to its response in one step, where its initiator port has a place and its target grants
it among all that wait there: its response, and the state after. `j` is its place among the transactions of one command, which are
granted in as many XCLK one after the other. It was presented in the XCLK of the command that first met it, and arrived in the one
before. -/
def directTx (perform : WharfReq → State → State) (init : Fin 16) (t : Tx) (j : Nat) (s : State) : Option WharfResp × State :=
  let q := s.wharf.seq
  let k := xclk s + j
  let since := if j = 0 then (s.wharf.directAt.get init).getD k else k
  let s1 := acceptTx init t 0 since s
  if portFull s init then (none, holdDirect init s)
  else match s1.wharf.reqs.find? fun r => r.seq == q with
    | none => takeResponse init q s1
    | some r =>
      if (grantPick s1 r.target k).all fun x => x.seq != q then (none, holdDirect init s)
      else
        let p := portReady (j == 0) r s
        if p.1 then
          let free (s : State) : State := { s with wharf := { s.wharf with directAt := vput s.wharf.directAt init none } }
          takeResponse init q (perform r (noteGrant r k (acceptTx init t 0 since (free p.2))))
        else (none, holdDirect init p.2)

/-! ### Outbound accesses (R366, R367) -/

/-- The host is reachable: Bus Master Enable, and not in D3hot (R354). -/
def hostUp (s : State) : Bool := s.hif.bme && !s.hif.d3hot

/-- The kind that FERRY_PCIOERR records (R377). -/
def pcioKind : HostEnd → BitVec 2
  | .timeout => 1
  | .urca => 2
  | .poisoned => 3
  | .ok => 0

/-- A failed PCIO request is recorded, and vector 15 is sent (R367). -/
def notePcioError (r : WharfReq) (kind : BitVec 2) (s : State) : State :=
  let f := s.ferry
  { s with ferry := { f with errInit := BitVec.ofNat 4 r.init.val, errWr := r.tx.write, errKind := kind, errCnt := f.errCnt + 1 } }.msix 15

/-- The host address of a PCIO address in its window (R366). -/
def pcioHost (v : PcioWin) (a : Nat) : BitVec 64 :=
  (v.baseH ++ v.baseL ++ (0 : BitVec 12)) + BitVec.ofNat 64 (a % 0x10000000 / 4 * 8)

/-- The PCIO target takes a granted transaction (R243, R366, R367, R377): a write is acknowledged when it is queued. -/
def grantPcio (r : WharfReq) (s : State) : State :=
  if !r.win.en then respondDecerr r 5 s
  else if !hostUp s then respond r .refused [] (notePcioError r 0 s)
  else
    let q : PcioReq := { req := r, haddr := pcioHost r.win (txLo r.tx), words := ((txLen r.tx) + 3) / 4 }
    let s1 := { s with wharf := { s.wharf with pcio := s.wharf.pcio ++ [q] } }
    if r.tx.write then respond r .ok [] s1 else s1

/-! ### eNVM programming (R229, R97) -/

/-- The line that NVP_DATA spells (R229). -/
def nvpLine (c : NvpChan) : LineBits := lineOfWords c.data.toList

/-- NVP_CMD is written with OP 1 or 2 (R229): ignored with ERR while BUSY, ERR for BASIN above 11. -/
def nvpStart (c : Fin 4) (blank : Bool) (s : State) : State :=
  let x := s.nvp.get c
  let basin := bitsN x.addr 14 4
  if h : !x.busy ∧ basin < 12 then
    let s1 := { s with nvp := vmod s.nvp c fun x => { x with
      busy := true, op := some (basin, bitsN x.addr 12 2, bitsN x.addr 0 12, if blank then none else some (nvpLine x)) } }
    kickBasin ⟨basin, h.2⟩ s1
  else ({ s with nvp := vmod s.nvp c fun x => { x with err := true } }).mark (.nvpStat c) 2

/-- A held copy of a reprogrammed line is seen with its old or its new content until the next flush (R97). -/
def reprogrammed (n : BasinIx) (k : Fin 4) (l : BitVec 12) (s : State) (p : Fin 4) : State :=
  let g := bargeOf n p
  let x := s.basins.get n
  if codeBankOf x p ≠ k ∨ Config.freeChoice s.freeCtr then s.free
  else
    let c := x.code.get k
    let fresh (h : HeldLine) : HeldLine := if h.line = l then { h with data := lineData c l, bad := lineBad c l } else h
    s.free.modBarge g fun b => { b with
      lineBuf := b.lineBuf.map fresh, btb := b.btb.map fun e => { e with line := e.line.map fresh } }

/-- The content of a line whose verify failed: its CRC fails (R229). -/
def failedLine (seed : Nat) : CodeLine :=
  let d := Config.freeLine seed
  { data := d, crc := lineCrc d ^^^ (1 + (low 32 (Config.freeWord seed)).ushiftRight 1) }

/-- An eNVM operation ends 20 µs after its way was taken (R229). -/
def nvpEnd (c : Fin 4) (verified : Bool) (s : State) : State :=
  match (s.nvp.get c).op with
  | some (bn, bk, l, new) =>
    if h : bn < 12 then
      let n : BasinIx := ⟨bn, h⟩
      let k : Fin 4 := ⟨bk % 4, Nat.mod_lt _ (by decide)⟩
      let w := wayOf (BitVec.ofNat 12 l)
      let busy := (((s.basins.get n).code.get k).ways.get w).any fun r => r.use == .program c &&
        decide (20 * microsecond ≤ s.now - r.time)
      if !busy then s
      else
        let line : Option CodeLine :=
          if verified then new.map fun d => { data := d, crc := lineCrc d } else some (failedLine s.freeCtr)
        let s1 := ({ s.free with nvp := vmod s.nvp c fun x => { x with
          busy := false, op := none, done := x.done || verified, err := x.err || !verified } }).mark (.nvpStat c) (if verified then 1 else 2)
        let s2 := s1.modCode n k fun b => { b with lines := kset b.lines l line, ways := vput b.ways w none }
        kickBasin n ((List.finRange 4).foldl (reprogrammed n k (BitVec.ofNat 12 l)) s2)
    else s
  | none => s

/-- A read of NVP by word (R229). -/
def nvpRead (s : State) (w : Nat) : Option Word :=
  let x := s.nvp.get ⟨w / 32 % 4, Nat.mod_lt _ (by decide)⟩
  if 128 ≤ w then none
  else match w % 32 with
    | 16 => some (put36 0 x.addr)
    | 17 => some 0
    | 18 => some (bit36 0 x.busy ||| bit36 1 x.done ||| bit36 2 x.err)
    | j => if j < 16 then some 0 else none

/-- A write of NVP by word (R229). -/
def nvpWrite (w : Nat) (v : Word) (s : State) : Option State :=
  let c : Fin 4 := ⟨w / 32 % 4, Nat.mod_lt _ (by decide)⟩
  let up (f : NvpChan → NvpChan) : Option State := some { s with nvp := vmod s.nvp c f }
  if (nvpRead s w).isNone then none
  else match w % 32 with
    | 16 => up fun x => { x with addr := fld v 0 18 }
    | 17 => match bitsN v 0 2 with
      | 1 => some (nvpStart c false s)
      | 2 => some (nvpStart c true s)
      | _ => some s
    | 18 =>
      let m := s.w1c (.nvpStat c) (sameCycle (xclkPeriod s) s) v
      up fun x => { x with done := x.done && !bit m 1, err := x.err && !bit m 2 }
    | j => up fun x => { x with data := vmodN x.data j fun _ => v }

/-! ### Scrubbing (R221, R230) -/

/-- The words of a row, by index in their memory. -/
def rowWords (bank row rows : Nat) : List Nat := (List.range 8).map fun i => (bank * rows + row) * 8 + i

/-- A scrubber's access takes its place after a row was read in its turn; `ce`: the row is to be written back. -/
def Bank.scrubbed (b : Bank) (rows now : Nat) (ce : Bool) : Bank :=
  { b with scrubRow := (b.scrubRow + 1) % rows, scrubBack := if ce then some b.scrubRow else none, scrubLast := now }

/-- The row that a scrubber writes back next: one at the front of its rows, which a reader found with a correctable error, then
the one it has read last (R220, R221). -/
def scrubWriteback (b : Bank) : Option Nat := b.scrubFront.head?.orElse fun _ => b.scrubBack

/-- The scrubber has written a row back. -/
def Bank.healed (b : Bank) (row now : Nat) : Bank :=
  { b with
    scrubFront := b.scrubFront.filter (· != row)
    scrubBack := b.scrubBack.filter (· != row)
    scrubLast := now }

/-- What a write-back of a row writes (R221): its words with a correctable error, with the value they have. -/
def healWrites (m : Mem) (ws : List Nat) : List (Nat × Nonet) := (ws.filter m.isCe).flatMap fun i => nonetsOf (4 * i) (m.word i).toNat 4

/-- A write-back of a row (R221): its correctable words are re-encoded. -/
def healRow (m : Mem) (ws : List Nat) : Mem := ws.foldl (fun m i => if m.isCe i then m.heal i else m) m

/-- A scrub access of a basin bank (R221): in B0, in an idle BCLK or once 4,096 BCLK have passed. -/
def scrubBasin (n : BasinIx) (b : BankIx) (rivals : List Rival) (s : State) : State :=
  let x := s.basins.get n
  let bank := x.banks.get b
  let c := bclkCount s n
  let alone := (rivals.filter fun r => r.bank == b).isEmpty && bankQuiet s n b
  if (s.crp.bpwr.get n).cur ≠ 0 ∨ x.testing then s
  else if !((x.scrubIdle && alone) || decide (bank.scrubLast + 4096 ≤ c)) then s
  else
    let a := askBank s n b 5 rivals
    if !a.1 then a.2
    else
      match scrubWriteback bank with
      | some row =>
        let ws := healWrites (portAMem a.2 n) (rowWords b.val row 2048)
        (a.2.modBasin n fun x => x.writeBy false c ws).modBank n b fun b => b.healed row c
      | none =>
        let ws := rowWords b.val bank.scrubRow 2048
        let m := portAMem a.2 n
        let s1 := (noteErrorsIn n srcScrub m a.2 ws).modBank n b fun b => b.scrubbed 2048 c (ws.any m.isCe)
        if bank.scrubRow = 2047 then
          (s1.modBasin n fun y => { y with scrubPass := y.scrubPass ||| BitVec.ofNat 16 (2 ^ b.val) }).mark (.scrubStat n) b.val
        else s1

/-- A request for a Reservoir bank waits at its target port. -/
def rvAsked (s : State) (b : BankIx) (k : Nat) : Bool :=
  let g : Fin 20 := ⟨12 + b.val / 4, by omega⟩
  (considered s g k).any fun r => r.tx.addr.toNat / 262144 % 16 == b.val

/-- A scrub access of a Reservoir bank, counted in XCLK (R221, R230): in an XCLK in which nothing else asks for the bank, or
once 4,096 XCLK have passed. -/
def scrubRv (b : BankIx) (s : State) : State :=
  let bank := s.rv.banks.get b
  let k := xclk s
  if bank.portBAt.any (k ≤ ·) ∨ (rvAsked s b k ∧ k < bank.scrubLast + 4096) ∨ s.crp.coldHeld then s
  else
    let put (f : Bank → Bank) (s : State) : State :=
      { s with rv := { s.rv with banks := vmod s.rv.banks b fun b => { f b with portBAt := some k } } }
    match scrubWriteback bank with
    | some row => put (·.healed row k) { s with rv := { s.rv with mem := healRow s.rv.mem (rowWords b.val row 8192) } }
    | none =>
      let ws := rowWords b.val bank.scrubRow 8192
      put (fun y => { y with scrubFront := bank.scrubFront }.scrubbed 8192 k (ws.any s.rv.mem.isCe)) (ws.foldl noteRvError s)

/-! ### Registers (R248) -/

/-- WHARF_CFG.CNTCLR (R248): an event of the XCLK of the clear is counted after it. -/
def clearCounters (s : State) : State :=
  let k := xclk s
  let w0 : Wharf := { s.wharf with
    tgrant := Vector.replicate 20 0, twait := Vector.replicate 20 0, tmaxw := Vector.replicate 20 0
    istall := Vector.replicate 16 0, maxOut := Vector.replicate 16 0
    stallSince := s.wharf.stallSince.map fun a => a.map fun _ => k }
  { s with wharf := (s.wharf.recent.filter fun x => x.1 == k).foldl (fun w x => w.count x.2) w0 }

/-- WHARF_CFG.CNTEN is written: the holds going on are counted up to now, and from now on (R248). -/
def setCounting (en : Bool) (s : State) : State :=
  let w := s.wharf
  let k := xclk s
  { s with wharf := { w with
    cnten := en
    istall := Vector.ofFn fun i => w.istall.get i + BitVec.ofNat 36 (stallDue w k i)
    stallSince := w.stallSince.map fun a => a.map fun _ => k } }

/-- WHARF_ISTALL with a hold still going on (R248). -/
def stallCount (s : State) (i : Fin 16) : Word := s.wharf.istall.get i + BitVec.ofNat 36 (stallDue s.wharf (xclk s) i)

/-- A read of the Wharf registers; none where unmapped (R248). -/
def wharfRead (s : State) (off : Nat) : Option Word :=
  let w := s.wharf
  if h : 0x10 ≤ off ∧ off < 0x20 then some (put36 0 (w.qos.get ⟨off - 0x10, by omega⟩))
  else if h : 0x20 ≤ off ∧ off < 0x30 then
    some (at36 0 (w.cur.get ⟨off - 0x20, by omega⟩) ||| at36 6 (w.maxOut.get ⟨off - 0x20, by omega⟩))
  else if h : 0x30 ≤ off ∧ off < 0x40 then some (stallCount s ⟨off - 0x30, by omega⟩)
  else if h : 0x40 ≤ off ∧ off < 0x54 then some (w.tgrant.get ⟨off - 0x40, by omega⟩)
  else if h : 0x60 ≤ off ∧ off < 0x74 then some (w.twait.get ⟨off - 0x60, by omega⟩)
  else if h : 0x80 ≤ off ∧ off < 0x94 then some (put36 0 (w.tmaxw.get ⟨off - 0x80, by omega⟩))
  else match off with
    | 0 => some 0x027240
    | 1 => some (bit36 0 w.slice ||| bit36 1 w.cnten)
    | 2 => some (bit36 0 w.intDecerr ||| bit36 1 w.intRefuse)
    | 3 => some (bit36 0 w.enDecerr ||| bit36 1 w.enRefuse)
    | 4 => some (put36 0 w.decAddr)
    | 5 => some (put36 0 w.decInfo)
    | 6 => some w.decCnt
    | 7 => some w.refCnt
    | _ => none

/-- A write of the Wharf registers; none where unmapped (R248). -/
def wharfWrite (off : Nat) (v : Word) (s : State) : Option State :=
  let w := s.wharf
  if (wharfRead s off).isNone then none
  else if h : 0x10 ≤ off ∧ off < 0x20 then
    let i : Fin 16 := ⟨off - 0x10, by omega⟩
    let q : BitVec 8 := if i.val < 12 then fld v 0 8 else if i = 12 then w.qos.get i else (fld v 0 4).setWidth 8
    some { s with wharf := { w with qos := vput w.qos i q, qosWas := vput w.qosWas i (some (xclk s, qosReg s i)) } }
  else some (match off with
    | 1 =>
      let s1 := setCounting (bit v 1) s
      if bit v 2 then clearCounters s1 else s1
    | 2 =>
      let m := s.w1c .wharfInt (sameCycle (xclkPeriod s) s) v
      let d := w.intDecerr && !bit m 0
      let r := w.intRefuse && !bit m 1
      { s with wharf := { w with intDecerr := d, intRefuse := r, hmInt := w.hmInt && ((d && w.enDecerr) || (r && w.enRefuse)) } }
    | 3 => { s with wharf := { w with enDecerr := bit v 0, enRefuse := bit v 1, enWas := some (xclk s, intenReg s) } }
    | _ => s)

/-! ### The commands -/

/-- SCRUB_ACCESS (R221). -/
def execScrubAccess (dt : Nat) (bank : ScrubBank) (rivals : List Rival) (s : State) : Out :=
  act s dt fun s =>
    match bank with
    | .basin n b => scrubBasin n b rivals s
    | .reservoir b => scrubRv b s

/-- NVP_PROGRAM (R229). -/
def execNvpProgram (dt : Nat) (c : Fin 4) (s : State) : Out := act s dt (nvpStart c false)

/-- NVP_BLANK (R229). -/
def execNvpBlank (dt : Nat) (c : Fin 4) (s : State) : Out := act s dt (nvpStart c true)

/-- NVP_COMPLETE (R229). -/
def execNvpComplete (dt : Nat) (c : Fin 4) (verified : Bool) (s : State) : Out := act s dt (nvpEnd c verified)

/-- WHARF_ACCEPT (R237). -/
def execWharfAccept (dt : Nat) (init : Fin 16) (tx : Tx) (s : State) : Out := act s dt (portAccept init tx)

/-- WHARF_CNTCLR (R248). -/
def execWharfCntclr (dt : Nat) (s : State) : Out := act s dt clearCounters

end Sys2Proof.Machine
end

