-- ==== Sys2Proof/Machine/Towline.lean ====
section
/-! DEFINITION. The Towline links: frames, link-up, acknowledgement, retirement, receive delivery, transmit image and
registers (R319 to R335); and RECORD_WRITE, by which the Weir's and Towline's records reach a quay bank. -/

namespace Sys2Proof.Machine

/-! ### Fields (R335) -/

def Link.en (l : Link) : Bool := bit l.cfg 0
def Link.vmin (l : Link) : Nat := max 1 (bitsN l.cfg 1 2)
def Link.vmax (l : Link) : Nat := max 1 (bitsN l.cfg 3 2)
def Link.vital (l : Link) : Bool := bit l.cfg 5
def Link.group (l : Link) : BitVec 6 := fld l.cfg 6 6
def Link.obase (l : Link) : Nat := bitsN l.cfg 12 12
def Link.outlen (l : Link) : Nat := bitsN l.cfg 24 7
def Link.otrig (l : Link) : Bool := bit l.cfg 31
def Link.retry (l : Link) : Nat := bitsN l.cfg 32 2
def Link.oper (l : Link) : Nat := bitsN l.time 0 16
def Link.ackto (l : Link) : Nat := bitsN l.time 16 12
def Link.dbasin (l : Link) : Nat := bitsN l.rxdst 0 4
def Link.dbank (l : Link) : Bool := bit l.rxdst 4
def Link.drow (l : Link) : Nat := bitsN l.rxdst 5 11
def Link.depth (l : Link) : Nat := bitsN l.rxdst 16 8
def Link.frz (l : Link) : Bool := bit l.rxdst 24
def Link.ftask (l : Link) : BitVec 8 := fld l.rxdst 25 8
def Link.evt (l : Link) : Nat := bitsN l.rxdst 33 3
def Link.inlen (l : Link) : Nat := bitsN l.rxcfg 0 7
def Link.rxevten (l : Link) : Bool := bit l.rxcfg 7
def Link.rxto (l : Link) : Nat := bitsN l.rxcfg 8 16
def Link.ownv (l : Link) : Bool := bit l.rxcfg 24
def Link.oworld (l : Link) : Bool := bit l.rxcfg 25
def Link.mrxBase (l : Link) : Nat := bitsN l.mrx 0 20
def Link.mrxSize (l : Link) : Nat := bitsN l.mrx 20 16

/-! ### Frames (R319 to R321) -/

/-- The characters of a body of m units, SOF and EOF included (R321). -/
def frameChars (m : Nat) : Nat := (9 * m + 1) / 2 + 2

/-- How long a body of m units lasts, in device time. -/
def frameTime (m : Nat) : Nat := frameChars m * tclkPeriod

/-- Units as a bit string, the first lowest (R320). -/
def unitsNat : List Word → Nat
  | [] => 0
  | u :: us => u.toNat + 68719476736 * unitsNat us

/-- The bytes of a body (R320). -/
def unitsBytes (us : List Word) : List (BitVec 8) :=
  let n := unitsNat us
  (List.range ((36 * us.length + 7) / 8)).map fun j => BitVec.ofNat 8 (n / 256 ^ j)

/-- The CRC unit of a body without it (R320). -/
def crcUnit (us : List Word) : Word := (crc32c (unitsBytes us)).setWidth 36

/-- A frame's units with its CRC unit. -/
def sealFrame (us : List Word) : List Word := us ++ [crcUnit us]

/-- TYPE codes (R321). -/
def tyCap : Nat := 1
def tyOut : Nat := 2
def tyIn : Nat := 3
def tyMaint : Nat := 4
def tyAck : Nat := 5
def tyNak : Nat := 6

/-- A header unit (R321). -/
def headerUnit (ty : Nat) (seq : BitVec 8) (len : Nat) (safe : Bool) : Word :=
  at36 0 ty ||| put36 4 seq ||| at36 12 len ||| bit36 33 safe

/-- The fields of a header unit. -/
def hdrType (h : Word) : Nat := bitsN h 0 4
def hdrSeq (h : Word) : BitVec 8 := fld h 4 8
def hdrLen (h : Word) : Nat := bitsN h 12 9
def hdrAge (h : Word) : BitVec 12 := fld h 21 12

/-- A version carries a date unit in frames of a type (R320). -/
def hasDate (ver : BitVec 2) (ty : Nat) : Bool := ver == 3 && (ty == tyOut || ty == tyIn)

/-- The length a TYPE fixes: two payload units in CAP, none in ACK and NAK (R322, R324). -/
def lenFits (ty len : Nat) : Bool :=
  if ty = tyCap then len == 2 else if ty = tyAck ∨ ty = tyNak then len == 0 else len ≤ 256

/-- A frame is valid (R320): CRC, TYPE and length all check. -/
def frameValid (ver : BitVec 2) (us : List Word) : Bool :=
  match us with
  | [] => false
  | h :: _ =>
    let ty := hdrType h
    let body := us.dropLast
    us.length ≥ 2 && us.getLast? == some (crcUnit body) && 1 ≤ ty && ty ≤ 6 && lenFits ty (hdrLen h) &&
    us.length == 2 + hdrLen h + (hasDate ver ty).toNat

/-- The payload units of a valid frame, and its date unit (0 where it carries none). -/
def framePayload (ver : BitVec 2) (us : List Word) : List Word × Word :=
  match us.dropLast with
  | h :: rest => if hasDate ver (hdrType h) then (rest.tail, rest.headD 0) else (rest, 0)
  | [] => ([], 0)

/-! ### The link's states -/

/-- A device time in the present TCLK. -/
def sameTclk (s : State) (time : Nat) : Bool := sameCycle tclkPeriod s time

/-- A link's enable or write is refused with CFGERR (R334, R335). -/
def tlRefuse (n : Fin 16) (s : State) : State := (s.modLink n fun l => { l with cfgerr := true }).mark (.linkStat n) 18

/-- The link's event (R334). -/
def tlEvent (l : Link) (s : State) : State :=
  if !l.rxevten then s
  else
    match basinIx l.dbasin with
    | some b => s.pendBasin b ⟨28 + l.evt % 8, by omega⟩
    | none => s

/-- The poison word of a link's version (R328). -/
def Link.poison (l : Link) : Word := if l.pver = 1 then 0xF00000000 else poisonWord

/-- The link sends SAFE frames (R332). -/
def Link.sendsSafe (l : Link) : Bool := l.en && (l.retired || (l.vital && l.groupSafe))

/-- The unacknowledged frame is a MAINT frame (R329). -/
def Link.maintOut (l : Link) : Bool := l.unacked.any fun f => f.kind == 4

/-- The unacknowledged frame is given up: a MAINT frame among them fails (R329, log entry 87). -/
def Link.giveUp (l : Link) : Link :=
  { l with unacked := none, mtxBusy := l.mtxBusy && !l.maintOut, mtxFail := l.mtxFail || l.maintOut }

/-- Link-up starts again (R322, R326). -/
def Link.restart (l : Link) : Link :=
  { l.giveUp with up := false, ver := 0, peerCap := false, capAcked := false, rxSeq := none, capDue := l.lock }

/-- A change of link n that gives up its unacknowledged frame. -/
def tlGiveUp (n : Fin 16) (f : Link → Link) (s : State) : State :=
  if (s.tl.link.get n).maintOut then (s.modLink n f).mark (.linkMtx n) 32 else s.modLink n f

/-- A link retires with a cause (R326, R197, R334); only a later commit of its group brings its image back to the line (R332). -/
def tlRetire (n : Fin 16) (cause : Nat) (s : State) : State :=
  let l := s.tl.link.get n
  if l.retired then s
  else
    let s1 := watchReady (fun s => tlGiveUp n (fun l => { l.restart with
      retired := true, rcause := BitVec.ofNat 3 cause, capDue := false, groupSafe := true, safeDue := true
      lastPoison := s.now }) s) s
    tlEvent l (s1.reportRetired 7 n.val (BitVec.ofNat 8 cause) l.vital)

/-- The link goes down for a cause (R326): a vital link retires, an ordinary one starts again. -/
def tlDown (n : Fin 16) (cause : Nat) (s : State) : State :=
  let l := s.tl.link.get n
  if !l.up then s
  else if l.vital then tlRetire n cause s
  else tlGiveUp n (fun l => { l.restart with lastPoison := s.now }) s

/-! ### Sending (R319, R324, R325) -/

/-- The EOF of a frame that starts as soon as the line lets it: two idle characters after the one before (R319). -/
def Link.frameEnd (l : Link) (now : Nat) (us : List Word) : Nat := max now l.lineFree + frameTime us.length

/-- The line carries a frame that ends at a device time, and the idle characters after it (R319). -/
def Link.occupy (l : Link) (eof : Nat) : Link := { l with lineFree := eof + 2 * tclkPeriod }

/-- A new data frame is sent: it takes the next SEQ and awaits its ACK. -/
def Link.send (l : Link) (now ty : Nat) (mk : BitVec 8 → List Word) : Link :=
  let seq := l.txSeq + 1
  let us := sealFrame (mk seq)
  let eof := l.frameEnd now us
  { l.occupy eof with
    txSeq := seq, sent := us, unacked := some { kind := BitVec.ofNat 4 ty, seq := seq, units := us, tries := 0, eof := eof } }

/-- The link's CAP frame (R322). -/
def Link.capFrame (l : Link) (seq : BitVec 8) : List Word :=
  [headerUnit tyCap seq 2 false, at36 0 l.vmin ||| at36 2 l.vmax ||| at36 4 0x7240, at36 0 l.outlen ||| at36 7 l.inlen]

/-- A CAP frame leaves (R322). -/
def Link.sendCap (l : Link) (now : Nat) : Link := { l.send now tyCap l.capFrame with capDue := false, capAt := now }

/-- The link's OUT frame (R331), or the SAFE frame (R332). -/
def Link.outFrame (l : Link) (safe : Bool) (seq : BitVec 8) : List Word :=
  let v := if l.retired then l.pver else l.ver
  let words := (l.image.toList.take l.outlen).map fun w => if safe then l.poison else w
  headerUnit tyOut seq l.outlen safe :: ((if hasDate v tyOut then [l.imageDate.setWidth 36] else []) ++ words)

/-- A MAINT frame of TL_MTX leaves, its words read and no data frame unacknowledged (R329). -/
def tlSendMaint (n : Fin 16) (s : State) : State :=
  let l := s.tl.link.get n
  if l.maintDue && l.unacked.isNone && l.up then
    s.modLink n fun l => { l.send s.now tyMaint (fun seq => headerUnit tyMaint seq l.mtxLen.toNat false :: l.mtxGot) with
      maintDue := false, mtxGot := [] }
  else s

/-- The unacknowledged frame is sent again, or dropped when its retries are exhausted (R325, R326, R329). -/
def tlRetry (n : Fin 16) (s : State) : State :=
  let l := s.tl.link.get n
  match l.unacked with
  | none => s
  | some f =>
    if f.tries < l.retry then
      s.modLink n fun l =>
        let eof := l.frameEnd s.now f.units
        { l.occupy eof with
          sent := f.units, retries := satInc l.retries, unacked := some { f with tries := f.tries + 1, eof := eof } }
    else tlDown n 2 (tlGiveUp n (fun l => { l.giveUp with drop := satInc l.drop }) s)

/-! ### Version selection (R322) -/

/-- The peer's CAP frame as TL_PEER holds it (R335). -/
def peerOf (pay : List Word) : BitVec 34 :=
  let a := pay.headD 0
  let b := pay.tail.headD 0
  BitVec.ofNat 34 (bitsN a 0 20 + bitsN b 0 14 * 2 ^ 20)

/-- Both CAP frames are there: a version is selected, or NOVER or LENERR is set (R322). -/
def tlNegotiate (n : Fin 16) (s : State) : State :=
  let l := s.tl.link.get n
  if l.peerCap && l.capAcked && !l.up then
    let lo := max l.vmin (bitsN l.peer 0 2)
    let hi := min l.vmax (bitsN l.peer 2 2)
    if lo > hi then
      (s.modLink n fun l => { l with nover := true, peerCap := false, capAcked := false }).mark (.linkStat n) 3
    else if bitsN l.peer 20 7 > l.inlen ∨ bitsN l.peer 27 7 < l.outlen then
      (s.modLink n fun l => { l with lenerr := true, peerCap := false, capAcked := false }).mark (.linkStat n) 4
    else
      s.modLink n fun l => { l with
        up := true, ver := BitVec.ofNat 2 hi, pver := BitVec.ofNat 2 hi, lastOut := s.now, lastIn := s.now
        outDue := l.outDue && l.oper == 0 }
  else s

/-! ### Records (R327, R328) -/

/-- The nonets of a link's record slot (R327). -/
def Link.recSize (l : Link) : Nat := 32 * ((l.inlen + 3 + 7) / 8)

/-- A record of a link is accepted into its FIFO, for a half of its area (R327). -/
def tlAccept (n : Fin 16) (half : Bool) (pay : List Word) (ret : Bool) (info echo : Word) (s : State) : State :=
  s.modLink n fun l =>
    let body := (pay ++ List.replicate l.inlen l.poison).take l.inlen
    let t := put36 0 (low 32 s.crp.stTime) ||| bit36 33 l.gapNext ||| bit36 35 ret
    { l with
      gapNext := false
      fifo := l.fifo ++ [{ src := n.val, half := l.frz && half, words := body ++ [t, info, echo], time := s.now }] }

/-- A poison record (R328): AGE, SEQ and LEN belong to no frame and are free (log entry 3). -/
def tlPoison (n : Fin 16) (half : Bool) (s : State) : State :=
  let l := s.tl.link.get n
  let info := (Config.freeWord s.freeCtr &&& mask36 0 29) ||| put36 29 l.pver
  (tlAccept n half [] true info 0 s).free.modLink n fun l => { l with lastPoison := s.now }

/-- The info word of a received frame (R327 word INLEN + 1). -/
def infoWord (h : Word) (ver : BitVec 2) : Word := put36 0 (hdrAge h) ||| put36 12 (hdrSeq h) ||| at36 20 (hdrLen h) ||| put36 29 ver

/-! ### Maintenance through the Wharf (R329, R241) -/

/-- The words of the MAINT ring that are written or on their way (R329). -/
def Link.mrxTail (l : Link) : Nat := l.mrxWr.toNat + (l.mrxFrames.map fun f => f.size).sum

/-- The free words of the MAINT ring before the read offset (R329). -/
def Link.mrxFits (l : Link) (need : Nat) : Bool :=
  let size := l.mrxSize
  size != 0 && (l.mrxTail + size - l.mrxRd.toNat % size) % size + need < size

/-- A Reservoir word's access by TOWLINE for link n: one word single with ID n (R241, log entry 88). -/
def maintTx (n : Fin 16) (w : Nat) (data : List Word) : Tx :=
  { addr := BitVec.ofNat 32 (0x10000000 + 4 * (w % 1048576)), write := !data.isEmpty, size := .word, id := BitVec.ofNat 5 n.val
    world := false, data := data }

/-- The transaction that a link presents next, and the link without it: its reads before its writes, one frame's writes after
another's. -/
def Link.nextTx (l : Link) : Option (Tx × Link) :=
  match l.mtxTxs, l.mrxFrames with
  | t :: ts, _ => some (t, { l with mtxTxs := ts })
  | [], f :: fs =>
    match f.txs with
    | t :: ts => some (t, { l with mrxFrames := { f with txs := ts } :: fs })
    | [] => none
  | [], [] => none

/-- TOWLINE's port takes the next transaction of the first link that presents one, or holds it (R241). -/
def tlPresentOne (s : State) : State :=
  match (List.finRange 16).find? fun n => (s.tl.link.get n).nextTx.isSome with
  | none => s
  | some n =>
    match (s.tl.link.get n).nextTx with
    | none => s
    | some (t, l) => if portFull s 14 then noteStall 14 s else acceptTx 14 t 0 (xclk s + 1) (s.modLink n fun _ => l)

/-- TOWLINE's port takes what its 32 places let it (R241). -/
def tlPresent (s : State) : State := (List.range 32).foldl (fun s _ => tlPresentOne s) s

/-- A MAINT frame is on its way to the Reservoir ring (R329). -/
def tlMaint (n : Fin 16) (h : Word) (pay : List Word) (s : State) : State :=
  let l := s.tl.link.get n
  let ws := infoWord h l.ver :: pay
  let txs := ws.zipIdx.map fun (w, i) => maintTx n (l.mrxBase + (l.mrxTail + i) % l.mrxSize) [w]
  tlPresent (s.modLink n fun l => { l with mrxFrames := l.mrxFrames ++ [{ txs := txs, left := ws.length, size := ws.length }] })

/-- One of a link's writes is answered: the write offset advances after the last word of its frame (R329). -/
def Link.wrote (l : Link) : Link :=
  match l.mrxFrames with
  | f :: fs =>
    if f.left ≤ 1 then { l with mrxFrames := fs, mrxWr := BitVec.ofNat 16 ((l.mrxWr.toNat + f.size) % max 1 l.mrxSize) }
    else { l with mrxFrames := { f with left := f.left - 1 } :: fs }
  | [] => l

/-- One of a link's reads is answered: with the last, the MAINT frame can leave (R329). -/
def Link.gotWord (l : Link) (w : Word) : Link :=
  let got := l.mtxGot ++ [w]
  { l with mtxGot := got, maintDue := l.maintDue || l.mtxLen.toNat ≤ got.length }

/-- A response reaches TOWLINE (R241, R329): a refused read reads 0 (R230). -/
def tlResponse (id : BitVec 5) (s : State) : State :=
  match s.wharf.resps.find? fun r => r.init == 14 && r.id == id with
  | none => s
  | some r =>
    let n : Fin 16 := ⟨id.toNat % 16, Nat.mod_lt _ (by decide)⟩
    let s1 := portResponse 14 id s
    tlPresent (tlSendMaint n (s1.modLink n fun l => if r.write then l.wrote else l.gotWord (r.data.headD 0)))

/-! ### Receiving (R322, R324, R327, R329) -/

/-- The answer of a link, which starts at the first frame gap: ACK with a SEQ, or NAK with SEQ 0 (R324). -/
def Link.answers (l : Link) (now : Nat) (ack : Bool) (seq : BitVec 8) : Link :=
  let us := sealFrame [if ack then headerUnit tyAck seq 0 false else headerUnit tyNak 0 0 false]
  { l.occupy (l.frameEnd now us) with answer := us }

/-- The version by which a link reads a frame: a retired link's is the last selected (R320, R332). -/
def Link.readsAs (l : Link) : BitVec 2 := if l.retired then l.pver else l.ver

/-- A new data frame is used (R322, R327, R329). -/
def tlUse (n : Fin 16) (us : List Word) (s : State) : State :=
  let l := s.tl.link.get n
  let h := us.headD 0
  let (pay, date) := framePayload l.ver us
  if hdrType h = tyCap then
    let s1 := if l.up then tlGiveUp n (fun l => { l.restart with lastPoison := s.now }) s else s
    tlSendMaint n (tlNegotiate n (s1.modLink n fun l => { l with peer := peerOf pay, peerCap := true, rxSeq := some (hdrSeq h) }))
  else if !l.up then s
  else if hdrType h = tyIn then
    let s1 := s.modLink n fun l => { l with lastIn := s.now }
    if hdrLen h > l.inlen then (s1.modLink n fun l => { l with lenerr := true, gapNext := true }).mark (.linkStat n) 4
    else tlAccept n l.area.half pay false (infoWord h l.ver) (if l.ver = 3 then date else 0) s1
  else if hdrType h = tyMaint then tlMaint n h pay s
  else s

/-- An ACK frame (R324, R325): it frees the slot of the frame it names. -/
def tlAcked (n : Fin 16) (seq : BitVec 8) (s : State) : State :=
  let l := s.tl.link.get n
  match l.unacked with
  | some f =>
    if f.seq = seq then
      let s1 := s.modLink n fun l => { l with
        unacked := none
        capAcked := l.capAcked || f.kind == 1
        mtxBusy := l.mtxBusy && f.kind != 4, mtxDone := l.mtxDone || f.kind == 4 }
      tlSendMaint n (tlNegotiate n (if f.kind = 4 then s1.mark (.linkMtx n) 31 else s1))
    else s
  | none => s

/-- A valid data frame repeats the last one accepted (R324): an IN frame among them restarts RXTO (R326). -/
def tlDuplicate (n : Fin 16) (ty : Nat) (seq : BitVec 8) (s : State) : State :=
  s.modLink n fun l => { l.answers s.now true seq with
    rxdup := satInc l.rxdup, lastIn := if ty = tyIn ∧ l.up then s.now else l.lastIn }

/-- A whole frame is received (R324): checked, answered and used; a retired link answers and uses none (R332). -/
def tlReceive (n : Fin 16) (us : List Word) (s : State) : State :=
  let l := s.tl.link.get n
  if !l.en ∨ !l.lock then s
  else if !frameValid l.readsAs us then s.modLink n fun l => { l.answers s.now false 0 with crcerr := satInc l.crcerr }
  else
    let h := us.headD 0
    let ty := hdrType h
    let seq := hdrSeq h
    let taken := s.modLink n fun l => { l.answers s.now true seq with rxSeq := some seq }
    if ty = tyAck then (if l.retired then s else tlAcked n seq s)
    else if ty = tyNak then (if l.retired then s else tlSendMaint n (tlRetry n s))
    else if l.rxSeq = some seq then tlDuplicate n ty seq s
    else if l.retired then taken
    else if ty = tyMaint ∧ l.up ∧ !l.mrxFits (hdrLen h + 1) then s.modLink n fun l => l.answers s.now false 0
    else tlUse n us taken

/-! ### Transmit image (R330 to R332) -/

/-- A value enters the image of an ordinary link, or is staged on a vital one (R190, R330). -/
def tlStage (n : Fin 16) (slot : Fin 64) (src : StgWriter) (v : Word) (s : State) : State :=
  let l := s.tl.link.get n
  if l.outlen ≤ slot.val ∨ fromRetired s src then s
  else if l.vital then
    match src with
    | .window _ _ d a => s.modLink n fun l => { l with stg := vput l.stg slot (some { value := v, date := d, att := a }) }
    | .bridge => s
  else s.modLink n fun l => { l with image := vput l.image slot v, outDue := l.outDue || l.otrig }

/-- A slot is staged in a generation. -/
def stagedIn (d : BitVec 32) (a : Bool) (x : Option Staged) : Bool := x.any fun y => y.date == d && y.att == a

/-- Every slot staged in the generation decodes with its residue (R330). -/
def tlSlotsOk (l : Link) (d : BitVec 32) (a : Bool) : Bool :=
  (List.finRange 64).all fun j =>
    match l.stg.get j with
    | some x => !(stagedIn d a (some x) && j.val < l.outlen) ||
        (match decodeCoded x.value ((l.obase + j.val) % 4093) with
        | .ok _ => true
        | _ => false)
    | none => true

/-- The lock gate of the link's group has opened (R330, R332): it releases a link with nothing staged too (R195). -/
def tlCommit (n : Fin 16) (g : BitVec 6) (d : BitVec 32) (a : Bool) (disagree : Bool) (s : State) : State :=
  let l := s.tl.link.get n
  if !(l.en && l.vital && l.group == g) ∨ l.retired then s
  else
    let hits := (List.finRange 64).filter fun j => stagedIn d a (l.stg.get j) && j.val < l.outlen
    let cleared := s.modLink n fun l => { l with stg := Vector.replicate 64 none }
    if hits.isEmpty then cleared.modLink n fun x => { x with groupSafe := false }
    else if tlSlotsOk l d a && !disagree then
      cleared.modLink n fun x => { x with
        image := Vector.ofFn fun j => if hits.contains j then (l.stg.get j).elim 0 (fun y => y.value) else l.image.get j
        imageDate := d, groupSafe := false, outDue := x.outDue || x.otrig }
    else tlRetire n 4 cleared

/-- Staged slots of a generation, or all of them, are cleared (R193, R195). -/
def tlDiscard (g : BitVec 6) (gen : Option (BitVec 32 × Bool)) (s : State) : State :=
  { s with tl := { s.tl with link := s.tl.link.map fun l =>
    if l.vital && l.group == g then
      { l with stg := l.stg.map fun x => match gen with
        | some (d, a) => if stagedIn d a x then none else x
        | none => none }
    else l } }

/-- The safe-level order for the link's group (R332). -/
def tlSafe (n : Fin 16) (s : State) : State :=
  s.modLink n fun l => if l.vital then { l with groupSafe := true, safeDue := true } else l

/-- An OUT frame is due and can leave (R331). -/
def tlOutDue (l : Link) (now : Nat) : Bool :=
  l.en && l.up && !l.sendsSafe && l.unacked.isNone &&
    (l.outDue || (l.oper != 0 && decide (l.lastOut + l.oper * tclkPeriod ≤ now)))

/-- An OUT frame leaves (R331). -/
def tlSendOut (n : Fin 16) (s : State) : State :=
  let l := s.tl.link.get n
  if tlOutDue l s.now then
    s.modLink n fun l =>
      let p := l.oper * tclkPeriod
      { l.send s.now tyOut (l.outFrame false) with
        outDue := false
        lastOut := if p = 0 then l.lastOut else l.lastOut + (s.now - l.lastOut) / p * p }
  else s

/-- A frame in progress is aborted with K30.7, and two idle characters follow (R319, R332). -/
def Link.abort (l : Link) (now : Nat) : Link := { l with lineFree := min l.lineFree (now + 3 * tclkPeriod) }

/-- A SAFE frame is due (R332): on an order, and then in each period, on a live link once the one before is answered or dropped. -/
def tlSafeDue (l : Link) (now : Nat) : Bool :=
  let period := if l.oper = 0 then 100 * microsecond else l.oper * tclkPeriod
  l.sendsSafe && (l.up || l.retired) &&
    (l.safeDue || (decide (l.lastSafe + period ≤ now) && (l.retired || (l.oper != 0 && l.unacked.isNone))))

/-- A SAFE frame leaves (R332): the order's first aborts what is in progress and ends the wait for its answer (log entry 87), and
a retired link awaits none. -/
def tlSendSafe (n : Fin 16) (s : State) : State :=
  if tlSafeDue (s.tl.link.get n) s.now then
    tlGiveUp n (fun l =>
      let x := ((if l.safeDue then l.giveUp.abort s.now else l).send s.now tyOut (l.outFrame true))
      { x with safeDue := false, lastSafe := s.now, unacked := if l.retired then none else x.unacked }) s
  else s

/-! ### Enable, loss, freeze (R319, R322, R323, R326, R331) -/

/-- The enable is accepted (R323, R331, R335). -/
def tlEnableOk (l : Link) : Bool :=
  l.vmin ≤ l.vmax && (!l.vital || 3 ≤ l.vmin) && l.obase ≤ 4092 && l.outlen ≤ 64 && 1 ≤ l.inlen && l.inlen ≤ 64 &&
  16 ≤ l.ackto && 1 ≤ l.depth && l.dbasin < 12 &&
  (l.oper == 0 || frameChars (2 + l.outlen + (l.vmax == 3).toNat) ≤ l.oper)

/-- A header row of a link's area is due, its half's records written (R261, R327). -/
def linkHeaderDue (s : State) (n : Fin 16) : Bool :=
  let l := s.tl.link.get n
  l.area.headerReady n.val l.fifo && (basinIx l.dbasin).any (portBUp s)

/-- A header row of a link's area is written, in a BCLK of port B, and the event of a frozen half asserted (R219, R261, R265, R327). -/
def tlHeader (n : Fin 16) (s : State) : State :=
  let l := s.tl.link.get n
  match l.area.header, basinIx l.dbasin with
  | some h, some b =>
    if !linkHeaderDue s n then s
    else
      let p := askPortB s b (quayBank l.dbank) .towline
      if !p.1 then p.2
      else
        let s1 := portBWrite b (wordsAt (areaBase l.dbank l.drow) [l.area.headerWord false h, l.area.headerWord true h]) p.2
        let s2 := s1.modLink n fun l => { l with area := l.area.written }
        if l.area.zero then s2 else tlEvent l s2
  | _, _ => s

/-- A write of TL_CFG.EN (R322). -/
def tlSetEnable (n : Fin 16) (en : Bool) (s : State) : State :=
  let l := s.tl.link.get n
  if en = l.en then s
  else if !en then tlGiveUp n (fun l => { l.restart with cfg := l.cfg &&& ~~~1, lock := false, capDue := false }) s
  else if tlEnableOk l then
    tlHeader n (tlGiveUp n (fun l => { { l with lock := false }.restart with
      cfg := l.cfg ||| 1, area := Area.fresh l.frz, fifo := [], recRow := 0, gapNext := false, groupSafe := true, safeDue := false
      rxRun := 0, lastPoison := s.now }) s)
  else tlRefuse n s

/-- The receiver gains lock (R319): a CAP frame leaves (R322). -/
def tlLock (n : Fin 16) (s : State) : State :=
  let l := s.tl.link.get n
  if l.en && !l.lock then
    tlGiveUp n (fun l =>
      let x := { l with lock := true, rxHist := 0 }
      if l.retired then x else Link.sendCap x.restart s.now) s
  else s

/-- The receiver loses lock (R319, R326). -/
def tlLoseLock (n : Fin 16) (s : State) : State :=
  let l := s.tl.link.get n
  if l.en && l.lock then
    tlGiveUp n (fun l =>
      let x := { l with lock := false, rxRun := 0 }
      if l.retired then x else { x.restart with capDue := false }) (tlDown n 1 s)
  else s

/-- How many of the last 16 characters were violations (R319). -/
def violations (h : BitVec 16) : Nat := ((List.range 16).filter fun i => h.getLsbD i).length

/-- The receiver of link n takes a character, valid or in violation of the code or its disparity (R319). -/
def tlChar (n : Fin 16) (s : State) (valid : Bool) : State :=
  let l := s.tl.link.get n
  if !l.en then s
  else if l.lock then
    let h := l.rxHist <<< 1 ||| BitVec.ofNat 16 (!valid).toNat
    let s1 := s.modLink n fun l => { l with rxHist := h }
    if 4 ≤ violations h then tlLoseLock n s1 else s1
  else
    let r := if valid then l.rxRun + 1 else 0
    let s1 := s.modLink n fun l => { l with rxRun := r }
    if 64 ≤ r then tlLock n s1 else s1

/-- The receiver of link n takes characters, the oldest first. -/
def tlChars (n : Fin 16) (chars : List Bool) (s : State) : State := chars.foldl (tlChar n) s

/-- A CAP frame is sent again (R322): each 1 ms while the link is not up, or at once when link-up starts again. -/
def tlResendCap (n : Fin 16) (s : State) : State :=
  let l := s.tl.link.get n
  if l.en && l.lock && !l.retired && !l.up && l.unacked.isNone && (l.capDue || decide (l.capAt + 1000 * microsecond ≤ s.now)) then
    s.modLink n fun l => l.sendCap s.now
  else s

/-- A freeze of a task reaches one link (R261, R327, R328): records accepted in its own TCLK go to the half that becomes live, and
a link retired or down writes a poison record to the other. -/
def tlFreezeOne (n : Fin 16) (s : State) : State :=
  let l := s.tl.link.get n
  let s1 := s.modLink n fun l =>
    let a := l.area.freeze l.en
    { l with area := a, fifo := l.fifo.map fun r => if sameTclk s r.time then { r with half := a.half } else r }
  if l.en && (l.retired || !l.up) then tlPoison n l.area.half s1 else s1

/-- A freeze of a task reaches the block. -/
def tlFreezeAll (t : BitVec 8) (s : State) : State :=
  let s0 := { s with tl := { s.tl with freezes := dropFirst (· == t) s.tl.freezes } }
  (ixs 16 fun n => let l := s.tl.link.get n; l.frz && l.ftask == t).foldl (fun s n => tlFreezeOne n s) s0

/-- A poison record is due on a link without snapshots (R328). -/
def tlPoisonDue (n : Fin 16) (s : State) : State :=
  let l := s.tl.link.get n
  let period := if l.rxto = 0 then 1000 * microsecond else l.rxto * microsecond
  if l.en && (l.retired || !l.up) && !l.frz && decide (l.lastPoison + period ≤ s.now) then tlPoison n false s else s

/-- No valid IN frame for RXTO µs, the TCLK that ends them included (R326). -/
def tlRxto (n : Fin 16) (s : State) : State :=
  let l := s.tl.link.get n
  if l.en && l.up && l.rxto != 0 && decide (l.lastIn + l.rxto * microsecond < s.now) then
    if l.vital then tlDown n 3 s else s.modLink n fun l => { l with gapNext := true, lastIn := s.now }
  else s

/-- GO of TL_MTX (R329): the words are read through the Wharf; ignored while a MAINT frame is in progress. -/
def tlMtxStart (n : Fin 16) (s : State) : State :=
  let l := s.tl.link.get n
  if l.mtxBusy then s
  else
    let txs := (List.range l.mtxLen.toNat).map fun i => maintTx n (l.mtxAddr.toNat + i) []
    tlPresent (tlSendMaint n (s.modLink n fun l =>
      { l with mtxBusy := true, mtxTxs := txs, mtxGot := [], maintDue := txs.isEmpty }))

/-- A link reset (R335): it clears retirement, counters and halves, and restarts link-up. -/
def tlReset (n : Fin 16) (s : State) : State :=
  tlGiveUp n (fun l => { l.restart with
    retired := false, rcause := 0, crcerr := 0, retries := 0, drop := 0, rxdup := 0, area := {}, fifo := [], recRow := 0
    lastPoison := s.now }) s

/-! ### RECORD_WRITE (R219, R263, R327) -/

/-- One row of a link's first record is written into its slot, and with the last row the slot is taken (R327). -/
def writeLinkRecord (n : Fin 16) (b : BasinIx) (r : Record) (s : State) : State :=
  let l := s.tl.link.get n
  let slot := (l.area.next r.half).toNat
  let a := areaSlot (areaBase l.dbank l.drow) l.depth l.recSize r.half slot + 32 * l.recRow
  let s1 := portBWrite b (wordsAt a ((r.words.drop (8 * l.recRow)).take 8)) s
  if 8 * (l.recRow + 1) < r.words.length then s1.modLink n fun l => { l with recRow := l.recRow + 1 }
  else
    let s2 := s1.modLink n fun l => { l with area := l.area.advance r.half l.depth, fifo := l.fifo.tail, recRow := 0 }
    if !l.frz ∧ (slot = 0 ∨ slot = l.depth / 2) then tlEvent l s2 else s2

/-- The first record of a link for a quay bank that can be written: one accepted in an earlier TCLK (R327). -/
def linkRecord (s : State) (b : BasinIx) (bank : Bool) (n : Fin 16) : Option Record :=
  let l := s.tl.link.get n
  if l.dbasin = b.val ∧ l.dbank = bank then l.fifo.head?.filter fun r => !sameTclk s r.time else none

/-- The link whose record a quay bank takes next: one begun, then the first. -/
def linkForBank (s : State) (b : BasinIx) (bank : Bool) : Option (Fin 16) :=
  let ns := (List.finRange 16).filter fun n => (linkRecord s b bank n).isSome
  (ns.find? fun n => (s.tl.link.get n).recRow != 0).orElse fun _ => ns.head?

/-- The link whose header row a quay bank takes next. -/
def linkHeaderForBank (s : State) (b : BasinIx) (bank : Bool) : Option (Fin 16) :=
  (List.finRange 16).find? fun n =>
    (s.tl.link.get n).dbasin == b.val && (s.tl.link.get n).dbank == bank && linkHeaderDue s n

/-- One port B access of the Weir's or Towline's writes records of a quay bank, the Weir's first, then, between two records of
links, a link's header row (R219, R263, R327). -/
def recordWriteAny (b : BasinIx) (bank : Bool) (s : State) : State :=
  if !portBUp s b then s
  else
    match nextForBank s bank (s.weir.fifo.get b) with
    | some (r, rest) =>
      let p := askPortB s b (quayBank bank) .weir
      if p.1 && !sameFclk s r.time then writeWeirRecord b r { p.2 with weir := { p.2.weir with fifo := vput p.2.weir.fifo b rest } }
      else s
    | none =>
      let next := linkForBank s b bank
      let begun := next.any fun n => (s.tl.link.get n).recRow != 0
      match (if begun then none else linkHeaderForBank s b bank), next with
      | some n, _ => tlHeader n s
      | none, some n =>
        match linkRecord s b bank n with
        | some r =>
          let p := askPortB s b (quayBank bank) .towline
          if p.1 then writeLinkRecord n b r p.2 else p.2
        | none => s
      | none, none => s

/-! ### Registers (R334, R335) -/

/-- Link word k as read; none where it is unmapped. -/
def tlReadLink (s : State) (n : Fin 16) (k : Nat) : Option Word :=
  let l := s.tl.link.get n
  match k with
  | 0 => some (l.cfg.setWidth 36)
  | 1 => some (l.time.setWidth 36)
  | 2 => some l.rxdst
  | 3 => some (l.rxcfg.setWidth 36)
  | 4 =>
    some (bit36 0 l.up ||| put36 1 l.ver ||| bit36 3 l.nover ||| bit36 4 l.lenerr ||| bit36 5 l.retired ||| put36 6 l.rcause |||
      bit36 9 l.area.half ||| put36 10 (l.area.next l.area.half) ||| bit36 18 l.cfgerr ||| bit36 19 l.sendsSafe)
  | 5 => some (l.peer.setWidth 36)
  | 6 => some (put36 0 l.crcerr ||| put36 18 l.retries)
  | 7 => some (put36 0 l.drop ||| put36 18 l.rxdup)
  | 8 => some l.mrx
  | 9 => some (put36 0 l.mrxWr ||| put36 16 l.mrxRd)
  | 10 => some (put36 0 l.mtxAddr ||| put36 20 l.mtxLen ||| bit36 30 l.mtxBusy ||| bit36 31 l.mtxDone ||| bit36 32 l.mtxFail)
  | 11 => some 0
  | _ => none

/-- A write of link word k through PER; none where it is unmapped. -/
def tlWriteLink (n : Fin 16) (k : Nat) (v : Word) (s : State) : Option State :=
  let l := s.tl.link.get n
  let config (f : Link → Link) : Option State := some (if l.en then tlRefuse n s else s.modLink n f)
  match k with
  | 0 =>
    let v := v &&& mask36 0 34
    let s1 :=
      if l.en then if (v ^^^ l.cfg.setWidth 36) &&& ~~~1 != 0 then tlRefuse n s else s
      else s.modLink n fun l => { l with cfg := low 34 (v &&& ~~~1) }
    some (tlSetEnable n (bit v 0) s1)
  | 1 => config fun l => { l with time := low 28 v }
  | 2 => config fun l => { l with rxdst := v }
  | 3 => config fun l => { l with rxcfg := low 26 v }
  | 4 =>
    let m := s.w1c (.linkStat n) (sameTclk s) v
    some (s.modLink n fun l => { l with
      nover := l.nover && !bit m 3, lenerr := l.lenerr && !bit m 4, cfgerr := l.cfgerr && !bit m 18 })
  | 8 => config fun l => { l with mrx := v }
  | 9 => some (s.modLink n fun l => { l with mrxRd := fld v 16 16 })
  | 10 =>
    let m := s.w1c (.linkMtx n) (sameTclk s) v
    let s1 := s.modLink n fun l =>
      let l1 := { l with mtxDone := l.mtxDone && !bit m 31, mtxFail := l.mtxFail && !bit m 32 }
      if l.mtxBusy then l1 else { l1 with mtxAddr := low 20 v, mtxLen := fld v 20 9 }
    some (if bit v 29 then tlMtxStart n s1 else s1)
  | 11 => some (if bit v 0 then tlReset n s else s)
  | k => if 5 ≤ k ∧ k ≤ 7 then some s else none

/-- A read through PER at a block offset; none where no register is mapped. -/
def tlRead (s : State) (off : Nat) : Option Word :=
  if off = 0 then some 0x37240
  else if off = 1 then
    some ((List.range 16).foldl (fun w j => w ||| bit36 j (vgetN (s.tl.link.map fun l => l.retired) j false)) 0)
  else if off = 2 then
    some ((List.range 16).foldl (fun w j => w ||| bit36 j (vgetN (s.tl.link.map fun l => l.up) j false)) 0)
  else if h : 0x40 ≤ off ∧ off < 0x140 then tlReadLink s ⟨(off - 0x40) / 16, by omega⟩ ((off - 0x40) % 16)
  else if h : 0x400 ≤ off ∧ off < 0x800 then
    if (off - 0x400) % 64 < (s.tl.link.get ⟨(off - 0x400) / 64, by omega⟩).outlen then some 0 else none
  else none

/-- A write through PER at a block offset; none where no register is mapped. -/
def tlWrite (off : Nat) (v : Word) (s : State) : Option State :=
  if h : 0x40 ≤ off ∧ off < 0x140 then tlWriteLink ⟨(off - 0x40) / 16, by omega⟩ ((off - 0x40) % 16) v s
  else if h : 0x400 ≤ off ∧ off < 0x800 then
    (tlRead s off).map fun _ => tlStage ⟨(off - 0x400) / 64, by omega⟩ ⟨(off - 0x400) % 64, Nat.mod_lt _ (by decide)⟩ .bridge v s
  else (tlRead s off).map fun _ => s

/-- A barge's window admits a link (R334). -/
def tlAdmits (s : State) (g : BargeIx) (world : Bool) (n : Fin 16) : Bool :=
  let l := s.tl.link.get n
  l.ownv && l.oworld == world && l.dbasin == (basinOf g).val

/-! ### The commands -/

/-- TL_STG_WRITE (R330). -/
def execTlStgWrite (dt : Nat) (l : Fin 16) (slot : Fin 64) (src : StgWriter) (value : Word) (s : State) : Out :=
  act s dt fun s =>
    match src with
    | .window g w _ _ => if tlAdmits s g w l then tlStage l slot src value s else s
    | .bridge => tlStage l slot src value s

/-- TL_COMMIT (R330). -/
def execTlCommit (dt : Nat) (l : Fin 16) (disagree : Bool) (s : State) : Out :=
  act s dt fun s =>
    match (s.tl.link.get l).gates with
    | .opening g d a since :: rest => if !kclkOver s since then s else tlCommit l g d a disagree (s.modLink l fun x => { x with gates := rest })
    | _ => s

/-- RECORD_WRITE (R263). -/
def execRecordWrite (dt : Nat) (basin : BasinIx) (bank : Bool) (s : State) : Out := act s dt (recordWriteAny basin bank)

/-- TL_LINK_ENABLE (R322): TL_CFG.EN is written. -/
def execTlLinkEnable (dt : Nat) (l : Fin 16) (en : Bool) (s : State) : Out := act s dt (tlSetEnable l en)

/-- RX_LOCK (R319): characters reach the receiver, which gains lock on the 64th valid one in a row. -/
def execRxLock (dt : Nat) (l : Fin 16) (chars : List Bool) (s : State) : Out := act s dt (tlChars l chars)

/-- LOCK_LOSS (R319, R326): characters reach the receiver, which loses lock on the fourth violation within 16. -/
def execLockLoss (dt : Nat) (l : Fin 16) (chars : List Bool) (s : State) : Out := act s dt (watchTrips (tlChars l chars))

/-- CAP_RESEND (R322). -/
def execCapResend (dt : Nat) (l : Fin 16) (s : State) : Out := act s dt (tlResendCap l)

/-- FRAME_RECEIVE (R319, R324): a frame that its sender ends with K30.7 is discarded. -/
def execFrameReceive (dt : Nat) (l : Fin 16) (units : List Word) (aborted : Bool) (s : State) : Out :=
  act s dt fun s => if aborted then s else tlReceive l units s

/-- ACK_TIMEOUT (R325): ACKTO has passed since the frame's EOF, the TCLK that ends it included. -/
def execAckTimeout (dt : Nat) (l : Fin 16) (s : State) : Out :=
  act s dt (gated (fun s =>
    let x := s.tl.link.get l
    x.unacked.any fun f => decide (f.eof + x.ackto * tclkPeriod < s.now)) fun s => tlSendMaint l (tlRetry l s))

/-- RXTO_EXPIRY (R326). -/
def execRxtoExpiry (dt : Nat) (l : Fin 16) (s : State) : Out := act s dt (tlRxto l)

/-- OUT_FRAME_SEND (R331). -/
def execOutFrameSend (dt : Nat) (l : Fin 16) (s : State) : Out := act s dt (tlSendOut l)

/-- SAFE_FRAME_SEND (R332). -/
def execSafeFrameSend (dt : Nat) (l : Fin 16) (s : State) : Out := act s dt (tlSendSafe l)

/-- POISON_RECORD (R328). -/
def execPoisonRecord (dt : Nat) (l : Fin 16) (s : State) : Out := act s dt (tlPoisonDue l)

/-- TL_FREEZE (R261, R328). -/
def execTlFreeze (dt : Nat) (task : Fin 256) (s : State) : Out :=
  act s dt (gated (fun s => s.tl.freezes.contains (BitVec.ofNat 8 task.val)) (tlFreezeAll (BitVec.ofNat 8 task.val)))

/-- TL_MTX_GO (R329). -/
def execTlMtxGo (dt : Nat) (l : Fin 16) (s : State) : Out := act s dt (tlMtxStart l)

/-- LRST (R335). -/
def execLrst (dt : Nat) (l : Fin 16) (s : State) : Out := act s dt (watchReady (tlReset l))

/-- TARGET_RESPONSE (R242): a response returns to its initiator. -/
def execTargetResponse (dt : Nat) (init : Fin 16) (id : BitVec 5) (s : State) : Out :=
  act s dt (if init = 14 then tlResponse id else portResponse init id)

/-- GROUP_SAFE_ORDER (R191, R283, R310, R332): an order on its way from the Keeper reaches one output block. -/
def execGroupSafeOrder (dt : Nat) (block : OutBlock) (s : State) : Out :=
  act s dt fun s =>
    match block with
    | .hrpwm =>
      match s.pwm.gates with
      | .safe g :: rest => pwmSafe (some g) { s with pwm := { s.pwm with gates := rest } }
      | .safeAll :: rest => pwmSafe none { s with pwm := { s.pwm with gates := rest } }
      | _ => s
    | .fio =>
      match s.fio.gates with
      | .safe g :: rest => foSafe (some g) { s with fio := { s.fio with gates := rest } }
      | .safeAll :: rest => foSafe none { s with fio := { s.fio with gates := rest } }
      | _ => s
    | .towline l =>
      match (s.tl.link.get l).gates with
      | .safe _ :: rest => tlSafe l (s.modLink l fun x => { x with gates := rest })
      | .safeAll :: rest => tlSafe l (s.modLink l fun x => { x with gates := rest })
      | _ => s

end Sys2Proof.Machine
end

