-- ==== Sys2Proof/Machine/Windows.lean ====
section
/-! DEFINITION. A barge's I/O windows: which words are mapped, what they read, which writes fault, and what writes do (R82 to
R85, R101 to R103, R109, R110, R120, R137, R166, R213, R228, R231, R270, R294, R316, R334, R416). -/

namespace Sys2Proof.Machine

/-- The value of an SY register as read: the value last written (R6), or the one in effect. -/
def lastWritten (b : Barge) (k : SyKey) (cur : Word) : Word := ((b.syPend.reverse.find? fun x => x.1 == k).map fun x => x.2).getD cur

/-- INTC_SRC[n] (R110). -/
def IntSource.word (i : IntSource) : Word := bit36 0 i.en ||| put36 1 i.pri ||| bit36 4 i.world ||| bit36 5 i.pend

/-- PEND of 36 sources from `lo` on; a vital-routed source shows 0 in the ordinary window (R110). -/
def pendWord (b : Barge) (world : Bool) (lo : Nat) : Word :=
  (List.range 36).foldl (fun w j =>
    w ||| bit36 j (vgetN (b.intc.map fun i => i.pend && (world || !i.world)) (lo + j) false)) 0

/-- BC_CAUSE (R102). -/
def WorldCtl.causeWord (c : WorldCtl) : Word := put36 0 c.cause ||| bit36 8 c.causeUl ||| bit36 9 c.causeInexact

/-- A barge control word (R102, R120); none where unmapped. -/
def readControl (b : Barge) (world : Bool) (a : Nat) : Option Word :=
  let c := b.ctl world
  match a with
  | 0x00 => some (mergeBits pswWritable b.psw (lastWritten b .psw b.psw))
  | 0x01 => some (lastWritten b .ctxid (b.ctxid.setWidth 36) &&& mask36 0 16)
  | 0x02 => some (lastWritten b (.fps world) (c.fps.setWidth 36) &&& mask36 5 15)
  | 0x03 => some (lastWritten b (.fpu world) (c.fpu.setWidth 36) &&& mask36 5 15)
  | 0x04 => some (lastWritten b (.vbase world) (put36 7 c.vbase ||| bit36 14 c.pbar) &&& mask36 7 8)
  | 0x05 => some c.causeWord
  | 0x06 => some c.faddr
  | 0x07 => if world then some (b.gateBase.setWidth 36) else none
  | 0x08 => if world then some (b.gateCnt.setWidth 36) else none
  | 0x09 => some b.rstinfo
  | a =>
    if h : 0x10 ≤ a ∧ a < 0x14 then some (b.tcmp.get ⟨a - 0x10, by omega⟩)
    else if 0x40 ≤ a ∧ a < 0x60 then some (b.u.getWord (a - 0x40))
    else none

/-- A SIG register (R166); the offset counts from word 0x0210. -/
def readSig (b : Barge) (k : Nat) : Option Word :=
  let x := b.sig
  match k with
  | 0 => some (lastWritten b .sigCfg (bit36 0 x.en ||| bit36 1 x.tchk) &&& mask36 0 2)
  | 1 => some (bit36 0 x.isOpen ||| put36 1 x.task ||| at36 9 x.queue.length ||| bit36 12 x.qovf ||| bit36 13 x.retry)
  | 2 => some (x.date.setWidth 36)
  | 3 => some (x.n.setWidth 36)
  | 4 => some 0
  | 5 => some x.seals
  | 6 => some (match x.queue with
    | (_, t) :: _ => put36 0 t ||| bit36 8 true
    | [] => 0)
  | _ => none

/-- The basin registers (R231), read in the basin's BCLK c: a counter or a record shows its value before that BCLK's events (R6). -/
def basinRead (x : Basin) (c off : Nat) : Option Word :=
  if h : off < 16 then some ((x.banks.get ⟨off, h⟩).own.setWidth 36)
  else if h : 0x10 ≤ off ∧ off < 0x14 then some ((x.codemap.get ⟨off - 0x10, by omega⟩).setWidth 36)
  else if h : 0x20 ≤ off ∧ off < 0x24 then
    some (x.counterAt c off (x.code.get ⟨off - 0x20, by omega⟩).errWord)
  else if h : 0x30 ≤ off ∧ off < 0x40 then some (x.repair.get ⟨off - 0x30, by omega⟩)
  else match off with
    | 0x14 => some 0
    | 0x15 => some ((List.finRange 16).foldl (fun w b => w ||| bit36 b.val (x.banks.get b).ho.isSome) 0)
    | 0x18 => some (bit36 0 x.scrubIdle ||| bit36 1 x.scrubPatrol)
    | 0x19 => some (put36 0 x.scrubPass ||| put36 16 x.codePass)
    | 0x1A => some (x.counterAt c off x.ceCnt)
    | 0x1B => some (x.counterAt c off x.ueCnt)
    | 0x1C => some (x.counterAt c off x.errReg)
    | 0x1D => some (x.counterAt c off x.quayColl)
    | 0x1E => some (x.counterAt c off x.refReg)
    | 0x1F => some (x.counterAt c off x.refCnt)
    | 0x24 => some (put36 0 x.bistS ||| put36 16 x.bistC ||| bit36 20 x.bistDone)
    | _ => none

/-- A basin register as a barge reads it: BANK_OWN or CODEMAP as the barge last wrote it (R6). -/
def readBasinWindow (s : State) (g : BargeIx) (off : Nat) : Option Word :=
  let b := s.barges.get g
  (basinRead (s.basins.get (basinOf g)) (bclkCount s (basinOf g)) off).map fun v =>
    if h : off < 16 then
      let k : BankIx := ⟨off, h⟩
      lastWritten b (.bankOwn k false) (lastWritten b (.bankOwn k true) v) &&& mask36 0 7
    else if off = 0x10 + (posOf g).val then lastWritten b .codemap v &&& mask36 0 2
    else v

/-- An identity register (R85). -/
def readIdentity (s : State) (g : BargeIx) (a : Nat) : Option Word :=
  match a with
  | 0xFF00 => some (at36 0 g.val ||| at36 6 (basinOf g).val ||| at36 10 (posOf g).val)
  | 0xFF01 => some (at36 0 0x7240 ||| put36 16 s.sec.loaded.step)
  | 0xFF02 => some (s.crp.profile.setWidth 36)
  | _ => none

/-- IOU_CODEWIN (R84). -/
def WorldCtl.codeWin (c : WorldCtl) : Word := put36 0 c.cwBlk ||| put36 4 c.cwBank ||| bit36 8 c.cwUe ||| bit36 9 c.cwCrce

/-- A word of a window (R83); none where the window maps none or the channel is not the world's. A code-window word reads
through its own line read (R84). -/
def winRead (s : State) (g : BargeIx) (world : Bool) (a : Nat) : Option Word :=
  let b := s.barges.get g
  if a < 0x100 then readControl b world a
  else if h : a < 0x140 then some (b.intc.get ⟨(a - 0x100) % 64, Nat.mod_lt _ (by decide)⟩).word
  else if a = 0x140 then some (pendWord b world 0)
  else if a = 0x141 then some (pendWord b world 36)
  else if a = 0x142 then some 0
  else if a = 0x143 then some (match (b.ctl world).last with
    | some n => put36 0 n ||| bit36 6 true
    | none => 0)
  else if h : 0x180 ≤ a ∧ a < 0x188 then some ((b.dbg.bps.get ⟨a - 0x180, by omega⟩).hits.setWidth 36)
  else if a = 0x188 then some (put36 0 s.sec.loaded.life ||| bit36 2 s.sec.unlocked)
  else if a = 0x200 then some (b.ctl world).codeWin
  else if 0x210 ≤ a ∧ a < 0x240 then (if world then readSig b (a - 0x210) else none)
  else if 0x400 ≤ a ∧ a < 0x500 then readBasinWindow s g (a - 0x400)
  else if 0x1000 ≤ a ∧ a < 0x2000 then some 0
  else if h : 0x2000 ≤ a ∧ a < 0x2000 + 16 * 192 then
    let n : Fin 192 := ⟨(a - 0x2000) / 16, by omega⟩
    if pwmAdmits s g world n then pwmReadChan s n ((a - 0x2000) % 16) else none
  else if h : 0x3000 ≤ a ∧ a < 0x3200 then
    let n : Fin 128 := ⟨(a - 0x3000) / 4, by omega⟩
    if fiAdmits s g world n then fiReadChan s n ((a - 0x3000) % 4) else none
  else if h : 0x3200 ≤ a ∧ a < 0x3400 then
    let n : Fin 128 := ⟨(a - 0x3200) / 4, by omega⟩
    if foAdmits s g world n then some (foReadChan s n ((a - 0x3200) % 4)) else none
  else if h : 0x3400 ≤ a ∧ a < 0x3800 then
    let l : Fin 16 := ⟨(a - 0x3400) / 64, by omega⟩
    if tlAdmits s g world l ∧ (a - 0x3400) % 64 < (s.tl.link.get l).outlen then some 0 else none
  else if h : 0x4000 ≤ a ∧ a < 0x4000 + 8 * 384 then
    let n : Fin 384 := ⟨(a - 0x4000) / 8, by omega⟩
    if weirAdmits s g world n then some (weirReadChan s n ((a - 0x4000) % 8)) else none
  else readIdentity s g a

/-- A CODEMAP write of barge q that its IOU has not completed (R228). -/
def mapWriting (b : Barge) (q : Fin 4) (k : BitVec 2) : Bool :=
  b.iou.any fun o => o.write && o.addr.toNat == 0x410 + q.val && low 2 o.data == k

/-- The barges of a basin, other than the one at p, that fetch from code bank k now or after a pending write (R228). -/
def mappedTo (s : State) (n : BasinIx) (p : Fin 4) (k : BitVec 2) : Nat :=
  ((List.finRange 4).filter fun q => q != p &&
    ((s.basins.get n).codemap.get q == k || mapWriting (s.barges.get (bargeOf n q)) q k ||
      (s.barges.get (bargeOf n q)).syPend.any fun x => x.1 == .codemap && low 2 x.2 == k)).length

/-- A write that raises the I/O access fault at trigger (R82, R103, R110, R120, R137, R166, R213, R228, R231, R270, R294,
R316, R334). -/
def winWriteFaults (s : State) (g : BargeIx) (world sup : Bool) (a : Nat) (v : Word) : Bool :=
  let b := s.barges.get g
  let n := basinOf g
  let p := posOf g
  (winRead s g world a).isNone ||
  (if a = 0 then (bit v 2 && bit v 3) || (!world && bit v 0)
  else if h : 0x10 ≤ a ∧ a < 0x14 then !world && (b.intc.get ⟨a, by omega⟩).world
  else if 0x56 ≤ a ∧ a < 0x5E then !world
  else if h : 0x100 ≤ a ∧ a < 0x140 then !world && (bit v 4 || (b.intc.get ⟨a - 0x100, by omega⟩).world)
  else if a = 0x142 then !world && (List.finRange 4).any fun k => bit v k.val && (b.intc.get ⟨4 + k.val, by omega⟩).world
  else if h : 0x400 ≤ a ∧ a < 0x410 then
    bankOwnRefused ((s.basins.get n).banks.get ⟨a - 0x400, by omega⟩).own p world sup v
  else if 0x410 ≤ a ∧ a < 0x414 then !world || !sup || a != 0x410 + p.val || 2 ≤ mappedTo s n p (low 2 v)
  else if 0x400 ≤ a ∧ a < 0x500 then a != 0x414
  else if 0x2000 ≤ a ∧ a < 0x3000 then !((a % 16 == 0) || (a % 16 == 11 && !bit v 1))
  else if 0x3000 ≤ a ∧ a < 0x3200 then a % 4 != 3
  else if 0x3200 ≤ a ∧ a < 0x3400 then !(a % 4 == 0 || a % 4 == 3)
  else if 0x4000 ≤ a ∧ a < 0x5000 then !(a % 8 == 4 || a % 8 == 7)
  else false)

/-- The address names a vital staging register (R157). -/
def vitalStaging (s : State) (world : Bool) (a : Nat) : Bool :=
  if a = 0x214 then world
  else if h : 0x2000 ≤ a ∧ a < 0x2000 + 16 * 192 then a % 16 == 0 && (s.pwm.ch.get ⟨(a - 0x2000) / 16, by omega⟩).vital
  else if h : 0x3200 ≤ a ∧ a < 0x3400 then a % 4 == 0 && (s.fio.fo.get ⟨(a - 0x3200) / 4, by omega⟩).vital
  else if h : 0x3400 ≤ a ∧ a < 0x3800 then (s.tl.link.get ⟨(a - 0x3400) / 64, by omega⟩).vital
  else false

/-- A setting written, to take effect at the writer's next SYNC (R98). -/
def pendSetting (g : BargeIx) (k : SyKey) (v : Word) (s : State) : State :=
  s.modBarge g fun b => { b with syPend := b.syPend ++ [(k, v)] }

/-- A write of BC_TCMP[k] arms source 16 + k (R109). -/
def writeTcmp (g : BargeIx) (k : Fin 4) (v : Word) (s : State) : State :=
  s.modBarge g fun b => { b with tcmp := vput b.tcmp k v, tcmpArmed := vput b.tcmpArmed k true }

/-- A W1C write of a barge's register: the bits whose event fell in the write's BCLK stay (R6). -/
def bargeW1c (s : State) (g : BargeIx) (r : W1cReg) (v : Word) : Word := s.w1c r (sameBclk (basinOf g) s) v

/-- PEND of source n is set by an event of the present BCLK (R110). -/
def pendNow (s : State) (g : BargeIx) (n : Fin 64) : Bool :=
  s.events.any fun e => e.reg == .intc g && e.bit == n.val && sameBclk (basinOf g) s e.time

/-- A write of INTC_SRC[n] (R110): a source event of the same BCLK leaves PEND set. -/
def writeIntSrc (g : BargeIx) (n : Fin 64) (v : Word) (s : State) : State :=
  let clear := bit v 5 && !pendNow s g n
  latchSig g (s.modBarge g fun b => { b with intc := vmod b.intc n fun i =>
    { i with en := bit v 0, pri := fld v 1 3, world := if n.val < 3 then true else bit v 4, pend := i.pend && !clear } })

/-- A write of INTC_SWI (R110). -/
def writeSwi (g : BargeIx) (v : Word) (s : State) : State :=
  (List.finRange 4).foldl (fun s k => if bit v k.val then s.pend g ⟨4 + k.val, by omega⟩ else s) s

/-- A write of BASIN_DBELL by barge g (R231). -/
def writeDbell (g : BargeIx) (v : Word) (s : State) : State :=
  (List.finRange 4).foldl (fun s q =>
    if bit v q.val then s.pend (bargeOf (basinOf g) q) ⟨8 + (posOf g).val, by omega⟩ else s) s

/-- A write of a barge control word (R102, R120). -/
def writeControl (g : BargeIx) (world : Bool) (a : Nat) (v : Word) (s : State) : State :=
  match a with
  | 0x00 => pendSetting g .psw v s
  | 0x01 => pendSetting g .ctxid v s
  | 0x02 => pendSetting g (.fps world) v s
  | 0x03 => pendSetting g (.fpu world) v s
  | 0x04 => pendSetting g (.vbase world) v s
  | 0x07 => s.modBarge g fun b => { b with gateBase := low 20 v &&& ~~~3 }
  | 0x08 => s.modBarge g fun b => { b with gateCnt := low 9 v }
  | a =>
    if h : 0x10 ≤ a ∧ a < 0x14 then writeTcmp g ⟨a - 0x10, by omega⟩ v s
    else if 0x40 ≤ a ∧ a < 0x60 then pendSetting g (.unit (BitVec.ofNat 5 (a - 0x40))) v s
    else s

/-- A write of a window word that its checks let through, with the generation tag of a staging write (R83, R192). -/
def winWrite (g : BargeIx) (world : Bool) (date : BitVec 32) (att : Bool) (a : Nat) (v : Word) (s : State) : State :=
  if a < 0x100 then writeControl g world a v s
  else if h : 0x100 ≤ a ∧ a < 0x140 then writeIntSrc g ⟨a - 0x100, by omega⟩ v s
  else if a = 0x142 then writeSwi g v s
  else if a = 0x200 then
    let w := bargeW1c s g (.codeWin g world) v
    s.modBarge g fun b =>
      let c := b.ctl world
      b.setCtl world { c with cwBlk := low 4 v, cwBank := fld v 4 2, cwUe := c.cwUe && !bit w 8, cwCrce := c.cwCrce && !bit w 9 }
  else if a = 0x210 then pendSetting g .sigCfg v s
  else if a = 0x211 then
    let w := bargeW1c s g (.sigStat g) v
    s.modBarge g fun b => { b with sig := { b.sig with qovf := b.sig.qovf && !bit w 12 } }
  else if h : 0x400 ≤ a ∧ a < 0x410 then pendSetting g (.bankOwn ⟨a - 0x400, by omega⟩ world) v s
  else if 0x410 ≤ a ∧ a < 0x414 then pendSetting g .codemap v s
  else if a = 0x414 then writeDbell g v s
  else if h : 0x2000 ≤ a ∧ a < 0x2000 + 16 * 192 then
    let n : Fin 192 := ⟨(a - 0x2000) / 16, by omega⟩
    if a % 16 = 0 then pwmStage n (.window g world date att) v s
    else if a % 16 = 11 ∧ bit v 0 then pwmTripClear n s else s
  else if h : 0x3000 ≤ a ∧ a < 0x3200 then (fiWriteChan ⟨(a - 0x3000) / 4, by omega⟩ (a % 4) v s).getD s
  else if h : 0x3200 ≤ a ∧ a < 0x3400 then
    let n : Fin 128 := ⟨(a - 0x3200) / 4, by omega⟩
    if a % 4 = 0 then foStage n (.window g world date att) v s else foWriteChan n (a % 4) v s
  else if h : 0x3400 ≤ a ∧ a < 0x3800 then
    tlStage ⟨(a - 0x3400) / 64, by omega⟩ ⟨(a - 0x3400) % 64, Nat.mod_lt _ (by decide)⟩ (.window g world date att) v s
  else if h : 0x4000 ≤ a ∧ a < 0x4000 + 8 * 384 then weirWriteChan ⟨(a - 0x4000) / 8, by omega⟩ (a % 8) v s
  else s

/-- The generation tag of a staging write (R192): the date and attempt that the SIG unit holds. -/
def stagingTag (b : Barge) : BitVec 32 × Bool := (b.sig.date, b.sig.retry)

/-- The fault of an instruction that writes a register through its window is taken at the barge's boundary (R31, R45, R82). -/
def writeFault (g : BargeIx) (cause : BitVec 8) (faddr : Word) (s : State) : State :=
  let b := s.barges.get g
  if !bargeRuns s g ∨ b.dbg.halted ∨ b.frameRun.isSome ∨ entryWaits s g then s
  else takeFault g (pswW b.psw) cause faddr b.pc b.irun s

/-- A write of one of a barge's own window words by its running code: at user level the privileged-port fault (R31), where the
write faults the I/O access fault (R82), else the write. -/
def regWriteBy (g : BargeIx) (a : Nat) (v : Word) (s : State) : State :=
  let b := s.barges.get g
  let w := pswW b.psw
  if !pswL b.psw then writeFault g 0x03 (b.pc.setWidth 36) s
  else if winWriteFaults s g w true a v then writeFault g 0x08 (BitVec.ofNat 36 a) s
  else winWrite g w (stagingTag b).1 (stagingTag b).2 a v s

end Sys2Proof.Machine
end

