-- ==== Sys2Proof/Machine/Issue.lean ====
section
/-! DEFINITION. Issuing one barge instruction: what its moves read, its faults and holds in the order of R45 and R443, and its
effect (R32 to R87, R129 to R137, R148 to R165). -/

namespace Sys2Proof.Machine

/-! ### What an instruction sees -/

/-- The barge as one instruction sees it: of every setting written and not yet synchronised, the old value or the new (R6,
R46), by free choices. -/
def effView (g : BargeIx) (s : State) : Barge :=
  let b := s.barges.get g
  b.syPend.zipIdx.foldl (fun v kv => if Config.freeChoice (s.freeCtr + kv.2) then v.setting kv.1 else v) b

/-- The basin as one instruction of a barge sees it (R46): of every BANK_OWN value that the barge has written and not yet
synchronised, the old value or the new, by the choices of `effView`. -/
def effBasin (g : BargeIx) (s : State) : Basin :=
  (s.barges.get g).syPend.zipIdx.foldl (fun x kv =>
    match kv.1.1 with
    | .bankOwn b _ =>
      if Config.freeChoice (s.freeCtr + kv.2) then
        { x with banks := vmod x.banks b fun y => { y with own := low 7 kv.1.2 } }
      else x
    | _ => x) (s.basins.get (basinOf g))

/-- The free choices of one instruction are used up. -/
def State.viewed (g : BargeIx) (s : State) : State := { s with freeCtr := s.freeCtr + (s.barges.get g).syPend.length }

/-- The value that a move reads (R26, R34, R38, R128). -/
def srcValue (v : Barge) (i : Insn) (m : Move) : Word :=
  let u := v.u
  match m.src with
  | .reg k => (v.bank (pswW v.psw)).w.get k
  | .lnk => (v.bank (pswW v.psw)).lnk
  | .flags => v.flags.word
  | .limm => limmOf i m.chain
  | .rc => u.rc
  | .rs => u.rs
  | .rd => u.rd
  | .rmode => u.rmode
  | .alu0 => u.alu0r
  | .alu1 => u.alu1r
  | .mul => u.mulr
  | .lsu => u.lsur
  | .xlu => u.xlur
  | .mac k => u.macv.get k
  | .macxa => u.macxa.setWidth 36
  | .macya => u.macya.setWidth 36
  | .rpt => u.rptr
  | .iou => u.iour
  | .vmul => u.vmulr
  | .vchk => u.vchkr
  | .cnt => u.cntr
  | .imm x => if pswT v.psw then taggedImm x else x.signExtend 36

/-- A move to an operand port, a block-repeat register or a MAC pointer (R40, R72, R77). -/
def Units.operand (u : Units) (d : Dst) (w : Word) : Units :=
  match d with
  | .rc => { u with rc := w }
  | .rs => { u with rs := w }
  | .rd => { u with rd := w }
  | .rmode => { u with rmode := w &&& rmodeMask }
  | .macxa => { u with macxa := low 20 w }
  | .macya => { u with macya := low 20 w }
  | .opnd p =>
    match p with
    | .alu0o => { u with alu0o := w }
    | .alu1o => { u with alu1o := w }
    | .mulo => { u with mulo := w }
    | .lsua => { u with lsua := w }
    | .lsux => { u with lsux := w }
    | .lsud => { u with lsud := w }
    | .xlua => { u with xlua := w }
    | .xlud => { u with xlud := w }
    | .macxs => { u with macxs := w }
    | .macys => { u with macys := w }
    | .macxm => { u with macxm := w }
    | .macym => { u with macym := w }
    | .ioua => { u with ioua := w }
    | .ioud => { u with ioud := w }
    | .vmulo => { u with vmulo := w }
    | .vmuls => { u with vmuls := w }
    | .vmulk => { u with vmulk := w }
    | .vchko => { u with vchko := w }
    | .vchks => { u with vchks := w }
    | .vchkh => { u with vchkh := w }
  | _ => u

/-- An instruction about to issue: the view after its operand moves, the RS and RD before them, and its executing moves with
the values they read. -/
structure Ctx where
  g : BargeIx
  i : Insn
  v : Barge
  rs : Word
  rd : Word
  acts : List (Move × Word)

/-- The executing moves of an instruction (R32, R33) and the view its triggers see (R40). -/
def mkCtx (g : BargeIx) (i : Insn) (v : Barge) : Ctx :=
  let acts := ((movesOf i).filter fun m => guardHolds v.flags m.guard).map fun m => (m, srcValue v i m)
  { g := g, i := i, acts := acts, rs := v.u.rs, rd := v.u.rd, v := { v with u := acts.foldl (fun u m => u.operand m.1.dst m.2) v.u } }

/-- The op and trigger operand of a unit that the instruction triggers. -/
def Ctx.trig (c : Ctx) (u : TrigUnit) : Option (Nat × Word) :=
  c.acts.findSome? fun m =>
    match m.1.dst with
    | .trig x op => if x = u then some (op, m.2) else none
    | _ => none

/-- A move of the instruction writes a destination. -/
def Ctx.writes (c : Ctx) (d : Dst) : Bool := c.acts.any fun m => m.1.dst == d

def Ctx.world (c : Ctx) : Bool := pswW c.v.psw
def Ctx.tagMode (c : Ctx) : Bool := pswT c.v.psw
def Ctx.vitalMode (c : Ctx) : Bool := pswV c.v.psw
/-- Stores of the instruction fold (R157). -/
def Ctx.folds (c : Ctx) : Bool := c.world && c.vitalMode
def Ctx.pc36 (c : Ctx) : Word := c.v.pc.setWidth 36

/-! ### LSU (R59 to R67, R133, R134) -/

/-- An LSU op's fields (R29). -/
def lsuStore (op : Nat) : Bool := op / 32 % 2 == 1
def lsuSize (op : Nat) : Nat := 2 ^ (op / 8 % 4)
def lsuMode (op : Nat) : Nat := op / 2 % 4
def lsuSigned (op : Nat) : Bool := op % 2 == 1

/-- The offset operand (R59, R133): none for a double store, whose t is data. -/
def lsuOffset (tmode : Bool) (op : Nat) (t : Word) : Word :=
  if lsuStore op ∧ lsuSize op = 8 then 0 else if tmode then (valOf t).signExtend 36 else t

/-- The base in the modes that use LSU.a (R133); none for a tag that is no base. -/
def lsuBase (tmode : Bool) (a : Word) : Option Word :=
  if !tmode then some a
  else if tagOf a = tagAddr then some (BitVec.ofNat 36 (4 * (valOf a).toNat))
  else if tagOf a = tagInt then some ((valOf a).signExtend 36)
  else if tagOf a = tagUint then some ((valOf a).setWidth 36)
  else none

/-- The nonet address of an LSU op (R59), formed in 36-bit signed arithmetic; none for a bad tag on LSU.a. RS, RD and
LSU.x enter it with all their 36 bits (R133, log entry 102). -/
def lsuAddress (tmode : Bool) (u : Units) (op : Nat) (t : Word) : Option Int :=
  let off := lsuOffset tmode op t
  let size := BitVec.ofNat 36 (lsuSize op)
  let p := if lsuStore op then u.rd else u.rs
  match lsuMode op with
  | 0 => (lsuBase tmode u.lsua).map fun b => (b + off).toInt
  | 1 => some (p + off).toInt
  | 2 => some (p - size + off).toInt
  | _ => (lsuBase tmode u.lsua).map fun b => (b + u.lsux * size + off).toInt

/-- A tag that store data may not carry (R134). -/
def badStoreTag (op : Nat) (d t : Word) : Bool :=
  if lsuSize op < 4 then !(tagOf d == tagInt || tagOf d == tagUint)
  else tagReserved (tagOf d) || (lsuSize op == 8 && tagReserved (tagOf t))

/-- The units as an LSU trigger sees them: its operand ports after the instruction's moves, RS and RD before them (R38, R40). -/
def Ctx.lsuUnits (c : Ctx) : Units := { c.v.u with rs := c.rs, rd := c.rd }

/-- The tag fault of an LSU trigger (R133, R134). -/
def Ctx.lsuTagFault (c : Ctx) : Bool :=
  match c.trig .lsu with
  | some (op, t) => c.tagMode && ((lsuAddress true c.lsuUnits op t).isNone || (lsuStore op && badStoreTag op c.v.u.lsud t))
  | none => false

/-- The address, size and parts of the LSU access (R63). -/
def Ctx.lsuAccess (c : Ctx) : Option (Nat × Int × Nat) :=
  match c.trig .lsu with
  | some (op, t) => (lsuAddress c.tagMode c.lsuUnits op t).map fun a => (op, a, lsuSize op)
  | none => none

/-- A store-buffer entry's nonets intersect others. -/
def StoreEntry.meets (e : StoreEntry) (a n : Nat) : Bool := decide (e.addr < a + n ∧ a < e.addr + e.size)

/-- The youngest entry that a load's nonets meet (R65). -/
def youngest (b : Barge) (a n : Nat) : Option StoreEntry := b.stores.reverse.find? fun e => e.meets a n

/-! ### MAC (R72 to R76) -/

/-- The MAC fetches X and Y. -/
def Ctx.macFetches (c : Ctx) : Bool := (c.trig .mac).any fun x => x.1 ≤ 1

/-- The two words that the MAC fetches, as nonet addresses. -/
def macAddrs (u : Units) : Nat × Nat := (u.macxa.toNat / 4 * 4, u.macya.toNat / 4 * 4)

/-- The smallest power of two that is at least n. -/
def powerFrom (n : Nat) : Nat := ((List.range 37).map fun k => 2 ^ k).find? (fun m => n ≤ m) |>.getD 1

/-- A pointer's advance (R75). -/
def macAdvance (p : BitVec 20) (d len : Word) : BitVec 20 :=
  let l := bitsN len 0 20
  let p0 := p.toNat
  if l = 0 then BitVec.ofInt 20 (p0 + d.toInt)
  else
    let base := p0 - p0 % powerFrom l
    BitVec.ofInt 20 (base + ((p0 - base : Nat) + d.toInt) % (l : Int))

/-- rnd and sat: the shifted sum, exact (R74). -/
def macShift (acc : BitVec 84) (t : Word) : Int :=
  let sh := min 48 (bitsN t 4 6)
  let h : Int := if sh = 0 then 0 else 2 ^ (sh - 1)
  (acc.toInt + h) / 2 ^ sh

/-- The accumulator and the view after a MAC operation with fetched words x and y (R74). -/
def macOp (op : Nat) (acc : BitVec 84) (x y t : Word) : BitVec 84 × Word :=
  let prod : BitVec 84 := if bit t 2 then BitVec.ofNat 84 (x.toNat * y.toNat) else BitVec.ofInt 84 (x.toInt * y.toInt)
  match op with
  | 0 => let a := acc + prod; (a, low 36 a)
  | 1 => let a := acc - prod; (a, low 36 a)
  | 2 => (0, 0)
  | 3 => (acc, BitVec.ofInt 36 (macShift acc t))
  | _ => (acc, BitVec.ofInt 36 (max (-34359738368) (min 34359738367 (macShift acc t))))

/-! ### XLU and IOU (R68, R82) -/

/-- The size of an XLU op and its Wharf nonet address (R68). -/
def xluSize (op : Nat) : TxSize := match op / 2 with
  | 0 => .word
  | 1 => .half
  | _ => .nonet
def sizeNonets : TxSize → Nat
  | .nonet => 1
  | .half => 2
  | .word => 4
  | .row _ => 32
  | .burst k => 32 * k
def Ctx.xluAccess (c : Ctx) : Option (Nat × BitVec 32) := (c.trig .xlu).map fun x => (x.1, low 32 (c.v.u.xlua + x.2))

/-- The IOU's op and I/O address (R82). -/
def Ctx.iouAccess (c : Ctx) : Option (Nat × Word) := (c.trig .iou).map fun x => (x.1, c.v.u.ioua + x.2)

/-- The I/O access fault of an IOU trigger (R82). -/
def Ctx.iouFault (c : Ctx) (s : State) : Option (BitVec 8 × Word) :=
  match c.iouAccess with
  | some (op, a) =>
    if 0x10000 ≤ a.toNat ∨
        (if op = 0 then (winRead s c.g c.world a.toNat).isNone
         else winWriteFaults s c.g c.world (pswL c.v.psw) a.toNat c.v.u.ioud) then some (0x08, a)
    else none
  | none => none

/-! ### SIG (R157 to R165) -/

/-- c folds of residue r, if the cycle is open and N stays within 65,535 (R165). -/
def foldIf (x : Sig) (r c : Nat) : Option Sig := if x.isOpen ∧ x.n.toNat + c ≤ 65535 then some (x.fold r c) else none

/-- The LSU's, XLU's and IOU's folds (R157 to R159). -/
def Ctx.lsuFold (c : Ctx) (x : Sig) : Option Sig :=
  match c.trig .lsu with
  | some (op, t) =>
    if lsuStore op ∧ c.folds then
      foldIf x (if lsuSize op = 8 then (residue c.v.u.lsud + residue t) % 4093 else residue c.v.u.lsud) 1
    else some x
  | none => some x
def Ctx.xluFold (c : Ctx) (x : Sig) : Option Sig :=
  match c.trig .xlu with
  | some (op, _) => if op % 2 = 1 ∧ c.folds then foldIf x (residue c.v.u.xlud) 1 else some x
  | none => some x
def Ctx.iouFold (c : Ctx) (s : State) (x : Sig) : Option Sig :=
  match c.iouAccess with
  | some (op, a) =>
    if op = 1 ∧ vitalStaging s c.world a.toNat ∧ c.world then
      if c.vitalMode then foldIf x (residue c.v.u.ioud) 1 else none
    else some x
  | none => some x

/-- A SIG trigger (R162, R163, R165); the captured seal waits for the IOU writes before it. -/
def Ctx.sigFold (c : Ctx) (x : Sig) : Option Sig :=
  match c.trig .sig with
  | none => some x
  | some (op, t) =>
    if !c.v.sig.en then none
    else match op with
      | 0 => if c.folds then foldIf x (residue t) 1 else some x
      | 1 =>
        let r := bitsN t 0 12
        let n := bitsN t 12 8
        if n = 0 ∨ r > 4092 then none else if c.folds then foldIf x r n else some x
      | _ =>
        if !x.isOpen ∨ (c.v.sig.tchk ∧ low 8 t ≠ x.task) then none
        else
          let waits := iouWriting c.v || (c.trig .iou).any fun y => y.1 == 1
          some { x with isOpen := false, retry := false, captured := some (.seal x.s x.task x.n, waits) }

/-- An RPT copy or fill needs an open cycle and room for its folds (R165). -/
def Ctx.rptFold (c : Ctx) (x : Sig) : Option Sig :=
  match c.trig .rpt with
  | some (op, _) =>
    if op ≤ 1 ∧ c.folds ∧ c.v.u.rc ≠ 0 ∧ (!x.isOpen ∨ 65535 < x.n.toNat + c.v.u.rc.toNat) then none else some x
  | none => some x

/-- Every fold of the instruction in the order of R159; none for a signature sequence fault. -/
def Ctx.sigAfter (c : Ctx) (s : State) (x : Sig) : Option Sig :=
  (((c.lsuFold x).bind c.xluFold).bind (c.iouFold s)).bind fun y => (c.sigFold y).bind c.rptFold

/-! ### Faults at trigger (R443) -/

/-- Kind 1: tag faults (R129, R133, R134, R137). -/
def Ctx.tagFault (c : Ctx) : Bool :=
  c.tagMode &&
    (c.lsuTagFault || (c.trig .sig).isSome ||
      (c.trig .alu0).any (fun x => aluTagFault x.1 c.v.u.alu0o x.2) ||
      (c.trig .alu1).any (fun x => aluTagFault x.1 c.v.u.alu1o x.2) ||
      (c.trig .mul).any (fun x => mulTagFault x.1 c.v.u.mulo x.2) ||
      (c.trig .vmul).isSome || (c.trig .vchk).isSome)

/-- Kind 2: address and ownership faults (R62, R76). -/
def Ctx.accessFaults (c : Ctx) (x : Basin) : Option (BitVec 8 × Word) :=
  let sup := pswL c.v.psw
  let lsu := match c.lsuAccess with
    | some (_, a, n) => accessFault x (posOf c.g) c.world sup (partsOf a n)
    | none => none
  lsu.orElse fun _ =>
    if c.macFetches then
      let m := macAddrs c.v.u
      accessFault x (posOf c.g) c.world sup [{ addr := m.1, len := 4 }, { addr := m.2, len := 4 }]
    else none

/-- Kind 3: alignment, I/O access and return faults (R68, R82, R118). -/
def Ctx.alignFault (c : Ctx) : Option (BitVec 8 × Word) :=
  match c.xluAccess with
  | some (op, a) => if a.toNat % sizeNonets (xluSize op) ≠ 0 then some (0x07, a.setWidth 36) else none
  | none => none
def Ctx.returnFault (c : Ctx) (s : State) : Option (BitVec 8 × Word) :=
  match c.trig .bru with
  | some (7, t) => (rfeFault (applySync c.g s) c.g t).map fun a => (0x0B, a)
  | _ => none

/-- The first trigger fault of an instruction (R443). -/
def Ctx.trigFault (c : Ctx) (s : State) : Option (BitVec 8 × Word) :=
  if c.tagFault then some (0x10, c.pc36)
  else (c.accessFaults (effBasin c.g s)).orElse fun _ =>
    c.alignFault.orElse fun _ =>
    (c.iouFault s).orElse fun _ =>
    (c.returnFault s).orElse fun _ =>
    if (c.sigAfter s (s.barges.get c.g).sig).isNone then some (0x11, c.pc36) else none

/-! ### Holds (R44) -/

/-- A source that is interlocked and whose result has not arrived (R43, R71). An XLU load still outstanding stalls a read of XLU.r
in an instruction that triggers another, an outstanding IOU write stalls a read of IOU.r, and RPT.r, which a running operation
keeps the barge from reading, never stalls (log entry 73). -/
def interlocked (b : Barge) (acts : List Move) : Bool :=
  acts.any fun m =>
    match m.src with
    | .xlu => b.xluSeen != b.xluIssued
    | .iou => b.iou.isSome
    | _ => false

/-- A gate or gate return (R107, R108). -/
def Ctx.gates (c : Ctx) : Bool :=
  match c.trig .bru with
  | some (3, _) => true
  | some (2, t) => c.world && bit t 35
  | _ => false

/-- An rfe waits for an IOU write before its implicit SYNC, and so before its checks (R100, R118). -/
def Ctx.returnWaits (c : Ctx) (b : Barge) : Bool := (c.trig .bru).any fun x => x.1 == 7 && iouWriting b

/-- A hold before which an interrupt may be taken (R113). A gate or gate return is held here until what went before it has
finished; its own hold then begins as it issues (R444, log entry 97). -/
def Ctx.softHold (c : Ctx) (s : State) : Bool :=
  let b := s.barges.get c.g
  let total := ((List.finRange 4).map fun p => (s.barges.get (bargeOf (basinOf c.g) p)).xluCredits).sum
  ((c.trig .xlu).isSome && (8 ≤ b.xluCredits || 32 ≤ total)) || ((c.trig .iou).isSome && b.iou.isSome) ||
    (c.gates && !drained b)

/-- The banks of the LSU's access, and of the MAC's fetches. -/
def partBanks (a : Int) (n : Nat) : List BankIx := ((partsOf a n).map fun p => bankOf p.addr.toNat).dedup
def Ctx.macBanks (c : Ctx) : List BankIx :=
  if c.macFetches then [bankOf (macAddrs c.v.u).1, bankOf (macAddrs c.v.u).2].dedup else []

/-- The LSU access, when it is a load that is not forwarded (R65): its op, address and size. -/
def Ctx.memLoad (c : Ctx) (b : Barge) : Option (Nat × Int × Nat) :=
  c.lsuAccess.filter fun x => !lsuStore x.1 && (youngest b x.2.1.toNat x.2.2).isNone

/-- The accesses that an instruction makes on port A in the BCLK of its issue, in the order in which its barge presents them: the
first part of a load that reads memory, the X fetch and the Y fetch (R63, R65, R76): place, address, length. -/
def Ctx.accesses (c : Ctx) (b : Barge) : List (Nat × Nat × Nat) :=
  ((c.memLoad b).toList.flatMap fun x => (partsOf x.2.1 x.2.2).take 1).map (fun p => (0, p.addr.toNat, p.len)) ++
    if c.macFetches then [(1, (macAddrs c.v.u).1, 4), (2, (macAddrs c.v.u).2, 4)] else []

/-- More than four registers are written, w0–w63 and LNK counted, a call's own write of LNK with them (R37), so that the instruction
holds one BCLK more (R44, log entry 82). -/
def Ctx.wideWrites (c : Ctx) : Bool :=
  4 < (c.acts.filter fun m => match m.1.dst with
    | .reg _ => true
    | .lnk => true
    | .trig .bru op => op == 1
    | _ => false).length

/-- The bank of the first part of an access (R63). -/
def firstBank (a : Int) (n : Nat) : List BankIx := ((partsOf a n).take 1).map fun p => bankOf p.addr.toNat

/-- The barge's oldest store has given way four times at one of these banks, and goes first (R64). -/
def storeFirst (b : Barge) (banks : List BankIx) : Bool := b.stores.head?.any fun e => 4 ≤ e.gaveWay && banks.contains (bankOf e.addr)

/-- A load of the barge at this bank has the oldest store give way once more, if it asks for the same bank (R64). -/
def Barge.giveWay (b : Barge) (bank : BankIx) : Barge :=
  match b.stores with
  | e :: rest => if bankOf e.addr = bank then { b with stores := { e with gaveWay := e.gaveWay + 1 } :: rest } else b
  | [] => b

/-- A hold that ends before any interrupt is taken: the store buffer, a partial overlap, VMUL's interval, a handover, and the load that
yields to a store that has given way four times (R44, R64, R65, R76, R214). A forwarded load asks for no bank. -/
def Ctx.hardHold (c : Ctx) (s : State) : Bool :=
  let b := s.barges.get c.g
  let x := s.basins.get (basinOf c.g)
  let lsu := match c.lsuAccess with
    | some (op, a, n) =>
      if lsuStore op then
        decide (4 < b.stores.length + (partsOf a n).length) || (partBanks a n).any (inHandover x)
      else (youngest b a.toNat n).any fun e => !(e.addr == a.toNat && e.size == n)
    | none => false
  let load := match c.memLoad b with
    | some (_, a, n) =>
      (partBanks a n).any (inHandover x) || storeFirst b (firstBank a n)
    | none => false
  let m := macAddrs c.v.u
  let mac := c.macFetches && (b.stores.any (fun e => e.meets m.1 4 || e.meets m.2 4) || c.macBanks.any (inHandover x))
  let clk := bclkCount s (basinOf c.g)
  let vmul := (c.trig .vmul).isSome && decide (clk < b.vmulReady)
  lsu || load || mac || vmul

/-- The instruction holds for its further group of register writes (R44). -/
def Ctx.wideHold (c : Ctx) (s : State) : Bool :=
  c.wideWrites && (s.barges.get c.g).wide.all fun w => bclkCount s (basinOf c.g) ≤ w

/-! ### Bank accesses (R44, R63, R76, R79, R216) -/

/-- One access of a barge, when its bank grants it: what it reads as port A sees it, its errors recorded (R211, R220). -/
def fetchAccess (g : BargeIx) (src : Nat) (rivals : List Rival) (x : Nat × Nat × Nat) (s : State) : Bool × State :=
  let n := basinOf g
  let a := askBank s n (bankOf x.2.1) (whoBarge (posOf g)) rivals
  if !a.1 then a
  else
    let m := portAMem s n
    let ws := wordsOf x.2.1 x.2.2
    let d : DoneAccess := { place := x.1, addr := x.2.1, raw := m.read x.2.1 x.2.2, ues := ws.filter m.isUe }
    (true, (noteErrorsIn n src m a.2 ws).modBarge g fun b => { b with done := b.done ++ [d] })

/-- The access has been made in this BCLK or in an earlier one of the same hold. -/
def Barge.hasDone (b : Barge) (x : Nat × Nat × Nat) : Bool := b.done.any fun d => d.place == x.1 && d.addr == x.2.1

/-- What an access read. -/
def Barge.readOf (b : Barge) (place : Nat) : Nat × List Nat :=
  ((b.done.find? fun d => d.place == place).map fun d => (d.raw, d.ues)).getD (0, [])

/-- The accesses of a barge not yet made are presented, one to a bank in a BCLK (R216): whether all are made. `src` gives the unit
of a place (R231). -/
def fetchAll (g : BargeIx) (src : Nat → Nat) (rivals : List Rival) : List (Nat × Nat × Nat) → State → Bool × State
  | [], s => (true, s)
  | x :: rest, s =>
    if (s.barges.get g).hasDone x then fetchAll g src rivals rest s
    else
      let r := fetchAccess g (src x.1) rivals x s
      let q := fetchAll g src rivals rest r.2
      (r.1 && q.1, q.2)

/-! ### What an instruction at the boundary does next -/

/-- The outcome of the checks before an instruction's moves. -/
inductive Plan where
  | fetch (line : BitVec 12)
  | badLine
  | hold (int : Bool)
  | wide
  | fault (cause : BitVec 8) (faddr : Word)
  | go (c : Ctx)

/-- The checks of the next instruction, in order: its line, the fetch fault, R45, interlocks, R443, holds (R44, R122). -/
def plan (g : BargeIx) (s : State) : Plan :=
  let b := s.barges.get g
  let line := fld b.pc 2 12
  let v := effView g s
  match (if b.mustRead then none else v.heldLine line) with
  | none => .fetch line
  | some h =>
    if h.bad then .badLine
    else
      let i := lineInsn h.data (bitsN b.pc 0 2)
      match decodeFault i (pswW v.psw) (pswL v.psw) with
      | some cause => .fault cause (b.pc.setWidth 36)
      | none =>
        if interlocked b ((movesOf i).filter fun m => guardHolds v.flags m.guard) then .hold true
        else
          let c := mkCtx g i v
          if c.returnWaits b then .hold false
          else match c.trigFault s with
          | some f => .fault f.1 f.2
          | none => if c.softHold s then .hold true
            else if c.hardHold s then .hold false else if c.wideHold s then .wide else .go c

/-! ### Effects -/

/-- The register and flag writes of the instruction (R34, R36, R38). -/
def regMove (world : Bool) (b : Barge) (m : Move × Word) : Barge :=
  match m.1.dst with
  | .reg k => let r := b.bank world; b.setBank world { r with w := vput r.w k m.2 }
  | .lnk => b.setBank world { b.bank world with lnk := m.2 }
  | .flags => { b with flags := Flags.ofWord m.2 }
  | d => { b with u := b.u.operand d m.2 }

/-- A result started by the instruction (R41). -/
def Barge.start (b : Barge) (f : Flight) : Barge := { b with flights := b.flights ++ [f] }

/-- The ALU's result (R55 to R57, R131). -/
def Ctx.alu (c : Ctx) (p : ResultPort) (o : Word) (x : Option (Nat × Word)) (b : Barge) : Barge :=
  match x with
  | none => b
  | some (op, t) =>
    let r := aluCompute c.tagMode op o t c.v.flags.c
    let f := r.2
    if c.vitalMode ∧ aluOverflowFaults op ∧ f.2.2.2 then
      b.start { port := p, due := b.count + 1, value := none, fault := some 0x0D, faddr := c.pc36 }
    else
      b.start { port := p, due := b.count + 1, value := if aluDelivers op then some r.1 else none
                flags := if aluSetsFlags op then some f else none }

/-- MUL's result (R58, R131). -/
def Ctx.mul (c : Ctx) (b : Barge) : Barge :=
  match c.trig .mul with
  | none => b
  | some (op, t) =>
    let o := c.v.u.mulo
    if op = 0 ∧ c.vitalMode ∧ mulOverflows o t then
      b.start { port := .mul, due := b.count + 3, value := none, fault := some 0x0D, faddr := c.pc36 }
    else b.start { port := .mul, due := b.count + 3, value := some (mulCompute c.tagMode op o t) }

/-- VMUL's and VCHK's results (R148 to R152). -/
def Ctx.vmul (c : Ctx) (now : Nat) (b : Barge) : Barge :=
  match c.trig .vmul with
  | none => b
  | some (_, t) =>
    let r := vmulResult c.v.u.vmulo t c.v.u.vmuls (bitsN c.v.u.vmulk 0 5)
    { b.start { port := .vmul, due := b.count + 5, value := some r.2, fault := r.1.cause, faddr := c.pc36 } with
      vmulReady := now + 5 }
def vchkOps : Nat → VchkOp
  | 0 => .dec
  | 1 => .eq
  | 2 => .lt
  | 3 => .le
  | _ => .rng
def Ctx.vchk (c : Ctx) (b : Barge) : Barge :=
  match c.trig .vchk with
  | none => b
  | some (op, t) =>
    let r := vchkResult (vchkOps op) c.v.u.vchko c.v.u.vchkh t c.v.u.vchks
    b.start { port := .vchk, due := b.count + 2, value := some r.2.1, g := some r.2.2, fault := r.1.cause, faddr := c.pc36 }

/-- The value a load delivers from the nonets it read (R61, R134). -/
def loadExtend (tmode : Bool) (op : Nat) (raw : Nat) : Word :=
  let n := lsuSize op
  if 4 ≤ n then BitVec.ofNat 36 raw
  else
    let sx : Int := if lsuSigned op then (if n = 1 then (BitVec.ofNat 9 raw).toInt else (BitVec.ofNat 18 raw).toInt) else raw
    if tmode then tagged (if lsuSigned op then tagInt else tagUint) (BitVec.ofInt 32 sx) else BitVec.ofInt 36 sx

/-- A loaded word's tag raises the tag fault at delivery (R134). -/
def badLoadTag (tmode : Bool) (op : Nat) (w : Word) : Bool :=
  tmode && 4 ≤ lsuSize op && (tagOf w == tagPoison || tagReserved (tagOf w))

/-- One delivered word of a load: the fault that its cells or its tag carry, memory error first (R134). -/
def loadFlight (tmode : Bool) (pc : BitVec 14) (op : Nat) (due : Nat) (w : Word) (ue : Bool) (addr : Nat) : Flight :=
  if ue then { port := .lsu, due := due, value := none, fault := some 0x06, faddr := BitVec.ofNat 36 addr }
  else if badLoadTag tmode op w then { port := .lsu, due := due, value := none, fault := some 0x10, faddr := pc.setWidth 36 }
  else { port := .lsu, due := due, value := some w }

/-- The deliveries of a load of n nonets from address a (R61): of a double, the high word one instruction later. -/
def loadFlights (tmode : Bool) (pc : BitVec 14) (op : Nat) (due a n raw : Nat) (ues : List Nat) : List Flight :=
  let first := 4 * ues.min?.getD 0
  let ueIn (lo k : Nat) : Bool := (wordsOf lo k).any ues.contains
  loadFlight tmode pc op due (loadExtend tmode op raw) (ueIn a (min n 4)) first ::
    if n = 8 then [loadFlight tmode pc op (due + 1) (BitVec.ofNat 36 (raw / 2 ^ 36)) (ueIn (a + 4) 4) first] else []

/-- An LSU load (R61, R63, R65, R220): forwarded from the store buffer, or read from its bank, at which its own barge's oldest store
has given way once more (R64). The second part of a split load is still to be read. -/
def Ctx.load (c : Ctx) (op : Nat) (a : Int) (n : Nat) (s : State) : State :=
  let clk := bclkCount s (basinOf c.g)
  s.modBarge c.g fun b =>
    let due := b.count + 3
    let start (fs : List Flight) (b : Barge) : Barge := { b with flights := b.flights ++ fs }
    match youngest b a.toNat n with
    | some e => start (loadFlights c.tagMode c.v.pc op due a.toNat n (e.data.toNat % 512 ^ n) []) b
    | none =>
      let r := b.readOf 0
      let b := b.giveWay (bankOf a.toNat)
      if (partsOf a n).length = 1 then start (loadFlights c.tagMode c.v.pc op due a.toNat n r.1 r.2) b
      else
        { b with
          second := some { since := clk, op := op, addr := a.toNat, size := n, first := r.1, ues := r.2, due := due,
                           tagMode := c.tagMode, pc := c.v.pc } }

/-- The store-buffer entries of a store (R61, R63, R64). -/
def storeEntries (a : Int) (n seq clk : Nat) (data : BitVec 72) (world : Bool) : List StoreEntry :=
  (partsOf a n).zipIdx.map fun p =>
    { addr := p.1.addr.toNat, size := p.1.len, data := data >>> (9 * (p.1.addr - a).toNat), world := world, seq := seq + p.2, since := clk }

/-- The LSU's effect (R59 to R67). -/
def Ctx.lsu (c : Ctx) (s : State) : State :=
  match c.trig .lsu, c.lsuAccess with
  | some (op, t), some (_, a, n) =>
    let clk := bclkCount s (basinOf c.g)
    let s1 :=
      if lsuStore op then
        s.modBarge c.g fun b =>
          let data : BitVec 72 := if n = 8 then t ++ c.v.u.lsud else c.v.u.lsud.setWidth 72
          let es := storeEntries a n b.storeSeq clk data c.world
          { b with stores := b.stores ++ es, storeSeq := b.storeSeq + es.length }
      else c.load op a n s
    let d := BitVec.ofNat 36 n
    let step (w : Word) : Word := if lsuMode op = 1 then w + d else w - d
    if lsuMode op = 1 ∨ lsuMode op = 2 then
      s1.modBarge c.g fun b =>
        if lsuStore op then (if c.writes .rd then b else { b with u := { b.u with rd := step b.u.rd } })
        else if c.writes .rs then b else { b with u := { b.u with rs := step b.u.rs } }
    else s1
  | _, _ => s

/-- The XLU's effect (R66 to R69): the transaction waits behind the stores older than the instruction. -/
def Ctx.xlu (c : Ctx) (after : Nat) (b : Barge) : Barge :=
  match c.xluAccess with
  | some (op, a) =>
    let write := op % 2 == 1
    let load := if write then 0 else b.xluIssued + 1
    { b with
      xluq := b.xluq ++ [{ write := write, size := xluSize op, addr := a, data := c.v.u.xlud, world := c.world, after := after, load := load }]
      xluCredits := b.xluCredits + 1
      xluIssued := if write then b.xluIssued else load }
  | none => b

/-- The IOU's effect (R82, R192): the operation in progress, with the generation tag as it stands at the trigger. -/
def Ctx.iou (c : Ctx) (after : Nat) (b : Barge) : Barge :=
  match c.iouAccess with
  | some (op, a) =>
    let tag := stagingTag c.v
    { b with iou := some { write := op == 1, addr := low 16 a, data := c.v.u.ioud, world := c.world, sup := pswL c.v.psw
                           after := after, date := tag.1, att := tag.2 } }
  | none => b

/-- The MAC's effect (R72 to R76, R220), with the words that its fetches read; of two uncorrectable ones FADDR names X's (log
entry 74), and either leaves ACCk and advances the pointers (log entry 98). -/
def Ctx.mac (c : Ctx) (b : Barge) : Barge :=
  match c.trig .mac with
  | none => b
  | some (op, t) =>
    let m := macAddrs c.v.u
    let k := bitsN t 0 2
    let fx := b.readOf 1
    let fy := b.readOf 2
    let ue := if !c.macFetches then none else if !fx.2.isEmpty then some m.1 else if !fy.2.isEmpty then some m.2 else none
    let port : ResultPort := if k = 0 then .mac0 else if k = 1 then .mac1 else .mac2
    let b1 := if c.macFetches ∧ !bit t 3 then
        { b with u := { b.u with
          macxa := macAdvance c.v.u.macxa c.v.u.macxs c.v.u.macxm, macya := macAdvance c.v.u.macya c.v.u.macys c.v.u.macym } }
      else b
    match ue with
    | some a => b1.start { port := port, due := b.count + 4, value := none, fault := some 0x06, faddr := BitVec.ofNat 36 a }
    | none =>
      if k = 3 then b1
      else
        let r := macOp op (vgetN b.u.acc k 0) (BitVec.ofNat 36 fx.1) (BitVec.ofNat 36 fy.1) t
        { b1.start { port := port, due := b.count + 4, value := some r.2 } with
          u := { b1.u with acc := vmodN b1.u.acc k fun _ => r.1 } }

/-- RMODE with OP and RUN (R77). -/
def rmodeRun (m : Word) (op : Nat) (run : Bool) : Word := mergeBits (mask36 2 4) m (bit36 2 run ||| at36 3 op)

/-- RPT.r at completion (R78). -/
def rptValue (u : Units) (op : Nat) : Word :=
  match op with
  | 0 | 1 => 0
  | 4 => u.rd
  | _ => u.rc

/-- The RPT trigger (R77 to R79) in BCLK clk: the operation runs, with its first element in the third BCLK after at the earliest,
or completes at once when RC is 0. -/
def Ctx.rpt (c : Ctx) (clk : Nat) (b : Barge) : Barge :=
  match c.trig .rpt with
  | none => b
  | some (op, _) =>
    let u := c.v.u
    if u.rc = 0 then { b with u := { b.u with rmode := rmodeRun u.rmode op false, rptr := rptValue u op } }
    else
      { b with
        u := { b.u with rs := u.rs, rd := u.rd, rmode := rmodeRun u.rmode op true }
        rpt := some { pc := c.v.pc, world := c.world, vital := c.folds, next := clk + 3 } }

/-- A station-time sample: 3 BCLK old, or 1 ns more (R87, R339), and never less than an earlier one of the barge. -/
def sampleTime (g : BargeIx) (s : State) : BitVec 64 × State :=
  let lag := 3 * bclkPeriod s * 2 ^ (s.crp.bpwr.get (basinOf g)).tdiv.toNat / 12 + (!Config.freeChoice s.freeCtr).toNat
  let old := BitVec.ofNat 64 lag
  let x := s.crp.stTime - old
  let last := (s.barges.get g).lastSample
  let y := if (last - x).toNat < 64 then last else x
  (y, (s.modBarge g fun b => { b with lastSample := y }).free)

/-- A station time has been reached (R87). -/
def reached (sample : BitVec 64) (t : Word) : Bool := !bit (low 36 sample - t) 35

/-- CNT's effect (R86, R87). -/
def Ctx.cnt (c : Ctx) (s : State) : State :=
  match c.trig .cnt with
  | none => s
  | some (op, t) =>
    let give (v : Word) (s : State) : State :=
      s.modBarge c.g fun b => b.start { port := .cnt, due := b.count + 1, value := some v }
    let clk := bclkCount s (basinOf c.g)
    match op with
    | 0 =>
      let r := sampleTime c.g s
      give (low 36 r.1) (r.2.modBarge c.g fun b => { b with u := { b.u with cntLatch := fld r.1 36 28 } })
    | 1 => give (c.v.u.cntLatch.setWidth 36) s
    | 2 =>
      let b := s.barges.get c.g
      give (match bitsN t 0 2 with
        | 0 => BitVec.ofNat 36 (clk - b.bclkBase)
        | 1 => BitVec.ofNat 36 b.count
        | 2 => BitVec.ofNat 36 b.stalled
        | _ => b.wrongPath) s
    | 3 =>
      let r := sampleTime c.g s
      if reached r.1 t then give 0 r.2 else r.2.modBarge c.g fun b => { b with wait := some (.time t) }
    | _ =>
      let n := bitsN t 0 32
      if n = 0 then give 0 s else s.modBarge c.g fun b => { b with wait := some (.count (clk + n + 1)) }

/-- The BTB entry of a branch instruction (R93): a lookup hits only on an entry for its own address. -/
def Barge.btbEntry (b : Barge) (src : BitVec 14) : Option BtbEntry := b.btb.find? fun e => e.src == src

/-- A taken branch's BTB entry (R93): rewritten in place of one for the same branch, or in place of the oldest of 64. Its line is
the one in the line buffer, or the one that the rewritten entry holds of the same target. -/
def Barge.allocate (b : Barge) (src tgt : BitVec 14) : Barge :=
  let keep := b.btb.filter fun e => e.src != src
  let stored := ((b.btbEntry src).filter fun e => e.tgt == tgt).bind fun e => e.line
  let line := (b.lineBuf.reverse.find? fun h => h.line == fld tgt 2 12).orElse fun _ => stored
  { b with btb := (if keep.length = 64 then keep.drop 1 else keep) ++ [{ src := src, tgt := tgt, line := line }] }

/-- A taken jmp, call or ret (R39, R88, R92, R93, R416): the line of its own BTB entry is held for it, and meets the fetch
breakpoints when it is read (R414). -/
def Ctx.branch (c : Ctx) (tgt : BitVec 14) (s : State) : State :=
  let b := s.barges.get c.g
  let src := c.v.pc
  let barred := pswP c.v.psw
  let stored := if barred then none else ((b.btbEntry src).filter fun e => e.tgt == tgt).bind fun e => e.line
  let s1 := s.modBarge c.g fun b =>
    let b1 := if barred then { b with mustRead := true } else if nbtbBit c.i then b else b.allocate src tgt
    { b1 with pc := tgt, btbLine := stored }
  traceWord c.g 0 (if stored.isSome then bpHits c.g 1 (fun a => fld a 2 12 == fld tgt 2 12) s1 else s1)

/-- The instruction's jmp, call or ret move, whether or not its guard holds, with its op. -/
def branchMove (i : Insn) : Option (Move × Nat) :=
  (movesOf i).findSome? fun m =>
    match m.dst with
    | .trig .bru op => if op ≤ 2 then some (m, op) else none
    | _ => none

/-- The target that the front end knows at fetch (R90): of a jmp or call whose operand is an immediate, and else of a BTB hit. -/
def Ctx.knownTarget (c : Ctx) (b : Barge) (m : Move) (op : Nat) : Option (BitVec 14) :=
  let hit := (b.btbEntry c.v.pc).map fun e => e.tgt
  if op = 2 then hit
  else match m.src with
    | .limm => some (low 14 (srcValue c.v c.i m))
    | .imm _ => some (low 14 (srcValue c.v c.i m))
    | _ => hit

/-- The address that the front end predicts after a jmp, call or ret (R90, R92): with prediction barred, or with no known target,
the next in sequence; a guarded jmp or call is predicted taken when its target is at or below its own address. -/
def Ctx.predicted (c : Ctx) (b : Barge) : Option (BitVec 14) :=
  (branchMove c.i).map fun x =>
    let next := c.v.pc + 1
    if pswP c.v.psw then next
    else match c.knownTarget b x.1 x.2 with
      | none => next
      | some t => if x.1.guard == 0#3 ∨ x.2 = 2 ∨ t.toNat ≤ c.v.pc.toNat then t else next

/-- The line beyond a branch that was predicted the other way is read from the branch's BTB entry, where it meets the fetch breakpoints
(R93, R414), or else like a prefetch, when the barge neither holds it nor reads it already (R90, R95; log entry 81). `before` is the barge as the branch found it. -/
def Ctx.wrongWay (c : Ctx) (before : Barge) (s : State) : State :=
  match c.predicted before with
  | some p =>
    let stored := ((before.btbEntry c.v.pc).filter fun e => e.tgt == p).bind fun e => e.line
    if p = (s.barges.get c.g).pc then s
    else if !pswP c.v.psw ∧ stored.isSome then bpHits c.g 1 (fun a => fld a 2 12 == fld p 2 12) s
    else readAhead c.g (fun _ => [fld p 2 12]) s
  | none => s

/-- The BRU's effect (R37, R39, R98, R107, R108, R118), after everything else of the instruction. A gate's deliveries at once
leave the G that a move to FLAGS in its own instruction sets (R35, R444). -/
def Ctx.bru (c : Ctx) (s : State) : State :=
  let next := c.v.pc + 1
  match c.trig .bru with
  | none => s
  | some (op, t) =>
    let gate (ret : Bool) : State :=
      s.modBarge c.g fun b =>
        let b1 := if c.writes .flags then { b with flights := b.flights.map fun f => { f with g := none } } else b
        { b1.deliverAll with gate := some { isReturn := ret, world := c.world, t := t, pc := c.v.pc, next := next } }
    match op with
    | 0 => c.branch (low 14 t) s
    | 1 =>
      c.branch (low 14 t) (s.modBarge c.g fun b => b.setBank c.world { b.bank c.world with lnk := next.setWidth 36 })
    | 2 => if c.world ∧ bit t 35 then gate true else c.branch (low 14 t) s
    | 3 => gate false
    | 4 => s.modBarge c.g fun b => { b with trapDue := some (t, next, c.world) }
    | 5 => s.modBarge c.g fun b => { b with sync := true }
    | 6 => flush c.g s
    | _ =>
      let clk := bclkCount s (basinOf c.g)
      rfeSync c.g (s.modBarge c.g fun b => { b with rfeDue := some { t := t, pc := c.v.pc, since := clk, next := clk + 1 } })

/-- The held copies of a line are in use (R95). -/
def Barge.useLine (b : Barge) (l : BitVec 12) : Barge :=
  { b with lineBuf := b.lineBuf.map fun h => if h.line = l then { h with used := true } else h }

/-- The instruction has passed its checks: its bookkeeping, at its own count (R41, R89, R416), and the first instruction of a
line starts the prefetch. -/
def Ctx.bookkeep (c : Ctx) (s : State) : State :=
  let line := fld c.v.pc 2 12
  let first := (s.barges.get c.g).lastLine != some line
  let clk := bclkCount s (basinOf c.g)
  let s1 := s.modBarge c.g fun b =>
    let b1 := (b.useLine line).unstall clk
    { b1 with
      lastLine := some line, entry := none, arb := false, arbAt := [], wide := none
      dbg := { (if debugAllowed s then b1.dbg.record c.v.pc c.world (fmtOf c.i == 3) else b1.dbg) with skipBp := false } }
  if first then prefetch c.g line s1 else s1

/-- The effect of an instruction that issues (R38 to R41, R159); an operation of its own that holds the barge holds it from the next
BCLK on (R44, R86). -/
def Ctx.effect (c : Ctx) (s : State) : State :=
  let after := (s.barges.get c.g).storeSeq
  let clk := bclkCount s (basinOf c.g)
  let sg := ((c.sigAfter s (s.barges.get c.g).sig).getD (s.barges.get c.g).sig)
  let s1 := s.modBarge c.g fun b =>
    let b1 := c.acts.foldl (regMove c.world) b
    { b1 with
      sig := sg
      flights := if c.writes .flags then b1.flights.map fun f => if f.due = b1.count + 1 then { f with g := none } else f
        else b1.flights }
  let s2 := (c.lsu s1).modBarge c.g fun b => c.mac (c.mul b)
  let s3 := s2.modBarge c.g fun b =>
    c.vchk (c.vmul clk (c.alu .alu1 c.v.u.alu1o (c.trig .alu1) (c.alu .alu0 c.v.u.alu0o (c.trig .alu0) b)))
  let s4 := (c.cnt s3).modBarge c.g fun b => c.rpt clk (c.iou after (c.xlu after b))
  let s5 := s4.modBarge c.g fun b =>
    { b with
      count := b.count + 1
      sync := b.sync || syncBit c.i
      pc := if fmtOf c.i = 3 ∧ 1 < runOf c.i then b.pc else b.pc + 1
      irun := if fmtOf c.i = 3 then runOf c.i - 1 else 0
      done := [] }
  let s6 := latchSig c.g (kickBasin (basinOf c.g) (c.wrongWay (s.barges.get c.g) (c.bru s5)))
  s6.modBarge c.g fun b =>
    if b.wait.isSome ∨ b.rpt.isSome ∨ b.gate.isSome ∨ b.sync then { b with holdSince := some (clk + 1) }
    else b

/-- A trap's entry at the boundary after its instruction (R39, R100, R114): a delivery fault of that boundary comes first
(R122). -/
def finishTrap (g : BargeIx) (s : State) : State :=
  let b := s.barges.get g
  match b.trapDue with
  | none => s
  | some (t, next, world) =>
    if entryWaits s g then s
    else
      let r := b.deliverDue false
      let s1 := s.modBarge g fun _ => { r.2 with trapDue := none }
      match r.1 with
      | some f => takeFault g (pswW b.psw) (f.fault.getD 0) f.faddr next 0 s1
      | none => enter g { cause := 0x0C, faddr := t, handler := world, vector := 64, pc := next } s1

/-- A hold is noted (R44, R86): since when, and whether it is a lost arbitration, at which banks. -/
def noteHold (g : BargeIx) (banks : List BankIx) (s : State) : State :=
  s.modBarge g fun b => { b.stall (bclkCount s (basinOf g)) with arb := !banks.isEmpty, arbAt := banks }

/-- The next instruction is held, and its hold ends before an interrupt is taken (R113). -/
def heldHard (s : State) (g : BargeIx) : Bool :=
  let b := s.barges.get g
  if bclkCount s (basinOf g) < b.issueFrom then true
  else if b.rpt.isSome ∨ b.wait.isSome ∨ 0 < b.irun then false
  else match plan g s with
    | .hold int => !int
    | .wide => true
    | .go _ => b.arb
    | _ => false

/-- The barge cannot issue whatever its next instruction is: an operation of an earlier instruction or an entry holds it, or it is
to halt at this boundary (R44, R411): not before a trap that waits or a hold that has to end first. -/
def busyBoundary (s : State) (g : BargeIx) : Bool :=
  let b := s.barges.get g
  b.dbg.halted || b.rpt.isSome || b.wait.isSome || b.gate.isSome || b.sync || b.rfeDue.isSome || b.frameRun.isSome ||
    decide (bclkCount s (basinOf g) < b.issueFrom) || ownHandover s g ||
    (b.dbg.haltReq.isSome && !(b.trapDue.isSome || heldHard s g))

/-- Results due at the boundary are delivered; a delivery fault is taken there, once its entry can begin (R52, R53, R122), in
the world in force, whatever PSW.W waits for its SYNC (log entry 101). -/
def boundary (g : BargeIx) (split : Bool) (s : State) : State × Bool :=
  let b := s.barges.get g
  let r := b.deliverDue split
  match r.1 with
  | none => (s.modBarge g fun _ => r.2, true)
  | some f =>
    if entryWaits s g then (s, false)
    else (takeFault g (pswW b.psw) (f.fault.getD 0) f.faddr b.pc b.irun (s.modBarge g fun _ => r.2), false)

/-- An interrupt is to be taken at this boundary, so that the next instruction does not issue (R111 to R113, R122). -/
def interruptDue (s : State) (g : BargeIx) : Bool :=
  let b := s.barges.get g
  takeable b && b.entry.isNone && (selectInterrupt b (bclkCount s (basinOf g))).isSome

/-- The latency of a result port (R41). -/
def ResultPort.latency : ResultPort → Nat
  | .alu0 | .alu1 | .cnt => 1
  | .vchk => 2
  | .mul | .lsu => 3
  | .mac0 | .mac1 | .mac2 => 4
  | .vmul => 5

/-- The deliveries of the last instruction's load take their place in trigger order: before those of its other units (R42, R53). -/
def insertLoad (count : Nat) (new : List Flight) : List Flight → List Flight
  | [] => new
  | f :: rest => if f.port ≠ .lsu ∧ f.due = count + f.port.latency then new ++ f :: rest else f :: insertLoad count new rest

/-- The second part of a split load is read, once a BCLK has passed since its first and its bank grants it (R63); it yields to a store
of the barge that has given way four times (R64), and a gate that already holds the barge gets the load's deliveries at once (R444).
Whether no part is left, and whether one was read now. -/
def finishLoad (g : BargeIx) (rivals : List Rival) (s : State) : Bool × Bool × State :=
  let n := basinOf g
  let clk := bclkCount s n
  match (s.barges.get g).second with
  | none => (true, false, s)
  | some q =>
    let k := q.size - q.addr % q.size
    let a := q.addr + k
    if clk ≤ q.since then (false, false, s)
    else if storeFirst (s.barges.get g) [bankOf a] then (false, false, s.modBarge g fun b => b.stall clk)
    else
      let r := askBank s n (bankOf a) (whoBarge (posOf g)) rivals
      if !r.1 then (false, false, r.2.modBarge g fun b => b.stall clk)
      else
        let m := portAMem s n
        let ws := wordsOf a (q.size - k)
        let raw := q.first + 512 ^ k * m.read a (q.size - k)
        let fs := loadFlights q.tagMode q.pc q.op q.due q.addr q.size raw (q.ues ++ ws.filter m.isUe)
        (true, true, (noteErrorsIn n srcLsu m r.2 ws).modBarge g fun b =>
          let b1 := { b.giveWay (bankOf a) with second := none, flights := insertLoad (q.due - 3) fs b.flights }
          if b.gate.isSome then b1.deliverAll else b1)

/-- A step of a barge begins with what is left of a split load; it goes no further until that is read. -/
def afterLoad (g : BargeIx) (rivals : List Rival) (f : Bool → State → State) (s : State) : State :=
  let r := finishLoad g rivals s
  if r.1 then f r.2.1 r.2.2 else r.2.2

/-- The unit of an access of an instruction (R231): the LSU's load or a MAC fetch. -/
def placeUnit (place : Nat) : Nat := if place = 0 then srcLsu else srcMac

/-- The banks of the accesses of an instruction that are not yet made. -/
def pendingBanks (b : Barge) (xs : List (Nat × Nat × Nat)) : List BankIx :=
  ((xs.filter fun x => !b.hasDone x).map fun x => bankOf x.2.1).dedup

/-- One attempt to issue at a boundary whose results have been delivered (R44, R45, R52, R96, R122, R414). `read` tells that the
second part of the instruction before was read in this BCLK, so that a load that asks for a bank loses its arbitration (R63). -/
def issueAt (g : BargeIx) (rivals : List Rival) (masked read : Bool) (s : State) : State :=
  let b := s.barges.get g
  let world := pswW (effView g s).psw
  let meet (s : State) : State := if b.dbg.skipBp then s else bpHits g 2 (fun a => a == b.pc) s
  let halts := bpStops s g
  match b.hoFault with
  | some a =>
    if entryWaits s g then s
    else takeFault g (pswW b.psw) 0x08 a b.pc 0 (s.modBarge g fun b => { b with hoFault := none })
  | none =>
    match plan g s with
    | .fetch l => noteHold g [] (demandLine g l s)
    | .hold _ => noteHold g [] s
    | .wide =>
      (noteHold g [] s).modBarge g fun b => { b with wide := b.wide.orElse fun _ => some (bclkCount s (basinOf g)) }
    | .badLine =>
      if entryWaits s g then noteHold g [] s
      else if halts then meet s
      else match b.entry with
        | some e => vectorFault g e (meet s)
        | none => takeFault g world 0x09 (b.pc.setWidth 36) b.pc 0 ((meet s).viewed g)
    | .fault cause faddr =>
      if entryWaits s g then noteHold g [] s
      else if halts then meet s
      else takeFault g world cause faddr b.pc 0 (noteReturnRead g cause faddr ((meet s).viewed g))
    | .go c =>
      if !masked ∧ !b.arb ∧ interruptDue s g then s
      else if halts then (meet s).modBarge g fun b => { b with arb := false, arbAt := [], done := [] }
      else if read ∧ (c.memLoad b).isSome then noteHold g (pendingBanks b (c.accesses b)) s
      else
        let a := fetchAll g placeUnit rivals (c.accesses b) s
        if !a.1 then noteHold g (pendingBanks (a.2.barges.get g) (c.accesses b)) a.2
        else finishTrap g (c.effect (c.bookkeep ((meet a.2).viewed g)))

/-- The barge at a boundary (R44, R122): a frame's accesses come first (R117, R118), then what is left of a split load; then results due
are delivered, a waiting trap is entered, or the next instruction is tried. -/
def issueOne (g : BargeIx) (rivals : List Rival) (masked : Bool) (s : State) : State :=
  let b := s.barges.get g
  if !bargeRuns s g then s
  else if b.frameRun.isSome then frameStep g rivals s
  else if b.rfeDue.isSome then afterLoad g rivals (fun _ s => rfeStep g rivals (rfeSync g s)) s
  else if busyBoundary s g ∨ 0 < b.irun then s
  else afterLoad g rivals (fun read s =>
    if b.trapDue.isSome then finishTrap g s
    else
      let r := boundary g false s
      if r.2 then issueAt g rivals masked read r.1 else r.1) s

end Sys2Proof.Machine
end

