-- ==== Sys2Proof/Machine/Keeper.lean ====
section
/-! DEFINITION. The Keeper (chapter 7): the load port and its commands, the task table, dates and cycle starts, the judging of
seals, retries, decisions, lock gates, retirement, and the safe state. The commands are in Machine/Power.lean. -/

namespace Sys2Proof.Machine

/-! ### Fields of a task entry (R179) -/

def KTask.barge (t : KTask) : Nat := bitsN (t.words.get 0) 0 6
def KTask.stby (t : KTask) : Nat := bitsN (t.words.get 0) 6 6
def KTask.stbyen (t : KTask) : Bool := bit (t.words.get 0) 12
def KTask.retry (t : KTask) : Bool := bit (t.words.get 0) 13
def KTask.hold (t : KTask) : Nat := max 1 (bitsN (t.words.get 0) 14 4)
def KTask.failact (t : KTask) : Bool := bit (t.words.get 0) 18
def KTask.period (t : KTask) : Nat := bitsN (t.words.get 1) 0 24
def KTask.phase (t : KTask) : Nat := bitsN (t.words.get 2) 0 24
def KTask.early (t : KTask) : Nat := bitsN (t.words.get 3) 0 24
def KTask.late (t : KTask) : Nat := bitsN (t.words.get 4) 0 24
def KTask.rtime (t : KTask) : Nat := bitsN (t.words.get 5) 0 24
def KTask.m (t : KTask) : Nat := bitsN (t.words.get 6) 0 36 + 2 ^ 36 * bitsN (t.words.get 7) 0 25
def KTask.c (t : KTask) : Nat := bitsN (t.words.get 8) 0 36 + 2 ^ 36 * bitsN (t.words.get 9) 0 25
def KTask.n (t : KTask) : Nat := bitsN (t.words.get 10) 0 16

/-- The output groups of a task (R179 GROUPS). -/
def KTask.groups (t : KTask) : List (Fin 64) :=
  ixs 64 fun r => if r.val < 32 then bit (t.words.get 11) r.val else bit (t.words.get 12) (r.val - 32)

/-- The width of the fields of word w of a task entry (R179, R7). -/
def entryMask (w : Nat) : Word := mask36 0 <| match w with
  | 0 => 19
  | 7 => 25
  | 9 => 25
  | 10 => 16
  | 11 => 32
  | 12 => 32
  | 6 => 36
  | 8 => 36
  | _ => 24

/-- A barge number as an index. -/
def bargeIx (b : Nat) : Option BargeIx := if h : b < 48 then some ⟨b, h⟩ else none

/-- The Keeper issues dates and judges seals (R176). -/
def keeperLive (s : State) : Bool := s.kp.powered && (s.kp.mode == .armed || s.kp.mode == .running || s.kp.mode == .degraded)

/-- Lock gates open on a match (R176, R193). -/
def keeperCommits (s : State) : Bool := s.kp.powered && (s.kp.mode == .running || s.kp.mode == .degraded)

/-- KFAULT_N is high only in RUNNING (R200). -/
def kfaultN (s : State) : Bool := s.kp.powered && s.kp.mode == .running

/-- HIF_KSTAT's STATE and SAFECAUSE (R358); a change of it sends vector 9 (R361). -/
def kstat (s : State) : BitVec 3 × BitVec 8 := (s.kp.mode.code, s.kp.safecause)

def watchKstat (f : State → State) (s : State) : State :=
  let s1 := f s
  if kstat s1 = kstat s then s1 else s1.msix 9

/-! ### The log and the state (R176, R204) -/

/-- A KP_LOG entry (R204). -/
def logEntry (s : State) (kind cause : Nat) (task : BitVec 8) (barge : Nat) : Word :=
  at36 0 kind ||| at36 4 (cause % 16) ||| put36 8 task ||| at36 16 (barge % 64) ||| put36 22 (fld s.kp.kt 10 14)

/-- The entries of KP_LOG that the present KCLK has added, which a read in it does not see (R6). -/
def logFresh (s : State) : Nat := if kclkOver s s.kp.logNew.1 then 0 else s.kp.logNew.2

/-- The oldest entry of KP_LOG as a read finds it; none where it is empty (R6, R203). -/
def logHead (s : State) : Option Word := if s.kp.log.length ≤ logFresh s then none else s.kp.log.head?

/-- A word enters KP_LOG; with 64 held it is dropped and OVF set (R203). -/
def State.addLog (s : State) (w : Word) : State :=
  if s.kp.log.length < 64 then { s with kp := { s.kp with log := s.kp.log ++ [w], logNew := (s.now, logFresh s + 1) } }
  else State.mark .kpLog 7 { s with kp := { s.kp with logOvf := true } }

/-- An entry enters KP_LOG (R203, R204). -/
def State.kpLog (s : State) (kind cause : Nat) (task : BitVec 8) (barge : Nat) : State := s.addLog (logEntry s kind cause task barge)

/-- The Keeper's state changes: the Harbourmaster reports it (R398), and HIF_KSTAT changes (R358, R361). -/
def setMode (m : KMode) (cause : BitVec 8) (s : State) : State :=
  let s1 := s.notify (.keeperState (s.kp.mode.code.setWidth 8) (m.code.setWidth 8) cause)
  watchKstat (fun s => { s with kp := { s.kp with mode := m, safecause := cause } }) s1

/-- A contained fault takes RUNNING to DEGRADED (R177). -/
def degrade (s : State) : State := if s.kp.mode = .running then setMode .degraded s.kp.safecause s else s

/-! ### Gates (R191 to R195, R446) -/

/-- A message to every output block (R193): to a link where it is enabled, vital and of the group. -/
def sendGate (m : GateMsg) (grp : Option (BitVec 6)) (s : State) : State :=
  { s with
    pwm := { s.pwm with gates := s.pwm.gates ++ [m] }
    fio := { s.fio with gates := s.fio.gates ++ [m] }
    tl := { s.tl with link := s.tl.link.map fun l =>
      if l.en && l.vital && (match grp with
        | some r => l.group == r
        | none => true) then { l with gates := l.gates ++ [m] } else l } }

/-- A group's lock gate opens, naming a generation (R193): the group is live. -/
def openGroup (d : BitVec 32) (a : Bool) (s : State) (r : Fin 64) : State :=
  (sendGate (.opening (BitVec.ofNat 6 r.val) d a s.now) (some (BitVec.ofNat 6 r.val)) s).modGroup r fun g => { g with gstate := 1 }

/-- A group goes to its safe level (R190, R191, R196). -/
def safeGroup (s : State) (r : Fin 64) : State :=
  (sendGate (.safe (BitVec.ofNat 6 r.val)) (some (BitVec.ofNat 6 r.val)) s).modGroup r fun g => { g with gstate := 0 }

/-- The groups that a task owns (R192). -/
def ownGroups (s : State) (t : Fin 256) : List (Fin 64) :=
  (s.kp.tasks.get t).groups.filter fun r => (s.kp.groups.get r).owner == some (BitVec.ofNat 8 t.val)

/-- The opening that a task has decided and not made is made (R193, R446). -/
def openTask (t : Fin 256) (s : State) : State :=
  match (s.kp.tasks.get t).openAt with
  | some (_, d, a) => (ownGroups s t).foldl (openGroup d a) (s.modTask t fun x => { x with openAt := none })
  | none => s

/-- The staged values of a group are cleared: those of a generation, or all of them (R193, R195). -/
def clearStaged (gen : Option (BitVec 32 × Bool)) (s : State) (r : Fin 64) : State :=
  let g : BitVec 6 := BitVec.ofNat 6 r.val
  tlDiscard g gen (foDiscard g gen (pwmDiscard g gen s))

/-- The task's groups lose their owner and go to their safe level, after an opening already decided (R190, R196, R446). -/
def releaseGroups (t : Fin 256) (s : State) : State :=
  let s1 := openTask t s
  (ownGroups s1 t).foldl (fun s r => (safeGroup s r).modGroup r fun g => { g with owner := none }) s1

/-! ### The safe state (R198, R199) -/

/-- An opening made in this KCLK, which a SAFE decision overrides (R187). -/
def openedNow (s : State) : GateMsg → Bool
  | .opening _ _ _ since => since / kclkPeriod == s.now / kclkPeriod
  | _ => false

def GateMsg.isOpening : GateMsg → Bool
  | .opening _ _ _ _ => true
  | _ => false

/-- The messages on their way to the output blocks that satisfy `p` are withdrawn. -/
def dropGates (p : GateMsg → Bool) (s : State) : State :=
  { s with
    pwm := { s.pwm with gates := s.pwm.gates.filter fun m => !p m }
    fio := { s.fio with gates := s.fio.gates.filter fun m => !p m }
    tl := { s.tl with link := s.tl.link.map fun l => { l with gates := l.gates.filter fun m => !p m } } }

/-- The Keeper enters SAFE (R198, R199): gates frozen shut, no dates, judgements or retries, outputs to their safe level, pins
low. Of several triggers in one KCLK the lowest code is recorded. -/
def enterSafe (cause : BitVec 8) (s : State) : State :=
  if !s.kp.powered then s
  else if s.kp.mode = .safe then
    if s.kp.safeAt = some s.kp.kt ∧ cause < s.kp.safecause then watchKstat (fun s => { s with kp := { s.kp with safecause := cause } }) s else s
  else
    let s2 := sendGate .safeAll none (setMode .safe cause ((dropGates (openedNow s) s).kpLog 6 cause.toNat 0 0))
    { s2 with kp := { s2.kp with
      safeA := false, safeB := false, toggleAt := none, safeAt := some s.kp.kt
      groups := s2.kp.groups.map fun g => { g with gstate := 0 }
      tasks := s2.kp.tasks.map fun t => { t with openAt := none } } }

/-! ### Fault events and retirement (R189, R190) -/

/-- A fault event of a barge (R189). -/
def faultEvent (b : BargeIx) (s : State) : State :=
  { s with kp := { s.kp with
    bf := vmod s.kp.bf b fun x => { x with events := x.events ++ [x.dates], total := x.total + 1 }
    tasks := s.kp.tasks.map fun t =>
      { t with cycles := t.cycles.map fun c => if c.barge = b then { c with event := true } else c } } }

/-- KP_CFG.K and KP_CFG.W as they act (R203). -/
def keeperK (s : State) : Nat := max 1 s.kp.k.toNat
def keeperW (s : State) : Nat := max 100 s.kp.w.toNat

/-- KP_BFC.EVT: the barge's fault events among the last W dates issued to it, saturating at 15 (R189, R203). -/
def evtCount (s : State) (b : BargeIx) : Nat :=
  let x := s.kp.bf.get b
  min 15 (x.events.filter fun e => x.dates < e + keeperW s).length

/-- One active task of a retired barge: its standby takes it over, or it fails (R190). -/
def moveTask (b : BargeIx) (s : State) (t : Fin 256) : State :=
  let x := s.kp.tasks.get t
  if x.tstate ≠ 1 ∨ x.onbarge.toNat ≠ b.val then s
  else if x.stbyen ∧ !bit s.kp.retired x.stby then
    s.modTask t fun x => { x with
      onbarge := BitVec.ofNat 6 x.stby, notBefore := some (s.kp.kt + 1000), outstanding := 0 }
  else if x.failact then
    enterSafe 0x07 (releaseGroups t (s.modTask t fun x => { x with openAt := none, tstate := 2, rpend := false }))
  else
    (releaseGroups t s).modTask t fun x => { x with tstate := 2, rpend := false }

/-- A barge is retired (R190): the Harbourmaster holds it in reset, and its tasks move or fail. -/
def retireBarge (b : BargeIx) (cause : Nat) (s : State) : State :=
  if bit s.kp.retired b.val then s
  else
    let s1 := { s with kp := { s.kp with retired := s.kp.retired ||| BitVec.ofNat 48 (2 ^ b.val) } }
    let s2 := (List.finRange 256).foldl (moveTask b) (s1.kpLog 4 cause 0 b.val)
    let s3 := degrade s2
    let s4 := s3.notify (.retired 2 b.val (BitVec.ofNat 8 cause))
    if bit s4.crp.bhold b.val then s4 else resetBarge b (at36 8 1) s4

/-! ### Cycles and dates (R181, R182, R445) -/

/-- A cycle of an active task starts in this KCLK (R182, R190). -/
def cycleDue (s : State) (t : Fin 256) : Bool :=
  let x := s.kp.tasks.get t
  keeperLive s && x.tstate == 1 && x.period != 0 && s.kp.kt.toNat % x.period == x.phase && x.notBefore.all (ktReached s.kp.kt) &&
    x.lastStart != some s.kp.kt

/-- A message from the Keeper to a barge (R445). -/
def State.toBarge (s : State) (b : BargeIx) (m : KMsg) : State := { s with kp := { s.kp with toBarge := s.kp.toBarge ++ [(b, m)] } }

/-- A cycle starts (R181, R182): the date and the task go to the barge, the snapshot freezes, generation (D, 0) opens. -/
def startCycle (t : Fin 256) (s : State) : State :=
  match bargeIx (s.kp.tasks.get t).onbarge.toNat with
  | none => s
  | some b =>
    let d := s.kp.date
    let task : BitVec 8 := BitVec.ofNat 8 t.val
    let s1 := s.modTask t fun x => { x with
      date := d, lastStart := some s.kp.kt, notBefore := none, outstanding := x.outstanding + 1
      cycles := (x.cycles.filter fun c => c.judged.isSome) ++ [{ start := s.kp.kt, date := d, barge := b }] }
    let s2 := { s1 with
      kp := { s1.kp with date := d + 1, bf := vmod s1.kp.bf b fun x => { x with dates := x.dates + 1 } }
      weir := { s1.weir with freezes := s1.weir.freezes ++ [task] }
      fio := { s1.fio with freezes := s1.fio.freezes ++ [task] }
      tl := { s1.tl with freezes := s1.tl.freezes ++ [task] } }
    s2.toBarge b (.date d task)

/-! ### Judging a seal (R184 to R186) -/

/-- An unexpected seal (R186, R196). -/
def unexpectedSeal (b : BargeIx) (t : Fin 256) (s : State) : State :=
  let s1 := s.kpLog 3 0 (BitVec.ofNat 8 t.val) b.val
  match (s.kp.tasks.get t).stale with
  | some (o, k) =>
    if o.toNat = b.val ∧ 0 < k then s1.modTask t fun x => { x with stale := some (o, k - 1) }
    else faultEvent b s1
  | none => faultEvent b s1

/-- A seal naming a task reaches the Keeper on the task's link: one date fewer is without its seal (R196). -/
def countSeal (b : BargeIx) (t : Fin 256) (s : State) : State :=
  s.modTask t fun x => if x.tstate ≠ 0 ∧ x.onbarge.toNat = b.val then { x with outstanding := x.outstanding - 1 } else x

/-- The decision code of a seal (R183, R184): 0 for a pass. -/
def judgeSeal (x : KTask) (c : Cycle) (arrival : BitVec 48) (v : BitVec 61) (n : BitVec 16) : Nat :=
  let a := (arrival - c.start).toNat
  if a < x.early then 5
  else if x.late ≤ a then 6
  else if n.toNat ≠ x.n then 4
  else if v.toNat ≠ expectedSeal c.date x.m x.c then 3
  else 0

/-- The last element of a list replaced by `f` of it. -/
def modLast {α : Type} (f : α → α) (xs : List α) : List α :=
  match xs.getLast? with
  | some x => xs.dropLast ++ [f x]
  | none => []

/-- A cycle takes a seal: it is not decided, or its retry is pending (R184). -/
def Cycle.takes (c : Cycle) : Bool := c.judged.isNone && c.retryAt.isNone

/-- A seal becomes visible at the Keeper's input and is judged (R184); it takes effect 4 KCLK later. -/
def judge (b : BargeIx) (v : BitVec 61) (task : BitVec 8) (n : BitVec 16) (disagree : Bool) (s : State) : State :=
  let t : Fin 256 := task.toFin
  let x := s.kp.tasks.get t
  if disagree then enterSafe 0x09 s
  else if x.tstate ≠ 1 ∨ x.onbarge.toNat ≠ b.val then unexpectedSeal b t (countSeal b t s)
  else
    match x.cycles.getLast? with
    | some c =>
      if c.takes then
        s.modTask t fun x => { x with
          outstanding := if c.retried then x.outstanding else x.outstanding - 1
          rpend := false
          cycles := modLast (fun c => { c with judged := some (BitVec.ofNat 4 (judgeSeal x c s.kp.kt v n), s.kp.kt + 4) }) x.cycles }
      else unexpectedSeal b t (countSeal b t s)
    | none => unexpectedSeal b t (countSeal b t s)

/-- The message at the front of a barge's seal link. -/
def linkHead (s : State) (b : BargeIx) : Option SealMsg := (s.kp.links.get b).head?

/-- The message at the front of a barge's seal link is taken off it. -/
def dropLink (b : BargeIx) (s : State) : State := { s with kp := { s.kp with links := vmod s.kp.links b List.tail } }

/-- A seal arrives (R164, R184): one that fails its CRC is discarded; outside ARMED, RUNNING and DEGRADED none is judged
(R176, R199). -/
def sealArrives (b : BargeIx) (crcOk disagree : Bool) (s : State) : State :=
  match linkHead s b with
  | some (.seal v task n) =>
    let s1 := dropLink b s
    if crcOk && keeperLive s then judge b v task n disagree s1 else s1
  | _ => s

/-- A fault report arrives (R123, R189): it is logged and is one fault event of the barge. -/
def faultArrives (b : BargeIx) (crcOk : Bool) (s : State) : State :=
  match linkHead s b with
  | some (.fault cause _ task) =>
    let s1 := dropLink b s
    if crcOk && s.kp.powered then faultEvent b (s1.kpLog 2 cause.toNat task b.val) else s1
  | _ => s

/-- A reset report arrives (R126, R189): the fault is permanent. -/
def resetArrives (b : BargeIx) (crcOk : Bool) (s : State) : State :=
  match linkHead s b with
  | some (.reset info) =>
    let s1 := dropLink b s
    if crcOk && s.kp.powered then degrade (retireBarge b (bitsN info 0 8) (s1.kpLog 7 (bitsN info 0 8) 0 b.val)) else s1
  | _ => s

/-! ### Decisions (R183, R185, R188 to R195) -/

/-- The fault of a cycle is classified at its final decision (R189). -/
def classify (c : Cycle) (code : Nat) (s : State) : State :=
  if c.event ∧ (3 ≤ code ∨ keeperK s ≤ evtCount s c.barge) then retireBarge c.barge code s else s

/-- A failure decision (R189, R190, R195): a fault event, a log entry, the discard of the generation, the notice, which
goes to the barge that ran the cycle (log entry 105). -/
def failDecision (t : Fin 256) (c : Cycle) (code : Nat) (s : State) : State :=
  let s1 := faultEvent c.barge (s.kpLog 1 code (BitVec.ofNat 8 t.val) c.barge.val)
  ((ownGroups s1 t).foldl (clearStaged (some (c.date, c.att))) s1).toBarge c.barge .notice

/-- A cycle ends with a failed final decision (R183, R191). -/
def endFailed (t : Fin 256) (c : Cycle) (code : Nat) (s : State) : State :=
  let s1 := s.modTask t fun x => { x with
    last := BitVec.ofNat 4 code, fails := x.fails + 1, rpend := false
    failrun := if x.failrun = 15 then 15 else x.failrun + 1
    cycles := x.cycles.filter fun y => y.start != c.start }
  let own := ownGroups s1 t
  let s2 := own.foldl (fun s r => s.modGroup r fun g => if g.gstate = 1 then { g with gstate := 2 } else g) s1
  let x := s2.kp.tasks.get t
  let s3 := if x.hold ≤ x.failrun.toNat then own.foldl safeGroup s2 else s2
  classify { c with event := true } code s3

/-- A cycle ends with a match (R183, R193): the gates open one KCLK later, or in ARMED the staged values are cleared. -/
def endMatched (t : Fin 256) (c : Cycle) (s : State) : State :=
  let code := if c.att then 2 else 1
  let s1 := s.modTask t fun x => { x with
    last := BitVec.ofNat 4 code, failrun := 0, rpend := false
    cycles := x.cycles.filter fun y => y.start != c.start }
  let s2 :=
    if (s1.kp.tasks.get t).tstate ≠ 1 then s1
    else if keeperCommits s1 then (openTask t s1).modTask t fun x => { x with openAt := some (s1.kp.kt + 1, c.date, c.att) }
    else (ownGroups s1 t).foldl (clearStaged none) s1
  classify c code s2

/-- A failed first attempt is retried (R188). -/
def retries (s : State) (t : Fin 256) (c : Cycle) (code : Nat) (due : BitVec 48) : Bool :=
  let x := s.kp.tasks.get t
  x.tstate == 1 && x.retry && (code == 3 || code == 4 || code == 5) && !c.retried && (due - c.start).toNat + x.rtime ≤ x.late

/-- The oldest judged cycle whose decision is due takes its decision (R183, R184, R188). -/
def decide' (t : Fin 256) (s : State) : State :=
  let x := s.kp.tasks.get t
  match x.cycles.head? with
  | some c =>
    match c.judged with
    | some (code, due) =>
      if !keeperLive s ∨ !ktReached s.kp.kt due then s
      else if code = 0 then endMatched t c s
      else
        let s1 := failDecision t c code.toNat s
        if retries s t c code.toNat due then
          s1.modTask t fun x => { x with
            retries := x.retries + 1
            cycles := x.cycles.map fun y => if y.start = c.start then
              { y with judged := none, att := true, retried := true, retryAt := some (due + 1) } else y }
        else endFailed t c code.toNat s1
    | none => s
  | none => s

/-- The window of the current cycle closes (R185): with no seal judged, it fails with LATE. -/
def closeWindow (t : Fin 256) (s : State) : State :=
  let x := s.kp.tasks.get t
  match x.cycles.getLast? with
  | some c =>
    if keeperLive s ∧ c.judged.isNone ∧ x.late ≤ (s.kp.kt - c.start).toNat then endFailed t c 6 (failDecision t c 6 s) else s
  | none => s

/-- The retry request leaves for the barge (R188): a retry is pending. -/
def sendRetry (t : Fin 256) (s : State) : State :=
  let x := s.kp.tasks.get t
  match x.cycles.getLast? with
  | some c =>
    match c.retryAt with
    | some due =>
      if keeperLive s ∧ x.tstate = 1 ∧ ktReached s.kp.kt due then
        (s.modTask t fun x => { x with
          rpend := true, cycles := modLast (fun c => { c with retryAt := none }) x.cycles }).toBarge c.barge
          (.retry c.date (BitVec.ofNat 8 t.val))
      else s
    | none => s
  | none => s

/-- The lock gates of the task's groups open, one KCLK after the decision (R193). -/
def openGates (t : Fin 256) (s : State) : State :=
  match (s.kp.tasks.get t).openAt with
  | some (due, _, _) => if keeperCommits s ∧ ktReached s.kp.kt due then openTask t s else s
  | none => s

/-- A block's report of a retired vital channel arrives (R197). -/
def retirementReport (s : State) : State :=
  match s.kp.reports with
  | r :: rest =>
    let s1 := { s with kp := { s.kp with reports := rest } }
    if s.kp.powered then degrade (s1.kpLog 5 0 (BitVec.ofNat 8 r.index) 0) else s1
  | [] => s

/-- The self-test ends (R201). -/
def selfTest (pass : Bool) (s : State) : State :=
  if !s.kp.powered ∨ s.kp.mode = .safe then s
  else if pass then { s with kp := { s.kp with stok := true } }
  else enterSafe 0x04 s

/-- A half-period of SAFE_A and SAFE_B ends (R200): the pads are read back, and the levels change. -/
def halfPeriod (padA padB : Bool) (s : State) : State :=
  match s.kp.toggleAt with
  | some due =>
    if !keeperCommits s ∨ !ktReached s.kp.kt due then s
    else if padA ≠ s.kp.safeA ∨ padB ≠ s.kp.safeB then enterSafe 0x06 s
    else { s with kp := { s.kp with safeA := !s.kp.safeA, safeB := s.kp.safeA, toggleAt := some (due + 10000) } }
  | none => s

/-! ### The load port (R175, R203, R205) -/

/-- Result codes (R203). -/
def kOk : BitVec 4 := 0
def kBadState : BitVec 4 := 1
def kBadArg : BitVec 4 := 2
def kBadEntry : BitVec 4 := 3
def kBadM : BitVec 4 := 4
def kGroupBusy : BitVec 4 := 5
def kNotReady : BitVec 4 := 6

/-- START_TASK's checks, in their order (R180). -/
def startCheck (s : State) (t : Fin 256) : BitVec 4 :=
  let x := s.kp.tasks.get t
  if x.tstate = 1 then kBadState
  else if 47 < x.barge ∨ 47 < x.stby ∨ (x.stbyen ∧ (x.stby / 4 ≠ x.barge / 4 ∨ x.stby = x.barge)) ∨ bit s.kp.retired x.barge then kBadArg
  else if x.period < 10000 ∨ 10000000 < x.period ∨ x.period ≤ x.phase ∨ x.late ≤ x.early ∨ x.period < x.late ∨ x.late < x.rtime ∨ x.n = 0 then
    kBadEntry
  else if x.m ≠ 2 ^ (13 * x.n % 61) ∨ 2 ^ 61 - 1 ≤ x.c then kBadM
  else if x.groups.any fun r => (s.kp.groups.get r).owner.any fun o => o.toNat != t.val then kGroupBusy
  else kOk

/-- START_TASK (R180, R182). -/
def startTask (t : Fin 256) (s : State) : State :=
  let x := s.kp.tasks.get t
  let s1 := s.modTask t fun x => { x with
    tstate := 1, onbarge := BitVec.ofNat 6 x.barge, rpend := false, cycles := [], openAt := none
    notBefore := none, lastStart := some s.kp.kt, outstanding := 0, stale := none }
  x.groups.foldl (fun s r => s.modGroup r fun _ => { owner := some (BitVec.ofNat 8 t.val), gstate := 0 }) s1

/-- STOP_TASK (R196): a commit decided in its KCLK stands and is made first (R446). -/
def stopTask (t : Fin 256) (s : State) : State :=
  (releaseGroups t s).modTask t fun x => { x with
    tstate := 0, cycles := [], rpend := false, outstanding := 0
    stale := if x.tstate = 0 then x.stale else some (x.onbarge, min 5 x.outstanding) }

/-- ARM is refused (R205, R410, R432). -/
def armRefused (s : State) : Bool := !s.kp.stok || s.crp.pins.ktest || s.kp.testHold

/-- RUN is refused (R178, R205). -/
def runRefused (s : State) : Bool :=
  let act := s.kp.tasks.toList.filter fun t => t.tstate == 1
  s.kp.comm || act.isEmpty || act.any fun t => !(t.last == 1 || t.last == 2)

/-- The Keeper enters RUNNING: SAFE_A and SAFE_B start, complementary, at a level of SAFE_A that the manual leaves open (R200). -/
def startSafePins (s : State) : State :=
  let a := Config.freeChoice s.freeCtr
  { s.free with kp := { s.kp with safeA := a, safeB := !a, toggleAt := some (s.kp.kt + 10000) } }

/-- A command's result code in the present state (R205). -/
def commandResult (s : State) (op : Nat) (arg : BitVec 8) : BitVec 4 :=
  let t : Fin 256 := arg.toFin
  let m := s.kp.mode
  match op with
  | 1 => if m ≠ .starting then kBadState else if armRefused s then kNotReady else kOk
  | 2 => if m ≠ .armed then kBadState else if runRefused s then kNotReady else kOk
  | 3 => if !keeperLive s then kBadState else startCheck s t
  | 4 => if !keeperLive s ∨ (s.kp.tasks.get t).tstate = 0 then kBadState else kOk
  | 5 => if !keeperLive s then kBadState else if 47 < arg.toNat then kBadArg else kOk
  | 6 => if m = .safe then kBadState else kOk
  | 7 => if 47 < arg.toNat then kBadArg else kOk
  | 8 =>
    if !keeperLive s then kBadState
    else if 47 < arg.toNat ∨ s.kp.tasks.toList.any (fun t => t.tstate == 1 && t.onbarge.toNat == arg.toNat) then kBadArg
    else kOk
  | 9 =>
    if m ≠ .degraded then kBadState
    else if s.kp.retired ≠ 0 ∨ s.kp.tasks.toList.any (fun t => t.tstate == 2) then kNotReady else kOk
  | _ => kBadArg

/-- A command's effect once it is accepted (R205). -/
def commandEffect (op : Nat) (arg : BitVec 8) (s : State) : State :=
  let t : Fin 256 := arg.toFin
  match op with
  | 1 => setMode .armed 0 s
  | 2 => startSafePins (setMode .running 0 s)
  | 3 => startTask t s
  | 4 => stopTask t s
  | 5 => match bargeIx arg.toNat with
    | some b => retireBarge b 0 s
    | none => s
  | 6 => enterSafe 0x08 s
  | 7 => { s with kp := { s.kp with bf := vmodN s.kp.bf arg.toNat fun x => { x with events := [] } } }
  | 8 => { s with kp := { s.kp with retired := s.kp.retired &&& ~~~(BitVec.ofNat 48 (2 ^ arg.toNat)) } }
  | 9 => setMode .running 0 s
  | _ => s

/-- A command written to KP_CMD: its effect and KP_CMDST (R203, R205). -/
def keeperCommand (op : Nat) (arg : BitVec 8) (s : State) : State :=
  if !s.kp.powered then s
  else
    let r := commandResult s op arg
    let s1 := if r = kOk then commandEffect op arg s else s
    { s1 with kp := { s1.kp with cmdOp := BitVec.ofNat 4 op, cmdResult := r } }

/-- KP_STAT.LERR is set: a load-port write was not performed (R175, R203). -/
def loadError (s : State) : State := State.mark .kpStat 4 { s with kp := { s.kp with lerr := true } }

/-- A device time in the present KCLK. -/
def sameKclk (s : State) (time : Nat) : Bool := sameCycle kclkPeriod s time

/-- The listed words of the Keeper space below the task table (R203). -/
def keeperListed (w : Nat) : Bool :=
  w ≤ 8 || (0x10 ≤ w && w ≤ 0x13) || (0x40 ≤ w && w < 0x70) || (0x100 ≤ w && w < 0x140) || w == 0x200 || w == 0x201 ||
    (0x1000 ≤ w && w < 0x2000)

/-- A performed write of one word of the Keeper space (R179, R181, R203). -/
def keeperWrite (w : Nat) (v : Word) (s : State) : State :=
  if !keeperListed w then loadError s
  else if h : 0x1000 ≤ w ∧ w < 0x2000 then
    let t : Fin 256 := ⟨(w - 0x1000) / 16, by omega⟩
    let k := w % 16
    if 13 ≤ k then s
    else if (s.kp.tasks.get t).tstate = 1 then loadError s
    else s.modTask t fun x => { x with words := vmodN x.words k fun _ => v &&& entryMask k }
  else match w with
    | 1 => if bit (s.w1c .kpStat (sameKclk s) v) 4 then { s with kp := { s.kp with lerr := false } } else s
    | 2 => keeperCommand (bitsN v 0 4) (fld v 4 8) s
    | 4 =>
      if s.kp.mode = .starting ∨ s.kp.mode = .armed then { s with kp := { s.kp with k := fld v 0 4, w := fld v 4 16, comm := bit v 20 } }
      else loadError s
    | 5 => if s.kp.mode = .starting then { s with kp := { s.kp with date := fld v 0 32 } } else loadError s
    | 0x201 => if bit (s.w1c .kpLog (sameKclk s) v) 7 then { s with kp := { s.kp with logOvf := false } } else s
    | _ => s

/-- A load-port write: performed only when HM0 and HM1 present the same (R175). -/
def loadPort (w : Nat) (v : Word) (same : Bool) (s : State) : State :=
  if !s.kp.powered then s else if same then keeperWrite w v s else loadError s

/-- The two processors present the same address and data (R175). -/
def sameWrite (hm1 : LoadWrite) (w : Nat) (v : Word) : Bool := hm1 == { addr := BitVec.ofNat 16 w, data := v }

/-- KP_CMD with an operation and its argument (R203). -/
def cmdWord (op : Nat) (arg : BitVec 8) : Word := at36 0 op ||| put36 4 arg

/-- A command as HM0 and HM1 write it to KP_CMD (R175, R205). -/
def commandPort (op : Nat) (arg : BitVec 8) (hm1 : LoadWrite) : State → State :=
  loadPort 2 (cmdWord op arg) (sameWrite hm1 2 (cmdWord op arg))

/-- KP_TSTAT (R179). -/
def KTask.status (t : KTask) : Word :=
  put36 0 t.tstate ||| put36 2 t.last ||| bit36 6 t.rpend ||| put36 7 t.failrun ||| put36 11 t.onbarge

/-- The groups at their safe level, as a number (R203 KP_GSAFE). -/
def gsafe (s : State) : Nat := (ixs 64 fun r => (s.kp.groups.get r).gstate == 0).foldl (fun n r => n + 2 ^ r.val) 0

/-- KP_GRP (R203). -/
def KGroup.word (g : KGroup) : Word :=
  put36 0 (g.owner.getD 0) ||| bit36 8 g.owner.isSome ||| put36 9 g.gstate

/-- A read of one word of the Keeper space (R203); an unlisted word reads 0. KP_LOG shows its oldest entry. -/
def keeperRead (s : State) (w : Nat) : Word :=
  let k := s.kp
  if h : 0x1000 ≤ w ∧ w < 0x2000 then
    let x := k.tasks.get ⟨(w - 0x1000) / 16, by omega⟩
    match w % 16 with
    | 13 => x.status
    | 14 => put36 0 x.date
    | 15 => put36 0 x.fails ||| put36 18 x.retries
    | j => vgetN x.words j 0
  else if h : 0x40 ≤ w ∧ w < 0x70 then
    let b : BargeIx := ⟨w - 0x40, by omega⟩
    at36 0 (evtCount s b) ||| put36 4 (k.bf.get b).total
  else if h : 0x100 ≤ w ∧ w < 0x140 then (k.groups.get ⟨w - 0x100, by omega⟩).word
  else match w with
    | 0 => 0x037240
    | 1 => put36 0 k.mode.code ||| bit36 3 k.comm ||| bit36 4 k.lerr ||| put36 5 k.safecause ||| bit36 13 k.stok
    | 3 => put36 0 k.cmdOp ||| put36 4 k.cmdResult
    | 4 => put36 0 k.k ||| put36 4 k.w ||| bit36 20 k.comm
    | 6 => put36 0 k.date
    | 7 => low 36 k.kt
    | 8 => put36 0 (fld k.kt 36 12)
    | 0x10 => low 36 k.retired
    | 0x11 => put36 0 (fld k.retired 36 12)
    | 0x12 => at36 0 (gsafe s)
    | 0x13 => at36 0 (gsafe s / 2 ^ 36)
    | 0x200 => (logHead s).getD 0
    | 0x201 => at36 0 k.log.length ||| bit36 7 k.logOvf
    | _ => 0

/-- KP_LOG is read: its oldest entry leaves (R203, RC). -/
def popLog (s : State) : State := if (logHead s).isNone then s else { s with kp := { s.kp with log := s.kp.log.tail } }

/-! ### Scoped resets (R206) -/

/-- Every task that runs on a barge is stopped as by STOP_TASK. -/
def stopTasksOn (p : Nat → Bool) (s : State) : State :=
  (List.finRange 256).foldl (fun s t =>
    let x := s.kp.tasks.get t
    if x.tstate ≠ 0 ∧ p x.onbarge.toNat then stopTask t s else s) s

/-- A full reset to STARTING (R174, R206): VDD_KP is as it is, and the test hold stays with the TAP (R410). -/
def keeperReset (s : State) : State :=
  { s with kp := { powered := s.kp.powered, testHold := s.kp.testHold } }

end Sys2Proof.Machine
end

