-- ==== Sys2Proof/Machine/Power.lean ====
section
/-! DEFINITION. Basin power states as the Keeper and the Harbourmaster set them (R347 to R349, R395), the order of the Keeper's
events within one KCLK (R187), and the Keeper's commands. -/

namespace Sys2Proof.Machine

/-! ### Basins that vital tasks hold in B0 (R348, R349) -/

/-- CRP_BPWR[n].VHELD (R348). -/
def vheld (s : State) (n : BasinIx) : Bool :=
  s.kp.tasks.toList.any fun t => t.tstate == 1 && (t.onbarge.toNat / 4 == n.val || (t.stbyen && t.stby / 4 == n.val))

/-- The divider that a basin is to have (R338, R348, R349). -/
def dividerDue (s : State) (n : BasinIx) : BitVec 2 := if vheld s n ∨ !s.crp.then' then 0 else s.crp.level

/-- A transition to a power state begins (R347): a wake, or a way down. The wake from B3 runs the self-test. -/
def beginPower (n : BasinIx) (goal : BitVec 2) (s : State) : State :=
  let p := s.crp.bpwr.get n
  if p.cur = goal ∨ (p.cur = 1 ∧ goal = 0) then s
  else if p.cur = 1 then s
  else
    let s1 := s.modBpwr n fun p => { p with target := some goal, waking := decide (goal = 0) }
    if p.cur = 3 then s1.modBasin n fun b => { b with testing := true, waking := true } else s1

/-- A basin's divider changes at the BCLK edge that ends the present BCLK, from which its count goes on (R338). -/
def setDivider (s : State) (n : BasinIx) : State :=
  let b := s.basins.get n
  let period (d : BitVec 2) : Nat := bclkPeriod s * 2 ^ d.toNat
  let old := (s.crp.bpwr.get n).tdiv
  let new := dividerDue s n
  if old = new then s
  else
    let c := bclkCount s n
    let edge := b.bclkSince + (c + 1 - b.bclkAcc) * period old
    (s.modBasin n fun b => { b with bclkAcc := c, bclkSince := edge - period new }).modBpwr n fun p => { p with tdiv := new }

/-- A basin that comes to be held in B0 stays there or starts its way there: a transition to a deeper state ends (R348). -/
def holdAwake (s : State) (n : BasinIx) : State :=
  let p := s.crp.bpwr.get n
  if !vheld s n then s
  else if p.cur.toNat ≤ 1 then s.modBpwr n fun p => { p with target := none, later := none }
  else if p.target = some 0 then s.modBpwr n fun p => { p with later := none }
  else beginPower n 0 (s.modBpwr n fun p => { p with later := none })

/-- Every basin is awake where a vital task holds it, and runs with the divider it is to have (R348, R349). -/
def settle (s : State) : State := (List.finRange 12).foldl (fun s n => setDivider (holdAwake s n) n) s

/-- REQ as it acts (R351): 1 acts as 0. -/
def reqActs (r : BitVec 2) : BitVec 2 := if r = 1 then 0 else r

/-- CRP_BPWR[n] is written (R347, R348, R351); under VHELD a REQ other than 0 is ignored. -/
def writeBpwr (n : BasinIx) (v : Word) (s : State) : State :=
  let r : BitVec 2 := fld v 0 2
  let s1 := s.modBpwr n fun p => { p with autob1 := bit v 4, changed := p.changed || (p.cur == 1 && p.req != r) }
  if vheld s n ∧ r ≠ 0 then s1
  else
    let p := s1.crp.bpwr.get n
    if p.target.isSome then s1.modBpwr n fun p => { p with later := some r }
    else beginPower n (reqActs r) (s1.modBpwr n fun p => { p with req := r })

/-! ### The Harbourmaster's choice (R348, R395) -/

/-- Every barge of a basin is held. -/
def allHeld (s : State) (n : BasinIx) : Bool := (List.finRange 4).all fun p => bit s.crp.bhold (bargeOf n p).val

/-- An enabled Weir channel or Towline link delivers into the basin (R348). -/
def delivers (s : State) (n : BasinIx) : Bool :=
  s.weir.ch.toList.any (fun c => c.en && c.basin == n.val) || s.tl.link.toList.any fun l => l.en && l.dbasin == n.val

/-- An image is being loaded into the basin. -/
def loadingInto (s : State) (n : BasinIx) : Bool :=
  (List.finRange 4).any fun j => (s.fw.slot.get j).any fun d => d.op == 0x0010 && basinOfId (d.arg 0 4) == some n

/-- The REQ that the tolerance of a basin asks for (R348, R395). -/
def powerGoal (s : State) (n : BasinIx) : BitVec 2 :=
  let t := (vgetN s.fw.latTol n.val 0).toNat
  if vheld s n ∨ !allHeld s n ∨ delivers s n ∨ loadingInto s n then 0
  else if 3000000 ≤ t then 3 else if 30000 ≤ t then 2 else 0

/-- Every BANK_OWN of a basin gets WH = 0 (R348). -/
def closeBanks (n : BasinIx) (s : State) : State :=
  (List.finRange 16).foldl (fun s b => handover n b (((s.basins.get n).banks.get b).own &&& 0x1F) none false s) s

/-- The Harbourmaster wakes a basin in B1 for which it chooses B0, by changing REQ (R347, R348). -/
def leaveB1 (n : BasinIx) (s : State) : State :=
  s.modBpwr n fun p => if p.cur = 1 then { p with changed := true } else p

/-- The power state of a basin is chosen anew (R348, R395, R396). -/
def choosePower (n : BasinIx) (s : State) : State :=
  let p := s.crp.bpwr.get n
  let goal := powerGoal s n
  let auto := goal == 0 && !vheld s n && decide (500 ≤ (vgetN s.fw.latTol n.val 0).toNat)
  let aim := reqActs (p.later.getD p.req)
  if aim = goal ∧ p.autob1 = auto then s
  else
    let v : Word := put36 0 (if goal = 0 ∧ aim = 0 then p.later.getD p.req else goal) ||| bit36 4 auto
    let s1 := if goal = 0 then s else closeBanks n (if p.cur.toNat ≤ 1 ∧ aim ≠ goal then s.pendBasin n 13 else s)
    let s2 := writeBpwr n v s1
    if goal = 0 ∧ !auto then leaveB1 n s2 else s2

/-- Every basin's power state is chosen anew. -/
def choosePowers (s : State) : State := (List.finRange 12).foldl (fun s n => choosePower n s) s

/-- What a choice of power states rests on, but for claims: holds, tolerances and tasks (R348). -/
def powerInputs (s : State) : BitVec 48 × List (BitVec 32) × List Bool :=
  (s.crp.bhold, s.fw.latTol.toList, (List.finRange 12).map (vheld s))

/-- The firmware, once it serves, chooses the power states anew when a step has changed what they rest on (R348). -/
def powersFollow (f : State → State) (s : State) : State :=
  let s1 := f s
  if s1.fw.up && powerInputs s1 != powerInputs s then choosePowers s1 else s1

/-- The firmware chooses the power states anew where a step has held a barge or let one go (R126, R348). -/
def holdsFollow (f : State → State) (s : State) : State :=
  let s1 := f s
  if s1.fw.up && s1.crp.bhold != s.crp.bhold then choosePowers s1 else s1

/-- The frame of a Keeper command: HIF_READY, the power states and the dividers follow the Keeper (R346, R348). -/
def keeperAct (s : State) (dt : Nat) (f : State → State) : Out := act s dt (powersFollow fun s => settle (watchReady f s))

/-! ### The order of one KCLK (R187) -/

/-- A decision is due (R184). -/
def decisionDue (s : State) (x : KTask) : Bool :=
  match x.cycles.head? with
  | some c => c.judged.any fun j => ktReached s.kp.kt j.2
  | none => false

/-- The window of the current cycle is to close (R185). -/
def closeDue (s : State) (x : KTask) : Bool :=
  match x.cycles.getLast? with
  | some c => c.judged.isNone && decide (x.late ≤ (s.kp.kt - c.start).toNat)
  | none => false

/-- A retry request is to leave (R188). -/
def retryDue (s : State) (x : KTask) : Bool :=
  match x.cycles.getLast? with
  | some c => x.tstate == 1 && c.retryAt.any (ktReached s.kp.kt)
  | none => false

/-- Something of a stage before stage k of this KCLK is still to be processed for a task: 1 a decision, 2 a window close, 3 a
retry request, 4 a cycle start (R187). -/
def dueBefore (s : State) (k : Nat) (t : Fin 256) : Bool :=
  let x := s.kp.tasks.get t
  (1 < k && decisionDue s x) || (2 < k && closeDue s x) || (3 < k && retryDue s x) || (4 < k && cycleDue s t)

/-- Stage k of the present KCLK may be processed: no later stage has been, and nothing of an earlier one is due (R187). -/
def inOrder (s : State) (k : Nat) : Bool :=
  !keeperLive s || ((s.kp.stageAt != s.kp.kt || decide (s.kp.stage ≤ k)) && (List.finRange 256).all fun t => !dueBefore s k t)

/-- Stage k of the present KCLK is processed. -/
def enterStage (k : Nat) (s : State) : State := { s with kp := { s.kp with stageAt := s.kp.kt, stage := k } }

/-- An event of stage k of a KCLK: 1 a seal or its decision, 2 a window close, 3 a retry request, 4 a cycle start, 5 a load-port
command. It waits for its turn (R187). -/
def staged (k : Nat) (f : State → State) (s : State) : State :=
  if inOrder s k then f (enterStage k s) else s

/-- A cycle start takes its turn among the tasks of its KCLK, in ascending order (R181). -/
def firstStart (s : State) (t : Fin 256) : Bool := (List.finRange 256).all fun u => t ≤ u || !cycleDue s u

/-! ### The commands -/

/-- KEEPER_CYCLE_START (R182). -/
def execKeeperCycleStart (dt : Nat) (task : Fin 256) (s : State) : Out :=
  keeperAct s dt (gated (fun s => cycleDue s task && firstStart s task) (staged 4 (startCycle task)))

/-- SEAL_ARRIVAL (R184). -/
def execSealArrival (dt : Nat) (g : BargeIx) (crcOk disagree : Bool) (s : State) : Out := 
  keeperAct s dt (staged 1 (sealArrives g crcOk disagree))

/-- FAULT_REPORT_ARRIVAL (R189). -/
def execFaultReportArrival (dt : Nat) (g : BargeIx) (crcOk : Bool) (s : State) : Out := keeperAct s dt (faultArrives g crcOk)

/-- RESET_REPORT_ARRIVAL (R189, R206). -/
def execResetReportArrival (dt : Nat) (g : BargeIx) (crcOk : Bool) (s : State) : Out := keeperAct s dt (resetArrives g crcOk)

/-- DECISION (R183, R184). -/
def execDecision (dt : Nat) (task : Fin 256) (s : State) : Out := keeperAct s dt (staged 1 (decide' task))

/-- WINDOW_CLOSE (R185). -/
def execWindowClose (dt : Nat) (task : Fin 256) (s : State) : Out := 
  keeperAct s dt (gated (fun s => closeDue s (s.kp.tasks.get task)) (staged 2 (closeWindow task)))

/-- RETRY_REQUEST (R188). -/
def execRetryRequest (dt : Nat) (task : Fin 256) (s : State) : Out := 
  keeperAct s dt (gated (fun s => retryDue s (s.kp.tasks.get task)) (staged 3 (sendRetry task)))

/-- LOCK_GATE_OPEN (R193). -/
def execLockGateOpen (dt : Nat) (task : Fin 256) (s : State) : Out := keeperAct s dt (openGates task)

/-- CHANNEL_RETIREMENT_REPORT (R197). -/
def execChannelRetirementReport (dt : Nat) (s : State) : Out := keeperAct s dt retirementReport

/-- KEEPER_SELF_TEST (R201). -/
def execKeeperSelfTest (dt : Nat) (pass : Bool) (s : State) : Out := keeperAct s dt (selfTest pass)

/-- KCLK_MONITOR_WINDOW (R173): a count outside 940 to 1,060 is a clock fault. -/
def execKclkMonitorWindow (dt : Nat) (count : Nat) (s : State) : Out :=
  keeperAct s dt (gated (fun _ => decide (count < 940 ∨ 1060 < count)) (enterSafe 0x01))

/-- NO_CRYSTAL_EDGE (R173). -/
def execNoCrystalEdge (dt : Nat) (s : State) : Out := keeperAct s dt (enterSafe 0x01)

/-- SAFE_HALF_PERIOD (R200). -/
def execSafeHalfPeriod (dt : Nat) (padA padB : Bool) (s : State) : Out := keeperAct s dt (halfPeriod padA padB)

/-- ARM (R205). -/
def execArm (dt : Nat) (arg : BitVec 8) (hm1 : LoadWrite) (s : State) : Out :=
  keeperAct s dt (staged 5 (commandPort 1 arg hm1))

/-- RUN (R205). -/
def execRun (dt : Nat) (arg : BitVec 8) (hm1 : LoadWrite) (s : State) : Out :=
  keeperAct s dt (staged 5 (commandPort 2 arg hm1))

/-- START_TASK (R180, R205). -/
def execStartTask (dt : Nat) (arg : BitVec 8) (hm1 : LoadWrite) (s : State) : Out :=
  keeperAct s dt (staged 5 (commandPort 3 arg hm1))

/-- STOP_TASK (R196, R205). -/
def execStopTask (dt : Nat) (arg : BitVec 8) (hm1 : LoadWrite) (s : State) : Out :=
  keeperAct s dt (staged 5 (commandPort 4 arg hm1))

/-- RETIRE_BARGE (R190, R205). -/
def execRetireBarge (dt : Nat) (arg : BitVec 8) (hm1 : LoadWrite) (s : State) : Out :=
  keeperAct s dt (staged 5 (commandPort 5 arg hm1))

/-- FORCE_SAFE (R198, R205). -/
def execForceSafe (dt : Nat) (arg : BitVec 8) (hm1 : LoadWrite) (s : State) : Out :=
  keeperAct s dt (staged 5 (commandPort 6 arg hm1))

/-- CLEAR_FC (R205). -/
def execClearFc (dt : Nat) (arg : BitVec 8) (hm1 : LoadWrite) (s : State) : Out :=
  keeperAct s dt (staged 5 (commandPort 7 arg hm1))

/-- RESTORE_BARGE (R205). -/
def execRestoreBarge (dt : Nat) (arg : BitVec 8) (hm1 : LoadWrite) (s : State) : Out :=
  keeperAct s dt (staged 5 (commandPort 8 arg hm1))

/-- CLEAR_DEGRADED (R205). -/
def execClearDegraded (dt : Nat) (arg : BitVec 8) (hm1 : LoadWrite) (s : State) : Out :=
  keeperAct s dt (staged 5 (commandPort 9 arg hm1))

/-- KP_DSEED write (R181). -/
def execKpDseedWrite (dt : Nat) (hm0 : Word) (hm1 : LoadWrite) (s : State) : Out :=
  keeperAct s dt (staged 5 (loadPort 5 hm0 (sameWrite hm1 5 hm0)))

/-- KP_CFG write (R178, R203). -/
def execKpCfgWrite (dt : Nat) (hm0 : Word) (hm1 : LoadWrite) (s : State) : Out :=
  keeperAct s dt (staged 5 (loadPort 4 hm0 (sameWrite hm1 4 hm0)))

/-- Task-entry write (R179). -/
def execTaskEntryWrite (dt : Nat) (task : Fin 256) (word : Fin 16) (hm0 : Word) (hm1 : LoadWrite) (s : State) : Out :=
  let w := 0x1000 + 16 * task.val + word.val
  keeperAct s dt (staged 5 (loadPort w hm0 (sameWrite hm1 w hm0)))

/-- KP_LOG read (R203). -/
def execKpLogRead (dt : Nat) (s : State) : Out := act s dt (gated (fun s => s.kp.powered) popLog)

end Sys2Proof.Machine
end

