-- ==== Sys2Proof/Machine/BargeRun.lean ====
section
/-! DEFINITION. The barge's other steps: idle counts, drains and responses, block repeat, waits, gates, SYNC, line reads, interrupt
entry, register events, messages from the Keeper, halts and steps (chapters 2 to 6, 8 and 16). -/

namespace Sys2Proof.Machine

/-! ### Steps of a halted barge (R413) -/

/-- The last instruction, or an entry, is not at its end, so that the barge is at no boundary (R63, R98, R100, R107, R114). -/
def Barge.unfinished (b : Barge) : Bool :=
  b.gate.isSome || b.sync || b.rfeDue.isSome || b.frameRun.isSome || b.trapDue.isSome || b.second.isSome

/-- A step ends when an instruction has issued or an entry has been made (R413): the barge halts with cause 3, at the next boundary
where it is at none. -/
def stepped (g : BargeIx) (f : State → State) (s : State) : State :=
  let b := s.barges.get g
  let s1 := f s
  let b1 := s1.barges.get g
  if b.dbg.stepping ∧ (b1.count ≠ b.count ∨ (b1.entry.isSome ∧ b1.entry ≠ b.entry)) then
    s1.modBarge g fun b => { b with dbg :=
      if b.unfinished then { b.dbg with stepping := false, haltReq := some (3, 0) }
      else { b.dbg with stepping := false, halted := true, cause := 3, bphit := 0 } }
  else s1

/-- Interrupts stay pending during a step with MASKI = 1 (R413). -/
def masked (b : Barge) : Bool := b.dbg.stepping && b.dbg.maski

/-- One count of an idle run (R24). -/
def idleStep (g : BargeIx) (s : State) : State :=
  let b := s.barges.get g
  if !bargeRuns s g ∨ busyBoundary s g ∨ b.irun = 0 ∨ b.trapDue.isSome then s
  else afterLoad g [] (fun _ s =>
    let b := s.barges.get g
    let r := boundary g false s
    if !r.2 then r.1
    else match (r.1.barges.get g).hoFault with
      | some a =>
        if entryWaits r.1 g then r.1
        else takeFault g (pswW b.psw) 0x08 a b.pc b.irun (r.1.modBarge g fun b => { b with hoFault := none })
      | none =>
        if !masked b ∧ interruptDue r.1 g then r.1
        else r.1.modBarge g fun b =>
          { b with
            count := b.count + 1, irun := b.irun - 1, pc := if b.irun = 1 then b.pc + 1 else b.pc, entry := none
            dbg := { b.dbg with skipBp := false } }) s

/-! ### Store buffer, XLU, IOU (R64 to R71, R82, R210, R211, R220) -/

/-- The barge itself asks for a bank before its stores do (R64, R216): with a load that the command names among the rivals, that has lost
an arbitration, or whose second part is to be read, until its oldest store has given way four times; or for a frame. -/
def storeYields (b : Barge) (p : Fin 4) (bank : BankIx) (clk : Nat) (rivals : List Rival) : Bool :=
  let load := rivals.any (fun r => r.bank == bank && r.who == whoBarge p) || b.arbAt.contains bank ||
    b.second.any fun q => q.since < clk && bankOf (q.addr + (q.size - q.addr % q.size)) == bank
  let frame := b.frameRun.any (fun f => f.next ≤ clk && bankOf (f.addr + 32 * (f.made % 3)) == bank)
  (load && !storeFirst b [bank]) || frame

/-- The oldest store-buffer entry drains once its bank grants it, in the BCLK after its trigger at the earliest and one entry in a
BCLK (R64, R216). -/
def drainStore (g : BargeIx) (rivals : List Rival) (s : State) : State :=
  let n := basinOf g
  let clk := bclkCount s n
  match (s.barges.get g).stores with
  | [] => s
  | e :: rest =>
    let bank := bankOf e.addr
    let a := askBank s n bank (whoBarge (posOf g)) rivals
    if clk ≤ e.since ∨ (s.barges.get g).drainAt = some clk then s
    else if !inHandover (s.basins.get n) bank ∧ storeYields (s.barges.get g) (posOf g) bank clk rivals then s
    else if !a.1 then a.2
    else
      let ws := nonetsOf e.addr e.data.toNat e.size
      let part := partialWords ws
      let m := portAMem s n
      let bad := part.any m.isUe
      let s1 := noteErrorsIn n srcPartial m a.2 part
      let s2 := if bad then s1 else s1.modBasin n fun x => x.writeBy false clk ws
      kickBasin n (s2.modBarge g fun b => { b with stores := rest, drainAt := some clk })

/-- The first XLU transaction behind which no older store is left departs to the tender (R66, R241). -/
def departXlu (g : BargeIx) (s : State) : State :=
  let b := s.barges.get g
  match b.xluq with
  | o :: rest =>
    if b.stores.all fun e => o.after ≤ e.seq then
      (s.modBarge g fun b => { b with xluq := rest }).modBasin (basinOf g) fun x => { x with tender := x.tender ++ [(posOf g, o)] }
    else s
  | [] => s

/-- A response reaches the XLU: its credit returns, and the most recent load's data stands in XLU.r (R69, R71, R242). -/
def takeXluResp (g : BargeIx) (s : State) : State :=
  match (s.barges.get g).xluResps with
  | r :: rest =>
    let s1 := s.modBarge g fun b =>
      let b1 := { b with xluResps := rest, xluCredits := b.xluCredits - 1 }
      if !r.write ∧ b.xluSeen < r.load then { b1 with u := { b1.u with xlur := if r.ok then r.data else 0 }, xluSeen := r.load } else b1
    if r.ok then s1 else s1.pend g 58
  | [] => s

/-- The IOU operation in progress completes at its target (R66, R82, R84, R163). -/
def completeIou (g : BargeIx) (s : State) : State :=
  let b := s.barges.get g
  match b.iou with
  | none => s
  | some o =>
    let a := o.addr.toNat
    let window := !o.write && 0x1000 ≤ a && a < 0x2000
    if (b.stores.any fun e => e.seq < o.after) ∨ (window ∧ o.line.isNone) then s
    else
      let s1 := if o.write then winWrite g o.world o.date o.att a o.data s
        else s.modBarge g fun b =>
          { b with u := { b.u with iour := if window then o.line.getD 0 else (winRead s g o.world a).getD 0 } }
      s1.modBarge g fun b =>
        { b with iou := none, sig := { b.sig with captured := b.sig.captured.map fun c => (c.1, false) } }

/-! ### Block repeat (R77 to R81) -/

/-- The element size in nonets (R77): fill, scan and sum treat a double as a word. -/
def rptSize (u : Units) : Nat :=
  let op := bitsN u.rmode 3 3
  let z := bitsN u.rmode 0 2
  if z = 3 ∧ (op = 1 ∨ op = 3 ∨ op = 4) then 4 else 2 ^ z

/-- An element sign-extended to 36 bits (R78). -/
def rptExtend (n raw : Nat) : Word :=
  if n = 1 then (BitVec.ofNat 9 raw).signExtend 36
  else if n = 2 then (BitVec.ofNat 18 raw).signExtend 36
  else BitVec.ofNat 36 raw

/-- The residue of an element that copy or fill writes (R158); of a double, as std folds it. -/
def rptResidue (n raw : Nat) : Nat :=
  if n = 8 then (residue (BitVec.ofNat 36 raw) + residue (BitVec.ofNat 36 (raw / 2 ^ 36))) % 4093 else residue (rptExtend n raw)

/-- The operation completes in BCLK clk (R78, R79): RUN is cleared, RPT.r delivered, and the next instruction may issue 2 BCLK
later. -/
def rptComplete (clk : Nat) (b : Barge) : Barge :=
  let op := bitsN b.u.rmode 3 3
  { b with rpt := none, done := [], issueFrom := clk + 2
           u := { b.u with rmode := pswPut 2 false b.u.rmode, rptr := rptValue b.u op } }

/-- The addresses that an element reads and writes (R78). -/
def rptReads (u : Units) (op : Nat) : List Int :=
  match op with
  | 0 | 3 | 4 => [u.rs.toInt]
  | 2 => [u.rs.toInt, u.rd.toInt]
  | _ => []
def rptWrites (u : Units) (op : Nat) : List Int := if op ≤ 1 then [u.rd.toInt] else []

/-- The first failing range or ownership check of an element, its FADDR the element's address (R54, R81). -/
def rptFault (x : Basin) (b : Barge) (p : Fin 4) (n : Nat) : List Int → Option (BitVec 8 × Word)
  | [] => none
  | a :: rest =>
    match accessFault x p (pswW b.psw) (pswL b.psw) (partsOf a n) with
    | some f => some (f.1, BitVec.ofInt 36 a)
    | none => rptFault x b p n rest

/-- RS or RD after an element (R78). -/
def rptAdvance (w : Word) (stride : BitVec 8) (n : Nat) : Word := w + BitVec.ofInt 36 (stride.toInt * n)

/-- The accesses of n nonets from address a, one to a row (R210), with their places from p on. -/
def rowAccesses (p a n : Nat) : List (Nat × Nat × Nat) :=
  let k := min n (32 - a % 32)
  (p, a, k) :: if k < n then [(p + 1, a + k, n - k)] else []

/-- The accesses of an element (R78, R79): its reads, then its writes. -/
def rptAccesses (u : Units) (op n : Nat) : List (Nat × Nat × Nat) :=
  ((rptReads u op).zipIdx.flatMap fun a => rowAccesses (2 * a.2) a.1.toNat n) ++
    (rptWrites u op).flatMap fun a => rowAccesses 4 a.toNat n

/-- The write accesses of an element are granted (R216); what they write is written with the whole element. -/
def rptAskWrites (g : BargeIx) (rivals : List Rival) : List (Nat × Nat × Nat) → State → Bool × State
  | [], s => (true, s)
  | x :: rest, s =>
    if (s.barges.get g).hasDone x then rptAskWrites g rivals rest s
    else
      let r := askBank s (basinOf g) (bankOf x.2.1) (whoBarge (posOf g)) rivals
      let d : DoneAccess := { place := x.1, addr := x.2.1, raw := 0, ues := [] }
      let s1 := if r.1 then r.2.modBarge g fun b => { b with done := b.done ++ [d] } else r.2
      let q := rptAskWrites g rivals rest s1
      (r.1 && q.1, q.2)

/-- What the element's read with places from p on returned. -/
def rptRead (b : Barge) (p a n : Nat) : Nat := (b.readOf p).1 + 512 ^ min n (32 - a % 32) * (b.readOf (p + 1)).1

/-- One element, once its accesses are granted and checked (R78, R79, R81, R158, R159). The elements of an operation resumed by rfe
fold whatever the state of the cycle (log entry 80). -/
def rptProcess (g : BargeIx) (r : RptRun) (s : State) : State :=
  let bn := basinOf g
  let b := s.barges.get g
  let u := b.u
  let op := bitsN u.rmode 3 3
  let n := rptSize u
  let clk := bclkCount s bn
  let fail (cause : BitVec 8) (faddr : Word) : State :=
    if entryWaits s g then s else takeFault g (pswW b.psw) cause faddr b.pc b.irun s
  match (b.done.flatMap fun d => d.ues).min? with
  | some ue => fail 0x06 (BitVec.ofNat 36 (4 * ue))
  | none =>
    let src := rptRead b 0 u.rs.toInt.toNat n
    let next (s : State) : State :=
      s.modBarge g fun b =>
        let u := b.u
        let b1 := { b with
          done := [], rpt := some { r with next := clk + 1 }, dbg := { b.dbg with skipBp := false }
          u := { u with
            rc := u.rc - 1
            rs := if op = 1 then u.rs else rptAdvance u.rs (fld u.rmode 8 8) n
            rd := if op ≤ 2 then rptAdvance u.rd (fld u.rmode 16 8) n else u.rd } }
        if b1.u.rc = 0 then rptComplete clk b1 else b1
    match op with
    | 2 => if src = rptRead b 2 u.rd.toInt.toNat n then next s else s.modBarge g (rptComplete clk)
    | 3 =>
      let eq := rptExtend n src == u.rd
      if eq != bit u.rmode 24 then s.modBarge g (rptComplete clk) else next s
    | 4 =>
      let sum := u.rd.toInt + (rptExtend n src).toInt
      let big := decide (sum < -34359738368 ∨ 34359738367 < sum)
      if big ∧ !bit u.rmode 25 ∧ pswV b.psw then fail 0x0D (r.pc.setWidth 36)
      else
        let v := if bit u.rmode 25 then max (-34359738368) (min 34359738367 sum) else sum
        next (s.modBarge g fun b => { b with u := { b.u with rd := BitVec.ofInt 36 v } })
    | op =>
      let raw := if op = 0 then src else u.rs.toNat % 512 ^ n
      let ws := nonetsOf u.rd.toInt.toNat raw n
      let part := partialWords ws
      let m := portAMem s bn
      let s1 := noteErrorsIn bn srcPartial m s part
      let s2 := if part.any m.isUe then s1 else s1.modBasin bn fun x => x.writeBy false clk ws
      next (if r.vital then s2.modBarge g fun b => { b with sig := b.sig.fold (rptResidue n raw) 1 } else s2)

/-- One element of a running RPT operation (R79): from the third BCLK after its trigger on, one in a BCLK, after the store buffer
has drained, once its banks grant it. An interrupt or a halt comes before it, but not before the end of an element in progress, nor in
the hold of a gate that its own instruction triggered, whose deliveries wait for the hold's end (R80, R411, R444). -/
def rptElement (g : BargeIx) (rivals : List Rival) (s : State) : State :=
  let b := s.barges.get g
  match b.rpt with
  | none => s
  | some r =>
    let between := b.gate.isNone && b.done.isEmpty
    if !bargeRuns s g ∨ b.dbg.halted ∨ (between ∧ b.dbg.haltReq.isSome) ∨ !b.stores.isEmpty ∨ b.trapDue.isSome ∨
        bclkCount s (basinOf g) < max r.next b.issueFrom then s
    else afterLoad g rivals (fun _ s =>
      let d := if between then boundary g false s else (s, true)
      if !d.2 then d.1
      else if between ∧ !masked b ∧ interruptDue d.1 g then d.1
      else
        let s := d.1
        let b := s.barges.get g
        let x := s.basins.get (basinOf g)
        let op := bitsN b.u.rmode 3 3
        let n := rptSize b.u
        let as := rptReads b.u op ++ rptWrites b.u op
        if b.u.rc = 0 then s.modBarge g (rptComplete (bclkCount s (basinOf g)))
        else match rptFault x b (posOf g) n as with
          | some f => if entryWaits s g then s else takeFault g (pswW b.psw) f.1 f.2 b.pc b.irun s
          | none =>
            let all := rptAccesses b.u op n
            if all.any fun y => inHandover x (bankOf y.2.1) then s
            else
              let q := fetchAll g (fun _ => srcRpt) rivals (all.filter fun y => y.1 < 4) s
              let w := rptAskWrites g rivals (all.filter fun y => 4 ≤ y.1) q.2
              if q.1 ∧ w.1 then rptProcess g r w.2 else w.2) s

/-! ### Waits, gates, SYNC (R87, R98, R107, R108) -/

/-- A CNT wait ends (R87): a counted one in the first BCLK that it does not hold. -/
def endWait (g : BargeIx) (s : State) : State :=
  match (s.barges.get g).wait with
  | none => s
  | some (.time t) =>
    let r := sampleTime g s
    if reached r.1 t then r.2.modBarge g fun b => { b with wait := none, u := { b.u with cntr := 0 } } else s
  | some (.count last) =>
    if last ≤ bclkCount s (basinOf g) then s.modBarge g fun b => { b with wait := none, u := { b.u with cntr := 0 } } else s

/-- A gate's hold ends once its operations have drained (R107, R108, R444): its SYNC acts, then a gate reads its entry, in as many BCLK as
that takes, and a gate return is made. -/
def endGate (g : BargeIx) (ret : Bool) (s : State) : State :=
  let b := s.barges.get g
  match b.gate with
  | none => s
  | some h =>
    if h.isReturn != ret ∨ !bargeRuns s g ∨ b.dbg.halted ∨ !drained b then s
    else
      let h1 := { h with synced := true }
      let s1 := if h.synced then s else (departSeal g (applySync g s)).modBarge g fun b => { b with gate := some h1 }
      gateDelivery g h1 (if ret then passGateReturn g h1 else readGate g h1) s1

/-- A SYNC acts (R98), with its cost of 2 BCLK (R99), or the implicit SYNC before a return (R100), where a return that its own
instruction's IOU write makes fail raises its fault now (log entry 100). -/
def syncStep (g : BargeIx) (s : State) : State :=
  let b := s.barges.get g
  if !bargeRuns s g ∨ iouWriting b then s
  else if b.rfeDue.isSome then afterLoad g [] (fun _ s => rfeSync g s) s
  else if b.sync then (applySync g s).modBarge g fun b => b.from (bclkCount s (basinOf g) + 2)
  else s

/-! ### Line reads (R84, R88, R226, R227) -/

/-- A read of a way whose 10 BCLK have passed. -/
def readyRead (s : State) (n : BasinIx) (k w : Fin 4) : Option WayRead :=
  ((((s.basins.get n).code.get k).ways.get w).filter fun r => r.since + 10 ≤ bclkCount s n)

/-- The way is free again, from the next BCLK on (R88), its line's errors counted (R227). -/
def endRead (n : BasinIx) (k w : Fin 4) (l : BitVec 12) (s : State) : State :=
  let clk := bclkCount s n
  s.modBasin n fun x =>
    let c := x.code.get k
    let x1 := if (countLine l c).errWord = c.errWord then x else x.counted clk (0x20 + k.val) c.errWord
    { x1 with code := vput x.code k { countLine l c with ways := vput c.ways w none, wayFrom := vput c.wayFrom w (clk + 1) } }

/-- A line read for a barge delivers (R88, R96). -/
def deliverRead (n : BasinIx) (k w : Fin 4) (s : State) : State :=
  match readyRead s n k w with
  | some r =>
    let c := (s.basins.get n).code.get k
    let h : HeldLine := { line := r.line, data := lineData c r.line, bad := lineBad c r.line }
    match r.use with
    | .demand p => kickBank n k (deliverLine (bargeOf n p) true h (endRead n k w r.line s))
    | .ahead p => kickBank n k (deliverLine (bargeOf n p) false h (endRead n k w r.line s))
    | _ => s
  | none => s

/-- A patrol read ends (R227): its line counts, the next one follows, and an uncorrectable line is reported. -/
def endPatrol (n : BasinIx) (k w : Fin 4) (r : WayRead) (s : State) : State :=
  let c := (s.basins.get n).code.get k
  let done := c.patrolDone ||| (if (c.patrolNext.get w) = 1023 then BitVec.ofNat 4 (2 ^ w.val) else 0)
  let s1 := (endRead n k w r.line s).modCode n k fun c =>
    { c with
      patrolNext := vput c.patrolNext w (c.patrolNext.get w + 1), patrolDone := if done = 15 then 0 else done
      patrolAt := vput c.patrolAt w (bclkCount s n), patrolDue := c.patrolDue &&& ~~~(BitVec.ofNat 4 (2 ^ w.val)) }
  let s2 := if done = 15 then
      (s1.modBasin n fun x => { x with codePass := x.codePass ||| BitVec.ofNat 4 (2 ^ k.val) }).mark (.scrubStat n) (16 + k.val)
    else s1
  let s3 := if lineBad c r.line then
      (s2.pendBasin n 57).notify (.memerr n 7 (BitVec.ofNat 2 k.val) (r.line.setWidth 20))
    else s2
  kickBank n k s3

/-- A patrol read (R227): one starts in an idle way; one whose 10 BCLK have passed ends, also when PATROL has been cleared
meanwhile; and a busy way that has had none for 65,536 BCLK takes one next (log entry 83). -/
def patrolStep (n : BasinIx) (k w : Fin 4) (s : State) : State :=
  let x := s.basins.get n
  let c := x.code.get k
  let clk := bclkCount s n
  if !basinRuns s n then s
  else match c.ways.get w with
    | none =>
      if !x.scrubPatrol then s
      else
        let r : WayRead := { use := .patrol, line := patrolLine c w, since := max clk (c.wayFrom.get w), asked := clk, time := s.now }
        s.modCode n k fun c => { c with ways := vput c.ways w (some r) }
    | some r =>
      if r.use = .patrol then (if r.since + 10 ≤ clk then endPatrol n k w r s else s)
      else if x.scrubPatrol ∧ 65536 ≤ clk - c.patrolAt.get w then
        s.modCode n k fun c => { c with patrolDue := c.patrolDue ||| BitVec.ofNat 4 (2 ^ w.val) }
      else s

/-- A code-window read delivers its line to the IOU (R84). -/
def windowRead (g : BargeIx) (s : State) : State :=
  let n := basinOf g
  let p := posOf g
  match (List.finRange 16).findSome? fun i =>
      let k : Fin 4 := ⟨i.val / 4, by omega⟩
      let w : Fin 4 := ⟨i.val % 4, by omega⟩
      ((readyRead s n k w).filter fun r => r.use == .window p).map fun r => (k, w, r) with
  | none => s
  | some (k, w, r) =>
    let c := (s.basins.get n).code.get k
    let ue := (codeLine c r.line).any fun x => x.ue != 0
    let crc := lineCrcFails c r.line
    let note (i : Nat) (hit : Bool) (s : State) : State :=
      (s.barges.get g).iou.elim s fun o => if hit then s.mark (.codeWin g o.world) i else s
    kickBank n k ((note 8 ue (note 9 crc (endRead n k w r.line s))).modBarge g fun b =>
      match b.iou with
      | some o =>
        let t := b.ctl o.world
        { b.setCtl o.world { t with cwUe := t.cwUe || ue, cwCrce := t.cwCrce || crc } with
          iou := some { o with line := some (lineWord (lineData c r.line) (bitsN o.addr 0 4)) } }
      | none => b)

/-! ### Interrupt entry (R109 to R117) -/

/-- The next instruction raises a fault of its own, which comes before an interrupt (R122). -/
def nextFaults (s : State) (g : BargeIx) : Bool :=
  let b := s.barges.get g
  if b.rpt.isSome ∨ b.wait.isSome ∨ 0 < b.irun ∨ bclkCount s (basinOf g) < b.issueFrom then false
  else match plan g s with
    | .fault _ _ => true
    | .badLine => true
    | _ => false

/-- The selected interrupt is entered at a takeable boundary whose barge has no load and no RPT element to complete (R80, R111 to R114,
R122). -/
def interruptAt (g : BargeIx) (s : State) : State :=
  let b := s.barges.get g
  if !bargeRuns s g ∨ b.dbg.halted ∨ b.dbg.haltReq.isSome ∨ masked b ∨ b.gate.isSome ∨ b.sync ∨ b.rfeDue.isSome ∨
      b.trapDue.isSome ∨ b.hoFault.isSome ∨ ownHandover s g ∨ b.entry.isSome ∨ entryWaits s g ∨
      (b.rpt.isSome ∧ b.done ≠ []) then s
  else
    let r := b.deliverDue false
    if r.1.isSome then s
    else
      let s1 := s.modBarge g fun _ => r.2
      if !interruptDue s1 g ∨ nextFaults s1 g ∨ heldHard s1 g then s1
      else match selectInterrupt r.2 (bclkCount s1 (basinOf g)) with
        | none => s1
        | some n =>
          match b.wait with
          | none => enterInterrupt g n s1
          | some w =>
            let q := sampleTime g s1
            enterInterrupt g n (q.2.modBarge g fun b => { b with u := { b.u with cntr := waitRemaining s1 g q.1 w } })

/-- The selected interrupt is entered once a split load is complete (R63). -/
def takeInterrupt (g : BargeIx) (s : State) : State :=
  if bargeRuns s g then afterLoad g [] (fun _ s => interruptAt g s) s else s

/-! ### Messages and register events -/

/-- The first message from the Keeper to a barge, if it is of a kind (R445). -/
def keeperMsg (s : State) (g : BargeIx) (p : KMsg → Bool) : Option KMsg :=
  ((s.kp.toBarge.find? fun m => m.1 == g).map fun m => m.2).filter p
def dropMsg (g : BargeIx) (s : State) : State :=
  { s with kp := { s.kp with toBarge := dropFirst (fun m => m.1 == g) s.kp.toBarge } }

/-- The barge's SIG unit is in reset with its barge: what arrives is lost. -/
def sigUp (s : State) (g : BargeIx) : Bool := bargeRuns s g

/-- A date reaches its barge (R155, R445). -/
def dateArrives (g : BargeIx) (s : State) : State :=
  match keeperMsg s g fun m => match m with
      | .date _ _ => true
      | _ => false with
  | some (.date d t) =>
    let s1 := dropMsg g s
    if !sigUp s g then s1
    else
      let s2 := if (s.barges.get g).sig.queue.length < 4 then s1 else s1.mark (.sigStat g) 12
      latchSig g (s2.modBarge g fun b =>
      if b.sig.queue.length < 4 then { b with sig := { b.sig with queue := b.sig.queue ++ [(d, t)] } }
      else { b with sig := { b.sig with qovf := true } })
  | _ => s

/-- A retry request reaches its barge (R156, R445). -/
def retryArrives (g : BargeIx) (s : State) : State :=
  match keeperMsg s g fun m => match m with
      | .retry _ _ => true
      | _ => false with
  | some (.retry d t) =>
    let s1 := dropMsg g s
    if !sigUp s g then s1 else latchSig g (s1.modBarge g fun b => { b with sig := { b.sig with retryHeld := some (d, t) } })
  | _ => s

/-- A decision notice reaches its barge (R109, R445). -/
def noticeArrives (g : BargeIx) (s : State) : State :=
  match keeperMsg s g fun m => m == .notice with
  | some _ => let s1 := dropMsg g s; if sigUp s g then s1.pend g 2 else s1
  | none => s

/-- A station-time compare is reached (R109), in B0 or, where it wakes the basin, in B1 (R347). -/
def compareReached (g : BargeIx) (k : Fin 4) (s : State) : State :=
  let b := s.barges.get g
  if 1 < (s.crp.bpwr.get (basinOf g)).cur.toNat ∨ bit s.crp.bhold g.val ∨ s.crp.coldHeld ∨ !b.tcmpArmed.get k then s
  else
    let r := sampleTime g s
    if reached r.1 (b.tcmp.get k) then
      (r.2.modBarge g fun b => { b with tcmpArmed := vput b.tcmpArmed k false }).pend g ⟨16 + k.val, by omega⟩
    else s

/-! ### Debug (R411 to R415) -/

/-- A waiting halt request halts the barge at its boundary (R411): a delivery fault due there, the end of an RPT element in progress and
what is left of the last instruction come first. -/
def haltStep (g : BargeIx) (s : State) : State :=
  let b := s.barges.get g
  match b.dbg.haltReq with
  | none => s
  | some (cause, hit) =>
    if !bargeRuns s g ∨ b.dbg.halted ∨ b.gate.isSome ∨ b.sync ∨ b.rfeDue.isSome ∨ b.frameRun.isSome ∨ b.trapDue.isSome ∨
        ownHandover s g ∨ heldHard s g ∨ (b.rpt.isSome ∧ b.done ≠ []) then s
    else afterLoad g [] (fun _ s =>
      let r := boundary g false s
      if !r.2 then r.1
      else r.1.modBarge g fun b =>
        { b with dbg := { b.dbg with haltReq := none, halted := true, stepping := false, cause := cause, bphit := hit } }) s

/-- A halted barge runs again: debugger writes to PSW and unit context take effect (R413, R415). -/
def unhalt (g : BargeIx) (step : Bool) (s : State) : State :=
  let b := s.barges.get g
  let s1 := s.modBarge g fun b =>
    let b1 := b.dbg.atResume.foldl Barge.setting b
    { b1 with dbg := { b1.dbg with halted := false, atResume := [], skipBp := true, stepping := step } }
  if (b.psw ^^^ (s1.barges.get g).psw) &&& 3 != 0 then flush g s1 else s1

/-- One instruction, idle count or entry of a barge (R413). -/
def runOnce (g : BargeIx) (rivals : List Rival) (s : State) : State :=
  let b := s.barges.get g
  if 0 < b.irun then stepped g (idleStep g) s else stepped g (issueOne g rivals (masked b)) s

/-- DBG_CTL.STEP (R413), where the debug module is allowed (R407). -/
def stepBarge (g : BargeIx) (rivals : List Rival) (s : State) : State :=
  if (s.barges.get g).dbg.halted ∧ debugAllowed s then
    let s1 := unhalt g true s
    let s2 := stepped g (takeInterrupt g) s1
    if (s2.barges.get g).dbg.stepping then runOnce g rivals s2 else s2
  else s

/-- A write of DBG_PC while halted (R413). -/
def writeDbgPc (g : BargeIx) (v : Word) (s : State) : State :=
  if (s.barges.get g).dbg.halted ∧ debugAllowed s then flush g (s.modBarge g fun b => { b with pc := low 14 v, irun := 0 }) else s

/-- A PSW that the debugger writes (R137, R415): T and V are never both 1, so one that sets both leaves them as they are (log entry
78). -/
def debugPsw (b : Barge) (v : Word) : Word :=
  if pswT v ∧ pswV v then pswPut 2 (pswT b.psw) (pswPut 3 (pswV b.psw) v) else v

/-- A write of DBG_REGDATA while halted (R415). -/
def writeDbgReg (g : BargeIx) (v : Word) (s : State) : State :=
  if !(s.barges.get g).dbg.halted ∨ !debugAllowed s then s
  else s.modBarge g fun b =>
    let sel := bitsN b.dbg.regsel 0 7
    let w := bit b.dbg.regsel 7
    let defer (k : SyKey) : Barge := { b with dbg := { b.dbg with atResume := b.dbg.atResume ++ [(k, v)] } }
    if h : sel < 64 then let r := b.bank w; b.setBank w { r with w := vput r.w ⟨sel, h⟩ v }
    else if sel = 64 then b.setBank w { b.bank w with lnk := v }
    else if sel = 65 then { b with flags := Flags.ofWord v }
    else if sel = 66 then { b with u := { b.u with rc := v } }
    else if sel = 67 then { b with u := { b.u with rs := v } }
    else if sel = 68 then { b with u := { b.u with rd := v } }
    else if sel = 69 then { b with u := { b.u with rmode := v &&& rmodeMask } }
    else if sel = 70 then { b with dbg := { b.dbg with atResume := b.dbg.atResume ++ [(.psw, debugPsw b v)] } }
    else if 80 ≤ sel ∧ sel < 112 then defer (.unit (BitVec.ofNat 5 (sel - 80)))
    else b

/-- The item that DBG_REGDATA reads while halted (R415). -/
def readDbgReg (b : Barge) : Word :=
  let sel := bitsN b.dbg.regsel 0 7
  let w := bit b.dbg.regsel 7
  if !b.dbg.halted then 0
  else if h : sel < 64 then (b.bank w).w.get ⟨sel, h⟩
  else if sel = 64 then (b.bank w).lnk
  else if sel = 65 then b.flags.word
  else if sel = 66 then b.u.rc
  else if sel = 67 then b.u.rs
  else if sel = 68 then b.u.rd
  else if sel = 69 then b.u.rmode
  else if sel = 70 then b.psw
  else if sel = 71 then fld b.sig.s 0 36
  else if sel = 72 then (fld b.sig.s 36 25).setWidth 36
  else if 80 ≤ sel ∧ sel < 112 then b.u.getWord (sel - 80)
  else 0

/-! ### The commands -/

/-- The frame of a command in which a barge may reset itself (R126): the power states follow its hold (R348). -/
def bargeAct (s : State) (dt : Nat) (f : State → State) : Out := act s dt (holdsFollow f)

/-- INSTRUCTION_ISSUE (R45). -/
def execInstructionIssue (dt : Nat) (g : BargeIx) (rivals : List Rival) (s : State) : Out :=
  bargeAct s dt fun s => stepped g (issueOne g rivals (masked (s.barges.get g))) s

/-- IDLE_COUNT (R24). -/
def execIdleCount (dt : Nat) (g : BargeIx) (s : State) : Out := bargeAct s dt (stepped g (idleStep g))

/-- RESULT_DELIVERY (R41): at a boundary, with `split` telling whether the two datapaths of a due VMUL or VCHK result
disagree. -/
def execResultDelivery (dt : Nat) (g : BargeIx) (split : Bool) (s : State) : Out :=
  bargeAct s dt fun s =>
    let b := s.barges.get g
    if !bargeRuns s g ∨ b.dbg.halted ∨ b.gate.isSome ∨ b.trapDue.isSome ∨ b.frameRun.isSome ∨ b.rfeDue.isSome then s else stepped g (fun s => (boundary g split s).1) s

/-- STORE_BUFFER_DRAIN (R64). -/
def execStoreBufferDrain (dt : Nat) (g : BargeIx) (rivals : List Rival) (s : State) : Out :=
  act s dt (gated (fun s => basinRuns s (basinOf g)) (drainStore g rivals))

/-- XLU_DEPART (R66, R70). -/
def execXluDepart (dt : Nat) (g : BargeIx) (s : State) : Out :=
  act s dt (gated (fun s => basinRuns s (basinOf g)) (departXlu g))

/-- XLU_RESPONSE (R71). -/
def execXluResponse (dt : Nat) (g : BargeIx) (s : State) : Out :=
  act s dt (gated (fun s => basinRuns s (basinOf g)) (takeXluResp g))

/-- RPT_ELEMENT (R79). -/
def execRptElement (dt : Nat) (g : BargeIx) (rivals : List Rival) (s : State) : Out := bargeAct s dt (rptElement g rivals)

/-- IOU_COMPLETE (R82). -/
def execIouComplete (dt : Nat) (g : BargeIx) (s : State) : Out :=
  act s dt (gated (fun s => basinRuns s (basinOf g)) (completeIou g))

/-- CNT_WAIT_END (R87). -/
def execCntWaitEnd (dt : Nat) (g : BargeIx) (s : State) : Out := act s dt (gated (fun s => bargeRuns s g) (endWait g))

/-- GATE_ENTRY (R107). -/
def execGateEntry (dt : Nat) (g : BargeIx) (s : State) : Out := bargeAct s dt (stepped g (endGate g false))

/-- GATE_RETURN (R108). -/
def execGateReturn (dt : Nat) (g : BargeIx) (s : State) : Out := bargeAct s dt (stepped g (endGate g true))

/-- SYNC_EFFECT (R98). -/
def execSyncEffect (dt : Nat) (g : BargeIx) (s : State) : Out := bargeAct s dt (syncStep g)

/-- SEAL_DEPART (R163). -/
def execSealDepart (dt : Nat) (g : BargeIx) (s : State) : Out := act s dt (departSeal g)

/-- LINE_READ_DELIVER (R88). -/
def execLineReadDeliver (dt : Nat) (n : BasinIx) (k way : Fin 4) (s : State) : Out := act s dt (deliverRead n k way)

/-- PATROL_READ (R227). -/
def execPatrolRead (dt : Nat) (n : BasinIx) (k way : Fin 4) (s : State) : Out := act s dt (patrolStep n k way)

/-- CODE_WINDOW_READ (R84). -/
def execCodeWindowRead (dt : Nat) (g : BargeIx) (s : State) : Out := act s dt (windowRead g)

/-- INTERRUPT_ENTRY (R114). -/
def execInterruptEntry (dt : Nat) (g : BargeIx) (s : State) : Out := bargeAct s dt (stepped g (takeInterrupt g))

/-- TCMP_WRITE (R109): by the barge's own code. -/
def execTcmpWrite (dt : Nat) (g : BargeIx) (k : Fin 4) (value : Word) (s : State) : Out :=
  bargeAct s dt (regWriteBy g (0x10 + k.val) value)

/-- TCMP_REACHED (R109). -/
def execTcmpReached (dt : Nat) (g : BargeIx) (k : Fin 4) (s : State) : Out := act s dt (compareReached g k)

/-- INTC_SWI_WRITE (R110). -/
def execIntcSwiWrite (dt : Nat) (g : BargeIx) (value : Word) (s : State) : Out := bargeAct s dt (regWriteBy g 0x142 value)

/-- BASIN_DBELL_WRITE (R231): a write through the bridge has no writer position and is ignored. -/
def execBasinDbellWrite (dt : Nat) (n : BasinIx) (src : Writer) (value : Word) (s : State) : Out :=
  bargeAct s dt fun s =>
    match src with
    | .barge g => if basinOf g = n then regWriteBy g 0x414 value s else s
    | .bridge => s

/-- BANK_OWN_WRITE (R213, R214): a barge's waits for its SYNC, the Harbourmaster's acts at once. -/
def execBankOwnWrite (dt : Nat) (n : BasinIx) (b : BankIx) (src : Writer) (value : Word) (s : State) : Out :=
  bargeAct s dt fun s =>
    match src with
    | .barge g => if basinOf g = n then regWriteBy g (0x400 + b.val) value s else s
    | .bridge => handover n b (low 7 value) none false s

/-- CODEMAP_WRITE (R228): the Harbourmaster's takes effect at once. -/
def execCodemapWrite (dt : Nat) (n : BasinIx) (p : Fin 4) (src : Writer) (value : Word) (s : State) : Out :=
  bargeAct s dt fun s =>
    match src with
    | .barge g => if basinOf g = n then regWriteBy g (0x410 + p.val) value s else s
    | .bridge => s.modBasin n fun x => { x with codemap := vput x.codemap p (low 2 value) }

/-- BC_PSW_WRITE (R101, R103, R137). -/
def execBcPswWrite (dt : Nat) (g : BargeIx) (value : Word) (s : State) : Out := bargeAct s dt (regWriteBy g 0 value)

/-- UNIT_CONTEXT_WRITE (R120). -/
def execUnitContextWrite (dt : Nat) (g : BargeIx) (word : BitVec 5) (value : Word) (s : State) : Out :=
  bargeAct s dt (regWriteBy g (0x40 + word.toNat) value)

/-- DATE_ARRIVAL (R155). -/
def execDateArrival (dt : Nat) (g : BargeIx) (s : State) : Out := act s dt (dateArrives g)

/-- RETRY_REQUEST_ARRIVAL (R156). -/
def execRetryRequestArrival (dt : Nat) (g : BargeIx) (s : State) : Out := act s dt (retryArrives g)

/-- DECISION_NOTICE_ARRIVAL (R109). -/
def execDecisionNoticeArrival (dt : Nat) (g : BargeIx) (s : State) : Out := act s dt (noticeArrives g)

/-- HALT_ENTRY (R411). -/
def execHaltEntry (dt : Nat) (g : BargeIx) (s : State) : Out := bargeAct s dt (haltStep g)

/-- DBG_HALT (R411, R412). -/
def execDbgHalt (dt : Nat) (g : BargeIx) (s : State) : Out := act s dt (requestHalt g 1 0)

/-- DBG_RESUME (R413). -/
def execDbgResume (dt : Nat) (g : BargeIx) (s : State) : Out :=
  act s dt (gated (fun s => (s.barges.get g).dbg.halted && debugAllowed s) (unhalt g false))

/-- DBG_STEP (R413). -/
def execDbgStep (dt : Nat) (g : BargeIx) (rivals : List Rival) (s : State) : Out := bargeAct s dt (stepBarge g rivals)

/-- DBG_PC_WRITE (R413). -/
def execDbgPcWrite (dt : Nat) (g : BargeIx) (value : Word) (s : State) : Out := act s dt (writeDbgPc g value)

/-- DBG_REGDATA_WRITE (R415). -/
def execDbgRegdataWrite (dt : Nat) (g : BargeIx) (value : Word) (s : State) : Out := act s dt (writeDbgReg g value)

end Sys2Proof.Machine
end

