-- ==== Sys2Proof/Machine/Crp.lean ====
section
/-! DEFINITION. Clocks, reset and power (chapter 13, and R426, R432): PLLs and monitors, supplies, the resets, station time,
basin power states, thermal throttling, boot, and the register block. -/

namespace Sys2Proof.Machine

/-! ### PLLs and monitors (R336, R340, R341) -/

/-- Step 6 of the bring-up (R345): the monitors are armed once every PLL has locked; the rails are in range. -/
def armMonitors (s : State) : State :=
  if s.crp.locked = BitVec.allOnes 6 ∧ !s.crp.armed then
    { s with crp := { s.crp with
      armed := true, inr := BitVec.allOnes 6, iobank := s.crp.iobank.map fun b => { b with inr := true } } }
  else s

/-- A PLL locks (R336). -/
def lockPll (p : PllIx) (s : State) : State :=
  armMonitors { s with crp := { s.crp with locked := s.crp.locked ||| BitVec.ofNat 6 (2 ^ p.val) } }

/-- A PLL loses lock (R336); CALOK clears with the field PLL's (R276). -/
def losePll (p : PllIx) (s : State) : State :=
  if bit s.crp.locked p.val then
    State.mark .pllStat (6 + p.val) { s with
      crp := { s.crp with
        locked := s.crp.locked &&& ~~~(BitVec.ofNat 6 (2 ^ p.val)), lost := s.crp.lost ||| BitVec.ofNat 6 (2 ^ p.val) }
      pwm := { s.pwm with calok := s.pwm.calok && p != 5 } }
  else s

/-- The bit of a clock in CRP_CLKFLT (R351). -/
def clkIx : Clk → Nat
  | .bclk n => n.val
  | .xclk => 12
  | .hclk => 13
  | .pclk => 14
  | .fclk => 15
  | .tclk => 16
  | .refclk => 17

/-- Eight times the expected count E of a window of 200 KCLK (R340), whole with every divider. -/
def expectedCount (s : State) : Clk → Nat
  | .bclk n => (if s.crp.profile = 2 then 12000 else 16000) / 2 ^ (s.crp.bpwr.get n).tdiv.toNat
  | .pclk => 8000
  | .fclk => 6400
  | .xclk => if s.crp.profile = 0 then 12800 else 9600
  | .hclk => 9600
  | .tclk => 400
  | .refclk => 1600

/-- A window's count is a clock fault (R340): outside ⌈0.94·E⌉ to ⌊1.06·E⌋, where e is 8·E. -/
def countFaulty (e c : Nat) : Bool := decide (c < (94 * e + 799) / 800 ∨ 106 * e / 800 < c)

/-- The monitor of a clock runs (R340, R345). -/
def monitored (s : State) : Clk → Bool
  | .bclk n => s.crp.armed && (s.crp.bpwr.get n).cur == 0
  | _ => s.crp.armed

/-- An active task runs in a basin (R340). -/
def basinHasTask (s : State) (n : BasinIx) : Bool := s.kp.tasks.toList.any fun t => t.tstate == 1 && t.onbarge.toNat / 4 == n.val

/-- Where a clock fault goes (R340). The KP_LOG entry of an HCLK fault has no kind in R204: it is a free word. -/
def clockFault (c : Clk) (s : State) : State :=
  match c with
  | .bclk n => if basinHasTask s n then enterSafe 0x02 s else s
  | .pclk => enterSafe 0x02 s
  | .fclk => enterSafe 0x02 s
  | .hclk =>
    let w := Config.freeWord s.freeCtr
    let s1 := s.free
    if !s.kp.powered then s else s1.addLog w
  | _ => s

/-- A monitor window ends (R340); CALOK clears with a fault of PCLK (R276). -/
def clockWindow (c : Clk) (count : Nat) (s : State) : State :=
  let b : BitVec 18 := BitVec.ofNat 18 (2 ^ clkIx c)
  if !monitored s c then s
  else if countFaulty (expectedCount s c) count then
    clockFault c (State.mark .clkFlt (clkIx c) { s with
      crp := { s.crp with clkflt := s.crp.clkflt ||| b, clkbad := s.crp.clkbad ||| b }
      pwm := { s.pwm with calok := s.pwm.calok && c != .pclk } })
  else { s with crp := { s.crp with clkbad := s.crp.clkbad &&& ~~~b } }

/-- The place of a rail in CRP_SUPSTAT (R351). -/
def railIx : Rail → Option Nat
  | .core => some 0
  | .kp => some 1
  | .sram => some 2
  | .nvm => some 3
  | .phyLow => some 4
  | .phyHigh => some 5
  | .vddio _ => none

/-- A rail has been outside its window for 1 µs (R341). -/
def supplyFault (r : Rail) (s : State) : State :=
  if !s.crp.armed then s
  else
    match r with
    | .vddio k =>
      let s1 := { s with crp := { s.crp with iobank := vmod s.crp.iobank k fun b => { b with inr := false, flt := true } } }
      let s2 := s1.mark (.ioBank k) 3
      if (s.crp.iobank.get k).mon then enterSafe 0x03 s2 else s2
    | _ =>
      let i := (railIx r).getD 0
      let b : BitVec 6 := BitVec.ofNat 6 (2 ^ i)
      let s1 := { s with crp := { s.crp with inr := s.crp.inr &&& ~~~b, flt := s.crp.flt ||| b } }
      let s2 := s1.mark .supStat (6 + i)
      if i < 4 then enterSafe 0x03 s2 else s2

/-- A rail is back in its window (R341, R351): INR shows it. -/
def supplyBack (r : Rail) (s : State) : State :=
  if !s.crp.armed then s
  else
    match r with
    | .vddio k => { s with crp := { s.crp with iobank := vmod s.crp.iobank k fun b => { b with inr := true } } }
    | _ => { s with crp := { s.crp with inr := s.crp.inr ||| BitVec.ofNat 6 (2 ^ (railIx r).getD 0) } }

/-! ### Cold and warm reset (R342 to R345) -/

/-- The profile resolved at a reset release (R16, R337): 3 in the fuses is Cool. -/
def resolveProfile (f : Fuses) (p : Pins) : BitVec 2 :=
  let fuse := if f.pfuse = 3 then 2 else f.pfuse
  if f.plock ∨ p.profile = 3 then fuse else p.profile

/-- The content a line is left with when its programming is cut off (R229): its old one, or one whose CRC fails. -/
def cutLine (seed : Nat) (old : Option CodeLine) : Option CodeLine :=
  if Config.freeChoice seed then old else some (failedLine seed)

/-- The eNVM operation of a channel is cut off by a reset (R229). -/
def cutNvp (s : State) (c : Fin 4) : State :=
  match (s.nvp.get c).op with
  | some (n, k, l, _) =>
    if h : n < 12 then
      s.free.modCode ⟨n, h⟩ ⟨k % 4, Nat.mod_lt _ (by decide)⟩ fun b =>
        { b with lines := kset b.lines l (cutLine s.freeCtr (kget b.lines l)) }
    else s
  | none => s

/-- Every eNVM operation in progress is cut off. -/
def cutAllNvp (s : State) : State := (List.finRange 4).foldl cutNvp s

/-- What a write to a memory that a warm reset keeps would do: the Reservoir's, where no word that it writes in part is
uncorrectable, or the Harbourmaster SRAM's (R230, R233). -/
def performWrite (r : WharfReq) (s : State) : State :=
  if r.target.val = 16 then { s with hms := s.hms.write (txWrites r.tx ((txLo r.tx) - 0x11000000)) }
  else
    let ws := txWrites r.tx (rvBase r)
    if (partialWords ws).any s.rv.mem.isUe then s else rvWriteNonets ws s

/-- A write that a warm reset ends: performed in full or not at all (R247). -/
def endWrite (s : State) (r : WharfReq) : State :=
  if r.tx.write ∧ 12 ≤ r.target.val ∧ r.target.val ≤ 16 then
    if Config.freeChoice s.freeCtr then performWrite r s.free else s.free
  else s

/-- The basin's SRAM is zeroed: its retained data is to be applied again (R404). -/
def staleImage (n : BasinIx) (s : State) : State :=
  { s with fw := { s.fw with image := vmod s.fw.image n fun x => { x with state := if x.state = 1 then 3 else x.state, stale := true } } }

/-- The firmware as a cold or warm reset leaves it: its images, retained in the code store, and what it knows of Keeper
entries (R343, R402, R404). -/
def Firmware.afterReset (f : Firmware) : Firmware :=
  { image := f.image.map fun x => { x with state := if x.state = 1 then 3 else x.state, stale := true }
    store := f.store, bootFails := f.bootFails
    taskFrom := f.taskFrom, taskUsable := f.taskUsable, taskStale := Vector.replicate 256 true }

/-- A basin as a cold or warm reset leaves it: eNVM lines, column repair and BASIN_BIST kept, the self-test to come (R231). -/
def Basin.afterReset (b : Basin) (now count : Nat) : Basin :=
  { mem := b.mem
    code := b.code.map fun k => { lines := k.lines }
    repair := b.repair, bistS := b.bistS, bistC := b.bistC, bistDone := b.bistDone
    bclkAcc := count, bclkSince := now }

/-- The clock, reset and power block after a cold reset (R343, R345, R417, R432). -/
def Crp.released (c : Crp) (f : Fuses) : Crp :=
  { pins := c.pins, profile := resolveProfile f c.pins, factory := c.pins.testmode, bootMode := c.pins.bootMode
    iobank := c.iobank.map fun b => { level := b.level } }

/-- What a fuse operation does to the fuses (R406, R419, R337). -/
def FuseOp.blow (o : FuseOp) (f : Fuses) : Fuses :=
  let slotBit : BitVec 4 := BitVec.ofNat 4 (2 ^ o.slot.val)
  match o.op with
  | 1 => { f with life := if f.life = 0 then 1 else 3 }
  | 2 => { f with hash := vput f.hash o.slot o.hash, prog := f.prog ||| slotBit }
  | 3 => { f with dbg := f.dbg ||| slotBit }
  | 4 => { f with rev := f.rev ||| slotBit }
  | 5 => { f with arb := o.value }
  | 6 => { f with fwcnt := low 6 o.value }
  | 7 => { f with pfuse := f.pfuse ||| low 2 o.value }
  | 8 => { f with plock := true }
  | _ => f

/-- The fuses after a reset: an operation in progress is performed or not, freely (log entry 3). -/
def fusesAfter (s : State) : Fuses :=
  match s.sec.fpop with
  | some o => if Config.freeChoice s.freeCtr then o.blow s.sec.fuses else s.sec.fuses
  | none => s.sec.fuses

/-- A barge held in reset as a reset of the whole device leaves it: the debug block is reset with it (R421). -/
def Barge.afterReset (b : Barge) (g : BargeIx) (count : Nat) (sfree : BitVec 61) : Barge :=
  { b.restored g 0 count sfree with dbg := {} }

/-- The fuse registers after a warm reset: kept (R343), but for the profile fuses, which act from it on (R16, R337). -/
def Sec.loadedWarm (x : Sec) (f : Fuses) : Fuses := { x.loaded with pfuse := f.pfuse, plock := f.plock }

/-- What a cold and a warm reset have in common, from the state in which they begin. -/
def deviceReset (crp : Crp) (rv : Reservoir) (loaded : Fuses) (s : State) : State :=
  let count (n : BasinIx) : Nat := bclkCount s n
  let s0 : State :=
    { now := s.now, freeCtr := s.freeCtr + 1, pending := s.pending
      crp := crp, rv := rv, hms := s.hms, fw := s.fw.afterReset
      barges := Vector.ofFn fun g =>
        (s.barges.get g).afterReset g (count (basinOf g)) (Config.freeSignature s.freeCtr)
      basins := Vector.ofFn fun n => (s.basins.get n).afterReset s.now (count n)
      ferry := { lfsrAt := s.now, window := s.now / (4096 * if crp.profile = 0 then 15 else 20) }
      wharf := { slice := decide (crp.profile = 0) }
      sec := { fuses := fusesAfter s, loaded := loaded, jtagIr := s.sec.jtagIr, keys := s.sec.keys }
      hif := { bme := s.hif.bme, d3hot := s.hif.d3hot, ltrEn := s.hif.ltrEn, l1En := s.hif.l1En, inL1 := s.hif.inL1, mps := s.hif.mps
               mrrs := s.hif.mrrs, ctoRange := s.hif.ctoRange, ctoDis := s.hif.ctoDis, msixEn := s.hif.msixEn, msixMask := s.hif.msixMask
               l1ss := s.hif.l1ss, table := s.hif.table
               bar := s.hif.bar, aer := s.hif.aer, hostRead := s.hif.hostRead, subsys := s.hif.subsys, subsysStore := s.hif.subsysStore, sent := s.hif.sent, hostMem := s.hif.hostMem } }
  keeperReset { s0 with kp := { s0.kp with powered := s.kp.powered, testHold := s.kp.testHold } }

/-- A warm reset (R342, R343): what it keeps is kept, CRP_RSTCAUSE takes its cause, and the straps are sampled at its release,
which the step stands for (R16, R417, R432). -/
def beginWarm (src : BitVec 2) (pins : Pins) (s : State) : State :=
  let s1 := (s.wharf.reqs.foldl endWrite (cutAllNvp s))
  let c := { s1.crp with pins := pins }
  let crp := { c.released (fusesAfter s1) with
    warm := true, src := src, stTime := c.stTime, sth := c.sth, stsetl := c.stsetl
    stIntvl := c.stIntvl, stDir := c.stDir, trimAt := c.trimAt, warmAt := some s.now }
  let rv := { mem := s1.rv.mem, ports := s1.rv.ports.map fun p => { fail := p.fail, done := p.done, repair := p.repair } }
  let lock := s1.sec.lockout
  let s2 := deviceReset crp rv (s1.sec.loadedWarm (fusesAfter s1)) s1
  watchKstat (fun _ => { s2 with
    sec := { s2.sec with lockout := lock, failcnt := if lock then 3 else 0 }
    hif := { s2.hif with ltrSent := s1.hif.ltrSent, ltrCount := s1.hif.ltrCount } }) s

/-- A cause of a warm reset: two in one cycle make one, with cause RESET_N where it is one of them (R344). -/
def warmReset (src : BitVec 2) (pins : Pins) (s : State) : State :=
  if s.crp.warmAt.any (sameCycle (xclkPeriod s) s) then
    if src = 1 then { s with crp := { s.crp with src := 1 } } else s
  else beginWarm src pins s

/-- A main rail has fallen below its threshold (R426): the device is held in cold reset. -/
def assertCold (r : Rail) (s : State) : State :=
  if r = .core ∨ r = .sram ∨ r = .nvm then
    let s1 := cutAllNvp s
    let rv := { mem := s1.rv.mem.zeroed, ports := s1.rv.ports.map fun p => { repair := p.repair } }
    let s2 := deviceReset (s1.crp.released (fusesAfter s1)) rv (fusesAfter s1) s1
    { s2 with crp := { s2.crp with coldHeld := true } }
  else s

/-- A barge as a cold reset leaves it, or a wake from B3: S is a free value (R166, R347). -/
def coldBarge (sfree : BitVec 61) (b : Barge) : Barge := { b with sig := { b.sig with s := sfree } }

/-- The main supplies are in range and the cold reset is released (R342, R345): fuses load, straps and VDDIO levels are taken,
the memories are to be tested and zeroed, station time starts at 0. -/
def releaseCold (pins : Pins) (levels : BitVec 12) (s : State) : State :=
  if !s.crp.coldHeld then s
  else
    let rv := { mem := s.rv.mem.zeroed, ports := s.rv.ports.map fun p => { repair := p.repair } }
    let crp := { s.crp with pins := pins, iobank := Vector.ofFn fun k => { s.crp.iobank.get k with level := levels.getLsbD k.val } }
    let s1 := deviceReset (crp.released s.sec.fuses) rv s.sec.fuses s
    { s1 with
      hms := s.hms.zeroed
      barges := State.reset.barges.map (coldBarge (Config.freeSignature s.freeCtr))
      basins := s1.basins.map fun b => { b with mem := b.mem.zeroed, bistS := 0, bistC := 0, bistDone := false, bclkAcc := 0 }
      hif := { subsys := s.hif.subsys, subsysStore := s.hif.subsysStore, sent := s.hif.sent, hostMem := s.hif.hostMem }
      sec := { fuses := s.sec.fuses, loaded := s.sec.fuses, keys := s.sec.keys }
      kp := { powered := s.kp.powered } }

/-- A pulse on RESET_N of a width in ns (R432): while a cold reset holds the part it has no further effect (R344). -/
def resetPulse (width : Nat) (pins : Pins) (s : State) : State :=
  if width < 200 ∨ s.crp.coldHeld then s
  else if 1000 ≤ width then warmReset 1 pins s
  else if Config.freeChoice s.freeCtr then warmReset 1 pins s.free else s.free

/-! ### Basin and barge resets (R343, R344, R206, R224, R247) -/

/-- The tender's transactions end; BANK_OWN writes granted already are answered; at the basin's target port, what is not granted is answered REFUSED (R247). -/
def resetTender (n : BasinIx) (s : State) : State :=
  let acks := (s.basins.get n).hoAcks
  let s0 := acks.foldl (fun s a => respond a.2 .ok [] s) s
  let s1 := (s0.modBasin n fun x => { x with tender := [], tenderRr := 3, hoAcks := [] }).dropTx ⟨n.val, by omega⟩ fun _ => true
  let here := s1.wharf.reqs.filter fun r => r.target.val == n.val
  here.foldl (fun s r => respond r .refused [] s)
    { s1 with wharf := { s1.wharf with reqs := s1.wharf.reqs.filter fun r => r.target.val != n.val } }

/-- A barge of a basin, reset with it (R343). -/
def resetPosition (n : BasinIx) (s : State) (p : Fin 4) : State := resetBarge (bargeOf n p) 0 s

/-- A code bank after a reset of its basin: its lines, and the programming of the eNVM. -/
def CodeBank.afterBasinReset (k : CodeBank) : CodeBank :=
  { lines := k.lines
    ways := k.ways.map fun w => w.filter fun r => match r.use with
      | .program _ => true
      | _ => false }

/-- The transactions that a basin's target port has granted complete (R247). -/
def completePort (n : BasinIx) (s : State) : State :=
  ((s.basins.get n).tport).foldl (fun s r => if r.refuse then refuseBasin n r s else finishBasin n s r)
    (s.modBasin n fun x => { x with tport := [] })

/-- A basin's registers and banks return to reset, and its self-test begins (R224, R231), once the transactions that its target
port has granted are complete; the eNVM is no part of the basin, and its programming goes on (R229, R343). -/
def restoreBasin (n : BasinIx) (s : State) : State :=
  (completePort n s).modBasin n fun b => { b.afterReset s.now (bclkCount s n) with
    code := b.code.map CodeBank.afterBasinReset, bclkAcc := b.bclkAcc, bclkSince := b.bclkSince }

/-- The basin is being reset: the self-test under way is a reset's (R224, R344). -/
def inReset (s : State) (n : BasinIx) : Bool := (s.basins.get n).testing && !(s.basins.get n).waking

/-- A reset of basin n (R343, R206): merged with one in progress, and without effect during a wider one (R344). -/
def resetBasin (n : BasinIx) (s : State) : State :=
  if inReset s n then s
  else
    let s1 := stopTasksOn (fun b => b / 4 == n.val) s
    let s2 := (List.finRange 4).foldl (resetPosition n) (resetTender n s1)
    let kept := ~~~(BitVec.ofNat 48 (15 * 2 ^ (4 * n.val)))
    let told (s : State) : State := (List.finRange 4).foldl (fun s p => s.notify (.bargeReset (bargeOf n p) 0)) (s.bump 1 n.val)
    let s3 := { s2 with fw := { s2.fw with latTol := vmodN s2.fw.latTol n.val fun _ => 0 } }
    settle (watchReady (fun s => told (restoreBasin n s)) { staleImage n s3 with kp := { s3.kp with retired := s3.kp.retired &&& kept } })

/-- BASIN_BIST.CFAIL (R224): a bank fails when a programmed line of it has an uncorrectable group or a wrong CRC. -/
def codeCheck (b : Basin) : BitVec 4 :=
  bitsWhere 4 4 fun k => (b.code.get k).lines.any fun l => lineBad (b.code.get k) (BitVec.ofNat 12 l.1)

/-- The banks that hold a cell that no write repairs: the self-test fails them (R224). -/
def stuckBanks (m : Mem) : BitVec 16 :=
  m.marks.foldl (fun w x => if x.2 = .stuck then w ||| BitVec.ofNat 16 (2 ^ (x.1 / 16384)) else w) 0

/-- A physical column of an SRAM bank holds cells of it with repair applied (R223): a bit column, 0 to 343, that no REPAIR field steers
to a spare, or spare i, 344 + i, whose field holds a column index. -/
def columnUsed (cols : Word) (col : Fin 348) : Bool :=
  if col.val < 344 then (List.range 4).all fun i => bitsN cols (9 * i) 9 != col.val
  else bitsN cols (9 * (col.val - 344)) 9 < 344

/-- The banks that a self-test with repair applied fails for the defective columns it meets (R223, R224). -/
def columnFails {k : Nat} (cols : Fin k → Word) (defects : List (Fin k × Fin 348)) : BitVec k :=
  bitsWhere k k fun b => defects.any fun d => d.1 == b && columnUsed (cols b) d.2

/-- The basin self-test ends (R224), after step 6 of the bring-up (R345): every word is 0, and BASIN_BIST holds the result;
`defects`: the physical columns, by bank, that it finds defective (log entry 96). -/
def endBasinTest (n : BasinIx) (defects : List (Fin 16 × Fin 348)) (s : State) : State :=
  if (s.basins.get n).testing ∧ s.crp.armed then
    s.modBasin n fun b => { b with
      testing := false, waking := false, mem := b.mem.zeroed, bistS := columnFails b.repair.get defects ||| stuckBanks b.mem, bistC := codeCheck b, bistDone := true }
  else s

/-- The Reservoir self-test of a port ends (R230), after step 6 of the bring-up (R345), its words 0 (R343); it runs at cold reset
only. -/
def endReservoirTest (p : Fin 4) (defects : List (Fin 4 × Fin 348)) (s : State) : State :=
  if (s.rv.ports.get p).done ∨ !s.crp.armed then s
  else
    let stuck : BitVec 4 := s.rv.mem.marks.foldl (fun w x =>
      if x.2 = .stuck ∧ x.1 / 262144 = p.val then w ||| BitVec.ofNat 4 (2 ^ (x.1 / 65536 % 4)) else w) 0
    { s with rv := { s.rv with mem := s.rv.mem.zeroBlock 262144 p.val, ports := vmod s.rv.ports p fun x => { x with fail := columnFails x.repair.get defects ||| stuck, done := true } } }

/-- A barge reset by command (R343, R206): without effect while its basin is being reset (R344). -/
def commandReset (g : BargeIx) (s : State) : State :=
  if inReset s (basinOf g) then s
  else settle ((resetBarge g (at36 8 1) (stopTasksOn (fun b => b == g.val) s)).notify (.bargeReset g (at36 8 1)))

/-- A basin's self-test has ended with no failing bank (R224). -/
def testedGood (b : Basin) : Bool := b.bistDone && !b.testing && b.bistS == 0 && b.bistC == 0

/-- One bit of CRP_BHOLD is written (R351, R387): a barge is held, or released unless the Keeper has retired it or its basin has
a failing bank (R224, log entry 89); with HOR = 1 its release is a halt request (R411). -/
def writeHold (g : BargeIx) (hold : Bool) (s : State) : State :=
  let held := bit s.crp.bhold g.val
  if hold then if held then s else (resetBarge g (at36 8 1) s).bump 2 g.val
  else if !held ∨ bit s.kp.retired g.val ∨ !testedGood (s.basins.get (basinOf g)) then s
  else
    let s1 := { s.bump 2 g.val with crp := { s.crp with bhold := s.crp.bhold &&& ~~~(BitVec.ofNat 48 (2 ^ g.val)) } }
    if (s1.barges.get g).dbg.hor then requestHalt g 4 0 s1 else s1

/-- CRP_BHOLD0 or CRP_BHOLD1 is written (R351). -/
def writeHolds (high : Bool) (v : Word) (s : State) : State :=
  (ixs 48 fun g => decide (36 ≤ g.val) == high).foldl (fun s g => writeHold g (bit v (g.val % 36)) s) s

/-! ### Station time (R339) -/

/-- CRP_STSETH is written: station time is loaded only in STARTING with every barge held, and no sample of it is older. -/
def loadStationTime (v : Word) (s : State) : State :=
  if s.kp.mode = .starting ∧ s.crp.bhold = BitVec.allOnes 48 then
    { s with
      crp := { s.crp with stTime := (fld v 0 28) ++ s.crp.stsetl }
      barges := s.barges.map fun b => { b with lastSample := (fld v 0 28) ++ s.crp.stsetl } }
  else s

/-- The trim interval in units of 1/12 ns (R339, R351): 1 to 9 act as 10. -/
def trimInterval (c : Crp) : Nat := max 10 c.stIntvl.toNat * microsecond

/-- A trim of station time (R339): one extra step, or one step of those that just passed skipped, so that it never decreases. -/
def trim (before : BitVec 64) (s : State) : State :=
  let c := s.crp
  if c.stIntvl = 0 ∨ s.now < c.trimAt + trimInterval c ∨ (c.stDir ∧ c.stTime = before) then s
  else { s with crp := { c with stTime := if c.stDir then c.stTime - 1 else c.stTime + 1, trimAt := s.now } }

/-! ### Basin power states (R347, R348) -/

/-- The wait of a barge has more than t ns to run (R347). -/
def waitsLonger (s : State) (n : BasinIx) (t : Nat) (b : Barge) : Bool :=
  match b.wait with
  | some (.time u) => let d := u - low 36 s.crp.stTime; !bit d 35 && decide (t < d.toNat)
  | some (.count last) => decide (t * 12 < (last - bclkCount s n) * bclkPeriod s * 2 ^ (s.crp.bpwr.get n).tdiv.toNat)
  | none => false

/-- A barge lets its basin enter B1 (R347). -/
def bargeIdle (s : State) (g : BargeIx) : Bool :=
  let b := s.barges.get g
  let n := basinOf g
  (bit s.crp.bhold g.val || waitsLonger s n 2000 b) && drained b && b.xluq.isEmpty &&
    (selectInterrupt b (bclkCount s n)).isNone

/-- CUR changes: the firmware reports it (R398). -/
def setCur (n : BasinIx) (c : BitVec 2) (s : State) : State := (s.modBpwr n fun p => { p with cur := c }).notify (.power n c)

/-- A basin enters B1 (R347). -/
def enterB1 (n : BasinIx) (s : State) : State :=
  let p := s.crp.bpwr.get n
  if p.cur = 0 ∧ p.target.isNone ∧ reqActs p.req = 0 ∧ p.autob1 ∧ !vheld s n ∧
      (List.finRange 4).all fun q => bargeIdle s (bargeOf n q) then setCur n 1 s
  else s

/-- A transaction for a bank of port A waits at the basin's target port (R347). -/
def portAWanted (s : State) (n : BasinIx) : Bool :=
  s.wharf.reqs.any (fun r => r.target.val == n.val && decide ((bankOf r.tx.addr.toNat).val < 14)) ||
    (s.basins.get n).tport.any fun r => decide ((bankOf r.tx.addr.toNat).val < 14)

/-- A basin in B1 has a reason to wake (R347, R348). -/
def wakeDue (s : State) (n : BasinIx) : Bool :=
  vheld s n || (s.crp.bpwr.get n).changed || portAWanted s n ||
    (List.finRange 4).any fun q =>
      let b := s.barges.get (bargeOf n q)
      !bit s.crp.bhold (bargeOf n q).val &&
        ((b.wait.isSome && !waitsLonger s n 600 b) || (selectInterrupt b (bclkCount s n)).isSome)

/-- A basin returns from B1 to B0 (R347); a request for a deeper state then takes effect. -/
def wakeB1 (n : BasinIx) (s : State) : State :=
  let p := s.crp.bpwr.get n
  if p.cur = 1 ∧ wakeDue s n then
    let s1 := setCur n 0 (s.modBpwr n fun p => { p with wakes := p.wakes + 1, changed := false })
    if vheld s n then s1 else kickBasin n (beginPower n (reqActs p.req) s1)
  else s

/-- A basin in B3 keeps only its eNVM (R347); the debug modules are the debug block's, and keep their registers (R421). -/
def powerOff (n : BasinIx) (s : State) : State :=
  let s1 := (List.finRange 4).foldl (fun s q =>
    (resetPosition n s q).modBarge (bargeOf n q) fun b =>
      { coldBarge (Config.freeSignature s.freeCtr) (State.reset.barges.get (bargeOf n q)) with dbg := b.dbg, lastSample := b.lastSample })
    (resetTender n (staleImage n s))
  s1.modBasin n fun b => { b.afterReset s.now (bclkCount s n) with
    code := b.code.map CodeBank.afterBasinReset, mem := b.mem.zeroed, bistDone := false, testing := false }

/-- The barges of a basin in B2 are held (R347). -/
def holdAll (n : BasinIx) (s : State) : State := (List.finRange 4).foldl (fun s q => writeHold (bargeOf n q) true s) s

/-- A transition to or from B2 or B3 completes (R347, R351): from B3 only once the self-test has ended, and to neither on a basin
that a vital task holds in B0 (R348). -/
def endPower (n : BasinIx) (s : State) : State :=
  let p := s.crp.bpwr.get n
  match p.target with
  | some goal =>
    if p.cur = 3 ∧ (s.basins.get n).testing then s
    else if goal ≠ 0 ∧ vheld s n then s.modBpwr n fun p => { p with target := none, later := none }
    else
      let s1 := setCur n goal (s.modBpwr n fun p => { p with
        target := none, waking := false, wakes := if p.waking then p.wakes + 1 else p.wakes })
      let s2 := if goal = 3 then powerOff n s1 else if goal = 2 then holdAll n s1 else s1
      match p.later with
      | some r =>
        let s3 := s2.modBpwr n fun p => { p with later := none }
        if vheld s3 n ∧ r ≠ 0 then s3 else beginPower n (reqActs r) (s3.modBpwr n fun p => { p with req := r })
      | none => s2
  | none => s

/-! ### Thermal sensing (R349, R350) -/

/-- One sensor's conversion (R350): its reading, and the runs of hot readings and of failed self-checks. -/
def convert (rs : List (BitVec 12 × Bool)) (s : State) (k : Fin 8) : State :=
  match rs[k.val]? with
  | some (t, bad) =>
    let hot := if 480 ≤ t.toInt then s.crp.hotRun.get k + 1 else 0
    let fails := if bad then s.crp.failRun.get k + 1 else 0
    { s with crp := { s.crp with
      temp := vput s.crp.temp k (BitVec.ofBool (decide (2 ≤ fails)) ++ t), hotRun := vput s.crp.hotRun k hot, failRun := vput s.crp.failRun k fails } }
  | none => s

/-- The highest of some readings. -/
def highest (rs : List (BitVec 12 × Bool)) (d : BitVec 12) : BitVec 12 :=
  match rs with
  | [] => d
  | r :: rest => rest.foldl (fun m x => if m.toInt < x.1.toInt then x.1 else m) r.1

/-- The throttle level changes (R349): the dividers follow, and source 59 asserts in the basins concerned. -/
def setLevel (l : BitVec 2) (s : State) : State :=
  let s1 := settle { s with crp := { s.crp with level := l, steps := s.crp.steps + 1 } }
  let s2 := (List.finRange 12).foldl (fun s n => if vheld s n then s else s.pendBasin n 59) s1
  s2.notify (.thermal l s.crp.tmax)

/-- The throttle level after a round of conversions (R349). -/
def throttle (s : State) : State :=
  let c := s.crp
  let rises := c.then' && c.level != 3 && decide (4 * (c.thi.toNat : Int) ≤ c.tmax.toInt) &&
    c.riseAt.all fun t => decide (t + 1000 * microsecond ≤ s.now)
  let falls := c.then' && c.level != 0 && decide (c.tmax.toInt < 4 * (c.tlo.toNat : Int)) &&
    c.fallAt.all fun t => decide (t + 10000 * microsecond ≤ s.now)
  if rises then setLevel (c.level + 1) { s with crp := { c with riseAt := some s.now } }
  else if falls then setLevel (c.level - 1) { s with crp := { c with fallAt := some s.now } }
  else s

/-- A round of conversions (R349, R350). -/
def conversion (rs : List (BitVec 12 × Bool)) (s : State) : State :=
  let s1 := (List.finRange 8).foldl (convert rs) s
  let s2 := { s1 with crp := { s1.crp with tmax := highest rs s1.crp.tmax } }
  let hot := s2.crp.hotRun.toList.any (2 ≤ ·) || s2.crp.failRun.toList.any (2 ≤ ·)
  let s3 := if hot then enterSafe 0x05 { s2 with crp := { s2.crp with hot := true } } else s2
  throttle s3

/-! ### Boot (R417) -/

/-- BOOT_MODE as it acts (R407, R417): 0b10 only in OPEN, 0b11 as 0b00. -/
def bootMode (s : State) : BitVec 2 :=
  if s.crp.bootMode = 1 then 1 else if s.crp.bootMode = 2 ∧ s.sec.loaded.life = 0 then 2 else 0

/-- The boot ROM accepts a firmware image (R417). -/
def firmwareVerifies (s : State) (firmware sig : List Byte) : Bool :=
  let k := Config.firmwareKey firmware
  !bit s.sec.fuses.vrev k.toNat && Config.ecdsaVerify (Config.vendorKey k) (Config.sha384 firmware) sig &&
    decide (s.sec.loaded.fwcnt.toNat ≤ Config.firmwareSec firmware ∧ Config.firmwareSec firmware ≤ 32)

/-- The firmware starts, the FWCNT fuses advanced (R417, R345); or the ROM reports the failure on MUART and waits in recovery. -/
def bootWith (firmware sig : List Byte) (s : State) : State :=
  if firmwareVerifies s firmware sig then
    { s with
      sec := { s.sec with fuses := { s.sec.fuses with
        fwcnt := BitVec.ofNat 6 (max s.sec.fuses.fwcnt.toNat (Config.firmwareSec firmware)) } }
      fw := { s.fw with up := true, recovery := false } }
  else { s with fw := { s.fw with recovery := true, bootFails := s.fw.bootFails + 1 } }

/-- The boot ROM boots from the code store (R417), which holds the given image where nothing has said what it holds. -/
def bootStore (firmware sig : List Byte) (s : State) : State :=
  let x := s.fw.store.getD (firmware, sig)
  bootWith x.1 x.2 { s with fw := { s.fw with store := some x } }

/-- An image received over MUART (R417): verified, programmed into the code store, and booted. -/
def bootReceived (firmware sig : List Byte) (s : State) : State :=
  bootWith firmware sig
    (if firmwareVerifies s firmware sig then { s with fw := { s.fw with store := some (firmware, sig) } } else s)

/-! ### Registers (R351) -/

/-- CRP_RSTCMD is written (R351): a warm reset, with the straps as they stand, or else the basin resets it names. -/
def writeRstcmd (v : Word) (pins : Pins) (s : State) : State :=
  if bit v 12 ∧ bitsN v 16 8 = 0xA5 then warmReset 2 pins s
  else (ixs 12 fun n => bit v n.val).foldl (fun s n => resetBasin n s) s

/-- CRP_BRST0 or CRP_BRST1 is written (R351). -/
def writeBrst (high : Bool) (v : Word) (s : State) : State :=
  (ixs 48 fun g => decide (36 ≤ g.val) == high && bit v (g.val % 36)).foldl (fun s g => commandReset g s) s

/-- CRP_BPWR[n] (R351). -/
def bpwrWord (s : State) (n : BasinIx) : Word :=
  let p := s.crp.bpwr.get n
  put36 0 p.req ||| put36 2 p.cur ||| bit36 4 p.autob1 ||| bit36 5 (vheld s n) ||| put36 6 p.tdiv ||| bit36 8 p.waking ||| put36 9 p.wakes

/-- A read of the clock, reset and power block; none where unmapped (R351). -/
def crpRead (s : State) (off : Nat) : Option Word :=
  let c := s.crp
  if h : 0x10 ≤ off ∧ off < 0x1C then
    let b := c.iobank.get ⟨off - 0x10, by omega⟩
    some (bit36 0 b.level ||| bit36 1 b.mon ||| bit36 2 b.inr ||| bit36 3 b.flt)
  else if h : 0x20 ≤ off ∧ off < 0x28 then some (put36 0 (c.temp.get ⟨off - 0x20, by omega⟩))
  else if h : 0x30 ≤ off ∧ off < 0x3C then some (bpwrWord s ⟨off - 0x30, by omega⟩)
  else match off with
    | 0x00 => some 0x017240
    | 0x01 => some (bit36 0 c.warm ||| put36 1 c.src)
    | 0x02 => some 0
    | 0x03 => some (low 36 c.bhold)
    | 0x04 => some (put36 0 (fld c.bhold 36 12))
    | 0x05 => some 0
    | 0x06 => some 0
    | 0x07 => some (put36 0 s.sec.loaded.pfuse ||| bit36 2 s.sec.loaded.plock)
    | 0x08 => some (put36 0 c.locked ||| put36 6 c.lost)
    | 0x09 => some (put36 0 c.clkflt)
    | 0x0A => some (put36 0 c.inr ||| put36 6 c.flt)
    | 0x28 => some (put36 0 c.tmax)
    | 0x29 => some (put36 0 c.thi ||| put36 8 c.tlo ||| bit36 16 c.then')
    | 0x2A => some (put36 0 c.level ||| bit36 2 c.hot ||| put36 3 c.steps)
    | 0x40 => some (low 36 c.stTime)
    | 0x41 => some (put36 0 c.sth)
    | 0x42 => some 0
    | 0x43 => some 0
    | 0x44 => some (put36 0 c.stIntvl ||| bit36 20 c.stDir)
    | 0x48 => some (put36 0 (fld (readyBits s) 0 32))
    | 0x49 => some (put36 0 (fld (readyBits s) 32 32))
    | 0x4A => some (put36 0 (fld (readyBits s) 64 32))
    | _ => none

/-- What a read of the block does beside (R351): CRP_STL latches the upper bits of station time. -/
def crpReadEffect (off : Nat) (s : State) : State :=
  if off = 0x40 then { s with crp := { s.crp with sth := fld s.crp.stTime 36 28 } } else s

/-- A write of the clock, reset and power block; none where unmapped (R351). -/
def crpWrite (off : Nat) (v : Word) (s : State) : Option State :=
  let c := s.crp
  let same := sameCycle (xclkPeriod s) s
  if (crpRead s off).isNone then none
  else if h : 0x10 ≤ off ∧ off < 0x1C then
    let k : BasinIx := ⟨off - 0x10, by omega⟩
    let m := s.w1c (.ioBank k) same v
    some { s with crp := { c with iobank := vmod c.iobank k fun b => { b with mon := bit v 1, flt := b.flt && !bit m 3 } } }
  else if h : 0x30 ≤ off ∧ off < 0x3C then some (writeBpwr ⟨off - 0x30, by omega⟩ v s)
  else some (match off with
    | 0x02 => writeRstcmd v c.pins s
    | 0x03 => writeHolds false v s
    | 0x04 => writeHolds true v s
    | 0x05 => writeBrst false v s
    | 0x06 => writeBrst true v s
    | 0x08 => { s with crp := { c with lost := c.lost &&& ~~~(fld (s.w1c .pllStat same v) 6 6) } }
    | 0x09 => { s with crp := { c with clkflt := c.clkflt &&& ~~~(fld (s.w1c .clkFlt same v) 0 18) } }
    | 0x0A => { s with crp := { c with flt := c.flt &&& ~~~(fld (s.w1c .supStat same v) 6 6) } }
    | 0x29 =>
      if bitsN v 8 8 < bitsN v 0 8 then settle { s with crp := { c with thi := fld v 0 8, tlo := fld v 8 8, then' := bit v 16 } } else s
    | 0x42 => { s with crp := { c with stsetl := v } }
    | 0x43 => loadStationTime v s
    | 0x44 => { s with crp := { c with stIntvl := fld v 0 20, stDir := bit v 20, trimAt := s.now } }
    | _ => s)

/-! ### The commands -/

/-- The frame of a command of this chapter: HIF_READY and the power states follow (R346, R348). -/
def crpAct (s : State) (dt : Nat) (f : State → State) : Out := act s dt (powersFollow (watchReady f))

/-- PLL_LOCK (R336). -/
def execPllLock (dt : Nat) (p : PllIx) (s : State) : Out := crpAct s dt (lockPll p)

/-- PLL_LOCK_LOSS (R336). -/
def execPllLockLoss (dt : Nat) (p : PllIx) (s : State) : Out := crpAct s dt (losePll p)

/-- CLOCK_MONITOR_WINDOW (R340). -/
def execClockMonitorWindow (dt : Nat) (clk : Clk) (count : Nat) (s : State) : Out := crpAct s dt (clockWindow clk count)

/-- SUPPLY_FAULT (R341): a rail leaves its window, or is back in it. -/
def execSupplyFault (dt : Nat) (rail : Rail) (inRange : Bool) (s : State) : Out :=
  crpAct s dt (if inRange then supplyBack rail else supplyFault rail)

/-- KEEPER_POWER_ON (R345): VDD_KP is in range, and the Keeper starts in STARTING. -/
def execKeeperPowerOn (dt : Nat) (s : State) : Out :=
  actPins s dt (gated (fun s => !s.kp.powered) fun s => { s with kp := { powered := true, testHold := s.kp.testHold } })

/-- KEEPER_POWER_ON_RESET (R176, R426): the Keeper is held in power-on reset, its pins low and every vital output ordered to its
safe level. -/
def execKeeperPowerOnReset (dt : Nat) (s : State) : Out :=
  actPins s dt (powersFollow fun s => settle (watchReady (watchKstat fun s =>
    sendGate .safeAll none (dropGates (fun m => m.isOpening) { s with kp := { powered := false, testHold := s.kp.testHold } })) s))

/-- COLD_RESET (R342): with the straps as they stand and the VDDIO levels as they are detected (R341, R432). -/
def execColdReset (dt : Nat) (pins : Pins) (levels : BitVec 12) (s : State) : Out := actPins s dt (releaseCold pins levels)

/-- COLD_RESET_ASSERT (R426). -/
def execColdResetAssert (dt : Nat) (rail : Rail) (s : State) : Out := actPins s dt (assertCold rail)

/-- RESET_N_PULSE (R432). -/
def execResetNPulse (dt : Nat) (width : Nat) (pins : Pins) (s : State) : Out := actPins s dt (watchReady (resetPulse width pins))

/-- RSTCMD_WARM (R351). -/
def execRstcmdWarm (dt : Nat) (value : Word) (pins : Pins) (s : State) : Out := crpAct s dt (writeRstcmd value pins)

/-- LOCKSTEP_MISMATCH (R342). -/
def execLockstepMismatch (dt : Nat) (pins : Pins) (s : State) : Out := crpAct s dt (warmReset 3 pins)

/-- BASIN_RESET (R343). -/
def execBasinReset (dt : Nat) (n : BasinIx) (s : State) : Out := act s dt (watchTrips (powersFollow (resetBasin n)))

/-- BARGE_RESET_CMD (R343). -/
def execBargeResetCmd (dt : Nat) (g : BargeIx) (s : State) : Out := act s dt (powersFollow (commandReset g))

/-- BHOLD_WRITE (R351). -/
def execBholdWrite (dt : Nat) (high : Bool) (value : Word) (s : State) : Out := act s dt (powersFollow (writeHolds high value))

/-- STSET_WRITE (R339). -/
def execStsetWrite (dt : Nat) (value : Word) (s : State) : Out := act s dt (loadStationTime value)

/-- STATION_TIME_TRIM (R339). -/
def execStationTimeTrim (dt : Nat) (s : State) : Out := act s dt (trim s.crp.stTime)

/-- BPWR_REQ_WRITE (R347). -/
def execBpwrReqWrite (dt : Nat) (n : BasinIx) (value : Word) (s : State) : Out := act s dt (writeBpwr n value)

/-- B1_ENTRY (R347). -/
def execB1Entry (dt : Nat) (n : BasinIx) (s : State) : Out := act s dt (enterB1 n)

/-- B1_WAKE (R347). -/
def execB1Wake (dt : Nat) (n : BasinIx) (s : State) : Out := act s dt (wakeB1 n)

/-- POWER_TRANSITION_COMPLETE (R347). -/
def execPowerTransitionComplete (dt : Nat) (n : BasinIx) (s : State) : Out := crpAct s dt (endPower n)

/-- THERMAL_CONVERSION (R349). -/
def execThermalConversion (dt : Nat) (readings : List (BitVec 12 × Bool)) (s : State) : Out := crpAct s dt (conversion readings)

/-- BOOT_VERIFY (R417). -/
def execBootVerify (dt : Nat) (firmware sig : List Byte) (s : State) : Out :=
  crpAct s dt (gated (fun s => s.crp.armed && !s.fw.up && !s.fw.recovery && bootMode s == 0) (bootStore firmware sig))

/-- MUART_RECOVERY (R417). -/
def execMuartRecovery (dt : Nat) (firmware sig : List Byte) (s : State) : Out :=
  crpAct s dt (gated (fun s => s.crp.armed && !s.fw.up && (s.fw.recovery || bootMode s == 1)) (bootReceived firmware sig))

/-- BASIN_SELF_TEST_COMPLETE (R224). -/
def execBasinSelfTestComplete (dt : Nat) (n : BasinIx) (defects : List (Fin 16 × Fin 348)) (s : State) : Out :=
  crpAct s dt (endBasinTest n defects)

/-- RESERVOIR_SELF_TEST_COMPLETE (R230). -/
def execReservoirSelfTestComplete (dt : Nat) (p : Fin 4) (defects : List (Fin 4 × Fin 348)) (s : State) : Out :=
  crpAct s dt (endReservoirTest p defects)

end Sys2Proof.Machine
end

