-- ==== Sys2Proof/Machine/Ferry.lean ====
section
/-! DEFINITION. The host interface and the Ferry (chapter 14): BAR0, mailboxes and rings, the Reservoir views, outbound accesses,
ingress and egress engines, the egress arbiter, link power, and the host-scope reset. -/

namespace Sys2Proof.Machine

/-! ### Wharf accesses made in one step (log entry 49) -/

/-- A word single of the Ferry (R368, R370). -/
def ferryTx (id : Nat) (addr : Nat) (v : Option Word) : Tx :=
  { addr := BitVec.ofNat 32 addr, write := v.isSome, size := .word, id := BitVec.ofNat 5 id, world := false, data := v.toList }

/-! ### Host memory and transfer formats (R362, R363, R369) -/

/-- Bytes that the device writes to host memory. -/
def hostWrite (a : Nat) (bs : List Byte) (s : State) : State :=
  { s with hif := { s.hif with hostMem := (bs.zipIdx).foldl (fun m b => kset m (a + b.2) (some b.1)) s.hif.hostMem } }

/-- Byte i of a word in slot form (R362). -/
def slotByte (w : Word) (i : Nat) : Byte := if i < 4 then fld w (8 * i) 8 else if i = 4 then (fld w 32 4).setWidth 8 else 0

/-- A word from 8 bytes in slot form (R362): what lies above bit 35 is ignored. -/
def slotWord (bs : List Byte) : Word := BitVec.ofNat 36 (bytesNat (bs.take 5))

/-- The host bytes of n words (R369). -/
def fmtBytes (fmt n : Nat) : Nat := match fmt with
  | 0 => 8 * n
  | 1 => 9 * n / 2
  | _ => 4 * n

/-- The words whose bytes lie wholly below byte i (R369). -/
def fmtWords (fmt i : Nat) : Nat := match fmt with
  | 0 => i / 8
  | 1 => 2 * i / 9
  | _ => i / 4

/-- The words that the bytes below byte i touch (R369). -/
def fmtTouched (fmt i : Nat) : Nat := match fmt with
  | 0 => (i + 7) / 8
  | 1 => (2 * i + 8) / 9
  | _ => (i + 3) / 4

/-- Byte i of a transfer, from its words (R369). -/
def fmtByte (fmt : Nat) (word : Nat → Word) (i : Nat) : Byte := match fmt with
  | 0 => slotByte (word (i / 8)) (i % 8)
  | 1 =>
    let j := 8 * i / 36
    let pair := (word j).toNat + 2 ^ 36 * (word (j + 1)).toNat
    BitVec.ofNat 8 (pair / 2 ^ (8 * i % 36))
  | _ => fld (word (i / 4)) (8 * (i % 4)) 8

/-- Word j of a transfer, from its host bytes (R369): LOW32 writes bits [35:32] as 0. -/
def fmtWord (fmt : Nat) (bs : List Byte) (j : Nat) : Word := match fmt with
  | 0 => slotWord (bs.drop (8 * j))
  | 1 => BitVec.ofNat 36 (bytesNat ((bs.drop (36 * j / 8)).take 6) / 2 ^ (36 * j % 8))
  | _ => BitVec.ofNat 36 (bytesNat ((bs.drop (4 * j)).take 4))

/-- A descriptor is refused (R369). -/
def descRefused (fmt len : Nat) (waddr : BitVec 32) (haddr : BitVec 64) : Bool :=
  fmt == 3 || len == 0 || (fmt == 1 && len % 8 != 0) || bitsN waddr 0 2 != 0 || bitsN haddr 0 2 != 0

/-! ### The link (R354, R355) -/

/-- The link carries traffic: it leaves L1, and its idle time starts again. -/
def touchLink (s : State) : State := { s with hif := { s.hif with inL1 := false, lastBusy := s.now } }

/-- What the L1 PM Substates capability advertises, in µs (R355): Port T_POWER_ON and Common_Mode_Restore_Time. -/
def portPowerOn : Nat := 70
def commonModeRestore : Nat := 20

/-- The reads that an ingress engine makes of a run of host bytes: of at most Max Read Request Size, none across 4 KiB (R352, R368). -/
def hostReads (s : State) (a n : Nat) : Nat → List (Nat × Nat)
  | 0 => []
  | k + 1 =>
    let m := min (min n (min 4096 (128 * 2 ^ s.hif.mrrs.toNat))) (4096 - a % 4096)
    if n = 0 then [] else (a, m) :: hostReads s (a + m) (n - m) k

/-- A completion timeout can end a request (R352). -/
def mayEnd (s : State) (how : HostEnd) : Bool := how != .timeout || !s.hif.ctoDis

/-- The link enters L1 (R355). -/
def enterL1 (s : State) : State :=
  if s.hif.l1En ∧ !s.hif.inL1 ∧ s.hif.lastBusy + max 1 s.ferry.l1idle.toNat * microsecond ≤ s.now then
    { s with hif := { s.hif with inL1 := true } }
  else s

/-- An LTR message is sent when FERRY_LTR has changed (R355). -/
def sendLtr (s : State) : State :=
  if s.hif.ltrEn ∧ s.ferry.ltr ≠ s.hif.ltrSent ∧ hostUp s then
    touchLink { s with hif := { s.hif with ltrSent := s.ferry.ltr, ltrCount := s.hif.ltrCount + 1 } }
  else s

/-- A vector held back is sent once nothing holds it (R361). -/
def flushVector (s : State) (v : Fin 64) : State :=
  if bit s.hif.pba v.val ∧ s.vectorOpen v then
    { s with hif := { s.hif with sent := vmod s.hif.sent v (· + 1), pba := s.hif.pba &&& ~~~(BitVec.ofNat 64 (2 ^ v.val)) } }
  else s

/-- Every vector that can be sent is sent. -/
def flushVectors (s : State) : State := (List.finRange 64).foldl flushVector s

/-- The size of a BAR in bytes, and whether it is prefetchable (R353): BAR0/1, BAR2/3, BAR4/5. -/
def barSize (i : Fin 3) : Nat := if i = 0 then 65536 else 8388608
def barPrefetch (i : Fin 3) : Bool := i != 0

/-- A BAR holds the bits of its base above its size. -/
def barBase (i : Fin 3) (a : BitVec 64) : BitVec 64 := a &&& ~~~(BitVec.ofNat 64 (barSize i - 1))

/-- A BAR as configuration space shows it (R353): a 64-bit memory BAR has 0b10 in bits [2:1], and bit 3 where it is prefetchable
(log entry 90). -/
def barWord (s : State) (i : Fin 3) : BitVec 64 := s.hif.bar.get i ||| 4 ||| (BitVec.ofBool (barPrefetch i)).setWidth 64 <<< 3

/-- A configuration write (R352 to R355). -/
def writeConfig (c : ConfigWrite) (s : State) : State :=
  flushVectors { s with hif := { s.hif with
    bme := c.bme, d3hot := c.d3hot, ltrEn := c.ltrEn, l1En := c.l1En, mps := c.mps
    mrrs := c.mrrs, ctoRange := c.ctoRange, ctoDis := c.ctoDis, msixEn := c.msixEn, msixMask := c.msixMask, l1ss := c.l1ss
    inL1 := s.hif.inL1 && c.l1En
    bar := c.bar.elim s.hif.bar fun b => vput s.hif.bar b.1 (barBase b.1 b.2)
    aer := s.hif.aer &&& ~~~c.aerClear } }

/-! ### BAR0 (R358 to R361) -/

/-- A mailbox's BUSY as what arrives now meets it: that of the HCLK in which it clears is still 1 (R359). -/
def mailboxBusy (s : State) (k : Fin 4) : Bool := bit s.hif.busy k.val || s.hif.clearAt.get k == some (s.now / hclkPeriod)

/-- A write or a doorbell to a busy mailbox is refused (R359). -/
def noteOvr (k : Fin 4) (s : State) : State :=
  { s with hif := { s.hif with ovr := s.hif.ovr ||| BitVec.ofNat 4 (2 ^ k.val) } }.mark .doorbell (4 + k.val)

/-- A doorbell (R359): BUSY is set, or OVR where it is already. -/
def ringDoorbell (s : State) (k : Fin 4) : State :=
  if mailboxBusy s k then noteOvr k s
  else { s with hif := { s.hif with
    busy := s.hif.busy ||| BitVec.ofNat 4 (2 ^ k.val), rungAt := vput s.hif.rungAt k (s.now / hclkPeriod) } }

/-- A write of HIF_DBELL (R359). -/
def ringDoorbells (v : BitVec 4) (s : State) : State := (ixs 4 fun k => bit v k.val).foldl ringDoorbell s

/-- A list of bytes with some replaced: beyond its end it holds zeros. -/
def overlay (old : List Byte) (x : HostBytes) : List Byte :=
  (List.range (max old.length (min 256 (x.offset + x.bytes.length)))).map fun i =>
    if x.offset ≤ i then ((x.bytes[i - x.offset]?).join).getD (old.getD i 0) else old.getD i 0

/-- FERRY_HOSTERR counts (R356, R363, R365). -/
def hostErr (s : State) : State := { s with ferry := { s.ferry with hosterr := s.ferry.hosterr + 1 } }

/-- A poisoned write is discarded, counted, and reported under AER (R356): Poisoned TLP Received is bit 12 of the Uncorrectable
Error Status (log entry 90). -/
def poisonedWrite (s : State) : State := hostErr { s with hif := { s.hif with aer := s.hif.aer ||| 0x1000 } }

/-- A TLP that fails its ECRC is dropped and reported (R356): ECRC Error is bit 19 of the status (log entry 90). -/
def dropTlp (s : State) : State := { s with hif := { s.hif with aer := s.hif.aer ||| 0x80000 } }

/-- A host write of one register (R356, R358): one that is poisoned or fails its ECRC, or whose byte enables are not all set, changes
no register. -/
def hostRegister (x : HostFlags) (f : State → State) (s : State) : State :=
  if x.ecrc then dropTlp s else if x.poisoned then poisonedWrite s else if x.be ≠ 0xF then s else f s

/-- A host write to a mailbox (R359). -/
def writeMailbox (k : Fin 4) (x : HostBytes) (s : State) : State :=
  let h := s.hif
  if x.ecrc then dropTlp s
  else if x.poisoned then poisonedWrite s
  else if mailboxBusy s k then noteOvr k s
  else { s with hif := { h with mb := vmod h.mb k fun old => overlay old x } }

/-- The number of entries of a ring (R358). -/
def ringSize (r : Ring) : Nat := if 4 ≤ r.log2n.toNat ∧ r.log2n.toNat ≤ 16 then 2 ^ r.log2n.toNat else 16

/-- Entries from index a on to index b in ring order. -/
def ringSpan (r : Ring) (a b : Nat) : Nat := (b + ringSize r - a % ringSize r) % ringSize r

/-- A host write of CI (R360): taken modulo the size, and ignored beyond PI. -/
def writeRci (i : Fin 4) (v : Dword) (s : State) : State :=
  let r := s.hif.ring.get i
  let c := bitsN v 0 16 % ringSize r
  if ringSpan r r.ci.toNat c ≤ ringSpan r r.ci.toNat r.pi.toNat then
    { s with hif := { s.hif with ring := vmod s.hif.ring i fun r => { r with ci := BitVec.ofNat 16 c } } }
  else s

/-- A host write of RCFG (R360). -/
def writeRcfg (i : Fin 4) (v : Dword) (s : State) : State :=
  let upd : Ring → Ring := fun r =>
    let r1 := if r.en then r else { r with log2n := fld v 0 5 }
    if bit v 8 then { r1 with en := true } else { r1 with en := false, pi := 0, ci := 0 }
  { s with
    hif := { s.hif with ring := vmod s.hif.ring i upd }
    ferry := { s.ferry with entry := s.ferry.entry.filter fun e => bit v 8 || e.1 != i } }

/-- The ring can take an entry (R360). -/
def ringRoom (r : Ring) : Bool := r.en && (r.pi.toNat + 1) % ringSize r != r.ci.toNat % ringSize r

/-- An entry answers a command (R380). -/
def isResponse (e : List Byte) : Bool := e.head? == some 1

/-- A ring has an entry to write and room for it (R360, R381). -/
def entryDue (s : State) (i : Fin 4) : Bool := !(s.fw.rings.get i).queue.isEmpty && ringRoom (s.hif.ring.get i)

/-! ### The egress requesters' lines (R370, R374, R376) -/

/-- A requester asks (R370): while its queue holds a descriptor; the Harbourmaster's while a ring has an entry to write (R360, log
entry 91). -/
def asks (s : State) (q : Fin 14) : Bool :=
  !(s.ferry.eq.get q).queue.isEmpty || (q == 12 && (List.finRange 4).any (entryDue s))

def State.modEq (s : State) (q : Fin 14) (f : EgReq → EgReq) : State := { s with ferry := { s.ferry with eq := vmod s.ferry.eq q f } }

/-- The start of the next XCLK, in which a line that rises now is registered (R376). -/
def nextXclk (s : State) : Nat := (xclk s + 1) * xclkPeriod s

/-- The XCLK a requester has asked without the grant, since it began (R376). -/
def askRun (s : State) (x : EgReq) : Nat := match x.askAt with
  | some a => xclk s - xclkAt s a
  | none => 0

/-- A change that may move a requester's line, which the arbiter registers at the end of the XCLK (R374): a line that rises without
the grant begins to wait, and one that falls has waited (R376). -/
def watchLine (q : Fin 14) (f : State → State) (s : State) : State :=
  let s1 := f s
  if asks s1 q = asks s q then s1
  else
    let k := xclk s
    s1.modEq q fun x =>
      let recent := x.edges.takeWhile fun e => decide (k ≤ e.1 + 2)
      let y := { x with edges := (k, asks s1 q) :: recent ++ (x.edges.drop recent.length).take 1 }
      if asks s1 q then { y with askAt := if s1.ferry.grant && s1.ferry.owner == q then x.askAt else some (nextXclk s) }
      else { y with askAt := none, waitN := x.waitN + BitVec.ofNat 48 (askRun s1 x) }

/-- A requester's line as it stood d XCLK before the end of the present one, registered (R374). -/
def lineBy (s : State) (d : Nat) (q : Fin 14) : Bool :=
  ((s.ferry.eq.get q).edges.find? fun e => decide (e.1 + d ≤ xclk s)).any fun e => e.2

/-- The grant ends with its requester's queue empty (R371). -/
def endGrant (s : State) : State :=
  if asks s s.ferry.owner then s
  else { s with ferry := { s.ferry with grant := false, parked := s.ferry.park, drawn := none } }

/-- The grant carries data for the first time since a lottery draw (R372): the bonuses change. -/
def settleBonus (s : State) : State :=
  match s.ferry.drawn with
  | none => s
  | some set =>
    let f := s.ferry
    { s with ferry := { f with
      drawn := none
      eq := Vector.ofFn fun q =>
        let x := f.eq.get q
        if q = f.owner then { x with bonus := 0 }
        else if bit set q.val ∧ x.tickets ≠ 0 then { x with bonus := satInc x.bonus } else x } }

/-- Bytes of the holder leave for host memory in one posted write (R370, R371, R373). -/
def sendData (a : Nat) (bs : List Byte) (s : State) : State :=
  let n := bs.length
  let s1 := settleBonus (touchLink (hostWrite a bs s))
  let s2 := if s1.ferry.drawMode then
      s1.modEq s1.ferry.owner fun x => { x with credit := x.credit - BitVec.ofNat 16 ((n + 63) / 64) }
    else s1
  { s2 with ferry := { s2.ferry with egprog := s2.ferry.egprog + BitVec.ofNat 36 n, qpos := s2.ferry.qpos + n } }

/-- A descriptor that some of has left. -/
def EgDesc.begun (d : EgDesc) : Bool := d.sent != 0

/-- Requester 12 may write an entry of a ring now: it holds the grant, and has begun neither a descriptor nor another ring's entry. -/
def entryTurn (s : State) (i : Fin 4) : Bool :=
  let f := s.ferry
  f.grant && f.owner == 12 && f.voidAt.isNone && f.qpos < 4096 && hostUp s && entryDue s i &&
    f.entry.all (fun e => e.1 == i) && !(f.eq.get 12).queue.head?.any EgDesc.begun

/-- The last byte of a ring's entry has left (R360): PI advances, vector r is sent; with a command's response, its mailbox may be taken
from again (R379). -/
def entryWritten (i : Fin 4) (e : List Byte) (rest : List (List Byte)) (s : State) : State :=
  { s with
    ferry := { s.ferry with entry := none }
    hif := { s.hif with ring := vmod s.hif.ring i fun r => { r with pi := BitVec.ofNat 16 ((r.pi.toNat + 1) % ringSize r) } }
    fw := { s.fw with
      rings := vmod s.fw.rings i fun x => { x with queue := rest }
      respDue := if isResponse e then vput s.fw.respDue i false else s.fw.respDue } }.msix ⟨i.val, by omega⟩

/-- The Ferry writes the next entry of a ring with the HM requester (R360), up to the quantum's end (R371). -/
def writeEntry (i : Fin 4) (s : State) : State :=
  let r := s.hif.ring.get i
  match (s.fw.rings.get i).queue with
  | e :: rest =>
    if !entryTurn s i then s
    else
      let sent := (s.ferry.entry.map fun x => x.2).getD 0
      let n := min (64 - sent) (4096 - s.ferry.qpos)
      let s1 := sendData (r.base + BitVec.ofNat 64 (64 * r.pi.toNat + sent)).toNat ((e.drop sent).take n) s
      if sent + n < 64 then { s1 with ferry := { s1.ferry with entry := some (i, sent + n) } }
      else endGrant (watchLine 12 (entryWritten i e rest) s1)
  | [] => s

/-- A read of BAR0 (R358), a DWORD at a time; mailboxes, MSI-X table and PBA included. -/
def bar0Read (s : State) (off : Nat) : Dword :=
  let h := s.hif
  if hr : 0x40 ≤ off ∧ off < 0xC0 then
    let r := h.ring.get ⟨(off - 0x40) / 0x20, by omega⟩
    match off % 0x20 with
    | 0 => fld r.base 0 32
    | 4 => fld r.base 32 32
    | 8 => r.log2n.setWidth 32 ||| (BitVec.ofBool r.en).setWidth 32 <<< 8
    | 0xC => r.pi.setWidth 32
    | 0x10 => r.ci.setWidth 32
    | _ => 0
  else if hm : 0x1000 ≤ off ∧ off < 0x1400 then
    BitVec.ofNat 32 (bytesNat (((h.mb.get ⟨(off - 0x1000) / 0x100, by omega⟩).drop (off % 0x100)).take 4))
  else if 0x8000 ≤ off ∧ off < 0x8400 then vgetN h.table ((off - 0x8000) / 4) 0
  else match off with
    | 0 => 0x7240 ||| (s.sec.loaded.step.setWidth 32) <<< 16
    | 4 => s.kp.mode.code.setWidth 32 ||| (s.kp.safecause.setWidth 32) <<< 3
    | 0x10 => fld (readyBits s) 0 32
    | 0x14 => fld (readyBits s) 32 32
    | 0x18 => fld (readyBits s) 64 32
    | 0x24 => h.busy.setWidth 32 ||| (h.ovr.setWidth 32) <<< 4
    | 0x9000 => fld h.pba 0 32
    | 0x9004 => fld h.pba 32 32
    | _ => 0

/-- A write of a BAR0 register (R358): other offsets ignore it. -/
def bar0Register (off : Nat) (v : Dword) (s : State) : State :=
  let h := s.hif
  if hr : 0x40 ≤ off ∧ off < 0xC0 then
    let i : Fin 4 := ⟨(off - 0x40) / 0x20, by omega⟩
    let base (f : BitVec 64 → BitVec 64) : State :=
      { s with hif := { h with ring := vmod h.ring i fun r => if r.en then r else { r with base := f r.base } } }
    match off % 0x20 with
    | 0 => base fun b => (fld b 32 32) ++ (v &&& 0xFFFFF000)
    | 4 => base fun b => v ++ fld b 0 32
    | 8 => writeRcfg i v s
    | 0x10 => writeRci i v s
    | _ => s
  else if 0x8000 ≤ off ∧ off < 0x8400 then
    flushVectors { s with hif := { h with table := vmodN h.table ((off - 0x8000) / 4) fun _ => v } }
  else match off with
    | 0x20 => ringDoorbells (fld v 0 4) s
    | 0x24 => { s with hif := { h with ovr := h.ovr &&& ~~~(fld (s.w1c .doorbell (sameCycle hclkPeriod s) (low 36 v)) 4 4) } }
    | _ => s

/-- A host write of a DWORD of BAR0 (R356, R358): the mailbox areas accept any byte enables. -/
def bar0Write (off : Nat) (x : HostFlags) (v : Dword) (s : State) : State :=
  if hm : 0x1000 ≤ off ∧ off < 0x1400 then
    writeMailbox ⟨(off - 0x1000) / 0x100, by omega⟩
      { offset := off % 0x100, bytes := (List.range 4).map fun i => if bit x.be i then some (fld v (8 * i) 8) else none
        poisoned := x.poisoned, ecrc := x.ecrc } s
  else hostRegister x (bar0Register off v) s

/-! ### The Reservoir views (R362 to R365) -/

/-- Bit b of Reservoir word w, as a byte offset and a bit of that byte, in BAR2 and BAR4 (R362, R363). -/
def viewBit (packed : Bool) (w b : Nat) : Nat × Nat :=
  if packed then
    let i := 36 * (w % 8) + b
    (36 * (w / 8) + i / 8, i % 8)
  else (8 * w + b / 8, b % 8)

/-- What a host write carries for a bit of a word: nothing where the byte is not enabled. -/
def carried (packed : Bool) (x : HostBytes) (w b : Nat) : Option Bool :=
  let p := viewBit packed w b
  if p.1 < x.offset then none else ((x.bytes[p.1 - x.offset]?).join).map fun y => bit y p.2

/-- The words of the view that a range of bytes touches. -/
def viewWords (packed : Bool) (x : HostBytes) : List Nat :=
  let last := x.offset + x.bytes.length - 1
  if x.bytes.isEmpty then []
  else
    let lo := if packed then x.offset / 36 * 8 + 8 * (x.offset % 36) / 36 else x.offset / 8
    let hi := if packed then last / 36 * 8 + min 7 ((8 * (last % 36) + 7) / 36) else last / 8
    (List.range (hi + 1 - lo)).map (· + lo)

/-- The Wharf transaction of a host write or read of some nonets of a Reservoir word (R237, R365). -/
def viewTx (w : Nat) (write : Bool) (nonets : List Nat) (v : Word) : Tx :=
  { addr := BitVec.ofNat 32 (0x10000000 + 4 * w), write := write
    size := .row (BitVec.ofNat 32 (nonets.foldl (fun m j => m + 2 ^ (4 * (w % 8) + j)) 0))
    id := 0, world := false, data := (List.range 8).map fun i => if i = w % 8 then v else 0 }

/-- Wharf transactions of FERRY made one after the other in one command (log entry 49): how many have been made, and the state.
None: one of them could not be granted, and the command's time has not come. -/
abbrev FerryRun := Option (Nat × State)

/-- The state after a run that began in s: where its time has not come, only the hold is noted (R248). -/
def FerryRun.over (s : State) (r : FerryRun) (f : State → State) : State := r.elim (holdDirect 13 s) fun x => f x.2

/-- The next transaction of a run: its response, none where the run had ended. -/
def FerryRun.access (t : Tx) (r : FerryRun) : Option WharfResp × FerryRun :=
  match r with
  | none => (none, none)
  | some (j, s) =>
    match directTx performMemory 13 t j s with
    | (some x, s1) => (some x, some (j + 1, s1))
    | (none, _) => (none, none)

/-- A FERRY access of the views; a status other than OK counts in FERRY_HOSTERR (R365). -/
def viewAccess (t : Tx) (r : FerryRun) : List Word × FerryRun :=
  match r.access t with
  | (some x, r1) => (x.data, if x.status = .ok then r1 else r1.map fun y => (y.1, hostErr y.2))
  | (none, r1) => ([], r1)

/-- One word of a host write (R364): whole nonets are written with nonet enables, partly covered ones are read and merged. -/
def viewWriteWord (packed : Bool) (x : HostBytes) (r0 : FerryRun) (w : Nat) : FerryRun :=
  let bitsOf (j : Nat) : List (Option Bool) := (List.range 9).map fun b => carried packed x w (9 * j + b)
  let full := (List.range 4).filter fun j => (bitsOf j).all Option.isSome
  let part := (List.range 4).filter fun j => (bitsOf j).any Option.isSome && !((bitsOf j).all Option.isSome)
  let value (old : Word) : Word := BitVec.ofNat 36 (((List.range 36).map fun b =>
    if (carried packed x w b).getD (bit old b) then 2 ^ b else 0).foldl (· + ·) 0)
  let r1 := if full.isEmpty then r0 else (viewAccess (viewTx w true full (value 0)) r0).2
  if part.isEmpty then r1
  else
    let r := viewAccess (viewTx w false [0, 1, 2, 3] 0) r1
    (viewAccess (viewTx w true part (value (r.1.getD (w % 8) 0))) r.2).2

/-- The host gets the bytes that a read of a view asked for (R362, R363, R365): those that no word carries read 0. -/
def returnBytes (packed : Bool) (x : HostBytes) (ws : List (Nat × Word)) (s : State) : State :=
  let carries (i : Nat) (p : Nat × Word) : Byte :=
    BitVec.ofNat 8 ((List.range 36).map fun b => if (viewBit packed p.1 b).1 = i ∧ bit p.2 b then 2 ^ (viewBit packed p.1 b).2 else 0).sum
  { s with hif := { s.hif with
    hostRead := (List.range x.bytes.length).map fun i => ws.foldl (fun y p => y ||| carries (x.offset + i) p) 0 } }

/-- A host write to a view (R364). -/
def viewWrite (packed : Bool) (x : HostBytes) (s : State) : State :=
  FerryRun.over s ((viewWords packed x).foldl (viewWriteWord packed x) (some (0, s))) id

/-- A host read of a view (R365). -/
def viewRead (packed : Bool) (x : HostBytes) (s : State) : State :=
  let step (r : List (Nat × Word) × FerryRun) (w : Nat) : List (Nat × Word) × FerryRun :=
    let a := viewAccess (viewTx w false [0, 1, 2, 3] 0) r.2
    (r.1 ++ [(w, a.1.getD (w % 8) 0)], a.2)
  let r := (viewWords packed x).foldl step ([], some (0, s))
  FerryRun.over s r.2 (returnBytes packed x r.1)

/-- A host access to a view (R356, R362, R363, R365). -/
def viewHost (packed write : Bool) (x : HostBytes) (s : State) : State :=
  if x.ecrc then dropTlp s
  else if write ∧ x.poisoned then poisonedWrite s
  else if (packed ∧ 0x480000 ≤ x.offset) ∨ !reservoirReady s then hostErr (if write then s else returnBytes packed x [] s)
  else if write then viewWrite packed x s else viewRead packed x s

/-! ### Outbound accesses (R366, R367) -/

/-- What AER reports of a failed request (R352): a poisoned completion is bit 12, a timeout bit 14 (log entry 90). -/
def aerOf : HostEnd → BitVec 32
  | .poisoned => 0x1000
  | .timeout => 0x4000
  | _ => 0

/-- A failed request is reported under AER. -/
def noteAer (how : HostEnd) (s : State) : State := { s with hif := { s.hif with aer := s.hif.aer ||| aerOf how } }

/-- A PCIO read ends with a failure (R367). -/
def pcioFail (p : PcioReq) (kind : BitVec 2) (s : State) : State := respond p.req .refused [] (notePcioError p.req kind s)

/-- The oldest PCIO read that the host has not answered, with the accesses before and after it. -/
def oldestRead : List PcioReq → Option (List PcioReq × PcioReq × List PcioReq)
  | [] => none
  | p :: rest => if !p.req.tx.write then some ([], p, rest) else (oldestRead rest).map fun x => (p :: x.1, x.2)

/-- The oldest PCIO read fails (R367). -/
def failRead (kind : BitVec 2) (s : State) : State :=
  match oldestRead s.wharf.pcio with
  | some (before, p, after) => pcioFail p kind { s with wharf := { s.wharf with pcio := before ++ after } }
  | none => s

/-- The oldest queued PCIO access is made at the host (R366): a write's data leaves, a read's data arrives. While the host is out of
reach the writes wait, and the oldest read fails (R354, R367). -/
def pcioGo (data : List Word) (s : State) : State :=
  if !hostUp s then failRead 0 s
  else match s.wharf.pcio with
  | p :: rest =>
    let s1 := { s with wharf := { s.wharf with pcio := rest } }
    if p.req.tx.write then
      let ws := (List.range p.words).filter fun j => (List.range 4).all fun i => txEnabled p.req.tx (4 * j + i)
      touchLink (ws.foldl (fun s j =>
        hostWrite (p.haddr.toNat + 8 * j) ((List.range 8).map (slotByte (p.req.tx.data.getD j 0))) s) s1)
    else touchLink (respond p.req .ok ((List.range p.words).map fun j => data.getD j 0) s1)
  | [] => s

/-- The oldest PCIO read fails at the host (R367). -/
def pcioEndFail (kind : HostEnd) (s : State) : State :=
  if kind = .ok ∨ !mayEnd s kind ∨ (oldestRead s.wharf.pcio).isNone then s else noteAer kind (failRead (pcioKind kind) s)

/-! ### Ingress (R368, R369) -/

/-- What an ingress engine signals at DONE or ERR (R368): source 52 + e in a barge, and vector 10 + e. -/
def igSignal (e : Fin 4) (barge : BitVec 6) (ben men : Bool) (s : State) : State :=
  let s1 := match bargeIx barge.toNat with
    | some g => if ben then s.pend g ⟨52 + e.val, by omega⟩ else s
    | none => s
  if men then s1.msix ⟨10 + e.val, by omega⟩ else s1

/-- IG_CTL.GO (R368, R369, R377): ERR where the engine is busy or the descriptor is refused. -/
def igStart (e : Fin 4) (s : State) : State :=
  let x := s.ferry.ig.get e
  let put (f : Ingress → Ingress) : State := { s with ferry := { s.ferry with ig := vmod s.ferry.ig e f } }
  if x.busy ∨ descRefused x.fmt.toNat x.len.toNat x.waddr x.haddr then
    igSignal e x.barge x.ben x.men ((put fun x => { x with err := true }).mark (.ingress e) 25)
  else put fun x => { x with
    busy := true, run := some (x.waddr, x.len.toNat, x.fmt), runBarge := x.barge, runBen := x.ben, runMen := x.men }

/-- Words written in turn as FERRY with an ID, up to the first status other than OK; whether all were written. -/
def writeRun (id addr : Nat) : List Word → FerryRun → Bool × FerryRun
  | [], r => (true, r)
  | w :: rest, r =>
    match r.access (ferryTx id addr (some w)) with
    | (some x, r1) => if x.status = .ok then writeRun id (addr + 4) rest r1 else (false, r1)
    | (none, r1) => (false, r1)

/-- An ingress engine ends (R368). -/
def igFinish (e : Fin 4) (ok : Bool) (s : State) : State :=
  let x := s.ferry.ig.get e
  let s1 := State.mark (.ingress e) (if ok then 24 else 25) { s with ferry := { s.ferry with ig := vmod s.ferry.ig e fun x => { x with
    busy := false, run := none, done := x.done || ok, err := x.err || !ok } } }
  igSignal e x.runBarge x.runBen x.runMen s1

/-- The host's data has arrived (R368): what arrived is written, and the engine ends with DONE or ERR. -/
def igEnd (e : Fin 4) (data : List Byte) (how : HostEnd) (s : State) : State :=
  match (s.ferry.ig.get e).run with
  | some (waddr, len, fmt) =>
    let f := fmt.toNat
    let have' := min len (fmtWords f data.length)
    if !hostUp s ∨ !mayEnd s how ∨ (how = .ok ∧ have' < len) then s
    else
      let r := writeRun (1 + e.val) waddr.toNat ((List.range have').map (fmtWord f data)) (some (0, s))
      FerryRun.over s r.2 fun s => noteAer how (touchLink (igFinish e (r.1 && how == .ok) s))
  | none => s

/-! ### Egress (R370 to R376) -/

/-- EQ_CTL.PUSH (R369, R370, R377). -/
def eqPushDesc (q : Fin 14) (s : State) : State :=
  let x := s.ferry.eq.get q
  if descRefused x.fmt.toNat x.len.toNat x.waddr x.haddr then (s.modEq q fun x => { x with failf := true }).mark (.egress q) 5
  else if 8 ≤ x.queue.length then (s.modEq q fun x => { x with full := true }).mark (.egress q) 4
  else watchLine q (fun s => s.modEq q fun x => { x with
    queue := x.queue ++ [{ haddr := x.haddr, waddr := x.waddr, len := x.len.toNat, fmt := x.fmt, stream := x.stream && decide (12 ≤ q.val) }] }) s

/-- One LFSR step (R372). -/
def lfsrStep (l : BitVec 32) : BitVec 32 :=
  (l <<< 1) ||| (BitVec.ofBool (bit l 31 ^^ bit l 21 ^^ bit l 1 ^^ bit l 0)).setWidth 32

/-- The LFSR's state in the present XCLK (R372). -/
def lfsrNow (s : State) : BitVec 32 :=
  (lfsrStep)^[s.now / xclkPeriod s - s.ferry.lfsrAt / xclkPeriod s] s.ferry.lfsr

/-- A requester's weight in a lottery draw (R372). -/
def effTickets (x : EgReq) : Nat := if x.tickets = 0 then 0 else x.tickets.toNat + x.bonus.toNat

/-- The requesters that a draw considers, in index order: those whose lines were registered two XCLK ago (R374). -/
def asking (s : State) : List (Fin 14) := ixs 14 (lineBy s 2)

/-- The LFSR's state in the XCLK in which a draw that takes effect now is made (R372, R374). -/
def lfsrDrawn (s : State) : BitVec 32 :=
  (lfsrStep)^[s.now / xclkPeriod s - 1 - s.ferry.lfsrAt / xclkPeriod s] s.ferry.lfsr

/-- The first of some requesters whose running weight passes v (R372). -/
def lotteryFind (eff : Fin 14 → Nat) : List (Fin 14) → Nat → Option (Fin 14)
  | [], _ => none
  | q :: rest, v => if v < eff q then some q else lotteryFind eff rest (v - eff q)

/-- A lottery draw (R372). -/
def lotteryDraw (s : State) : Option (Fin 14) :=
  let eff (q : Fin 14) : Nat := effTickets (s.ferry.eq.get q)
  let total := ((asking s).map eff).foldl (· + ·) 0
  if total = 0 then
    match (asking s).find? fun q => s.ferry.owner.val < q.val with
    | some q => some q
    | none => (asking s).head?
  else lotteryFind eff (asking s) ((lfsrDrawn s).toNat * total / 2 ^ 32)

/-- A credit draw (R373): the greatest CREDIT, ties to the lowest index. -/
def creditDraw (s : State) : Option (Fin 14) :=
  (asking s).foldl (fun best q =>
    match best with
    | none => some q
    | some b => if (s.ferry.eq.get b).credit.toInt < (s.ferry.eq.get q).credit.toInt then some q else some b) none

/-- A requester takes the grant (R371, R376): a new quantum begins. -/
def grantTo (q : Fin 14) (drawn : Option (BitVec 14)) (s : State) : State :=
  let f := s.ferry
  let s1 := if f.grant ∧ f.owner ≠ q ∧ asks s f.owner then s.modEq f.owner fun x => { x with askAt := some s.now } else s
  let s2 := s1.modEq q fun x =>
    let run := askRun s x
    { x with
      grants := x.grants + 1, waitN := x.waitN + BitVec.ofNat 48 run, askAt := none
      lwait := if x.lwait.toNat < run then BitVec.ofNat 32 (min run 0xFFFFFFFF) else x.lwait }
  { s2 with ferry := { s2.ferry with owner := q, grant := true, parked := false, qpos := 0, drawn := drawn, voidAt := none } }

/-- A void grant (R374): its requester's queue emptied when the draw was made. It lasts one XCLK and changes no counter. -/
def voidTo (q : Fin 14) (s : State) : State :=
  let f := s.ferry
  let s1 := if f.grant ∧ f.owner ≠ q ∧ asks s f.owner then s.modEq f.owner fun x => { x with askAt := some s.now } else s
  { s1 with ferry := { s1.ferry with owner := q, grant := true, parked := false, qpos := 0, drawn := none, voidAt := some (xclk s) } }

/-- A draw among the requesters that it considers (R371 to R374), in the mode of this XCLK (R373). -/
def draw (s0 : State) : State :=
  let s := { s0 with ferry := { s0.ferry with drawMode := s0.ferry.credMode } }
  let who := if s.ferry.credMode then creditDraw s else lotteryDraw s
  match who with
  | some q =>
    if asks s q then grantTo q (if s.ferry.credMode then none else some (bitsWhere 14 14 (lineBy s 2))) s else voidTo q s
  | none => s

/-- The arbiter decides (R371, R374): while a quantum or a void grant lasts, nothing; at a quantum's end a new quantum or a draw,
after a void grant a draw; without a grant, a parked requester that asks alone resumes, and otherwise a draw is made. -/
def egressArbitrate (s : State) : State :=
  let f := s.ferry
  let others (d : Nat) : Bool := (ixs 14 (lineBy s d)).any fun q => q != f.owner
  match f.voidAt with
  | some k =>
    if k = xclk s then s
    else
      let waits := asks s f.owner
      draw { s.modEq f.owner (fun x => { x with askAt := if waits then some s.now else none }) with
        ferry := { (s.modEq f.owner fun x => { x with askAt := if waits then some s.now else none }).ferry with
          grant := false, voidAt := none } }
  | none =>
    if f.grant then
      if f.qpos < 4096 then s
      else if others 2 then draw s
      else { s with ferry := { f with qpos := 0 } }
    else if f.parked ∧ asks s f.owner ∧ lineBy s 1 f.owner ∧ !others 1 then grantTo f.owner none s
    else draw s

/-- The words of a stream FIFO that a requester draws on (R370). -/
def streamOf (s : State) (q : Fin 14) : List Word := if q = 12 then s.ferry.strm else s.ferry.trace
def setStream (q : Fin 14) (ws : List Word) (s : State) : State :=
  { s with ferry := if q = 12 then { s.ferry with strm := ws } else { s.ferry with trace := ws } }

/-- The host bytes of a descriptor. -/
def EgDesc.size (d : EgDesc) : Nat := d.own.elim (fmtBytes d.fmt.toNat d.len) fun x => x.bytes.length

/-- The bytes of the next posted write (R370, R371): at most Max Payload Size, not across 4 KiB, not past the quantum, the
descriptor, or the words a stream holds. -/
def chunkSize (s : State) (q : Fin 14) (d : EgDesc) : Nat :=
  let f := d.fmt.toNat
  let mps := min 512 (128 * 2 ^ s.hif.mps.toNat)
  let left := d.size - d.sent
  let page := 4096 - (d.haddr.toNat + d.sent) % 4096
  let held := if d.stream then fmtBytes f (fmtWords f d.sent + (streamOf s q).length) - d.sent else left
  min (min mps (min left page)) (min (4096 - s.ferry.qpos) held)

/-- Words read in turn as FERRY with ID 5; nothing at the first status other than OK (R370). -/
def readRun (addr : Nat) : Nat → FerryRun → Option (List Word) × FerryRun
  | 0, r => (some [], r)
  | n + 1, r =>
    match r.access (ferryTx 5 addr none) with
    | (some x, r1) =>
      if x.status = .ok then
        let t := readRun (addr + 4) n r1
        (t.1.map fun ws => x.data.headD 0 :: ws, t.2)
      else (none, r1)
    | (none, r1) => (none, r1)

/-- How a transfer of the Harbourmaster's ended is kept for the command that waits for it. -/
def noteEnd (d : EgDesc) (ok : Bool) (s : State) : State :=
  match d.own with
  | some x => { s with ferry := { s.ferry with ownEnds := s.ferry.ownEnds ++ [(x.number, if ok then some x.bytes.length else none)] } }
  | none => s

/-- The front descriptor of a requester fails (R370, R375). -/
def failFront (q : Fin 14) (s : State) : State :=
  match (s.ferry.eq.get q).queue with
  | d :: rest =>
    (noteEnd d false (watchLine q (fun s => s.modEq q fun x => { x with queue := rest, fails := x.fails + 1, failf := true }) s)).mark
      (.egress q) 5
  | [] => s

/-- The next n bytes of a descriptor, and the words of it that are held, leave for host memory (R370, R371, R373). -/
def sendBytes (q : Fin 14) (d : EgDesc) (bs : List Byte) (held : List Word) (s : State) : State :=
  let s1 := sendData (d.haddr.toNat + d.sent) bs s
  let sent := d.sent + bs.length
  if sent < d.size then s1.modEq q fun x => { x with queue := { d with sent := sent, held := held } :: x.queue.tail }
  else
    let s2 := watchLine q (fun s => s.modEq q fun x => { x with queue := x.queue.tail, done := x.done + 1 }) s1
    endGrant (noteEnd d true { s2 with ferry := { s2.ferry with sentAt := some (xclk s) } })

/-- The engine sends the next posted write of the holder's descriptor (R370, R371, R375). -/
def egressSend (s : State) : State :=
  let q := s.ferry.owner
  match (s.ferry.eq.get q).queue with
  | d :: _ =>
    let n := chunkSize s q d
    if !s.ferry.grant ∨ s.ferry.voidAt.isSome ∨ s.ferry.entry.isSome ∨ !hostUp s ∨ n = 0 then s
    else
      let f := d.fmt.toNat
      let first := fmtWords f d.sent
      let count := fmtTouched f (d.sent + n) - first
      let cut := fmtWords f (d.sent + n) - first
      let bytes (ws : List Word) : List Byte := (List.range n).map fun i => fmtByte f (fun j => ws.getD (j - first) 0) (d.sent + i)
      match d.own with
      | some x => sendBytes q d ((x.bytes.drop d.sent).take n) [] s
      | none =>
        if d.stream then
          let ws := streamOf s q
          sendBytes q d (bytes ws) [] (setStream q (ws.drop cut) s)
        else
          match readRun (d.waddr.toNat + 4 * (first + d.held.length)) (count - d.held.length) (some (0, s)) with
          | (_, none) => holdDirect 13 s
          | (some got, some (_, s1)) => sendBytes q d (bytes (d.held ++ got)) ((d.held ++ got).drop cut) s1
          | (none, some (_, s1)) => endGrant ((failFront q s1).msix 14)
  | [] => if s.ferry.grant ∧ s.ferry.voidAt.isNone then endGrant s else s

/-- A credit window of 4,096 XCLK begins (R373): once in each, in the mode of the latest draw. -/
def refill (s : State) : State :=
  let f := { s.ferry with window := xclk s / 4096 }
  if xclk s / 4096 ≤ s.ferry.window then s
  else if s.ferry.drawMode then { s with ferry := { f with eq := f.eq.map fun x => { x with credit := BitVec.ofNat 16 (16 * x.share.toNat) } } }
  else { s with ferry := f }

/-- FERRY_EGCTL.ERST (R375): a descriptor whose last write left in its XCLK has completed, and none is failed. -/
def egressReset (s : State) : State :=
  let q := s.ferry.owner
  let s1 := if s.ferry.grant then
      let s2 := if s.ferry.sentAt ≠ some (xclk s) then failFront q s else s
      let s3 := if 12 ≤ q.val then setStream q [] s2 else s2
      let waits := asks s3 q
      s3.modEq q fun x => { x with askAt := if waits then some s.now else none }
    else s
  { s1 with ferry := { s1.ferry with
    grant := false, parked := false, drawn := none, voidAt := none, entry := none, egrst := satInc s1.ferry.egrst } }.msix 14

/-- A write of FERRY_STRM (R370, R377). -/
def strmWrite (v : Word) (s : State) : State :=
  if s.ferry.strm.length < 256 then { s with ferry := { s.ferry with strm := s.ferry.strm ++ [v] } }
  else { s with ferry := { s.ferry with strmdrop := satInc s.ferry.strmdrop } }

/-! ### Host-scope reset (R343, R357, R387, R395, R405) -/

/-- A word that an interrupted ingress transfer may have moved (R357): whether it was, and what it holds, is free. -/
def mayWrite (e : Fin 4) (waddr : BitVec 32) (s : State) (j : Nat) : State :=
  if Config.freeChoice s.freeCtr then
    (FerryRun.access (ferryTx (1 + e.val) (waddr.toNat + 4 * j) (some (Config.freeWord s.freeCtr))) (some (j, s.free))).2.elim s.free
      fun r => r.2
  else s.free

/-- An ingress engine stops without completion (R357). -/
def stopIngress (s : State) (e : Fin 4) : State :=
  let s1 := match (s.ferry.ig.get e).run with
    | some (waddr, len, _) => (List.range len).foldl (mayWrite e waddr) s
    | none => s
  { s1 with ferry := { s1.ferry with ig := vmod s1.ferry.ig e fun x => { x with busy := false, run := none } } }

/-- The firmware after a host-scope reset (R383, R387, R395, R405): no session, every epoch 1, every tolerance 0. -/
def Firmware.hostScope (f : Firmware) : Firmware :=
  { f with
    session := none, slot := Vector.replicate 4 none, respDue := Vector.replicate 4 false
    rings := Vector.replicate 4 {}, route := Vector.replicate 16 0
    epBasin := Vector.replicate 12 1, epBarge := Vector.replicate 48 1, epWeir := Vector.replicate 384 1
    epPwm := Vector.replicate 192 1, epFi := Vector.replicate 128 1, epFo := Vector.replicate 128 1
    epLink := Vector.replicate 16 1, epTb := Vector.replicate 16 1, epBall := Vector.replicate 32 1
    latTol := Vector.replicate 13 0 }

/-- A host-scope reset (R357). -/
def hostScopeReset (s : State) : State :=
  let s1 := ((List.finRange 4).foldl stopIngress s).dropTx 13 fun _ => true
  let f := s1.ferry
  { s1 with
    fw := s1.fw.hostScope
    hif := { s1.hif with busy := 0, ovr := 0, mb := Vector.replicate 4 [], ring := Vector.replicate 4 {}, pba := 0 }
    ferry := { f with
      credMode := true, grant := false, parked := false, qpos := 0, drawn := none, voidAt := none, entry := none, ownEnds := []
      win := f.win.map fun w => { w with en := false }
      eq := f.eq.map fun x => { x with
        queue := [], edges := [], bonus := 0, credit := 0, askAt := none, waitN := x.waitN + BitVec.ofNat 48 (askRun s1 x) } } }

/-- A Function Level Reset (R357): a host-scope reset; configuration space follows the PCI Express specification. -/
def flrReset (s : State) : State :=
  let s1 := hostScopeReset s
  { s1 with hif := { s1.hif with
    bme := false, d3hot := false, ltrEn := false, mrrs := 2, ctoRange := 0, ctoDis := false, msixEn := false, msixMask := false
    table := ({} : Hif).table, bar := Vector.replicate 3 0 } }

/-- PERST_N (R342, R343, R353, R357): the link and configuration space are reset too, and the Subsystem IDs are read anew. -/
def perstReset (s : State) : State :=
  let s1 := flrReset s
  let store := s1.hif.subsysStore.getD (0x1F5C, 0x7240)
  { s1 with hif := { s1.hif with l1En := false, l1ss := 0, inL1 := false, mps := 0, aer := 0, ltrSent := 0, subsys := store } }

/-- The configuration header (R353): each field by its byte offset in a type 0 header of PCI Express, with its width in bytes. -/
def configHeader (s : State) : List (Nat × Nat × Nat) :=
  [(0x00, 2, 0x1F5C), (0x02, 2, 0x7240), (0x08, 1, s.sec.loaded.step.toNat), (0x09, 3, 0x118000),
    (0x10, 8, (barWord s 0).toNat), (0x18, 8, (barWord s 1).toNat), (0x20, 8, (barWord s 2).toNat),
    (0x2C, 2, s.hif.subsys.1.toNat), (0x2E, 2, s.hif.subsys.2.toNat)]

/-- What two capabilities of configuration space show (R352): the Device Serial Number, from the fuses, and AER's Uncorrectable
Error Status. -/
def deviceSerial (s : State) : BitVec 64 := s.sec.loaded.serial
def aerStatus (s : State) : BitVec 32 := s.hif.aer

/-! ### Registers (R377) -/

/-- EQ_WAIT with a run still going on (R376). -/
def waitNow (s : State) (x : EgReq) : BitVec 48 := x.waitN + BitVec.ofNat 48 (askRun s x)

/-- A read of an egress requester's registers (R377). -/
def eqRead (s : State) (q : Fin 14) (k : Nat) : Option Word :=
  let x := s.ferry.eq.get q
  match k with
  | 0 => some (put36 0 (fld x.haddr 0 32))
  | 1 => some (put36 0 (fld x.haddr 32 32))
  | 2 => some (put36 0 x.waddr)
  | 3 => some (put36 0 x.len ||| put36 20 x.fmt ||| bit36 22 (x.stream && decide (12 ≤ q.val)))
  | 4 => some (at36 0 x.queue.length ||| bit36 4 x.full ||| bit36 5 x.failf ||| bit36 6 (asks s q) ||| put36 7 x.done)
  | 5 => some (put36 0 x.tickets ||| put36 8 x.share ||| put36 16 x.bonus)
  | 6 => some (put36 0 x.credit)
  | 7 => some (put36 0 x.grants)
  | 8 => some (low 36 (waitNow s x))
  | 9 => some (put36 0 (fld (waitNow s x) 36 12))
  | 10 => some (put36 0 x.lwait)
  | 11 => some x.fails
  | _ => none

/-- A read of an ingress engine's registers (R377). -/
def igRead (x : Ingress) (k : Nat) : Word :=
  match k with
  | 0 => put36 0 (fld x.haddr 0 32)
  | 1 => put36 0 (fld x.haddr 32 32)
  | 2 => put36 0 x.waddr
  | _ => put36 0 x.len ||| put36 20 x.fmt ||| bit36 23 x.busy ||| bit36 24 x.done ||| bit36 25 x.err ||| put36 26 x.barge |||
      bit36 32 x.ben ||| bit36 33 x.men

/-- A read of the Ferry's registers; none where unmapped (R377). -/
def ferryRead (s : State) (off : Nat) : Option Word :=
  let f := s.ferry
  if h : 0x10 ≤ off ∧ off < 0x20 then
    let w := f.win.get ⟨(off - 0x10) / 2, by omega⟩
    some (if off % 2 = 0 then w.baseL else put36 0 w.baseH ||| bit36 16 w.en)
  else if h : 0x20 ≤ off ∧ off < 0x30 then some (igRead (f.ig.get ⟨(off - 0x20) / 4, by omega⟩) (off % 4))
  else if h : 0x40 ≤ off ∧ off < 0x120 then eqRead s ⟨(off - 0x40) / 16, by omega⟩ (off % 16)
  else match off with
    | 0x00 => some 0x017240
    | 0x01 => some (bit36 0 f.credMode ||| bit36 1 f.park)
    | 0x02 => some (put36 0 (lfsrNow s))
    | 0x03 => some (at36 0 f.owner.val ||| bit36 4 f.grant ||| bit36 5 f.parked ||| at36 6 f.qpos)
    | 0x04 => some f.egprog
    | 0x05 => some 0
    | 0x06 => some 0
    | 0x07 => some (put36 0 f.egrst ||| put36 18 f.strmdrop)
    | 0x08 => some (put36 0 f.ltr)
    | 0x09 => some (put36 0 f.l1idle)
    | 0x0A => some (put36 0 f.errInit ||| bit36 4 f.errWr ||| put36 5 f.errKind ||| put36 7 f.errCnt)
    | 0x0B => some f.hosterr
    | _ => none

/-- A write of an egress requester's registers (R377). -/
def eqWrite (q : Fin 14) (k : Nat) (v : Word) (s : State) : State :=
  match k with
  | 0 => s.modEq q fun x => { x with haddr := (fld x.haddr 32 32) ++ (fld v 0 32) }
  | 1 => s.modEq q fun x => { x with haddr := (fld v 0 32) ++ (fld x.haddr 0 32) }
  | 2 => s.modEq q fun x => { x with waddr := fld v 0 32 }
  | 3 =>
    let s1 := s.modEq q fun x => { x with len := fld v 0 20, fmt := fld v 20 2, stream := bit v 22 && decide (12 ≤ q.val) }
    if bit v 23 then eqPushDesc q s1 else s1
  | 4 =>
    let m := s.w1c (.egress q) (sameCycle (xclkPeriod s) s) v
    s.modEq q fun x => { x with full := x.full && !bit m 4, failf := x.failf && !bit m 5 }
  | 5 => s.modEq q fun x => { x with tickets := fld v 0 8, share := fld v 8 8 }
  | _ => s

/-- A write of an ingress engine's registers (R377). -/
def igWrite (e : Fin 4) (k : Nat) (v : Word) (s : State) : State :=
  let put (f : Ingress → Ingress) : State := { s with ferry := { s.ferry with ig := vmod s.ferry.ig e f } }
  match k with
  | 0 => put fun x => { x with haddr := (fld x.haddr 32 32) ++ (fld v 0 32) }
  | 1 => put fun x => { x with haddr := (fld v 0 32) ++ (fld x.haddr 0 32) }
  | 2 => put fun x => { x with waddr := fld v 0 32 }
  | _ =>
    let m := s.w1c (.ingress e) (sameCycle (xclkPeriod s) s) v
    let s1 := put fun x => { x with
      len := fld v 0 20, fmt := fld v 20 2, barge := fld v 26 6, ben := bit v 32, men := bit v 33
      done := x.done && !bit m 24, err := x.err && !bit m 25 }
    if bit v 22 then igStart e s1 else s1

/-- A write of the Ferry's registers; none where unmapped (R377). -/
def ferryWrite (off : Nat) (v : Word) (s : State) : Option State :=
  let f := s.ferry
  if (ferryRead s off).isNone then none
  else if h : 0x10 ≤ off ∧ off < 0x20 then
    some { s with ferry := { f with win := vmod f.win ⟨(off - 0x10) / 2, by omega⟩ fun w =>
      if off % 2 = 0 then { w with baseL := v } else { w with baseH := fld v 0 16, en := bit v 16 } } }
  else if h : 0x20 ≤ off ∧ off < 0x30 then some (igWrite ⟨(off - 0x20) / 4, by omega⟩ (off % 4) v s)
  else if h : 0x40 ≤ off ∧ off < 0x120 then some (eqWrite ⟨(off - 0x40) / 16, by omega⟩ (off % 16) v s)
  else some (match off with
    | 0x01 => { s with ferry := { f with credMode := bit v 0, park := bit v 1 } }
    | 0x02 => if fld v 0 32 = 0 then s else { s with ferry := { f with lfsr := fld v 0 32, lfsrAt := s.now } }
    | 0x05 => if bit v 0 then egressReset s else s
    | 0x06 => strmWrite v s
    | 0x08 => { s with ferry := { f with ltr := fld v 0 14 } }
    | 0x09 => { s with ferry := { f with l1idle := fld v 0 8 } }
    | _ => s)

/-! ### The commands -/

/-- HIF_DBELL_WRITE (R359). -/
def execHifDbellWrite (dt : Nat) (value : Dword) (tlp : HostFlags) (s : State) : Out :=
  act s dt (hostRegister tlp (ringDoorbells (fld value 0 4)))

/-- MAILBOX_WRITE (R359). -/
def execMailboxWrite (dt : Nat) (k : Fin 4) (data : HostBytes) (s : State) : Out := act s dt (writeMailbox k data)

/-- HIF_RCI_WRITE (R360). -/
def execHifRciWrite (dt : Nat) (r : Fin 4) (value : Dword) (tlp : HostFlags) (s : State) : Out :=
  act s dt (watchLine 12 (hostRegister tlp (writeRci r value)))

/-- HIF_RCFG_WRITE (R360). -/
def execHifRcfgWrite (dt : Nat) (r : Fin 4) (value : Dword) (tlp : HostFlags) (s : State) : Out :=
  act s dt (watchLine 12 (hostRegister tlp (writeRcfg r value)))

/-- BAR2_ACCESS (R362). -/
def execBar2Access (dt : Nat) (write : Bool) (data : HostBytes) (s : State) : Out := act s dt (viewHost false write data)

/-- BAR4_ACCESS (R363). -/
def execBar4Access (dt : Nat) (write : Bool) (data : HostBytes) (s : State) : Out := act s dt (viewHost true write data)

/-- FLR (R357). -/
def execFlr (dt : Nat) (s : State) : Out := act s dt (powersFollow flrReset)

/-- PERST (R357). -/
def execPerst (dt : Nat) (s : State) : Out := act s dt (powersFollow perstReset)

/-- PCIO_ACCESS (R366). -/
def execPcioAccess (dt : Nat) (data : List Word) (s : State) : Out := act s dt (pcioGo data)

/-- PCIO_FAILURE (R367). -/
def execPcioFailure (dt : Nat) (kind : HostEnd) (s : State) : Out := act s dt (pcioEndFail kind)

/-- INGRESS_GO (R368). -/
def execIngressGo (dt : Nat) (e : Fin 4) (s : State) : Out := act s dt (igStart e)

/-- INGRESS_DONE (R368). -/
def execIngressDone (dt : Nat) (e : Fin 4) (data : List Byte) (how : HostEnd) (s : State) : Out := act s dt (igEnd e data how)

/-- EQ_PUSH (R370). -/
def execEqPush (dt : Nat) (q : Fin 14) (s : State) : Out := act s dt (eqPushDesc q)

/-- FERRY_STRM_WRITE (R370). -/
def execFerryStrmWrite (dt : Nat) (value : Word) (s : State) : Out := act s dt (strmWrite value)

/-- EGRESS_DRAW (R372). -/
def execEgressDraw (dt : Nat) (s : State) : Out := act s dt egressArbitrate

/-- EGRESS_WRITE (R370). -/
def execEgressWrite (dt : Nat) (s : State) : Out := act s dt egressSend

/-- CREDIT_REFILL (R373). -/
def execCreditRefill (dt : Nat) (s : State) : Out := act s dt refill

/-- ERST (R375). -/
def execErst (dt : Nat) (s : State) : Out := act s dt egressReset

/-- L1_ENTRY (R355). -/
def execL1Entry (dt : Nat) (s : State) : Out := act s dt enterL1

/-- LTR_SEND (R355). -/
def execLtrSend (dt : Nat) (s : State) : Out := act s dt sendLtr

/-- RING_ENTRY_WRITE (R360). -/
def execRingEntryWrite (dt : Nat) (r : Fin 4) (s : State) : Out := act s dt (writeEntry r)

/-- CONFIG_SPACE_WRITE (R354). -/
def execConfigSpaceWrite (dt : Nat) (cfg : ConfigWrite) (s : State) : Out := act s dt (writeConfig cfg)

end Sys2Proof.Machine
end

