-- ==== Sys2Proof/Machine/Sec.lean ====
section
/-! DEFINITION. Debug and security (chapter 16): unlocking, fuse programming, the JTAG port, the debug block's reset, and its
registers. -/

namespace Sys2Proof.Machine

/-! ### Lifecycle and unlocking (R406 to R408) -/

/-- The bytes of a bit vector, the lowest first. -/
def leBytes {w : Nat} (x : BitVec w) (n : Nat) : List Byte := (List.range n).map fun i => fld x (8 * i) 8

/-- A new challenge (R408): ignored while a verification runs. -/
def newChallenge (random : BitVec 256) (s : State) : State :=
  if s.sec.vbusy.isSome then s else { s with sec := { s.sec with chal := random, fresh := true } }

/-- A slot may unlock (R408). -/
def mayUnlock (f : Fuses) (slot : Fin 4) : Bool := bit f.prog slot.val && bit f.dbg slot.val && !bit f.rev slot.val

/-- A verification starts and consumes the challenge (R408): ignored while one runs. -/
def startVerify (slot : Fin 4) (s : State) : State :=
  let x := s.sec
  if x.vbusy.isSome then s
  else { s with sec := { x with vbusy := some (slot, x.fresh && !x.lockout && mayUnlock x.fuses slot), fresh := false } }

/-- The message that a response signs (R408). -/
def challengeMessage (x : Sec) : List Byte := leBytes x.chal 32 ++ leBytes x.loaded.serial 8

/-- The response verifies under a slot's key (R408, R418). -/
def responseVerifies (x : Sec) (slot : Fin 4) (key : List Byte) : Bool :=
  Config.sha384 key == x.fuses.hash.get slot &&
    Config.ecdsaVerify key (Config.sha384 (challengeMessage x)) (x.resp.toList.flatMap fun w => leBytes w 4)

/-- RELOCK was written in the present HCLK (R408). -/
def relockedNow (s : State) : Bool := s.sec.relockAt.any fun t => t / hclkPeriod == s.now / hclkPeriod

/-- The public key that the configuration store holds for a slot (R418): as its first use gave it. -/
def storedKey (s : State) (slot : Fin 4) (given : List Byte) : List Byte := (s.sec.keys.get slot).getD given

/-- A use of a slot's key has said what the configuration store holds. -/
def noteKey (slot : Fin 4) (given : List Byte) (s : State) : State :=
  { s with sec := { s.sec with keys := vput s.sec.keys slot (some (storedKey s slot given)) } }

/-- A verification ends (R408). -/
def endVerify (given : List Byte) (s0 : State) : State :=
  let s := s0.sec.vbusy.elim s0 fun v => noteKey v.1 given s0
  let x := s.sec
  match x.vbusy with
  | none => s
  | some (slot, can) =>
    if can && responseVerifies x slot (storedKey s slot given) then
      { s with sec := { x with vbusy := none, vok := true, unlocked := x.unlocked || !relockedNow s } }.mark .secStat 7
    else
      { s with sec := { x with
        vbusy := none, vfail := true, failcnt := satInc x.failcnt, lockout := x.lockout || decide (2 ≤ x.failcnt.toNat) } }.mark .secStat 8

/-- RELOCK (R408). -/
def relock (s : State) : State := { s with sec := { s.sec with unlocked := false, relockAt := some s.now } }

/-! ### Fuse operations (R407, R418, R419) -/

/-- R407 allows a fuse operation. -/
def fuseAllowed (s : State) (op : Nat) : Bool := (4 ≤ op && op ≤ 6) || (1 ≤ op && op ≤ 8 && debugAllowed s)

/-- The operation itself is refused (R418, R419). -/
def fuseRefused (f : Fuses) (o : FuseOp) : Bool :=
  match o.op with
  | 2 => bit f.prog o.slot.val
  | 4 => (List.finRange 4).all fun t => t == o.slot || !bit f.prog t.val || bit f.rev t.val
  | 5 => decide (o.value.toNat ≤ f.arb.toNat ∨ 64 < o.value.toNat)
  | 6 => decide (o.value.toNat ≤ f.fwcnt.toNat ∨ 32 < o.value.toNat)
  | 7 => bitsN o.value 0 2 == 0
  | _ => false

/-- The 48 bytes of SEC_FDATA (R421). -/
def fuseHash (x : Sec) : BitVec 384 := x.fdata.toList.foldr (fun w h => (h <<< 32) ||| w.setWidth 384) 0

/-- SEC_FUSEPROG is written with an OP (R419). -/
def fuseStart (op : Nat) (v : Word) (s : State) : State :=
  let x := s.sec
  let o : FuseOp := { op := op, slot := ⟨bitsN v 4 2 % 4, Nat.mod_lt _ (by decide)⟩, value := fld v 6 7, hash := fuseHash x }
  if x.fpop.isNone ∧ bitsN v 13 8 = 0x5A ∧ fuseAllowed s op ∧ !fuseRefused x.fuses o then
    { s with sec := { x with fpop := some o } }
  else { s with sec := { x with fperr := true } }.mark .secStat 24

/-- A fuse operation finishes (R419); with the programming of a key slot the configuration store takes that slot's key (R418). -/
def fuseEnd (s : State) : State :=
  match s.sec.fpop with
  | some o =>
    let keys := if o.op = 2 then vput s.sec.keys o.slot none else s.sec.keys
    { s with sec := { s.sec with fuses := o.blow s.sec.fuses, fpop := none, keys := keys } }
  | none => s

/-! ### The debug block's reset (R413, R421, R247) -/

/-- One barge at a debug block reset: it resumes, and its DBG registers return to reset, TPTR excepted (R413, R421). -/
def resetDbg (s : State) (g : BargeIx) : State :=
  let s1 := if (s.barges.get g).dbg.halted then unhalt g false s else s
  s1.modBarge g fun b => { b with dbg := { tptr := b.dbg.tptr, wrap := b.dbg.wrap } }

/-- SEC_CTL.DRST (R413, R421). -/
def debugReset (s : State) : State :=
  let s1 := s.dropTx 15 fun _ => true
  (List.finRange 48).foldl resetDbg { s1 with sec := { s1.sec with jtagStatus := 0, jtagData := 0, dbgWait := none } }

/-! ### Registers (R421, R422) -/

/-- SEC_STAT: its FZ fields as the last fuse load left them (R8). -/
def secStat (x : Sec) : Word :=
  let f := x.loaded
  put36 0 f.life ||| bit36 2 x.unlocked ||| put36 3 x.failcnt ||| bit36 5 x.lockout ||| bit36 6 x.vbusy.isSome ||| bit36 7 x.vok |||
    bit36 8 x.vfail ||| put36 9 f.prog ||| put36 13 f.rev ||| put36 17 f.dbg ||| put36 21 f.vrev ||| bit36 23 x.fpop.isSome |||
    bit36 24 x.fperr

/-- A register of a barge's debug module (R422). -/
def dbgRead (b : Barge) (k : Nat) : Option Word :=
  let d := b.dbg
  if h : 8 ≤ k ∧ k < 24 then
    let x := d.bps.get ⟨(k - 8) / 2, by omega⟩
    some (if k % 2 = 0 then put36 0 x.bpa else put36 0 x.ctxid ||| put36 16 x.hits)
  else if h : 24 ≤ k ∧ k < 56 then some (put36 0 (d.trace.get ⟨k - 24, by omega⟩))
  else match k with
    | 0 => some (bit36 3 d.maski ||| bit36 4 d.hor ||| bit36 5 d.tup)
    | 1 => some (bit36 0 d.halted ||| bit36 1 d.refused ||| put36 2 d.cause ||| put36 5 d.bphit)
    | 2 => some (put36 0 b.pc ||| at36 14 b.irun ||| bit36 22 (pswW b.psw) ||| bit36 23 (pswL b.psw))
    | 4 => some (put36 0 d.regsel)
    | 5 => some (readDbgReg b)
    | 6 => some (put36 0 d.tptr ||| bit36 5 d.wrap)
    | _ => none

/-- DBG_CTL is written (R411, R413). -/
def writeDbgCtl (g : BargeIx) (v : Word) (s : State) : State :=
  let s1 := s.modBarge g fun b => { b with dbg := { b.dbg with maski := bit v 3, hor := bit v 4, tup := bit v 5 } }
  let s2 := if bit v 0 then requestHalt g 1 0 s1 else s1
  let s3 := if bit v 1 ∧ (s2.barges.get g).dbg.halted then unhalt g false s2 else s2
  if bit v 2 then stepBarge g [] s3 else s3

/-- A write of a debug module register (R422). -/
def dbgWrite (g : BargeIx) (k : Nat) (v : Word) (s : State) : State :=
  let up (f : Dbg → Dbg) : State := s.modBarge g fun b => { b with dbg := f b.dbg }
  match k with
  | 0 => writeDbgCtl g v s
  | 1 =>
    let m := s.w1c (.dbgStat g) (sameCycle hclkPeriod s) v
    up fun d => { d with refused := d.refused && !bit m 1 }
  | 2 => writeDbgPc g v s
  | 4 => up fun d => { d with regsel := fld v 0 8 }
  | 5 => writeDbgReg g v s
  | k =>
    if 8 ≤ k ∧ k < 24 then up fun d => { d with bps := vmodN d.bps ((k - 8) / 2) fun x =>
      if k % 2 = 0 then { x with bpa := fld v 0 21 } else { x with ctxid := fld v 0 16 } }
    else s

/-- A register of the debug block by its word offset (R421, R422); none where unmapped. -/
def secRead (s : State) (off : Nat) : Option Word :=
  let x := s.sec
  if h : 0x100 ≤ off ∧ off < 0x100 + 64 * 48 then dbgRead (s.barges.get ⟨(off - 0x100) / 64, by omega⟩) (off % 64)
  else if 0x10 ≤ off ∧ off < 0x18 then some (put36 0 (fld x.chal (32 * (off - 0x10)) 32))
  else if 0x20 ≤ off ∧ off < 0x38 then some 0
  else if 0x40 ≤ off ∧ off < 0x4D then some 0
  else match off with
    | 0 => some 0x7240
    | 1 => some (secStat x)
    | 2 => some 0
    | 3 => some (put36 0 x.loaded.arb ||| put36 7 x.loaded.fwcnt)
    | 4 => some (put36 0 (fld x.loaded.serial 0 36))
    | 5 => some (put36 0 (fld x.loaded.serial 36 28))
    | _ => none

/-- SEC_CTL is written (R408, R413). -/
def writeSecCtl (v : Word) (s : State) : State :=
  let s1 := if bit v 0 then newChallenge (Config.freeRandom s.freeCtr) s.free else s
  let s2 := if bit v 1 then startVerify ⟨bitsN v 2 2 % 4, Nat.mod_lt _ (by decide)⟩ s1 else s1
  let s3 := if bit v 4 then relock s2 else s2
  if bit v 5 then debugReset s3 else s3

/-- A write of a register of the debug block; none where unmapped. -/
def secWrite (off : Nat) (v : Word) (s : State) : Option State :=
  let x := s.sec
  if (secRead s off).isNone then none
  else if h : 0x100 ≤ off ∧ off < 0x100 + 64 * 48 then some (dbgWrite ⟨(off - 0x100) / 64, by omega⟩ (off % 64) v s)
  else if 0x20 ≤ off ∧ off < 0x38 then some { s with sec := { x with resp := vmodN x.resp (off - 0x20) fun _ => fld v 0 32 } }
  else if 0x41 ≤ off ∧ off < 0x4D then some { s with sec := { x with fdata := vmodN x.fdata (off - 0x41) fun _ => fld v 0 32 } }
  else some (match off with
    | 1 =>
      let m := s.w1c .secStat (sameCycle hclkPeriod s) v
      { s with sec := { x with vok := x.vok && !bit m 7, vfail := x.vfail && !bit m 8, fperr := x.fperr && !bit m 24 } }
    | 2 => writeSecCtl v s
    | 0x40 => fuseStart (bitsN v 0 4) v s
    | _ => s)

/-! ### JTAG (R409, R410) -/

/-- The data register of IDCODE (R85, R409): STEP[3:0], the part code, 0x2B5 and 1. -/
def jtagIdcode (s : State) : BitVec 32 := fld s.sec.loaded.step 0 4 ++ (0x7240 : BitVec 16) ++ (0x2B5 : BitVec 11) ++ (1 : BitVec 1)

/-- The instructions that R410 lets load only while the Keeper is in STARTING. -/
def inExtest (ir : JtagIr) : Bool := ir == 0 || ir == 3 || ir == 4 || ir == 5 || ir == 6

/-- Update-IR (R409, R410). -/
def updateIr (ir : JtagIr) (s : State) : State :=
  if inExtest ir then
    if s.kp.mode = .starting then
      { s with sec := { s.sec with jtagIr := ir }, kp := { s.kp with testHold := true } }
    else { s with sec := { s.sec with jtagIr := 0x3F } }
  else { s with sec := { s.sec with jtagIr := ir } }

/-- Offsets that SECACC reaches (R409). -/
def secReach (off : Nat) : Bool :=
  off == 1 || off == 2 || (0x10 ≤ off && off < 0x18) || (0x20 ≤ off && off < 0x38)

/-- A SECACC access (R409): it completes at once. -/
def secAccess (off : Nat) (write : Bool) (v : Word) (s : State) : State :=
  if !secReach off then { s with sec := { s.sec with jtagStatus := 1 } }
  else if write then
    let s1 := (secWrite off v s).getD s
    { s1 with sec := { s1.sec with jtagStatus := 0 } }
  else { s with sec := { s.sec with jtagStatus := 0, jtagData := (secRead s off).getD 0 } }

/-- A data register of the TAP (R409). -/
inductive JtagDr where
  | boundary
  | idcode
  | bypass
  | dbgacc
  | secacc
  deriving DecidableEq, Repr

/-- The data register of the present instruction (R409): one that R407 refuses acts as BYPASS. -/
def jtagDr (s : State) : JtagDr :=
  match s.sec.jtagIr.toNat with
  | 0 => .boundary
  | 1 => .idcode
  | 2 => .boundary
  | 3 => .boundary
  | 4 => .boundary
  | 0x10 => if debugAllowed s then .dbgacc else .bypass
  | 0x11 => if s.sec.loaded.life = 3 then .bypass else .secacc
  | _ => .bypass

/-- What drives the pads of the boundary chain (R409, R410, log entry 95). -/
inductive PadSource where
  | blocks
  | boundary
  | none
  deriving DecidableEq, Repr

def padSource (s : State) : PadSource :=
  match s.sec.jtagIr.toNat with
  | 0 => .boundary
  | 3 => .boundary
  | 4 => .boundary
  | 5 => .boundary
  | 6 => .none
  | _ => .blocks

/-- Update-DR (R409): of the access register it starts one word access, unless the previous one is still in progress; DBGACC's waits
for a place of port DEBUG (R241). -/
def updateDr (dr : BitVec 72) (s : State) : State :=
  let write := bit dr 68
  let v : Word := fld dr 32 36
  match jtagDr s with
  | .boundary => { s with sec := { s.sec with boundary := dr } }
  | .idcode => s
  | .bypass => { s with sec := { s.sec with bypass := bit dr 0 } }
  | .dbgacc =>
    let t : Tx := { addr := fld dr 0 32, write := write, size := .word, id := 0, world := false, data := if write then [v] else [] }
    if s.sec.jtagStatus = 3 then s else debugPresent { s with sec := { s.sec with jtagStatus := 3, dbgWait := some t } }
  | .secacc => if s.sec.jtagStatus = 3 then s else secAccess (bitsN dr 0 32) write v s

/-- Test-Logic-Reset (R410): IDCODE is the instruction, and the Keeper's test hold ends. -/
def testLogicReset (s : State) : State :=
  { s with sec := { s.sec with jtagIr := 1 }, kp := { s.kp with testHold := false } }

/-! ### The commands -/

/-- DRST (R413). -/
def execDrst (dt : Nat) (s : State) : Out := act s dt debugReset

/-- NEWCHAL (R408). -/
def execNewchal (dt : Nat) (random : BitVec 256) (s : State) : Out := act s dt (newChallenge random)

/-- VERIFY (R408). -/
def execVerify (dt : Nat) (slot : Fin 4) (s : State) : Out := act s dt (startVerify slot)

/-- VERIFY_COMPLETE (R408): with the public key that the configuration store holds for the slot. -/
def execVerifyComplete (dt : Nat) (key : List Byte) (s : State) : Out := act s dt (endVerify key)

/-- RELOCK (R408). -/
def execRelock (dt : Nat) (s : State) : Out := act s dt relock

/-- FUSE_LIFE_ADVANCE (R406, R419). -/
def execFuseLifeAdvance (dt : Nat) (value : Word) (s : State) : Out := act s dt (fuseStart 1 value)

/-- FUSE_KEY_PROGRAM (R418, R419). -/
def execFuseKeyProgram (dt : Nat) (value : Word) (s : State) : Out := act s dt (fuseStart 2 value)

/-- FUSE_DBG_SET (R419). -/
def execFuseDbgSet (dt : Nat) (value : Word) (s : State) : Out := act s dt (fuseStart 3 value)

/-- FUSE_REVOKE (R418, R419). -/
def execFuseRevoke (dt : Nat) (value : Word) (s : State) : Out := act s dt (fuseStart 4 value)

/-- FUSE_ARB_ADVANCE (R419). -/
def execFuseArbAdvance (dt : Nat) (value : Word) (s : State) : Out := act s dt (fuseStart 5 value)

/-- FUSE_FWCNT_ADVANCE (R419). -/
def execFuseFwcntAdvance (dt : Nat) (value : Word) (s : State) : Out := act s dt (fuseStart 6 value)

/-- FUSE_PFUSE_BLOW (R337). -/
def execFusePfuseBlow (dt : Nat) (value : Word) (s : State) : Out := act s dt (fuseStart 7 value)

/-- FUSE_PLOCK_BLOW (R337). -/
def execFusePlockBlow (dt : Nat) (value : Word) (s : State) : Out := act s dt (fuseStart 8 value)

/-- FUSE_OP_COMPLETE (R419). -/
def execFuseOpComplete (dt : Nat) (s : State) : Out := act s dt fuseEnd

/-- JTAG_UPDATE_DR (R409). -/
def execJtagUpdateDr (dt : Nat) (dr : BitVec 72) (s : State) : Out := act s dt (updateDr dr)

/-- TAP_RESET (R410). -/
def execTapReset (dt : Nat) (s : State) : Out := act s dt testLogicReset

/-- JTAG_UPDATE_IR (R410). -/
def execJtagUpdateIr (dt : Nat) (ir : JtagIr) (s : State) : Out := act s dt (updateIr ir)

end Sys2Proof.Machine
end

