-- ==== Sys2Proof/Machine/Bridge.lean ====
section
/-! DEFINITION. The peripheral register bridge (R235), the grant at every Wharf target (R239, R242, R243), and register writes
that have no row of their own (R6, R7). -/

namespace Sys2Proof.Machine

/-! ### The blocks behind the bridge (R235) -/

/-- Reservoir port p's registers (R230). -/
def rvPortRead (p : RvPort) (off : Nat) : Option Word :=
  match off with
  | 0 => some p.ceCnt
  | 1 => some p.ueCnt
  | 2 => some (put36 0 p.errWord ||| bit36 20 p.errUe)
  | 3 => some (put36 0 p.fail ||| bit36 4 p.done)
  | k => if h : 4 ≤ k ∧ k < 8 then some (p.repair.get ⟨k - 4, by omega⟩) else none

/-- A write of a basin register through the bridge (R213, R228, R231): at once, with no writer position. -/
def basinWrite (n : BasinIx) (off : Nat) (v : Word) (s : State) : Option State :=
  if (basinRead (s.basins.get n) (bclkCount s n) off).isNone then none
  else if h : off < 16 then some (handover n ⟨off, h⟩ (low 7 v) none false s)
  else if h : 0x10 ≤ off ∧ off < 0x14 then
    some (s.modBasin n fun x => { x with codemap := vput x.codemap ⟨off - 0x10, by omega⟩ (low 2 v) })
  else some (match off with
    | 0x18 => kickBasin n (s.modBasin n fun x => { x with
        scrubIdle := bit v 0, scrubPatrol := bit v 1
        code := if bit v 1 then x.code else x.code.map fun c => { c with patrolDue := 0 } })
    | 0x19 =>
      let m := s.w1c (.scrubStat n) (sameBclk n s) v
      s.modBasin n fun x => { x with scrubPass := x.scrubPass &&& ~~~(fld m 0 16), codePass := x.codePass &&& ~~~(fld m 16 4) }
    | _ => s)

/-- A read through the bridge (R235): the word, and the state after it; none where no register is mapped. -/
def perRead (a : Nat) (s : State) : Option (Word × State) :=
  let off := a % 0x10000 / 4
  let plain (w : Option Word) : Option (Word × State) := w.map fun v => (v, s)
  if h : 0x20100000 ≤ a ∧ a < 0x201C0000 then
    let n : BasinIx := ⟨(a - 0x20100000) / 0x10000, by omega⟩
    plain (basinRead (s.basins.get n) (bclkCount s n) off)
  else match a / 0x10000 with
    | 0x2000 => plain (wharfRead s off)
    | 0x2002 => if h : a % 0x10000 < 0x400 then plain (rvPortRead (s.rv.ports.get ⟨a % 0x10000 / 0x100, by omega⟩) (off % 64)) else none
    | 0x2003 => plain (weirRead s off)
    | 0x2004 => plain (pwmRead s off)
    | 0x2005 => plain (fioRead s off)
    | 0x2006 => plain (tlRead s off)
    | 0x2007 => (crpRead s off).map fun v =>
      (if off = 0x41 then put36 0 s.crp.sth else v, crpReadEffect off s)
    | 0x2008 => plain (ferryRead s off)
    | 0x2009 => plain (secRead s off)
    | _ => none

/-- A write through the bridge (R235); none where no register is mapped. -/
def perWrite (a : Nat) (v : Word) (s : State) : Option State :=
  let off := a % 0x10000 / 4
  if h : 0x20100000 ≤ a ∧ a < 0x201C0000 then basinWrite ⟨(a - 0x20100000) / 0x10000, by omega⟩ off v s
  else match a / 0x10000 with
    | 0x2000 => wharfWrite off v s
    | 0x2002 =>
      if h : a % 0x10000 < 0x400 then (rvPortRead (s.rv.ports.get ⟨a % 0x10000 / 0x100, by omega⟩) (off % 64)).map fun _ => s else none
    | 0x2003 => weirWrite off v s
    | 0x2004 => pwmWrite off v s
    | 0x2005 => fioWrite off v s
    | 0x2006 => tlWrite off v s
    | 0x2007 => crpWrite off v s
    | 0x2008 => ferryWrite off v s
    | 0x2009 => secWrite off v s
    | _ => none

/-- A granted transaction at a register target (R242, R243): PER, or NVP. A write that resets the Wharf ends its own transaction with
the others; of one that resets its initiator the response is discarded (R247). -/
def performRegister (read : Nat → State → Option (Word × State)) (write : Nat → Word → State → Option State) (a : Nat)
    (r : WharfReq) (s : State) : State :=
  if r.tx.write then
    match write a (r.tx.data.headD 0) { s with wharf := { s.wharf with serving := some r } } with
    | some s1 =>
      let s2 := { s1 with wharf := { s1.wharf with serving := none } }
      s1.wharf.serving.elim s2 fun r => respond r .ok [] s2
    | none => respondDecerr r 5 s
  else
    match read a s with
    | some (v, s1) => respond r .ok [v] s1
    | none => respondDecerr r 5 s

/-- The Harbourmaster's handovers of a bank that have not ended (R214, R215). -/
def bridgeHandovers (x : Bank) : Nat := (x.ho.filter fun h => h.writer.isNone).toList.length + (x.hoWait.filter fun w => w.writer.isNone).length

/-- The Harbourmaster's writes of a bank's BANK_OWN whose handovers have ended are acknowledged (R214 step 4). -/
def ackHandovers (n : BasinIx) (b : BankIx) (s : State) : State :=
  let mine := (s.basins.get n).hoAcks.filter fun a => a.1 == b
  let done := mine.take (mine.length - bridgeHandovers ((s.basins.get n).banks.get b))
  done.foldl (fun s a => respond a.2 .ok [] s) (s.modBasin n fun x =>
    { x with hoAcks := x.hoAcks.filter fun a => done.all fun d => d.2.seq != a.2.seq })

/-- A granted transaction at PER: a write of BANK_OWN is acknowledged when its handover ends (R214). -/
def performPer (r : WharfReq) (s : State) : State :=
  let a := r.tx.addr.toNat
  if h : r.tx.write ∧ 0x20100000 ≤ a ∧ a < 0x201C0000 ∧ a % 0x10000 / 4 < 16 then
    let n : BasinIx := ⟨(a - 0x20100000) / 0x10000, by omega⟩
    let b : BankIx := ⟨a % 0x10000 / 4, h.2.2.2⟩
    ackHandovers n b (handover n b (low 7 (r.tx.data.headD 0)) none false (s.modBasin n fun x => { x with hoAcks := x.hoAcks ++ [(b, r)] }))
  else performRegister perRead perWrite a r s

/-- A granted transaction at NVP (R229); a word that no register maps reads 0 and ignores writes. -/
def performNvp (r : WharfReq) (s : State) : State :=
  performRegister (fun w s => some ((nvpRead s w).getD 0, s)) (fun w v s => some ((nvpWrite w v s).getD s))
    ((r.tx.addr.toNat - 0x21000000) / 4) r s

/-! ### Grants (R239) -/

/-- A basin's target port (R214, R216): what it holds is tried first, and the granted transaction with it where it is the first
of its bank and its order. -/
def serveBasin (n : BasinIx) (rivals : List Rival) (pick : Option WharfReq) (s : State) : State :=
  let s1 := tryAllHeld n rivals s
  match pick with
  | none => s1
  | some r =>
    let s2 := grantBasin n r (noteGrant r (xclk s) s1)
    match (heldFirst (s2.basins.get n)).find? fun q => q.seq == r.seq with
    | some q => tryHeld n rivals s2 q
    | none => s2

/-- A granted transaction at a target other than a basin's. -/
def serve (r : WharfReq) (s : State) : State :=
  if r.target.val < 16 then performRv r s
  else if r.target.val = 16 then performHms r s
  else if r.target.val = 17 then performPer r s
  else if r.target.val = 18 then performNvp r s
  else grantPcio r s

/-- A target grants its next transaction (R239). -/
def grantAt (g : Fin 20) (rivals : List Rival) (s : State) : State :=
  let pick := grantPick s g (xclk s)
  if h : g.val < 12 then serveBasin ⟨g.val, h⟩ rivals pick s
  else match pick with
    | some r => serve r (noteGrant r (xclk s) s)
    | none => s

/-! ### Register writes -/

/-- A register write through the Wharf, from acceptance to its response in one step, where its port and its target let it
(R235, R236, R239, R243); a write of BANK_OWN is answered when its handover ends. -/
def busWrite (init : Fin 16) (a : BitVec 32) (v : Word) (s : State) : State :=
  let t : Tx := { addr := a, write := true, size := .word, id := 0, world := false, data := [v] }
  (directTx (fun r s => if r.target.val < 17 then performMemory r s else serve r s) init t 0 s).2

/-- A register is written (R6, R7, R83, R175, R235, R358). -/
def writeRegister (p : RegPath) (v : Word) (s : State) : State :=
  match p with
  | .window g a => regWriteBy g a.toNat v s
  | .per debug a => busWrite (if debug then 15 else 12) a v s
  | .bar0 off tlp => bar0Write off.toNat tlp (low 32 v) s
  | .port a hm1 => staged 5 (loadPort a.toNat v (sameWrite hm1 a.toNat v)) s

/-- The frame of a command that may write any register: HIF_READY, the power states, the dividers and the trip zones follow
(R285, R346, R348), and so does the line of the Harbourmaster's egress requester (R374). -/
def registerAct (s : State) (dt : Nat) (f : State → State) : Out :=
  act s dt (watchTrips (powersFollow (watchLine 12 fun s => settle (watchReady f s))))

/-! ### The commands -/

/-- BANK_OWN_HANDOVER_COMPLETE (R214 step 4). -/
def execBankOwnHandoverComplete (dt : Nat) (n : BasinIx) (b : BankIx) (s : State) : Out :=
  act s dt fun s => ackHandovers n b (completeHandover n b s)

/-- TARGET_GRANT (R239). -/
def execTargetGrant (dt : Nat) (target : Fin 20) (rivals : List Rival) (s : State) : Out :=
  registerAct s dt (grantAt target rivals)

/-- REGISTER_WRITE (R6). -/
def execRegisterWrite (dt : Nat) (path : RegPath) (value : Word) (s : State) : Out :=
  registerAct s dt (writeRegister path value)

end Sys2Proof.Machine
end

