-- ==== Sys2Proof/Machine/Image.lean ====
section
/-! DEFINITION. Tiller images (R399 to R401, R442): sections, their checks, bindings, relocations and patches, the manifest and
the Keeper entries that an image carries. -/

namespace Sys2Proof.Machine

/-! ### Sections (R399, R400) -/

/-- One section of an image: the fields of its header, the byte offset of that header, and its body. -/
structure Section where
  type : Nat
  pos : Nat
  bytes : Nat
  addr : Nat
  count : Nat
  offset : Nat
  body : List Byte
  deriving DecidableEq, Repr

/-- A length rounded up to a multiple of 8. -/
def padded (n : Nat) : Nat := (n + 7) / 8 * 8

/-- The section whose header lies at a byte offset. -/
def sectionAt (f : List Byte) (p : Nat) : Section :=
  { type := leAt f p 2, pos := leAt f (p + 2) 1, bytes := leAt f (p + 4) 4, addr := leAt f (p + 8) 4, count := leAt f (p + 12) 4
    offset := p, body := (f.drop (p + 16)).take (leAt f (p + 4) 4) }

/-- Up to k sections laid end to end below byte `stop`, to the first that does not fit and with it where its header does: with them
either the byte after the last, or the BYTES field of that one. -/
def sectionsFrom (f : List Byte) (stop : Nat) : Nat → Nat → List Section × (Nat ⊕ Nat)
  | 0, p => ([], .inl p)
  | k + 1, p =>
    let x := sectionAt f p
    if stop < p + 16 then ([], .inr (p + 4))
    else if stop < p + 16 + padded x.bytes then ([x], .inr (p + 4))
    else
      let r := sectionsFrom f stop k (p + 16 + padded x.bytes)
      (x :: r.1, r.2)

/-- LENGTH, SECTIONS, SECVER, BUILD, RETAIN and PROFILES of a header (R399). -/
def imageLength (f : List Byte) : Nat := leAt f 8 4
def imageSections (f : List Byte) : List Section × (Nat ⊕ Nat) :=
  sectionsFrom f (imageLength f - 104) (min (leAt f 12 4) f.length) 64
def imageSecver (f : List Byte) : Nat := leAt f 16 8
def imageBuild (f : List Byte) : Nat := leAt f 24 8
def imageRetain (f : List Byte) : Nat := leAt f 32 4
def imageProfile (f : List Byte) (p : Nat) : Bool := leAt f 6 2 / 2 ^ p % 2 == 1

/-- The part of an image that its signature covers (R399). -/
def signedPart (f : List Byte) : List Byte := f.take (imageLength f - 104)

/-- The sections that the firmware retains (R404). -/
def Section.retained (x : Section) : Bool := x.type == 2 || x.type == 3 || x.type == 6 || x.type == 7

/-- Word i of a DATA or TF3DATA body (R363, R400). -/
def Section.word (x : Section) (i : Nat) : Word := BitVec.ofNat 36 (leAt x.body (36 * (i / 8)) 36 / 2 ^ (36 * (i % 8)))

/-- The first basin-local nonet of a data section. -/
def Section.base (x : Section) : Nat := if x.type = 3 then 0 else x.addr

/-- A data section. -/
def Section.isData (x : Section) : Bool := x.type == 2 || x.type == 3

/-- BYTES as TYPE and COUNT give it (R442). -/
def Section.bytesDue (x : Section) : Option Nat :=
  match x.type with
  | 1 => some (72 * x.count)
  | 2 => if x.count % 2 = 0 then some (36 * x.count / 8) else none
  | 3 => if x.count % 2 = 0 then some (36 * x.count / 8) else none
  | 6 => some 104
  | 7 => some (8 * x.count)
  | _ => some (16 * x.count)

/-- Two sections claim the same thing (R442). -/
def Section.clashes (x y : Section) : Bool :=
  (x.type == 6 && y.type == 6 && x.addr == y.addr) ||
  (0 < x.count && 0 < y.count &&
    ((x.type == 1 && y.type == 1 && x.pos == y.pos && x.addr < y.addr + y.count && y.addr < x.addr + x.count) ||
      (x.isData && y.isData && x.base < y.base + 4 * y.count && y.base < x.base + 4 * x.count)))

/-- An offset, if a check fails. -/
def fault (bad : Bool) (off : Nat) : List Nat := if bad then [off] else []

/-- The first nonzero word of a data section that falls in the emergency slots (R125, R442). -/
def Section.emergency (x : Section) : List Nat :=
  ((List.range x.count).find? fun i => inEmergency (x.base + 4 * i) && x.word i != 0).toList.map fun i => x.offset + 16 + 36 * i / 8

/-- The failures of one section, and with the sections before it (R442). -/
def Section.faults (x : Section) (f : List Byte) (before : List Section) : List Nat :=
  let o := x.offset
  if x.type = 0 ∨ 7 < x.type then o :: fault (leAt f (o + 3) 1 != 0) (o + 3)
  else
    fault (leAt f (o + 3) 1 != 0) (o + 3) ++
    fault (x.bytesDue != some x.bytes) (o + 4) ++
    fault (x.isData && x.count % 8 != 0) (o + 12) ++
    fault (x.type == 1 && decide (3 < x.pos)) (o + 2) ++
    fault (x.type == 1 && decide (4096 < x.addr + x.count)) (o + 8) ++
    fault (x.type == 2 && (x.addr % 32 != 0 || decide (0x100000 < x.addr + 4 * x.count))) (o + 8) ++
    fault (x.type == 3 && x.addr != 0) (o + 8) ++
    fault (x.type == 3 && decide (262144 < x.count)) (o + 12) ++
    (if x.isData ∧ x.bytesDue = some x.bytes ∧ x.count ≤ 262144 then x.emergency else []) ++
    fault (x.type == 6 && x.count != 1) (o + 12) ++
    fault (x.type == 6 && (decide (3 < leAt x.body 0 8 % 64) || decide (3 < leAt x.body 0 8 / 64 % 64))) (o + 16) ++
    fault (before.any fun y => x.clashes y) o

/-- The failures of a list of sections, each against those before it. -/
def sectionFaults (f : List Byte) : List Section → List Section → List Nat
  | _, [] => []
  | before, x :: rest => x.faults f before ++ sectionFaults f (before ++ [x]) rest

/-! ### Bindings and symbols (R401, R442) -/

/-- A binding entry: SYM class, slot and real index. -/
abbrev Binding := Nat × Nat × Nat

/-- The entries of a binding table. -/
def bindingsOf (bs : List Byte) (n : Nat) : List Binding :=
  (List.range n).map fun i => (leAt bs (8 * i) 1, leAt bs (8 * i + 2) 2, leAt bs (8 * i + 4) 4)

/-- One past the highest real index of a class (R386, R442); none for a class that is not bound. -/
def classRange (c : Nat) : Option Nat :=
  match c with
  | 3 => some 256
  | 4 => some 64
  | 5 => some 384
  | 6 => some 384
  | 7 => some 192
  | 8 => some 192
  | 9 => some 128
  | 10 => some 128
  | 11 => some 128
  | 12 => some 128
  | 13 => some 16
  | 14 => some 16
  | 15 => some 16
  | 16 => some 1048576
  | _ => none

/-- A binding table is accepted (R442). -/
def bindingsOk : List Binding → Bool
  | [] => true
  | (c, slot, i) :: rest => (classRange c).any (fun n => decide (i < n)) && rest.all (fun b => b.1 != c || b.2.1 != slot) && bindingsOk rest

/-- The real index bound to a slot of a class; a channel's two classes share their bindings. -/
def boundIndex (bs : List Binding) (c slot : Nat) : Option Nat :=
  let pair := if 5 ≤ c ∧ c ≤ 14 then (c - 1) / 2 else 0
  (bs.find? fun b => b.2.1 == slot && (b.1 == c || (pair != 0 && decide (5 ≤ b.1 ∧ b.1 ≤ 14) && (b.1 - 1) / 2 == pair))).map
    fun b => b.2.2

/-- The value of a symbol (R401). -/
def symValue (n : BasinIx) (bs : List Binding) (c slot : Nat) : Option Nat :=
  let at' (base stride : Nat) : Option Nat := (boundIndex bs c slot).map fun i => base + stride * i
  match c with
  | 1 => some n.val
  | 2 => some (0x01000000 + n.val * 0x00100000)
  | 6 => at' 0x4000 8
  | 8 => at' 0x2000 16
  | 10 => at' 0x3000 4
  | 12 => at' 0x3200 4
  | 14 => at' 0x3400 64
  | 16 => at' 0x10000000 4
  | c => if 3 ≤ c ∧ c ≤ 15 then at' 0 1 else none

/-! ### Content, relocations and patches (R400, R401) -/

/-- What an image carries: code lines by 4096·POS + line, and the data words by basin-local word, DATA and TF3DATA apart. -/
structure Content where
  code : List (Nat × LineBits) := []
  data : List (Nat × Word) := []
  tf3 : List (Nat × Word) := []
  deriving DecidableEq, Repr

/-- One section's content added. -/
def Content.add (c : Content) (x : Section) : Content :=
  let put (m : List (Nat × Word)) : List (Nat × Word) :=
    (List.range x.count).foldl (fun m i =>
      if inEmergency (x.base + 4 * i) ∧ x.word i = 0 then m else kset m (x.base / 4 + i) (some (x.word i))) m
  match x.type with
  | 1 => { c with code := (List.range x.count).foldl (fun m i =>
      kset m (4096 * x.pos + x.addr + i) (some (BitVec.ofNat 576 (leAt x.body (72 * i) 72)))) c.code }
  | 2 => { c with data := put c.data }
  | 3 => { c with tf3 := put c.tf3 }
  | _ => c

/-- Bits lo+width−1 to lo of a vector replaced. -/
def setField {w : Nat} (x : BitVec w) (lo width v : Nat) : BitVec w :=
  (x &&& ~~~(BitVec.ofNat w ((2 ^ width - 1) * 2 ^ lo))) ||| BitVec.ofNat w (v * 2 ^ lo)

/-- The place of a long immediate in its instruction (R21). -/
def limmPlace (fmt loc : Nat) : Option Nat :=
  match fmt, loc with
  | 1, 0 => some 100
  | 2, 0 => some 56
  | 2, 1 => some 92
  | _, _ => none

/-- The new value of a field: a PATCH replaces it, a RELOC adds; none where it does not fit (R401). -/
def fieldValue (patch : Bool) (old v width : Nat) : Option Nat :=
  let x := if patch then v else old + v
  if x < 2 ^ width then some x else none

/-- One RELOC or PATCH entry applied; none where it breaks a rule of R401. -/
def Content.relocate (c : Content) (n : BasinIx) (bs : List Binding) (patch : Bool) (e : List Byte) : Option Content :=
  let loc := leAt e 0 1
  let addr := leAt e 4 4
  let lo := leAt e 8 1
  let width := leAt e 9 1
  if width = 0 ∨ 36 < lo + width then none
  else do
    let v ← symValue n bs (leAt e 10 1) (leAt e 12 2)
    if loc = 2 then
      if addr % 4 ≠ 0 then none
      else do
        let w ← kget c.data (addr / 4)
        let x ← fieldValue patch (bitsN w lo width) v width
        some { c with data := kset c.data (addr / 4) (some (setField w lo width x)) }
    else if loc < 2 ∧ addr < 16384 ∧ leAt e 1 1 < 4 then do
      let key := 4096 * leAt e 1 1 + addr / 4
      let l ← kget c.code key
      let i := 144 * (addr % 4)
      let p ← limmPlace (bitsN l i 2) loc
      let x ← fieldValue patch (bitsN l (i + p + lo) width) v width
      some { c with code := kset c.code key (some (setField l (i + p + lo) width x)) }
    else none

/-- Every RELOC and PATCH entry applied in order, with the offsets of those that fail. -/
def relocateAll (n : BasinIx) (bs : List Binding) (xs : List Section) (c : Content) : Content × List Nat :=
  xs.foldl (fun r x =>
    if x.type = 4 ∨ x.type = 5 then
      (List.range (x.bytes / 16)).foldl (fun r i =>
        match r.1.relocate n bs (x.type == 5) ((x.body.drop (16 * i)).take 16) with
        | some c => (c, r.2)
        | none => (r.1, r.2 ++ [x.offset + 16 + 16 * i])) r
    else r) (c, [])

/-- The content of an image, relocated, with the offsets of failing entries. -/
def contentOf (n : BasinIx) (bs : List Binding) (f : List Byte) : Content × List Nat :=
  let xs := (imageSections f).1
  relocateAll n bs xs (xs.foldl Content.add {})

/-! ### The checks (R442) -/

/-- LENGTH, MAGIC and FORMAT, in that order: the offset of the first that fails. -/
def headerFault (f : List Byte) (given : Nat) : Option Nat :=
  if imageLength f ≠ given ∨ imageLength f < 168 then some 8
  else if leAt f 0 4 ≠ 0x4B415254 then some 0
  else if leAt f 4 2 ≠ 0x0102 then some 4
  else none

/-- The other checks: the lowest offset that fails. -/
def imageFault (n : BasinIx) (bs : List Binding) (f : List Byte) : Option Nat :=
  let stop := imageLength f - 104
  let r := imageSections f
  let reserved (lo k : Nat) : List Nat := ((List.range k).find? fun i => leAt f (lo + i) 1 != 0).toList.map (lo + ·)
  let layout := fault (imageRetain f != ((r.1.filter Section.retained).map fun x => 16 + padded x.bytes).sum) 32 ++
    match r.2 with
    | .inr p => [p]
    | .inl p => fault (p != stop) p
  (reserved 36 28 ++ reserved (stop + 1) 7 ++ layout ++ sectionFaults f [] r.1 ++ (contentOf n bs f).2).min?

/-! ### Manifest and Keeper entries (R400, R402) -/

/-- The manifest of an image. -/
def manifestOf (f : List Byte) : List ManEntry :=
  ((imageSections f).1.filter fun x => x.type == 7).flatMap fun x =>
    (List.range x.count).map fun i =>
      { kind := leAt x.body (8 * i) 1, field := leAt x.body (8 * i + 1) 1, target := leAt x.body (8 * i + 2) 2
        value := leAt x.body (8 * i + 4) 4 }

/-- The groups that a mask of group slots names, once bound. -/
def boundGroups (bs : List Binding) (mask : Nat) : Nat :=
  (List.range 64).foldl (fun m i =>
    match boundIndex bs 4 i with
    | some g => if mask / 2 ^ i % 2 = 1 then m ||| 2 ^ g else m
    | none => m) 0

/-- Words 0 to 12 of a Keeper entry as they are loaded (R402). -/
def keeperWords (n : BasinIx) (bs : List Binding) (x : Section) : List Word :=
  let w (k : Nat) : Nat := leAt x.body (8 * k) 8 % 2 ^ 36
  let groups := boundGroups bs (w 11 % 2 ^ 32 + w 12 % 2 ^ 32 * 2 ^ 32)
  (List.range 13).map fun k => BitVec.ofNat 36 (match k with
    | 0 => w 0 / 4096 * 4096 + (4 * n.val + w 0 / 64 % 64) * 64 + (4 * n.val + w 0 % 64)
    | 11 => groups % 2 ^ 32
    | 12 => groups / 2 ^ 32
    | k => w k)

/-- The Keeper entries of an image, by the task that each slot is bound to. -/
def keeperOf (n : BasinIx) (bs : List Binding) (f : List Byte) : List (Nat × List Word) :=
  ((imageSections f).1.filter fun x => x.type == 6).filterMap fun x =>
    (boundIndex bs 3 x.addr).map fun t => (t, keeperWords n bs x)

end Sys2Proof.Machine
end

