-- ==== Sys2Proof/Machine/Mailbox.lean ====
section
/-! DEFINITION. The Harbourmaster's messages (R378 to R387, R398): entries and statuses, the taking of commands, their common
checks and completion, resources with their epochs and owners, and events. -/

namespace Sys2Proof.Machine

/-! ### Entries and answers (R380 to R382) -/

/-- A number as n little-endian bytes. -/
def leNum (n v : Nat) : List Byte := (List.range n).map fun i => BitVec.ofNat 8 (v / 256 ^ i)

/-- A 64-byte ring entry (R380). -/
def ringEntry (type tag status mb seq elapsed : Nat) (data : List Byte) : List Byte :=
  leNum 2 type ++ leNum 2 tag ++ leNum 2 status ++ leNum 1 mb ++ [0] ++ leNum 4 seq ++ leNum 4 elapsed ++
    (data ++ List.replicate 48 0).take 48

/-- A command's answer: its status (R382) and its DATA. -/
structure Answer where
  status : Nat
  data : List Byte := []
  deriving DecidableEq, Repr

/-- What a command does: its answer, none while it waits, and the state it leaves. -/
abbrev Reply := Option Answer × State

def answer (status : Nat) (data : List Byte) (s : State) : Reply := (some { status := status, data := data }, s)

/-- Status codes (R382). -/
def stOk : Nat := 0x0000
def stBadOp : Nat := 0x0001
def stBadLen : Nat := 0x0002
def stBadArg : Nat := 0x0003
def stNoHello : Nat := 0x0004
def stBadVer : Nat := 0x0005
def stBadState : Nat := 0x0006
def stStale : Nat := 0x0007
def stBusy : Nat := 0x0008
def stNotOwner : Nat := 0x0009
def stBadCfg : Nat := 0x000A
def stDeadline : Nat := 0x000B
def stNoSpace : Nat := 0x000C
def stAuth : Nat := 0x000D
def stRollback : Nat := 0x000E
def stBadImage : Nat := 0x000F
def stKeeper : Nat := 0x0010
def stNotReady : Nat := 0x0011
def stHostErr : Nat := 0x0012
def stInternal : Nat := 0x00FF

/-! ### Rings (R380, R381) -/

/-- An entry joins a ring's queue, under the next SEQ. -/
def putEntry (r : Fin 4) (mk : Nat → List Byte) (s : State) : State :=
  let x := s.fw.rings.get r
  let q : BitVec 32 := x.seq + 1
  { s with fw := { s.fw with rings := vput s.fw.rings r { x with seq := q, queue := x.queue ++ [mk q.toNat] } } }

/-- The events of a ring that wait (R381). -/
def eventsWaiting (x : FwRing) : Nat := (x.queue.filter fun e => !isResponse e).length

/-- An event for ring r, or one more lost (R381). -/
def putEvent (r : Fin 4) (code : Nat) (stamp : BitVec 32) (data : List Byte) (s : State) : State :=
  let x := s.fw.rings.get r
  if eventsWaiting x < 64 then putEntry r (fun q => ringEntry 2 code 0 0xFF q (stamp.toNat / 1000) data) s
  else { s with fw := { s.fw with lostTotal := s.fw.lostTotal + 1, rings := vput s.fw.rings r { x with lost := x.lost + 1 } } }

/-- An event in the ring that EVENT_ROUTE gives its code (R380, R392). -/
def postEvent (code : Nat) (stamp : BitVec 32) (data : List Byte) (s : State) : State :=
  putEvent (vgetN s.fw.route code 0).toFin code stamp data s

/-! ### Resources (R386 to R388) -/

/-- A resource ID. -/
def resId (kind i : Nat) : Nat := kind * 2 ^ 24 + i

/-- An epoch as a number, 0 where there is none. -/
def epochNat (s : State) (kind i : Nat) : Nat := ((epochOf s.fw kind i).getD 0).toNat

/-- The owner of a resource: its basin and world, none where nobody owns it (R388). -/
def ownerOf (s : State) (kind i : Nat) : Option (Nat × Bool) :=
  let own (v : Bool) (b : Nat) (w : Bool) : Option (Nat × Bool) := if v then some (b, w) else none
  match kind with
  | 3 => s.weir.ch[i]?.bind fun c => own c.ownv c.basin c.oworld
  | 4 => s.pwm.ch[i]?.bind fun c => own c.ownv c.basin c.world
  | 5 => s.fio.fi[i]?.bind fun c => own c.ownv c.basin c.world
  | 6 => s.fio.fo[i]?.bind fun c => own c.ownv c.basin c.world
  | 7 => s.tl.link[i]?.bind fun l => own l.ownv l.dbasin l.oworld
  | 8 => (vgetN s.fw.tbOwner i none).map fun o => (o.1.val, o.2)
  | 9 => (vgetN s.fw.ballOwner i none).map fun o => (o.1.val, o.2.1)
  | _ => none

/-- The DATA of STALE_ROLE, and of BUSY (R382). -/
def staleData (s : State) (kind i : Nat) : List Byte := leNum 4 (resId kind i) ++ leNum 2 (epochNat s kind i)
def busyData (s : State) (kind i : Nat) (owner : Nat × Bool) : List Byte :=
  leNum 4 (resId kind i) ++ leNum 1 owner.1 ++ leNum 1 owner.2.toNat ++ leNum 2 (epochNat s kind i)

/-- The DATA of a command that returns a resource's epoch. -/
def epochData (s : State) (kind i : Nat) : List Byte := leNum 2 (epochNat s kind i)

/-- A command on a resource goes on only if its epoch is current (R387). -/
def withEpoch (s : State) (kind i ep : Nat) (go : Reply) : Reply :=
  if epochNat s kind i = ep then go else answer stStale (staleData s kind i) s

/-- A barge by resource ID. -/
def bargeOfId (id : Nat) : Option BargeIx := if idKind id = 2 then bargeIx (idIndex id) else none

/-- Doorbell 0 or 1 rings in every barge of a basin (R396). -/
def ringOwner (n : Nat) (src : Fin 64) (s : State) : State :=
  match basinIx n with
  | some b => s.pendBasin b src
  | none => s

/-- Doorbell 0 rings in the basin that owns a resource (R396). -/
def ringFor (kind i : Nat) (s : State) : State :=
  match ownerOf s kind i with
  | some o => ringOwner o.1 12 s
  | none => s

/-! ### Commands (R379, R382 to R385) -/

/-- The least LEN of a command: the end of its last fixed payload field (R382, R392); none where the opcode is unknown. -/
def opLength (op : Nat) : Option Nat :=
  match op with
  | 0x0001 => some 4
  | 0x0002 => some 12
  | 0x0003 => some 0
  | 0x0010 => some 36
  | 0x0011 => some 6
  | 0x0020 => some 7
  | 0x0030 => some 10
  | 0x0031 => some 10
  | 0x0038 => some 8
  | 0x0040 => some 8
  | 0x0041 => some 6
  | 0x0050 => some 8
  | 0x0060 => some 20
  | 0x0070 => some 6
  | 0x0080 => some 2
  | 0x0090 => some 17
  | _ => none

/-- The version that adds a command (R384): RESET of kinds 3 to 7 is of 3.0. -/
def opVersion (c : FwCmd) : Nat :=
  match c.op.toNat with
  | 0x0050 => 0x0201
  | 0x0080 => 0x0301
  | 0x0070 => if 3 ≤ idKind (c.arg 0 4) ∧ idKind (c.arg 0 4) ≤ 7 then 0x0300 else 0x0200
  | _ => 0x0200

/-- The session runs protocol 2.x (R384). -/
def oldSession (s : State) : Bool := s.fw.session.any fun v => decide (v.toNat < 0x0300)

/-- The deadline has passed (R385). -/
def late (c : FwCmd) (s : State) : Bool :=
  c.deadline != 0 && !oldSession s && decide (c.takenAt / hclkPeriod + 600 * c.deadline.toNat < s.now / hclkPeriod)

/-- A command that has begun what it cannot take back: a LOAD_IMAGE that runs, a record given to the egress engine (R385). -/
def FwCmd.begun (c : FwCmd) : Bool := c.started.isSome || c.sending.isSome

/-- The checks that every command has, in their order (R382, R384): header, session, version, deadline. -/
def earlyAnswer (c : FwCmd) (s : State) : Option Nat :=
  match opLength c.op.toNat with
  | none => some stBadOp
  | some m =>
    if 240 < c.len ∨ c.len < m then some stBadLen
    else match s.fw.session with
      | none =>
        if c.op ≠ 1 ∧ c.op ≠ 3 then some stNoHello
        else if late c s then some stDeadline else none
      | some v =>
        if v.toNat < opVersion c then some stBadOp
        else if v.toNat < 0x0300 ∧ c.deadline ≠ 0 then some stBadArg
        else if late c s ∧ !c.begun then some stDeadline else none

/-- ELAPSED (R380, R384): µs from take to completion, rounded up. -/
def elapsedOf (c : FwCmd) (s : State) : Nat := if oldSession s then 0 else (s.now - c.takenAt + microsecond - 1) / microsecond

/-- A command completes: its response joins ring k (R379, R380). -/
def complete (k : Fin 4) (c : FwCmd) (a : Answer) (s : State) : State :=
  putEntry k (fun q => ringEntry 1 c.tag.toNat a.status k.val q (elapsedOf c s) a.data)
    { s with fw := { s.fw with slot := vput s.fw.slot k none, respDue := vput s.fw.respDue k true } }

/-- Every command taken earlier has completed, LOAD_IMAGE apart (R379). -/
def myTurn (k : Fin 4) (c : FwCmd) (s : State) : Bool :=
  (List.finRange 4).all fun j =>
    j == k || ((s.fw.slot.get j).all fun d => d.op == 0x0010 || decide (c.seq < d.seq))

/-- A LOAD_IMAGE taken before the command of mailbox k runs and names the basin (R379). -/
def loading (s : State) (k : Fin 4) (n : BasinIx) : Bool :=
  (List.finRange 4).any fun j => j != k && (s.fw.slot.get j).any fun d =>
    d.op == 0x0010 && basinOfId (d.arg 0 4) == some n && (s.fw.slot.get k).any fun c => decide (d.seq < c.seq)

/-- BUSY with a basin that is being loaded (R379, R382). -/
def busyLoading (n : BasinIx) (s : State) : Reply := answer stBusy (busyData s 1 n.val (n.val, false)) s

/-- The command in mailbox k runs, if it is the one named and its turn has come. -/
def runCommand (k : Fin 4) (op : BitVec 16) (h : FwCmd → State → Reply) (s : State) : State :=
  match s.fw.slot.get k with
  | some c =>
    if s.fw.up ∧ c.op = op ∧ myTurn k c s then
      match earlyAnswer c s with
      | some st => complete k c { status := st } s
      | none =>
        let r := h c s
        match r.1 with
        | some a => complete k c a r.2
        | none => r.2
    else s
  | none => s

/-- Mailbox k may be taken from (R379). -/
def mayTake (s : State) (k : Fin 4) : Bool :=
  bit s.hif.busy k.val && (s.fw.slot.get k).isNone && !s.fw.respDue.get k && (s.hif.ring.get k).en

/-- The mailbox to be taken from next (R379): that of the earliest doorbell, the lowest of one HCLK. -/
def nextMailbox (s : State) : Option (Fin 4) :=
  (ixs 4 (mayTake s)).foldl (fun best k =>
    if best.all fun b => decide (s.hif.rungAt.get k < s.hif.rungAt.get b) then some k else best) none

/-- The command that lies in mailbox k (R378). -/
def mailboxCommand (k : Fin 4) (s : State) : FwCmd :=
  let b := s.hif.mb.get k
  { op := BitVec.ofNat 16 (leAt b 0 2), tag := BitVec.ofNat 16 (leAt b 2 2), len := leAt b 4 2, deadline := BitVec.ofNat 32 (leAt b 8 4)
    payload := (b.drop 16).take (leAt b 4 2), takenAt := s.now, seq := s.fw.taken }

/-- The firmware takes the message of mailbox k (R379, R359, R361): an opcode that it does not know is answered at once. -/
def takeMailbox (k : Fin 4) (s : State) : State :=
  if s.fw.up ∧ nextMailbox s = some k then
    let c := mailboxCommand k s
    let h := s.hif
    let s1 : State := { s with
      hif := { h with busy := h.busy &&& ~~~(BitVec.ofNat 4 (2 ^ k.val)), clearAt := vput h.clearAt k (some (s.now / hclkPeriod)) }
      fw := { s.fw with slot := vput s.fw.slot k (some c), taken := s.fw.taken + 1 } }
    let s2 := s1.msix ⟨4 + k.val, by omega⟩
    if (opLength c.op.toNat).isNone then complete k c { status := stBadOp } s2 else s2
  else s

/-- A command that has not been committed by its deadline (R385); a LOAD_IMAGE that runs tests its own. A wake that it has begun is
undone: the power states are chosen without it (R348). -/
def expireDeadline (k : Fin 4) (s : State) : State :=
  match s.fw.slot.get k with
  | some c => if s.fw.up ∧ !c.begun ∧ late c s then choosePowers (complete k c { status := stDeadline } s) else s
  | none => s

/-! ### Events (R381, R398) -/

/-- The DATA of the event that a notice makes, with its code; an epoch in it is the one that the event made. -/
def noticeEvent (epoch : BitVec 16) : FwNotice → Nat × List Byte
  | .keeperState old new cause => (0x01, [old, new, cause])
  | .ready ws => (0x03, leNum 12 ws.toNat)
  | .retired kind i cause => (0x04, leNum 4 (resId kind i) ++ [cause, 0] ++ leNum 2 epoch.toNat)
  | .bargeReset g info => (0x05, leNum 4 (resId 2 g.val) ++ leNum 2 epoch.toNat ++ [0, 0] ++ leNum 8 info.toNat)
  | .thermal l t => (0x06, leNum 2 l.toNat ++ leNum 2 t.toNat)
  | .decerr a info => (0x07, leNum 4 a.toNat ++ leNum 4 info.toNat)
  | .power n cur => (0x09, leNum 1 n.val ++ leNum 1 cur.toNat)
  | .memerr n src k a => (0x0A, leNum 1 n.val ++ leNum 1 src.toNat ++ leNum 1 k.toNat ++ [0] ++ leNum 4 a.toNat)

/-- The doorbells that a notice rings (R396). -/
def noticeBell (x : FwNotice) (s : State) : State :=
  match x with
  | .retired kind i _ => ringFor kind i s
  | .power n cur => if cur = 0 then s.pendBasin n 13 else s
  | _ => s

/-- A ring that has lost events and has room again (R381). -/
def lostRing (s : State) : Option (Fin 4) :=
  (List.finRange 4).find? fun r => (s.fw.rings.get r).lost != 0 && decide (eventsWaiting (s.fw.rings.get r) < 64)

/-- The firmware posts the next event: LOST before others, then what it has been told, then KP_LOG (R381, R398). -/
def nextEvent (s : State) : State :=
  match lostRing s with
  | some r =>
    let x := s.fw.rings.get r
    putEvent r 0x08 (low 32 s.crp.stTime) (leNum 4 x.lost.toNat) { s with fw := { s.fw with rings := vput s.fw.rings r { x with lost := 0 } } }
  | none =>
    match s.fw.notices with
    | (t, epoch, x) :: rest =>
      let s1 := noticeBell x { s with fw := { s.fw with notices := rest } }
      let e := noticeEvent epoch x
      postEvent e.1 t e.2 s1
    | [] =>
      match s.kp.powered, logHead s with
      | true, some w => postEvent 0x02 (low 32 s.crp.stTime) (leNum 8 w.toNat) (popLog s)
      | _, _ => s

/-! ### The commands -/

/-- MAILBOX_TAKE (R379). -/
def execMailboxTake (dt : Nat) (k : Fin 4) (s : State) : Out := registerAct s dt (takeMailbox k)

/-- DEADLINE_EXPIRY (R385). -/
def execDeadlineExpiry (dt : Nat) (k : Fin 4) (s : State) : Out := registerAct s dt (expireDeadline k)

/-- EVENT_POST (R398). -/
def execEventPost (dt : Nat) (s : State) : Out := registerAct s dt (gated (fun s => s.fw.up) nextEvent)

end Sys2Proof.Machine
end

