-- ==== Sys2Proof/Machine/Firmware.lean ====
section
/-! DEFINITION. The Harbourmaster's commands other than claims and images (R383, R392 to R397), and its choice of each basin's
power state (R348, R395). -/

namespace Sys2Proof.Machine

/-- The basin is in B0 and stays there. -/
def awake (s : State) (n : BasinIx) : Bool := (s.crp.bpwr.get n).cur == 0 && (s.crp.bpwr.get n).target.isNone

/-- The firmware wakes a basin (R348): from B1 a change of REQ does it. -/
def wakeBasin (n : BasinIx) (s : State) : State :=
  let p := s.crp.bpwr.get n
  if p.cur = 1 then
    if p.changed then s else writeBpwr n (if p.req = 0 then 1 else 0) s
  else if p.target = some 0 ∨ p.later.any (fun r => reqActs r == 0) then s
  else writeBpwr n 0 s

/-- The basin's SRAM and code store cannot be used: its bit of HIF_READY is clear, and not only for its power state (R346). -/
def basinDown (s : State) (n : BasinIx) : Bool := (s.crp.bpwr.get n).cur != 3 && !basinReady s n

/-! ### HELLO (R383) -/

/-- The version that the booted firmware reports (R383, R417, log entry 60). -/
def firmwareVersion (s : State) : BitVec 32 := Config.firmwareVersion ((s.fw.store.map (·.1)).getD [])

/-- The highest version that both sides support. -/
def chosenVersion (vmin vmax : Nat) : Option Nat := ([0x0301, 0x0300, 0x0201, 0x0200].find? fun v => decide (vmin ≤ v ∧ v ≤ vmax))

def helloReply (c : FwCmd) (s : State) : Reply :=
  if s.fw.session.isSome then answer stBadState (leNum 4 0) s
  else match chosenVersion (c.arg 0 2) (c.arg 2 2) with
    | none => answer stBadVer (leNum 2 0x0200 ++ leNum 2 0x0301) s
    | some v =>
      answer stOk (leNum 2 v ++ leNum 2 0x0200 ++ leNum 2 0x0301 ++ leNum 4 (bitsN (firmwareVersion s) 16 16))
        { s with fw := { s.fw with session := some (BitVec.ofNat 16 v), lostTotal := 0 } }

/-! ### INFO and COUNTERS (R392, R393) -/

/-- A resource word of the INFO record. -/
def resWord (s : State) (kind i : Nat) (retired : Bool) : Word :=
  let o := ownerOf s kind i
  at36 0 (epochNat s kind i) ||| bit36 16 o.isSome ||| bit36 17 (o.any fun x => x.2) ||| at36 18 ((o.map fun x => x.1).getD 0) |||
    bit36 22 retired

/-- A task word of the INFO record. -/
def taskWord (s : State) (t : Fin 256) : Word :=
  let x := s.kp.tasks.get t
  let f := s.fw.taskFrom.get t
  put36 0 x.tstate ||| put36 2 x.onbarge ||| bit36 8 f.isSome ||| at36 9 ((f.map fun n => n.val).getD 0)

/-- The INFO record: 1,228 words. -/
def infoRecord (s : State) : List Word :=
  let ready := readyBits s
  [put36 0 (firmwareVersion s), put36 0 (s.fw.session.getD 0), at36 0 0x7240 ||| put36 16 s.sec.loaded.step, put36 0 s.crp.profile,
   keeperRead s 1, keeperRead s 0x10, keeperRead s 0x11,
   put36 0 (fld ready 0 32), put36 0 (fld ready 32 32), put36 0 (fld ready 64 32), (crpRead s 0x2A).getD 0, put36 0 s.fw.lostTotal,
   0, 0, 0, 0] ++
  ((List.finRange 12).map fun n => at36 0 (epochNat s 1 n.val) ||| put36 23 (s.fw.image.get n).state) ++
  ((List.finRange 48).map fun g =>
    at36 0 (epochNat s 2 g.val) ||| bit36 16 (!bit s.crp.bhold g.val) ||| bit36 22 (bit s.kp.retired g.val)) ++
  ((List.finRange 384).map fun n => resWord s 3 n.val (s.weir.ch.get n).retired) ++
  ((List.finRange 192).map fun n => resWord s 4 n.val ((s.pwm.ch.get n).st == 2)) ++
  ((List.finRange 128).map fun n => resWord s 5 n.val (s.fio.fi.get n).retired) ++
  ((List.finRange 128).map fun n => resWord s 6 n.val ((s.fio.fo.get n).st == 2)) ++
  ((List.finRange 16).map fun l => resWord s 7 l.val (s.tl.link.get l).retired) ++
  ((List.finRange 16).map fun m => resWord s 8 m.val false) ++
  ((List.finRange 32).map fun i => resWord s 9 i.val false) ++
  (List.finRange 256).map (taskWord s)

/-- A word in slot form (R362). -/
def slotForm (w : Word) : List Byte := leNum 8 w.toNat

/-- Mailbox k's command as it goes on. -/
def setSlot (k : Fin 4) (c : FwCmd) (s : State) : State := { s with fw := { s.fw with slot := vput s.fw.slot k (some c) } }

/-- Bytes are given to the egress engine as a transfer of the Harbourmaster's requester (R370, R392, log entry 91). -/
def giveTransfer (haddr : Nat) (bs : List Byte) (s : State) : State :=
  let d : EgDesc := { haddr := BitVec.ofNat 64 haddr, waddr := 0, len := 0, fmt := 0, stream := false
                      own := some { bytes := bs, number := s.ferry.ownBegun } }
  watchLine 12 (fun s => s.modEq 12 fun x => { x with queue := x.queue ++ [d] })
    { s with ferry := { s.ferry with ownBegun := s.ferry.ownBegun + 1 } }

/-- Words go to host memory in slot form through the Harbourmaster's egress requester, cut at the end of the buffer (R392): the
transfer waits for a place in the requester's queue. -/
def sendWords (k : Fin 4) (haddr buffer : Nat) (ws : List Word) (c : FwCmd) (s : State) : Reply :=
  let bs := (ws.flatMap slotForm).take buffer
  if bs.isEmpty then answer stOk (leNum 4 0) s
  else if 8 ≤ (s.ferry.eq.get 12).queue.length then (none, s)
  else (none, giveTransfer haddr bs (setSlot k { c with sending := some s.ferry.ownBegun } s))

/-- The transfer of an INFO or COUNTERS has ended, or its command waits (R392). -/
def transferEnd (q : Nat) (s : State) : Reply :=
  let s1 := { s with ferry := { s.ferry with ownEnds := s.ferry.ownEnds.filter fun e => e.1 != q } }
  match s.ferry.ownEnds.find? fun e => e.1 == q with
  | some (_, some n) => answer stOk (leNum 4 n) s1
  | some (_, none) => answer stHostErr [] s1
  | none => (none, s)

def infoReply (k : Fin 4) (c : FwCmd) (s : State) : Reply :=
  match c.sending with
  | some q => transferEnd q s
  | none =>
    if c.arg 0 8 % 8 ≠ 0 then answer stBadArg [] s
    else sendWords k (c.arg 0 8) (c.arg 8 4) (infoRecord s) c s

/-! ### The firmware's own Wharf accesses (R232, R239, R240) -/

/-- The firmware begins no access while a transaction of port HM is outstanding: all of its own have one ID (R240, log entry 62). -/
def hmIdle (s : State) : Bool := s.wharf.cur.get 12 == 0

/-- An access that the firmware makes through the Wharf (R232, R403): a single beat, accepted, granted as soon as its target is free,
and answered; `f` is what it does at its target. -/
def hmTx (addr : Nat) (size : TxSize) (write : Bool) (data : List Word) (f : State → State) (s : State) : State :=
  let t : Tx := { addr := BitVec.ofNat 32 addr, write := write, size := size, id := 0, world := false, data := data }
  let q := s.wharf.seq
  let s1 := acceptTx 12 t 0 (xclk s) s
  let s2 := match s1.wharf.reqs.find? fun r => r.seq == q with
    | some r => respond r .ok [] (f (noteGrant r (max (xclk s) (s1.wharf.busyTill.get r.target)) s1))
    | none => s1
  (takeResponse 12 q s2).2

/-- A register that the firmware writes, or reads, by word access. -/
def hmWrite (addr : Nat) (v : Word) (f : State → State) : State → State := hmTx addr .word true [v] f
def hmRead (addr : Nat) : State → State := hmTx addr .word false [] id

/-! ### COUNTERS (R392) -/

/-- The highest listed word of a block that COUNTERS selects, and the address of its registers, none for the Keeper's, which lie
behind the load port (R392). -/
def counterBlock (block index : Nat) : Option (Nat × Option Nat) :=
  match block with
  | 0 => some (0x93, some 0x20000000)
  | 1 => some (0x11B, some 0x20080000)
  | 2 => some (0x1FFF, none)
  | 3 => (basinIx index).map fun n => (0x3F, some (0x20100000 + 0x10000 * n.val))
  | 4 => some (0xCFF, some 0x20030000)
  | 5 => some (0xFFB, some 0x20040000)
  | 6 => some (0x8FF, some 0x20050000)
  | 7 => some (0x7FF, some 0x20060000)
  | 8 => some (0x4A, some 0x20070000)
  | _ => none

/-- One word of a block read for COUNTERS, the words before it in reverse; an unmapped one is 0, and KP_LOG is not read. -/
def counterWord (base : Option Nat) (r : List Word × State) (w : Nat) : List Word × State :=
  match base with
  | none => ((if w = 0x200 then 0 else keeperRead r.2 w) :: r.1, r.2)
  | some a =>
    match perRead (a + 4 * w) r.2 with
    | some (v, s) => (v :: r.1, hmRead (a + 4 * w) s)
    | none => (0 :: r.1, r.2)

def countersReply (k : Fin 4) (c : FwCmd) (s : State) : Reply :=
  match c.sending, counterBlock (c.arg 0 1) (c.arg 1 1) with
  | some q, _ => transferEnd q s
  | none, none => answer stBadArg [] s
  | none, some (hi, base) =>
    if c.arg 8 8 % 8 ≠ 0 then answer stBadArg [] s
    else match (if c.arg 0 1 = 3 then basinIx (c.arg 1 1) else none) with
      | some n =>
        if loading s k n then busyLoading n s
        else if !hmIdle s then (none, s)
        else
          let r := (List.range (hi + 1)).foldl (counterWord base) ([], s)
          sendWords k (c.arg 8 8) (c.arg 16 4) r.1.reverse c r.2
      | none =>
        if !hmIdle s then (none, s)
        else
          let r := (List.range (hi + 1)).foldl (counterWord base) ([], s)
          sendWords k (c.arg 8 8) (c.arg 16 4) r.1.reverse c r.2

/-! ### IMAGE_STAT (R392) -/

def imageStatReply (k : Fin 4) (c : FwCmd) (s : State) : Reply :=
  match basinOfId (c.arg 0 4) with
  | none => answer stBadArg [] s
  | some n => withEpoch s 1 n.val (c.arg 4 2) <|
    if loading s k n then busyLoading n s
    else
      let x := s.fw.image.get n
      answer stOk (leNum 8 x.state.toNat ++ leNum 8 x.build.toNat ++ leNum 8 x.secver.toNat) s

/-! ### The retained image (R402, R404) -/

/-- The address of a word of the resources that a manifest names, by the kinds of R386 and the block's own word: Weir channels,
HRPWM channels, inputs, outputs, links and timebases (R235). -/
def cfgAddr (kind i k : Nat) : Nat :=
  match kind with
  | 3 => 0x20030000 + 4 * (0x100 + 8 * i + k)
  | 4 => 0x20040000 + 4 * (0x400 + 16 * i + k)
  | 5 => 0x20050000 + 4 * (0x100 + 8 * i + k)
  | 6 => 0x20050000 + 4 * (0x500 + 8 * i + k)
  | 7 => 0x20060000 + 4 * (0x40 + 16 * i + k)
  | _ => 0x20040000 + 4 * (0x40 + 8 * i + k)

/-- A word of a resource. -/
def cfgRead (s : State) (kind i k : Nat) : Word := ((perRead (cfgAddr kind i k) s).map fun r => r.1).getD 0

/-- A word of a resource is written through PER. -/
def cfgWrite (kind i k : Nat) (v : Word) (s : State) : State :=
  hmWrite (cfgAddr kind i k) v (fun s => (perWrite (cfgAddr kind i k) v s).getD s) s

/-- The word that holds EN, in its bit 0. -/
def enWord (kind : Nat) : Nat := match kind with
  | 4 => 2
  | 5 => 4
  | 6 => 4
  | _ => 0

/-- EN of a resource is written, in its block. -/
def blockEn (kind i : Nat) (en : Bool) (s : State) : State :=
  match kind with
  | 3 => if h : i < 384 then weirSetEnable ⟨i, h⟩ en s else s
  | 4 => if h : i < 192 then pwmSetEnable ⟨i, h⟩ en s else s
  | 5 => if h : i < 128 then fiSetEnable ⟨i, h⟩ en s else s
  | 6 => if h : i < 128 then foSetEnable ⟨i, h⟩ en s else s
  | 7 => if h : i < 16 then tlSetEnable ⟨i, h⟩ en s else s
  | 8 => if h : i < 16 then tbSetEnable ⟨i, h⟩ en s else s
  | _ => s

/-- EN of a resource is written through PER. -/
def setEn (kind i : Nat) (en : Bool) (s : State) : State :=
  hmWrite (cfgAddr kind i (enWord kind)) (cfgRead s kind i (enWord kind)) (blockEn kind i en) s

/-- A field of a resource's word takes a value: an enabled channel is disabled first, unless it has the value already. -/
def setCfgField (kind i k lo width v : Nat) (s0 : State) : State :=
  let s := hmRead (cfgAddr kind i k) s0
  let old := cfgRead s kind i k
  let new := setField old lo width v
  if new = old then s else cfgWrite kind i k (if k = enWord kind then new &&& ~~~1 else new) (setEn kind i false s)

/-- The kind of resource that a SYM class names (R386, R401); 0 where it names none. -/
def classKind (c : Nat) : Nat := if 5 ≤ c ∧ c ≤ 14 then 3 + (c - 5) / 2 else if c = 15 then 8 else 0

/-- Where a manifest entry writes (R400): kind of resource, word, lowest bit and width of the field; its register field index is
read as a SYM class (log entry 64). -/
def manifestField (e : ManEntry) : Option (Nat × Nat × Nat × Nat) :=
  match e.kind, e.field with
  | 3, 5 => some (3, 1, 0, 12)
  | 3, 6 => some (3, 1, 12, 12)
  | 3, 7 => some (4, 3, 0, 12)
  | 3, 9 => some (5, 5, 0, 12)
  | 3, 11 => some (6, 6, 0, 12)
  | 3, 13 => some (7, 0, 12, 12)
  | 4, 5 => some (3, 2, 25, 8)
  | 4, 9 => some (5, 4, 26, 8)
  | 4, 13 => some (7, 2, 25, 8)
  | 5, 7 => some (4, 2, 9, 6)
  | 5, 11 => some (6, 4, 2, 6)
  | 5, 13 => some (7, 0, 6, 6)
  | _, _ => none

/-- The value that a manifest entry writes: a residue as it is, a task or a group as it is bound. -/
def manifestValue (bs : List Binding) (e : ManEntry) : Option Nat :=
  match e.kind with
  | 4 => boundIndex bs 3 e.value
  | 5 => boundIndex bs 4 e.value
  | _ => some e.value

/-- One manifest entry is written (R402). -/
def applyEntry (n : BasinIx) (bs : List Binding) (s : State) (e : ManEntry) : State :=
  let reg (off : Nat) : State := hmWrite (0x20100000 + 0x10000 * n.val + 4 * off) (at36 0 e.value)
    (fun s => (basinWrite n off (at36 0 e.value) s).getD s) s
  match e.kind with
  | 1 => if e.target < 16 then reg e.target else s
  | 2 => if e.target < 4 then reg (0x10 + e.target) else s
  | _ =>
    match manifestField e, boundIndex bs (2 * ((e.field - 5) / 2) + 5) e.target, manifestValue bs e with
    | some (kind, k, lo, width), some i, some v => setCfgField kind i k lo width v s
    | _, _, _ => s

/-- The resources that an image binds, with the world that its manifest gives them (R402): vital where an entry of kind 3, 4 or
5 names them. -/
def boundResources (bs : List Binding) (man : List ManEntry) : List (Nat × Nat × Bool) :=
  (bs.filterMap fun b =>
    let kind := classKind b.1
    if kind = 0 then none
    else some (kind, b.2.2, man.any fun e =>
      decide (3 ≤ e.kind ∧ e.kind ≤ 5) && classKind e.field == kind && boundIndex bs b.1 e.target == some b.2.2)).dedup

/-- The bound timebases that a vital claim owns: they wait for their image as its channels do (R388, R390). -/
def boundTimebases (s : State) (bs : List Binding) : List Nat :=
  (bs.filterMap fun b => if classKind b.1 = 8 ∧ (ownerOf s 8 b.2.2).any (fun o => o.2) then some b.2.2 else none).dedup

/-- EN = 1 of every bound vital timebase and then of every bound vital channel (R390, R402), the higher first: an antivalent pair's odd
channel before its even one. -/
def enableVital (bs : List Binding) (man : List ManEntry) (s : State) : State :=
  ((List.range 384).reverse).foldl (fun s i =>
    (boundResources bs man).foldl (fun s r => if r.2.1 = i ∧ r.2.2 then setEn r.1 i true s else s) s)
    ((boundTimebases s bs).foldl (fun s m => setEn 8 m true s) s)

/-- Words in ascending order, by their row of eight. -/
def rowsOf : List (Nat × Word) → List (Nat × List (Nat × Word))
  | [] => []
  | w :: ws =>
    match rowsOf ws with
    | [] => [(w.1 / 8, [w])]
    | (r, xs) :: rest => if r = w.1 / 8 then (r, w :: xs) :: rest else (w.1 / 8, [w]) :: (r, xs) :: rest

/-- One row of an image's data is written through BTn (R402). -/
def writeRow (n : BasinIx) (s : State) (row : Nat × List (Nat × Word)) : State :=
  let named (i : Nat) : Bool := row.2.any fun w => w.1 == 8 * row.1 + i
  let enables := BitVec.ofNat 32 ((List.range 8).map fun i => if named i then 15 * 16 ^ i else 0).sum
  let data := (List.range 8).map fun i => (kget row.2 (8 * row.1 + i)).getD 0
  hmTx (0x01000000 + n.val * 0x100000 + 32 * row.1) (.row enables) true data
    (fun s => s.modBasin n fun b => { b with mem := b.mem.write (row.2.flatMap fun w => wordsAt (4 * w.1) [w.2]) }) s

/-- Rows of an image's data are written into a basin's memory (R402). -/
def writeRows (n : BasinIx) (rows : List (Nat × List (Nat × Word))) (s : State) : State := rows.foldl (writeRow n) s

/-- The manifest is written. -/
def applyManifest (n : BasinIx) (bs : List Binding) (man : List ManEntry) (s : State) : State :=
  enableVital bs man (man.foldl (applyEntry n bs) s)

/-- The retained data and manifest of a zeroed basin are applied again (R404). -/
def reapply (n : BasinIx) (s : State) : State :=
  let x := s.fw.image.get n
  if x.stale then
    let s1 := applyManifest n x.bindings x.manifest (writeRows n (rowsOf x.words) s)
    { s1 with fw := { s1.fw with image := vmod s1.fw.image n fun y => { y with stale := false } } }
  else s

/-! ### ROLE (R392, R404) -/

/-- An active task has ONBARGE or STBY on the barge. -/
def taskOn (s : State) (g : BargeIx) : Bool :=
  s.kp.tasks.toList.any fun t => t.tstate == 1 && (t.onbarge.toNat == g.val || (t.stbyen && t.stby == g.val))

def roleReply (k : Fin 4) (c : FwCmd) (s : State) : Reply :=
  match bargeOfId (c.arg 0 4) with
  | none => answer stBadArg [] s
  | some g =>
    let n := basinOf g
    let run := c.arg 6 1 == 1
    let image := s.fw.image.get n
    if 1 < c.arg 6 1 then answer stBadArg [] s
    else withEpoch s 2 g.val (c.arg 4 2) <|
      if (!run && taskOn s g) || (run && (bit s.kp.retired g.val || image.state != 2)) then answer stBadState (leNum 4 (resId 2 g.val)) s
      else if run && basinDown s n then answer stNotReady [] s
      else if loading s k n then busyLoading n s
      else if run ∧ !awake s n then (none, wakeBasin n s)
      else if !hmIdle s then (none, s)
      else
        let s1 := hmWrite (0x20070000 + 4 * (3 + g.val / 36)) 0 (writeHold g (!run)) (if run then reapply n s else s)
        answer stOk (epochData s1 2 g.val) s1

/-! ### TASK_START, TASK_STOP and KEEPER (R394) -/

/-- KP_CMDST in a response. -/
def cmdstData (s : State) : List Byte := leNum 4 (keeperRead s 3).toNat

/-- A Keeper command through the load port, in its turn (R187), and its outcome (R175, R394). -/
def keeperReply (word : Nat) (v : Word) (mismatch : Bool) (refused : State → Bool) (data : Bool) (s : State) : Reply :=
  let s1 := loadPort word v (!mismatch) (enterStage 5 s)
  if !inOrder s 5 then (none, s)
  else if mismatch ∨ refused s1 then answer stKeeper (cmdstData s1) s1
  else answer stOk (if data then cmdstData s1 else []) s1

/-- The last command was refused. -/
def cmdRefused (s : State) : Bool := s.kp.cmdResult != 0

/-- A Keeper entry is loaded: its words through the load port (R175, R402, R404). `differ` lists the command's port writes, the first
of this entry being number `k`, in which the two processors differ. -/
def loadEntry (differ : List Nat) (k : Nat) (t : Fin 256) (ws : List Word) (s : State) : State :=
  (ws.zipIdx).foldl (fun s w => loadPort (0x1000 + 16 * t.val + w.2) w.1 (!differ.contains (k + w.2)) s) s

/-- The words of a task's entry that is to be loaded again from the retained image (R404). -/
def staleEntry (t : Fin 256) (n : BasinIx) (s : State) : List Word :=
  if s.fw.taskStale.get t then (((s.fw.image.get n).keeper.find? fun e => e.1 == t.val).map fun e => e.2).getD [] else []

/-- The entry of a task that a reset has cleared is loaded again from the retained image (R404). -/
def reloadTask (differ : List Nat) (t : Fin 256) (n : BasinIx) (s : State) : State :=
  if s.fw.taskStale.get t then
    let s1 := loadEntry differ 0 t (staleEntry t n s) s
    { s1 with fw := { s1.fw with taskStale := vput s1.fw.taskStale t false } }
  else s

/-- The barge that a Keeper task's entry names is halted (R412). -/
def halted (s : State) (b : Nat) : Bool :=
  match bargeIx b with
  | some g => (s.barges.get g).dbg.halted
  | none => false

/-- What TASK_START and TASK_STOP have in common: the task and the basin whose image loaded it. -/
def taskReply (k : Fin 4) (c : FwCmd) (s : State) (go : Fin 256 → BasinIx → Reply) (ready : Fin 256 → BasinIx → Option Nat) : Reply :=
  match basinOfId (c.arg 4 4) with
  | none => answer stBadArg [] s
  | some n =>
    if h : c.arg 0 2 < 256 then
      let t : Fin 256 := ⟨c.arg 0 2, h⟩
      withEpoch s 1 n.val (c.arg 8 2) <|
        if s.fw.taskFrom.get t ≠ some n ∨ !s.fw.taskUsable.get t then answer stBadState (leNum 4 (resId 1 n.val)) s
        else match ready t n with
          | some st => answer st (if st = stBadState then leNum 4 (resId 1 n.val) else []) s
          | none => if loading s k n then busyLoading n s else go t n
    else answer stBadArg [] s

/-- TASK_START's own checks: neither barge of the entry is halted, the Keeper is powered, and the basin is usable (R412). -/
def startReady (s : State) (t : Fin 256) (n : BasinIx) : Option Nat :=
  let x := (reloadTask [] t n s).kp.tasks.get t
  if halted s x.barge ∨ (x.stbyen ∧ halted s x.stby) then some stBadState
  else if !s.kp.powered ∨ basinDown s n then some stNotReady else none

/-- TASK_START (R394): the port writes of a reloaded entry come before that of the command. -/
def taskStartReply (k : Fin 4) (differ : List Nat) (c : FwCmd) (s : State) : Reply :=
  taskReply k c s
    (fun t n =>
      if !awake s n then (none, wakeBasin n s)
      else if !inOrder s 5 then (none, s)
      else keeperReply 2 (cmdWord 3 (BitVec.ofNat 8 t.val)) (differ.contains (staleEntry t n s).length) cmdRefused false
        (reloadTask differ t n s))
    (startReady s)

def taskStopReply (k : Fin 4) (mismatch : Bool) (c : FwCmd) (s : State) : Reply :=
  taskReply k c s (fun t _ => keeperReply 2 (cmdWord 4 (BitVec.ofNat 8 t.val)) mismatch cmdRefused false s)
    fun _ _ => if s.kp.powered then none else some stNotReady

/-- The basin of the barge that a KEEPER op names (R394, R205). -/
def keeperBasin (c : FwCmd) : Option BasinIx :=
  if c.arg 0 1 = 5 ∨ c.arg 0 1 = 7 ∨ c.arg 0 1 = 8 then (bargeIx (c.arg 1 1)).map basinOf else none

/-- KEEPER (R394). -/
def keeperCmdReply (k : Fin 4) (mismatch : Bool) (c : FwCmd) (s : State) : Reply :=
  let op := c.arg 0 1
  let v := at36 0 (c.arg 4 4)
  if !(op = 1 ∨ op = 2 ∨ (5 ≤ op ∧ op ≤ 9) ∨ op = 16 ∨ op = 17) then answer stBadArg [] s
  else if !s.kp.powered then answer stNotReady [] s
  else match (keeperBasin c).filter (loading s k) with
  | some n => busyLoading n s
  | none =>
  if op = 16 then keeperReply 4 v mismatch (fun _ => !(s.kp.mode = .starting ∨ s.kp.mode = .armed)) true s
  else if op = 17 then keeperReply 5 v mismatch (fun _ => s.kp.mode ≠ .starting) true s
  else keeperReply 2 (cmdWord op (BitVec.ofNat 8 (c.arg 1 1))) mismatch cmdRefused true s

/-! ### LAT_TOL (R395) -/

/-- FERRY_LTR for a link tolerance in ns: VALUE, SCALE and REQ. -/
def ltrWord (old : BitVec 14) (t : Nat) : BitVec 14 :=
  if t = 0xFFFFFFFF then fld old 0 13 |>.setWidth 14
  else
    match (List.range 6).find? fun k => decide (t / 32 ^ k ≤ 1023) with
    | some k => BitVec.ofNat 14 (t / 32 ^ k + k * 2 ^ 10 + 2 ^ 13)
    | none => old

def latTolReply (k : Fin 4) (c : FwCmd) (s : State) : Reply :=
  let d := c.arg 0 1
  let t := c.arg 4 4
  let set (s : State) : State := { s with fw := { s.fw with latTol := vmodN s.fw.latTol d fun _ => BitVec.ofNat 32 t } }
  if 12 < d then answer stBadArg [] s
  else match basinIx d with
    | some n => if loading s k n then busyLoading n s else answer stOk [] (choosePowers (set s))
    | none =>
      let ltr (s : State) : State := { s with ferry := { s.ferry with ltr := ltrWord s.ferry.ltr t } }
      if !hmIdle s then (none, s) else answer stOk [] (hmWrite (0x20080000 + 4 * 8) (put36 0 (ltrWord s.ferry.ltr t)) ltr (set s))

/-! ### RESET (R397) -/

/-- A resource of the blocks is reset, with the epochs that increase. -/
def resetResource (kind i : Nat) (s : State) : State :=
  match kind with
  | 3 =>
    if h : i < 384 then
      eachMember (weirGroupOf ⟨i, h⟩) (fun m s => ringFor 3 m.val (s.bump 3 m.val)) (weirGroupReset (weirGroupOf ⟨i, h⟩) s)
    else s
  | 4 => if h : i < 192 then ringFor 4 i ((pwmReset ⟨i, h⟩ s).bump 4 i) else s
  | 5 => if h : i < 128 then ringFor 5 i ((fiReset ⟨i, h⟩ s).bump 5 i) else s
  | 6 => if h : i < 128 then ringFor 6 i ((foReset ⟨i, h⟩ s).bump 6 i) else s
  | 7 => if h : i < 16 then ringFor 7 i ((tlReset ⟨i, h⟩ s).bump 7 i) else s
  | _ => s

def resetReply (k : Fin 4) (c : FwCmd) (s : State) : Reply :=
  let id := c.arg 0 4
  let kind := idKind id
  let i := idIndex id
  if kind < 1 ∨ 7 < kind ∨ (epochOf s.fw kind i).isNone then answer stBadArg [] s
  else withEpoch s kind i (c.arg 4 2) <|
    match basinOfId id, bargeOfId id with
    | some n, _ =>
      if loading s k n then busyLoading n s
      else
        let s1 := resetBasin n s
        answer stOk (epochData s1 1 i) s1
    | _, some g =>
      if loading s k (basinOf g) then busyLoading (basinOf g) s
      else
        let s1 := commandReset g s
        answer stOk (epochData s1 2 i) s1
    | none, none =>
      if (ownerOf s kind i).isNone then answer stNotOwner (leNum 4 id) s
      else
        let s1 := resetResource kind i s
        answer stOk (epochData s1 kind i) s1

/-! ### EVENT_ROUTE and SET_TIME (R392, R339) -/

def eventRouteReply (c : FwCmd) (s : State) : Reply :=
  let code := c.arg 0 1
  let r := c.arg 1 1
  if code < 1 ∨ 10 < code ∨ 3 < r then answer stBadArg [] s
  else answer stOk [] { s with fw := { s.fw with route := vmodN s.fw.route code fun _ => BitVec.ofNat 2 r } }

def setTimeReply (c : FwCmd) (s : State) : Reply :=
  let set := c.arg 8 1 % 2 == 1
  let trimmed := c.arg 8 1 / 2 % 2 == 1
  let t := c.arg 0 8
  if trimmed && decide (2 ^ 20 ≤ c.arg 12 4 ∨ 1 < c.arg 16 1) then answer stBadArg [] s
  else if set && !(s.kp.mode = .starting ∧ s.crp.bhold = BitVec.allOnes 48) then answer stBadState (leNum 4 0) s
  else if !hmIdle s then (none, s)
  else
    let put (off : Nat) (v : Word) (s : State) : State :=
      hmWrite (0x20070000 + 4 * off) v (fun s => (crpWrite off v s).getD s) s
    let s1 := if set then put 0x43 (at36 0 (t / 2 ^ 36)) (put 0x42 (at36 0 t) s) else s
    answer stOk [] (if trimmed then put 0x44 (at36 0 (c.arg 12 4) ||| bit36 20 (c.arg 16 1 == 1)) s1 else s1)

/-- RESET_HOST (R357, R392): no response. -/
def resetHostReply (_ : FwCmd) (s : State) : Reply := (none, hostScopeReset s)

/-! ### The commands -/

/-- HELLO (R383). -/
def execHello (dt : Nat) (k : Fin 4) (s : State) : Out := registerAct s dt (runCommand k 0x0001 helloReply)

/-- INFO (R393). -/
def execInfo (dt : Nat) (k : Fin 4) (s : State) : Out := registerAct s dt (runCommand k 0x0002 (infoReply k))

/-- RESET_HOST (R357). -/
def execResetHost (dt : Nat) (k : Fin 4) (s : State) : Out := registerAct s dt (runCommand k 0x0003 resetHostReply)

/-- IMAGE_STAT (R392). -/
def execImageStat (dt : Nat) (k : Fin 4) (s : State) : Out := registerAct s dt (runCommand k 0x0011 (imageStatReply k))

/-- ROLE (R392). -/
def execRole (dt : Nat) (k : Fin 4) (s : State) : Out := registerAct s dt (runCommand k 0x0020 (roleReply k))

/-- TASK_START (R394). -/
def execTaskStart (dt : Nat) (k : Fin 4) (differ : List Nat) (s : State) : Out :=
  registerAct s dt (runCommand k 0x0030 (taskStartReply k differ))

/-- TASK_STOP (R394). -/
def execTaskStop (dt : Nat) (k : Fin 4) (mismatch : Bool) (s : State) : Out :=
  registerAct s dt (runCommand k 0x0031 (taskStopReply k mismatch))

/-- KEEPER (R394). -/
def execKeeper (dt : Nat) (k : Fin 4) (mismatch : Bool) (s : State) : Out := registerAct s dt (runCommand k 0x0038 (keeperCmdReply k mismatch))

/-- LAT_TOL (R395). -/
def execLatTol (dt : Nat) (k : Fin 4) (s : State) : Out := registerAct s dt (runCommand k 0x0050 (latTolReply k))

/-- COUNTERS (R392). -/
def execCounters (dt : Nat) (k : Fin 4) (s : State) : Out := registerAct s dt (runCommand k 0x0060 (countersReply k))

/-- RESET (R397). -/
def execReset (dt : Nat) (k : Fin 4) (s : State) : Out := registerAct s dt (runCommand k 0x0070 (resetReply k))

/-- EVENT_ROUTE (R392). -/
def execEventRoute (dt : Nat) (k : Fin 4) (s : State) : Out := registerAct s dt (runCommand k 0x0080 eventRouteReply)

/-- SET_TIME (R339, R392). -/
def execSetTime (dt : Nat) (k : Fin 4) (s : State) : Out := registerAct s dt (runCommand k 0x0090 setTimeReply)

end Sys2Proof.Machine
end

