-- ==== Sys2Proof/Machine/Claims.lean ====
section
/-! DEFINITION. CLAIM and RELEASE (R388 to R392): companions, delivery areas and their limits, the blocks' rules, and what a claim
writes. -/

namespace Sys2Proof.Machine

/-! ### Configuration words (R390, R392) -/

/-- A resource's configuration words, in the order of CLAIM. -/
def cfgWords (kind : Nat) : List Nat :=
  match kind with
  | 3 => [0, 1, 2, 3, 4, 5, 6]
  | 4 => [2, 3, 4, 5, 6, 7, 8]
  | 5 => [4, 5]
  | 6 => [4, 5, 6]
  | 7 => [0, 1, 2, 3, 8]
  | 8 => [0, 1, 2, 3, 4, 5]
  | _ => []

/-- The ownership fields of a configuration word (R270, R294, R316, R334). -/
def ownerMask (kind k : Nat) : Word :=
  match kind, k with
  | 3, 1 => mask36 24 2
  | 3, 2 => mask36 0 4
  | 4, 3 => mask36 12 6
  | 5, 5 => mask36 12 5 ||| bit36 21 true
  | 6, 6 => mask36 12 6
  | 7, 2 => mask36 0 4
  | 7, 3 => mask36 24 2
  | _, _ => 0

/-- What the ownership fields of a word hold for a basin and world. -/
def ownerBits (kind k : Nat) (n : BasinIx) (world : Bool) : Word :=
  match kind, k with
  | 3, 1 => bit36 24 true ||| bit36 25 world
  | 3, 2 => at36 0 n.val
  | 4, 3 => at36 12 n.val ||| bit36 16 world ||| bit36 17 true
  | 5, 5 => at36 12 n.val ||| bit36 16 world ||| bit36 21 true
  | 6, 6 => at36 12 n.val ||| bit36 16 world ||| bit36 17 true
  | 7, 2 => at36 0 n.val
  | 7, 3 => bit36 24 true ||| bit36 25 world
  | _, _ => 0

/-- OWNV of a word. -/
def ownvMask (kind k : Nat) : Word :=
  match kind, k with
  | 3, 1 => bit36 24 true
  | 4, 3 => bit36 17 true
  | 5, 5 => bit36 21 true
  | 6, 6 => bit36 17 true
  | 7, 3 => bit36 24 true
  | _, _ => 0

/-- The residue fields of a word (R390). -/
def residueMask (kind k : Nat) : Word :=
  match kind, k with
  | 3, 1 => mask36 0 24
  | 4, 3 => mask36 0 12
  | 5, 5 => mask36 0 12
  | 6, 6 => mask36 0 12
  | 7, 0 => mask36 12 12
  | _, _ => 0

/-- Bits of a word that a claim does not carry: EN, and status bits beside configuration. -/
def claimMask (kind k : Nat) : Word := if kind = 8 ∧ k = 0 then mask36 1 9 else if k = enWord kind then ~~~1 else ~~~0

/-- A configuration word as the claim leaves it (R388, R390): as given, else as it stands; EN = 0, ownership as claimed, and in
a vital claim the residues as they stand. -/
def claimedWord (kind k : Nat) (n : BasinIx) (world : Bool) (old : Word) (given : Option Word) : Word :=
  let keep := if world then residueMask kind k else 0
  let w := mergeBits keep (given.getD old &&& claimMask kind k) old
  mergeBits (ownerMask kind k) w (ownerBits kind k n world)

/-- The words that a CLAIM carries: up to seven, in slot form. -/
def givenWords (c : FwCmd) : List Word :=
  (List.range (min 7 ((c.len - 8) / 8))).map fun i => at36 0 (c.arg (8 + 8 * i) 8)

/-- A resource gets its claimed configuration. -/
def writeClaim (kind i : Nat) (n : BasinIx) (world : Bool) (ws : List Word) (s : State) : State :=
  ((cfgWords kind).zipIdx).foldl (fun s e =>
    cfgWrite kind i e.1 (claimedWord kind e.1 n world (cfgRead s kind i e.1) ws[e.2]?) (hmRead (cfgAddr kind i e.1) s))
    (setEn kind i false s)

/-! ### Companions (R388) -/

/-- The odd partner that the configuration of a resource joins to it (R279, R305). -/
def partnerOf (s : State) (kind i : Nat) : Option Nat :=
  match kind with
  | 4 => if i % 2 = 0 ∧ (s.pwm.ch[i]?.any fun c => c.pair) then some (i + 1) else none
  | 5 => if i % 2 = 0 ∧ (s.fio.fi[i]?.any fun c => c.pair) then some (i + 1) else none
  | _ => none

/-- The shared ball of a resource, and whether the resource is its field output (R292). -/
def ballOf (kind i : Nat) : Option (Nat × Bool) :=
  match kind with
  | 4 => if 160 ≤ i then some (i - 160, false) else none
  | 6 => if 96 ≤ i then some (i - 96, true) else none
  | _ => none

/-- A resource with its ball. -/
def withBall (kind i : Nat) : List (Nat × Nat) := (kind, i) :: ((ballOf kind i).map fun b => (9, b.1)).toList

/-- What a claim takes, by kind and index: the resource and its ball, its partner and that one's ball (R292, R388). -/
def claimSet (s : State) (kind i : Nat) : List (Nat × Nat) :=
  withBall kind i ++ ((partnerOf s kind i).map (withBall kind)).getD []

/-! ### Delivery areas (R259, R264, R327) -/

/-- A resource's delivery area: its basin, its quay bank, its first nonet and the nonet after its last. -/
structure AreaSpan where
  basin : Nat
  bank : Bool
  lo : Nat
  hi : Nat
  deriving DecidableEq, Repr

/-- The area from its parts: one half, or two in snapshot mode. -/
def areaSpan (basin : Nat) (bank : Bool) (row depth rs : Nat) (frz : Bool) : AreaSpan :=
  let lo := areaBase bank row
  { basin := basin, bank := bank, lo := lo, hi := lo + 32 + (if frz then 2 else 1) * depth * rs }

def areaOf (s : State) (kind i : Nat) : Option AreaSpan :=
  match kind with
  | 3 => s.weir.ch[i]?.map fun c => areaSpan c.basin c.bank c.row c.depth c.recSize c.frz
  | 7 => s.tl.link[i]?.map fun l => areaSpan l.dbasin l.dbank l.drow l.depth l.recSize l.frz
  | _ => none

/-- Two areas overlap. -/
def AreaSpan.meets (a b : AreaSpan) : Bool := a.basin == b.basin && a.bank == b.bank && decide (a.lo < b.hi ∧ b.lo < a.hi)

/-- An owned delivery area other than the resource's own that overlaps it. -/
def areaTaken (s : State) (kind i : Nat) : Option (Nat × Nat) :=
  match areaOf s kind i with
  | none => none
  | some a =>
    (((List.range 384).map fun j => (3, j)) ++ (List.range 16).map fun j => (7, j)).find? fun r =>
      r != (kind, i) && (ownerOf s r.1 r.2).isSome && (areaOf s r.1 r.2).any a.meets

/-- The area leaves its quay bank or reaches the emergency slots (R259). -/
def areaOut (a : AreaSpan) : Bool := decide ((if a.bank then 0xFFC00 else 0xF0000) < a.hi)

/-! ### The blocks' rules (R389) -/

/-- FRZ with FTASK of a resource's present configuration. -/
def freezeTask (s : State) (kind i : Nat) : Option Nat :=
  match kind with
  | 3 => s.weir.ch[i]?.bind fun c => if c.frz then some c.ftask.toNat else none
  | 5 => s.fio.fi[i]?.bind fun c => if c.frz then some c.ftask.toNat else none
  | 7 => s.tl.link[i]?.bind fun l => if l.frz then some l.ftask.toNat else none
  | _ => none

/-- A Keeper task is active. -/
def taskActive (s : State) (t : Nat) : Bool := (s.kp.tasks[t]?.any fun x => x.tstate == 1)

/-- The VDDIO bank of a resource's balls (chapter 17); none for a timebase. -/
def bankOfBall (kind i : Nat) : Option (Fin 12) :=
  match kind with
  | 3 => some ⟨i / 96 % 4, by omega⟩
  | 4 => some (if i < 80 then 4 else if i < 160 then 5 else 6)
  | 5 => some (if i < 64 then 7 else 8)
  | 6 => some (if i < 48 then 9 else if i < 96 then 10 else 6)
  | 7 => some 11
  | 9 => some 6
  | _ => none

/-- The enable would be accepted by the block. -/
def enableOk (s : State) (kind i : Nat) : Bool :=
  match kind with
  | 3 => if h : i < 384 then weirEnableOk (s.weir.grp.get (weirGroupOf ⟨i, h⟩)) (s.weir.ch.get ⟨i, h⟩) else false
  | 4 => if h : i < 192 then pwmEnableOk s ⟨i, h⟩ else false
  | 5 => if h : i < 128 then fiEnableOk s ⟨i, h⟩ true else false
  | 6 => if h : i < 128 then foEnableOk ⟨i, h⟩ (s.fio.fo.get ⟨i, h⟩) else false
  | 7 => s.tl.link[i]?.any tlEnableOk
  | 8 => if h : i < 16 then tbEnableOk s ⟨i, h⟩ else false
  | _ => true

/-- The reason for which a claim breaks a rule (R389), from the state before it and the state with its configuration written. -/
def claimReason (before s : State) (kind i : Nat) : Option Nat :=
  let other := match freezeTask before kind i, freezeTask s kind i with
    | some a, some b => a != b && taskActive before a
    | _, _ => false
  if (areaOf s kind i).any areaOut then some 1
  else if kind = 3 ∧ recordsOut s i then some 2
  else if other then some 3
  else if kind = 7 ∧ (s.tl.link[i]?.any fun l => l.vital && decide (l.vmin < 3)) then some 4
  else if (bankOfBall kind i).any fun b => !(s.crp.iobank.get b).mon then some 5
  else none

/-- EN = 1 of claimed resources in turn; none where a block refuses (R389 reason 6). -/
def enableAll : List (Nat × Nat) → State → Option State
  | [], s => some s
  | (kind, i) :: rest, s => if enableOk s kind i then enableAll rest (setEn kind i true s) else none

/-- The bit of HIF_READY of a resource's function (R346). -/
def readyBit (kind i : Nat) (fo : Bool) : Nat :=
  match kind with
  | 3 => 32 + i / 8
  | 4 => 2
  | 5 => 3
  | 6 => 3
  | 7 => 80 + i
  | 8 => 2
  | _ => if fo then 3 else 2

/-! ### CLAIM (R388 to R390) -/

/-- A change of who drives a shared ball, with the phases of its HRPWM pad and the driven level of its field output (R288, R312). -/
def ballChange (i : Nat) (f : State → State) (s : State) : State :=
  if h : i < 32 then foWatch ⟨96 + i, by omega⟩ (pwmWatch ⟨160 + i, by omega⟩ f) s else s

/-- The firmware's own records of ownership: timebases and balls. -/
def noteOwner (kind i : Nat) (o : Option (BasinIx × Bool)) (fo : Bool) (s : State) : State :=
  match kind with
  | 8 => { s with fw := { s.fw with tbOwner := vmodN s.fw.tbOwner i fun _ => o } }
  | 9 => ballChange i (fun s => { s with fw := { s.fw with ballOwner := vmodN s.fw.ballOwner i fun _ => o.map fun x => (x.1, x.2, fo) } }) s
  | _ => s

/-- The state with a claim's configuration and ownership written, its partner's and its ball's too, and nothing enabled. -/
def configured (kind i : Nat) (n : BasinIx) (world : Bool) (ws : List Word) (s : State) : State :=
  let fo := if kind = 9 then ws.headD 0 == 1 else kind == 6
  let ball (j : Nat) (s : State) : State := match ballOf kind j with
    | some b => noteOwner 9 b.1 (some (n, world)) b.2 s
    | none => s
  let s1 := ball i (noteOwner kind i (some (n, world)) fo (writeClaim kind i n world ws s))
  match partnerOf s1 kind i with
  | some p => ball p (writeClaim kind p n world [] s1)
  | none => s1

/-- The HRPWM timebase that a channel's claim names, unless its owner is the claimant (R388). -/
def foreignTimebase (s : State) (kind i : Nat) (n : BasinIx) (world : Bool) : Option Nat :=
  if kind = 4 then
    s.pwm.ch[i]?.bind fun c => if ownerOf s 8 c.tb.val = some (n.val, world) then none else some c.tb.val
  else none

/-- What a claim enables (R388, R390): nothing in the vital world, which waits for its image; an odd partner before its even
channel. -/
def toEnable (s : State) (kind i : Nat) (world : Bool) : List (Nat × Nat) :=
  if kind = 9 ∨ world then []
  else ((partnerOf s kind i).map fun p => (kind, p)).toList ++ [(kind, i)]

/-- A claim that passed its checks: enabled, epochs increased, the owner's barges told. -/
def grantClaim (kind i : Nat) (n : BasinIx) (s : State) : State :=
  s.pendBasin n 12 |> fun s => (claimSet s kind i).foldl (fun s r => s.bump r.1 r.2) s

def claimReply (k : Fin 4) (c : FwCmd) (s : State) : Reply :=
  let id := c.arg 0 4
  let kind := idKind id
  let i := idIndex id
  let ep := c.arg 4 2
  let ws := givenWords c
  if kind < 3 ∨ 9 < kind ∨ (epochOf s.fw kind i).isNone ∨ 1 < c.arg 6 1 ∨ (kind = 9 ∧ 1 < (ws.headD 0).toNat) then answer stBadArg [] s
  else match basinIx (c.arg 7 1) with
    | none => answer stBadArg [] s
    | some n =>
      let world := c.arg 6 1 == 1
      let s1 := configured kind i n world ws s
      if ep ≠ 0 ∧ ep ≠ epochNat s kind i then answer stStale (staleData s kind i) s
      else if !bit (readyBits s) (readyBit kind i (ws.headD 0 == 1)) then answer stNotReady [] s
      else match foreignTimebase s1 kind i n world with
        | some m => answer stNotOwner (leNum 4 (resId 8 m)) s
        | none =>
          if loading s k n then busyLoading n s
          else match (claimSet s1 kind i).find? fun r => (ownerOf s r.1 r.2).isSome with
            | some r => answer stBusy (busyData s r.1 r.2 ((ownerOf s r.1 r.2).getD (0, false))) s
            | none =>
              match areaTaken s1 kind i with
              | some r => answer stBusy (busyData s r.1 r.2 ((ownerOf s r.1 r.2).getD (0, false))) s
              | none =>
                match claimReason s s1 kind i with
                | some reason => answer stBadCfg (leNum 4 id ++ leNum 1 reason) s
                | none =>
                  match enableAll (toEnable s1 kind i world) s1 with
                  | none => answer stBadCfg (leNum 4 id ++ leNum 1 6) s
                  | some s2 =>
                    if !hmIdle s then (none, s)
                    else
                    let s3 := choosePowers (grantClaim kind i n s2)
                    answer stOk (epochData s3 kind i) s3

/-! ### RELEASE (R391) -/

/-- A vital output's group belongs to an active task. -/
def groupActive (s : State) (g : BitVec 6) : Bool := ((s.kp.groups.get g.toFin).owner.any fun t => taskActive s t.toNat)

/-- A resource is bound by an active Keeper task: its group or its freezes are that task's, or the task's image binds it. -/
def boundByTask (s : State) (kind i : Nat) : Bool :=
  (match kind with
  | 4 => s.pwm.ch[i]?.any fun c => c.vital && groupActive s c.group
  | 6 => s.fio.fo[i]?.any fun c => c.vital && groupActive s c.group
  | 7 => s.tl.link[i]?.any fun l => l.vital && groupActive s l.group
  | _ => false) ||
  (freezeTask s kind i).any (taskActive s) ||
  (ixs 256 fun t => taskActive s t.val).any fun t =>
    (s.fw.taskFrom.get t).any fun n => (s.fw.image.get n).bindings.any fun b => classKind b.1 == kind && b.2.2 == i

/-- A resource is disabled and nobody's. -/
def disown (kind i : Nat) (s : State) : State :=
  noteOwner kind i none false <|
    (cfgWords kind).foldl (fun s k =>
      if ownvMask kind k = 0 then s
      else cfgWrite kind i k (cfgRead s kind i k &&& ~~~(ownvMask kind k)) (hmRead (cfgAddr kind i k) s)) (setEn kind i false s)

def releaseReply (c : FwCmd) (s : State) : Reply :=
  let id := c.arg 0 4
  let kind := idKind id
  let i := idIndex id
  if kind < 3 ∨ 9 < kind ∨ (epochOf s.fw kind i).isNone then answer stBadArg [] s
  else withEpoch s kind i (c.arg 4 2) <|
    if boundByTask s kind i then answer stBadState (leNum 4 id) s
    else match ownerOf s kind i with
      | none => answer stNotOwner (leNum 4 id) s
      | some o =>
        if !hmIdle s then (none, s)
        else
        let rs := (claimSet s kind i).filter fun r => ownerOf s r.1 r.2 = some o
        let s1 := rs.foldl (fun s r => (disown r.1 r.2 s).bump r.1 r.2) s
        let s2 := choosePowers (ringOwner o.1 12 s1)
        answer stOk (epochData s2 kind i) s2

/-! ### The commands -/

/-- CLAIM (R388). -/
def execClaim (dt : Nat) (k : Fin 4) (s : State) : Out := registerAct s dt (runCommand k 0x0040 (claimReply k))

/-- RELEASE (R391). -/
def execRelease (dt : Nat) (k : Fin 4) (s : State) : Out := registerAct s dt (runCommand k 0x0041 releaseReply)

end Sys2Proof.Machine
end

