-- ==== Sys2Proof/Machine/Load.lean ====
section
/-! DEFINITION. LOAD_IMAGE (R402 to R404): its checks, its verification pass over the image as first read, and its writing pass over
the image as read again. -/

namespace Sys2Proof.Machine

/-- What a LOAD_IMAGE names and reads: its basin, the bindings, the image as read in both passes, and the key that the
configuration store holds for the image's slot where no earlier use has said it. -/
structure LoadJob where
  n : BasinIx
  bs : List Binding
  given : Nat
  first : List Byte
  second : List Byte
  key : List Byte
  /-- The writes of the load port, by their number, in which the two processors differ (R175). -/
  differ : List Nat
  deriving DecidableEq, Repr

/-! ### The verification pass (R402, R418) -/

/-- The key slot that an image's trailer names (R399). -/
def imageSlot (f : List Byte) : Nat := leAt (f.drop (imageLength f - 104)) 0 1

/-- The use of an image's slot says what the configuration store holds for it (R418). -/
def useKey (j : LoadJob) (s : State) : State := if h : imageSlot j.first < 4 then noteKey ⟨imageSlot j.first, h⟩ j.key s else s

/-- The signature of an image is accepted (R418). -/
def imageVerifies (s : State) (given f : List Byte) : Bool :=
  let trailer := f.drop (imageLength f - 104)
  let slot := imageSlot f
  let u := s.sec.fuses
  if slot = 0xFF then s.sec.loaded.life == 0 && u.prog == 0
  else if h : slot < 4 then
    let key := storedKey s ⟨slot, h⟩ given
    bit u.prog slot && !bit u.rev slot && Config.sha384 key == u.hash.get ⟨slot, h⟩ &&
      Config.ecdsaVerify key (Config.sha384 (signedPart f)) ((trailer.drop 8).take 96)
  else false

/-- Retention space that other basins' images leave (R404). -/
def retainFree (s : State) (n : BasinIx) : Nat :=
  524288 - (((List.finRange 12).filter fun m => m != n && (s.fw.image.get m).state == 2).map fun m => (s.fw.image.get m).retainBytes).sum

/-- A bound resource that the basin does not own in the world that the manifest gives (R402): it gives none of a timebase, which the
basin owns in either. -/
def notOwned (s : State) (j : LoadJob) : Option (Nat × Nat) :=
  ((boundResources j.bs (manifestOf j.first)).find? fun r =>
    if r.1 = 8 then (ownerOf s 8 r.2.1).all (fun o => o.1 != j.n.val) else ownerOf s r.1 r.2.1 != some (j.n.val, r.2.2)).map
    fun r => (r.1, r.2.1)

/-- The basin of the active task of another basin that owns a bound group (R402). -/
def groupTaken (s : State) (j : LoadJob) : Option Nat :=
  j.bs.findSome? fun b =>
    if b.1 = 4 then
      (s.kp.groups[b.2.2]?.bind fun g => g.owner).bind fun t =>
        s.kp.tasks[t.toNat]?.bind fun x => if x.tstate = 1 ∧ x.onbarge.toNat / 4 ≠ j.n.val then some (x.onbarge.toNat / 4) else none
    else none

/-- The checks of the verification pass, in their order (R402): the status and DATA of the first that fails. A group is no resource
of R386: the ID and epoch that BUSY gives for one are free. -/
def verifyPass (s : State) (j : LoadJob) : Option Answer :=
  let f := j.first
  match headerFault f j.given with
  | some off => some { status := stBadImage, data := leNum 4 off }
  | none =>
    if !imageVerifies s j.key f then some { status := stAuth }
    else if imageSecver f < s.sec.loaded.arb.toNat ∨ 64 < imageSecver f then
      some { status := stRollback, data := leNum 8 s.sec.loaded.arb.toNat }
    else match imageFault j.n j.bs f with
      | some off => some { status := stBadImage, data := leNum 4 off }
      | none =>
        if retainFree s j.n < imageRetain f then some { status := stNoSpace }
        else match notOwned s j with
          | some r => some { status := stNotOwner, data := leNum 4 (resId r.1 r.2) }
          | none => (groupTaken s j).map fun b =>
            { status := stBusy
              data := leNum 4 (Config.freeWord s.freeCtr).toNat ++ leNum 1 b ++ [1] ++ leNum 2 (Config.freeWord (s.freeCtr + 1)).toNat }

/-! ### The writing pass (R402, R229) -/

/-- A code line is programmed, or left as the state `l` gives it. -/
def putLine (n : BasinIx) (key : Nat) (l : Option CodeLine) (s : State) : State :=
  s.modCode n ⟨key / 4096 % 4, Nat.mod_lt _ (by decide)⟩ fun b => { b with lines := kset b.lines (key % 4096) l }

/-- The NVP channel that a load programs through: the first that is not busy (R229). -/
def nvpFree (s : State) : Option (Fin 4) := (List.finRange 4).find? fun c => !(s.nvp.get c).busy

/-- A write of NVP by the load, to a word of a channel. -/
def nvpTx (c : Fin 4) (j : Nat) (v : Word) (f : State → State) : State → State :=
  hmWrite (0x21000000 + 4 * (32 * c.val + j)) v f

/-- The NVP command that programs a line, as it ends: verified (R229), held copies of the line old or new (R97). -/
def nvpDone (c : Fin 4) (n : BasinIx) (l : Nat × LineBits) (s : State) : State :=
  let s1 := putLine n l.1 (some { data := l.2, crc := lineCrc l.2 })
    ({ s with nvp := vmod s.nvp c fun x => { x with done := true } }.mark (.nvpStat c) 1)
  (List.finRange 4).foldl (reprogrammed n ⟨l.1 / 4096 % 4, Nat.mod_lt _ (by decide)⟩ (BitVec.ofNat 12 (l.1 % 4096))) s1

/-- A code line is programmed: its sixteen words, its place, and the command (R229). -/
def programLine (c : Fin 4) (n : BasinIx) (s : State) (l : Nat × LineBits) : State :=
  let place := at36 0 (l.1 % 4096) ||| at36 12 (l.1 / 4096) ||| at36 14 n.val
  let put (j : Nat) (v : Word) (s : State) : State := nvpTx c j v (fun s => (nvpWrite (32 * c.val + j) v s).getD s) s
  let s1 := (List.range 16).foldl (fun s j => put j (lineWord l.2 j) s) s
  nvpTx c 17 1 (nvpDone c n l) (put 16 place s1)

/-- The line in progress when the writing pass stops: its old content or a failing CRC (R229, R402). -/
def cutProgram (n : BasinIx) (l : Nat × LineBits) (s : State) : State :=
  let old := kget ((s.basins.get n).code.get ⟨l.1 / 4096 % 4, Nat.mod_lt _ (by decide)⟩).lines (l.1 % 4096)
  putLine n l.1 (cutLine s.freeCtr old) s.free

/-- The image's state is set. -/
def setImage (n : BasinIx) (f : FwImage → FwImage) (s : State) : State := { s with fw := { s.fw with image := vmod s.fw.image n f } }

/-- The first m lines and data rows are written, the line in progress is cut (R402, R385). -/
def writeSome (ch : Fin 4) (j : LoadJob) (m : Nat) (s : State) : State :=
  let c := (contentOf j.n j.bs j.second).1
  let s1 := (c.code.take m).foldl (programLine ch j.n) s
  let s2 := match c.code.drop m with
    | l :: _ => cutProgram j.n l s1
    | [] => s1
  writeRows j.n ((rowsOf c.data ++ rowsOf c.tf3).take (m - c.code.length)) s2

/-- A Keeper entry is loaded, usable or not (R402); with the number of port writes made. -/
def loadTask (j : LoadJob) (usable : Bool) (r : Nat × State) (e : Nat × List Word) : Nat × State :=
  if h : e.1 < 256 then
    let t : Fin 256 := ⟨e.1, h⟩
    let s1 := loadEntry j.differ r.1 t e.2 r.2
    (r.1 + e.2.length, { s1 with fw := { s1.fw with
      taskFrom := vput s1.fw.taskFrom t (some j.n), taskUsable := vput s1.fw.taskUsable t usable
      taskStale := vput s1.fw.taskStale t false } })
  else r

/-- The whole writing pass: code, data, manifest and Keeper entries, which the Keeper takes in their turn (R187). -/
def writeAll (ch : Fin 4) (j : LoadJob) (usable : Bool) (s : State) : State :=
  let c := (contentOf j.n j.bs j.second).1
  let s1 := c.code.foldl (programLine ch j.n) s
  let s2 := applyManifest j.n j.bs (manifestOf j.second) (writeRows j.n (rowsOf c.data ++ rowsOf c.tf3) s1)
  match keeperOf j.n j.bs j.second with
  | [] => s2
  | es => (es.foldl (loadTask j usable) (0, enterStage 5 s2)).2

/-- What the firmware retains of a loaded image (R404), and the fuse counter that follows it (R418). -/
def retainImage (j : LoadJob) (s : State) : State :=
  let f := j.second
  let c := (contentOf j.n j.bs f).1
  let s1 := setImage j.n (fun _ => {
    state := 2, build := BitVec.ofNat 64 (imageBuild f), secver := BitVec.ofNat 64 (imageSecver f), words := c.data ++ c.tf3
    manifest := manifestOf f, bindings := j.bs, keeper := keeperOf j.n j.bs f, retainBytes := imageRetain f, stale := false }) s
  let u := s1.sec.fuses
  if u.arb.toNat < imageSecver f then { s1 with sec := { s1.sec with fuses := { u with arb := BitVec.ofNat 7 (imageSecver f) } } } else s1

/-- The load fails: the image is INVALID. -/
def failLoad (n : BasinIx) (a : Answer) (s : State) : Reply := (some a, setImage n (fun x => { x with state := 3 }) s)

/-- The banks of a basin are the load's own: nobody else asks for one. -/
def banksQuiet (s : State) (n : BasinIx) : Bool := (s.basins.get n).tport.isEmpty && (List.finRange 16).all (bankToItself s n)

/-- The writing pass (R402) over an NVP channel: to its end, or only `writes` lines and data rows of it. It waits for port HM and
the basin's banks, and at its end for the load port's turn (R187); past its deadline it stops before the next write (R385). -/
def writingPass (ch : Fin 4) (j : LoadJob) (writes : Option Nat) (how : HostEnd) (c : FwCmd) (s : State) : Reply :=
  if !hmIdle s ∨ !banksQuiet s j.n then (none, s)
  else match writes with
  | some m =>
    if how ≠ .ok then failLoad j.n { status := stHostErr } (writeSome ch j m s)
    else if late c s then failLoad j.n { status := stDeadline } (writeSome ch j m s)
    else (none, s)
  | none =>
    if late c s then failLoad j.n { status := stDeadline } s
    else if j.second.length ≠ j.given ∨ (!(keeperOf j.n j.bs j.second).isEmpty ∧ !inOrder s 5) then (none, s)
    else if Config.sha384 (signedPart j.second) ≠ Config.sha384 (signedPart j.first) then
      failLoad j.n { status := stBadImage, data := leNum 4 (Config.freeWord s.freeCtr).toNat } (writeAll ch j false s.free)
    else
      let s1 := retainImage j (writeAll ch j true s)
      answer stOk (leNum 8 (epochNat s1 1 j.n.val) ++ leNum 8 (imageBuild j.second)) s1

/-! ### LOAD_IMAGE -/

/-- Step 1's checks (R402): a barge that runs, an active bound task, a profile that the image does not cover. -/
def loadRefused (s : State) (j : LoadJob) : Option Nat :=
  match (List.finRange 4).find? fun p => !bit s.crp.bhold (bargeOf j.n p).val with
  | some p => some (resId 2 (bargeOf j.n p).val)
  | none =>
    if (j.bs.any fun b => b.1 == 3 && taskActive s b.2.2) || !imageProfile j.first s.crp.profile.toNat then some 0 else none

/-- Both passes of a load that runs, which wait while the host is out of reach (R354). A read that fails before the writing pass ends it with HOSTERR; a reset of the basin has interrupted
it where its image is no longer LOADING (R397; log entry 92). -/
def loadRun (j : LoadJob) (writes : Option Nat) (how : HostEnd) (c : FwCmd) (s0 : State) : Reply :=
  let s := useKey j s0
  if (s0.fw.image.get j.n).state ≠ 1 then answer stInternal [] s0
  else if !hostUp s0 ∨ !mayEnd s0 how then (none, s0)
  else if how ≠ .ok ∧ writes = none then failLoad j.n { status := stHostErr } s0
  else if j.first.length ≠ j.given then (none, s0)
  else match verifyPass s j with
    | some a => failLoad j.n a s.free.free
    | none =>
      match nvpFree s with
      | some ch => writingPass ch j writes how c s
      | none => (none, s)

/-- A load starts (R402): the epoch increases, and the image is LOADING. -/
def startLoad (k : Fin 4) (j : LoadJob) (c : FwCmd) (s : State) : State :=
  let s1 := setImage j.n (fun x => { x with state := 1 }) (s.bump 1 j.n.val)
  { s1 with fw := { s1.fw with slot := vput s1.fw.slot k (some { c with started := some j.bs }) } }

/-- The bindings that a LOAD_IMAGE reads (R442); none where an argument is out of range. -/
def loadBindings (c : FwCmd) (bindings : List Byte) : Option (List Binding) :=
  let entries := c.arg 32 4
  let bs := bindingsOf bindings (min entries (bindings.length / 8))
  if c.arg 8 8 % 8 ≠ 0 ∨ c.arg 24 8 % 8 ≠ 0 ∨ bindings.length < 8 * entries ∨ !bindingsOk bs then none else some bs

/-- LOAD_IMAGE (R402): its checks and its start, and then its passes. -/
def loadReply (k : Fin 4) (bindings first second key : List Byte) (writes : Option Nat) (how : HostEnd) (differ : List Nat) (c : FwCmd) (s : State) : Reply :=
  let job (n : BasinIx) (bs : List Binding) : LoadJob :=
    { n := n, bs := bs, given := c.arg 16 4, first := first, second := second, key := key, differ := differ }
  match basinOfId (c.arg 0 4), c.started, loadBindings c bindings with
  | none, _, _ => answer stBadArg [] s
  | some n, some bs, _ => loadRun (job n bs) writes how c s
  | some _, none, none => if hostUp s then answer stBadArg [] s else (none, s)
  | some n, none, some bs => if !hostUp s then (none, s) else withEpoch s 1 n.val (c.arg 4 2) <|
    match loadRefused s (job n bs) with
    | some id => answer stBadState (leNum 4 id) s
    | none =>
      if basinDown s n then answer stNotReady [] s
      else if loading s k n then busyLoading n s
      else if awake s n then (none, startLoad k (job n bs) c s)
      else (none, wakeBasin n s)

/-- LOAD_IMAGE (R402). -/
def execLoadImage (dt : Nat) (k : Fin 4) (bindings first second key : List Byte) (writes : Option Nat) (how : HostEnd)
    (differ : List Nat) (s : State) : Out :=
  registerAct s dt (runCommand k 0x0010 (loadReply k bindings first second key writes how differ))

end Sys2Proof.Machine
end

