-- ==== Sys2Proof/Machine/Dispatch.lean ====
section
/-! DEFINITION. The meaning of every command: one arm per constructor, each one call. -/

namespace Sys2Proof.Machine

/-- The effect of a command on everything but the queue. -/
def exec (i : Instr) (s : State) : Host.Outcome State Fault Refusal :=
  match i with
  | .instructionIssue dt g rivals => Sys2Proof.Machine.execInstructionIssue dt g rivals s
  | .idleCount dt g => Sys2Proof.Machine.execIdleCount dt g s
  | .resultDelivery dt g split => Sys2Proof.Machine.execResultDelivery dt g split s
  | .storeBufferDrain dt g rivals => Sys2Proof.Machine.execStoreBufferDrain dt g rivals s
  | .xluDepart dt g => Sys2Proof.Machine.execXluDepart dt g s
  | .xluResponse dt g => Sys2Proof.Machine.execXluResponse dt g s
  | .rptElement dt g rivals => Sys2Proof.Machine.execRptElement dt g rivals s
  | .iouComplete dt g => Sys2Proof.Machine.execIouComplete dt g s
  | .cntWaitEnd dt g => Sys2Proof.Machine.execCntWaitEnd dt g s
  | .gateEntry dt g => Sys2Proof.Machine.execGateEntry dt g s
  | .gateReturn dt g => Sys2Proof.Machine.execGateReturn dt g s
  | .syncEffect dt g => Sys2Proof.Machine.execSyncEffect dt g s
  | .bankOwnHandoverComplete dt n b => Sys2Proof.Machine.execBankOwnHandoverComplete dt n b s
  | .sealDepart dt g => Sys2Proof.Machine.execSealDepart dt g s
  | .lineReadDeliver dt n k way => Sys2Proof.Machine.execLineReadDeliver dt n k way s
  | .patrolRead dt n k way => Sys2Proof.Machine.execPatrolRead dt n k way s
  | .codeWindowRead dt g => Sys2Proof.Machine.execCodeWindowRead dt g s
  | .interruptEntry dt g => Sys2Proof.Machine.execInterruptEntry dt g s
  | .tcmpWrite dt g k value => Sys2Proof.Machine.execTcmpWrite dt g k value s
  | .tcmpReached dt g k => Sys2Proof.Machine.execTcmpReached dt g k s
  | .intcSwiWrite dt g value => Sys2Proof.Machine.execIntcSwiWrite dt g value s
  | .basinDbellWrite dt n src value => Sys2Proof.Machine.execBasinDbellWrite dt n src value s
  | .bankOwnWrite dt n b src value => Sys2Proof.Machine.execBankOwnWrite dt n b src value s
  | .codemapWrite dt n p src value => Sys2Proof.Machine.execCodemapWrite dt n p src value s
  | .bcPswWrite dt g value => Sys2Proof.Machine.execBcPswWrite dt g value s
  | .unitContextWrite dt g word value => Sys2Proof.Machine.execUnitContextWrite dt g word value s
  | .registerWrite dt path value => Sys2Proof.Machine.execRegisterWrite dt path value s
  | .dateArrival dt g => Sys2Proof.Machine.execDateArrival dt g s
  | .retryRequestArrival dt g => Sys2Proof.Machine.execRetryRequestArrival dt g s
  | .decisionNoticeArrival dt g => Sys2Proof.Machine.execDecisionNoticeArrival dt g s
  | .haltEntry dt g => Sys2Proof.Machine.execHaltEntry dt g s
  | .scrubAccess dt bank rivals => Sys2Proof.Machine.execScrubAccess dt bank rivals s
  | .nvpProgram dt c => Sys2Proof.Machine.execNvpProgram dt c s
  | .nvpBlank dt c => Sys2Proof.Machine.execNvpBlank dt c s
  | .nvpComplete dt c verified => Sys2Proof.Machine.execNvpComplete dt c verified s
  | .wharfAccept dt init tx => Sys2Proof.Machine.execWharfAccept dt init tx s
  | .targetGrant dt target rivals => Sys2Proof.Machine.execTargetGrant dt target rivals s
  | .targetResponse dt init id => Sys2Proof.Machine.execTargetResponse dt init id s
  | .wharfCntclr dt => Sys2Proof.Machine.execWharfCntclr dt s
  | .keeperCycleStart dt task => Sys2Proof.Machine.execKeeperCycleStart dt task s
  | .sealArrival dt g crcOk disagree => Sys2Proof.Machine.execSealArrival dt g crcOk disagree s
  | .faultReportArrival dt g crcOk => Sys2Proof.Machine.execFaultReportArrival dt g crcOk s
  | .resetReportArrival dt g crcOk => Sys2Proof.Machine.execResetReportArrival dt g crcOk s
  | .decision dt task => Sys2Proof.Machine.execDecision dt task s
  | .windowClose dt task => Sys2Proof.Machine.execWindowClose dt task s
  | .retryRequest dt task => Sys2Proof.Machine.execRetryRequest dt task s
  | .lockGateOpen dt task => Sys2Proof.Machine.execLockGateOpen dt task s
  | .channelRetirementReport dt => Sys2Proof.Machine.execChannelRetirementReport dt s
  | .keeperSelfTest dt pass => Sys2Proof.Machine.execKeeperSelfTest dt pass s
  | .kclkMonitorWindow dt count => Sys2Proof.Machine.execKclkMonitorWindow dt count s
  | .safeHalfPeriod dt padA padB => Sys2Proof.Machine.execSafeHalfPeriod dt padA padB s
  | .arm dt arg hm1 => Sys2Proof.Machine.execArm dt arg hm1 s
  | .run dt arg hm1 => Sys2Proof.Machine.execRun dt arg hm1 s
  | .startTask dt arg hm1 => Sys2Proof.Machine.execStartTask dt arg hm1 s
  | .stopTask dt arg hm1 => Sys2Proof.Machine.execStopTask dt arg hm1 s
  | .retireBarge dt arg hm1 => Sys2Proof.Machine.execRetireBarge dt arg hm1 s
  | .forceSafe dt arg hm1 => Sys2Proof.Machine.execForceSafe dt arg hm1 s
  | .clearFc dt arg hm1 => Sys2Proof.Machine.execClearFc dt arg hm1 s
  | .restoreBarge dt arg hm1 => Sys2Proof.Machine.execRestoreBarge dt arg hm1 s
  | .clearDegraded dt arg hm1 => Sys2Proof.Machine.execClearDegraded dt arg hm1 s
  | .kpDseedWrite dt hm0 hm1 => Sys2Proof.Machine.execKpDseedWrite dt hm0 hm1 s
  | .kpCfgWrite dt hm0 hm1 => Sys2Proof.Machine.execKpCfgWrite dt hm0 hm1 s
  | .taskEntryWrite dt task word hm0 hm1 => Sys2Proof.Machine.execTaskEntryWrite dt task word hm0 hm1 s
  | .kpLogRead dt => Sys2Proof.Machine.execKpLogRead dt s
  | .hrpwmStgWrite dt n src value => Sys2Proof.Machine.execHrpwmStgWrite dt n src value s
  | .foStgWrite dt n src value => Sys2Proof.Machine.execFoStgWrite dt n src value s
  | .tlStgWrite dt l slot src value => Sys2Proof.Machine.execTlStgWrite dt l slot src value s
  | .hrpwmCommit dt disagree => Sys2Proof.Machine.execHrpwmCommit dt disagree s
  | .foCommit dt disagree => Sys2Proof.Machine.execFoCommit dt disagree s
  | .tlCommit dt l disagree => Sys2Proof.Machine.execTlCommit dt l disagree s
  | .groupSafeOrder dt block => Sys2Proof.Machine.execGroupSafeOrder dt block s
  | .timebaseEnable dt m en => Sys2Proof.Machine.execTimebaseEnable dt m en s
  | .periodBoundary dt m => Sys2Proof.Machine.execPeriodBoundary dt m s
  | .zxmissExpiry dt m => Sys2Proof.Machine.execZxmissExpiry dt m s
  | .hrpwmChannelEnable dt n en => Sys2Proof.Machine.execHrpwmChannelEnable dt n en s
  | .tripZoneChange dt z => Sys2Proof.Machine.execTripZoneChange dt z s
  | .tripclr dt n src => Sys2Proof.Machine.execTripclr dt n src s
  | .hrpwmReadbackSample dt n level => Sys2Proof.Machine.execHrpwmReadbackSample dt n level s
  | .hrpwmCrst dt n => Sys2Proof.Machine.execHrpwmCrst dt n s
  | .resWrite dt value => Sys2Proof.Machine.execResWrite dt value s
  | .calibrationLock dt => Sys2Proof.Machine.execCalibrationLock dt s
  | .weirGroupEnable dt g en => Sys2Proof.Machine.execWeirGroupEnable dt g en s
  | .weirChannelEnable dt n en => Sys2Proof.Machine.execWeirChannelEnable dt n en s
  | .mainSampleReady dt n bits upset => Sys2Proof.Machine.execMainSampleReady dt n bits upset s
  | .fastSample dt n bits => Sys2Proof.Machine.execFastSample dt n bits s
  | .demodOutput dt n upset => Sys2Proof.Machine.execDemodOutput dt n upset s
  | .recordAccept dt n => Sys2Proof.Machine.execRecordAccept dt n s
  | .recordWrite dt basin bank => Sys2Proof.Machine.execRecordWrite dt basin bank s
  | .weirFreeze dt task => Sys2Proof.Machine.execWeirFreeze dt task s
  | .headerWrite dt n => Sys2Proof.Machine.execHeaderWrite dt n s
  | .stuckStream dt n bits => Sys2Proof.Machine.execStuckStream dt n bits s
  | .clockLoss dt g => Sys2Proof.Machine.execClockLoss dt g s
  | .grst dt g => Sys2Proof.Machine.execGrst dt g s
  | .fthrWrite dt n src value => Sys2Proof.Machine.execFthrWrite dt n src value s
  | .fiRawChange dt n pad => Sys2Proof.Machine.execFiRawChange dt n pad s
  | .fiAccept dt n => Sys2Proof.Machine.execFiAccept dt n s
  | .fiFreeze dt task => Sys2Proof.Machine.execFiFreeze dt task s
  | .pairDiscrepancy dt m => Sys2Proof.Machine.execPairDiscrepancy dt m s
  | .fret dt n => Sys2Proof.Machine.execFret dt n s
  | .fiCrst dt n => Sys2Proof.Machine.execFiCrst dt n s
  | .foEnable dt n en => Sys2Proof.Machine.execFoEnable dt n en s
  | .foReadbackSample dt n level => Sys2Proof.Machine.execFoReadbackSample dt n level s
  | .offTestStart dt n => Sys2Proof.Machine.execOffTestStart dt n s
  | .offTestEnd dt n level => Sys2Proof.Machine.execOffTestEnd dt n level s
  | .foCrst dt n => Sys2Proof.Machine.execFoCrst dt n s
  | .tlLinkEnable dt l en => Sys2Proof.Machine.execTlLinkEnable dt l en s
  | .rxLock dt l chars => Sys2Proof.Machine.execRxLock dt l chars s
  | .lockLoss dt l chars => Sys2Proof.Machine.execLockLoss dt l chars s
  | .capResend dt l => Sys2Proof.Machine.execCapResend dt l s
  | .frameReceive dt l units aborted => Sys2Proof.Machine.execFrameReceive dt l units aborted s
  | .ackTimeout dt l => Sys2Proof.Machine.execAckTimeout dt l s
  | .rxtoExpiry dt l => Sys2Proof.Machine.execRxtoExpiry dt l s
  | .outFrameSend dt l => Sys2Proof.Machine.execOutFrameSend dt l s
  | .safeFrameSend dt l => Sys2Proof.Machine.execSafeFrameSend dt l s
  | .poisonRecord dt l => Sys2Proof.Machine.execPoisonRecord dt l s
  | .tlFreeze dt task => Sys2Proof.Machine.execTlFreeze dt task s
  | .tlMtxGo dt l => Sys2Proof.Machine.execTlMtxGo dt l s
  | .lrst dt l => Sys2Proof.Machine.execLrst dt l s
  | .pllLock dt p => Sys2Proof.Machine.execPllLock dt p s
  | .pllLockLoss dt p => Sys2Proof.Machine.execPllLockLoss dt p s
  | .clockMonitorWindow dt clk count => Sys2Proof.Machine.execClockMonitorWindow dt clk count s
  | .supplyFault dt rail inRange => Sys2Proof.Machine.execSupplyFault dt rail inRange s
  | .keeperPowerOn dt => Sys2Proof.Machine.execKeeperPowerOn dt s
  | .coldReset dt pins levels => Sys2Proof.Machine.execColdReset dt pins levels s
  | .resetNPulse dt width pins => Sys2Proof.Machine.execResetNPulse dt width pins s
  | .rstcmdWarm dt value pins => Sys2Proof.Machine.execRstcmdWarm dt value pins s
  | .lockstepMismatch dt pins => Sys2Proof.Machine.execLockstepMismatch dt pins s
  | .basinReset dt n => Sys2Proof.Machine.execBasinReset dt n s
  | .bargeResetCmd dt g => Sys2Proof.Machine.execBargeResetCmd dt g s
  | .bholdWrite dt high value => Sys2Proof.Machine.execBholdWrite dt high value s
  | .stsetWrite dt value => Sys2Proof.Machine.execStsetWrite dt value s
  | .stationTimeTrim dt => Sys2Proof.Machine.execStationTimeTrim dt s
  | .bpwrReqWrite dt n value => Sys2Proof.Machine.execBpwrReqWrite dt n value s
  | .b1Entry dt n => Sys2Proof.Machine.execB1Entry dt n s
  | .b1Wake dt n => Sys2Proof.Machine.execB1Wake dt n s
  | .powerTransitionComplete dt n => Sys2Proof.Machine.execPowerTransitionComplete dt n s
  | .thermalConversion dt readings => Sys2Proof.Machine.execThermalConversion dt readings s
  | .bootVerify dt firmware sig => Sys2Proof.Machine.execBootVerify dt firmware sig s
  | .muartRecovery dt firmware sig => Sys2Proof.Machine.execMuartRecovery dt firmware sig s
  | .hifDbellWrite dt value tlp => Sys2Proof.Machine.execHifDbellWrite dt value tlp s
  | .mailboxWrite dt k data => Sys2Proof.Machine.execMailboxWrite dt k data s
  | .hifRciWrite dt r value tlp => Sys2Proof.Machine.execHifRciWrite dt r value tlp s
  | .hifRcfgWrite dt r value tlp => Sys2Proof.Machine.execHifRcfgWrite dt r value tlp s
  | .bar2Access dt write data => Sys2Proof.Machine.execBar2Access dt write data s
  | .bar4Access dt write data => Sys2Proof.Machine.execBar4Access dt write data s
  | .flr dt => Sys2Proof.Machine.execFlr dt s
  | .perst dt => Sys2Proof.Machine.execPerst dt s
  | .pcioAccess dt data => Sys2Proof.Machine.execPcioAccess dt data s
  | .pcioFailure dt kind => Sys2Proof.Machine.execPcioFailure dt kind s
  | .ingressGo dt e => Sys2Proof.Machine.execIngressGo dt e s
  | .ingressDone dt e data how => Sys2Proof.Machine.execIngressDone dt e data how s
  | .eqPush dt q => Sys2Proof.Machine.execEqPush dt q s
  | .ferryStrmWrite dt value => Sys2Proof.Machine.execFerryStrmWrite dt value s
  | .egressDraw dt => Sys2Proof.Machine.execEgressDraw dt s
  | .egressWrite dt => Sys2Proof.Machine.execEgressWrite dt s
  | .creditRefill dt => Sys2Proof.Machine.execCreditRefill dt s
  | .erst dt => Sys2Proof.Machine.execErst dt s
  | .l1Entry dt => Sys2Proof.Machine.execL1Entry dt s
  | .ltrSend dt => Sys2Proof.Machine.execLtrSend dt s
  | .ringEntryWrite dt r => Sys2Proof.Machine.execRingEntryWrite dt r s
  | .mailboxTake dt k => Sys2Proof.Machine.execMailboxTake dt k s
  | .deadlineExpiry dt k => Sys2Proof.Machine.execDeadlineExpiry dt k s
  | .eventPost dt => Sys2Proof.Machine.execEventPost dt s
  | .hello dt k => Sys2Proof.Machine.execHello dt k s
  | .info dt k => Sys2Proof.Machine.execInfo dt k s
  | .resetHost dt k => Sys2Proof.Machine.execResetHost dt k s
  | .loadImage dt k bindings first second key writes how differ => Sys2Proof.Machine.execLoadImage dt k bindings first second key writes how differ s
  | .imageStat dt k => Sys2Proof.Machine.execImageStat dt k s
  | .role dt k => Sys2Proof.Machine.execRole dt k s
  | .taskStart dt k differ => Sys2Proof.Machine.execTaskStart dt k differ s
  | .taskStop dt k mismatch => Sys2Proof.Machine.execTaskStop dt k mismatch s
  | .keeper dt k mismatch => Sys2Proof.Machine.execKeeper dt k mismatch s
  | .claim dt k => Sys2Proof.Machine.execClaim dt k s
  | .release dt k => Sys2Proof.Machine.execRelease dt k s
  | .latTol dt k => Sys2Proof.Machine.execLatTol dt k s
  | .counters dt k => Sys2Proof.Machine.execCounters dt k s
  | .reset dt k => Sys2Proof.Machine.execReset dt k s
  | .eventRoute dt k => Sys2Proof.Machine.execEventRoute dt k s
  | .setTime dt k => Sys2Proof.Machine.execSetTime dt k s
  | .dbgHalt dt g => Sys2Proof.Machine.execDbgHalt dt g s
  | .dbgResume dt g => Sys2Proof.Machine.execDbgResume dt g s
  | .dbgStep dt g rivals => Sys2Proof.Machine.execDbgStep dt g rivals s
  | .dbgPcWrite dt g value => Sys2Proof.Machine.execDbgPcWrite dt g value s
  | .dbgRegdataWrite dt g value => Sys2Proof.Machine.execDbgRegdataWrite dt g value s
  | .drst dt => Sys2Proof.Machine.execDrst dt s
  | .newchal dt random => Sys2Proof.Machine.execNewchal dt random s
  | .verify dt slot => Sys2Proof.Machine.execVerify dt slot s
  | .verifyComplete dt key => Sys2Proof.Machine.execVerifyComplete dt key s
  | .relock dt => Sys2Proof.Machine.execRelock dt s
  | .fuseLifeAdvance dt value => Sys2Proof.Machine.execFuseLifeAdvance dt value s
  | .fuseKeyProgram dt value => Sys2Proof.Machine.execFuseKeyProgram dt value s
  | .fuseDbgSet dt value => Sys2Proof.Machine.execFuseDbgSet dt value s
  | .fuseRevoke dt value => Sys2Proof.Machine.execFuseRevoke dt value s
  | .fuseArbAdvance dt value => Sys2Proof.Machine.execFuseArbAdvance dt value s
  | .fuseFwcntAdvance dt value => Sys2Proof.Machine.execFuseFwcntAdvance dt value s
  | .fusePfuseBlow dt value => Sys2Proof.Machine.execFusePfuseBlow dt value s
  | .fusePlockBlow dt value => Sys2Proof.Machine.execFusePlockBlow dt value s
  | .fuseOpComplete dt => Sys2Proof.Machine.execFuseOpComplete dt s
  | .jtagUpdateDr dt dr => Sys2Proof.Machine.execJtagUpdateDr dt dr s
  | .tapReset dt => Sys2Proof.Machine.execTapReset dt s
  | .coldResetAssert dt rail => Sys2Proof.Machine.execColdResetAssert dt rail s
  | .keeperPowerOnReset dt => Sys2Proof.Machine.execKeeperPowerOnReset dt s
  | .noCrystalEdge dt => Sys2Proof.Machine.execNoCrystalEdge dt s
  | .basinSelfTestComplete dt n defects => Sys2Proof.Machine.execBasinSelfTestComplete dt n defects s
  | .reservoirSelfTestComplete dt p defects => Sys2Proof.Machine.execReservoirSelfTestComplete dt p defects s
  | .fiEnable dt n en => Sys2Proof.Machine.execFiEnable dt n en s
  | .jtagUpdateIr dt ir => Sys2Proof.Machine.execJtagUpdateIr dt ir s
  | .configSpaceWrite dt cfg => Sys2Proof.Machine.execConfigSpaceWrite dt cfg s

end Sys2Proof.Machine
end

