-- ==== Sys2Proof/Safety.lean ====
section
/-! DEFINITION. The terms that the statements use: when the part's functions are available, when a barge is at a quiet boundary,
what counts as an untouched part, and the canonical form of every memory. -/

namespace Sys2Proof

open Machine

/-- Every function is available: TESTMODE was low at the last reset release (R432), and no cold reset is asserted (R426). -/
def Available (s : State) : Prop := s.crp.factory = false ∧ s.crp.coldHeld = false

/-- Barge g runs and nothing of an earlier instruction holds it at the boundary before its next one (R44): no operation, no part
of a split load (R63), not the end of a block operation (R79), and no request to halt (R411). -/
def AtBoundary (s : State) (g : BargeIx) : Prop :=
  bargeRuns s g = true ∧ busyBoundary s g = false ∧ (s.barges.get g).trapDue = none ∧ (s.barges.get g).hoFault = none ∧
    (s.barges.get g).dbg.stepping = false ∧ (s.barges.get g).dbg.haltReq = none ∧ (s.barges.get g).second = none ∧
    (s.barges.get g).issueFrom ≤ bclkCount s (basinOf g)

/-- In the present BCLK no bank of the basin has granted its port A yet, nobody waits for one, and port B has written nothing (R211,
R216, R217). -/
def PortsFree (s : State) (n : BasinIx) : Prop :=
  (∀ b, bankQuiet s n b = true) ∧ ∀ w, (s.basins.get n).portB = some w → w.bclk ≠ bclkCount s n

/-- No source is enabled at barge g, so that no interrupt is taken (R111). -/
def NoInterrupts (s : State) (g : BargeIx) : Prop := ∀ n, ((s.barges.get g).intc.get n).en = false

/-- Every nonet of every memory reads as before. -/
def SameMemory (s t : State) : Prop :=
  (∀ n a, (t.basins.get n).mem.nonet a = (s.basins.get n).mem.nonet a) ∧ (∀ a, t.rv.mem.nonet a = s.rv.mem.nonet a) ∧
    ∀ a, t.hms.nonet a = s.hms.nonet a

/-- Barge g, at a boundary with nothing in flight, holds the line of its next instruction i, which passes the checks of R45 (R44, R88,
R96); no executed-mode breakpoint is set. -/
def NextInsn (s : State) (g : BargeIx) (i : Insn) : Prop :=
  let b := s.barges.get g
  AtBoundary s g ∧ b.irun = 0 ∧ b.flights = [] ∧ b.done = [] ∧ b.syPend = [] ∧ b.mustRead = false ∧
    (∀ j, bitsN (b.dbg.bps.get j).bpa 14 2 ≠ 2) ∧ fmtOf i ≠ 3 ∧ decodeFault i (pswW b.psw) (pswL b.psw) = none ∧
    ∃ h, b.heldLine (fld b.pc 2 12) = some h ∧ h.bad = false ∧ i = lineInsn h.data (bitsN b.pc 0 2)

/-- Nothing comes before a fault of barge g's next instruction, and its entry begins at once (R100, R114, R122): no result, interrupt or
waiting setting, no IOU write, no entry before its handler's first instruction, no executed-mode breakpoint. -/
def FaultsAtOnce (s : State) (g : BargeIx) : Prop :=
  let b := s.barges.get g
  AtBoundary s g ∧ NoInterrupts s g ∧ b.irun = 0 ∧ b.flights = [] ∧ b.syPend = [] ∧ b.entry = none ∧ iouWriting b = false ∧
    ∀ j, bitsN (b.dbg.bps.get j).bpa 14 2 ≠ 2

/-- The instruction i does one thing, at once: its only move, whose guard holds and whose source has no result to wait for, triggers
op of unit u with operand v (R32, R38, R43). -/
def Triggers (s : State) (g : BargeIx) (i : Insn) (u : TrigUnit) (op : Nat) (v : Word) : Prop :=
  let b := s.barges.get g
  ∃ m, movesOf i = [m] ∧ m.dst = .trig u op ∧ guardHolds b.flags m.guard = true ∧ v = srcValue b i m ∧
    (m.src = .xlu → b.xluSeen = b.xluIssued) ∧ (m.src = .iou → b.iou = none)

/-- INSTRUCTION_ISSUE of barge g answers a next state in which its instruction has issued (R38, R41) and P holds of the barge: it goes
on at pc, with its register banks, PSW and FLAGS as they were, and no memory and no other barge's program has changed. -/
def IssuesTo (s : State) (dt : Nat) (g : BargeIx) (rivals : List Rival) (pc : BitVec 14) (P : Barge → Prop) : Prop :=
  let b := s.barges.get g
  ∃ t, exec (.instructionIssue dt g rivals) s = .next t ∧
    (let y := t.barges.get g
     y.pc = pc ∧ y.count = b.count + 1 ∧ y.vital = b.vital ∧ y.ordinary = b.ordinary ∧ y.psw = b.psw ∧ y.flags = b.flags ∧ P y) ∧
    (∀ k, k ≠ g → t.barges.get k = { s.barges.get k with intc := (t.barges.get k).intc }) ∧ SameMemory s t

/-- t differs from s in barge g alone, and in the record of W1C events, which only a later W1C write in the same cycle reads (R6). -/
def OnlyBarge (g : BargeIx) (s t : State) : Prop :=
  t = { s with barges := t.barges, events := t.events } ∧ ∀ h, h ≠ g → t.barges.get h = s.barges.get h

/-- Every barge's registers, programs and units are as they were: only interrupt requests may have been raised. -/
def OnlyRequests (s t : State) : Prop := ∀ g, t.barges.get g = { s.barges.get g with intc := (t.barges.get g).intc }

/-- Every barge's registers, programs and units are as they were: only interrupt requests may have been raised, and the I/O access
fault of a handover that waited noted (R215). -/
def QuietBarges (s t : State) : Prop :=
  ∀ g, t.barges.get g = { s.barges.get g with intc := (t.barges.get g).intc, hoFault := (t.barges.get g).hoFault }

/-- t differs from s in the record of W1C events alone, which only a later W1C write in the same cycle reads (R6). -/
def Noted (s t : State) : Prop := t = { s with events := t.events }

/-- An HRPWM channel is as it was, the record of its pad's present phase apart, which the pair's partner moves too (R279, R288). -/
def SameChannel (c y : PwmChan) : Prop := y = { c with phaseLvl := y.phaseLvl, phaseAt := y.phaseAt }

/-- The HRPWM array of t is that of s with what the trip matrix does when its sources move (R285, R286): trip zones, channels that trip
and their events. -/
def PwmTrips (s t : State) : Prop :=
  t.pwm = { s.pwm with ch := t.pwm.ch, tz := t.pwm.tz, evt := t.pwm.evt } ∧
    ∀ n, let c := s.pwm.ch.get n
      let y := t.pwm.ch.get n
      SameChannel c y ∨
        (c.tripped = false ∧ SameChannel { c with tripped := true, trclr := false, tripcnt := c.tripcnt + 1 } y)

/-- t differs from s in what the trip matrix does when its sources move (R285, R286), with interrupt requests. -/
def TripsFollow (s t : State) : Prop :=
  t = { s with pwm := t.pwm, barges := t.barges, events := t.events } ∧ OnlyRequests s t ∧ PwmTrips s t

/-! ### Entries of a barge -/

/-- The frame of barge g's present world and level has 96 nonets below it where an entry may store its context (R114 step 3). -/
def FrameAdmitted (s : State) (g : BargeIx) : Prop :=
  let b := s.barges.get g
  let fp := (b.fp (pswW b.psw) (pswL b.psw)).toNat
  let own (a : Nat) : Bool := bargeAdmitted ((s.basins.get (basinOf g)).banks.get (bankOf a)).own (posOf g) (pswW b.psw) true
  0xE0060 ≤ fp ∧ fp ≤ 0xFFC00 ∧ own (fp - 96) = true ∧ own (fp - 1) = true

/-- Barge g begins the entry x (R114, R115, R117): FP falls by 96, where the frame of the interrupted context is to be stored from two
BCLK later on; BC_CAUSE and BC_FADDR are set; the PSW has the handler's world, L = 1, T = V = GA = 0, and of an interrupt IE = 1 and
IPL = PRI; the barge goes on at the vector with an empty line buffer; both register banks, the units and FLAGS stay. -/
def Enters (s t : State) (g : BargeIx) (x : EntryFor) : Prop :=
  let b := s.barges.get g
  let y := t.barges.get g
  let w := pswW b.psw
  let fp := b.fp w (pswL b.psw)
  (∃ e, y.entry = some e ∧ e.double = false ∧ e.handler = x.handler ∧ e.ctxWorld = w ∧ e.frame.length = 24 ∧
    e.frame.take 8 = [put36 0 x.pc ||| at36 14 b.flags.word.toNat ||| at36 19 x.irun, b.psw, (b.bank w).lnk, b.u.rc, b.u.rs, b.u.rd,
      b.u.rmode, b.u.lsur] ∧ e.frame.getD 23 0 = x.faddr) ∧
  y.frameRun = some { addr := fp.toNat - 96, next := bclkCount s (basinOf g) + 2 } ∧ y.fp w (pswL b.psw) = fp - 96 ∧
  (y.ctl x.handler).cause = x.cause ∧ (y.ctl x.handler).faddr = x.faddr ∧
  pswW y.psw = x.handler ∧ pswL y.psw = true ∧ pswT y.psw = false ∧ pswV y.psw = false ∧ pswGA y.psw = false ∧
  pswDFA y.psw = pswDFA b.psw ∧
  (match x.pri with
    | some p => pswIE y.psw = true ∧ pswIPL y.psw = p
    | none => pswIE y.psw = pswIE b.psw ∧ pswIPL y.psw = pswIPL b.psw) ∧
  y.pc = BitVec.ofNat 14 (128 * (b.ctl x.handler).vbase.toNat + x.vector) ∧ y.lineBuf = [] ∧ y.flights = [] ∧ y.irun = 0 ∧
  y.vital = b.vital ∧ y.ordinary = b.ordinary ∧ y.u = b.u ∧ y.flags = b.flags ∧
  (∀ k, k ≠ g → t.barges.get k = { s.barges.get k with intc := (t.barges.get k).intc }) ∧ SameMemory s t

/-- Every memory is in its canonical form: the basins' SRAM, the Reservoir and HMS. -/
def MemoriesCanonical (s : State) : Prop :=
  (∀ n, (s.basins.get n).mem.wf = true) ∧ s.rv.mem.wf = true ∧ s.hms.wf = true

/-- The queues keep the sizes that the manual gives them, and a group's owner is an active task that names it: four entries in a store
buffer (R64), 8 XLU transactions of a barge and 32 of a basin (R69), four dates in a barge's queue (R155), 64 entries in KP_LOG (R204),
eight descriptors in an egress queue (R370), and GROUP_OWNER (R192, R203). -/
def QueuesBounded (s : State) : Prop :=
  (∀ g, let b := s.barges.get g
    b.stores.length ≤ 4 ∧ b.xluCredits ≤ 8 ∧ b.sig.queue.length ≤ 4) ∧
  (∀ n : BasinIx, ((List.finRange 4).map fun p => (s.barges.get (bargeOf n p)).xluCredits).sum ≤ 32) ∧
  s.kp.log.length ≤ 64 ∧ (∀ q, (s.ferry.eq.get q).queue.length ≤ 8) ∧
  ∀ r o, (s.kp.groups.get r).owner = some o →
    (s.kp.tasks.get o.toFin).tstate = 1 ∧ r ∈ (s.kp.tasks.get o.toFin).groups

/-- The Reservoir takes FERRY's next transactions at once: none waits at a target of the Wharf, FERRY's port has a place, every
Reservoir port and bank is free (R230, R239, R241), no access that was held back is from an XCLK to come, and no response on its way has
a number that is still to be given. -/
def ReservoirFree (s : State) : Prop :=
  s.wharf.reqs = [] ∧ (s.wharf.directAt.get 13).all (fun k => decide (k ≤ xclk s)) = true ∧ s.wharf.cur.get 13 < 32 ∧ (∀ r ∈ s.wharf.resps, r.seq < s.wharf.seq) ∧
    (∀ g : Fin 20, 12 ≤ g.val → g.val < 16 → s.wharf.busyTill.get g ≤ xclk s) ∧
    ∀ b, (s.rv.banks.get b).portBAt.all (fun k => decide (k < xclk s)) = true

/-! ### The Keeper -/

/-- A KP_LOG entry's fields (R204): kind, cause, task or channel, barge, and KT bits [23:10]. -/
def LogEntry (kt : BitVec 48) (e : Word) (kind cause : Nat) (task : BitVec 8) (barge : Nat) : Prop :=
  bitsN e 0 4 = kind ∧ bitsN e 4 4 = cause ∧ fld e 8 8 = task ∧ bitsN e 16 6 = barge ∧ fld e 22 14 = fld kt 10 14

/-- KP_LOG has taken an entry with these fields, and then `more`; with 64 entries held it is dropped and OVF set (R203, R204). -/
def Logged (s u : State) (kt : BitVec 48) (kind cause : Nat) (task : BitVec 8) (barge : Nat) (more : List Word) : Prop :=
  if s.kp.log.length < 64 then ∃ e, u.kp.log = s.kp.log ++ e :: more ∧ LogEntry kt e kind cause task barge
  else u.kp.log = s.kp.log ∧ u.kp.logOvf = true

/-- HM1 presents the same write of word w as HM0, whose data is v (R175). -/
def alike (w : Nat) (v : Word) : LoadWrite := { addr := BitVec.ofNat 16 w, data := v }

/-- HM1 presents the same command as HM0 (R175, R203). -/
def sameCmd (op : Nat) (arg : BitVec 8) : LoadWrite := alike 2 (cmdWord op arg)

/-- The Keeper issues dates and judges seals: it is powered and in ARMED, RUNNING or DEGRADED (R176). -/
def KeeperLive (s : State) : Prop :=
  s.kp.powered = true ∧ (s.kp.mode = .armed ∨ s.kp.mode = .running ∨ s.kp.mode = .degraded)

/-- Lock gates open on a match: RUNNING or DEGRADED (R176). -/
def KeeperCommits (s : State) : Prop := s.kp.powered = true ∧ (s.kp.mode = .running ∨ s.kp.mode = .degraded)

/-- The Keeper is in SAFE with this cause (R198, R199): no gate is open or about to open, SAFE_A, SAFE_B and KFAULT_N are
low, and the order to the safe level is on its way to every output block. -/
def InSafe (u : State) (cause : BitVec 8) : Prop :=
  u.kp.mode = .safe ∧ u.kp.safecause = cause ∧ u.kp.safeA = false ∧ u.kp.safeB = false ∧ u.kp.toggleAt = none ∧
    kfaultN u = false ∧ (∀ r, (u.kp.groups.get r).gstate = 0) ∧ (∀ t, (u.kp.tasks.get t).openAt = none) ∧
    u.pwm.gates.getLast? = some .safeAll ∧ u.fio.gates.getLast? = some .safeAll ∧
    ∀ l, (u.tl.link.get l).en = true → (u.tl.link.get l).vital = true → (u.tl.link.get l).gates.getLast? = some .safeAll

/-- What holds in SAFE until a cold or warm reset (R199): no group is live, no opening is waiting, SAFE_A and SAFE_B are low
and do not toggle. -/
def SafeHolds (s : State) : Prop :=
  s.kp.mode = .safe → s.kp.safeA = false ∧ s.kp.safeB = false ∧ s.kp.toggleAt = none ∧
    (∀ r, (s.kp.groups.get r).gstate = 0) ∧ ∀ t, (s.kp.tasks.get t).openAt = none

/-- A cycle of task t on barge b has ended with the failure code (R183, R189, R190): a fault event and the notice, the count,
and the barge retired; its standby, where it has a usable one, takes the task over, else the task has failed. -/
def EndsFailed (s u : State) (kt : BitVec 48) (t : Fin 256) (c : Cycle) (code : BitVec 4) : Prop :=
  let x := s.kp.tasks.get t
  let y := u.kp.tasks.get t
  y.last = code ∧ y.fails = x.fails + 1 ∧ y.rpend = false ∧ y.failrun = (if x.failrun = 15 then 15 else x.failrun + 1) ∧
    c.start ∉ y.cycles.map (·.start) ∧ (c.barge, KMsg.notice) ∈ u.kp.toBarge ∧
    (u.kp.bf.get c.barge).total = (s.kp.bf.get c.barge).total + 1 ∧ bit u.kp.retired c.barge.val = true ∧
    bit u.crp.bhold c.barge.val = true ∧
    (if x.stbyen = true ∧ bit s.kp.retired x.stby = false ∧ x.stby ≠ c.barge.val then
      y.tstate = 1 ∧ y.onbarge.toNat = x.stby ∧ y.notBefore = some (kt + 1000)
    else y.tstate = 2 ∧ (x.failact = true → u.kp.mode = .safe) ∧ 
      ∀ r ∈ x.groups, (u.kp.groups.get r).owner ≠ some (BitVec.ofNat 8 t.val))

/-! ### The Weir -/

/-- h_i of R251: the coefficients of (1 + z⁻¹ + … + z^−(R−1))^k. -/
def sincWeight (r : Nat) : Nat → Nat → Nat
  | 0, i => if i = 0 then 1 else 0
  | k + 1, i => ((List.range r).map fun d => if d ≤ i then sincWeight r k (i - d) else 0).sum

/-- A sample enters channel n's window of R267 without reaching GLIM. -/
def WindowHolds (s : State) (n : Fin 384) (bad : Bool) : Prop :=
  ((bad :: (s.weir.ch.get n).window).take (weirGwin s)).count true < weirGlim s

/-! ### Resets -/

/-- What a warm reset with this cause leaves (R343, R345): the Keeper in STARTING with KT at 0, every block of channels and every
basin at its reset, every barge held, the straps sampled anew; station time and the debug lockout are kept, and so is the
Reservoir where no write is under way. -/
def WarmResetDone (s u : State) (pins : Pins) (cause : BitVec 2) : Prop :=
  u.kp.mode = .starting ∧ u.kp.kt = 0 ∧ (∀ t, (u.kp.tasks.get t).tstate = 0) ∧ u.crp.bhold = BitVec.allOnes 48 ∧
    u.crp.warm = true ∧ u.crp.src = cause ∧ u.crp.stTime = s.crp.stTime ∧ u.pwm = {} ∧ u.weir = {} ∧ u.fio = {} ∧ u.tl = {} ∧
    (∀ n, (u.basins.get n).testing = true ∧ ∀ b, ((u.basins.get n).banks.get b).own = 7) ∧ u.fw.up = false ∧
    u.sec.lockout = s.sec.lockout ∧ u.pending = s.pending ∧ u.now = s.now ∧
    (s.wharf.reqs = [] → u.rv.mem = s.rv.mem) ∧
    u.crp.pins = pins ∧ u.crp.factory = pins.testmode ∧ u.crp.bootMode = pins.bootMode ∧
    (s.sec.fpop = none → u.sec.fuses = s.sec.fuses ∧
      u.crp.profile = if s.sec.fuses.plock = true ∨ pins.profile = 3 then
        (if s.sec.fuses.pfuse = 3 then 2 else s.sec.fuses.pfuse) else pins.profile)

/-- The commands of the part's supplies and of its reset pin, which act in factory mode too (R426, R432). -/
def PinCommand : Instr → Prop
  | .coldReset .. | .coldResetAssert .. | .resetNPulse .. | .keeperPowerOn .. | .keeperPowerOnReset .. => True
  | _ => False

/-- The commands that may reset the Keeper (R174, R342, R345, R426): a cold or warm reset, also as a write of CRP_RSTCMD that comes
through the peripheral register bridge, and its own supply. -/
def ResetsKeeper : Instr → Prop
  | .coldReset .. | .coldResetAssert .. | .resetNPulse .. | .rstcmdWarm .. | .lockstepMismatch .. => True
  | .keeperPowerOn .. | .keeperPowerOnReset .. => True
  | .registerWrite _ (.per _ _) _ => True
  | .targetGrant .. => True
  | _ => False

/-! ### The firmware -/

/-- The command taken from mailbox k has this opcode and is the next to run (R379), and passes the checks that come before
those of its own (R382): header, session, version, deadline. -/
def CommandRuns (s : State) (k : Fin 4) (c : FwCmd) (op : BitVec 16) : Prop :=
  s.fw.up = true ∧ s.fw.slot.get k = some c ∧ c.op = op ∧ myTurn k c s = true ∧ earlyAnswer c s = none

/-- The command of mailbox k has completed (R379, R380): its response, with the ring's next SEQ, stands last in ring k's queue,
and the mailbox waits until that response is written. -/
def Completes (s u : State) (k : Fin 4) (c : FwCmd) (status : Nat) (data : List Byte) : Prop :=
  let r := s.fw.rings.get k
  u.fw.slot.get k = none ∧ u.fw.respDue.get k = true ∧ (u.fw.rings.get k).seq = r.seq + 1 ∧
    (u.fw.rings.get k).queue = r.queue ++ [ringEntry 1 c.tag.toNat status k.val (r.seq + 1).toNat (elapsedOf c u) data]

end Sys2Proof
end

