-- ==== Sys2Proof/Certificates/Slice0/Obligations.lean ====
section
/-! DEFINITION. What is claimed of the model. Every statement is about every state and every operand that meet its
hypotheses; device time passes first in every command (log entry 1), so that a result is stated of `s.elapse dt`. -/

open Sys2Proof Sys2Proof.Machine

/-! ### The frame of every command -/

/-- A step runs the command at the front of the queue on the state with the queue's rest. -/
def Obligations.StepRunsFrontCommand : Prop :=
  ∀ (s : State) (c : Instr) (rest : List Instr), s.pending = c :: rest → step s = exec c { s with pending := rest }

/-- What passes with device time alone: station time, one per ns (R339), the Keeper's KT, one per KCLK (R174), and nothing
else. In factory mode no function is available (R432): every command but those of the supplies and of the reset pin, which may leave
the mode at a reset release, is refused, which is the model's reading (log entry 12). While a cold reset is asserted a command of a
barge's execution changes nothing else (R426). Time in units of 1/12 ns is the model's choice (log entry 1). -/
def Obligations.TimePassesAndNothingElse : Prop :=
  (∀ (s : State) (dt : Nat),
    s.elapse dt = { s with
      now := s.now + dt
      crp := { s.crp with stTime := s.crp.stTime + BitVec.ofNat 64 ((s.now + dt) / 12 - s.now / 12) }
      kp := { s.kp with kt := (s.elapse dt).kp.kt } } ∧
    (s.kp.powered = true → (s.elapse dt).kp.kt = s.kp.kt + BitVec.ofNat 48 ((s.now + dt) / 120 - s.now / 120)) ∧
    (s.kp.powered = false → (s.elapse dt).kp.kt = s.kp.kt)) ∧
  (∀ (i : Instr) (s : State), s.crp.factory = true →
    (PinCommand i → ∃ t, exec i s = .next t) ∧ (¬ PinCommand i → exec i s = .refused .factoryMode)) ∧
  (∀ (s : State) (dt : Nat) (g : BargeIx), s.crp.factory = false → s.crp.coldHeld = true →
    exec (.instructionIssue dt g []) s = .next (s.elapse dt))

/-! ### Barges (chapters 2 to 6) -/

/-- INSTRUCTION_ISSUE of an instruction that only moves to registers (R36, R38, R41): every source is read before any
register is written, the current world's bank alone changes, and the barge goes on at the next instruction. One that writes more
than four registers issues in the BCLK after it was held for it (R44, log entry 82). -/
def Obligations.RegisterMovesExchange : Prop :=
  ∀ (s : State) (dt : Nat) (g : BargeIx) (rivals : List Rival) (h : HeldLine),
    let b := s.barges.get g
    let i := lineInsn h.data (bitsN b.pc 0 2)
    let w := pswW b.psw
    Available s → AtBoundary s g → NoInterrupts s g → b.irun = 0 → b.flights = [] → b.syPend = [] → b.mustRead = false →
    (∀ j, bitsN (b.dbg.bps.get j).bpa 14 2 ≠ 2) →
    b.heldLine (fld b.pc 2 12) = some h → h.bad = false → fmtOf i ≠ 3 → decodeFault i w (pswL b.psw) = none →
    (∀ m ∈ movesOf i, (∃ k, m.dst = .reg k) ∧ (m.src = .xlu → b.xluSeen = b.xluIssued) ∧ (m.src = .iou → b.iou = none)) →
    (((movesOf i).filter fun m => guardHolds b.flags m.guard).length ≤ 4 ∨
      b.wide.any (fun c => c < bclkCount (s.elapse dt) (basinOf g)) = true) →
    ∃ t, exec (.instructionIssue dt g rivals) s = .next t ∧
      (∀ m ∈ movesOf i, guardHolds b.flags m.guard = true → ∀ k, m.dst = .reg k →
        ((t.barges.get g).bank w).w.get k = srcValue b i m) ∧
      (∀ k, (∀ m ∈ movesOf i, guardHolds b.flags m.guard = true → m.dst ≠ .reg k) →
        ((t.barges.get g).bank w).w.get k = (b.bank w).w.get k) ∧
      ((t.barges.get g).bank w).lnk = (b.bank w).lnk ∧ (t.barges.get g).bank (!w) = b.bank (!w) ∧
      (t.barges.get g).pc = b.pc + 1 ∧ (t.barges.get g).count = b.count + 1 ∧ (t.barges.get g).flags = b.flags ∧
      (t.barges.get g).psw = b.psw ∧ (t.barges.get g).u = b.u ∧ (∀ k, k ≠ g → t.barges.get k = s.barges.get k) ∧
      SameMemory s t

/-- The ALU's sums and differences (R55, R56): v is the sum or difference modulo 2^36, C the carry out or the absence of a borrow,
and V says that the signed result is not representable. INSTRUCTION_ISSUE of an ALU trigger, and RESULT_DELIVERY at the next
boundary (R41, R55, R56), in untagged mode with PSW.V = 0: the result of o and t stands in ALU0.r from the next instruction on,
with Z, N, C and V after a flag-setting op. -/
def Obligations.AluResultsAreExactAndOneLater : Prop :=
  (∀ (o t : Word) (c : Bool),
    (let r := aluOut 0x01 o t c
     r.v.toNat = (o.toNat + t.toNat) % 2 ^ 36 ∧ (r.c = true ↔ 2 ^ 36 ≤ o.toNat + t.toNat) ∧
       (r.ovf = true ↔ r.v.toInt ≠ o.toInt + t.toInt)) ∧
    (let r := aluOut 0x03 o t c
     r.v.toNat = (o.toNat + t.toNat + c.toNat) % 2 ^ 36 ∧ (r.c = true ↔ 2 ^ 36 ≤ o.toNat + t.toNat + c.toNat) ∧
       (r.ovf = true ↔ r.v.toInt ≠ o.toInt + t.toInt + c.toNat)) ∧
    (let r := aluOut 0x05 o t c
     r.v = o - t ∧ (r.c = true ↔ t.toNat ≤ o.toNat) ∧ (r.ovf = true ↔ r.v.toInt ≠ o.toInt - t.toInt)) ∧
    (let r := aluOut 0x07 o t c
     r.v = o - t - (if c then 0 else 1) ∧ (r.c = true ↔ t.toNat + 1 ≤ o.toNat + c.toNat) ∧
       (r.ovf = true ↔ r.v.toInt ≠ o.toInt - t.toInt - (1 - c.toNat)))) ∧
  ((∀ (s : State) (dt : Nat) (g : BargeIx) (rivals : List Rival) (h : HeldLine) (m : Move) (op : Nat),
    let b := s.barges.get g
    let i := lineInsn h.data (bitsN b.pc 0 2)
    let r := aluOut op b.u.alu0o (srcValue b i m) b.flags.c
    Available s → AtBoundary s g → NoInterrupts s g → b.irun = 0 → b.flights = [] → b.syPend = [] → b.mustRead = false →
    pswT b.psw = false → pswV b.psw = false → (∀ j, bitsN (b.dbg.bps.get j).bpa 14 2 ≠ 2) →
    b.heldLine (fld b.pc 2 12) = some h → h.bad = false → fmtOf i ≠ 3 →
    decodeFault i (pswW b.psw) (pswL b.psw) = none → movesOf i = [m] → m.dst = .trig .alu0 op →
    guardHolds b.flags m.guard = true → (m.src = .xlu → b.xluSeen = b.xluIssued) → (m.src = .iou → b.iou = none) →
    ∃ t, exec (.instructionIssue dt g rivals) s = .next t ∧
      (t.barges.get g).flights =
        [{ port := .alu0, due := b.count + 1, value := if op = 0x18 ∨ op = 0x19 then none else some r.v
           flags := if aluSetsFlags op then some (r.v == 0, r.v.msb, r.c, r.ovf) else none }] ∧
      (t.barges.get g).u = b.u ∧ (t.barges.get g).flags = b.flags ∧ (t.barges.get g).pc = b.pc + 1 ∧
      (t.barges.get g).count = b.count + 1 ∧ SameMemory s t) ∧
  (∀ (s : State) (dt : Nat) (g : BargeIx) (v : Word) (f : Option (Bool × Bool × Bool × Bool)) (n : Nat),
    let b := s.barges.get g
    Available s → AtBoundary s g → n ≤ b.count →
    b.flights = [{ port := .alu0, due := n, value := some v, flags := f }] →
    exec (.resultDelivery dt g false) s = .next ((s.elapse dt).modBarge g fun b =>
      { b with
        flights := []
        u := { b.u with alu0r := v }
        flags := match f with
          | some (z, n, c, o) => { b.flags with z := z, n := n, c := c, v := o }
          | none => b.flags })))

/-- IDLE_COUNT counts one instruction of an idle run and leaves everything else of the barge as it was (R24); CNT_WAIT_END ends a
wait of BCLK counts in the first BCLK that it does not hold, and a wait for a station time at the first sample that reaches it,
with CNT.r = 0 (R87). BANK_OWN_HANDOVER_COMPLETE ends a handover whose earlier accesses have finished: a barge that wrote it
issues its next instruction 2 BCLK later, and the Harbourmaster's write of it, if it was one, is acknowledged (R214 step 4);
SEAL_DEPART puts the captured seal on the barge's seal link behind its earlier messages and counts it (R163, R164). -/
def Obligations.IdleRunsWaitsAndHandoversEnd : Prop :=
  ((∀ (s : State) (dt : Nat) (g : BargeIx),
    let b := s.barges.get g
    Available s → AtBoundary s g → NoInterrupts s g → 0 < b.irun → b.flights = [] →
    exec (.idleCount dt g) s = .next ((s.elapse dt).modBarge g fun b =>
      { b with
        count := b.count + 1, irun := b.irun - 1, pc := if b.irun = 1 then b.pc + 1 else b.pc, entry := none
        dbg := { b.dbg with skipBp := false } })) ∧
  (∀ (s : State) (dt : Nat) (g : BargeIx) (last : Nat),
    Available s → bargeRuns s g = true → (s.barges.get g).wait = some (.count last) →
    last ≤ bclkCount (s.elapse dt) (basinOf g) →
    exec (.cntWaitEnd dt g) s =
      .next ((s.elapse dt).modBarge g fun b => { b with wait := none, u := { b.u with cntr := 0 } })) ∧
  (∀ (s : State) (dt : Nat) (g : BargeIx) (v : Word),
    Available s → bargeRuns s g = true → (s.barges.get g).wait = some (.time v) →
    reached (sampleTime g (s.elapse dt)).1 v = true →
    ∃ t, exec (.cntWaitEnd dt g) s = .next t ∧ OnlyBarge g { s.elapse dt with freeCtr := t.freeCtr } t ∧
      t.barges.get g = { s.barges.get g with
        wait := none, u := { (s.barges.get g).u with cntr := 0 }, lastSample := (t.barges.get g).lastSample })) ∧
  ((∀ (s : State) (dt : Nat) (n : BasinIx) (b : BankIx) (h : Handover),
    Available s → ((s.basins.get n).banks.get b).ho = some h → ((s.basins.get n).banks.get b).hoWait = [] →
    handoverDrained s n h = true →
    ∃ t, exec (.bankOwnHandoverComplete dt n b) s = .next t ∧
      (t.basins.get n).banks = vmod (s.basins.get n).banks b (fun x => { x with ho := none, hoTurn := none }) ∧
      (t.basins.get n).mem = (s.basins.get n).mem ∧ (∀ m, m ≠ n → t.basins.get m = s.basins.get m) ∧
      (∀ g, t.barges.get g = if basinOf g = n ∧ h.writer = some (posOf g) then
          { s.barges.get g with issueFrom := max (s.barges.get g).issueFrom (bclkCount (s.elapse dt) n + 2) }
        else s.barges.get g) ∧
      ((∀ a ∈ (s.basins.get n).hoAcks, a.1 ≠ b) → t.wharf = s.wharf ∧ (t.basins.get n).hoAcks = (s.basins.get n).hoAcks) ∧
      (∀ r, (s.basins.get n).hoAcks = [(b, r)] → r.drop = false →
        (t.basins.get n).hoAcks = [] ∧ ∃ q, t.wharf.resps = s.wharf.resps ++ [q] ∧ q.init = r.init ∧ q.id = r.tx.id ∧
          q.status = .ok)) ∧
  (∀ (s : State) (dt : Nat) (g : BargeIx) (m : SealMsg),
    Available s → (s.barges.get g).sig.captured = some (m, false) →
    ∃ t, exec (.sealDepart dt g) s = .next t ∧
      (t.barges.get g).sig = { (s.barges.get g).sig with captured := none, seals := (s.barges.get g).sig.seals + 1 } ∧
      t.kp.links.get g = s.kp.links.get g ++ [m] ∧ (∀ k, k ≠ g → t.kp.links.get k = s.kp.links.get k) ∧
      (∀ k, k ≠ g → t.barges.get k = s.barges.get k) ∧ SameMemory s t))

/-- STORE_BUFFER_DRAIN, from the BCLK after its trigger on, at most one in a BCLK, writes the oldest entry's nonets, the lowest
address holding the low bits (R2, R64, R210), when its bank grants it, and no other nonet of any memory changes; the entry
leaves the buffer and the rest stay in order. While its own barge asks for the bank first, with a load before the entry has
given way four times or with a frame, it waits (R64, R216). A bank admits a barge by BANK_OWN alone (R212, R125): outside the
emergency area its own owner or sharing by all, the same world, and the supervisor where SUP is set; the Wharf by WH, and never
a bank that no one owns. -/
def Obligations.OwnedStoresWriteTheirNonets : Prop :=
  (∀ (s : State) (dt : Nat) (g : BargeIx) (e : StoreEntry) (rest : List StoreEntry),
    Available s → MemoriesCanonical s → basinRuns s (basinOf g) = true → (s.barges.get g).stores = e :: rest →
    e.addr + e.size ≤ 0x100000 → e.size ≤ 8 → PortsFree (s.elapse dt) (basinOf g) →
    e.since < bclkCount (s.elapse dt) (basinOf g) →
    (s.barges.get g).drainAt ≠ some (bclkCount (s.elapse dt) (basinOf g)) →
    (∀ w ∈ wordsOf e.addr e.size, (s.basins.get (basinOf g)).mem.mark w = none) →
    if inHandover (s.basins.get (basinOf g)) (bankOf e.addr) = false ∧
        storeYields (s.barges.get g) (posOf g) (bankOf e.addr) (bclkCount (s.elapse dt) (basinOf g)) [] = true then
      exec (.storeBufferDrain dt g []) s = .next (s.elapse dt)
    else
      ∃ t, exec (.storeBufferDrain dt g []) s = .next t ∧ (t.barges.get g).stores = rest ∧
        (∀ k, k < e.size → ((t.basins.get (basinOf g)).mem.nonet (e.addr + k)) = BitVec.ofNat 9 (e.data.toNat / 512 ^ k)) ∧
        (∀ a, ¬ (e.addr ≤ a ∧ a < e.addr + e.size) →
          (t.basins.get (basinOf g)).mem.nonet a = (s.basins.get (basinOf g)).mem.nonet a) ∧
        (∀ n, n ≠ basinOf g → t.basins.get n = s.basins.get n) ∧ t.rv = s.rv ∧ t.hms = s.hms ∧
        (∀ k, k ≠ g → t.barges.get k = s.barges.get k)) ∧
  ((∀ (x : Basin) (p : Fin 4) (w sup : Bool) (a n : Nat), a + n ≤ 0xFFC00 → 0 < n →
    let o := (x.banks.get (bankOf a)).own
    (admits x p w sup a n = true ↔
      ((bitsN o 0 3 = p.val ∨ bitsN o 0 3 = 4) ∧ bit o 3 = w ∧ (bit o 4 = true → sup = true)))) ∧
  (∀ (x : Basin) (p : Fin 4) (w sup : Bool) (a n : Nat), 0xFFC00 ≤ a → a + n ≤ 0x100000 → 0 < n →
    (admits x p w sup a n = true ↔
      sup = true ∧ 0xFFC00 + 128 * (2 * p.val + w.toNat) ≤ a ∧ a + n ≤ 0xFFC00 + 128 * (2 * p.val + w.toNat) + 128)) ∧
  (∀ (o : BitVec 7) (write : Bool),
    targetAdmitted o write = true ↔ bitsN o 0 3 < 6 ∧ (if write then bitsN o 5 2 = 2 else 1 ≤ bitsN o 5 2)))

/-- XLU_DEPART hands the oldest transaction to the basin's tender once no older store is left (R66, R70); XLU_RESPONSE returns the
credit, delivers the most recent load's data, or 0 and source 58 for one that the Wharf refused (R68, R69, R71), where an older
response does not overwrite a newer one's data (log entry 26); IOU_COMPLETE, once no older store is left, of a read delivers the
window's word or the line word that its code-window read returned, and of a write makes the window's write (R82, R84).
RPT_ELEMENT of a running block operation (R77, R78, R79), from the operation's BCLK on, whose accesses are admitted and clean
and whose banks grant those not made in an earlier BCLK: copy and fill write their element at RD and no other nonet changes,
compare and scan go on or end, sum adds to RD, within the 36-bit range with SAT; RS, RD and RC advance; and the operation ends,
with RUN = 0 and RPT.r, when RC reaches 0 or its condition ends it, at once when RC is 0. -/
def Obligations.OperationsAdvanceAndComplete : Prop :=
  ((∀ (s : State) (dt : Nat) (g : BargeIx) (o : XluOp) (rest : List XluOp),
    Available s → basinRuns s (basinOf g) = true → (s.barges.get g).xluq = o :: rest →
    (∀ e ∈ (s.barges.get g).stores, o.after ≤ e.seq) →
    exec (.xluDepart dt g) s =
      .next (((s.elapse dt).modBarge g fun b => { b with xluq := rest }).modBasin (basinOf g) fun x =>
        { x with tender := x.tender ++ [(posOf g, o)] })) ∧
  (∀ (s : State) (dt : Nat) (g : BargeIx) (r : XluResp) (rest : List XluResp),
    let b := s.barges.get g
    Available s → basinRuns s (basinOf g) = true → b.xluResps = r :: rest →
    ∃ t, exec (.xluResponse dt g) s = .next t ∧ OnlyBarge g (s.elapse dt) t ∧
      (t.barges.get g).xluResps = rest ∧ (t.barges.get g).xluCredits = b.xluCredits - 1 ∧
      (t.barges.get g).u = { b.u with xlur :=
        if r.write = false ∧ b.xluSeen < r.load then (if r.ok then r.data else 0) else b.u.xlur } ∧
      ((t.barges.get g).intc.get 58).pend = (!r.ok || (b.intc.get 58).pend) ∧
      (∀ n : Fin 64, n ≠ 58 → (t.barges.get g).intc.get n = b.intc.get n) ∧ (t.barges.get g).flags = b.flags ∧
      (t.barges.get g).pc = b.pc ∧ (t.barges.get g).vital = b.vital ∧ (t.barges.get g).ordinary = b.ordinary) ∧
  (∀ (s : State) (dt : Nat) (g : BargeIx) (o : IouOp),
    Available s → basinRuns s (basinOf g) = true → (s.barges.get g).iou = some o → o.write = false →
    (∀ e ∈ (s.barges.get g).stores, o.after ≤ e.seq) →
    (0x1000 ≤ o.addr.toNat → o.addr.toNat < 0x2000 → o.line ≠ none) →
    exec (.iouComplete dt g) s = .next ((s.elapse dt).modBarge g fun b =>
      { b with
        iou := none
        u := { b.u with iour :=
          if 0x1000 ≤ o.addr.toNat ∧ o.addr.toNat < 0x2000 then o.line.getD 0
          else (winRead (s.elapse dt) g o.world o.addr.toNat).getD 0 }
        sig := { b.sig with captured := b.sig.captured.map fun c => (c.1, false) } })) ∧
  (∀ (s : State) (dt : Nat) (g : BargeIx) (o : IouOp),
    Available s → basinRuns s (basinOf g) = true → (s.barges.get g).iou = some o → o.write = true →
    (∀ e ∈ (s.barges.get g).stores, o.after ≤ e.seq) →
    exec (.iouComplete dt g) s =
      .next ((winWrite g o.world o.date o.att o.addr.toNat o.data (s.elapse dt)).modBarge g fun b =>
        { b with iou := none, sig := { b.sig with captured := b.sig.captured.map fun c => (c.1, false) } }))) ∧
  (∀ (s : State) (dt : Nat) (g : BargeIx) (r : RptRun),
    let b := s.barges.get g
    let x := s.basins.get (basinOf g)
    let u := b.u
    let op := bitsN u.rmode 3 3
    let n := rptSize u
    let src := x.mem.read u.rs.toNat n
    let all := rptAccesses u op n
    let sum := u.rd.toInt + (rptExtend n src).toInt
    Available s → MemoriesCanonical s → bargeRuns s g = true → b.rpt = some r → b.dbg.halted = false → b.dbg.haltReq = none →
    b.stores = [] → b.trapDue = none → b.second = none → b.flights = [] → NoInterrupts s g → op ≤ 4 →
    max r.next b.issueFrom ≤ bclkCount (s.elapse dt) (basinOf g) → PortsFree (s.elapse dt) (basinOf g) →
    (op = 4 → pswV b.psw = true → bit u.rmode 25 = false → -34359738368 ≤ sum ∧ sum ≤ 34359738367) →
    rptFault x b (posOf g) n (rptReads u op ++ rptWrites u op) = none →
    (all.all fun y => !inHandover x (bankOf y.2.1)) = true →
    (∀ d ∈ b.done, d.ues = [] ∧
      ∃ y ∈ all, d.place = y.1 ∧ d.addr = y.2.1 ∧ (y.1 < 4 → d.raw = x.mem.read y.2.1 y.2.2)) →
    ((all.filter fun y => !b.hasDone y).map fun y => bankOf y.2.1).Nodup → (∀ w, x.mem.mark w = none) →
    ∃ t, exec (.rptElement dt g []) s = .next t ∧
      (u.rc = 0 → (t.barges.get g).rpt = none ∧ (t.barges.get g).u.rc = 0 ∧ (t.barges.get g).u.rs = u.rs ∧
        (t.barges.get g).u.rd = u.rd ∧ (t.basins.get (basinOf g)).mem = x.mem) ∧
      (u.rc ≠ 0 → op ≤ 1 →
        (∀ k, k < n → (t.basins.get (basinOf g)).mem.nonet (u.rd.toNat + k) =
          BitVec.ofNat 9 ((if op = 0 then src else u.rs.toNat) / 512 ^ k)) ∧
        (∀ a, ¬ (u.rd.toNat ≤ a ∧ a < u.rd.toNat + n) →
          (t.basins.get (basinOf g)).mem.nonet a = x.mem.nonet a) ∧
        (t.barges.get g).u.rc = u.rc - 1 ∧ ((t.barges.get g).rpt = none ↔ u.rc = 1) ∧
        (t.barges.get g).sig =
          if r.vital then b.sig.fold (rptResidue n (if op = 0 then src else u.rs.toNat % 512 ^ n)) 1 else b.sig) ∧
      (u.rc ≠ 0 → op = 2 →
        ((t.barges.get g).rpt = none ↔ (u.rc = 1 ∨ src ≠ x.mem.read u.rd.toNat n)) ∧
        (t.barges.get g).u.rc = if src = x.mem.read u.rd.toNat n then u.rc - 1 else u.rc) ∧
      (u.rc ≠ 0 → op = 3 →
        ((t.barges.get g).rpt = none ↔ (u.rc = 1 ∨ (rptExtend n src == u.rd) ≠ bit u.rmode 24)) ∧
        (t.barges.get g).u.rc = if (rptExtend n src == u.rd) = bit u.rmode 24 then u.rc - 1 else u.rc) ∧
      (u.rc ≠ 0 → op = 4 →
        (t.barges.get g).u.rd =
          BitVec.ofInt 36 (if bit u.rmode 25 then max (-34359738368) (min 34359738367 sum) else sum) ∧
        (t.barges.get g).u.rc = u.rc - 1 ∧ ((t.barges.get g).rpt = none ↔ u.rc = 1)) ∧
      ((t.barges.get g).u.rc ≠ u.rc →
        (t.barges.get g).u.rs = (if op = 1 then u.rs else u.rs + BitVec.ofInt 36 ((fld u.rmode 8 8).toInt * n)) ∧
        (op ≤ 2 → (t.barges.get g).u.rd = u.rd + BitVec.ofInt 36 ((fld u.rmode 16 8).toInt * n))) ∧
      ((t.barges.get g).rpt = none → bit (t.barges.get g).u.rmode 2 = false ∧
        (t.barges.get g).u.rptr = (if op ≤ 1 then 0 else if op = 4 then (t.barges.get g).u.rd else (t.barges.get g).u.rc)) ∧
      (2 ≤ op → (t.basins.get (basinOf g)).mem = x.mem) ∧ t.rv = s.rv ∧ t.hms = s.hms ∧
      (t.barges.get g).vital = b.vital ∧ (t.barges.get g).ordinary = b.ordinary ∧ (t.barges.get g).pc = b.pc ∧
      ∀ k, k ≠ g → t.barges.get k = s.barges.get k)

/-- GATE_ENTRY (R107) of a valid entry: vital w0 to w7 take the ordinary ones' values, vital LNK is 0x8_0000_0000 plus the
address after the gate, W = 1, L is the entry's, T = V = 0, GA = 1, and GL, GT, GV keep the caller's L, T, V; the barge goes
on at the entry's address. GATE_ENTRY of an entry that is out of range, not admitted, or not valid, or from the vital world, and
GATE_RETURN with GA = 0, raise the gate fault at the gate's address, in the world that issued it (R107, R108; log entry 77).
GATE_RETURN (R108) undoes a gate: ordinary w0 and w1 take the vital ones' values, W = 0, and L, T, V are GL, GT, GV again, T as 0
where both GT and GV are 1 (R137; log entry 78). -/
def Obligations.GatesCrossAndReturn : Prop :=
  (∀ (s : State) (dt : Nat) (g : BargeIx) (h : GateHold),
    let b := s.barges.get g
    let x := s.basins.get (basinOf g)
    let a := b.gateBase.toNat + 4 * h.t.toNat
    let e := x.mem.word (a / 4)
    Available s → bargeRuns s g = true → b.gate = some h → h.isReturn = false → b.dbg.halted = false →
    b.dbg.stepping = false → drained b = true → b.syPend = [] → b.sig.captured = none →
    b.flights = [] → inHandover x (bankOf a) = false → PortsFree (s.elapse dt) (basinOf g) →
    pswW b.psw = false → h.t.toNat < b.gateCnt.toNat → a + 4 ≤ 0x100000 → admits x (posOf g) true true a 4 = true →
    x.mem.mark (a / 4) = none → bit e 15 = true →
    ∃ t, exec (.gateEntry dt g) s = .next t ∧
      (∀ k : Fin 64, (t.barges.get g).vital.w.get k = if k.val < 8 then b.ordinary.w.get k else b.vital.w.get k) ∧
      (t.barges.get g).vital.lnk = 0x800000000 + h.next.setWidth 36 ∧ (t.barges.get g).ordinary = b.ordinary ∧
      (t.barges.get g).pc = fld e 0 14 ∧ (t.barges.get g).gate = none ∧
      pswW (t.barges.get g).psw = true ∧ pswL (t.barges.get g).psw = bit e 14 ∧ pswT (t.barges.get g).psw = false ∧
      pswV (t.barges.get g).psw = false ∧ pswGA (t.barges.get g).psw = true ∧
      pswGL (t.barges.get g).psw = pswL b.psw ∧ pswGT (t.barges.get g).psw = pswT b.psw ∧
      pswGV (t.barges.get g).psw = pswV b.psw ∧ pswIE (t.barges.get g).psw = pswIE b.psw ∧
      (t.barges.get g).flags = b.flags ∧ (t.barges.get g).u = b.u ∧ SameMemory s t) ∧
  (∀ (s : State) (dt : Nat) (g : BargeIx) (h : GateHold),
    let b := s.barges.get g
    Available s → bargeRuns s g = true → b.gate = some h → h.isReturn = true → b.dbg.halted = false →
    b.dbg.stepping = false → drained b = true → b.syPend = [] → b.sig.captured = none →
    b.flights = [] → pswW b.psw = true → pswGA b.psw = true →
    ∃ t, exec (.gateReturn dt g) s = .next t ∧
      (∀ k : Fin 64, (t.barges.get g).ordinary.w.get k = if k.val < 2 then b.vital.w.get k else b.ordinary.w.get k) ∧
      (t.barges.get g).ordinary.lnk = b.ordinary.lnk ∧ (t.barges.get g).vital = b.vital ∧
      (t.barges.get g).pc = fld h.t 0 14 ∧ (t.barges.get g).gate = none ∧
      pswW (t.barges.get g).psw = false ∧ pswL (t.barges.get g).psw = pswGL b.psw ∧
      pswT (t.barges.get g).psw = (pswGT b.psw && !pswGV b.psw) ∧ pswV (t.barges.get g).psw = pswGV b.psw ∧
      pswGA (t.barges.get g).psw = false ∧ (t.barges.get g).flags = b.flags ∧ (t.barges.get g).u = b.u ∧ SameMemory s t) ∧
  (∀ (s : State) (dt : Nat) (g : BargeIx) (h : GateHold),
    let b := s.barges.get g
    let a := b.gateBase.toNat + 4 * h.t.toNat
    Available s → bargeRuns s g = true → b.gate = some h → b.dbg.halted = false → b.dbg.stepping = false → drained b = true →
    b.syPend = [] → b.flights = [] → b.entry = none → FrameAdmitted s g →
    (if h.isReturn then pswGA b.psw = false
      else pswW b.psw = true ∨ b.gateCnt.toNat ≤ h.t.toNat ∨ 0x100000 < a + 4 ∨
        admits (s.basins.get (basinOf g)) (posOf g) true true a 4 = false ∨
        (inHandover (s.basins.get (basinOf g)) (bankOf a) = false ∧ PortsFree (s.elapse dt) (basinOf g) ∧
          bit ((s.basins.get (basinOf g)).mem.word (a / 4)) 15 = false)) →
    ∃ t, exec (if h.isReturn then .gateReturn dt g else .gateEntry dt g) s = .next t ∧
      Enters (s.elapse dt) t g { cause := 0x0A, faddr := h.t, handler := h.world, vector := 64, pc := h.pc })

/-- LINE_READ_DELIVER gives the barge the line it asked for, ten BCLK after the read began, with what its ECC and CRC say of it
(R88, R96, R226); PATROL_READ begins a patrol read of the way's next line in an idle way, no sooner than the BCLK after the
way's last delivery, and ten BCLK later goes on to the next (R88, R227); CODE_WINDOW_READ delivers a word of the line to the IOU
and records UE and CRCE (R84). The eNVM channel (R229): NVP_PROGRAM takes the 16 data words as the new line of the addressed
bank, NVP_BLANK none, each ignored with ERR while BUSY or for a basin above 11; NVP_COMPLETE, 20 µs after the operation took its
way, stores the line with its CRC, or blanks it, and sets DONE where the operation verified; else it sets ERR and leaves a line
whose CRC fails. -/
def Obligations.CodeLinesAreReadAndProgrammed : Prop :=
  ((∀ (s : State) (dt : Nat) (n : BasinIx) (k w p : Fin 4) (r : WayRead),
    let c := (s.basins.get n).code.get k
    Available s → c.ways.get w = some r → r.use = .demand p → r.since + 10 ≤ bclkCount (s.elapse dt) n →
    (∀ j, bitsN ((s.barges.get (bargeOf n p)).dbg.bps.get j).bpa 14 2 ≠ 1) →
    ∃ t, exec (.lineReadDeliver dt n k w) s = .next t ∧
      (t.barges.get (bargeOf n p)).lineBuf.getLast? =
        some { line := r.line, data := lineData c r.line, bad := lineBad c r.line } ∧
      (t.barges.get (bargeOf n p)).wantLine = none ∧ (t.barges.get (bargeOf n p)).pc = (s.barges.get (bargeOf n p)).pc ∧
      (t.barges.get (bargeOf n p)).vital = (s.barges.get (bargeOf n p)).vital ∧
      ((t.basins.get n).code.get k).lines = c.lines ∧ SameMemory s t) ∧
  (∀ (s : State) (dt : Nat) (n : BasinIx) (k w : Fin 4),
    let c := (s.basins.get n).code.get k
    Available s → basinRuns s n = true → (s.basins.get n).scrubPatrol = true → c.ways.get w = none →
    exec (.patrolRead dt n k w) s = .next ((s.elapse dt).modCode n k fun c =>
      { c with ways := vput c.ways w (some
          { use := .patrol, line := BitVec.ofNat 12 (4 * (c.patrolNext.get w).toNat + w.val)
            since := max (bclkCount (s.elapse dt) n) (c.wayFrom.get w), asked := bclkCount (s.elapse dt) n
            time := s.now + dt }) })) ∧
  (∀ (s : State) (dt : Nat) (n : BasinIx) (k w : Fin 4) (r : WayRead),
    let c := (s.basins.get n).code.get k
    Available s → basinRuns s n = true → c.ways.get w = some r → r.use = .patrol →
    r.since + 10 ≤ bclkCount (s.elapse dt) n →
    ∃ t, exec (.patrolRead dt n k w) s = .next t ∧
      ((t.basins.get n).code.get k).patrolNext.get w = c.patrolNext.get w + 1 ∧
      ((t.basins.get n).code.get k).lines = c.lines ∧ SameMemory s t) ∧
  (∀ (s : State) (dt : Nat) (g : BargeIx) (k w : Fin 4) (r : WayRead) (o : IouOp),
    let c := (s.basins.get (basinOf g)).code.get k
    Available s → c.ways.get w = some r → r.use = .window (posOf g) → r.since + 10 ≤ bclkCount (s.elapse dt) (basinOf g) →
    (∀ k' w' r', ((s.basins.get (basinOf g)).code.get k').ways.get w' = some r' → r'.use = .window (posOf g) →
      k' = k ∧ w' = w) →
    (s.barges.get g).iou = some o →
    ∃ t, exec (.codeWindowRead dt g) s = .next t ∧
      (t.barges.get g).iou = some { o with line := some (lineWord (lineData c r.line) (bitsN o.addr 0 4)) } ∧
      ((t.barges.get g).ctl o.world).cwCrce = (((s.barges.get g).ctl o.world).cwCrce || lineCrcFails c r.line) ∧
      ((t.barges.get g).ctl o.world).cwUe =
        (((s.barges.get g).ctl o.world).cwUe || (codeLine c r.line).any fun x => x.ue != 0) ∧
      (t.barges.get g).pc = (s.barges.get g).pc ∧ SameMemory s t)) ∧
  ((∀ (s : State) (dt : Nat) (c : Fin 4),
    let x := s.nvp.get c
    let basin := bitsN x.addr 14 4
    let op (new : Option LineBits) := some (basin, bitsN x.addr 12 2, bitsN x.addr 0 12, new)
    Available s →
    (x.busy = false → basin < 12 →
      ∃ t u, exec (.nvpProgram dt c) s = .next t ∧ exec (.nvpBlank dt c) s = .next u ∧
        t.nvp.get c = { x with busy := true, op := op (some (lineOfWords x.data.toList)) } ∧
        u.nvp.get c = { x with busy := true, op := op none } ∧ t.barges = s.barges ∧ SameMemory s t ∧ SameMemory s u) ∧
    (x.busy = true ∨ 12 ≤ basin →
      ∃ t u, exec (.nvpProgram dt c) s = .next t ∧ exec (.nvpBlank dt c) s = .next u ∧
        t = { s.elapse dt with nvp := vput s.nvp c { x with err := true }, events := t.events } ∧ u = t)) ∧
  (∀ (s : State) (dt : Nat) (c : Fin 4) (n : BasinIx) (k : Fin 4) (l : BitVec 12) (new : Option LineBits) (r : WayRead),
    let code := (s.basins.get n).code.get k
    Available s → (s.nvp.get c).op = some (n.val, k.val, l.toNat, new) → keysRise code.lines = true →
    code.ways.get (wayOf l) = some r → r.use = .program c →
    20 * 12000 ≤ s.now + dt - r.time →
    (∃ u, exec (.nvpComplete dt c false) s = .next u ∧ lineCrcFails ((u.basins.get n).code.get k) l = true ∧
      (∀ j, j ≠ l.toNat → kget ((u.basins.get n).code.get k).lines j = kget code.lines j) ∧
      u.nvp.get c = { s.nvp.get c with busy := false, op := none, err := true } ∧ SameMemory s u) ∧
    ∃ t, exec (.nvpComplete dt c true) s = .next t ∧
      kget ((t.basins.get n).code.get k).lines l.toNat = new.map (fun d => { data := d, crc := lineCrc d }) ∧
      (∀ j, j ≠ l.toNat → kget ((t.basins.get n).code.get k).lines j = kget code.lines j) ∧
      t.nvp.get c = { s.nvp.get c with busy := false, op := none, done := true } ∧ SameMemory s t))

/-- INTERRUPT_ENTRY of the selected source n of a boundary (R111, R114, R115) begins the entry with BC_CAUSE 40h + n, BC_FADDR 0 and
IPL = PRI, and clears PEND; that of source 0 opens the cycle of the oldest date, that of source 1 the retry's (R155, R156).
INSTRUCTION_ISSUE then makes the frame's accesses, one in each BCLK that its bank grants (R114 step 4, R117): three row writes, of the 24
words that the entry saved, and three readbacks, after which the handler's first instruction issues 2 BCLK later. -/
def Obligations.InterruptEntrySavesAndVectors : Prop :=
  (∀ (s : State) (dt : Nat) (g : BargeIx) (n : Fin 64),
    let b := s.barges.get g
    let i := b.intc.get n
    Available s → AtBoundary s g → b.flights = [] → b.syPend = [] → iouWriting b = false → b.entry = none →
    selectInterrupt b (bclkCount (s.elapse dt) (basinOf g)) = some n →
    nextFaults (s.elapse dt) g = false → heldHard (s.elapse dt) g = false → FrameAdmitted s g →
    ∃ t, exec (.interruptEntry dt g) s = .next t ∧
      Enters (s.elapse dt) t g { cause := BitVec.ofNat 8 (0x40 + n.val), faddr := 0, handler := i.world, vector := n.val
                                 pri := some i.pri, pc := b.pc, irun := b.irun } ∧
      ((t.barges.get g).intc.get n).pend = false ∧
      (let y := (t.barges.get g).sig
       (∀ d k rest, n = 0 → b.sig.queue = (d, k) :: rest →
         y.s = d.setWidth 61 ∧ y.n = 0 ∧ y.task = k ∧ y.date = d ∧ y.isOpen = true ∧ y.retry = false ∧ y.queue = rest ∧
           y.retryHeld = b.sig.retryHeld) ∧
       (∀ d k, n = 1 → b.sig.retryHeld = some (d, k) →
         y.s = d.setWidth 61 ∧ y.n = 0 ∧ y.task = k ∧ y.date = d ∧ y.isOpen = true ∧ y.retry = true ∧ y.retryHeld = none ∧
           y.queue = b.sig.queue) ∧
       (2 ≤ n.val → y.s = b.sig.s ∧ y.n = b.sig.n ∧ y.task = b.sig.task ∧ y.date = b.sig.date ∧ y.isOpen = b.sig.isOpen ∧
         y.retry = b.sig.retry ∧ y.queue = b.sig.queue ∧ y.retryHeld = b.sig.retryHeld))) ∧
  (∀ (s : State) (dt : Nat) (g : BargeIx) (rivals : List Rival) (f : FrameRun) (e : EntryRec),
    let b := s.barges.get g
    let x := s.basins.get (basinOf g)
    let clk := bclkCount (s.elapse dt) (basinOf g)
    let a := f.addr + 32 * (f.made % 3)
    Available s → MemoriesCanonical s → bargeRuns s g = true → b.dbg.stepping = false → b.frameRun = some f → b.entry = some e →
    e.frame.length = 24 → f.made < 6 → f.next ≤ clk → f.addr % 32 = 0 → f.addr + 96 ≤ 0x100000 → inHandover x (bankOf a) = false →
    (inEmergency a = true ∨ bargeAdmitted (x.banks.get (bankOf a)).own (posOf g) e.ctxWorld true = true) →
    PortsFree (s.elapse dt) (basinOf g) → (∀ r ∈ rivals, r.bank ≠ bankOf a) → (∀ w, x.mem.mark w = none) →
    ∃ t, exec (.instructionIssue dt g rivals) s = .next t ∧
      (if f.made = 5 then (t.barges.get g).frameRun = none ∧ (t.barges.get g).issueFrom = max b.issueFrom (clk + 2)
        else (t.barges.get g).frameRun = some { addr := f.addr, made := f.made + 1, next := clk + 1 }) ∧
      (∀ k, f.made < 3 → k < 8 → (t.basins.get (basinOf g)).mem.word (a / 4 + k) = e.frame.getD (8 * f.made + k) 0) ∧
      (∀ k, ¬ (f.made < 3 ∧ a ≤ k ∧ k < a + 32) → (t.basins.get (basinOf g)).mem.nonet k = x.mem.nonet k) ∧
      (t.barges.get g).psw = b.psw ∧ (t.barges.get g).pc = b.pc ∧ (t.barges.get g).u = b.u ∧
      (t.barges.get g).flags = b.flags ∧ (t.barges.get g).vital = b.vital ∧ (t.barges.get g).ordinary = b.ordinary)

/-- Writes of a barge's own control words at supervisor level that its window lets through (R109, R110, R231): TCMP_WRITE sets the
compare value and arms it, TCMP_REACHED disarms it and raises source 16 + k, INTC_SWI_WRITE raises sources 4 to 7 where bits 0
to 3 of the value are 1, BASIN_DBELL_WRITE raises source 8 + p in each barge of the basin whose bit is 1, and does nothing when
it comes through the bridge. Messages of the Keeper reach their barge (R109, R155, R156, R445): a date joins the queue of four,
a retry request is held, a decision notice raises source 2; each is taken from the link, and no register or memory changes. -/
def Obligations.RequestsReachTheirBarge : Prop :=
  ((∀ (s : State) (dt : Nat) (g : BargeIx) (k : Fin 4) (v : Word),
    Available s → pswL (s.barges.get g).psw = true →
    (pswW (s.barges.get g).psw = true ∨ ((s.barges.get g).intc.get ⟨16 + k.val, by omega⟩).world = false) →
    exec (.tcmpWrite dt g k v) s = .next ((s.elapse dt).modBarge g fun b =>
      { b with tcmp := vput b.tcmp k v, tcmpArmed := vput b.tcmpArmed k true })) ∧
  (∀ (s : State) (dt : Nat) (g : BargeIx) (k : Fin 4),
    Available s → (s.crp.bpwr.get (basinOf g)).cur.toNat ≤ 1 → bit s.crp.bhold g.val = false →
    (s.barges.get g).tcmpArmed.get k = true →
    reached (sampleTime g (s.elapse dt)).1 ((s.barges.get g).tcmp.get k) = true →
    ∃ t, exec (.tcmpReached dt g k) s = .next t ∧ (t.barges.get g).tcmpArmed.get k = false ∧
      ((t.barges.get g).intc.get ⟨16 + k.val, by omega⟩).pend = true ∧
      (∀ n : Fin 64, n.val ≠ 16 + k.val → (t.barges.get g).intc.get n = (s.barges.get g).intc.get n) ∧
      (t.barges.get g).vital = (s.barges.get g).vital ∧ (t.barges.get g).pc = (s.barges.get g).pc ∧
      (∀ h, h ≠ g → t.barges.get h = s.barges.get h) ∧ SameMemory s t) ∧
  (∀ (s : State) (dt : Nat) (g : BargeIx) (v : Word),
    Available s → pswL (s.barges.get g).psw = true → pswW (s.barges.get g).psw = true →
    ∃ t, exec (.intcSwiWrite dt g v) s = .next t ∧ OnlyBarge g (s.elapse dt) t ∧ OnlyRequests s t ∧
      (∀ k : Fin 4, ((t.barges.get g).intc.get ⟨4 + k.val, by omega⟩).pend =
        (bit v k.val || ((s.barges.get g).intc.get ⟨4 + k.val, by omega⟩).pend)) ∧
      (∀ n : Fin 64, n.val < 4 ∨ 8 ≤ n.val → (t.barges.get g).intc.get n = (s.barges.get g).intc.get n)) ∧
  (∀ (s : State) (dt : Nat) (g : BargeIx) (v : Word),
    Available s → pswL (s.barges.get g).psw = true →
    ∃ t, exec (.basinDbellWrite dt (basinOf g) (.barge g) v) s = .next t ∧ OnlyRequests s t ∧
      t = { s.elapse dt with barges := t.barges, events := t.events } ∧
      (∀ q : Fin 4, ((t.barges.get (bargeOf (basinOf g) q)).intc.get ⟨8 + (posOf g).val, by omega⟩).pend =
        (bit v q.val || ((s.barges.get (bargeOf (basinOf g) q)).intc.get ⟨8 + (posOf g).val, by omega⟩).pend)) ∧
      (∀ h, basinOf h ≠ basinOf g → t.barges.get h = s.barges.get h)) ∧
  (∀ (s : State) (dt : Nat) (n : BasinIx) (v : Word), Available s →
    exec (.basinDbellWrite dt n .bridge v) s = .next (s.elapse dt))) ∧
  ((∀ (s : State) (dt : Nat) (g : BargeIx) (d : BitVec 32) (n : BitVec 8),
    let b := s.barges.get g
    Available s → bargeRuns s g = true → s.kp.toBarge.find? (fun m => m.1 == g) = some (g, .date d n) →
    ∃ t, exec (.dateArrival dt g) s = .next t ∧
      (t.barges.get g).sig = (if b.sig.queue.length < 4 then { b.sig with queue := b.sig.queue ++ [(d, n)] }
        else { b.sig with qovf := true }) ∧
      t.kp.toBarge = dropFirst (fun m => m.1 == g) s.kp.toBarge ∧
      (b.sig.en = true → b.sig.isOpen = false → ((t.barges.get g).intc.get 0).pend = true) ∧
      (t.barges.get g).vital = b.vital ∧ (t.barges.get g).pc = b.pc ∧ (∀ h, h ≠ g → t.barges.get h = s.barges.get h) ∧
      SameMemory s t) ∧
  (∀ (s : State) (dt : Nat) (g : BargeIx) (d : BitVec 32) (n : BitVec 8),
    let b := s.barges.get g
    Available s → bargeRuns s g = true → s.kp.toBarge.find? (fun m => m.1 == g) = some (g, .retry d n) →
    ∃ t, exec (.retryRequestArrival dt g) s = .next t ∧
      (t.barges.get g).sig = { b.sig with retryHeld := some (d, n) } ∧ ((t.barges.get g).intc.get 1).pend = true ∧
      t.kp.toBarge = dropFirst (fun m => m.1 == g) s.kp.toBarge ∧
      (t.barges.get g).vital = b.vital ∧ (t.barges.get g).pc = b.pc ∧ (∀ h, h ≠ g → t.barges.get h = s.barges.get h) ∧
      SameMemory s t) ∧
  (∀ (s : State) (dt : Nat) (g : BargeIx),
    Available s → bargeRuns s g = true → s.kp.toBarge.find? (fun m => m.1 == g) = some (g, .notice) →
    ∃ t, exec (.decisionNoticeArrival dt g) s = .next t ∧ ((t.barges.get g).intc.get 2).pend = true ∧
      t.kp.toBarge = dropFirst (fun m => m.1 == g) s.kp.toBarge ∧ OnlyRequests s t ∧
      (∀ h, h ≠ g → t.barges.get h = s.barges.get h) ∧ SameMemory s t))

/-- Writes that wait for the writer's SYNC (R98): at supervisor level, where its window lets them through, BC_PSW_WRITE,
UNIT_CONTEXT_WRITE, BANK_OWN_WRITE and CODEMAP_WRITE by a barge add one waiting setting and change nothing else, and a write
that the window refuses raises the I/O access fault (R82, R103, R120, R213, R228); through the bridge BANK_OWN of a bank with
nothing in progress and CODEMAP change at once (R213, R228). SYNC_EFFECT makes every setting effective that waited for it, of
several of one register the last (R98): the PSW's fields [8:0] and no other bit of it, CTXID, a frame pointer with its bits
[4:0] read as 0, a unit context register, CODEMAP; both register banks stay. A BANK_OWN value that alone waits, at a bank with
no handover under way, governs from here, and its handover goes on while accesses checked against the old value are left (R213
to R215). -/
def Obligations.SettingsWaitForSync : Prop :=
  ((∀ (s : State) (dt : Nat) (g : BargeIx) (v : Word), Available s → pswL (s.barges.get g).psw = true →
    exec (.bcPswWrite dt g v) s = .next (
      if (bit v 2 = true ∧ bit v 3 = true) ∨ (pswW (s.barges.get g).psw = false ∧ bit v 0 = true) then
        writeFault g 0x08 0 (s.elapse dt)
      else (s.elapse dt).modBarge g fun b => { b with syPend := b.syPend ++ [(.psw, v)] })) ∧
  (∀ (s : State) (dt : Nat) (g : BargeIx) (k : BitVec 5) (v : Word), Available s → pswL (s.barges.get g).psw = true →
    exec (.unitContextWrite dt g k v) s = .next (
      if pswW (s.barges.get g).psw = false ∧ 0x16 ≤ k.toNat ∧ k.toNat ≤ 0x1D then
        writeFault g 0x08 (0x40 + k.setWidth 36) (s.elapse dt)
      else (s.elapse dt).modBarge g fun b => { b with syPend := b.syPend ++ [(.unit k, v)] })) ∧
  (∀ (s : State) (dt : Nat) (g : BargeIx) (b : BankIx) (v : Word), Available s → pswL (s.barges.get g).psw = true →
    exec (.bankOwnWrite dt (basinOf g) b (.barge g) v) s = .next (
      if bankOwnRefused ((s.basins.get (basinOf g)).banks.get b).own (posOf g) (pswW (s.barges.get g).psw) true v then
        writeFault g 0x08 (BitVec.ofNat 36 (0x400 + b.val)) (s.elapse dt)
      else (s.elapse dt).modBarge g fun x =>
        { x with syPend := x.syPend ++ [(.bankOwn b (pswW (s.barges.get g).psw), v)] })) ∧
  (∀ (s : State) (dt : Nat) (n : BasinIx) (b : BankIx) (v : Word),
    let x := (s.basins.get n).banks.get b
    Available s → x.ho = none → x.hoWait = [] → (∀ w, x.hoTurn = some w → w.bclk ≠ bclkCount (s.elapse dt) n) →
    bankStores s n b = [] → (∀ r ∈ (s.basins.get n).tport, r.refuse = true ∨ reqTouches r b = false) →
    ∃ t, exec (.bankOwnWrite dt n b .bridge v) s = .next t ∧
      t = (s.elapse dt).modBank n b fun x =>
        { x with own := v.setWidth 7, hoTurn := ((t.basins.get n).banks.get b).hoTurn }) ∧
  (∀ (s : State) (dt : Nat) (g : BargeIx) (v : Word), Available s → pswL (s.barges.get g).psw = true →
    exec (.codemapWrite dt (basinOf g) (posOf g) (.barge g) v) s = .next (
      if pswW (s.barges.get g).psw = false ∨ 2 ≤ mappedTo s (basinOf g) (posOf g) (v.setWidth 2) then
        writeFault g 0x08 (BitVec.ofNat 36 (0x410 + (posOf g).val)) (s.elapse dt)
      else (s.elapse dt).modBarge g fun b => { b with syPend := b.syPend ++ [(.codemap, v)] })) ∧
  (∀ (s : State) (dt : Nat) (n : BasinIx) (p : Fin 4) (v : Word), Available s →
    exec (.codemapWrite dt n p .bridge v) s = .next ((s.elapse dt).modBasin n fun x =>
      { x with codemap := vput x.codemap p (v.setWidth 2) }))) ∧
  (∀ (s : State) (dt : Nat) (g : BargeIx),
    let b := s.barges.get g
    let n := basinOf g
    let last (k : SyKey) : Option Word := (b.syPend.reverse.find? fun kv => kv.1 == k).map (·.2)
    Available s → bargeRuns s g = true → b.sync = true → b.rfeDue = none → iouWriting b = false →
    ∃ t, exec (.syncEffect dt g) s = .next t ∧ (t.barges.get g).sync = false ∧ (t.barges.get g).syPend = [] ∧
      (∀ v, last .psw = some v → (t.barges.get g).psw = (b.psw &&& ~~~0x1FF) ||| (v &&& 0x1FF)) ∧
      ((∀ kv ∈ b.syPend, kv.1 ≠ .psw) → (t.barges.get g).psw = b.psw) ∧
      (∀ v, last .ctxid = some v → (t.barges.get g).ctxid = v.setWidth 16) ∧
      (∀ w v, last (.fps w) = some v → ((t.barges.get g).ctl w).fps = v.setWidth 20 &&& ~~~31) ∧
      (∀ w v, last (.fpu w) = some v → ((t.barges.get g).ctl w).fpu = v.setWidth 20 &&& ~~~31) ∧
      (∀ w v, last (.vbase w) = some v →
        ((t.barges.get g).ctl w).vbase = fld v 7 7 ∧ ((t.barges.get g).ctl w).pbar = bit v 14) ∧
      (∀ v, last .sigCfg = some v → (t.barges.get g).sig = { b.sig with en := bit v 0, tchk := bit v 1 }) ∧
      (∀ v, last (.unit 0x03) = some v → (t.barges.get g).u.lsua = v) ∧
      (∀ v, last .codemap = some v → (t.basins.get n).codemap.get (posOf g) = v.setWidth 2) ∧
      (∀ v w k, let x := (s.basins.get n).banks.get k
        b.syPend = [(.bankOwn k w, v)] → x.ho = none → x.hoWait = [] →
        (∀ h, x.hoTurn = some h → h.bclk ≠ bclkCount (s.elapse dt) n) → bankOwnRefused x.own (posOf g) w true (v &&& 0x7F) = false →
        ((t.basins.get n).banks.get k).own = v.setWidth 7 ∧
          (((t.basins.get n).banks.get k).ho = none ↔
            bankStores s n k = [] ∧ ∀ r ∈ (s.basins.get n).tport, r.refuse = true ∨ reqTouches r k = false) ∧
          (∀ h, ((t.basins.get n).banks.get k).ho = some h → h.old = x.own ∧ h.writer = some (posOf g))) ∧
      (t.barges.get g).vital = b.vital ∧ (t.barges.get g).ordinary = b.ordinary ∧ (t.barges.get g).pc = b.pc)

/-- Debug of a barge (R411 to R415), where the debug modules are allowed (R407): DBG_HALT asks for a halt where R412 allows one and is
refused elsewhere; HALT_ENTRY halts the barge at its boundary; DBG_RESUME lets it go on; DBG_STEP runs one count of an idle run and halts
it again with cause 3, and at an instruction does what INSTRUCTION_ISSUE does for the stepping barge, which passes its own breakpoint
(log entry 23); DBG_PC_WRITE and DBG_REGDATA_WRITE change what they name, and only while the barge is halted; a PSW written with T and V
both 1 leaves both as they are (R137; log entry 78). Where they are not allowed, none of them does anything. -/
def Obligations.DebugHaltsStepsAndWrites : Prop :=
  (∀ (s : State) (dt : Nat) (g : BargeIx), Available s →
    exec (.dbgHalt dt g) s = .next (
      if debugAllowed s = false ∨ (s.barges.get g).dbg.halted = true then s.elapse dt
      else if haltAllowed s g then
        (s.elapse dt).modBarge g fun b => { b with dbg := { b.dbg with haltReq := b.dbg.haltReq.orElse fun _ => some (1, 0) } }
      else
        ((s.elapse dt).modBarge g fun b => { b with dbg := { b.dbg with refused := true } }).mark (.dbgStat g) 1)) ∧
  (∀ (s : State) (dt : Nat) (g : BargeIx) (c hit : BitVec 3),
    let b := s.barges.get g
    Available s → bargeRuns s g = true → b.dbg.haltReq = some (c, hit) → b.gate = none → b.sync = false → b.rfeDue = none →
    b.trapDue = none → b.frameRun = none → b.dbg.halted = false → (b.rpt = none ∨ b.done = []) →
    ownHandover s g = false → heldHard (s.elapse dt) g = false → b.flights = [] → b.second = none →
    exec (.haltEntry dt g) s = .next ((s.elapse dt).modBarge g fun b =>
      { b with dbg := { b.dbg with haltReq := none, halted := true, stepping := false, cause := c, bphit := hit } })) ∧
  (∀ (s : State) (dt : Nat) (g : BargeIx),
    Available s → debugAllowed s = true → (s.barges.get g).dbg.halted = true → (s.barges.get g).dbg.atResume = [] →
    exec (.dbgResume dt g) s = .next ((s.elapse dt).modBarge g fun b =>
      { b with dbg := { b.dbg with halted := false, atResume := [], skipBp := true, stepping := false } })) ∧
  (∀ (s : State) (dt : Nat) (g : BargeIx),
    let b := s.barges.get g
    Available s → debugAllowed s = true → bargeRuns s g = true → b.dbg.halted = true → b.dbg.atResume = [] → b.dbg.haltReq = none →
    b.rpt = none → b.wait = none → b.gate = none → b.sync = false → b.rfeDue = none → b.trapDue = none → b.hoFault = none →
    b.frameRun = none → b.second = none → b.issueFrom ≤ bclkCount (s.elapse dt) (basinOf g) → ownHandover s g = false → b.flights = [] → NoInterrupts s g → 0 < b.irun →
    ∃ t, exec (.dbgStep dt g []) s = .next t ∧ OnlyBarge g (s.elapse dt) t ∧
      (t.barges.get g).dbg.halted = true ∧ (t.barges.get g).dbg.cause = 3 ∧ (t.barges.get g).dbg.stepping = false ∧
      (t.barges.get g).count = b.count + 1 ∧ (t.barges.get g).irun = b.irun - 1 ∧ (t.barges.get g).vital = b.vital ∧
      (t.barges.get g).ordinary = b.ordinary) ∧
  (∀ (s : State) (dt : Nat) (g : BargeIx) (rivals : List Rival),
    let b := s.barges.get g
    Available s → debugAllowed s = true → bargeRuns s g = true → b.dbg.halted = true → b.dbg.atResume = [] → b.second = none →
    b.flights = [] → NoInterrupts s g → b.irun = 0 →
    exec (.dbgStep dt g rivals) s = exec (.instructionIssue dt g rivals) (s.modBarge g fun b =>
      { b with dbg := { b.dbg with halted := false, stepping := true, skipBp := true } })) ∧
  (∀ (s : State) (dt : Nat) (g : BargeIx) (v : Word), Available s → debugAllowed s = true →
    (s.barges.get g).dbg.halted = true →
    ∃ t, exec (.dbgPcWrite dt g v) s = .next t ∧ (t.barges.get g).pc = v.setWidth 14 ∧ (t.barges.get g).irun = 0 ∧
      (t.barges.get g).lineBuf = [] ∧ (t.barges.get g).vital = (s.barges.get g).vital ∧
      (t.barges.get g).u = (s.barges.get g).u ∧ (∀ h, h ≠ g → t.barges.get h = s.barges.get h) ∧ SameMemory s t) ∧
  (∀ (s : State) (dt : Nat) (g : BargeIx) (v : Word) (k : Fin 64),
    let b := s.barges.get g
    let w := bit b.dbg.regsel 7
    Available s → debugAllowed s = true → b.dbg.halted = true → bitsN b.dbg.regsel 0 7 = k.val →
    exec (.dbgRegdataWrite dt g v) s = .next ((s.elapse dt).modBarge g fun b =>
      b.setBank w { b.bank w with w := vput (b.bank w).w k v })) ∧
  (∀ (s : State) (dt : Nat) (g : BargeIx) (v : Word),
    let b := s.barges.get g
    let w := bit b.dbg.regsel 7
    Available s → debugAllowed s = true → b.dbg.halted = true →
    ∃ t, exec (.dbgRegdataWrite dt g v) s = .next t ∧ OnlyBarge g (s.elapse dt) t ∧ (t.barges.get g).pc = b.pc ∧
      (bitsN b.dbg.regsel 0 7 = 64 → t.barges.get g = b.setBank w { b.bank w with lnk := v }) ∧
      (bitsN b.dbg.regsel 0 7 = 66 → t.barges.get g = { b with u := { b.u with rc := v } }) ∧
      (bitsN b.dbg.regsel 0 7 = 67 → t.barges.get g = { b with u := { b.u with rs := v } }) ∧
      (bitsN b.dbg.regsel 0 7 = 68 → t.barges.get g = { b with u := { b.u with rd := v } }) ∧
      (bitsN b.dbg.regsel 0 7 = 70 → t.barges.get g =
        { b with dbg := { b.dbg with atResume := b.dbg.atResume ++ [(.psw,
          if bit v 2 = true ∧ bit v 3 = true then pswPut 2 (pswT b.psw) (pswPut 3 (pswV b.psw) v) else v)] } })) ∧
  (∀ (s : State) (dt : Nat) (g : BargeIx) (v : Word), Available s →
    (s.barges.get g).dbg.halted = false ∨ debugAllowed s = false →
    exec (.dbgRegdataWrite dt g v) s = .next (s.elapse dt) ∧ exec (.dbgPcWrite dt g v) s = .next (s.elapse dt))

/-- Faults, traps and returns. A fault of the next instruction, a line that fails its checks and a faulting result each begin the fault
entry at vector 64 in the world in which they arise, with the instruction's address to resume at (R45, R53, R96, R114, R122); a trap
begins it with cause 0Ch, its operand and the next address (R39). With no place for the frame a double fault is taken at vector 65, its
frame in the emergency slot (R124 to R126), and while DFA = 1 the barge resets itself with the failure that came first (R126). An rfe
that passes its checks issues and makes its SYNC; it then reads the frame's three rows, and with the last one restores what R118 names:
PC, FLAGS, the idle count, PSW, LNK, the block-repeat registers, the deliveries that were pending, and FP, which rises by 96 except
from a slot. That the rows are read one in a BCLK and checked as they are read is the model's choice (log entries 27, 79). -/
def Obligations.FaultsTrapsAndReturns : Prop :=
  (∀ (s : State) (dt : Nat) (g : BargeIx) (rivals : List Rival) (c : BitVec 8) (f : Word) (h : HeldLine),
    let b := s.barges.get g
    let i := lineInsn h.data (bitsN b.pc 0 2)
    Available s → FaultsAtOnce s g → FrameAdmitted s g →
    (plan g (s.elapse dt) = .fault c f ∨
      (b.mustRead = false ∧ b.heldLine (fld b.pc 2 12) = some h ∧ f = b.pc.setWidth 36 ∧
        ((h.bad = true ∧ c = 0x09) ∨ (h.bad = false ∧ decodeFault i (pswW b.psw) (pswL b.psw) = some c)))) →
    ∃ t, exec (.instructionIssue dt g rivals) s = .next t ∧
      Enters (s.elapse dt) t g { cause := c, faddr := f, handler := pswW b.psw, vector := 64, pc := b.pc }) ∧
  (∀ (s : State) (dt : Nat) (g : BargeIx) (c : BitVec 8) (f : Flight),
    let b := s.barges.get g
    Available s → AtBoundary s g → b.flights = [f] → f.due ≤ b.count → f.fault = some c → b.syPend = [] → b.entry = none →
    iouWriting b = false → FrameAdmitted s g →
    ∃ t, exec (.resultDelivery dt g false) s = .next t ∧
      Enters (s.elapse dt) t g
        { cause := c, faddr := f.faddr, handler := pswW b.psw, vector := 64, pc := b.pc, irun := b.irun }) ∧
  (∀ (s : State) (dt : Nat) (g : BargeIx) (rivals : List Rival) (i : Insn) (v : Word),
    let b := s.barges.get g
    Available s → NextInsn s g i → NoInterrupts s g → Triggers s g i .bru 4 v → iouWriting b = false → FrameAdmitted s g →
    ∃ t, exec (.instructionIssue dt g rivals) s = .next t ∧
      Enters (s.elapse dt) t g { cause := 0x0C, faddr := v, handler := pswW b.psw, vector := 64, pc := b.pc + 1 }) ∧
  (∀ (s : State) (dt : Nat) (g : BargeIx) (rivals : List Rival) (c : BitVec 8) (f : Word),
    let b := s.barges.get g
    let w := pswW b.psw
    let fp := b.fp w (pswL b.psw)
    let inRange : Prop := 0xE0060 ≤ fp.toNat ∧ fp.toNat ≤ 0xFFC00
    let own (a : Nat) : Bool := bargeAdmitted ((s.basins.get (basinOf g)).banks.get (bankOf a)).own (posOf g) w true
    let code : BitVec 8 := if inRange then 0x21 else 0x20
    Available s → FaultsAtOnce s g → plan g (s.elapse dt) = .fault c f →
    ¬ (inRange ∧ own (fp.toNat - 96) = true ∧ own (fp.toNat - 1) = true) →
    ∃ t, exec (.instructionIssue dt g rivals) s = .next t ∧
      (let y := t.barges.get g
       if pswDFA b.psw then
         let first := b.dbl.getD (b.pc, w, c)
         bit t.crp.bhold g.val = true ∧ y.rstinfo = escalationInfo code first.1 first.2.1 first.2.2 ∧
           (t.kp.links.get g).getLast? = some (.reset y.rstinfo) ∧ y.vital = b.vital ∧ y.ordinary = b.ordinary
       else
         (y.ctl w).cause = code ∧ (y.ctl w).faddr = (fp - 96).setWidth 36 ∧ y.fp w (pswL b.psw) = fp ∧
           y.pc = BitVec.ofNat 14 (128 * (b.ctl w).vbase.toNat + 65) ∧ pswDFA y.psw = true ∧ pswW y.psw = w ∧
           pswL y.psw = true ∧ pswT y.psw = false ∧ pswV y.psw = false ∧ pswGA y.psw = false ∧ pswIE y.psw = pswIE b.psw ∧
           y.frameRun = some { addr := slotBase (posOf g) w, next := bclkCount (s.elapse dt) (basinOf g) + 2 } ∧
           (∃ e, y.entry = some e ∧ e.double = true ∧ e.frame.getD 1 0 = b.psw) ∧ y.dbl = some (b.pc, w, c) ∧
           y.vital = b.vital ∧ y.ordinary = b.ordinary ∧ y.u = b.u ∧ y.flags = b.flags ∧ y.lineBuf = []) ∧
      (∀ k, k ≠ g → t.barges.get k = { s.barges.get k with intc := (t.barges.get k).intc }) ∧ SameMemory s t) ∧
  (∀ (s : State) (dt : Nat) (g : BargeIx) (rivals : List Rival) (i : Insn) (v : Word),
    let clk := bclkCount (s.elapse dt) (basinOf g)
    Available s → NextInsn s g i → NoInterrupts s g → Triggers s g i .bru 7 v → (s.barges.get g).iou = none →
    rfeFault (s.elapse dt) g v = none →
    IssuesTo s dt g rivals ((s.barges.get g).pc + 1) fun y =>
      y.rfeDue = some { t := v, pc := (s.barges.get g).pc, since := clk, synced := true, next := clk + 1 }) ∧
  (∀ (s : State) (dt : Nat) (g : BargeIx) (rivals : List Rival) (r : RfeRun),
    let b := s.barges.get g
    let x := s.basins.get (basinOf g)
    let clk := bclkCount (s.elapse dt) (basinOf g)
    let base := rfeFrame b g r.t
    let k := r.words.length / 8
    let words := r.words ++ (frameRow base k).map x.mem.word
    let w (j : Nat) : Word := words.getD j 0
    let z := bit r.t 1
    let l := bit r.t 0
    Available s → bargeRuns s g = true → b.dbg.stepping = false → b.frameRun = none → b.second = none → b.rfeDue = some r →
    r.synced = true → r.next ≤ clk → (r.words.length = 0 ∨ r.words.length = 8 ∨ r.words.length = 16) → base % 32 = 0 →
    base + 96 ≤ 0x100000 → inHandover x (bankOf (base + 32 * k)) = false →
    (bit r.t 2 = true ∨ bargeAdmitted (x.banks.get (bankOf (base + 32 * k))).own (posOf g) z true = true) →
    PortsFree (s.elapse dt) (basinOf g) → (∀ q ∈ rivals, q.bank ≠ bankOf (base + 32 * k)) → (∀ n, x.mem.mark n = none) →
    (k = 2 → pswW (w 1) = z ∧ pswL (w 1) = l ∧ ¬ (pswT (w 1) = true ∧ pswV (w 1) = true)) →
    ∃ t, exec (.instructionIssue dt g rivals) s = .next t ∧
      (let y := t.barges.get g
       if k < 2 then
         y.rfeDue = some { r with words := words, next := clk + 1 } ∧ y.pc = b.pc ∧ y.psw = b.psw ∧ y.flags = b.flags ∧
           y.u = b.u ∧ y.vital = b.vital ∧ y.ordinary = b.ordinary
       else
         y.rfeDue = none ∧ y.pc = fld (w 0) 0 14 ∧ y.flags = Flags.ofWord (fld (w 0) 14 5) ∧ y.irun = bitsN (w 0) 19 8 ∧
           y.psw = w 1 &&& pswMask ∧ y.bank z = { b.bank z with lnk := w 2 } ∧ y.bank (!z) = b.bank (!z) ∧
           y.u.rc = w 3 ∧ y.u.rs = w 4 ∧ y.u.rd = w 5 ∧ y.u.rmode = w 6 &&& rmodeMask ∧ y.u.lsur = w 7 ∧ y.u.mulr = w 9 ∧
           y.u.alu0r = w 11 ∧ y.u.alu1r = w 12 ∧ y.u.macxa = (w 20).setWidth 20 ∧ y.u.macya = (w 21).setWidth 20 ∧
           (bitsN (w 22) 0 4 = 0 → y.flights = b.flights) ∧
           (bitsN (w 22) 0 4 = 2 → bit (w 22) 5 = false →
             y.flights = { port := .lsu, due := b.count + 2, value := some (w 8) } :: b.flights) ∧
           y.fp z l = (if bit r.t 2 then b.fp z l else b.fp z l + 96) ∧ y.lineBuf = [] ∧
           y.issueFrom = max b.issueFrom (max (r.since + 14) (clk + 2))) ∧
      (∀ n, n ≠ g → t.barges.get n = { s.barges.get n with intc := (t.barges.get n).intc }) ∧ SameMemory s t)

/-- INSTRUCTION_ISSUE of one trigger in untagged mode (R38, R41): ALU0 and ALU1 (R55 to R57), MUL (R58), VMUL and VCHK (R148 to R152), CNT
(R86, R87), BRU's jmp, call, ret, gate, gate return, sync and iflush (R37, R39, R98, R107, R108) and RPT (R77 to R79). A result is on its
way for as many instructions as the unit's latency says, or with it the fault of an overflow or of a code check; a wait, a gate or a
block operation holds the barge from then on; the barge goes on at the next instruction or at the branch's target. A gate or gate
return issues once what went before it has finished; that its hold begins with its issue is the model's reading (log entry 97). -/
def Obligations.TriggersStartTheirOperations : Prop :=
  ∀ (s : State) (dt : Nat) (g : BargeIx) (rivals : List Rival) (i : Insn) (v : Word),
    let b := s.barges.get g
    let u := b.u
    let w := pswW b.psw
    let clk := bclkCount (s.elapse dt) (basinOf g)
    let next := b.pc + 1
    let at36 : Word := b.pc.setWidth 36
    let alu (p : ResultPort) (op : Nat) (o : Word) : Flight :=
      let r := aluOut op o v b.flags.c
      if pswV b.psw ∧ (op ≤ 7 ∨ op = 0x10 ∨ op = 0x11) ∧ r.ovf then
        { port := p, due := b.count + 1, value := none, fault := some 0x0D, faddr := at36 }
      else { port := p, due := b.count + 1, value := if op = 0x18 ∨ op = 0x19 then none else some r.v
             flags := if aluSetsFlags op then some (r.v == 0, r.v.msb, r.c, r.ovf) else none }
    let gives (x : Word) (y : Barge) : Prop := y.flights = [{ port := .cnt, due := b.count + 1, value := some x }]
    Available s → NextInsn s g i → NoInterrupts s g → pswT b.psw = false →
    (∀ op, Triggers s g i .alu0 op v → IssuesTo s dt g rivals next fun y => y.flights = [alu .alu0 op u.alu0o] ∧ y.u = u) ∧
    (∀ op, Triggers s g i .alu1 op v → IssuesTo s dt g rivals next fun y => y.flights = [alu .alu1 op u.alu1o] ∧ y.u = u) ∧
    (∀ op, Triggers s g i .mul op v →
      let p : BitVec 72 := if op % 2 = 0 then BitVec.ofInt 72 (u.mulo.toInt * v.toInt) else BitVec.ofNat 72 (u.mulo.toNat * v.toNat)
      IssuesTo s dt g rivals next fun y => y.u = u ∧
        y.flights = [if op = 0 ∧ pswV b.psw ∧ ¬ (-34359738368 ≤ u.mulo.toInt * v.toInt ∧ u.mulo.toInt * v.toInt ≤ 34359738367) then
            { port := .mul, due := b.count + 3, value := none, fault := some 0x0D, faddr := at36 }
          else { port := .mul, due := b.count + 3, value := some (fld p (if op < 2 then 0 else 36) 36) }]) ∧
    (∀ op, Triggers s g i .vmul op v → b.vmulReady ≤ clk →
      let r := vmulResult u.vmulo v u.vmuls (bitsN u.vmulk 0 5)
      IssuesTo s dt g rivals next fun y => y.u = u ∧ y.vmulReady = clk + 5 ∧
        y.flights = [{ port := .vmul, due := b.count + 5, value := some r.2, fault := r.1.cause, faddr := at36 }]) ∧
    (∀ op, Triggers s g i .vchk op v →
      let r := vchkResult (vchkOps op) u.vchko u.vchkh v u.vchks
      IssuesTo s dt g rivals next fun y => y.u = u ∧
        y.flights = [{ port := .vchk, due := b.count + 2, value := some r.2.1, g := some r.2.2, fault := r.1.cause, faddr := at36 }]) ∧
    (Triggers s g i .cnt 0 v →
      let x := (sampleTime g (s.elapse dt)).1
      IssuesTo s dt g rivals next fun y => gives (x.setWidth 36) y ∧ y.u = { u with cntLatch := fld x 36 28 }) ∧
    (Triggers s g i .cnt 1 v → IssuesTo s dt g rivals next fun y => gives (u.cntLatch.setWidth 36) y ∧ y.u = u) ∧
    (Triggers s g i .cnt 2 v → IssuesTo s dt g rivals next fun y => y.u = u ∧
      (bitsN v 0 2 = 0 → gives (BitVec.ofNat 36 (clk - b.bclkBase)) y) ∧ (bitsN v 0 2 = 1 → gives (BitVec.ofNat 36 b.count) y) ∧
      (bitsN v 0 2 = 2 → gives (BitVec.ofNat 36 y.stalled) y) ∧ (bitsN v 0 2 = 3 → gives b.wrongPath y)) ∧
    (Triggers s g i .cnt 3 v → IssuesTo s dt g rivals next fun y => y.u = u ∧
      if reached (sampleTime g (s.elapse dt)).1 v = true then gives 0 y ∧ y.wait = none else y.flights = [] ∧ y.wait = some (.time v)) ∧
    (Triggers s g i .cnt 4 v → IssuesTo s dt g rivals next fun y => y.u = u ∧
      if bitsN v 0 32 = 0 then gives 0 y ∧ y.wait = none else y.flights = [] ∧ y.wait = some (.count (clk + bitsN v 0 32 + 1))) ∧
    (Triggers s g i .bru 0 v → IssuesTo s dt g rivals (v.setWidth 14) fun y => y.u = u ∧ y.flights = []) ∧
    (Triggers s g i .bru 1 v → ∃ t, exec (.instructionIssue dt g rivals) s = .next t ∧
      (let y := t.barges.get g
       y.pc = v.setWidth 14 ∧ y.bank w = { b.bank w with lnk := next.setWidth 36 } ∧ y.bank (!w) = b.bank (!w) ∧
       y.count = b.count + 1 ∧ y.psw = b.psw ∧ y.flags = b.flags ∧ y.u = u) ∧
      (∀ k, k ≠ g → t.barges.get k = { s.barges.get k with intc := (t.barges.get k).intc }) ∧ SameMemory s t) ∧
    (Triggers s g i .bru 2 v → (w = false ∨ bit v 35 = false) →
      IssuesTo s dt g rivals (v.setWidth 14) fun y => y.u = u ∧ y.flights = []) ∧
    (Triggers s g i .bru 2 v → w = true → bit v 35 = true → drained b = true → IssuesTo s dt g rivals next fun y =>
      y.gate = some { isReturn := true, world := w, t := v, pc := b.pc, next := next } ∧ y.u = u) ∧
    (Triggers s g i .bru 3 v → drained b = true → IssuesTo s dt g rivals next fun y =>
      y.gate = some { isReturn := false, world := w, t := v, pc := b.pc, next := next } ∧ y.u = u) ∧
    (Triggers s g i .bru 5 v → IssuesTo s dt g rivals next fun y => y.sync = true ∧ y.u = u) ∧
    (Triggers s g i .bru 6 v → IssuesTo s dt g rivals next fun y => y.lineBuf = [] ∧ y.btb = [] ∧ y.u = u) ∧
    (∀ op, Triggers s g i .rpt op v →
      (op ≤ 1 → w = true → pswV b.psw = true → u.rc ≠ 0 → b.sig.isOpen = true ∧ b.sig.n.toNat + u.rc.toNat ≤ 65535) →
      IssuesTo s dt g rivals next fun y =>
        if u.rc = 0 then y.rpt = none ∧ y.u = { u with rmode := rmodeRun u.rmode op false, rptr := if op = 4 then u.rd else 0 }
        else y.rpt = some { pc := b.pc, world := w, vital := w && pswV b.psw, next := clk + 3 } ∧
          y.u = { u with rmode := rmodeRun u.rmode op true })

/-- INSTRUCTION_ISSUE of one trigger of the units that reach memory, the Wharf, the windows and the signature, in untagged mode: the LSU's
stores (R59 to R64), and its loads, read from memory, forwarded, or in two parts (R61, R63, R65), with RS or RD moved by the op's mode;
the MAC (R72 to R76), the XLU (R68 to R70), the IOU (R82), and SIG's folds and seal (R157 to R165). An access that its checks admit and its
bank grants starts at once; a store waits in the buffer, and vital stores fold their residue. The X and Y words lie in two banks. -/
def Obligations.MemoryTriggersStartTheirOperations : Prop :=
  ∀ (s : State) (dt : Nat) (g : BargeIx) (rivals : List Rival) (i : Insn) (v : Word),
    let b := s.barges.get g
    let x := s.basins.get (basinOf g)
    let u := b.u
    let w := pswW b.psw
    let sup := pswL b.psw
    let vital := w && pswV b.psw
    let clk := bclkCount (s.elapse dt) (basinOf g)
    let next := b.pc + 1
    let room : Prop := b.sig.isOpen = true ∧ b.sig.n.toNat + 1 ≤ 65535
    let free (k : BankIx) : Prop := inHandover x k = false ∧ ∀ r ∈ rivals, r.bank ≠ k
    Available s → NextInsn s g i → NoInterrupts s g → pswT b.psw = false →
    (∀ (op : Nat) (a : Int), Triggers s g i .lsu op v → lsuAddress false u op v = some a →
      let n := lsuSize op
      let parts := partsOf a n
      let moved (p : Word) : Word := if lsuMode op = 1 then p + BitVec.ofNat 36 n else p - BitVec.ofNat 36 n
      let steps : Prop := lsuMode op = 1 ∨ lsuMode op = 2
      accessFault x (posOf g) w sup parts = none → (∀ p ∈ parts, inHandover x (bankOf p.addr.toNat) = false) →
      (lsuStore op = true → b.stores.length + parts.length ≤ 4 → (vital = true → room) →
        IssuesTo s dt g rivals next fun y =>
          y.stores = b.stores ++ storeEntries a n b.storeSeq clk (if n = 8 then v ++ u.lsud else u.lsud.setWidth 72) w ∧
          y.flights = [] ∧ y.u = (if steps then { u with rd := moved u.rd } else u) ∧
          y.sig = if vital then b.sig.fold (if n = 8 then (residue u.lsud + residue v) % 4093 else residue u.lsud) 1 else b.sig) ∧
      (lsuStore op = false → (∀ e ∈ b.stores, e.meets a.toNat n = false) → storeFirst b (firstBank a n) = false →
        PortsFree (s.elapse dt) (basinOf g) → free (bankOf a.toNat) → (∀ k, x.mem.mark k = none) →
        IssuesTo s dt g rivals next fun y =>
          (if parts.length = 1 then
            y.second = none ∧ y.flights = loadFlights false b.pc op (b.count + 3) a.toNat n (x.mem.read a.toNat n) []
          else
            let k := n - a.toNat % n
            y.flights = [] ∧ y.second = some { since := clk, op := op, addr := a.toNat, size := n, first := x.mem.read a.toNat k, ues := []
                                               due := b.count + 3, tagMode := false, pc := b.pc }) ∧
          y.u = (if steps then { u with rs := moved u.rs } else u) ∧ y.stores.map (·.seq) = b.stores.map (·.seq)) ∧
      (lsuStore op = false → ∀ e, youngest b a.toNat n = some e → e.addr = a.toNat → e.size = n →
        IssuesTo s dt g rivals next fun y =>
          y.flights = loadFlights false b.pc op (b.count + 3) a.toNat n (e.data.toNat % 512 ^ n) [] ∧ y.second = none ∧
          y.u = (if steps then { u with rs := moved u.rs } else u) ∧ y.stores = b.stores)) ∧
    (∀ op, Triggers s g i .mac op v → bitsN v 0 2 ≠ 3 →
      let p := macAddrs u
      let k := bitsN v 0 2
      let port : ResultPort := if k = 0 then .mac0 else if k = 1 then .mac1 else .mac2
      let acc (z : Units) : BitVec 84 := vgetN z.acc k 0
      let r := macOp op (acc u) (x.mem.word (p.1 / 4)) (x.mem.word (p.2 / 4)) v
      (op ≤ 1 → accessFault x (posOf g) w sup [{ addr := p.1, len := 4 }, { addr := p.2, len := 4 }] = none ∧
        (∀ e ∈ b.stores, e.meets p.1 4 = false ∧ e.meets p.2 4 = false) ∧ bankOf p.1 ≠ bankOf p.2 ∧ free (bankOf p.1) ∧
        free (bankOf p.2) ∧ PortsFree (s.elapse dt) (basinOf g) ∧ ∀ k, x.mem.mark k = none) →
      IssuesTo s dt g rivals next fun y =>
        y.flights = [{ port := port, due := b.count + 4, value := some r.2 }] ∧ acc y.u = r.1 ∧
        y.u.macxa = (if op ≤ 1 ∧ bit v 3 = false then macAdvance u.macxa u.macxs u.macxm else u.macxa) ∧
        y.u.macya = (if op ≤ 1 ∧ bit v 3 = false then macAdvance u.macya u.macys u.macym else u.macya) ∧
        y.u = { u with acc := y.u.acc, macxa := y.u.macxa, macya := y.u.macya } ∧
        ∀ j : Fin 3, j.val ≠ k → y.u.acc.get j = u.acc.get j) ∧
    (∀ op, Triggers s g i .xlu op v →
      let a : BitVec 32 := (u.xlua + v).setWidth 32
      let write := op % 2 == 1
      a.toNat % sizeNonets (xluSize op) = 0 → b.xluCredits < 8 →
      ((List.finRange 4).map fun p => (s.barges.get (bargeOf (basinOf g) p)).xluCredits).sum < 32 →
      (write = true → vital = true → room) →
      IssuesTo s dt g rivals next fun y =>
        y.xluq = b.xluq ++ [{ write := write, size := xluSize op, addr := a, data := u.xlud, world := w, after := b.storeSeq
                              load := if write then 0 else b.xluIssued + 1 }] ∧
        y.xluCredits = b.xluCredits + 1 ∧ y.xluIssued = (if write then b.xluIssued else b.xluIssued + 1) ∧ y.u = u ∧
        y.sig = if write ∧ vital then b.sig.fold (residue u.xlud) 1 else b.sig) ∧
    (∀ op, Triggers s g i .iou op v → b.iou = none →
      let a := u.ioua + v
      let stages := op = 1 ∧ w = true ∧ vitalStaging (s.elapse dt) w a.toNat = true
      a.toNat < 0x10000 → (op = 0 → winRead (s.elapse dt) g w a.toNat ≠ none) →
      (op = 1 → winWriteFaults (s.elapse dt) g w sup a.toNat u.ioud = false) → (stages → pswV b.psw = true ∧ room) →
      IssuesTo s dt g rivals next fun y =>
        y.iou = some { write := op == 1, addr := a.setWidth 16, data := u.ioud, world := w, sup := sup, after := b.storeSeq
                       date := (stagingTag b).1, att := (stagingTag b).2 } ∧ y.u = u ∧ y.flights = [] ∧
        (stages → y.sig = b.sig.fold (residue u.ioud) 1) ∧ (¬ stages → y.sig = b.sig)) ∧
    (b.sig.en = true →
      (Triggers s g i .sig 0 v → (vital = true → room) →
        IssuesTo s dt g rivals next fun y => y.u = u ∧ y.sig = if vital then b.sig.fold (residue v) 1 else b.sig) ∧
      (Triggers s g i .sig 1 v → bitsN v 0 12 ≤ 4092 → bitsN v 12 8 ≠ 0 →
        (vital = true → b.sig.isOpen = true ∧ b.sig.n.toNat + bitsN v 12 8 ≤ 65535) →
        IssuesTo s dt g rivals next fun y => y.u = u ∧
          y.sig = if vital then b.sig.fold (bitsN v 0 12) (bitsN v 12 8) else b.sig) ∧
      (Triggers s g i .sig 2 v → b.sig.isOpen = true → (b.sig.tchk = true → v.setWidth 8 = b.sig.task) →
        IssuesTo s dt g rivals next fun y => y.u = u ∧
          y.sig = { b.sig with
            isOpen := false, retry := false, captured := some (.seal b.sig.s b.sig.task b.sig.n, iouWriting b) }))

/-- Tagged mode (R127 to R134): a short immediate reads as INT; an ALU or MUL trigger on a pair of tags that R130 lists issues, with the
result's tag and the 32-bit value of R131, Z, N, C and V with it; pass never faults; cmp and tst with NULL compare the tags, of which
that a reserved tag or POISON beside the NULL faults is the model's reading (log entry 103); every other pair, and a BOOL that is
neither 0 nor 1, begins the entry of the tag fault with the instruction's own address (R129, R135), and so do VMUL, VCHK and SIG triggers (R137). An LSU access
through LSU.a takes an ADDR, INT or UINT base and no other; a loaded word that is POISON or reserved faults at its delivery, nonets and
halves take the tag of their extension, and a store's data is checked at its trigger (R133, R134). -/
def Obligations.TaggedModeChecksItsTags : Prop :=
  ∀ (s : State) (dt : Nat) (g : BargeIx) (rivals : List Rival) (i : Insn) (v : Word),
    let b := s.barges.get g
    let x := s.basins.get (basinOf g)
    let u := b.u
    let w := pswW b.psw
    let next := b.pc + 1
    let at36 : Word := b.pc.setWidth 36
    let tag (a : Word) : Nat := bitsN a 32 4
    let val (a : Word) : BitVec 32 := a.setWidth 32
    let invalid (k : Nat) : Prop := (8 ≤ k ∧ k ≤ 13) ∨ k = 15
    let pairs (op : Nat) : List (Nat × Nat × Nat) :=
      if op ≤ 3 then [(0, 0, 0), (1, 1, 1), (3, 0, 3), (0, 3, 3), (5, 0, 5), (4, 0, 4)]
      else if op ≤ 7 ∨ op = 0x18 then [(0, 0, 0), (1, 1, 1), (3, 0, 3), (3, 3, 0), (5, 0, 5), (5, 5, 0), (4, 0, 4)]
      else if op ≤ 0x0F ∨ op = 0x19 then [(1, 1, 1), (2, 2, 2), (6, 1, 6), (7, 1, 7)]
      else if op ≤ 0x17 then [(0, 0, 0), (0, 1, 0), (1, 0, 1), (1, 1, 1), (6, 0, 6), (6, 1, 6), (7, 0, 7), (7, 1, 7)]
      else if op ≤ 0x1B then [(0, 0, 0), (3, 3, 3)]
      else if op ≤ 0x1D then [(1, 1, 1), (3, 3, 3), (4, 4, 4)]
      else [(0, 0, 0), (0, 1, 0)]
    let isBool (a : Word) : Prop := tag a = 2 → val a = 0 ∨ val a = 1
    let isNull (op : Nat) (o : Word) : Prop :=
      (op = 0x18 ∨ op = 0x19) ∧ (tag o = 14 ∨ tag v = 14) ∧ ¬ invalid (tag o) ∧ ¬ invalid (tag v)
    let faults : Prop := ∃ t, exec (.instructionIssue dt g rivals) s = .next t ∧
      Enters (s.elapse dt) t g { cause := 0x10, faddr := at36, handler := w, vector := 64, pc := b.pc }
    let canFault : Prop := b.entry = none ∧ iouWriting b = false ∧ FrameAdmitted s g
    let alu (unit : TrigUnit) (port : ResultPort) (o : Word) : Prop := ∀ op, Triggers s g i unit op v →
      (let r := aluOut op (val o) (val v) b.flags.c
       ∀ k, op ≠ 0x1F → (tag o, tag v, k) ∈ pairs op → isBool o → isBool v →
        IssuesTo s dt g rivals next fun y => ∃ z, tag z = k ∧ val z = r.v ∧ y.u = u ∧
          y.flights = [{ port := port, due := b.count + 1, value := if op = 0x18 ∨ op = 0x19 then none else some z
                         flags := if aluSetsFlags op then some (r.v == 0, r.v.msb, r.c, r.ovf) else none }]) ∧
      (op = 0x1F → IssuesTo s dt g rivals next fun y => ∃ z, tag z = tag o ∧ val z = val v ∧ y.u = u ∧
        y.flights = [{ port := port, due := b.count + 1, value := some z }]) ∧
      (isNull op o → IssuesTo s dt g rivals next fun y => y.u = u ∧
        y.flights = [{ port := port, due := b.count + 1, value := none
                       flags := some (tag o == 14 && tag v == 14, false, false, false) }]) ∧
      (op ≠ 0x1F → ¬ isNull op o → ((∀ k, (tag o, tag v, k) ∉ pairs op) ∨ ¬ isBool o ∨ ¬ isBool v) → canFault → faults)
    Available s → NextInsn s g i → NoInterrupts s g → pswT b.psw = true → pswV b.psw = false →
    (∀ m k, movesOf i = [m] → m.src = .imm k → ∀ unit op, Triggers s g i unit op v → tag v = 0 ∧ val v = k.signExtend 32) ∧
    alu .alu0 .alu0 u.alu0o ∧ alu .alu1 .alu1 u.alu1o ∧
    (∀ op, Triggers s g i .mul op v →
      let k := op % 2
      let p : BitVec 64 := if k = 0 then BitVec.ofInt 64 ((val u.mulo).toInt * (val v).toInt)
        else BitVec.ofNat 64 ((val u.mulo).toNat * (val v).toNat)
      (tag u.mulo = k → tag v = k → IssuesTo s dt g rivals next fun y => ∃ z, tag z = k ∧
        val z = fld p (if op < 2 then 0 else 32) 32 ∧ y.u = u ∧
        y.flights = [{ port := .mul, due := b.count + 3, value := some z }]) ∧
      (¬ (tag u.mulo = k ∧ tag v = k) → canFault → faults)) ∧
    (∀ op, Triggers s g i .vmul op v ∨ Triggers s g i .vchk op v ∨ Triggers s g i .sig op v → canFault → faults) ∧
    (∀ op, Triggers s g i .lsu op v → canFault →
      (lsuMode op = 0 ∨ lsuMode op = 3) → ¬ (tag u.lsua = 5 ∨ tag u.lsua = 0 ∨ tag u.lsua = 1) → faults) ∧
    (∀ op, Triggers s g i .lsu op v → canFault → lsuStore op = true →
      (if lsuSize op < 4 then ¬ (tag u.lsud = 0 ∨ tag u.lsud = 1)
        else (8 ≤ tag u.lsud ∧ tag u.lsud ≤ 13) ∨ (lsuSize op = 8 ∧ 8 ≤ tag v ∧ tag v ≤ 13)) → faults) ∧
    (∀ op, Triggers s g i .lsu op v → lsuStore op = false → lsuMode op = 0 →
      let n := lsuSize op
      let base : Word := if tag u.lsua = 5 then BitVec.ofNat 36 (4 * (val u.lsua).toNat)
        else if tag u.lsua = 0 then (val u.lsua).signExtend 36 else (val u.lsua).setWidth 36
      let a := base + (val v).signExtend 36
      let raw := x.mem.read a.toNat n
      let due := b.count + 3
      (tag u.lsua = 5 ∨ tag u.lsua = 0 ∨ tag u.lsua = 1) → n < 8 → a.toNat % n = 0 →
      accessFault x (posOf g) w (pswL b.psw) [{ addr := a.toInt, len := n }] = none → inHandover x (bankOf a.toNat) = false →
      b.stores = [] → PortsFree (s.elapse dt) (basinOf g) → (∀ r ∈ rivals, r.bank ≠ bankOf a.toNat) → (∀ k, x.mem.mark k = none) →
      IssuesTo s dt g rivals next fun y => y.u = u ∧
        (n = 4 → y.flights = [if invalid (tag (BitVec.ofNat 36 raw)) then
            { port := .lsu, due := due, value := none, fault := some 0x10, faddr := at36 }
          else { port := .lsu, due := due, value := some (BitVec.ofNat 36 raw) }]) ∧
        (n < 4 → ∃ z, y.flights = [{ port := .lsu, due := due, value := some z }] ∧ tag z = (if lsuSigned op then 0 else 1) ∧
          val z = if lsuSigned op then (if n = 1 then (BitVec.ofNat 9 raw).signExtend 32 else (BitVec.ofNat 18 raw).signExtend 32)
            else BitVec.ofNat 32 raw))

/-! ### Memories, code store, Wharf (chapters 8 and 9) -/

/-- SCRUB_ACCESS of a bank in an idle BCLK, or after 4,096 BCLK, and of a Reservoir bank likewise in XCLK (R221, R230): a row with a
correctable error, read before or met by a reader, is written back, which heals its correctable words and changes no nonet; else
the next row is read, its errors are counted, and the scrubber goes on to the row after it. TARGET_GRANT of the only request
that waits at a basin's SRAM, the Harbourmaster SRAM or a Reservoir port, considered in the present XCLK, in which its target is
free (R212, R216, R230, R233, R239, R242): a word written is the word that is read back from that address and no other nonet of
any memory changes; a word read is answered with the memory's word; an uncorrectable word of a basin or of the Reservoir refuses
the read. -/
def Obligations.MemoriesAreScrubbedAndAccessed : Prop :=
  ((∀ (s : State) (dt : Nat) (n : BasinIx) (b : BankIx) (row : Nat),
    let x := s.basins.get n
    Available s → basinRuns s n = true → x.testing = false → PortsFree (s.elapse dt) n →
    (x.scrubIdle = true ∨ (x.banks.get b).scrubLast + 4096 ≤ bclkCount (s.elapse dt) n) →
    scrubWriteback (x.banks.get b) = some row →
    ∃ t, exec (.scrubAccess dt (.basin n b) []) s = .next t ∧
      (∀ a, (t.basins.get n).mem.nonet a = x.mem.nonet a) ∧
      (∀ w, w ∈ rowWords b.val row 2048 → x.mem.mark w = some .ce → MemoriesCanonical s → (t.basins.get n).mem.mark w = none) ∧
      (∀ w, x.mem.mark w ≠ some .ce → MemoriesCanonical s → (t.basins.get n).mem.mark w = x.mem.mark w) ∧
      ((t.basins.get n).banks.get b).scrubBack ≠ some row ∧ row ∉ ((t.basins.get n).banks.get b).scrubFront ∧
      t.barges = s.barges ∧ t.rv = s.rv) ∧
  (∀ (s : State) (dt : Nat) (n : BasinIx) (b : BankIx),
    let x := s.basins.get n
    let bank := x.banks.get b
    let ws := rowWords b.val bank.scrubRow 2048
    Available s → basinRuns s n = true → x.testing = false → PortsFree (s.elapse dt) n →
    (x.scrubIdle = true ∨ bank.scrubLast + 4096 ≤ bclkCount (s.elapse dt) n) → scrubWriteback bank = none →
    ∃ t, exec (.scrubAccess dt (.basin n b) []) s = .next t ∧ (t.basins.get n).mem = x.mem ∧
      ((t.basins.get n).banks.get b).scrubBack = (if ws.any x.mem.isCe then some bank.scrubRow else none) ∧
      ((t.basins.get n).banks.get b).scrubRow = (bank.scrubRow + 1) % 2048 ∧
      (t.basins.get n).ceCnt = x.ceCnt + BitVec.ofNat 36 (ws.filter x.mem.isCe).length ∧
      (t.basins.get n).ueCnt = x.ueCnt + BitVec.ofNat 36 (ws.filter x.mem.isUe).length ∧
      OnlyRequests s t ∧ t.rv = s.rv) ∧
  (∀ (s : State) (dt : Nat) (b : BankIx) (row : Nat),
    let bank := s.rv.banks.get b
    let k := xclk (s.elapse dt)
    Available s → bank.portBAt.all (fun j => j < k) = true → (rvAsked (s.elapse dt) b k = false ∨ bank.scrubLast + 4096 ≤ k) →
    scrubWriteback bank = some row →
    ∃ t, exec (.scrubAccess dt (.reservoir b) []) s = .next t ∧ (∀ a, t.rv.mem.nonet a = s.rv.mem.nonet a) ∧
      (∀ w, w ∈ rowWords b.val row 8192 → s.rv.mem.mark w = some .ce → MemoriesCanonical s → t.rv.mem.mark w = none) ∧
      (t.rv.banks.get b).scrubBack ≠ some row ∧ row ∉ (t.rv.banks.get b).scrubFront ∧
      t.barges = s.barges ∧ t.basins = s.basins) ∧
  (∀ (s : State) (dt : Nat) (b : BankIx),
    let bank := s.rv.banks.get b
    let k := xclk (s.elapse dt)
    Available s → bank.portBAt.all (fun j => j < k) = true → (rvAsked (s.elapse dt) b k = false ∨ bank.scrubLast + 4096 ≤ k) →
    scrubWriteback bank = none →
    ∃ t, exec (.scrubAccess dt (.reservoir b) []) s = .next t ∧ t.rv.mem = s.rv.mem ∧
      (t.rv.banks.get b).scrubBack =
        (if (rowWords b.val bank.scrubRow 8192).any s.rv.mem.isCe then some bank.scrubRow else none) ∧
      (t.rv.banks.get b).scrubRow = (bank.scrubRow + 1) % 8192 ∧ t.barges = s.barges ∧ t.basins = s.basins)) ∧
  ((∀ (s : State) (dt : Nat) (r : WharfReq) (h : r.target.val < 12),
    let n : BasinIx := ⟨r.target.val, h⟩
    let x := s.basins.get n
    let a := r.tx.addr.toNat % 0x100000
    Available s → MemoriesCanonical s → s.wharf.reqs = [r] → x.tport = [] → basinRuns s n = true →
    r.tx.size = .word → r.drop = false → r.beat = 0 → r.bad = false → r.got = [] → r.refuse = false →
    r.tx.addr.toNat % 4 = 0 → a < 0xE0000 → basinAdmits s n r = true → (x.banks.get (bankOf a)).ho = none →
    r.since ≤ xclk (s.elapse dt) → s.wharf.busyTill.get r.target ≤ xclk (s.elapse dt) → PortsFree (s.elapse dt) n →
    ∃ t, exec (.targetGrant dt r.target []) s = .next t ∧ t.rv = s.rv ∧ t.hms = s.hms ∧ OnlyRequests s t ∧ t.wharf.reqs = [] ∧
      (∀ m, m ≠ n → (t.basins.get m).mem = (s.basins.get m).mem) ∧
      (∀ v, r.tx.write = true → r.tx.data = [v] →
        (t.basins.get n).mem.word (a / 4) = v ∧
        (∀ k, k / 4 ≠ a / 4 → (t.basins.get n).mem.nonet k = x.mem.nonet k) ∧
        ∃ q, t.wharf.resps = s.wharf.resps ++ [q] ∧ q.init = r.init ∧ q.id = r.tx.id ∧ q.status = .ok) ∧
      (r.tx.write = false →
        (t.basins.get n).mem = x.mem ∧
        ∃ q, t.wharf.resps = s.wharf.resps ++ [q] ∧ q.init = r.init ∧ q.id = r.tx.id ∧
          (x.mem.isUe (a / 4) = false → q.status = .ok ∧ q.data = [x.mem.word (a / 4)]) ∧
          (x.mem.isUe (a / 4) = true → q.status = .refused ∧ q.data = []))) ∧
  (∀ (s : State) (dt : Nat) (r : WharfReq),
    let w := (r.tx.addr.toNat - 0x11000000) / 4
    Available s → MemoriesCanonical s → s.wharf.reqs = [r] → r.target = 16 → r.tx.size = .word →
    r.drop = false → r.tx.addr.toNat % 4 = 0 → 0x11000000 ≤ r.tx.addr.toNat → r.tx.addr.toNat < 0x11080000 →
    r.since ≤ xclk (s.elapse dt) → s.wharf.busyTill.get 16 ≤ xclk (s.elapse dt) →
    ∃ t, exec (.targetGrant dt 16 []) s = .next t ∧ t.rv = s.rv ∧ OnlyRequests s t ∧ t.wharf.reqs = [] ∧
      (∀ n, (t.basins.get n).mem = (s.basins.get n).mem) ∧
      (∀ v, r.tx.write = true → r.tx.data = [v] →
        t.hms.word w = v ∧ (∀ a, a / 4 ≠ w → t.hms.nonet a = s.hms.nonet a) ∧
        ∃ q, t.wharf.resps = s.wharf.resps ++ [q] ∧ q.init = r.init ∧ q.id = r.tx.id ∧ q.status = .ok) ∧
      (r.tx.write = false →
        t.hms = s.hms ∧
        ∃ q, t.wharf.resps = s.wharf.resps ++ [q] ∧ q.init = r.init ∧ q.id = r.tx.id ∧ q.status = .ok ∧
          q.data = [s.hms.word w])) ∧
  (∀ (s : State) (dt : Nat) (r : WharfReq),
    let w := (r.tx.addr.toNat - 0x10000000) / 4
    Available s → MemoriesCanonical s → s.wharf.reqs = [r] → 12 ≤ r.target.val → r.target.val < 16 → r.tx.size = .word →
    r.drop = false → r.tx.addr.toNat % 4 = 0 → 0x10000000 ≤ r.tx.addr.toNat → r.tx.addr.toNat < 0x10400000 →
    r.since ≤ xclk (s.elapse dt) → s.wharf.busyTill.get r.target ≤ xclk (s.elapse dt) →
    rvTaken s r (xclk (s.elapse dt)) = false →
    ∃ t, exec (.targetGrant dt r.target []) s = .next t ∧ t.hms = s.hms ∧ OnlyRequests s t ∧ t.wharf.reqs = [] ∧
      (∀ n, (t.basins.get n).mem = (s.basins.get n).mem) ∧
      (∀ v, r.tx.write = true → r.tx.data = [v] →
        t.rv.mem.word w = v ∧ (∀ a, a / 4 ≠ w → t.rv.mem.nonet a = s.rv.mem.nonet a) ∧
        ∃ q, t.wharf.resps = s.wharf.resps ++ [q] ∧ q.init = r.init ∧ q.id = r.tx.id ∧ q.status = .ok) ∧
      (r.tx.write = false →
        t.rv.mem = s.rv.mem ∧
        ∃ q, t.wharf.resps = s.wharf.resps ++ [q] ∧ q.init = r.init ∧ q.id = r.tx.id ∧
          (s.rv.mem.isUe w = false → q.status = .ok ∧ q.data = [s.rv.mem.word w]) ∧
          (s.rv.mem.isUe w = true → q.status = .refused ∧ q.data = []))))

/-- REGISTER_WRITE of a register without a row of its own (R6, R7, R102, R248): a barge's BC_GATECNT keeps bits [8:0] of the value,
the Wharf's interrupt enables are bits 0 and 1 of the value, written through the bridge when the bridge is free; nothing else of
a barge but interrupt requests, and none of the Wharf's counts of errors changes. WHARF_ACCEPT at an initiator port with fewer
than 32 outstanding (R237, R241, R243): a transaction whose address decodes waits at its target from the next XCLK on, the
tender's next one of a basin, else the one presented; one that does not decode is answered with a decode error, counted while
CNTEN = 1, and recorded with its address unless the XCLK already has a record. TARGET_RESPONSE brings a barge's response to its
XLU, DEBUG's to the JTAG access register, and frees the initiator's place (R242). WHARF_CNTCLR clears the counters of R248 and
no other register; a grant of the same XCLK counts after it. -/
def Obligations.WharfAnswersAndRegistersKeepFields : Prop :=
  ((∀ (s : State) (dt : Nat) (g : BargeIx) (v : Word),
    Available s → pswL (s.barges.get g).psw = true → pswW (s.barges.get g).psw = true →
    ∃ t, exec (.registerWrite dt (.window g 8) v) s = .next t ∧
      t.barges.get g = { s.barges.get g with gateCnt := v.setWidth 9, intc := (t.barges.get g).intc } ∧
      (∀ k, k ≠ g → t.barges.get k = { s.barges.get k with intc := (t.barges.get k).intc }) ∧ SameMemory s t) ∧
  (∀ (s : State) (dt : Nat) (v : Word),
    Available s → (∀ r ∈ s.wharf.reqs, r.seq ≠ s.wharf.seq ∧ r.target ≠ 17) → s.wharf.cur.get 12 < 32 →
    s.wharf.busyTill.get 17 ≤ xclk (s.elapse dt) → (s.wharf.directAt.get 12).all (fun k => k ≤ xclk (s.elapse dt)) = true →
    (∀ n, (s.basins.get n).hoAcks = []) →
    ∃ t, exec (.registerWrite dt (.per false 0x2000000C) v) s = .next t ∧
      t.wharf.enDecerr = bit v 0 ∧ t.wharf.enRefuse = bit v 1 ∧ t.wharf.decCnt = s.wharf.decCnt ∧
      t.wharf.refCnt = s.wharf.refCnt ∧ t.wharf.qos = s.wharf.qos ∧ OnlyRequests s t ∧ SameMemory s t)) ∧
  ((∀ (s : State) (dt : Nat) (init : Fin 16) (t : Tx) (g : Fin 20),
    Available s → 12 ≤ init.val → s.wharf.cur.get init < 32 → decodeTx s init t = .inr g →
    ∃ u, exec (.wharfAccept dt init t) s = .next u ∧ u = { s.elapse dt with wharf := u.wharf } ∧
      u.wharf.reqs = s.wharf.reqs ++
        [{ init := init, target := g, tx := t, qos := qosOf (s.elapse dt) init t.world
           since := xclk (s.elapse dt) + 1, seq := s.wharf.seq, irq := intenReg (s.elapse dt)
           win := s.ferry.win.get (pcioWindow t.addr.toNat) }] ∧
      u.wharf.cur.get init = s.wharf.cur.get init + 1 ∧ u.wharf.resps = s.wharf.resps) ∧
  (∀ (s : State) (dt : Nat) (init : Fin 16) (t : Tx) (h : init.val < 12) (p : Fin 4) (o : XluOp) (g : Fin 20),
    let n : BasinIx := ⟨init.val, h⟩
    Available s → s.wharf.cur.get init < 32 → tenderPick (s.elapse dt) n = some (p, o) →
    (s.basins.get n).tenderAt ≠ some (xclk (s.elapse dt)) → decodeTx s init (tenderTx p o) = .inr g →
    ∃ u, exec (.wharfAccept dt init t) s = .next u ∧
      u.wharf.reqs = s.wharf.reqs ++
        [{ init := init, target := g, tx := tenderTx p o, qos := qosOf (s.elapse dt) init o.world
           since := xclk (s.elapse dt) + 1, seq := s.wharf.seq, load := o.load, irq := intenReg (s.elapse dt)
           win := s.ferry.win.get (pcioWindow o.addr.toNat) }] ∧
      (u.basins.get n).tender = dropFirst (fun q => q.1 == p) (s.basins.get n).tender ∧ (u.basins.get n).tenderRr = p ∧
      u.wharf.cur.get init = s.wharf.cur.get init + 1 ∧ u.wharf.resps = s.wharf.resps ∧ u.barges = s.barges ∧
      SameMemory s u) ∧
  (∀ (s : State) (dt : Nat) (init : Fin 16) (t : Tx) (reason : Nat),
    Available s → 12 ≤ init.val → s.wharf.cur.get init < 32 → decodeTx s init t = .inl reason →
    ∃ u, exec (.wharfAccept dt init t) s = .next u ∧ u.wharf.reqs = s.wharf.reqs ∧
      (∃ r, u.wharf.resps = s.wharf.resps ++ [r] ∧ r.init = init ∧ r.id = t.id ∧ r.status = .decerr ∧ r.data = []) ∧
      u.wharf.decCnt = (if s.wharf.cnten then s.wharf.decCnt + 1 else s.wharf.decCnt) ∧ u.wharf.intDecerr = true ∧
      (s.wharf.decAt ≠ some (xclk (s.elapse dt)) → u.wharf.decAddr = t.addr) ∧
      u.barges = s.barges ∧ SameMemory s u) ∧
  (∀ (s : State) (dt : Nat) (init : Fin 16) (id : BitVec 5) (r : WharfResp) (h : init.val < 12),
    Available s → s.wharf.resps.find? (fun x => x.init == init && x.id == id) = some r →
    let g := bargeOf ⟨init.val, h⟩ ⟨id.toNat % 4, Nat.mod_lt _ (by decide)⟩
    ∃ u, exec (.targetResponse dt init id) s = .next u ∧
      u.barges.get g = { s.barges.get g with xluResps := (s.barges.get g).xluResps ++
        [{ write := r.write, load := r.load, data := r.data.headD 0, ok := r.status == .ok }] } ∧
      (∀ k, k ≠ g → u.barges.get k = s.barges.get k) ∧ u.wharf.cur.get init = s.wharf.cur.get init - 1 ∧
      u.wharf.resps = dropFirst (fun x => x.init == init && x.id == id) s.wharf.resps ∧ SameMemory s u) ∧
  (∀ (s : State) (dt : Nat) (init : Fin 16) (id : BitVec 5) (r : WharfResp),
    Available s → 12 ≤ init.val → s.wharf.resps.find? (fun x => x.init == init && x.id == id) = some r →
    (init = 15 → s.sec.dbgWait = none) →
    (init = 14 → ∀ k, (s.tl.link.get k).mtxTxs = [] ∧ ∀ f ∈ (s.tl.link.get k).mrxFrames, f.txs = []) →
    ∃ u, exec (.targetResponse dt init id) s = .next u ∧ u.barges = s.barges ∧
      u.wharf.cur.get init = s.wharf.cur.get init - 1 ∧
      u.wharf.resps = dropFirst (fun x => x.init == init && x.id == id) s.wharf.resps ∧
      (init = 15 → u.sec.jtagStatus.toNat = (if r.status = .ok then 0 else if r.status = .decerr then 1 else 2) ∧
        u.sec.jtagData = if r.write then s.sec.jtagData else r.data.headD 0) ∧
      (init ≠ 15 → u.sec = s.sec) ∧ SameMemory s u) ∧
  (∀ (s : State) (dt : Nat) (id : BitVec 5) (r : WharfResp) (t : Tx) (g : Fin 20),
    Available s → s.wharf.resps.find? (fun x => x.init == 15 && x.id == id) = some r → s.sec.dbgWait = some t →
    s.wharf.cur.get 15 = 32 → decodeTx s 15 t = .inr g →
    ∃ u, exec (.targetResponse dt 15 id) s = .next u ∧ u.barges = s.barges ∧ u.sec = { s.sec with dbgWait := none } ∧
      u.wharf.cur.get 15 = 32 ∧ u.wharf.resps = dropFirst (fun x => x.init == 15 && x.id == id) s.wharf.resps ∧
      (∃ q, u.wharf.reqs = s.wharf.reqs ++ [q] ∧ q.tx = t ∧ q.init = 15 ∧ q.target = g ∧ q.since = xclk (s.elapse dt) + 1) ∧
      SameMemory s u) ∧
  (∀ (s : State) (dt : Nat), Available s →
    ∃ u, exec (.wharfCntclr dt) s = .next u ∧ u = { s.elapse dt with wharf := u.wharf } ∧
      ((∀ e ∈ s.wharf.recent, e.1 ≠ xclk (s.elapse dt)) →
        (∀ g, u.wharf.tgrant.get g = 0 ∧ u.wharf.twait.get g = 0 ∧ u.wharf.tmaxw.get g = 0) ∧
        ∀ i, u.wharf.istall.get i = 0 ∧ u.wharf.maxOut.get i = 0) ∧
      (∀ g w, s.wharf.recent = [(xclk (s.elapse dt), .grant g w)] →
        u.wharf.tgrant.get g = 1 ∧ u.wharf.twait.get g = BitVec.ofNat 36 w) ∧
      u.wharf.cur = s.wharf.cur ∧
      u.wharf.decCnt = s.wharf.decCnt ∧ u.wharf.refCnt = s.wharf.refCnt ∧ u.wharf.qos = s.wharf.qos ∧
      u.wharf.reqs = s.wharf.reqs ∧ u.wharf.resps = s.wharf.resps))

/-- The nonet order of every memory (R2): after a write of n nonets of a value from address a, the nonet k above a holds bits
[9k+8:9k] of it, reading the n nonets gives the value modulo 512^n, and every other nonet reads as before. -/
def Obligations.MemoryReadsWhatWasWritten : Prop :=
  ∀ (m : Mem) (a n v : Nat), m.wf = true →
    (m.write (nonetsOf a v n)).wf = true ∧ (m.write (nonetsOf a v n)).read a n = v % 512 ^ n ∧
      (∀ k, k < n → (m.write (nonetsOf a v n)).nonet (a + k) = BitVec.ofNat 9 (v / 512 ^ k)) ∧
      ∀ b, b < a ∨ a + n ≤ b → (m.write (nonetsOf a v n)).nonet b = m.nonet b

/-! ### The Keeper (chapter 7) -/

/-- KEEPER_CYCLE_START (R181, R182, R187): where KT mod PERIOD = PHASE a cycle of an active task starts, in its turn within the KCLK
and among the tasks; its barge is sent KP_DATE and the task, KP_DATE counts on, the freeze of the snapshot goes to every input
block, and generation (D, 0) is the current one. SEAL_ARRIVAL (R164, R184, R186, R187, R196, R198), in its turn within the KCLK:
the seal at the front of the link is taken; for the open current cycle of the task on that barge the checks run in R184's order
and the decision is due 4 KCLK after the arrival; otherwise the seal is logged as unexpected and counts as a fault event, unless
the stopped task still had a seal to come; a disagreement of the judging datapaths enters SAFE; a seal that fails its CRC, or
arrives in STARTING or SAFE, changes nothing else. -/
def Obligations.CyclesStartAndSealsAreJudged : Prop :=
  (∀ (s : State) (dt : Nat) (t : Fin 256) (b : BargeIx),
    let k := (s.elapse dt).kp
    let x := s.kp.tasks.get t
    Available s → KeeperLive s → x.tstate = 1 → x.onbarge.toNat = b.val → x.period ≠ 0 → k.kt.toNat % x.period = x.phase →
    x.notBefore.all (ktReached k.kt) = true → x.lastStart ≠ some k.kt → firstStart (s.elapse dt) t = true →
    inOrder (s.elapse dt) 4 = true →
    ∃ u, exec (.keeperCycleStart dt t) s = .next u ∧ u.kp.date = s.kp.date + 1 ∧
      u.kp.toBarge = s.kp.toBarge ++ [(b, .date s.kp.date (BitVec.ofNat 8 t.val))] ∧
      (u.kp.tasks.get t).date = s.kp.date ∧
      (u.kp.tasks.get t).cycles.getLast? = some { start := k.kt, date := s.kp.date, barge := b } ∧
      u.weir.freezes = s.weir.freezes ++ [BitVec.ofNat 8 t.val] ∧ u.fio.freezes = s.fio.freezes ++ [BitVec.ofNat 8 t.val] ∧
      u.tl.freezes = s.tl.freezes ++ [BitVec.ofNat 8 t.val] ∧ (∀ j, j ≠ t → u.kp.tasks.get j = s.kp.tasks.get j) ∧
      u.kp.groups = s.kp.groups ∧ u.kp.mode = s.kp.mode ∧ u.kp.log = s.kp.log ∧ u.pwm = s.pwm ∧ u.barges = s.barges ∧
      SameMemory s u) ∧
  (∀ (s : State) (dt : Nat) (g : BargeIx) (v : BitVec 61) (task : BitVec 8) (n : BitVec 16) (rest : List SealMsg),
    let k := (s.elapse dt).kp
    let x := s.kp.tasks.get task.toFin
    Available s → s.kp.links.get g = .seal v task n :: rest → inOrder (s.elapse dt) 1 = true →
    (∀ c, KeeperLive s → x.tstate = 1 → x.onbarge.toNat = g.val → x.cycles.getLast? = some c → c.judged = none →
      c.retryAt = none →
      let a := (k.kt - c.start).toNat
      let d : BitVec 4 :=
        if a < x.early then 5 else if x.late ≤ a then 6 else if n.toNat ≠ x.n then 4
        else if v.toNat ≠ (c.date.toNat * x.m + x.c) % (2 ^ 61 - 1) then 3 else 0
      ∃ u, exec (.sealArrival dt g true false) s = .next u ∧ u.kp.links.get g = rest ∧
        (u.kp.tasks.get task.toFin).cycles = x.cycles.dropLast ++ [{ c with judged := some (d, k.kt + 4) }] ∧
        (u.kp.tasks.get task.toFin).rpend = false ∧ u.kp.log = s.kp.log ∧ u.kp.bf = s.kp.bf ∧ u.kp.groups = s.kp.groups ∧
        (∀ j, j ≠ task.toFin → u.kp.tasks.get j = s.kp.tasks.get j) ∧ u.pwm = s.pwm ∧ u.barges = s.barges) ∧
    (KeeperLive s → (x.tstate ≠ 1 ∨ x.onbarge.toNat ≠ g.val ∨ (x.cycles.getLast?.all fun c => !c.takes) = true) →
      x.stale = none →
      ∃ u, exec (.sealArrival dt g true false) s = .next u ∧ u.kp.links.get g = rest ∧
        Logged s u k.kt 3 0 task g.val [] ∧
        (u.kp.bf.get g).total = (s.kp.bf.get g).total + 1 ∧ (∀ h, h ≠ g → u.kp.bf.get h = s.kp.bf.get h) ∧
        u.kp.groups = s.kp.groups ∧ u.pwm = s.pwm ∧ u.fio = s.fio ∧ u.barges = s.barges) ∧
    (∀ o m, KeeperLive s → x.tstate = 0 → x.stale = some (o, m + 1) → o.toNat = g.val →
      ∃ u, exec (.sealArrival dt g true false) s = .next u ∧ u.kp.links.get g = rest ∧
        Logged s u k.kt 3 0 task g.val [] ∧ u.kp.bf = s.kp.bf ∧
        u.kp.tasks.get task.toFin = { x with stale := some (o, m) } ∧ u.kp.groups = s.kp.groups ∧ u.barges = s.barges) ∧
    (KeeperLive s → ∃ u, exec (.sealArrival dt g true true) s = .next u ∧ InSafe u 0x09 ∧ u.kp.links.get g = rest ∧
      u.barges = s.barges) ∧
    (∀ dis, ∃ u, exec (.sealArrival dt g false dis) s = .next u ∧
      u.kp = { k with links := vmod s.kp.links g fun _ => rest, stageAt := k.kt, stage := 1 } ∧ u.barges = s.barges ∧
      u.pwm = s.pwm) ∧
    (∀ crc dis, s.kp.mode = .starting ∨ s.kp.mode = .safe → ∃ u, exec (.sealArrival dt g crc dis) s = .next u ∧
      u.kp = { k with links := vmod s.kp.links g fun _ => rest, stageAt := k.kt, stage := 1 } ∧ u.barges = s.barges ∧
      u.pwm = s.pwm))

/-- DECISION, RETRY_REQUEST, LOCK_GATE_OPEN (R183, R184, R187, R188, R189, R193, R195), each in its turn within the KCLK: a match is recorded
and, in RUNNING and DEGRADED, its opening is due one KCLK later, where every group of the task then goes live and the blocks are
told the generation; in ARMED the staged values are cleared instead; a cycle with K fault events in its window retires its barge; a
failure that may be retried sends the notice and opens the retry's generation, whose request leaves one KCLK later. -/
def Obligations.DecisionsOpenGatesOrRetry : Prop :=
  ∀ (s : State) (dt : Nat) (t : Fin 256) (c : Cycle),
    let k := (s.elapse dt).kp
    let x := s.kp.tasks.get t
    Available s →
    (∀ due, inOrder (s.elapse dt) 1 = true → KeeperCommits s → x.tstate = 1 → x.openAt = none → x.cycles.head? = some c →
      c.judged = some (0, due) → ktReached k.kt due = true → (c.event = false ∨ evtCount s c.barge < keeperK s) →
      ∃ u, exec (.decision dt t) s = .next u ∧ (u.kp.tasks.get t).last = (if c.att then 2 else 1) ∧
        (u.kp.tasks.get t).failrun = 0 ∧ (u.kp.tasks.get t).openAt = some (k.kt + 1, c.date, c.att) ∧
        (u.kp.tasks.get t).cycles = x.cycles.filter (fun y => y.start != c.start) ∧ u.kp.log = s.kp.log ∧
        u.kp.groups = s.kp.groups ∧ u.kp.toBarge = s.kp.toBarge ∧ u.pwm = s.pwm ∧ u.fio = s.fio ∧ u.barges = s.barges) ∧
    (∀ due, inOrder (s.elapse dt) 1 = true → s.kp.powered = true → s.kp.mode = .armed → x.tstate = 1 →
      x.cycles.head? = some c → c.judged = some (0, due) → ktReached k.kt due = true → (c.event = false ∨ evtCount s c.barge < keeperK s) →
      ∃ u, exec (.decision dt t) s = .next u ∧ (u.kp.tasks.get t).last = (if c.att then 2 else 1) ∧
        (u.kp.tasks.get t).failrun = 0 ∧ (u.kp.tasks.get t).openAt = x.openAt ∧
        (u.kp.tasks.get t).cycles = x.cycles.filter (fun y => y.start != c.start) ∧ u.kp.log = s.kp.log ∧
        u.kp.groups = s.kp.groups ∧ u.pwm = ((ownGroups (s.elapse dt) t).foldl (clearStaged none) (s.elapse dt)).pwm ∧
        u.fio = ((ownGroups (s.elapse dt) t).foldl (clearStaged none) (s.elapse dt)).fio ∧ u.barges = s.barges) ∧
    (∀ due, inOrder (s.elapse dt) 1 = true → KeeperLive s → x.tstate = 1 → x.cycles.head? = some c →
      c.judged = some (0, due) → ktReached k.kt due = true → c.event = true → keeperK s ≤ evtCount s c.barge →
      ∃ u, exec (.decision dt t) s = .next u ∧ (u.kp.tasks.get t).last = (if c.att then 2 else 1) ∧
        bit u.kp.retired c.barge.val = true) ∧
    (∀ code due, inOrder (s.elapse dt) 1 = true → KeeperLive s → x.tstate = 1 → x.retry = true → x.cycles.head? = some c →
      c.judged = some (code, due) → ktReached k.kt due = true → (code = 3 ∨ code = 4 ∨ code = 5) → c.retried = false →
      (due - c.start).toNat + x.rtime ≤ x.late →
      ∃ u, exec (.decision dt t) s = .next u ∧ (u.kp.tasks.get t).retries = x.retries + 1 ∧
        (u.kp.tasks.get t).fails = x.fails ∧ (u.kp.tasks.get t).last = x.last ∧
        (∃ y, (u.kp.tasks.get t).cycles.head? = some y ∧ y.date = c.date ∧ y.start = c.start ∧ y.att = true ∧
          y.judged = none ∧ y.retryAt = some (due + 1)) ∧
        u.kp.toBarge = s.kp.toBarge ++ [(c.barge, .notice)] ∧
        Logged s u k.kt 1 code.toNat (BitVec.ofNat 8 t.val) c.barge.val [] ∧
        (u.kp.bf.get c.barge).total = (s.kp.bf.get c.barge).total + 1 ∧ u.kp.groups = s.kp.groups ∧
        u.kp.retired = s.kp.retired ∧ u.barges = s.barges) ∧
    (∀ due, inOrder (s.elapse dt) 3 = true → KeeperLive s → x.tstate = 1 → x.cycles.getLast? = some c → c.retryAt = some due →
      ktReached k.kt due = true →
      ∃ u, exec (.retryRequest dt t) s = .next u ∧
        u.kp.toBarge = s.kp.toBarge ++ [(c.barge, .retry c.date (BitVec.ofNat 8 t.val))] ∧
        (u.kp.tasks.get t).rpend = true ∧ (u.kp.tasks.get t).cycles = x.cycles.dropLast ++ [{ c with retryAt := none }] ∧
        u.kp.groups = s.kp.groups ∧ u.barges = s.barges) ∧
    (∀ due d a, KeeperCommits s → x.openAt = some (due, d, a) → ktReached k.kt due = true →
      ∃ u, exec (.lockGateOpen dt t) s = .next u ∧ (u.kp.tasks.get t).openAt = none ∧
        (∀ r ∈ x.groups, (s.kp.groups.get r).owner = some (BitVec.ofNat 8 t.val) →
          (u.kp.groups.get r).gstate = 1 ∧ GateMsg.opening (BitVec.ofNat 6 r.val) d a (s.now + dt) ∈ u.pwm.gates ∧
          GateMsg.opening (BitVec.ofNat 6 r.val) d a (s.now + dt) ∈ u.fio.gates) ∧
        (∀ r, r ∉ x.groups ∨ (s.kp.groups.get r).owner ≠ some (BitVec.ofNat 8 t.val) →
          u.kp.groups.get r = s.kp.groups.get r) ∧ u.pwm.ch = s.pwm.ch ∧ u.barges = s.barges ∧ SameMemory s u)

/-- DECISION of a failure that is not retried, and WINDOW_CLOSE of a cycle without a judged seal, each in its turn within the KCLK
(R183, R185, R187, R189, R190): the cycle ends with its code, LATE at the window's close; the barge is retired and its task
moves to the standby or fails; in RUNNING the Keeper leaves for DEGRADED, or for SAFE where a failed task has FAILACT. A task
that a standby takes over keeps its groups, which hold their values until FAILRUN reaches HOLD and then go to the safe level
(R191). The triggers of SAFE that are commands of the Keeper's own (R173, R198 to R201), each from any state but SAFE: the cause
is recorded and what R199 lists holds; barges are not halted. A self-test that passes, a monitor window inside ±6 % and a
half-period that reads back right enter no SAFE. -/
def Obligations.FailuresRetireOrEnterSafe : Prop :=
  (∀ (s : State) (dt : Nat) (t : Fin 256) (c : Cycle),
    let k := (s.elapse dt).kp
    let x := s.kp.tasks.get t
    Available s → KeeperLive s → x.tstate = 1 → x.onbarge.toNat = c.barge.val → bit s.kp.retired c.barge.val = false →
    (∀ code due, x.cycles.head? = some c → c.judged = some (code, due) → ktReached k.kt due = true → 3 ≤ code.toNat →
      (x.retry = false ∨ code.toNat = 6 ∨ c.retried = true ∨ x.late < (due - c.start).toNat + x.rtime) →
      code.toNat ≤ 6 → inOrder (s.elapse dt) 1 = true →
      ∃ u, exec (.decision dt t) s = .next u ∧ EndsFailed s u k.kt t c code ∧ u.kp.mode ≠ .running) ∧
    (x.cycles.getLast? = some c → c.judged = none → x.late ≤ (k.kt - c.start).toNat → inOrder (s.elapse dt) 2 = true →
      ∃ u, exec (.windowClose dt t) s = .next u ∧ EndsFailed s u k.kt t c 6 ∧ u.kp.mode ≠ .running) ∧
    (x.cycles.getLast? = some c → c.judged = none → x.late ≤ (k.kt - c.start).toNat → x.stbyen = true →
      bit s.kp.retired x.stby = false → x.stby ≠ c.barge.val → inOrder (s.elapse dt) 2 = true →
      (∀ j, j ≠ t → (s.kp.tasks.get j).tstate ≠ 1 ∨ (s.kp.tasks.get j).onbarge.toNat ≠ c.barge.val) →
      ∃ u, exec (.windowClose dt t) s = .next u ∧
        ∀ r ∈ x.groups, (s.kp.groups.get r).owner = some (BitVec.ofNat 8 t.val) →
          (u.kp.groups.get r).owner = some (BitVec.ofNat 8 t.val) ∧
          (u.kp.groups.get r).gstate =
            (if x.hold ≤ (u.kp.tasks.get t).failrun.toNat then 0
             else if (s.kp.groups.get r).gstate = 1 then 2 else (s.kp.groups.get r).gstate))) ∧
  (∀ (s : State) (dt : Nat),
    let k := (s.elapse dt).kp
    Available s → s.kp.powered = true → s.kp.mode ≠ .safe →
    (∀ n, n < 940 ∨ 1060 < n → ∃ u, exec (.kclkMonitorWindow dt n) s = .next u ∧ InSafe u 0x01 ∧ u.barges = s.barges) ∧
    (∃ u, exec (.noCrystalEdge dt) s = .next u ∧ InSafe u 0x01 ∧ u.barges = s.barges ∧ SameMemory s u) ∧
    (∃ u, exec (.keeperSelfTest dt false) s = .next u ∧ InSafe u 0x04 ∧ u.barges = s.barges) ∧
    (∀ arg, inOrder (s.elapse dt) 5 = true → ∃ u, exec (.forceSafe dt arg (sameCmd 6 arg)) s = .next u ∧ InSafe u 0x08 ∧ u.kp.cmdOp = 6 ∧ u.kp.cmdResult = 0 ∧
      u.barges = s.barges) ∧
    (∀ due a b, KeeperCommits s → s.kp.toggleAt = some due → ktReached k.kt due = true → (a ≠ s.kp.safeA ∨ b ≠ s.kp.safeB) →
      ∃ u, exec (.safeHalfPeriod dt a b) s = .next u ∧ InSafe u 0x06 ∧ u.barges = s.barges) ∧
    (∀ due, KeeperCommits s → s.kp.toggleAt = some due → ktReached k.kt due = true →
      ∃ u, exec (.safeHalfPeriod dt s.kp.safeA s.kp.safeB) s = .next u ∧ u.barges = s.barges ∧
        u.kp = { k with safeA := !s.kp.safeA, safeB := s.kp.safeA, toggleAt := some (due + 10000) }) ∧
    (∃ u, exec (.keeperSelfTest dt true) s = .next u ∧ u.kp = { k with stok := true } ∧ u.barges = s.barges) ∧
    (∀ n, 940 ≤ n → n ≤ 1060 → ∃ u, exec (.kclkMonitorWindow dt n) s = .next u ∧ u.kp = k ∧ u.barges = s.barges))

/-- FAULT_REPORT_ARRIVAL, RESET_REPORT_ARRIVAL, CHANNEL_RETIREMENT_REPORT (R123, R164, R177, R189, R190, R197): a fault report is logged and
is one fault event; a reset report is logged and retires a barge that is not retired yet; a report of a retired channel is logged;
the last two end RUNNING. A message that fails its CRC changes nothing else. That reports are taken in every state of the powered
Keeper, and the fields of their entries that are 0, are the model's reading (log entry 32). -/
def Obligations.ReportsReachTheKeeper : Prop :=
  (∀ (s : State) (dt : Nat) (g : BargeIx) (cause : BitVec 8) (pc : BitVec 14) (task : BitVec 8) (rest : List SealMsg),
    let k := (s.elapse dt).kp
    Available s → s.kp.powered = true → s.kp.links.get g = .fault cause pc task :: rest →
    (∃ u, exec (.faultReportArrival dt g true) s = .next u ∧ u.kp.links.get g = rest ∧
      Logged s u k.kt 2 (cause.toNat % 16) task g.val [] ∧ (u.kp.bf.get g).total = (s.kp.bf.get g).total + 1 ∧
      (∀ h, h ≠ g → u.kp.bf.get h = s.kp.bf.get h ∧ u.kp.links.get h = s.kp.links.get h) ∧ u.kp.mode = s.kp.mode ∧
      u.kp.retired = s.kp.retired ∧ u.kp.groups = s.kp.groups ∧ u.barges = s.barges ∧ SameMemory s u) ∧
    ∃ u, exec (.faultReportArrival dt g false) s = .next u ∧ u.kp = { k with links := vmod s.kp.links g fun _ => rest } ∧
      u.barges = s.barges) ∧
  (∀ (s : State) (dt : Nat) (g : BargeIx) (info : Word) (rest : List SealMsg),
    let k := (s.elapse dt).kp
    Available s → s.kp.powered = true → s.kp.links.get g = .reset info :: rest →
    (bit s.kp.retired g.val = false →
      ∃ u, exec (.resetReportArrival dt g true) s = .next u ∧ u.kp.links.get g = rest ∧
        Logged s u k.kt 7 (bitsN info 0 4) 0 g.val (u.kp.log.drop (s.kp.log.length + 1)) ∧
        u.kp.retired = s.kp.retired ||| BitVec.ofNat 48 (2 ^ g.val) ∧ u.kp.mode ≠ .running ∧
        (∀ t, let x := s.kp.tasks.get t
          x.tstate = 1 → x.onbarge.toNat = g.val →
          if x.stbyen = true ∧ bit s.kp.retired x.stby = false ∧ x.stby ≠ g.val then
            (u.kp.tasks.get t).tstate = 1 ∧ (u.kp.tasks.get t).onbarge.toNat = x.stby
          else (u.kp.tasks.get t).tstate = 2) ∧
        (∀ t, let x := s.kp.tasks.get t
          (x.tstate ≠ 1 ∨ x.onbarge.toNat ≠ g.val) →
          (u.kp.tasks.get t).tstate = x.tstate ∧ (u.kp.tasks.get t).onbarge = x.onbarge)) ∧
    (bit s.kp.retired g.val = true →
      ∃ u, exec (.resetReportArrival dt g true) s = .next u ∧ u.kp.links.get g = rest ∧
        Logged s u k.kt 7 (bitsN info 0 4) 0 g.val [] ∧ u.kp.retired = s.kp.retired ∧
        u.kp.mode = (if s.kp.mode = .running then .degraded else s.kp.mode) ∧ u.kp.tasks = s.kp.tasks) ∧
    ∃ u, exec (.resetReportArrival dt g false) s = .next u ∧ u.kp = { k with links := vmod s.kp.links g fun _ => rest } ∧
      u.barges = s.barges) ∧
  (∀ (s : State) (dt : Nat) (r : RetReport) (rest : List RetReport),
    let k := (s.elapse dt).kp
    Available s → s.kp.powered = true → s.kp.reports = r :: rest →
    ∃ u, exec (.channelRetirementReport dt) s = .next u ∧ u.kp.reports = rest ∧
      Logged s u k.kt 5 0 (BitVec.ofNat 8 r.index) 0 [] ∧
      u.kp.mode = (if s.kp.mode = .running then .degraded else s.kp.mode) ∧ u.kp.tasks = s.kp.tasks ∧
      u.kp.groups = s.kp.groups ∧ u.barges = s.barges ∧ SameMemory s u)

/-- The commands of KP_CMD that both processors present alike, in their turn within the KCLK (R175, R177, R178, R180, R187, R196,
R205): each in a state its row names, with its further conditions met, has its effect and RESULT OK; in SAFE every one but
CLEAR_FC is refused with BADSTATE, and an unlisted OP with BADARG, and changes nothing else. The load port, in its turn within
the KCLK (R6, R175, R178, R179, R181, R187, R203): a write that HM0 and HM1 do not present alike, in address or data, sets LERR
and does nothing else; KP_DSEED sets KP_DATE in STARTING, KP_CFG its fields in STARTING and ARMED, and a task entry's word its
fields while the task is not active, each else refused with LERR, as is a write of an unlisted word; a 1 to KP_STAT.LERR clears
it; a read of KP_LOG takes its oldest entry, and finds none in the KCLK of the only entries it holds. -/
def Obligations.KeeperCommandsAndLoadPortAct : Prop :=
  (∀ (s : State) (dt : Nat),
    let k := (s.elapse dt).kp
    let k5 : Keeper := { k with stageAt := k.kt, stage := 5 }
    let done (op : BitVec 4) (u : State) := u.kp.cmdOp = op ∧ u.kp.cmdResult = 0 ∧ QuietBarges s u ∧ SameMemory s u
    Available s → s.kp.powered = true → inOrder (s.elapse dt) 5 = true →
    (∀ arg, s.kp.mode = .starting → s.kp.stok = true → s.crp.pins.ktest = false → s.kp.testHold = false →
      ∃ u, exec (.arm dt arg (sameCmd 1 arg)) s = .next u ∧ done 1 u ∧
        u.kp = { k5 with mode := .armed, safecause := 0, cmdOp := 1, cmdResult := 0 }) ∧
    (∀ arg, s.kp.mode = .armed → s.kp.comm = false → (∃ t, (s.kp.tasks.get t).tstate = 1) →
      (∀ t, (s.kp.tasks.get t).tstate = 1 → (s.kp.tasks.get t).last = 1 ∨ (s.kp.tasks.get t).last = 2) →
      ∃ u, exec (.run dt arg (sameCmd 2 arg)) s = .next u ∧ done 2 u ∧ u.kp.mode = .running ∧ u.kp.safeB = !u.kp.safeA ∧
        u.kp.toggleAt = some (k.kt + 10000) ∧ u.kp.tasks = s.kp.tasks ∧ u.kp.groups = s.kp.groups) ∧
    (∀ arg : BitVec 8, let x := s.kp.tasks.get arg.toFin
      KeeperLive s → x.tstate ≠ 1 → x.barge ≤ 47 → x.stby ≤ 47 → (x.stbyen = true → x.stby / 4 = x.barge / 4 ∧ x.stby ≠ x.barge) →
      bit s.kp.retired x.barge = false → 10000 ≤ x.period → x.period ≤ 10000000 → x.phase < x.period → x.early < x.late →
      x.late ≤ x.period → x.rtime ≤ x.late → x.n ≠ 0 → x.m = 2 ^ (13 * x.n % 61) → x.c < 2 ^ 61 - 1 →
      (∀ r ∈ x.groups, (s.kp.groups.get r).owner = none ∨ (s.kp.groups.get r).owner = some arg) →
      ∃ u, exec (.startTask dt arg (sameCmd 3 arg)) s = .next u ∧ done 3 u ∧ (u.kp.tasks.get arg.toFin).tstate = 1 ∧
        (u.kp.tasks.get arg.toFin).onbarge.toNat = x.barge ∧ (u.kp.tasks.get arg.toFin).cycles = [] ∧
        (∀ r ∈ x.groups, u.kp.groups.get r = { owner := some arg, gstate := 0 }) ∧
        (∀ r, r ∉ x.groups → u.kp.groups.get r = s.kp.groups.get r) ∧
        (∀ j, j ≠ arg.toFin → u.kp.tasks.get j = s.kp.tasks.get j) ∧ u.kp.date = s.kp.date) ∧
    (∀ arg : BitVec 8, KeeperLive s → (s.kp.tasks.get arg.toFin).tstate = 1 →
      ∃ u, exec (.startTask dt arg (sameCmd 3 arg)) s = .next u ∧ u.kp = { k5 with cmdOp := 3, cmdResult := 1 } ∧
        u.barges = s.barges) ∧
    (∀ arg : BitVec 8, let x := s.kp.tasks.get arg.toFin
      KeeperLive s → x.tstate ≠ 0 →
      ∃ u, exec (.stopTask dt arg (sameCmd 4 arg)) s = .next u ∧ done 4 u ∧ (u.kp.tasks.get arg.toFin).tstate = 0 ∧
        (u.kp.tasks.get arg.toFin).cycles = [] ∧ (u.kp.tasks.get arg.toFin).rpend = false ∧
        (u.kp.tasks.get arg.toFin).stale = some (x.onbarge, min 5 x.outstanding) ∧
        (∀ r ∈ x.groups, (s.kp.groups.get r).owner = some arg →
          u.kp.groups.get r = { owner := none, gstate := 0 } ∧ GateMsg.safe (BitVec.ofNat 6 r.val) ∈ u.pwm.gates) ∧
        (∀ r, r ∉ x.groups ∨ (s.kp.groups.get r).owner ≠ some arg → u.kp.groups.get r = s.kp.groups.get r) ∧
        (∀ j, j ≠ arg.toFin → u.kp.tasks.get j = s.kp.tasks.get j)) ∧
    (∀ (arg : BitVec 8) (b : BargeIx), arg.toNat = b.val → KeeperLive s → bit s.kp.retired b.val = false →
      ∃ u, exec (.retireBarge dt arg (sameCmd 5 arg)) s = .next u ∧ u.kp.cmdOp = 5 ∧ u.kp.cmdResult = 0 ∧
        u.kp.retired = s.kp.retired ||| BitVec.ofNat 48 (2 ^ b.val) ∧ u.kp.mode ≠ .running ∧ bit u.crp.bhold b.val = true) ∧
    (∀ (arg : BitVec 8) (b : BargeIx), arg.toNat = b.val →
      ∃ u, exec (.clearFc dt arg (sameCmd 7 arg)) s = .next u ∧ done 7 u ∧ evtCount u b = 0 ∧
        (u.kp.bf.get b).total = (s.kp.bf.get b).total ∧
        (∀ h, h ≠ b → u.kp.bf.get h = s.kp.bf.get h) ∧ u.kp.mode = s.kp.mode ∧ u.kp.tasks = s.kp.tasks) ∧
    (∀ (arg : BitVec 8) (b : BargeIx), arg.toNat = b.val → KeeperLive s →
      (∀ t, (s.kp.tasks.get t).tstate = 1 → (s.kp.tasks.get t).onbarge.toNat ≠ b.val) →
      ∃ u, exec (.restoreBarge dt arg (sameCmd 8 arg)) s = .next u ∧ done 8 u ∧ bit u.kp.retired b.val = false ∧
        (∀ j, j ≠ b.val → bit u.kp.retired j = bit s.kp.retired j) ∧ u.kp.mode = s.kp.mode ∧ u.kp.tasks = s.kp.tasks) ∧
    (∀ arg, s.kp.mode = .degraded → s.kp.retired = 0 → (∀ t, (s.kp.tasks.get t).tstate ≠ 2) →
      ∃ u, exec (.clearDegraded dt arg (sameCmd 9 arg)) s = .next u ∧ done 9 u ∧
        u.kp = { k5 with mode := .running, safecause := 0, cmdOp := 9, cmdResult := 0 }) ∧
    (∀ (arg : BitVec 8), s.kp.mode = .safe →
      ∀ p ∈ ([(1, .arm dt arg (sameCmd 1 arg)), (2, .run dt arg (sameCmd 2 arg)), (3, .startTask dt arg (sameCmd 3 arg)),
        (4, .stopTask dt arg (sameCmd 4 arg)), (5, .retireBarge dt arg (sameCmd 5 arg)), (6, .forceSafe dt arg (sameCmd 6 arg)),
        (8, .restoreBarge dt arg (sameCmd 8 arg)), (9, .clearDegraded dt arg (sameCmd 9 arg))] : List (BitVec 4 × Instr)),
        ∃ u, exec p.2 s = .next u ∧ u.kp = { k5 with cmdOp := p.1, cmdResult := 1 } ∧ u.barges = s.barges) ∧
    (∀ v : Word, bitsN v 0 4 = 0 ∨ 10 ≤ bitsN v 0 4 →
      ∃ u, exec (.registerWrite dt (.port 2 (alike 2 v)) v) s = .next u ∧ u.kp.cmdOp = fld v 0 4 ∧ u.kp.cmdResult = 2 ∧
        u.kp.mode = s.kp.mode ∧ u.kp.tasks = s.kp.tasks ∧ u.kp.groups = s.kp.groups ∧ OnlyRequests s u ∧ SameMemory s u)) ∧
  (∀ (s : State) (dt : Nat) (v : Word) (t : Fin 256) (w : Fin 16),
    let k := (s.elapse dt).kp
    let k5 : Keeper := { k with stageAt := k.kt, stage := 5 }
    let lerr : Keeper := { k5 with lerr := true }
    let e := 0x1000 + 16 * t.val + w.val
    Available s → s.kp.powered = true → inOrder (s.elapse dt) 5 = true →
    (∀ hm1 : LoadWrite,
      (hm1 ≠ alike 5 v → ∃ u, exec (.kpDseedWrite dt v hm1) s = .next u ∧ u.kp = lerr ∧ u.barges = s.barges) ∧
      (hm1 ≠ alike 4 v → ∃ u, exec (.kpCfgWrite dt v hm1) s = .next u ∧ u.kp = lerr ∧ u.barges = s.barges) ∧
      (hm1 ≠ alike e v → ∃ u, exec (.taskEntryWrite dt t w v hm1) s = .next u ∧ u.kp = lerr ∧ u.barges = s.barges)) ∧
    (∃ u, exec (.kpDseedWrite dt v (alike 5 v)) s = .next u ∧ u.barges = s.barges ∧ SameMemory s u ∧
      u.kp = if s.kp.mode = .starting then { k5 with date := fld v 0 32 } else lerr) ∧
    (∃ u, exec (.kpCfgWrite dt v (alike 4 v)) s = .next u ∧ u.barges = s.barges ∧ SameMemory s u ∧
      u.kp = if s.kp.mode = .starting ∨ s.kp.mode = .armed then { k5 with k := fld v 0 4, w := fld v 4 16, comm := bit v 20 } else lerr) ∧
    ((s.kp.tasks.get t).tstate = 1 → w.val < 13 →
      ∃ u, exec (.taskEntryWrite dt t w v (alike e v)) s = .next u ∧ u.kp = lerr ∧ u.barges = s.barges) ∧
    (∀ j : Fin 13, j.val = w.val → (s.kp.tasks.get t).tstate ≠ 1 →
      let width := ([19, 24, 24, 24, 24, 24, 36, 25, 36, 25, 16, 32, 32] : List Nat).getD j.val 0
      ∃ u, exec (.taskEntryWrite dt t w v (alike e v)) s = .next u ∧
        (∀ i, i < 36 → bit ((u.kp.tasks.get t).words.get j) i = (bit v i && decide (i < width))) ∧
        (∀ i, i ≠ j → (u.kp.tasks.get t).words.get i = (s.kp.tasks.get t).words.get i) ∧
        (∀ i, i ≠ t → u.kp.tasks.get i = s.kp.tasks.get i) ∧ u.kp.lerr = s.kp.lerr ∧ u.kp.groups = s.kp.groups ∧
        u.barges = s.barges ∧ SameMemory s u) ∧
    (∃ u, exec (.registerWrite dt (.port 9 (alike 9 v)) v) s = .next u ∧ u.kp.lerr = true ∧ u.kp.tasks = s.kp.tasks ∧
      u.kp.mode = s.kp.mode ∧ OnlyRequests s u) ∧
    ((∀ x ∈ s.events, x.reg ≠ .kpStat) →
      ∃ u, exec (.registerWrite dt (.port 1 (alike 1 v)) v) s = .next u ∧ u.kp.lerr = (s.kp.lerr && !bit v 4) ∧
        u.kp.tasks = s.kp.tasks ∧ u.kp.mode = s.kp.mode ∧ OnlyRequests s u) ∧
    (kclkOver (s.elapse dt) s.kp.logNew.1 = true →
      keeperRead (s.elapse dt) 0x200 = s.kp.log.headD 0 ∧
      exec (.kpLogRead dt) s = .next { s.elapse dt with kp := { k with log := s.kp.log.tail } }) ∧
    (kclkOver (s.elapse dt) s.kp.logNew.1 = false → s.kp.log.length ≤ s.kp.logNew.2 →
      keeperRead (s.elapse dt) 0x200 = 0 ∧ exec (.kpLogRead dt) s = .next (s.elapse dt)))

/-! ### Outputs (chapters 11 and 12) -/

/-- HRPWM_STG_WRITE, FO_STG_WRITE, TL_STG_WRITE (R190, R192, R280, R284, R308, R330): through the window of a barge that owns the
resource, a vital register takes the value with its generation tag and a later write replaces both; every write from a retired barge is
ignored; PER reaches no vital register, and a retired channel or an odd partner takes nothing. An ordinary channel's value becomes
pending, or the applied one where the output is enabled, or RANGE; a slot of an ordinary link enters its image. That an ordinary write to
a disabled field output is ignored is the model's reading (log entry 45). -/
def Obligations.StagedValuesCarryTheirGeneration : Prop :=
  ∀ (s : State) (dt : Nat) (v : Word) (g : BargeIx) (w : Bool) (d : BitVec 32) (a : Bool) (src : StgWriter), Available s →
    (src = .window g w d a ∨ src = .bridge) →
    let heard := src = .bridge ∨ bit s.kp.retired g.val = false
    (∀ n : Fin 192, let c := s.pwm.ch.get n
      let admits := src = .bridge ∨ pwmAdmits s g w n = true
      (c.st = 2 ∨ isPartner s n = true ∨ ¬ heard → exec (.hrpwmStgWrite dt n src v) s = .next (s.elapse dt)) ∧
      (c.st ≠ 2 → isPartner s n = false → admits → heard →
        (c.vital = true → src ≠ .bridge →
          exec (.hrpwmStgWrite dt n src v) s =
            .next ((s.elapse dt).modPwm n fun c => { c with stg := some { value := v, date := d, att := a } })) ∧
        (c.vital = true → src = .bridge →
          ∃ t, exec (.hrpwmStgWrite dt n src v) s = .next t ∧
            Noted ((s.elapse dt).modPwm n fun c => { c with cfgerr := true }) t) ∧
        (c.vital = false →
          let x : BitVec 24 := v.setWidth 24
          (validX (s.pwm.tb.get c.tb) c x.toInt = true →
            exec (.hrpwmStgWrite dt n src v) s =
              .next ((s.elapse dt).modPwm n fun c => { c with pend := some (x, s.now + dt + 480) })) ∧
          (validX (s.pwm.tb.get c.tb) c x.toInt = false →
            ∃ t, exec (.hrpwmStgWrite dt n src v) s = .next t ∧
              Noted ((s.elapse dt).modPwm n fun c => { c with range := true }) t)))) ∧
    (∀ n : Fin 128, let c := s.fio.fo.get n
      let admits := src = .bridge ∨ foAdmits s g w n = true
      (c.st = 2 ∨ ¬ heard → exec (.foStgWrite dt n src v) s = .next (s.elapse dt)) ∧
      (c.st ≠ 2 → admits → heard →
        (c.vital = true → src ≠ .bridge →
          exec (.foStgWrite dt n src v) s =
            .next ((s.elapse dt).modFo n fun c => { c with stg := some { value := v, date := d, att := a } })) ∧
        (c.vital = true → src = .bridge →
          ∃ t, exec (.foStgWrite dt n src v) s = .next t ∧ Noted ((s.elapse dt).modFo n fun c => { c with cfgerr := true }) t) ∧
        (c.vital = false → v ≠ 0 → v ≠ 1 →
          ∃ t, exec (.foStgWrite dt n src v) s = .next t ∧ Noted ((s.elapse dt).modFo n fun c => { c with range := true }) t) ∧
        (c.vital = false → c.en = false → v = 0 ∨ v = 1 → exec (.foStgWrite dt n src v) s = .next (s.elapse dt)) ∧
        (c.vital = false → c.en = true → v = 0 ∨ v = 1 →
          ∃ t, exec (.foStgWrite dt n src v) s = .next t ∧ (t.fio.fo.get n).appl = some (v == 1) ∧
            (t.fio.fo.get n).st = 1 ∧ (∀ k, k ≠ n → t.fio.fo.get k = s.fio.fo.get k) ∧ t.fio.fi = s.fio.fi ∧
            t.kp = (s.elapse dt).kp ∧ t.pwm = s.pwm ∧ t.barges = s.barges))) ∧
    (∀ (n : Fin 16) (j : Fin 64), let l := s.tl.link.get n
      let admits := src = .bridge ∨ tlAdmits s g w n = true
      (l.outlen ≤ j.val ∨ ¬ heard → exec (.tlStgWrite dt n j src v) s = .next (s.elapse dt)) ∧
      (j.val < l.outlen → admits → heard →
        (l.vital = true → src ≠ .bridge →
          exec (.tlStgWrite dt n j src v) s = .next ((s.elapse dt).modLink n fun l =>
            { l with stg := vput l.stg j (some { value := v, date := d, att := a }) })) ∧
        (l.vital = true → src = .bridge → exec (.tlStgWrite dt n j src v) s = .next (s.elapse dt)) ∧
        (l.vital = false →
          exec (.tlStgWrite dt n j src v) s = .next ((s.elapse dt).modLink n fun l =>
            { l with image := vput l.image j v, outDue := l.outDue || l.otrig }))))

/-- HRPWM_COMMIT, FO_COMMIT, TL_COMMIT (R193, R195, R281, R309, R330, R332): of the enabled vital channels of the group that are not
retired, one staged in the opened generation takes its value once it decodes with its residue, is valid and the two decoders
agree, else it retires with its value-check cause; one staged in another generation, or not at all, is only released from the
safe level to the value committed since its enable, if it has one, from the boundary at which a value would apply (log entry 44); every
staged value of theirs is cleared; other channels are as they were. A link takes its slots so, all or none, and sends SAFE no longer.
With no opening on its way, and in the KCLK of the opening (R187), nothing happens. -/
def Obligations.CommitsApplyTheirGeneration : Prop :=
  (∀ (s : State) (dt : Nat) (r : BitVec 6) (d : BitVec 32) (a : Bool) (since : Nat) (rest : List GateMsg) (dis : List (Fin 192)),
    Available s →
    (s.pwm.gates = [] → exec (.hrpwmCommit dt dis) s = .next (s.elapse dt)) ∧
    (s.pwm.gates = .opening r d a since :: rest → (s.now + dt) / 120 ≤ since / 120 →
      exec (.hrpwmCommit dt dis) s = .next (s.elapse dt)) ∧
    (s.pwm.gates = .opening r d a since :: rest → since / 120 < (s.now + dt) / 120 →
    ∃ t, exec (.hrpwmCommit dt dis) s = .next t ∧ t.pwm.gates = rest ∧ t.fio = s.fio ∧ SameMemory s t ∧ OnlyRequests s t ∧
      ∀ n, let c := s.pwm.ch.get n
        let y := t.pwm.ch.get n
        let released := { c with
          stg := none
          relAt := if c.st = 0 ∧ c.fresh = false ∧ c.appl.isSome = true ∧ c.pend = none then some (since + 480) else c.relAt }
        let retires := SameChannel { c with stg := none, pend := none, relAt := none, st := 2, rcause := 1 } y ∧
          { kind := 4, index := n.val } ∈ t.kp.reports
        if c.en = true ∧ c.vital = true ∧ c.group = r ∧ c.st ≠ 2 ∧ isPartner s n = false then
          match c.stg with
          | none => SameChannel released y
          | some x =>
            if x.date = d ∧ x.att = a then
              match decodeCoded x.value c.residue with
              | .ok v =>
                if validX (s.pwm.tb.get c.tb) c v = true ∧ n ∉ dis then
                  SameChannel { c with stg := none, pend := some (BitVec.ofInt 24 v, since + 480), relAt := none } y
                else retires
              | _ => retires
            else SameChannel released y
        else SameChannel c y)) ∧
  (∀ (s : State) (dt : Nat) (r : BitVec 6) (d : BitVec 32) (a : Bool) (since : Nat) (rest : List GateMsg) (dis : List (Fin 128)),
    Available s →
    (s.fio.gates = [] → exec (.foCommit dt dis) s = .next (s.elapse dt)) ∧
    (s.fio.gates = .opening r d a since :: rest → (s.now + dt) / 120 ≤ since / 120 →
      exec (.foCommit dt dis) s = .next (s.elapse dt)) ∧
    (s.fio.gates = .opening r d a since :: rest → since / 120 < (s.now + dt) / 120 →
    ∃ t, exec (.foCommit dt dis) s = .next t ∧ t.fio.gates = rest ∧ t.pwm = s.pwm ∧ t.fio.fi = s.fio.fi ∧ SameMemory s t ∧
      t.barges = s.barges ∧
      ∀ n, let c := s.fio.fo.get n
        let y := t.fio.fo.get n
        let live (x : Bool) := y = { c with
          stg := none, appl := some x, st := 1, fresh := false, pulse := if x then c.pulse else none, driveAt := y.driveAt }
        let released := match c.appl with
          | some x => if c.st = 0 ∧ c.fresh = false then live x else y = { c with stg := none }
          | none => y = { c with stg := none }
        let retires := y = { c with stg := none, st := 2, rcause := 1, pulse := none, driveAt := y.driveAt } ∧
          { kind := 6, index := n.val } ∈ t.kp.reports
        if c.en = true ∧ c.vital = true ∧ c.group = r ∧ c.st ≠ 2 then
          match c.stg with
          | none => released
          | some x =>
            if x.date = d ∧ x.att = a then
              match decodeCoded x.value c.residue with
              | .ok v => if (v = 0 ∨ v = 1) ∧ n ∉ dis then live (v == 1) else retires
              | _ => retires
            else released
        else y = c)) ∧
  (∀ (s : State) (dt : Nat) (n : Fin 16) (dis : Bool) (r : BitVec 6) (d : BitVec 32) (a : Bool) (since : Nat) (rest : List GateMsg),
    let l := s.tl.link.get n
    let hit (j : Fin 64) : Bool := (l.stg.get j).any fun x => x.date == d && x.att == a && decide (j.val < l.outlen)
    let coded (j : Fin 64) : Bool := match (l.stg.get j).map fun x => decodeCoded x.value ((l.obase + j.val) % 4093) with
      | some (.ok _) => true
      | _ => false
    Available s →
    (l.gates = [] → exec (.tlCommit dt n dis) s = .next (s.elapse dt)) ∧
    (l.gates = .opening r d a since :: rest → (s.now + dt) / 120 ≤ since / 120 →
      exec (.tlCommit dt n dis) s = .next (s.elapse dt)) ∧
    (l.gates = .opening r d a since :: rest → since / 120 < (s.now + dt) / 120 →
      (¬ (l.en = true ∧ l.vital = true ∧ l.group = r ∧ l.retired = false) →
        exec (.tlCommit dt n dis) s = .next ((s.elapse dt).modLink n fun l => { l with gates := rest })) ∧
      (l.en = true → l.vital = true → l.group = r → l.retired = false →
        ((∀ j, hit j = false) →
          exec (.tlCommit dt n dis) s = .next ((s.elapse dt).modLink n fun l =>
            { l with gates := rest, stg := Vector.replicate 64 none, groupSafe := false })) ∧
        ((∃ j, hit j = true) → (∀ j, hit j = true → coded j = true) → dis = false →
          ∃ t, exec (.tlCommit dt n dis) s = .next t ∧ (∀ k, k ≠ n → t.tl.link.get k = s.tl.link.get k) ∧
            t.barges = s.barges ∧
            let y := t.tl.link.get n
            y = { l with
              gates := rest, stg := y.stg, groupSafe := false, imageDate := d, outDue := l.outDue || l.otrig
              image := y.image } ∧ (∀ j, y.stg.get j = none) ∧
            ∀ j, y.image.get j = if hit j then ((l.stg.get j).map fun x => x.value).getD 0 else l.image.get j) ∧
        ((∃ j, hit j = true) → dis = true ∨ (∃ j, hit j = true ∧ coded j = false) →
          ∃ t, exec (.tlCommit dt n dis) s = .next t ∧ (∀ k, k ≠ n → t.tl.link.get k = s.tl.link.get k) ∧ OnlyRequests s t ∧
            { kind := 7, index := n.val } ∈ t.kp.reports ∧
            let y := t.tl.link.get n
            (∀ j, y.stg.get j = none) ∧ y.image = l.image ∧ y.retired = true ∧ y.rcause = 4 ∧ y.up = false ∧
              y.sendsSafe = true))))

/-- TIMEBASE_ENABLE, PERIOD_BOUNDARY, ZXMISS_EXPIRY (R273 to R275, R279, R282, R284, R286): an enable that R273 or R274 forbids, or
a disable in use, sets CFGERR; a free timebase has its boundaries every PERIOD PCLK, a following one OFS after its reference's, a
timed one from START on, a zero-cross one OFS after its event. At a boundary the burst and flash positions advance, a pending
value applies once 40 ns have passed since its gate, a released channel goes live, and a trip whose zones are quiet is
released; of a pair both channels by the even one's timebase. A zero-cross timebase without an event takes a boundary with
ZXMISS, and one whose event has come takes it without (log entry 44, as is the PCLK of the first boundary of a timed one). -/
def Obligations.TimebasesPlaceBoundaries : Prop :=
  ∀ (s : State) (dt : Nat) (m : Fin 16) (b : Nat),
    let t := s.pwm.tb.get m
    let now := (s.now + dt) / 24
    let used := (∃ n, (s.pwm.ch.get n).en = true ∧ (leadOf s n).tb = m) ∨
      ∃ k, (s.pwm.tb.get k).en = true ∧ (s.pwm.tb.get k).mode = 1 ∧ (s.pwm.tb.get k).src.toNat = m.val
    let follows := ∃ k : Fin 16, t.src.toNat = k.val ∧ (s.pwm.tb.get k).en = true ∧ (s.pwm.tb.get k).per = t.per ∧
      t.ofs.toNat < t.per.toNat ∧ chainFree s.pwm.tb m 16 k.val = true
    let due := (t.mode = 0 ∧ (t.lastB.map (· + t.per.toNat)).getD (t.since + 1) = b) ∨
      (t.mode = 1 ∧ (∃ k : Fin 16, t.src.toNat = k.val ∧ (s.pwm.tb.get k).lastB.map (· + t.ofs.toNat) = some b) ∧
        t.since < b ∧ t.lastB.all (· < b) = true) ∨
      (t.mode = 2 ∧ t.lastB.map (· + t.per.toNat) = some b) ∨
      (t.mode = 2 ∧ t.lastB = none ∧ b = now ∧ t.since < now ∧
        (s.now + dt) % 24 / 12 ≤ ((s.elapse dt).crp.stTime.setWidth 36 - t.start : Word).toNat ∧
        ((s.elapse dt).crp.stTime.setWidth 36 - t.start : Word).toNat < 34359738368) ∨
      (t.mode = 3 ∧ t.zxDue = some b)
    let first := t.lastB = none
    let wrap := max 1 t.slot.toNat ≤ t.slotcnt.toNat + 1
    let taken (u : State) : Prop := let y := u.pwm.tb.get m
      y.lastB = some b ∧ y.res = (s.pwm.res || s.crp.profile == 2) ∧
      y.bpos = (if first ∨ max 1 t.blen.toNat ≤ t.bpos.toNat + 1 then 0 else t.bpos + 1) ∧
      y.slotcnt = (if first ∨ wrap then 0 else t.slotcnt + 1) ∧
      y.patpos = (if first then 0 else if wrap then (if t.patlen.toNat ≤ t.patpos.toNat then 0 else t.patpos + 1) else t.patpos) ∧
      (∀ k, k ≠ m → u.pwm.tb.get k = s.pwm.tb.get k) ∧ SameMemory s u ∧ u.barges = s.barges ∧ u.fio = s.fio ∧
      ∀ n, let c := s.pwm.ch.get n
        let z := u.pwm.ch.get n
        ((leadOf s n).tb ≠ m → z = c) ∧
        ((leadOf s n).tb = m →
          z.stg = c.stg ∧ z.cfg = c.cfg ∧
          (∀ x at', c.pend = some (x, at') → c.st ≠ 2 → at' ≤ b * 24 →
            z.appl = some x ∧ z.st = (if c.en = true then 1 else c.st) ∧ z.pend = none) ∧
          (∀ x at', c.pend = some (x, at') → b * 24 < at' ∨ c.st = 2 → z.appl = c.appl ∧ z.pend = c.pend ∧ z.st = c.st) ∧
          (c.pend = none → c.st ≠ 2 → z.appl = c.appl ∧ z.pend = none ∧
            z.st = if c.relAt.any (· ≤ b * 24) then 1 else c.st) ∧
          (z.tripped = (c.tripped && (decide (∃ k : Fin 32, bit c.tzmask k.val = true ∧ (s.pwm.tz.get k).act = true) ||
            (c.tlatch && !c.trclr)))))
    Available s →
    (∀ e, t.en = e → exec (.timebaseEnable dt m e) s = .next (s.elapse dt)) ∧
    (t.en = false → 25 ≤ t.per.toNat → t.mode ≠ 1 ∨ follows →
      exec (.timebaseEnable dt m true) s = .next ((s.elapse dt).modTb m fun t =>
        { t with en := true, since := now, lastB := none, zxDue := none, bpos := 0, slotcnt := 0, patpos := 0 })) ∧
    (t.en = false → t.per.toNat < 25 ∨ (t.mode = 1 ∧ ¬ follows) →
      ∃ u, exec (.timebaseEnable dt m true) s = .next u ∧ Noted ((s.elapse dt).modTb m fun t => { t with cfgerr := true }) u) ∧
    (t.en = true → used →
      ∃ u, exec (.timebaseEnable dt m false) s = .next u ∧ Noted ((s.elapse dt).modTb m fun t => { t with cfgerr := true }) u) ∧
    (t.en = true → ¬ used →
      exec (.timebaseEnable dt m false) s =
        .next ((s.elapse dt).modTb m fun t => { t with en := false, lastB := none, zxDue := none })) ∧
    (t.en = true → due → b ≤ now →
      ∃ u, exec (.periodBoundary dt m) s = .next u ∧ (u.pwm.tb.get m).zxDue = none ∧ taken u) ∧
    (t.en = false ∨ (due ∧ now < b) → exec (.periodBoundary dt m) s = .next (s.elapse dt)) ∧
    (t.en = true → t.mode = 3 → t.lastB.map (· + t.per.toNat) = some b → t.zxDue.all (b < ·) = true → b ≤ now →
      ∃ u, exec (.zxmissExpiry dt m) s = .next u ∧ taken u ∧ (u.pwm.tb.get m).zxDue = t.zxDue ∧
        (u.pwm.tb.get m).zxmiss = (t.zxmiss || t.zxDue.isNone)) ∧
    (t.en = false ∨ t.mode ≠ 3 ∨ t.lastB = none → exec (.zxmissExpiry dt m) s = .next (s.elapse dt))

/-- TRIP_ZONE_CHANGE, TRIPCLR, HRPWM_READBACK_SAMPLE, HRPWM_CRST (R285, R286, R288, R290): a zone becomes active once its sources
have held for TZFILT + 1 whole PCLK and inactive with them; it trips the channels of its mask, whose staged, pending and applied
values stay. A sample RBSET PCLK after its phase's start, or 125 k PCLK later, is compared with the driven level: a
mismatch counts and at RBLIM retires the channel with RCAUSE 2; a retired channel's safe level is sampled too. A channel reset returns
it to its safe level, a vital one without its pending value. -/
def Obligations.TripsAndReadbackProtectOutputs : Prop :=
  ∀ (s : State) (dt : Nat), Available s →
    (∀ z : Fin 32, let x := s.pwm.tz.get z
      let now := (s.now + dt) / 24
      let since := x.orSince.getD now
      let filt := bitsN x.src2 20 3
      (zoneOr s x = true → x.act = false → since + filt < now →
        ∃ t, exec (.tripZoneChange dt z) s = .next t ∧ (t.pwm.tz.get z).act = true ∧ (t.pwm.tz.get z).count = x.count + 1 ∧
          (∀ n, let c := s.pwm.ch.get n
            let y := t.pwm.ch.get n
            if bit c.tzmask z.val = true ∧ c.tripped = false then
              SameChannel { c with tripped := true, trclr := false, tripcnt := c.tripcnt + 1 } y
            else SameChannel c y) ∧ t.fio = s.fio ∧ SameMemory s t ∧ OnlyRequests s t) ∧
      (zoneOr s x = true → x.act = false → now ≤ since + filt →
        exec (.tripZoneChange dt z) s = .next ((s.elapse dt).modTz z fun x => { x with orSince := some since })) ∧
      (zoneOr s x = true → x.act = true →
        exec (.tripZoneChange dt z) s = .next ((s.elapse dt).modTz z fun x => { x with orSince := some since })) ∧
      (zoneOr s x = false →
        exec (.tripZoneChange dt z) s = .next ((s.elapse dt).modTz z fun x => { x with orSince := none, act := false }))) ∧
    (∀ n : Fin 192, let c := s.pwm.ch.get n
      let quiet := ∀ z : Fin 32, bit c.tzmask z.val = true → (s.pwm.tz.get z).act = false
      (quiet → exec (.tripclr dt n .bridge) s = .next ((s.elapse dt).modPwm n fun c => { c with trclr := true })) ∧
      (¬ quiet → exec (.tripclr dt n .bridge) s = .next (s.elapse dt)) ∧
      (∀ g : BargeIx, pwmAdmits s g (pswW (s.barges.get g).psw) n = true →
        exec (.tripclr dt n (.barge g)) s = exec (.tripclr dt n .bridge) s)) ∧
    (∀ (n : Fin 192) (level driven : Bool), let c := s.pwm.ch.get n
      let k := (s.now + dt) / 24 - (phaseNow (s.elapse dt) n).2 / 64
      let sampled := c.en = true ∧ c.rben = true ∧ c.rbset ≤ k ∧ (k - c.rbset) % 125 = 0 ∧
        c.sampledAt ≠ some ((s.now + dt) / 24)
      (¬ sampled ∨ pwmDrive (s.elapse dt) n = .z → exec (.hrpwmReadbackSample dt n level) s = .next (s.elapse dt)) ∧
      (sampled → pwmDrive (s.elapse dt) n = boolDrive driven →
        ∃ t, exec (.hrpwmReadbackSample dt n level) s = .next t ∧ OnlyRequests s t ∧
          (∀ j, j ≠ n → SameChannel (s.pwm.ch.get j) (t.pwm.ch.get j)) ∧
          (let y := t.pwm.ch.get n
          let count (mine : Bool) (old : BitVec 4) := if mine then (if level = driven then 0 else old + 1) else old
          y.rbh = count driven c.rbh ∧ y.rbl = count (!driven) c.rbl ∧
            (c.rblim ≤ max y.rbh.toNat y.rbl.toNat → y.st = 2 ∧
              (c.st ≠ 2 → y.rcause = 2 ∧ y.pend = none ∧ y.stg = none ∧
                (isVital s n = true → { kind := 4, index := n.val } ∈ t.kp.reports))) ∧
            (max y.rbh.toNat y.rbl.toNat < c.rblim → y.st = c.st ∧ y.appl = c.appl ∧ y.pend = c.pend ∧ y.stg = c.stg)))) ∧
    (∀ n : Fin 192, let c := s.pwm.ch.get n
      ∃ t, exec (.hrpwmCrst dt n) s = .next t ∧ t = { s.elapse dt with pwm := { s.pwm with ch := t.pwm.ch } } ∧
        (∀ k, k ≠ n → SameChannel (s.pwm.ch.get k) (t.pwm.ch.get k)) ∧
        SameChannel { c with
          st := 0, fresh := true, joined := false, pend := if isVital s n then none else c.pend, relAt := none, rcause := 0
          tripped := c.tripped && maskActive s c, trclr := false, rbh := 0, rbl := 0 } (t.pwm.ch.get n))

/-- HRPWM_CHANNEL_ENABLE, FI_ENABLE, FO_ENABLE, RES_WRITE, CALIBRATION_LOCK (R276, R278, R279, R283, R286, R288, R292, R301, R305,
R308, R310, R318): an enable that meets its rules starts the channel at its safe level, tripped as it was; one that breaks them sets
CFGERR and changes nothing else; a disable returns an output to its safe level, and drops what is pending (log entry 44), but ends no
trip; RES is read-only in the Cool profile; CALOK follows the field PLL's lock. -/
def Obligations.EnablesMeetTheirRules : Prop :=
  ∀ (s : State) (dt : Nat), Available s →
    (∀ n : Fin 192, let c := s.pwm.ch.get n
      let foBall := ∃ i : Fin 32, n.val = 160 + i.val ∧ ((s.fw.ballOwner.get i).any fun x => x.2.2) = true
      let meets := (isPartner s n = true ∨ (1 ≤ c.mode ∧ c.mode ≤ 5 ∧ (c.vital = true → c.rben = true))) ∧ ¬ foBall
      (∀ e, c.en = e → exec (.hrpwmChannelEnable dt n e) s = .next (s.elapse dt)) ∧
      (c.en = false → meets →
        ∃ t, exec (.hrpwmChannelEnable dt n true) s = .next t ∧ OnlyRequests s t ∧
          (∀ k, k ≠ n → SameChannel (s.pwm.ch.get k) (t.pwm.ch.get k)) ∧
          SameChannel { c with
            cfg := c.cfg ||| 1, st := if c.st = 2 then 2 else 0, fresh := true, joined := false
            pend := if c.vital then none else c.pend, relAt := none } (t.pwm.ch.get n)) ∧
      (c.en = false → ¬ meets →
        ∃ t, exec (.hrpwmChannelEnable dt n true) s = .next t ∧
          Noted ((s.elapse dt).modPwm n fun c => { c with cfgerr := true }) t) ∧
      (c.en = true →
        ∃ t, exec (.hrpwmChannelEnable dt n false) s = .next t ∧ t.barges = s.barges ∧
          (∀ k, k ≠ n → SameChannel (s.pwm.ch.get k) (t.pwm.ch.get k)) ∧
          SameChannel { c with
            cfg := c.cfg &&& ~~~1, st := if c.st = 2 then 2 else 0, joined := false, pend := none, relAt := none }
            (t.pwm.ch.get n))) ∧
    (∀ n : Fin 128, let c := s.fio.fi.get n
      let meets := c.residue ≤ 4092 ∧ (c.pair = true → (s.fio.fi.get (fiOdd n)).en = true)
      let needed := n.val % 2 = 1 ∧ (s.fio.fi.get (fiEven n)).en = true ∧ (s.fio.fi.get (fiEven n)).pair = true
      (∀ e, c.en = e → ∃ t, exec (.fiEnable dt n e) s = .next t ∧ TripsFollow (s.elapse dt) t) ∧
      (c.en = false → meets →
        ∃ t, exec (.fiEnable dt n true) s = .next t ∧ (t.fio.fi.get n).cfg = c.cfg ||| 1 ∧
          (t.fio.fi.get n).raw = (c.pad != c.inv) ∧ (t.fio.fi.get n).lvl = c.lvl ∧
          TripsFollow { s.elapse dt with fio := { s.fio with fi := t.fio.fi } } t) ∧
      (c.en = false → ¬ meets →
        ∃ t, exec (.fiEnable dt n true) s = .next t ∧
          TripsFollow ((s.elapse dt).modFi n fun c => { c with cfgerr := true }) t) ∧
      (c.en = true → ¬ needed →
        ∃ t, exec (.fiEnable dt n false) s = .next t ∧ (t.fio.fi.get n).cfg = c.cfg &&& ~~~1 ∧
          (t.fio.fi.get n).cval = 0x800000000 ∧ TripsFollow { s.elapse dt with fio := { s.fio with fi := t.fio.fi } } t) ∧
      (c.en = true → needed →
        ∃ t, exec (.fiEnable dt n false) s = .next t ∧
          TripsFollow ((s.elapse dt).modFi n fun c => { c with cfgerr := true }) t)) ∧
    (∀ n : Fin 128, let c := s.fio.fo.get n
      let meets := (c.vital = true → n.val < 64 ∧ c.rben = true ∧ c.ten = true) ∧ c.residue ≤ 4092 ∧ 1 ≤ c.tint ∧ c.tint ≤ 100 ∧
        50 ≤ c.tpulse ∧ c.tpulse ≤ 500 ∧ c.tpulse * 2 ≤ c.tint * 1000
      (∀ e, c.en = e → exec (.foEnable dt n e) s = .next (s.elapse dt)) ∧
      (c.en = false → meets →
        ∃ t, exec (.foEnable dt n true) s = .next t ∧ (t.fio.fo.get n).cfg = c.cfg ||| 1 ∧
          (t.fio.fo.get n).st = (if c.st = 2 then 2 else 0) ∧ (t.fio.fo.get n).fresh = true ∧
          (t.fio.fo.get n).schedAt = s.now + dt ∧ (t.fio.fo.get n).nextTest = 0 ∧ t.fio.fi = s.fio.fi ∧ t.pwm = s.pwm ∧
          ∀ k, k ≠ n → t.fio.fo.get k = s.fio.fo.get k) ∧
      (c.en = false → ¬ meets →
        ∃ t, exec (.foEnable dt n true) s = .next t ∧ Noted ((s.elapse dt).modFo n fun c => { c with cfgerr := true }) t) ∧
      (c.en = true →
        ∃ t, exec (.foEnable dt n false) s = .next t ∧ (t.fio.fo.get n).cfg = c.cfg &&& ~~~1 ∧
          (t.fio.fo.get n).st = (if c.st = 2 then 2 else 0) ∧ (t.fio.fo.get n).pulse = none ∧ foDrive t n = .z ∧
          ∀ k, k ≠ n → t.fio.fo.get k = s.fio.fo.get k)) ∧
    (∀ v, exec (.resWrite dt v) s =
      .next (if s.crp.profile = 2 then s.elapse dt else { s.elapse dt with pwm := { s.pwm with res := v } })) ∧
    (bit s.crp.locked 5 = true → bit s.crp.clkbad 14 = false →
      ∃ t, exec (.calibrationLock dt) s = .next t ∧ t.pwm = { s.pwm with calok := true } ∧ t.barges = s.barges ∧
        t.kp = (s.elapse dt).kp) ∧
    (bit s.crp.locked 5 = false ∨ bit s.crp.clkbad 14 = true → exec (.calibrationLock dt) s = .next (s.elapse dt))

/-- FI_RAW_CHANGE, FI_ACCEPT, FI_FREEZE, PAIR_DISCREPANCY, FRET, FI_CRST (R299 to R306): the raw level's change is stamped less 4 ns;
the level is accepted, with that stamp, once it has held for DEB µs; the snapshot takes FI_CVAL as the PCLK before left it;
equal levels of a pair for DISC ms, and FRET, retire; a retired channel, which goes on accepting levels (log entry 45), reads poison
until CRST. The trip zones follow. -/
def Obligations.FieldInputsDebounceAndRetire : Prop :=
  ∀ (s : State) (dt : Nat), Available s →
    (∀ (n : Fin 128) (pad : Bool), let c := s.fio.fi.get n
      let held := c.en = true ∧ c.raw ≠ c.lvl ∧ c.rawAt + c.deb * 12000 ≤ s.now + dt
      (c.en = true → (pad != c.inv) = !c.raw →
        ∃ t, exec (.fiRawChange dt n pad) s = .next t ∧
          (let y := t.fio.fi.get n
          y.pad = pad ∧ y.raw = !c.raw ∧ y.rawAt = s.now + dt ∧ y.rawTs = ((s.elapse dt).crp.stTime - 4).setWidth 36 ∧
            (held → y.lvl = c.raw ∧ y.ts = c.rawTs ∧ y.edges = c.edges + 1) ∧
            (¬ held → y = { c with pad := pad, raw := y.raw, rawAt := y.rawAt, rawTs := y.rawTs })) ∧
          (∀ k, k ≠ n → (t.fio.fi.get k).raw = (s.fio.fi.get k).raw ∧ (t.fio.fi.get k).lvl = (s.fio.fi.get k).lvl) ∧
          t.fio.fo = s.fio.fo ∧ SameMemory s t ∧ OnlyRequests s t) ∧
      (c.en = false ∨ (pad != c.inv) = c.raw →
        ∃ t, exec (.fiRawChange dt n pad) s = .next t ∧ TripsFollow ((s.elapse dt).modFi n fun c => { c with pad := pad }) t)) ∧
    (∀ n : Fin 128, let c := s.fio.fi.get n
      let held := c.en = true ∧ c.raw ≠ c.lvl ∧ c.rawAt + c.deb * 12000 ≤ s.now + dt
      (held →
        ∃ t, exec (.fiAccept dt n) s = .next t ∧
          (let y := t.fio.fi.get n
          y.lvl = c.raw ∧ y.ts = c.rawTs ∧ y.chg = true ∧ y.edges = c.edges + 1 ∧ y.snap = c.snap ∧ y.cfg = c.cfg ∧
            (c.retired = false → y.cval = encodeCoded (if c.raw then 1 else 0) c.residue)) ∧
          t.fio.fo = s.fio.fo ∧ SameMemory s t ∧ OnlyRequests s t) ∧
      (¬ held → exec (.fiAccept dt n) s = .next (s.elapse dt))) ∧
    (∀ task : Fin 256,
      (BitVec.ofNat 8 task.val ∈ s.fio.freezes →
        ∃ t, exec (.fiFreeze dt task) s = .next t ∧ t.fio.fo = s.fio.fo ∧ t.pwm = s.pwm ∧
          ∀ n, let c := s.fio.fi.get n
            let before := match c.cvalAt with
              | some x => if x / 24 = (s.now + dt) / 24 then c.cvalOld else c.cval
              | none => c.cval
            t.fio.fi.get n = if c.frz = true ∧ c.ftask = BitVec.ofNat 8 task.val then
              { c with snap := before, snapseq := c.snapseq + 1 } else c) ∧
      (BitVec.ofNat 8 task.val ∉ s.fio.freezes → exec (.fiFreeze dt task) s = .next (s.elapse dt))) ∧
    (∀ (m : Fin 64) (n : Fin 128) (since : Nat), (n.val = 2 * m.val ∨ n.val = 2 * m.val + 1) →
      (s.fio.fi.get (fiEven n)).equalAt = some since →
      since + (s.fio.fi.get (fiEven n)).disc * 1000 * 12000 ≤ s.now + dt → (s.fio.fi.get n).retired = false →
      ∃ t, exec (.pairDiscrepancy dt m) s = .next t ∧ (t.fio.fi.get n).retired = true ∧ (t.fio.fi.get n).rcause = 1 ∧
        (t.fio.fi.get n).cval = 0x800000000 ∧ ((s.fio.fi.get n).world = true → { kind := 5, index := n.val } ∈ t.kp.reports)) ∧
    (∀ n : Fin 128, let c := s.fio.fi.get n
      (c.retired = true → ∃ t, exec (.fret dt n) s = .next t ∧ TripsFollow (s.elapse dt) t) ∧
      (c.retired = false →
        ∃ t, exec (.fret dt n) s = .next t ∧
          (let y := t.fio.fi.get n
          y = { c with retired := true, rcause := 2, cvalAt := y.cvalAt, cvalOld := y.cvalOld } ∧ y.cval = 0x800000000) ∧
          (c.world = true → { kind := 5, index := n.val } ∈ t.kp.reports) ∧
          (∀ k, k ≠ n → t.fio.fi.get k = s.fio.fi.get k))) ∧
    (∀ n : Fin 128, let c := s.fio.fi.get n
      ∃ t, exec (.fiCrst dt n) s = .next t ∧
        (let y := t.fio.fi.get n
        y = { c with retired := false, rcause := 0, cvalAt := y.cvalAt, cvalOld := y.cvalOld }) ∧
        (∀ k, k ≠ n → t.fio.fi.get k = s.fio.fi.get k) ∧
        TripsFollow { s.elapse dt with fio := { s.fio with fi := t.fio.fi } } t)

/-- FO_READBACK_SAMPLE, OFF_TEST_START, OFF_TEST_END, FO_CRST (R312 to R315): of one sample in each microsecond (log entry 86), taken RBSET µs after
a change of driven level and outside a test, one that matches clears the count and one that does not retires at RBT; an off-test
runs on a live output with x = 1 and drives its off level, counts where the sample of its last PCLK shows the off level and else
retires with RCAUSE 3; CRST clears the retirement and restarts the schedule. -/
def Obligations.FieldOutputsAreProven : Prop :=
  ∀ (s : State) (dt : Nat), Available s →
    (∀ (n : Fin 128) (level : Bool), let c := s.fio.fo.get n
      let us := (s.now + dt) / 12000
      let suspended := c.en = false ∨ c.rben = false ∨ c.st = 2 ∨ c.pulse.isSome = true ∨
        s.now + dt < c.driveAt + c.rbset * 12000 ∨ foDrive s n = .z
      (c.sampledAt = some us → exec (.foReadbackSample dt n level) s = .next (s.elapse dt)) ∧
      (c.sampledAt ≠ some us → suspended →
        exec (.foReadbackSample dt n level) s =
          .next ((s.elapse dt).modFo n fun c => { c with pad := level, sampledAt := some us })) ∧
      (c.sampledAt ≠ some us → ¬ suspended → foDrive s n = boolDrive level →
        exec (.foReadbackSample dt n level) s =
          .next ((s.elapse dt).modFo n fun c => { c with pad := level, sampledAt := some us, miss := 0 })) ∧
      (c.sampledAt ≠ some us → ¬ suspended → foDrive s n = boolDrive (!level) →
        ∃ t, exec (.foReadbackSample dt n level) s = .next t ∧ (t.fio.fo.get n).pad = level ∧
          (t.fio.fo.get n).miss = c.miss + 1 ∧
          (if c.rbt ≤ c.miss.toNat + 1 then (t.fio.fo.get n).st = 2 ∧ (t.fio.fo.get n).rcause = 2 ∧
            (c.vital = true → { kind := 6, index := n.val } ∈ t.kp.reports)
          else (t.fio.fo.get n).st = c.st) ∧ (∀ k, k ≠ n → t.fio.fo.get k = s.fio.fo.get k))) ∧
    (∀ (m : Fin 64) (n : Fin 128), n.val = m.val → let c := s.fio.fo.get n
      let comes := c.en = true ∧ c.ten = true ∧ c.pulse = none ∧
        c.schedAt + (c.tofs * 10 + c.nextTest * c.tint * 1000) * 12000 ≤ s.now + dt
      (¬ comes → exec (.offTestStart dt m) s = .next (s.elapse dt)) ∧
      (comes →
        ∃ t, exec (.offTestStart dt m) s = .next t ∧ (t.fio.fo.get n).nextTest = c.nextTest + 1 ∧
          (c.st = 1 → c.appl = some true →
            (t.fio.fo.get n).pulse = some (s.now + dt) ∧ (foBallOk s n = true → foDrive t n = boolDrive c.pol)) ∧
          (c.st ≠ 1 ∨ c.appl ≠ some true → (t.fio.fo.get n).pulse = none) ∧ (t.fio.fo.get n).appl = c.appl ∧
          (∀ k, k ≠ n → t.fio.fo.get k = s.fio.fo.get k))) ∧
    (∀ (m : Fin 64) (n : Fin 128) (level : Bool), n.val = m.val → let c := s.fio.fo.get n
      let ends := c.pulse.any fun since => since + c.tpulse * 12000 ≤ s.now + dt + 24
      (ends = false → exec (.offTestEnd dt m level) s = .next (s.elapse dt)) ∧
      (ends = true → c.st ≠ 2 →
        ∃ t, exec (.offTestEnd dt m level) s = .next t ∧ (t.fio.fo.get n).pulse = none ∧ (t.fio.fo.get n).pad = level ∧
          (if level = c.pol then (t.fio.fo.get n).tests = c.tests + 1 ∧ (t.fio.fo.get n).st = c.st
           else (t.fio.fo.get n).st = 2 ∧ (t.fio.fo.get n).rcause = 3 ∧ (t.fio.fo.get n).tests = c.tests) ∧
          (t.fio.fo.get n).appl = c.appl ∧ (∀ k, k ≠ n → t.fio.fo.get k = s.fio.fo.get k))) ∧
    (∀ n : Fin 128, let c := s.fio.fo.get n
      ∃ t, exec (.foCrst dt n) s = .next t ∧
        (let y := t.fio.fo.get n
        y = { c with
          st := if c.st = 2 then 0 else c.st, fresh := c.fresh || c.st == 2, rcause := 0, miss := 0, pulse := none
          schedAt := s.now + dt, nextTest := 0, driveAt := y.driveAt }) ∧
        (∀ k, k ≠ n → t.fio.fo.get k = s.fio.fo.get k) ∧ t.pwm = s.pwm ∧ t.kp = (s.elapse dt).kp)

/-- GROUP_SAFE_ORDER (R199, R283, R291, R310, R311, R332): an order for a group, or for all, takes its vital channels that are not
retired to SAFELVL, in the middle of a period too, with the pending value discarded; an ordinary channel is not affected; a
vital link then sends SAFE frames. The level a pad drives follows the order of R291 and R311. -/
def Obligations.SafeOrdersReachEveryOutput : Prop :=
  ∀ (s : State) (dt : Nat), Available s →
    (∀ (m : GateMsg) (rest : List GateMsg) (all : Bool) (g : BitVec 6),
      let sel (r : BitVec 6) := all = true ∨ r = g
      m = (if all then .safeAll else .safe g) →
      (s.pwm.gates = m :: rest →
        ∃ t, exec (.groupSafeOrder dt .hrpwm) s = .next t ∧ t.pwm.gates = rest ∧ t.fio = s.fio ∧ t.tl = s.tl ∧
          t.barges = s.barges ∧ ∀ n, let c := s.pwm.ch.get n
            if c.vital = true ∧ sel c.group ∧ c.st ≠ 2 then
              SameChannel { c with st := 0, pend := none, relAt := none } (t.pwm.ch.get n)
            else SameChannel c (t.pwm.ch.get n)) ∧
      (s.fio.gates = m :: rest →
        ∃ t, exec (.groupSafeOrder dt .fio) s = .next t ∧ t.fio.gates = rest ∧ t.pwm = s.pwm ∧ t.tl = s.tl ∧
          t.fio.fi = s.fio.fi ∧ t.barges = s.barges ∧ ∀ n, let c := s.fio.fo.get n
            let y := t.fio.fo.get n
            if c.vital = true ∧ sel c.group ∧ c.st ≠ 2 then y = { c with st := 0, pulse := none, driveAt := y.driveAt } else y = c) ∧
      (∀ l, let x := s.tl.link.get l
        x.gates = m :: rest →
          exec (.groupSafeOrder dt (.towline l)) s = .next ((s.elapse dt).modLink l fun x => { x with
            gates := rest, groupSafe := x.groupSafe || x.vital, safeDue := x.safeDue || x.vital }))) ∧
    (∀ n : Fin 192, let c := s.pwm.ch.get n
      let lead := leadOf s n
      (c.en = false ∨ pwmBallOk s n = false → pwmDrive s n = .z) ∧
      (c.en = true → pwmBallOk s n = true →
        let live := c.st ≠ 2 ∧ lead.st = 1 ∧ (isPartner s n = true → c.joined = true)
        (¬ live → pwmDrive s n = levelDrive c.safelvl) ∧
        (live → c.tripped = true ∨ lead.tripped = true → pwmDrive s n = levelDrive c.triplvl))) ∧
    (∀ n : Fin 128, let c := s.fio.fo.get n
      (c.en = false ∨ foBallOk s n = false → foDrive s n = .z) ∧
      (c.en = true → foBallOk s n = true →
        (c.st ≠ 1 → foDrive s n = levelDrive c.safelvl) ∧
        (c.st = 1 → c.pulse.isSome = true → foDrive s n = boolDrive c.pol) ∧
        (∀ x, c.st = 1 → c.pulse = none → c.appl = some x → foDrive s n = boolDrive (x != c.pol))))

/-! ### Weir and Towline (chapters 10 and 12) -/

/-- The sinc filter (R251): its newest output is the sum of the values within reach, weighted by the coefficients of (1 + z⁻¹ + … +
z^−(R−1))^k; bits of ±1 keep it within R^k, which a stream of ones reaches. MAIN_SAMPLE_READY, FAST_SAMPLE, DEMOD_OUTPUT (R251
to R256, R266 to R268): R bits make a main output, which after the first k − 1 is ready scaled, clamped and coded with BV, or
discarded where a bit was glitched, or the filter-fault word after an upset; a sample that reaches GLIM retires the channel;
with the demodulator enabled it is multiplied by the NCO. R_f bits make a fast sample, which the comparators take with
hysteresis; DEC main outputs make I and Q, coded with BV and BQ. A retired channel goes on delivering, and its comparators stay.
That GLIM is counted among the last GWIN samples, and that a glitch, a fault or a saturation of one main output marks the
demodulator output it enters, is the model's reading (log entry 46). -/
def Obligations.SamplesFollowTheSincFilter : Prop :=
  ((∀ (k r : Nat) (xs : List Int), 0 < r → xs.length = k * (r - 1) + 1 →
    sincSum k r xs = ((List.range (k * (r - 1) + 1)).map fun i => (sincWeight r k i : Int) * xs.getD i 0).sum) ∧
  (∀ (k r : Nat) (xs : List Int), 0 < r → k * (r - 1) + 1 ≤ xs.length → (∀ x ∈ xs, x = 1 ∨ x = -1) →
    (sincSum k r xs).natAbs ≤ r ^ k) ∧
  (∀ (k r n : Nat), 0 < r → k * (r - 1) + 1 ≤ n → sincSum k r (List.replicate n 1) = (r ^ k : Nat))) ∧
  (∀ (s : State) (dt : Nat) (n : Fin 384),
    let c := s.weir.ch.get n
    let weirOnly (t : State) := TripsFollow { s.elapse dt with weir := t.weir } t ∧ ∀ k, k ≠ n → t.weir.ch.get k = s.weir.ch.get k
    Available s →
    (weirRunning s n = false → ∀ bits fbits upset,
      (∃ t, exec (.mainSampleReady dt n bits upset) s = .next t ∧ TripsFollow (s.elapse dt) t) ∧
      (∃ t, exec (.fastSample dt n fbits) s = .next t ∧ TripsFollow (s.elapse dt) t) ∧
      ∃ t, exec (.demodOutput dt n upset) s = .next t ∧ TripsFollow (s.elapse dt) t) ∧
    (weirRunning s n = true →
    (∀ (bits : List (Bool × Bool)) (upset : Bool), bits.length = c.osr →
      let xs := (bits.map fun b => bitValue c.inv b.1).reverse ++ c.bits.map fun b => if b then (1 : Int) else -1
      let x := scaleClamp (sincSum c.order c.osr xs) c.sh
      let glitched := bits.any fun b => b.1 != b.2
      ∃ t, exec (.mainSampleReady dt n bits upset) s = .next t ∧
        (let y := t.weir.ch.get n
        y.samples = c.samples + 1 ∧ (c.samples + 1 < c.order ∨ c.dmen = true → y.ready = c.ready ∧ y.window = c.window) ∧
        (c.samples + 1 < c.order → y.dmMain = c.dmMain) ∧
        (c.order ≤ c.samples + 1 → c.dmen = true →
          y.dmMain = c.dmMain + 1 ∧ y.ui.head? = some (x.1 * ncoCos (ncoIndex c c.dmMain)) ∧
            y.uq.head? = some (x.1 * ncoSin (ncoIndex c c.dmMain)) ∧
            y.dmStamp = ((s.elapse dt).crp.stTime - 10).setWidth 32 ∧ y.dmSat = (c.dmSat || x.2) ∧
            y.dmGlitch = (c.dmGlitch || glitched) ∧ y.dmFault = (c.dmFault || upset)) ∧
        (c.order ≤ c.samples + 1 → c.dmen = false →
          (c.retired = true ∨ (¬ WindowHolds s n (glitched || upset)) → y.retired = true ∧ (y.ready.map fun ws => ws.length) = some 2 ∧
            (c.retired = false → y.rcause = 3 ∧
              (c.ownv = true → c.oworld = true → { kind := 3, index := n.val } ∈ t.kp.reports))) ∧
          (c.retired = false → WindowHolds s n (glitched || upset) → glitched = false →
            weirOnly t ∧ y.retired = false ∧ y.ff = (c.ff || upset) ∧
            y.ready = some [if upset then 0x800000001 else if c.coded then encodeCoded x.1 c.bv else BitVec.ofInt 36 x.1,
              put36 0 (((s.elapse dt).crp.stTime - 10).setWidth 32) ||| bit36 32 x.2 ||| bit36 34 upset]) ∧
          (c.retired = false → WindowHolds s n (glitched || upset) → glitched = true →
            weirOnly t ∧ y.retired = false ∧ y.ready = c.ready ∧ y.gapNext = true ∧ y.gap = true)))) ∧
    (∀ bits : List Bool, bits.length = c.fosr → c.fen = true →
      let xs := (bits.map (bitValue c.inv)).reverse ++ c.fbits.map fun b => if b then (1 : Int) else -1
      let v := max (-131072) (min 131071 (sincSum c.forder c.fosr xs / 2 ^ c.fsh))
      let past := c.fthrPast.find? fun p => decide (s.now + dt < p.2.2)
      let thr := (past.map fun p => p.1).getD c.fthr
      let hyst := (past.map fun p => p.2.1).getD c.hyst
      let hi := (fld thr 0 18).toInt
      let lo := (fld thr 18 18).toInt
      ∃ t, exec (.fastSample dt n bits) s = .next t ∧ weirOnly t ∧
        (let y := t.weir.ch.get n
        y.fsamples = c.fsamples + 1 ∧ y.ready = c.ready ∧
        (c.fsamples + 1 < c.forder ∨ c.retired = true → y.hi = c.hi ∧ y.lo = c.lo) ∧
        (c.forder ≤ c.fsamples + 1 → c.retired = false →
          y.hi = (if v ≥ hi then true else if v < hi - hyst.toNat then false else c.hi) ∧
          y.lo = (if v ≤ lo then true else if v > lo + hyst.toNat then false else c.lo)))) ∧
    (∀ upset : Bool, c.dmen = true → (c.dmOut + 1) * c.dec ≤ c.dmMain →
      let i := scaleClamp (sincSum c.dorder c.dec c.ui) c.dsh
      let q := scaleClamp (sincSum c.dorder c.dec c.uq) c.dsh
      let ff := upset || c.dmFault
      let word (x : Int) (res : Nat) : Word :=
        if ff then 0x800000001 else if c.coded then encodeCoded x res else BitVec.ofInt 36 x
      ∃ t, exec (.demodOutput dt n upset) s = .next t ∧
        (let y := t.weir.ch.get n
        y.dmOut = c.dmOut + 1 ∧ (c.dmOut + 1 < c.dorder → y.ready = c.ready) ∧
        (c.dorder ≤ c.dmOut + 1 → c.retired = false → WindowHolds s n (c.dmGlitch || ff) →
          weirOnly t ∧ (c.dmGlitch = true → y.ready = c.ready ∧ y.gapNext = true ∧ y.gap = true) ∧
          (c.dmGlitch = false → y.ready =
            some [word i.1 c.bv, word q.1 c.bq, put36 0 c.dmStamp ||| bit36 32 (i.2 || q.2 || c.dmSat) ||| bit36 34 ff, 0])) ∧
        (c.dorder ≤ c.dmOut + 1 → c.retired = true ∨ ¬ WindowHolds s n (c.dmGlitch || ff) →
          y.retired = true ∧ (y.ready.map fun ws => ws.length) = some 4)))))

/-- RECORD_ACCEPT, RECORD_WRITE, WEIR_FREEZE, HEADER_WRITE (R219, R258 to R263, R327): a ready sample enters its basin's FIFO for the live
half, or is dropped and counted; the FIFO's first record for a bank, accepted in an earlier FCLK, is written to slot NEXT of its
half and nothing else of the memory changes; a BCLK of port B that the Weir leaves free takes a row of a link's record, or its header
row; a freeze makes the other half live and empty, with the records of its own FCLK; the header row then shows NEXT, WRAP, READY and
SEQ, and is 0 after an enable. -/
def Obligations.RecordsReachTheirAreas : Prop :=
  ∀ (s : State) (dt : Nat) (n : Fin 384) (b : BasinIx),
    let c := s.weir.ch.get n
    let x := s.basins.get b
    let up := (s.crp.bpwr.get b).cur.toNat ≤ 1
    let portBFree (k : BankIx) := (x.banks.get k).portBAt ≠ some (bclkCount (s.elapse dt) b)
    let quay (bank : Bool) : BankIx := if bank then 15 else 14
    let headerShows (area : Area) (h : Bool) (m : Mem) (a : Nat) : Prop :=
      let w (k : Nat) : Word := BitVec.ofNat 36 (m.read (a + 4 * k) 4)
      (area.zero = true → w 0 = 0 ∧ w 1 = 0) ∧
        (area.zero = false →
          fld (w h.toNat) 0 8 = area.next h ∧ bit (w h.toNat) 8 = area.wrap h ∧ bit (w h.toNat) 9 = true ∧
          bit (w (!h).toNat) 9 = false ∧ bitsN (w (!h).toNat) 0 9 = 0 ∧
          fld (w 0) 10 26 = area.seq0 ∧ fld (w 1) 10 26 = area.seq1)
    Available s → MemoriesCanonical s →
    (c.basin = b.val →
    (∀ ws, c.ready = some ws → (s.weir.fifo.get b).length < 128 → up →
      ∃ t r, exec (.recordAccept dt n) s = .next t ∧ t.weir.fifo.get b = s.weir.fifo.get b ++ [r] ∧ r.src = n.val ∧
        r.half = (c.frz && c.area.half) ∧ r.time = s.now + dt ∧
        (∀ y f, ws = [y, f] → let g : Word := f ||| bit36 33 c.gapNext
          r.words = if c.retired then [0x800000000, (g &&& 0xAFFFFFFFF) ||| bit36 35 true] else [y, g]) ∧
        (∀ i q f z, ws = [i, q, f, z] → let g : Word := f ||| bit36 33 c.gapNext
          r.words = if c.retired then [0x800000000, 0x800000000, (g &&& 0xAFFFFFFFF) ||| bit36 35 true, z] else [i, q, g, z]) ∧
        t.weir.ch.get n = { c with ready := none, gapNext := false } ∧ t.weir.bdrop = s.weir.bdrop ∧
        (∀ k, k ≠ b → t.weir.fifo.get k = s.weir.fifo.get k) ∧ SameMemory s t) ∧
    (∀ ws, c.ready = some ws → 128 ≤ (s.weir.fifo.get b).length ∨ ¬ up →
      ∃ t, exec (.recordAccept dt n) s = .next t ∧ t.weir.fifo = s.weir.fifo ∧ t.weir.bdrop.get b = s.weir.bdrop.get b + 1 ∧
        t.weir.ch.get n = { c with ready := none, drops := satInc c.drops, gap := true, gapNext := true }) ∧
    (c.ready = none → exec (.recordAccept dt n) s = .next (s.elapse dt)) ∧
    (∀ pre r rest, s.weir.fifo.get b = pre ++ r :: rest →
      (∀ q ∈ pre, ∃ k : Fin 384, q.src = k.val ∧ (s.weir.ch.get k).bank ≠ c.bank) → r.src = n.val →
      r.time / 30 ≠ (s.now + dt) / 30 → up → portBFree (quay c.bank) →
      let base := 0xE0000 + 0x10000 * c.bank.toNat + 32 * c.row
      let slot := (c.area.next r.half).toNat
      let a := base + 32 + r.half.toNat * c.depth * c.recSize + slot * c.recSize
      ∃ t, exec (.recordWrite dt b c.bank) s = .next t ∧ t.weir.fifo.get b = pre ++ rest ∧
        (∀ i w, r.words[i]? = some w → (t.basins.get b).mem.read (a + 4 * i) 4 = w.toNat) ∧
        (∀ k, k < a ∨ a + 4 * r.words.length ≤ k → (t.basins.get b).mem.nonet k = x.mem.nonet k) ∧
        ((t.weir.ch.get n).area.next r.half).toNat = (slot + 1) % c.depth % 256 ∧
        (∀ k, k ≠ b → t.basins.get k = s.basins.get k) ∧ t.rv = s.rv ∧ t.tl = s.tl ∧ OnlyRequests s t) ∧
    (∀ h, c.area.header = some h → up → portBFree (quay c.bank) →
      (∀ r ∈ s.weir.fifo.get b, r.src ≠ n.val ∨ r.half ≠ h) →
      let a := 0xE0000 + 0x10000 * c.bank.toNat + 32 * c.row
      ∃ t, exec (.headerWrite dt n) s = .next t ∧
        headerShows c.area h (t.basins.get b).mem a ∧
        (∀ k, k < a ∨ a + 8 ≤ k → (t.basins.get b).mem.nonet k = x.mem.nonet k) ∧ (t.weir.ch.get n).area.header = none)) ∧
    (∀ (l : Fin 16) (r : Record) (rest : List Record), let y := s.tl.link.get l
      y.dbasin = b.val → y.fifo = r :: rest →
      weirWaits s b (quay y.dbank) = false →
      y.recRow ≠ 0 ∨ (∀ k, (s.tl.link.get k).area.header = none) →
      (∀ k, k ≠ l → (s.tl.link.get k).dbasin ≠ b.val ∨ (s.tl.link.get k).dbank ≠ y.dbank ∨ (s.tl.link.get k).fifo = []) →
      x.tport = [] → r.time / 480 ≠ (s.now + dt) / 480 → 8 * y.recRow < r.words.length → up → portBFree (quay y.dbank) →
      let slot := (y.area.next r.half).toNat
      let a := 0xE0000 + 0x10000 * y.dbank.toNat + 32 * y.drow + 32 + r.half.toNat * y.depth * y.recSize + slot * y.recSize +
        32 * y.recRow
      let row := (r.words.drop (8 * y.recRow)).take 8
      ∃ t, exec (.recordWrite dt b y.dbank) s = .next t ∧
        (∀ i w, row[i]? = some w → (t.basins.get b).mem.read (a + 4 * i) 4 = w.toNat) ∧
        (∀ k, k < a ∨ a + 4 * row.length ≤ k → (t.basins.get b).mem.nonet k = x.mem.nonet k) ∧
        (let z := t.tl.link.get l
        if 8 * (y.recRow + 1) < r.words.length then z = { y with recRow := y.recRow + 1 }
        else z.recRow = 0 ∧ z.fifo = rest ∧ (z.area.next r.half).toNat = (slot + 1) % y.depth % 256) ∧
        t.weir = s.weir ∧ OnlyRequests s t) ∧
    (∀ (l : Fin 16) (h : Bool), let y := s.tl.link.get l
      y.dbasin = b.val → y.area.header = some h → (y.area.zero = true ∨ ∀ r ∈ y.fifo, r.src ≠ l.val ∨ r.half ≠ h) →
      weirWaits s b (quay y.dbank) = false → (∀ k, (s.tl.link.get k).recRow = 0) →
      (∀ k, k ≠ l → (s.tl.link.get k).area.header = none) → x.tport = [] → up → portBFree (quay y.dbank) →
      let a := 0xE0000 + 0x10000 * y.dbank.toNat + 32 * y.drow
      ∃ t, exec (.recordWrite dt b y.dbank) s = .next t ∧ headerShows y.area h (t.basins.get b).mem a ∧
        (∀ k, k < a ∨ a + 8 ≤ k → (t.basins.get b).mem.nonet k = x.mem.nonet k) ∧ (t.tl.link.get l).area.header = none ∧
        (t.tl.link.get l).fifo = y.fifo ∧ t.weir = s.weir ∧ OnlyRequests s t) ∧
    (¬ up → ∀ bank, exec (.recordWrite dt b bank) s = .next (s.elapse dt)) ∧
    (∀ task : Fin 256,
      let mine := c.frz = true ∧ c.ftask = BitVec.ofNat 8 task.val
      (BitVec.ofNat 8 task.val ∉ s.weir.freezes → exec (.weirFreeze dt task) s = .next (s.elapse dt)) ∧
      (BitVec.ofNat 8 task.val ∈ s.weir.freezes →
      ∃ t, exec (.weirFreeze dt task) s = .next t ∧ SameMemory s t ∧ t.barges = s.barges ∧
        (t.weir.fifo.get b).length = (s.weir.fifo.get b).length ∧
        (∀ (i : Nat) (r : Record), (s.weir.fifo.get b)[i]? = some r → r.src = n.val → (t.weir.fifo.get b)[i]? =
          some (if mine ∧ r.time / 30 = (s.now + dt) / 30 then { r with half := !c.area.half } else r)) ∧
        (mine →
          let y := (t.weir.ch.get n).area
          y.half = !c.area.half ∧ y.next (!c.area.half) = 0 ∧ y.wrap (!c.area.half) = false ∧ y.seq = c.area.seq + 1 ∧
            y.header = some c.area.half ∧
            (weirRunning s n = true → y.next c.area.half = c.area.next c.area.half ∧ y.wrap c.area.half = c.area.wrap c.area.half)) ∧
        (¬ mine → t.weir.ch.get n = c)))

/-- STUCK_STREAM, CLOCK_LOSS, GRST, WEIR_GROUP_ENABLE, WEIR_CHANNEL_ENABLE, FTHR_WRITE (R249, R255, R257, R261, R264, R266 to R270): STK
equal bits and a lost clock retire, with the fast outputs as RETACT says, a report, and poison in the records of the same FCLK;
a group reset returns the group's channels to service with their configuration and halves kept; an enable within R257 and R264
starts the filters, one outside R257 sets CFGERR, and one that would break R264 is not made; new thresholds act from the second FCLK
edge on. The header row of an enable is written 0 in the enable's own BCLK where port B is free in it (log entry 46). -/
def Obligations.WeirStreamsStartAndRetire : Prop :=
  ∀ (s : State) (dt : Nat), Available s →
    (∀ (n : Fin 384) (v : Bool), let c := s.weir.ch.get n
      weirRunning s n = true → c.retired = false → 0 < c.stk →
      ∃ t, exec (.stuckStream dt n (List.replicate c.stk v)) s = .next t ∧
        t.weir.ch.get n = { c with
          retired := true, rcause := 1, hi := c.retact == 1 || c.retact == 3, lo := c.retact == 2 || c.retact == 3 } ∧
        (c.ownv = true → c.oworld = true → { kind := 3, index := n.val } ∈ t.kp.reports) ∧
        (∀ k, k ≠ n → t.weir.ch.get k = s.weir.ch.get k) ∧ OnlyRequests s t ∧ SameMemory s t ∧
        ∀ b, (t.weir.fifo.get b).length = (s.weir.fifo.get b).length ∧
          ∀ (i : Nat) (r : Record), (s.weir.fifo.get b)[i]? = some r → (t.weir.fifo.get b)[i]? =
            some (if r.src = n.val ∧ r.time / 30 = (s.now + dt) / 30 then { r with words := poisonWords r.words } else r)) ∧
    (∀ (n : Fin 384) (bits : List Bool), let c := s.weir.ch.get n
      weirRunning s n = false ∨ c.retired = true ∨ bits.length ≠ c.stk ∨ (true ∈ bits ∧ false ∈ bits) →
      ∃ t, exec (.stuckStream dt n bits) s = .next t ∧ TripsFollow (s.elapse dt) t) ∧
    (∀ g : Fin 48,
      ((s.weir.grp.get g).en = true →
      ∃ t, exec (.clockLoss dt g) s = .next t ∧ (t.weir.grp.get g).clkloss = true ∧ OnlyRequests s t ∧
        (∀ n : Fin 384, n.val / 8 = g.val → (s.weir.ch.get n).en = true → (s.weir.ch.get n).retired = false →
          (t.weir.ch.get n).retired = true ∧ (t.weir.ch.get n).rcause = 2) ∧
        (∀ n : Fin 384, n.val / 8 ≠ g.val ∨ (s.weir.ch.get n).en = false → t.weir.ch.get n = s.weir.ch.get n)) ∧
      ((s.weir.grp.get g).en = false → ∃ t, exec (.clockLoss dt g) s = .next t ∧ TripsFollow (s.elapse dt) t)) ∧
    (∀ g : Fin 48,
      ∃ t, exec (.grst dt g) s = .next t ∧ (t.weir.grp.get g).clkloss = false ∧
        (∀ n : Fin 384, n.val / 8 = g.val → let c := s.weir.ch.get n
          let y := t.weir.ch.get n
          y.retired = false ∧ y.rcause = 0 ∧ y.window = [] ∧ y.hi = false ∧ y.lo = false ∧ y.samples = 0 ∧
            y.cfg = c.cfg ∧ y.dst = c.dst ∧ y.fcfg = c.fcfg ∧ y.fthr = c.fthr ∧ y.area = c.area ∧ y.drops = c.drops) ∧
        (∀ n : Fin 384, n.val / 8 ≠ g.val → t.weir.ch.get n = s.weir.ch.get n) ∧ t.weir.fifo = s.weir.fifo) ∧
    (∀ (g : Fin 48) (en : Bool), let x := s.weir.grp.get g
      ∃ t, exec (.weirGroupEnable dt g en) s = .next t ∧
        t.weir.grp.get g = { x with
          en := en, since := if en && !x.en then s.now + dt else x.since, taken := x.taken || en } ∧
        (en = true → x.en = false → ∀ n : Fin 384, n.val / 8 = g.val →
          (t.weir.ch.get n).samples = 0 ∧ (t.weir.ch.get n).bits = [] ∧ (t.weir.ch.get n).cfg = (s.weir.ch.get n).cfg) ∧
        (en = false ∨ x.en = true → t.weir.ch = s.weir.ch) ∧ TripsFollow { s.elapse dt with weir := t.weir } t) ∧
    (∀ n : Fin 384, let c := s.weir.ch.get n
      let g := s.weir.grp.get (weirGroupOf n)
      let meets := c.bv ≤ 4092 ∧ c.bq ≤ 4092 ∧ 1 ≤ c.depth ∧ 16 ≤ g.div.toNat ∧ g.div.toNat ≤ 80 ∧ 1 ≤ g.capt.toNat ∧
        g.capt.toNat + 3 ≤ g.div.toNat ∧ 4 ≤ c.osr ∧ c.osr ≤ 1024 ∧ 4 ≤ c.fosr ∧ c.fosr ≤ 64 ∧ c.forder ≤ 3 ∧ 16 ≤ c.stk ∧
        c.stk ≤ 64 ∧ (c.dmen = true → c.dorder ≤ 3 ∧ demodLimits g.div.toNat c = true)
      (∀ e, c.en = e → ∃ t, exec (.weirChannelEnable dt n e) s = .next t ∧ TripsFollow (s.elapse dt) t) ∧
      (c.en = false → ¬ meets →
        ∃ t, exec (.weirChannelEnable dt n true) s = .next t ∧
          TripsFollow ((s.elapse dt).modWeir n fun c => { c with cfgerr := true }) t) ∧
      (c.en = false → meets → c.basin < 12 → recordsOut s n.val = true →
        ∃ t, exec (.weirChannelEnable dt n true) s = .next t ∧ TripsFollow (s.elapse dt) t) ∧
      (c.en = false → meets → recordsOut s n.val = false → ∀ b : BasinIx, c.basin = b.val →
        let quay : BankIx := if c.bank then 15 else 14
        let portB := (s.crp.bpwr.get b).cur.toNat ≤ 1 ∧ ((s.basins.get b).banks.get quay).portBAt ≠ some (bclkCount (s.elapse dt) b)
        ∃ t, exec (.weirChannelEnable dt n true) s = .next t ∧
          (let y := t.weir.ch.get n
          y.cfg = c.cfg ||| 1 ∧ y.samples = 0 ∧ y.bits = [] ∧ y.fthr = c.fthr ∧
            (c.frz = false ∨ portB → y.area = {}) ∧ (c.frz = true → ¬ portB → y.area = { header := some false, zero := true })) ∧
          (∀ k, k ≠ n → t.weir.ch.get k = s.weir.ch.get k) ∧
          (MemoriesCanonical s → c.frz = true → portB →
            (t.basins.get b).mem.read (0xE0000 + 0x10000 * c.bank.toNat + 32 * c.row) 8 = 0)) ∧
      (c.en = true →
        ∃ t, exec (.weirChannelEnable dt n false) s = .next t ∧
          TripsFollow ((s.elapse dt).modWeir n fun c =>
            { c with cfg := c.cfg &&& ~~~1, hi := c.retired && c.hi, lo := c.retired && c.lo }) t)) ∧
    (∀ (n : Fin 384) (v : Word), let c := s.weir.ch.get n
      (v ≠ c.fthr →
        exec (.fthrWrite dt n .bridge v) s = .next ((s.elapse dt).modWeir n fun c => { c with
          fthr := v
          fthrPast := (c.fthrPast.filter fun p => s.now + dt < p.2.2) ++ [(c.fthr, c.hyst, ((s.now + dt) / 30 + 2) * 30)] })) ∧
      (v = c.fthr → exec (.fthrWrite dt n .bridge v) s = .next (s.elapse dt)) ∧
      (∀ g : BargeIx, weirAdmits s g (pswW (s.barges.get g).psw) n = true →
        exec (.fthrWrite dt n (.barge g) v) s = exec (.fthrWrite dt n .bridge v) s))

/-- TL_LINK_ENABLE, RX_LOCK, CAP_RESEND, LOCK_LOSS, RXTO_EXPIRY, LRST (R319, R322, R323, R326, R331, R335): the receiver gains lock with the
64th valid character in a row and loses it with the fourth violation in 16; an enabled link that gains lock sends its CAP frame,
again every 1 ms while it is not up; a vital link that loses lock or its frames retires with RCAUSE 1 or 3, an ordinary one
starts again; an enable that breaks a rule is refused; LRST clears the retirement and the counters. The enable's refusals for OBASE,
INLEN, ACKTO, DEPTH and BASIN are the model's reading (log entry 48), and so is that a retired link that gains lock sends no CAP frame
(log entry 47). -/
def Obligations.LinksComeUpAndGoDown : Prop :=
  ∀ (s : State) (dt : Nat) (n : Fin 16),
    let l := s.tl.link.get n
    let cap : List Word := [headerUnit 1 (l.txSeq + 1) 2 false, at36 0 l.vmin ||| at36 2 l.vmax ||| at36 4 0x7240,
      at36 0 l.outlen ||| at36 7 l.inlen]
    let others (t : State) := (∀ k, k ≠ n → t.tl.link.get k = s.tl.link.get k) ∧ OnlyRequests s t
    let meets := l.vmin ≤ l.vmax ∧ (l.vital = true → 3 ≤ l.vmin) ∧ l.obase ≤ 4092 ∧ l.outlen ≤ 64 ∧ 1 ≤ l.inlen ∧ l.inlen ≤ 64 ∧
      16 ≤ l.ackto ∧ 1 ≤ l.depth ∧ l.dbasin < 12 ∧ (l.oper = 0 ∨ frameChars (2 + l.outlen + (l.vmax == 3).toNat) ≤ l.oper)
    let run (cs : List Bool) : Nat := cs.foldl (fun r v => if v then r + 1 else 0) l.rxRun
    let history (cs : List Bool) : BitVec 16 := cs.foldl (fun h v => h <<< 1 ||| if v then 0 else 1) l.rxHist
    Available s →
    (∀ e, l.en = e → exec (.tlLinkEnable dt n e) s = .next (s.elapse dt)) ∧
    (l.en = false → meets → ∀ b : BasinIx, l.dbasin = b.val →
      let quay : BankIx := if l.dbank then 15 else 14
      let up := (s.crp.bpwr.get b).cur.toNat ≤ 1
      let free := weirWaits s b quay = false ∧ (s.basins.get b).tport = [] ∧
        ((s.basins.get b).banks.get quay).portBAt ≠ some (bclkCount (s.elapse dt) b)
      ∃ t, exec (.tlLinkEnable dt n true) s = .next t ∧ (t.tl.link.get n).cfg = l.cfg ||| 1 ∧ (t.tl.link.get n).up = false ∧
        (t.tl.link.get n).lock = false ∧ (t.tl.link.get n).image = l.image ∧
        (l.frz = false → (t.tl.link.get n).area = {}) ∧
        (l.frz = true → up → free → (t.tl.link.get n).area = {} ∧ (MemoriesCanonical s →
          (t.basins.get b).mem.read (0xE0000 + 0x10000 * l.dbank.toNat + 32 * l.drow) 8 = 0)) ∧
        (l.frz = true → ¬ up → (t.tl.link.get n).area = { header := some false, zero := true }) ∧ others t) ∧
    (l.en = false → ¬ meets →
      ∃ t, exec (.tlLinkEnable dt n true) s = .next t ∧ Noted ((s.elapse dt).modLink n fun l => { l with cfgerr := true }) t) ∧
    (l.en = true →
      ∃ t, exec (.tlLinkEnable dt n false) s = .next t ∧ (t.tl.link.get n).cfg = l.cfg &&& ~~~1 ∧ (t.tl.link.get n).up = false ∧
        (t.tl.link.get n).lock = false ∧ (t.tl.link.get n).unacked = none ∧ others t) ∧
    (∀ chars : List Bool, l.en = true → l.lock = false → (∀ k, k < chars.length → run (chars.take k) < 64) →
      (chars ≠ [] → 64 ≤ run chars →
        ∃ t, exec (.rxLock dt n chars) s = .next t ∧ (t.tl.link.get n).lock = true ∧
          (l.retired = false → (t.tl.link.get n).up = false ∧ (t.tl.link.get n).sent = cap ++ [crcUnit cap] ∧
            (t.tl.link.get n).txSeq = l.txSeq + 1) ∧
          (l.retired = true → (t.tl.link.get n).sent = l.sent ∧ (t.tl.link.get n).retired = true) ∧ others t) ∧
      (run chars < 64 →
        exec (.rxLock dt n chars) s = .next ((s.elapse dt).modLink n fun l => { l with rxRun := run chars }))) ∧
    (l.en = true → l.lock = true → l.retired = false → l.up = false → l.unacked = none →
      l.capDue = true ∨ l.capAt + 1000 * 12000 ≤ s.now + dt →
      ∃ t, exec (.capResend dt n) s = .next t ∧ (t.tl.link.get n).sent = cap ++ [crcUnit cap] ∧
        (t.tl.link.get n).capAt = s.now + dt ∧ others t) ∧
    (l.en = false ∨ l.lock = false ∨ l.retired = true ∨ l.up = true →
      exec (.capResend dt n) s = .next (s.elapse dt)) ∧
    (∀ chars : List Bool, l.en = true → l.lock = true →
      (∀ k, k < chars.length → violations (history (chars.take k)) < 4) →
      (chars ≠ [] → 4 ≤ violations (history chars) →
        ∃ t, exec (.lockLoss dt n chars) s = .next t ∧ (t.tl.link.get n).lock = false ∧
          (t.tl.link.get n).retired = (l.retired || (l.up && l.vital)) ∧ (l.retired = false → (t.tl.link.get n).up = false) ∧
          (l.retired = false → l.up = true → l.vital = true → (t.tl.link.get n).rcause = 1 ∧
            { kind := 7, index := n.val } ∈ t.kp.reports) ∧ others t) ∧
      (violations (history chars) < 4 →
        ∃ t, exec (.lockLoss dt n chars) s = .next t ∧
          TripsFollow ((s.elapse dt).modLink n fun l => { l with rxHist := history chars }) t)) ∧
    (l.en = true → l.up = true → l.retired = false → l.rxto ≠ 0 → l.lastIn + l.rxto * 12000 < s.now + dt →
      (l.vital = true →
        ∃ t, exec (.rxtoExpiry dt n) s = .next t ∧ (t.tl.link.get n).retired = true ∧ (t.tl.link.get n).rcause = 3 ∧
          (t.tl.link.get n).up = false ∧ { kind := 7, index := n.val } ∈ t.kp.reports ∧ others t) ∧
      (l.vital = false → exec (.rxtoExpiry dt n) s =
        .next ((s.elapse dt).modLink n fun l => { l with gapNext := true, lastIn := s.now + dt }))) ∧
    (l.en = false ∨ l.up = false ∨ l.rxto = 0 ∨ s.now + dt ≤ l.lastIn + l.rxto * 12000 →
      exec (.rxtoExpiry dt n) s = .next (s.elapse dt)) ∧
    (∃ t, exec (.lrst dt n) s = .next t ∧
      (let y := t.tl.link.get n
      y.retired = false ∧ y.rcause = 0 ∧ y.crcerr = 0 ∧ y.retries = 0 ∧ y.drop = 0 ∧ y.rxdup = 0 ∧ y.area = {} ∧ y.up = false ∧
        y.cfg = l.cfg ∧ y.image = l.image ∧ y.groupSafe = l.groupSafe) ∧ others t)

/-- FRAME_RECEIVE (R319, R320, R322, R324, R325, R327, R329, R332): a frame that its sender aborts, or without lock, is discarded; an
invalid one is answered with NAK and counted; a data frame with the last accepted SEQ is acknowledged and discarded; the peer's
CAP frame, the own one acknowledged, selects the highest common version, or sets NOVER or LENERR; a new IN frame becomes a record
of INLEN + 3 words, poison beyond its payload, or sets LENERR; a MAINT frame that fits its ring is written there through the
Wharf, and else answered with NAK; an ACK frees the frame it names, and a NAK sends it again. A retired link answers only, and keeps the
sequence; an OUT frame from the module is acknowledged unused; a duplicate IN frame restarts RXTO; no frame fits a ring of SIZE 0: all
four are the model's reading (log entry 47). -/
def Obligations.FramesAreCheckedAndUsed : Prop :=
  ∀ (s : State) (dt : Nat) (n : Fin 16) (us : List Word),
    let l := s.tl.link.get n
    let h := us.headD 0
    let v := if l.retired then l.pver else l.ver
    let answered (ok : Bool) (x : Link) : Link := let u : Word := if ok then headerUnit 5 (hdrSeq h) 0 false else headerUnit 6 0 0 false
      { x with answer := [u, crcUnit [u]], lineFree := max (s.now + dt) l.lineFree + 13 * 480 }
    let after (f : Link → Link) : State := (s.elapse dt).modLink n f
    let others (t : State) := (∀ k, k ≠ n → t.tl.link.get k = s.tl.link.get k) ∧ SameMemory s t ∧ t.barges = s.barges
    let new := frameValid v us = true ∧ hdrType h ≤ 4 ∧ l.rxSeq ≠ some (hdrSeq h)
    Available s →
    (exec (.frameReceive dt n us true) s = .next (s.elapse dt)) ∧
    (l.en = false ∨ l.lock = false → exec (.frameReceive dt n us false) s = .next (s.elapse dt)) ∧
    (l.en = true → l.lock = true →
    (frameValid v us = false →
      exec (.frameReceive dt n us false) s = .next (after fun x => { answered false x with crcerr := satInc l.crcerr })) ∧
    (frameValid v us = true → hdrType h ≤ 4 → l.rxSeq = some (hdrSeq h) →
      exec (.frameReceive dt n us false) s = .next (after fun x => { answered true x with
        rxdup := satInc l.rxdup, lastIn := if hdrType h = 3 ∧ l.up = true then s.now + dt else l.lastIn })) ∧
    (new → (l.retired = true ∨ (l.up = false ∧ hdrType h ≠ 1) ∨ (l.retired = false ∧ l.up = true ∧ hdrType h = 2)) →
      exec (.frameReceive dt n us false) s = .next (after fun x => { answered true x with rxSeq := some (hdrSeq h) })) ∧
    (∀ a b c, us = [h, a, b, c] → new → hdrType h = 1 → l.retired = false →
      let lo := max l.vmin (bitsN a 0 2)
      let hi := min l.vmax (bitsN a 2 2)
      let bad := l.inlen < bitsN b 0 7 ∨ bitsN b 7 7 < l.outlen
      ∃ t, exec (.frameReceive dt n us false) s = .next t ∧ others t ∧
        (let y := t.tl.link.get n
        y.answer = (answered true l).answer ∧ y.rxSeq = some (hdrSeq h) ∧
          y.peer = BitVec.ofNat 34 (bitsN a 0 20 + bitsN b 0 14 * 2 ^ 20) ∧
          (l.up = true ∨ l.capAcked = false → y.up = false ∧ y.peerCap = true) ∧
          (l.up = false → l.capAcked = true →
            (hi < lo → y.up = false ∧ y.nover = true) ∧ (lo ≤ hi → bad → y.up = false ∧ y.lenerr = true) ∧
            (lo ≤ hi → ¬ bad → y.up = true ∧ y.ver.toNat = hi ∧ y.nover = l.nover ∧ y.lenerr = l.lenerr)))) ∧
    (new → hdrType h = 3 → l.retired = false → l.up = true → hdrLen h ≤ l.inlen →
      let pay := (framePayload l.ver us).1
      ∃ t r, exec (.frameReceive dt n us false) s = .next t ∧ (t.tl.link.get n).fifo = l.fifo ++ [r] ∧
        (t.tl.link.get n).answer = (answered true l).answer ∧ (t.tl.link.get n).gapNext = false ∧
        (t.tl.link.get n).lastIn = s.now + dt ∧ r.half = (l.frz && l.area.half) ∧ r.words.length = l.inlen + 3 ∧
        (∀ i, i < hdrLen h → r.words[i]? = pay[i]?) ∧ (∀ i, hdrLen h ≤ i → i < l.inlen → r.words[i]? = some l.poison) ∧
        (let f := r.words.getD l.inlen 0
        fld f 0 32 = (s.elapse dt).crp.stTime.setWidth 32 ∧ bit f 33 = l.gapNext ∧ bit f 35 = false) ∧
        (let f := r.words.getD (l.inlen + 1) 0
        fld f 0 12 = hdrAge h ∧ fld f 12 8 = hdrSeq h ∧ bitsN f 20 9 = hdrLen h ∧ fld f 29 2 = l.ver) ∧
        r.words.getD (l.inlen + 2) 1 = (if l.ver = 3 then (framePayload l.ver us).2 else 0) ∧ others t) ∧
    (new → hdrType h = 3 → l.retired = false → l.up = true → l.inlen < hdrLen h →
      ∃ t, exec (.frameReceive dt n us false) s = .next t ∧ others t ∧
        t.tl.link.get n = { answered true l with
          rxSeq := some (hdrSeq h), lastIn := s.now + dt, lenerr := true, gapNext := true }) ∧
    (new → hdrType h = 4 → l.retired = false → l.up = true →
      (l.mrxFits (hdrLen h + 1) = false → exec (.frameReceive dt n us false) s = .next (after (answered false))) ∧
      (l.mrxFits (hdrLen h + 1) = true →
        ∃ t, exec (.frameReceive dt n us false) s = .next t ∧ SameMemory s t ∧
          (let y := t.tl.link.get n
          y.answer = (answered true l).answer ∧ y.rxSeq = some (hdrSeq h) ∧ y.mrxTail = l.mrxTail + (hdrLen h + 1) ∧
            y.mrxWr = l.mrxWr))) ∧
    (∀ f, frameValid v us = true → hdrType h = 5 → l.unacked = some f →
      (l.retired = true ∨ f.seq ≠ hdrSeq h → exec (.frameReceive dt n us false) s = .next (s.elapse dt)) ∧
      (l.retired = false → f.seq = hdrSeq h → f.kind = 2 → l.up = true → l.maintDue = false →
        exec (.frameReceive dt n us false) s = .next (after fun l => { l with unacked := none })) ∧
      (l.retired = false → f.seq = hdrSeq h → f.kind = 4 → l.up = true → l.maintDue = false →
        ∃ t, exec (.frameReceive dt n us false) s = .next t ∧
          Noted (after fun l => { l with unacked := none, mtxBusy := false, mtxDone := true }) t)) ∧
    (∀ f, frameValid v us = true → hdrType h = 6 → l.unacked = some f → l.retired = false → f.tries < l.retry →
      ∃ t, exec (.frameReceive dt n us false) s = .next t ∧ (t.tl.link.get n).sent = f.units ∧
        (t.tl.link.get n).retries = satInc l.retries ∧ (t.tl.link.get n).up = l.up ∧
        ((t.tl.link.get n).unacked.map fun g => (g.seq, g.tries)) = some (f.seq, f.tries + 1) ∧ others t))

/-- ACK_TIMEOUT, OUT_FRAME_SEND, SAFE_FRAME_SEND, TL_MTX_GO (R325, R326, R329, R331, R332): an unacknowledged frame is sent again
with its SEQ, at most RETRY times, and then dropped, which takes the link down; an OUT frame carries the image and its date; a
SAFE frame carries SAFE = 1 and poison; TL_MTX reads its Reservoir words through the Wharf, as word singles of initiator 14 with
the link as ID (log entry 88), and, the last answered, sends them as a MAINT frame. A CAP frame whose retries run out retires
nothing (log entry 48). POISON_RECORD and TL_FREEZE (R261, R327, R328): a link that is retired or down gives, without snapshots,
a record of poison with RET at each period, and with them one into the live half before each freeze; a freeze makes the other
half live and empty, with the records accepted in its own TCLK. -/
def Obligations.FramesAreSentAndRecordsPoisoned : Prop :=
  (∀ (s : State) (dt : Nat) (n : Fin 16),
    let l := s.tl.link.get n
    let others (t : State) := (∀ k, k ≠ n → t.tl.link.get k = s.tl.link.get k) ∧ SameMemory s t ∧ OnlyRequests s t
    let out (safe : Bool) (v : BitVec 2) : List Word :=
      headerUnit 2 (l.txSeq + 1) l.outlen safe :: ((if v = 3 then [l.imageDate.setWidth 36] else []) ++
        (l.image.toList.take l.outlen).map fun w => if safe then l.poison else w)
    let outDue := l.en = true ∧ l.up = true ∧ l.sendsSafe = false ∧ l.unacked = none ∧
      (l.outDue = true ∨ (l.oper ≠ 0 ∧ l.lastOut + l.oper * 480 ≤ s.now + dt))
    let period := if l.oper = 0 then 1200000 else l.oper * 480
    let safeDue := l.sendsSafe = true ∧ (l.up = true ∨ l.retired = true) ∧ (l.safeDue = true ∨
      (l.lastSafe + period ≤ s.now + dt ∧ (l.retired = true ∨ (l.oper ≠ 0 ∧ l.unacked = none))))
    let noAccess := ∀ k, (s.tl.link.get k).mtxTxs = [] ∧ ∀ f ∈ (s.tl.link.get k).mrxFrames, f.txs = []
    Available s →
    (∀ f, l.unacked = some f → f.eof + l.ackto * 480 < s.now + dt →
      (f.tries < l.retry →
      ∃ t, exec (.ackTimeout dt n) s = .next t ∧ (t.tl.link.get n).sent = f.units ∧
        (t.tl.link.get n).retries = satInc l.retries ∧ (t.tl.link.get n).up = l.up ∧
        ((t.tl.link.get n).unacked.map fun g => (g.seq, g.tries)) = some (f.seq, f.tries + 1) ∧ others t) ∧
      (l.retry ≤ f.tries → l.retired = false →
      ∃ t, exec (.ackTimeout dt n) s = .next t ∧ (t.tl.link.get n).unacked = none ∧
        (t.tl.link.get n).drop = satInc l.drop ∧ (t.tl.link.get n).up = false ∧
        (t.tl.link.get n).retired = (l.up && l.vital) ∧ (f.kind = 4 → (t.tl.link.get n).mtxFail = true) ∧
        (l.up = true → l.vital = true → (t.tl.link.get n).rcause = 2) ∧ others t)) ∧
    ((∀ f, l.unacked = some f → s.now + dt ≤ f.eof + l.ackto * 480) → exec (.ackTimeout dt n) s = .next (s.elapse dt)) ∧
    (outDue →
      ∃ t, exec (.outFrameSend dt n) s = .next t ∧ (t.tl.link.get n).sent = out false l.ver ++ [crcUnit (out false l.ver)] ∧
        (t.tl.link.get n).outDue = false ∧ (t.tl.link.get n).txSeq = l.txSeq + 1 ∧ (t.tl.link.get n).image = l.image ∧ others t) ∧
    (¬ outDue → exec (.outFrameSend dt n) s = .next (s.elapse dt)) ∧
    (safeDue →
      let v := if l.retired then l.pver else l.ver
      ∃ t, exec (.safeFrameSend dt n) s = .next t ∧ (t.tl.link.get n).sent = out true v ++ [crcUnit (out true v)] ∧
        (t.tl.link.get n).safeDue = false ∧ (t.tl.link.get n).lastSafe = s.now + dt ∧ (t.tl.link.get n).image = l.image ∧
        others t) ∧
    (¬ safeDue → exec (.safeFrameSend dt n) s = .next (s.elapse dt)) ∧
    (l.mtxBusy = true → exec (.tlMtxGo dt n) s = .next (s.elapse dt)) ∧
    (l.mtxBusy = false → noAccess → 1 ≤ l.mtxLen.toNat → l.mtxLen.toNat + s.wharf.cur.get 14 ≤ 32 →
      ∃ t rs, exec (.tlMtxGo dt n) s = .next t ∧ t.wharf.reqs = s.wharf.reqs ++ rs ∧ rs.length = l.mtxLen.toNat ∧
        (∀ (i : Nat) r, rs[i]? = some r → r.init = 14 ∧ r.tx =
          { addr := BitVec.ofNat 32 (0x10000000 + 4 * ((l.mtxAddr.toNat + i) % 1048576)), write := false, size := .word,
            id := BitVec.ofNat 5 n.val, world := false, data := [] }) ∧
        (t.tl.link.get n).mtxBusy = true ∧ (t.tl.link.get n).mtxGot = [] ∧ others t) ∧
    (∀ r, l.mtxBusy = true → noAccess → l.mtxLen.toNat = l.mtxGot.length + 1 → l.up = true → l.unacked = none →
      s.wharf.resps.find? (fun x => x.init == 14 && x.id == BitVec.ofNat 5 n.val) = some r → r.write = false →
      let us := headerUnit 4 (l.txSeq + 1) l.mtxLen.toNat false :: (l.mtxGot ++ [r.data.headD 0])
      ∃ t, exec (.targetResponse dt 14 (BitVec.ofNat 5 n.val)) s = .next t ∧ (t.tl.link.get n).sent = us ++ [crcUnit us] ∧
        (t.tl.link.get n).mtxBusy = true ∧ (t.tl.link.get n).maintDue = false ∧ others t) ∧
    (∀ r f fs, noAccess → l.mrxFrames = f :: fs → f.left = 1 → l.maintDue = false →
      s.wharf.resps.find? (fun x => x.init == 14 && x.id == BitVec.ofNat 5 n.val) = some r → r.write = true →
      ∃ t, exec (.targetResponse dt 14 (BitVec.ofNat 5 n.val)) s = .next t ∧
        t.tl.link.get n = { l with
          mrxFrames := fs, mrxWr := BitVec.ofNat 16 ((l.mrxWr.toNat + f.size) % max 1 l.mrxSize) } ∧ others t)) ∧
  (∀ (s : State) (dt : Nat) (n : Fin 16),
    let l := s.tl.link.get n
    let poisonRecord (r : Record) := r.src = n.val ∧ r.words.length = l.inlen + 3 ∧
      (∀ i, i < l.inlen → r.words[i]? = some l.poison) ∧ bit (r.words.getD l.inlen 0) 35 = true ∧
      r.words.getD (l.inlen + 2) 1 = 0
    let moved (r : Record) : Record := if r.time / 480 = (s.now + dt) / 480 then { r with half := !l.area.half } else r
    let due := l.en = true ∧ (l.retired = true ∨ l.up = false) ∧ l.frz = false ∧
      l.lastPoison + (if l.rxto = 0 then 1000 else l.rxto) * 12000 ≤ s.now + dt
    Available s →
    (due →
      ∃ t r, exec (.poisonRecord dt n) s = .next t ∧ (t.tl.link.get n).fifo = l.fifo ++ [r] ∧ poisonRecord r ∧ r.half = false ∧
        (t.tl.link.get n).lastPoison = s.now + dt ∧ (∀ k, k ≠ n → t.tl.link.get k = s.tl.link.get k) ∧ SameMemory s t) ∧
    (¬ due → exec (.poisonRecord dt n) s = .next (s.elapse dt)) ∧
    (∀ task : Fin 256,
      let mine := l.frz = true ∧ l.ftask = BitVec.ofNat 8 task.val
      (BitVec.ofNat 8 task.val ∉ s.tl.freezes → exec (.tlFreeze dt task) s = .next (s.elapse dt)) ∧
      (BitVec.ofNat 8 task.val ∈ s.tl.freezes →
      ∃ t, exec (.tlFreeze dt task) s = .next t ∧ SameMemory s t ∧ t.barges = s.barges ∧
        (mine →
          let y := (t.tl.link.get n).area
          y.half = !l.area.half ∧ y.next (!l.area.half) = 0 ∧ y.wrap (!l.area.half) = false ∧ y.seq = l.area.seq + 1 ∧
          (l.en = true → l.retired = true ∨ l.up = false →
            ∃ r, (t.tl.link.get n).fifo = l.fifo.map moved ++ [r] ∧ poisonRecord r ∧ r.half = l.area.half) ∧
          (l.en = false ∨ (l.retired = false ∧ l.up = true) → (t.tl.link.get n).fifo = l.fifo.map moved)) ∧
        (¬ mine → t.tl.link.get n = l))))

/-! ### Clocks, reset, power (chapter 13) -/

/-- PLL_LOCK, PLL_LOCK_LOSS, CLOCK_MONITOR_WINDOW, SUPPLY_FAULT, KEEPER_POWER_ON, KEEPER_POWER_ON_RESET (R176, R336, R340, R341, R345,
R426): with the monitors armed, a window's count outside ±6 % of what R340 expects is a fault, which goes to the Keeper or not as
its table says; a rail out of range likewise, and its INR shows it until it is back; the Keeper starts in STARTING with its supply.
That the monitors are armed when all six PLLs have locked, and INR until a rail is back (log entry 36), and the order to the safe level
to every block when VDD_KP is lost (log entry 40), are the model's reading. -/
def Obligations.ClocksAndSuppliesAreWatched : Prop :=
  ∀ (s : State) (dt : Nat), Available s →
    (∀ p : PllIx, ∃ t, exec (.pllLock dt p) s = .next t ∧ bit t.crp.locked p.val = true ∧
      (∀ q : PllIx, q ≠ p → bit t.crp.locked q.val = bit s.crp.locked q.val) ∧
      ((∀ q : PllIx, q ≠ p → bit s.crp.locked q.val = true) → t.crp.armed = true) ∧ t.barges = s.barges ∧ t.kp = (s.elapse dt).kp) ∧
    (∀ p : PllIx, bit s.crp.locked p.val = true →
      ∃ t, exec (.pllLockLoss dt p) s = .next t ∧ bit t.crp.locked p.val = false ∧ bit t.crp.lost p.val = true ∧
        (p = 5 → t.pwm.calok = false) ∧ t.barges = s.barges ∧ t.kp = (s.elapse dt).kp) ∧
    (∀ p : PllIx, bit s.crp.locked p.val = false → exec (.pllLockLoss dt p) s = .next (s.elapse dt)) ∧
    (∀ (clk : Clk) (count e : Nat),
      e = (match clk with
        | .bclk n => (if s.crp.profile = 2 then 12000 else 16000) / 2 ^ (s.crp.bpwr.get n).tdiv.toNat
        | .pclk => 8000
        | .fclk => 6400
        | .xclk => if s.crp.profile = 0 then 12800 else 9600
        | .hclk => 9600
        | .tclk => 400
        | .refclk => 1600) →
      let runs := match clk with
        | .bclk n => s.crp.armed = true ∧ (s.crp.bpwr.get n).cur = 0
        | _ => s.crp.armed = true
      let toKeeper := match clk with
        | .bclk n => basinHasTask s n = true
        | .pclk | .fclk => True
        | _ => False
      (runs → 800 * count < 94 * e ∨ 106 * e < 800 * count →
        ∃ t, exec (.clockMonitorWindow dt clk count) s = .next t ∧ bit t.crp.clkflt (clkIx clk) = true ∧
          bit t.crp.clkbad (clkIx clk) = true ∧ t.barges = s.barges ∧ SameMemory s t ∧ (clk = .pclk → t.pwm.calok = false) ∧
          (toKeeper → s.kp.powered = true → s.kp.mode ≠ .safe → InSafe t 0x02) ∧
          (clk = .hclk → s.kp.powered = true → s.kp.log.length < 64 →
            t.kp.log.length = s.kp.log.length + 1 ∧ t.kp.mode = s.kp.mode) ∧
          (s.kp.powered = false ∨ (¬ toKeeper ∧ clk ≠ .hclk) → t.kp = (s.elapse dt).kp)) ∧
      (runs → 94 * e ≤ 800 * count → 800 * count ≤ 106 * e →
        ∃ t, exec (.clockMonitorWindow dt clk count) s = .next t ∧ t.crp.clkflt = s.crp.clkflt ∧
          bit t.crp.clkbad (clkIx clk) = false ∧ t.kp = (s.elapse dt).kp ∧ t.barges = s.barges) ∧
      (¬ runs → exec (.clockMonitorWindow dt clk count) s = .next (s.elapse dt))) ∧
    (∀ r : Rail,
      (s.crp.armed = false → ∀ b, exec (.supplyFault dt r b) s = .next (s.elapse dt)) ∧
      (s.crp.armed = true →
        ∃ t, exec (.supplyFault dt r false) s = .next t ∧ t.barges = s.barges ∧ SameMemory s t ∧
          (∀ j, railIx r = some j → bit t.crp.flt j = true ∧ bit t.crp.inr j = false ∧
            (j < 4 → s.kp.powered = true → s.kp.mode ≠ .safe → InSafe t 0x03) ∧ (4 ≤ j → t.kp = (s.elapse dt).kp)) ∧
          (∀ k, r = .vddio k → (t.crp.iobank.get k).flt = true ∧ (t.crp.iobank.get k).inr = false ∧
            ((s.crp.iobank.get k).mon = true → s.kp.powered = true → s.kp.mode ≠ .safe → InSafe t 0x03) ∧
            ((s.crp.iobank.get k).mon = false → t.kp = (s.elapse dt).kp))) ∧
      (s.crp.armed = true →
        ∃ t, exec (.supplyFault dt r true) s = .next t ∧ t.barges = s.barges ∧ t.kp = (s.elapse dt).kp ∧ t.crp.flt = s.crp.flt ∧
          (∀ j, railIx r = some j → bit t.crp.inr j = true) ∧
          ∀ k, r = .vddio k → t.crp.iobank.get k = { s.crp.iobank.get k with inr := true })) ∧
    (s.kp.powered = false →
      exec (.keeperPowerOn dt) s = .next { s.elapse dt with kp := { powered := true, testHold := s.kp.testHold } }) ∧
    (s.kp.powered = true → exec (.keeperPowerOn dt) s = .next (s.elapse dt)) ∧
    (∃ t, exec (.keeperPowerOnReset dt) s = .next t ∧ t.kp = { powered := false, testHold := s.kp.testHold } ∧
      let left (gs : List GateMsg) := gs.filter (fun m => !m.isOpening) ++ [.safeAll]
      kfaultN t = false ∧ QuietBarges s t ∧ t.pwm = { s.pwm with gates := left s.pwm.gates } ∧
      t.fio = { s.fio with gates := left s.fio.gates } ∧
      ∀ l, (s.tl.link.get l).en = true → (s.tl.link.get l).vital = true →
        (t.tl.link.get l).gates = left (s.tl.link.get l).gates)

/-- THERMAL_CONVERSION (R349, R350): TMAX is the round's highest reading; a sensor at or above 120 °C, or whose self-check fails, in
two conversions running takes the Keeper to SAFE with cause 0x05; L rises by one while TMAX ≥ THI, at most every 1 ms, and falls
by one while TMAX < TLO, at most every 10 ms; then every basin with VHELD = 0 runs with 2^L, and receives source 59. That the
hot fault stays until a reset, and L while EN = 0, is the model's reading (log entry 37). STSET_WRITE, STATION_TIME_TRIM,
BPWR_REQ_WRITE, B1_ENTRY, B1_WAKE, POWER_TRANSITION_COMPLETE (R339, R347, R348, R351): station time is loaded only in STARTING
with every barge held, and a trim makes one step more or less; REQ of a basin with VHELD = 1 stays, and of another starts its
transition; a basin enters B1 when its barges idle, wakes on a change, enters neither B2 nor B3 with VHELD = 1, where a
transition there ends in B0 (log entry 40), and in B3 keeps only its code. -/
def Obligations.HeatTimeAndPowerFollowTheirRules : Prop :=
  (∀ (s : State) (dt : Nat) (rs : List (BitVec 12 × Bool)), Available s → rs.length = 8 →
    ∃ t, exec (.thermalConversion dt rs) s = .next t ∧ SameMemory s t ∧ OnlyRequests s t ∧
      (∃ r ∈ rs, t.crp.tmax = r.1) ∧ (∀ r ∈ rs, r.1.toInt ≤ t.crp.tmax.toInt) ∧
      (∀ (k : Fin 8) (r : BitVec 12 × Bool), rs[k.val]? = some r → fld (t.crp.temp.get k) 0 12 = r.1 ∧
        (480 ≤ r.1.toInt ∧ 0 < s.crp.hotRun.get k ∨ r.2 = true ∧ 0 < s.crp.failRun.get k →
          t.crp.hot = true ∧ (s.kp.powered = true → s.kp.mode ≠ .safe → InSafe t 0x05))) ∧
      ((∀ r ∈ rs, r.1.toInt < 480 ∧ r.2 = false) → t.kp = (s.elapse dt).kp ∧ t.crp.hot = s.crp.hot) ∧
      (let rises := s.crp.then' = true ∧ s.crp.level ≠ 3 ∧ 4 * (s.crp.thi.toNat : Int) ≤ t.crp.tmax.toInt ∧
        s.crp.riseAt.all (fun x => x + 12000000 ≤ s.now + dt) = true
      let falls := s.crp.then' = true ∧ s.crp.level ≠ 0 ∧ t.crp.tmax.toInt < 4 * (s.crp.tlo.toNat : Int) ∧
        s.crp.fallAt.all (fun x => x + 120000000 ≤ s.now + dt) = true
      let follow := t.crp.steps = s.crp.steps + 1 ∧ (∀ n, (t.crp.bpwr.get n).tdiv = if vheld t n = true then 0 else t.crp.level) ∧
        ∀ g, vheld t (basinOf g) = false → ((t.barges.get g).intc.get 59).pend = true
      (rises → t.crp.level = s.crp.level + 1 ∧ follow) ∧ (falls → ¬ rises → t.crp.level = s.crp.level - 1 ∧ follow) ∧
        (¬ rises → ¬ falls → t.crp.level = s.crp.level ∧ t.crp.steps = s.crp.steps ∧ t.crp.bpwr = s.crp.bpwr))) ∧
  (∀ (s : State) (dt : Nat), Available s →
    (∀ v, exec (.stsetWrite dt v) s = .next
      (if s.kp.mode = .starting ∧ s.crp.bhold = BitVec.allOnes 48 then
        { s.elapse dt with
          crp := { (s.elapse dt).crp with stTime := (fld v 0 28) ++ s.crp.stsetl }
          barges := s.barges.map fun b => { b with lastSample := (fld v 0 28) ++ s.crp.stsetl } }
      else s.elapse dt)) ∧
    (let c := (s.elapse dt).crp
     let comes := s.crp.stIntvl ≠ 0 ∧ s.crp.trimAt + max 10 s.crp.stIntvl.toNat * 12000 ≤ s.now + dt ∧
        (s.crp.stDir = true → c.stTime ≠ s.crp.stTime)
     (comes → exec (.stationTimeTrim dt) s = .next { s.elapse dt with crp :=
        { c with stTime := if s.crp.stDir then c.stTime - 1 else c.stTime + 1, trimAt := s.now + dt } }) ∧
     (¬ comes → exec (.stationTimeTrim dt) s = .next (s.elapse dt))) ∧
    (∀ (n : BasinIx) (v : Word), let p := s.crp.bpwr.get n
      let r : BitVec 2 := fld v 0 2
      let after (t : State) := t.crp.bpwr.get n
      let start (t : State) (goal : BitVec 2) := (after t).req = r ∧ (after t).target = some goal ∧
        (after t).waking = decide (goal = 0) ∧ (after t).cur = p.cur ∧ SameMemory s t ∧ t.barges = s.barges
      (vheld s n = true → r ≠ 0 →
        ∃ t, exec (.bpwrReqWrite dt n v) s = .next t ∧ (after t).req = p.req ∧ (after t).target = p.target ∧
          (after t).cur = p.cur ∧ (after t).autob1 = bit v 4) ∧
      (vheld s n = false ∨ r = 0 →
        (p.target.isSome = true → ∃ t, exec (.bpwrReqWrite dt n v) s = .next t ∧ (after t).target = p.target ∧
          (after t).later = some r ∧ (after t).cur = p.cur) ∧
        (p.target = none → p.cur ≠ 1 → p.cur ≠ r → 2 ≤ r.toNat →
          ∃ t, exec (.bpwrReqWrite dt n v) s = .next t ∧ start t r) ∧
        (p.target = none → 2 ≤ p.cur.toNat → r.toNat ≤ 1 → ∃ t, exec (.bpwrReqWrite dt n v) s = .next t ∧ start t 0 ∧
          (p.cur = 3 → (t.basins.get n).testing = true)) ∧
        (p.target = none → p.cur = 1 ∨ (p.cur = 0 ∧ r.toNat ≤ 1) ∨ (p.cur = r ∧ 2 ≤ r.toNat) → ∃ t, exec (.bpwrReqWrite dt n v) s = .next t ∧
          (after t).req = r ∧ (after t).target = none ∧ (after t).cur = p.cur ∧
          (after t).changed = (p.changed || (p.cur == 1 && p.req != r))))) ∧
    (∀ n : BasinIx, let p := s.crp.bpwr.get n
      let e := s.elapse dt
      let pendingIrq (g : BargeIx) := (selectInterrupt (s.barges.get g) (bclkCount e n)).isSome = true
      let wakes := vheld s n = true ∨ p.changed = true ∨ portAWanted s n = true ∨ ∃ g, basinOf g = n ∧
        bit s.crp.bhold g.val = false ∧
          (((s.barges.get g).wait.isSome = true ∧ waitsLonger e n 600 (s.barges.get g) = false) ∨ pendingIrq g)
      (p.cur = 0 → p.target = none → p.req.toNat ≤ 1 → p.autob1 = true → vheld s n = false →
        (∀ g, basinOf g = n → let b := s.barges.get g
          (bit s.crp.bhold g.val = true ∨ waitsLonger e n 2000 b = true) ∧ drained b = true ∧ b.xluq = [] ∧ ¬ pendingIrq g) →
        ∃ t, exec (.b1Entry dt n) s = .next t ∧ (t.crp.bpwr.get n).cur = 1 ∧ t.basins = s.basins ∧ t.barges = s.barges) ∧
      (vheld s n = true ∨ p.autob1 = false ∨ p.cur ≠ 0 → exec (.b1Entry dt n) s = .next e) ∧
      (p.cur = 1 → wakes →
        ∃ t, exec (.b1Wake dt n) s = .next t ∧ (t.crp.bpwr.get n).cur = 0 ∧ (t.crp.bpwr.get n).wakes = p.wakes + 1 ∧
          (t.crp.bpwr.get n).changed = false ∧ SameMemory s t) ∧
      (p.cur ≠ 1 ∨ ¬ wakes → exec (.b1Wake dt n) s = .next e)) ∧
    (∀ (n : BasinIx) (goal : BitVec 2), let p := s.crp.bpwr.get n
      let after (t : State) := t.crp.bpwr.get n
      p.target = some goal →
      (p.cur = 3 → (s.basins.get n).testing = true → exec (.powerTransitionComplete dt n) s = .next (s.elapse dt)) ∧
      (p.cur ≠ 3 ∨ (s.basins.get n).testing = false →
        (goal ≠ 0 → vheld s n = true → ∃ t, exec (.powerTransitionComplete dt n) s = .next t ∧
          after t = { p with target := none, later := none } ∧ t.barges = s.barges ∧ SameMemory s t) ∧
        (goal = 0 ∨ vheld s n = false → ∃ t, exec (.powerTransitionComplete dt n) s = .next t ∧ (after t).cur = goal ∧
          (after t).wakes = (if p.waking then p.wakes + 1 else p.wakes) ∧
          (p.later = none → s.fw.up = false → (after t).target = none) ∧
          (goal ≠ 3 → SameMemory s t) ∧ (goal = 0 → t.barges = s.barges) ∧
          (goal = 2 → ∀ g, basinOf g = n → bit t.crp.bhold g.val = true) ∧
          (goal = 3 → (∀ a, (t.basins.get n).mem.nonet a = 0) ∧
            ∀ k, ((t.basins.get n).code.get k).lines = ((s.basins.get n).code.get k).lines)))))

/-- RESET_N_PULSE, RSTCMD_WARM, LOCKSTEP_MISMATCH, COLD_RESET_ASSERT, COLD_RESET (R342 to R345, R351, R426, R432): the three ways to a
warm reset with their causes, two in one cycle of XCLK making one; a pulse below 200 ns does nothing, and one below 1 µs may do
nothing; a fallen main rail holds the part in cold reset, whose release takes the straps, zeroes the memories and station time
and keeps the fuses. Each release samples the straps that its command brings (R16, R432; log entry 75). Which cycle makes two causes
one reset, and what stays over a warm reset beside R343's table, is the model's reading (log entry 39). -/
def Obligations.ColdAndWarmResetsCoverTheDevice : Prop :=
  ∀ (s : State) (dt : Nat), Available s →
    let period := if s.crp.profile = 0 then 15 else 20
    let merged := s.crp.warmAt.any fun x => x / period == (s.now + dt) / period
    (∀ pins : Pins,
      (merged = false →
        (∀ w, 1000 ≤ w → ∃ t, exec (.resetNPulse dt w pins) s = .next t ∧ WarmResetDone (s.elapse dt) t pins 1) ∧
        (∀ w, 200 ≤ w → w < 1000 → ∃ t, exec (.resetNPulse dt w pins) s = .next t ∧
          (WarmResetDone (s.elapse dt) t pins 1 ∨ t = { s.elapse dt with freeCtr := s.freeCtr + 1 })) ∧
        (∀ v, bit v 12 = true → bitsN v 16 8 = 0xA5 →
          ∃ t, exec (.rstcmdWarm dt v pins) s = .next t ∧ WarmResetDone (s.elapse dt) t pins 2) ∧
        (∃ t, exec (.lockstepMismatch dt pins) s = .next t ∧ WarmResetDone (s.elapse dt) t pins 3)) ∧
      (merged = true →
        (∀ w, 1000 ≤ w → exec (.resetNPulse dt w pins) s =
          .next { s.elapse dt with crp := { (s.elapse dt).crp with src := 1 } }) ∧
        (∀ v, bit v 12 = true → bitsN v 16 8 = 0xA5 → exec (.rstcmdWarm dt v pins) s = .next (s.elapse dt)) ∧
        exec (.lockstepMismatch dt pins) s = .next (s.elapse dt)) ∧
      (∀ w, w < 200 → exec (.resetNPulse dt w pins) s = .next (s.elapse dt)) ∧
      (∀ v, bit v 12 = false ∨ bitsN v 16 8 ≠ 0xA5 → ∃ t, exec (.rstcmdWarm dt v pins) s = .next t ∧
        ∀ n : BasinIx, bit v n.val = true → (t.basins.get n).testing = true)) ∧
    (∀ r, r = .core ∨ r = .sram ∨ r = .nvm →
      ∃ t, exec (.coldResetAssert dt r) s = .next t ∧ t.crp.coldHeld = true ∧ t.kp.mode = .starting ∧ t.pwm = {} ∧ t.fio = {} ∧
        t.weir = {} ∧ t.tl = {} ∧ t.crp.bhold = BitVec.allOnes 48 ∧ t.fw.up = false) ∧
    (∀ r, r ≠ .core → r ≠ .sram → r ≠ .nvm → exec (.coldResetAssert dt r) s = .next (s.elapse dt)) ∧
    (∀ (pins : Pins) (levels : BitVec 12),
      exec (.coldReset dt pins levels) s = .next (s.elapse dt) ∧
      let h : State := { s with crp := { s.crp with coldHeld := true } }
      ∃ t, exec (.coldReset dt pins levels) h = .next t ∧ t.crp.coldHeld = false ∧ t.crp.stTime = 0 ∧ t.crp.warm = false ∧
        t.crp.src = 0 ∧ t.crp.bhold = BitVec.allOnes 48 ∧ t.kp.mode = .starting ∧ t.sec.fuses = s.sec.fuses ∧
        t.sec.loaded = s.sec.fuses ∧ t.crp.pins = pins ∧ t.crp.factory = pins.testmode ∧ t.crp.bootMode = pins.bootMode ∧
        (t.crp.profile = if s.sec.fuses.plock = true ∨ pins.profile = 3 then
          (if s.sec.fuses.pfuse = 3 then 2 else s.sec.fuses.pfuse) else pins.profile) ∧
        (∀ k : BasinIx, (t.crp.iobank.get k).level = bit levels k.val) ∧
        (∀ g, let b := State.reset.barges.get g
          t.barges.get g = { b with sig := { b.sig with s := (t.barges.get g).sig.s } }) ∧
        (∀ a, t.rv.mem.nonet a = 0) ∧ (∀ n a, (t.basins.get n).mem.nonet a = 0) ∧ (∀ a, t.hms.nonet a = 0) ∧
        ∀ n, (t.basins.get n).testing = true ∧ (t.basins.get n).bistDone = false)

/-- BASIN_RESET, BARGE_RESET_CMD, BHOLD_WRITE, BASIN_SELF_TEST_COMPLETE, RESERVOIR_SELF_TEST_COMPLETE (R206, R224, R230, R343, R344,
R351): a basin reset holds its four barges, stops the tasks on them, clears their retired bits and starts the self-test, and
leaves the outputs' applied values, the Reservoir and every other basin's memory and barges; a barge reset does so for one barge;
a reset in a basin whose reset is in progress does nothing, and a BHOLD bit set acts as a barge reset that stops no task (log entry 38); a barge that the Keeper has retired, or whose basin has not passed its self-test (log
entry 89), is not released. A self-test fails a bank with a defective column that repair leaves in use (R223; which columns are defective
comes with the command, log entry 96), or with a stuck cell, and leaves every nonet 0, the Reservoir's those of its port (R343); RSV
of HIF_READY is set once all four ports are done without a failing bank (R346). -/
def Obligations.BasinAndBargeResetsKeepTheRest : Prop :=
  ∀ (s : State) (dt : Nat), Available s →
    let resets (n : BasinIx) := (s.basins.get n).testing = true ∧ (s.basins.get n).waking = false
    let quiet (t : State) (g : BargeIx) := t.barges.get g = { s.barges.get g with
      intc := (t.barges.get g).intc, hoFault := (t.barges.get g).hoFault }
    (∀ n : BasinIx,
      (resets n → ∃ t, exec (.basinReset dt n) s = .next t ∧ TripsFollow (s.elapse dt) t) ∧
      (¬ resets n →
      ∃ t, exec (.basinReset dt n) s = .next t ∧ (t.basins.get n).testing = true ∧
        (∀ b, ((t.basins.get n).banks.get b).own = 7) ∧
        (∀ g : BargeIx, basinOf g = n → bit t.crp.bhold g.val = true ∧ bit t.kp.retired g.val = false) ∧
        (∀ g : BargeIx, basinOf g ≠ n → quiet t g ∧ bit t.crp.bhold g.val = bit s.crp.bhold g.val ∧
          bit t.kp.retired g.val = bit s.kp.retired g.val) ∧
        (∀ j, (s.kp.tasks.get j).tstate ≠ 0 → (s.kp.tasks.get j).onbarge.toNat / 4 = n.val → (t.kp.tasks.get j).tstate = 0) ∧
        (∀ j, (s.kp.tasks.get j).onbarge.toNat / 4 ≠ n.val → t.kp.tasks.get j = s.kp.tasks.get j) ∧
        (∀ m, m ≠ n → (t.basins.get m).mem = (s.basins.get m).mem) ∧ t.rv = s.rv ∧ t.hms = s.hms ∧
        (∀ k, (t.pwm.ch.get k).appl = (s.pwm.ch.get k).appl ∧ (t.pwm.ch.get k).st = (s.pwm.ch.get k).st) ∧
        (∀ k, (t.fio.fo.get k).appl = (s.fio.fo.get k).appl ∧ (t.fio.fo.get k).st = (s.fio.fo.get k).st) ∧
        t.kp.mode = s.kp.mode ∧ t.kp.bf = s.kp.bf)) ∧
    (∀ g : BargeIx,
      (resets (basinOf g) → exec (.bargeResetCmd dt g) s = .next (s.elapse dt)) ∧
      (¬ resets (basinOf g) →
      ∃ t, exec (.bargeResetCmd dt g) s = .next t ∧ bit t.crp.bhold g.val = true ∧ (t.barges.get g).rstinfo = 0x100 ∧
        (t.barges.get g).stores = [] ∧ (t.barges.get g).xluq = [] ∧ (t.barges.get g).flights = [] ∧
        (∀ h, h ≠ g → quiet t h ∧ bit t.crp.bhold h.val = bit s.crp.bhold h.val) ∧
        (∀ j, (s.kp.tasks.get j).tstate ≠ 0 → (s.kp.tasks.get j).onbarge.toNat = g.val → (t.kp.tasks.get j).tstate = 0) ∧
        (∀ j, (s.kp.tasks.get j).onbarge.toNat ≠ g.val → t.kp.tasks.get j = s.kp.tasks.get j) ∧
        t.kp.mode = s.kp.mode ∧ t.kp.bf = s.kp.bf ∧ SameMemory s t)) ∧
    (∀ (high : Bool) (v : Word),
      ∃ t, exec (.bholdWrite dt high v) s = .next t ∧ t.kp = (s.elapse dt).kp ∧ SameMemory s t ∧
        ∀ g : BargeIx, let x := s.basins.get (basinOf g)
          let passed := x.bistDone = true ∧ x.testing = false ∧ x.bistS = 0 ∧ x.bistC = 0
          bit t.crp.bhold g.val =
          if decide (36 ≤ g.val) = high then
            (bit v (g.val % 36) || (bit s.crp.bhold g.val && (bit s.kp.retired g.val || !decide passed)))
          else bit s.crp.bhold g.val) ∧
    (let used (repair : Word) (col : Fin 348) : Prop :=
      if col.val < 344 then ∀ i, i < 4 → bitsN repair (9 * i) 9 ≠ col.val else bitsN repair (9 * (col.val - 344)) 9 < 344
    (∀ (n : BasinIx) (ds : List (Fin 16 × Fin 348)), let x := s.basins.get n
      (x.testing = true → s.crp.armed = true →
      ∃ t, exec (.basinSelfTestComplete dt n ds) s = .next t ∧ (∀ a, (t.basins.get n).mem.nonet a = 0) ∧
        (∀ k : BankIx, bit (t.basins.get n).bistS k.val = true ↔
          (∃ c, (k, c) ∈ ds ∧ used (x.repair.get k) c) ∨ ∃ m ∈ x.mem.marks, m.2 = .stuck ∧ m.1 / 16384 = k.val) ∧
        (t.basins.get n).bistDone = true ∧ (t.basins.get n).testing = false ∧ (t.basins.get n).repair = x.repair ∧
        (∀ m, m ≠ n → t.basins.get m = s.basins.get m) ∧ t.rv = s.rv ∧ t.barges = s.barges) ∧
      (x.testing = false ∨ s.crp.armed = false → exec (.basinSelfTestComplete dt n ds) s = .next (s.elapse dt))) ∧
    (∀ (p : Fin 4) (ds : List (Fin 4 × Fin 348)), let x := s.rv.ports.get p
      (x.done = false → s.crp.armed = true →
      ∃ t, exec (.reservoirSelfTestComplete dt p ds) s = .next t ∧
        t.rv.ports.get p = { x with done := true, fail := (t.rv.ports.get p).fail } ∧
        (∀ k : Fin 4, bit (t.rv.ports.get p).fail k.val = true ↔
          (∃ c, (k, c) ∈ ds ∧ used (x.repair.get k) c) ∨
            ∃ m ∈ s.rv.mem.marks, m.2 = .stuck ∧ m.1 / 65536 = 4 * p.val + k.val) ∧
        (∀ q, q ≠ p → t.rv.ports.get q = s.rv.ports.get q) ∧
        (∀ a, t.rv.mem.nonet a = if a / 1048576 = p.val then 0 else s.rv.mem.nonet a) ∧
        (bit (readyBits t) 4 = true ↔ ∀ q, (t.rv.ports.get q).done = true ∧ (t.rv.ports.get q).fail = 0) ∧
        t.basins = s.basins ∧ t.barges = s.barges) ∧
      (x.done = true ∨ s.crp.armed = false → exec (.reservoirSelfTestComplete dt p ds) s = .next (s.elapse dt))))

/-- BOOT_VERIFY and MUART_RECOVERY (R407, R417): the boot ROM starts a firmware image whose key is not revoked, whose signature
verifies and whose SEC lies between the loaded FWCNT and 32, and the FWCNT fuses follow it; any other leaves the part in
recovery, with one more failure reported, where the service UART may bring another, which is programmed into the code store once
it verifies. The image verified at a boot is the code store's, or the one that the command names where nothing has said yet what
the store holds. The hash, the signature scheme and the image's header are uninterpreted (log entry 4). FUSE_LIFE_ADVANCE to
FUSE_PLOCK_BLOW, FUSE_OP_COMPLETE (R8, R406, R407, R418, R419): an operation starts with KEY = 0x5A, none under way, where R407
allows it and it is not refused, and otherwise sets FPERR alone; its end changes the fuse that it names and no other: LIFE goes
from OPEN to CUSTOMER or from CUSTOMER to SEALED, a slot is programmed once, and its key comes with it, a counter only rises;
what the registers show stays as it was loaded (log entry 54, which also has a refused operation set FPERR). -/
def Obligations.FirmwareAndFusesAreGuarded : Prop :=
  (∀ (s : State) (dt : Nat) (f sig : List Byte), Available s →
    let good (x : List Byte × List Byte) : Bool :=
      let k := Config.firmwareKey x.1
      !bit s.sec.fuses.vrev k.toNat && Config.ecdsaVerify (Config.vendorKey k) (Config.sha384 x.1) x.2 &&
        decide (s.sec.loaded.fwcnt.toNat ≤ Config.firmwareSec x.1 ∧ Config.firmwareSec x.1 ≤ 32)
    let done (c : Instr) (x : List Byte × List Byte) (store : Option (List Byte × List Byte)) :=
      ∃ t, exec c s = .next t ∧ t.fw.up = good x ∧ t.fw.recovery = !good x ∧ t.fw.store = store ∧
      t.fw.bootFails = (if good x then s.fw.bootFails else s.fw.bootFails + 1) ∧ t.barges = s.barges ∧
      SameMemory s t ∧ t.kp = (s.elapse dt).kp ∧
      t.sec.fuses = { s.sec.fuses with
        fwcnt := if good x then BitVec.ofNat 6 (max s.sec.fuses.fwcnt.toNat (Config.firmwareSec x.1)) else s.sec.fuses.fwcnt }
    let boots := s.crp.armed = true ∧ s.fw.up = false
    let fromStore := s.fw.recovery = false ∧ s.crp.bootMode ≠ 1 ∧ ¬ (s.crp.bootMode = 2 ∧ s.sec.loaded.life = 0)
    let fromUart := s.fw.recovery = true ∨ s.crp.bootMode = 1
    let stored := s.fw.store.getD (f, sig)
    (boots → fromStore → done (.bootVerify dt f sig) stored (some stored)) ∧
    (¬ (boots ∧ fromStore) → exec (.bootVerify dt f sig) s = .next (s.elapse dt)) ∧
    (boots → fromUart → done (.muartRecovery dt f sig) (f, sig) (if good (f, sig) then some (f, sig) else s.fw.store)) ∧
    (¬ (boots ∧ fromUart) → exec (.muartRecovery dt f sig) s = .next (s.elapse dt))) ∧
  (∀ (s : State) (dt : Nat) (v : Word), Available s →
    let u := s.elapse dt
    let x := s.sec
    let f := x.fuses
    let slot : Fin 4 := ⟨bitsN v 4 2 % 4, Nat.mod_lt _ (by decide)⟩
    let value := bitsN v 6 7
    let open' := x.loaded.life = 0 ∨ (x.loaded.life = 1 ∧ x.unlocked = true)
    (∀ p ∈ ([(1, open', .fuseLifeAdvance dt v), (2, open' ∧ bit f.prog slot.val = false, .fuseKeyProgram dt v),
        (3, open', .fuseDbgSet dt v), (4, ∃ t : Fin 4, t ≠ slot ∧ bit f.prog t.val = true ∧ bit f.rev t.val = false, .fuseRevoke dt v),
        (5, f.arb.toNat < value ∧ value ≤ 64, .fuseArbAdvance dt v), (6, f.fwcnt.toNat < value ∧ value ≤ 32, .fuseFwcntAdvance dt v),
        (7, open' ∧ value % 4 ≠ 0, .fusePfuseBlow dt v), (8, open', .fusePlockBlow dt v)] : List (Nat × Prop × Instr)),
      (x.fpop = none → bitsN v 13 8 = 0x5A → p.2.1 → ∃ o, exec p.2.2 s = .next { u with sec := { x with fpop := some o } } ∧
        o.op = p.1 ∧ o.slot = slot ∧ o.value.toNat = value ∧
        ∀ i : Fin 12, fld o.hash (32 * i.val) 32 = x.fdata.get i) ∧
      (x.fpop ≠ none ∨ bitsN v 13 8 ≠ 0x5A ∨ ¬ p.2.1 →
        ∃ t, exec p.2.2 s = .next t ∧ Noted { u with sec := { x with fperr := true } } t)) ∧
    (∀ o : FuseOp, x.fpop = some o → ∃ t, exec (.fuseOpComplete dt) s = .next t ∧ t = { u with sec := t.sec } ∧
      t.sec = { x with fpop := none, fuses := t.sec.fuses, keys := if o.op = 2 then vput x.keys o.slot none else x.keys } ∧
      (let y := t.sec.fuses
      (o.op = 1 → y = { f with life := if f.life = 0 then 1 else 3 }) ∧
        (o.op = 2 → y.hash.get o.slot = o.hash ∧ bit y.prog o.slot.val = true ∧ (∀ j, j ≠ o.slot →
          y.hash.get j = f.hash.get j ∧ bit y.prog j.val = bit f.prog j.val) ∧ y = { f with hash := y.hash, prog := y.prog }) ∧
        (o.op = 3 → y = { f with dbg := f.dbg ||| BitVec.ofNat 4 (2 ^ o.slot.val) }) ∧
        (o.op = 4 → y = { f with rev := f.rev ||| BitVec.ofNat 4 (2 ^ o.slot.val) }) ∧
        (o.op = 5 → y = { f with arb := o.value }) ∧ (o.op = 6 → y = { f with fwcnt := o.value.setWidth 6 }) ∧
        (o.op = 7 → y = { f with pfuse := f.pfuse ||| o.value.setWidth 2 }) ∧ (o.op = 8 → y = { f with plock := true }))) ∧
    (x.fpop = none → exec (.fuseOpComplete dt) s = .next u))

/-! ### The host interface and the Ferry (chapter 14) -/

/-- HIF_DBELL_WRITE, MAILBOX_WRITE, HIF_RCI_WRITE, HIF_RCFG_WRITE, RING_ENTRY_WRITE, CONFIG_SPACE_WRITE, L1_ENTRY, LTR_SEND (R353 to
R356, R358 to R361): a register write that is poisoned or fails its ECRC, or lacks a byte enable, writes nothing; a doorbell sets BUSY,
or OVR where it is set or clears in this HCLK; a mailbox takes the enabled bytes while it is free; CI moves modulo the ring's size and
not beyond PI; the configuration is fixed while EN = 1; an entry lies at BASE + 64·PI, and a full ring takes none; it leaves as
requester 12's bytes within its quantum (R370, R371, R373), when no descriptor or other entry of it is begun (the model's order, log
entry 91); configuration, L1 and LTR touch the host interface alone, and the vectors that can now be sent are sent (the MSI-X table, the
AER bits and what a configuration write sets are PCI Express's, log entries 10 and 90; how a bad TLP comes, log entry 53). -/
def Obligations.HostRegistersAndRingsWork : Prop :=
  ∀ (s : State) (dt : Nat), Available s →
    let taken (k : Fin 4) : Bool := bit s.hif.busy k.val || s.hif.clearAt.get k == some ((s.now + dt) / 20)
    let late := s.elapse dt
    let plain (x : HostFlags) : Prop := x.ecrc = false ∧ x.poisoned = false ∧ x.be = 0xF
    let line (t : State) : Prop := (∀ q, q ≠ 12 → t.ferry.eq.get q = s.ferry.eq.get q) ∧
      (let y := t.ferry.eq.get 12
      y = { s.ferry.eq.get 12 with edges := y.edges, askAt := y.askAt, waitN := y.waitN } ∧
        (asks t 12 = asks s 12 → y = s.ferry.eq.get 12) ∧
        (asks t 12 ≠ asks s 12 → y.edges.head? = some (xclk late, asks t 12)))
    (∀ (i : Fin 4) (v : Dword) (x : HostFlags),
      ∀ c ∈ [Instr.hifDbellWrite dt v x, .hifRciWrite dt i v x, .hifRcfgWrite dt i v x],
      (x.ecrc = true → exec c s = .next { late with hif := { s.hif with aer := s.hif.aer ||| 0x80000 } }) ∧
      (x.ecrc = false → x.poisoned = true → exec c s = .next { late with
        hif := { s.hif with aer := s.hif.aer ||| 0x1000 }
        ferry := { s.ferry with hosterr := s.ferry.hosterr + 1 } }) ∧
      (x.ecrc = false → x.poisoned = false → x.be ≠ 0xF → exec c s = .next late)) ∧
    (∀ (v : Dword) (x : HostFlags), plain x → ∃ t, exec (.hifDbellWrite dt v x) s = .next t ∧
      (∀ k : Fin 4, bit t.hif.busy k.val = (bit s.hif.busy k.val || (bit v k.val && !taken k)) ∧
        bit t.hif.ovr k.val = (bit s.hif.ovr k.val || (bit v k.val && taken k))) ∧
      t = { late with
        events := t.events
        hif := { s.hif with busy := t.hif.busy, ovr := t.hif.ovr, rungAt := t.hif.rungAt } }) ∧
    (∀ (k : Fin 4) (x : HostBytes), let old := s.hif.mb.get k
      (x.ecrc = true → exec (.mailboxWrite dt k x) s =
        .next { late with hif := { s.hif with aer := s.hif.aer ||| 0x80000 } }) ∧
      (x.ecrc = false → x.poisoned = true → exec (.mailboxWrite dt k x) s =
        .next { late with
          hif := { s.hif with aer := s.hif.aer ||| 0x1000 }
          ferry := { s.ferry with hosterr := s.ferry.hosterr + 1 } }) ∧
      (x.ecrc = false → x.poisoned = false → taken k = true → ∃ t, exec (.mailboxWrite dt k x) s = .next t ∧
        t = { late with
          events := t.events
          hif := { s.hif with ovr := s.hif.ovr ||| BitVec.ofNat 4 (2 ^ k.val) } }) ∧
      (x.ecrc = false → x.poisoned = false → taken k = false → ∃ t, exec (.mailboxWrite dt k x) s = .next t ∧
        t = { late with hif := { s.hif with mb := t.hif.mb } } ∧ (∀ j, j ≠ k → t.hif.mb.get j = s.hif.mb.get j) ∧
        ∀ i, i < 256 → (t.hif.mb.get k).getD i 0 =
          if x.offset ≤ i then ((x.bytes[i - x.offset]?).join).getD (old.getD i 0) else old.getD i 0)) ∧
    (∀ (i : Fin 4) (v : Dword) (x : HostFlags), plain x → let r := s.hif.ring.get i
      let size := ringSize r
      let span (k : Nat) : Nat := (k % size + size - r.ci.toNat % size) % size
      ∃ t, exec (.hifRciWrite dt i v x) s = .next t ∧ line t ∧
        t = { late with
          hif := if span (bitsN v 0 16) ≤ span r.pi.toNat then
              { s.hif with ring := vput s.hif.ring i { r with ci := BitVec.ofNat 16 (bitsN v 0 16 % size) } }
            else s.hif
          ferry := { s.ferry with eq := t.ferry.eq } }) ∧
    (∀ (i : Fin 4) (v : Dword) (x : HostFlags), plain x → let r := s.hif.ring.get i
      ∃ t, exec (.hifRcfgWrite dt i v x) s = .next t ∧ line t ∧
        t = { late with
          hif := { s.hif with ring := t.hif.ring }
          ferry := { s.ferry with eq := t.ferry.eq, entry := s.ferry.entry.filter fun e => bit v 8 || e.1 != i } } ∧
        (∀ j, j ≠ i → t.hif.ring.get j = s.hif.ring.get j) ∧
        (let y := t.hif.ring.get i
        y.base = r.base ∧ y.en = bit v 8 ∧ y.log2n = (if r.en then r.log2n else fld v 0 5) ∧
          y.pi = (if bit v 8 then r.pi else 0) ∧ y.ci = if bit v 8 then r.ci else 0)) ∧
    (∀ (i : Fin 4) (e : List Byte) (rest : List (List Byte)), (s.fw.rings.get i).queue = e :: rest → e.length = 64 →
      let r := s.hif.ring.get i
      let sent := (s.ferry.entry.map fun x => x.2).getD 0
      let n := min (64 - sent) (4096 - s.ferry.qpos)
      let a := r.base.toNat + 64 * r.pi.toNat + sent
      let vec : Fin 64 := ⟨i.val, by omega⟩
      let x := s.ferry.eq.get 12
      let turn : Prop := s.ferry.grant = true ∧ s.ferry.owner = 12 ∧ s.ferry.voidAt = none ∧ s.ferry.qpos < 4096 ∧
        hostUp s = true ∧ r.en = true ∧ (r.pi.toNat + 1) % ringSize r ≠ r.ci.toNat % ringSize r ∧
        (∀ e, s.ferry.entry = some e → e.1 = i) ∧ ∀ d, x.queue.head? = some d → d.sent = 0
      (turn → sent < 64 → r.base.toNat + 64 * r.pi.toNat + 64 ≤ 2 ^ 64 →
        ∃ t, exec (.ringEntryWrite dt i) s = .next t ∧
          (∀ j, j < n → kget t.hif.hostMem (a + j) = some (e.getD (sent + j) 0)) ∧
          (∀ y, y < a ∨ a + n ≤ y → kget t.hif.hostMem y = kget s.hif.hostMem y) ∧
          t.ferry.egprog = s.ferry.egprog + BitVec.ofNat 36 n ∧ t.ferry.qpos = s.ferry.qpos + n ∧
          (let y := t.ferry.eq.get 12
          y.queue = x.queue ∧ y.grants = x.grants ∧ y.done = x.done ∧ y.fails = x.fails ∧
            y.credit = if s.ferry.drawMode then x.credit - BitVec.ofNat 16 ((n + 63) / 64) else x.credit) ∧
          (sent + n < 64 → t.ferry.entry = some (i, sent + n) ∧ t.ferry.grant = true ∧ t.hif.ring = s.hif.ring ∧ t.fw = s.fw ∧
            t.hif.sent = s.hif.sent ∧ t.hif.pba = s.hif.pba) ∧
          (sent + n = 64 → t.ferry.entry = none ∧ (t.ferry.grant = false ↔ asks t 12 = false) ∧
            t.hif.ring = vput s.hif.ring i { r with pi := BitVec.ofNat 16 ((r.pi.toNat + 1) % ringSize r) } ∧
            (if s.vectorOpen vec then t.hif.sent.get vec = s.hif.sent.get vec + 1 ∧ t.hif.pba = s.hif.pba
              else t.hif.sent = s.hif.sent ∧ t.hif.pba = s.hif.pba ||| BitVec.ofNat 64 (2 ^ i.val)) ∧
            (t.fw.rings.get i).queue = rest ∧ (t.fw.respDue.get i = (s.fw.respDue.get i && e.head? != some 1)) ∧
            ∀ j, j ≠ i → t.fw.rings.get j = s.fw.rings.get j) ∧
          t.ferry.strm = s.ferry.strm ∧ SameMemory s t ∧ t.barges = s.barges ∧ t.kp = late.kp) ∧
      (¬ turn → exec (.ringEntryWrite dt i) s = .next late)) ∧
    (∀ i : Fin 4, (s.fw.rings.get i).queue = [] → exec (.ringEntryWrite dt i) s = .next late) ∧
    (∀ c : ConfigWrite, ∃ t, exec (.configSpaceWrite dt c) s = .next t ∧ t = { late with hif := t.hif } ∧
      t.hif.bme = c.bme ∧ t.hif.d3hot = c.d3hot ∧ t.hif.ltrEn = c.ltrEn ∧ t.hif.l1En = c.l1En ∧ t.hif.mps = c.mps ∧
      t.hif.mrrs = c.mrrs ∧ t.hif.ctoRange = c.ctoRange ∧ t.hif.ctoDis = c.ctoDis ∧ t.hif.msixEn = c.msixEn ∧
      t.hif.msixMask = c.msixMask ∧ t.hif.l1ss = c.l1ss ∧
      t.hif.inL1 = (s.hif.inL1 && c.l1En) ∧ t.hif.ring = s.hif.ring ∧ t.hif.mb = s.hif.mb ∧
      t.hif.aer = s.hif.aer &&& ~~~c.aerClear ∧ (c.bar = none → t.hif.bar = s.hif.bar) ∧
      (∀ i a, c.bar = some (i, a) → (t.hif.bar.get i).toNat = a.toNat - a.toNat % (if i = 0 then 0x10000 else 0x800000) ∧
        ∀ j, j ≠ i → t.hif.bar.get j = s.hif.bar.get j) ∧
      ∀ v : Fin 64,
        let goes := bit s.hif.pba v.val && (c.bme && !c.d3hot && c.msixEn && !c.msixMask) && !bit (vgetN s.hif.table (4 * v.val + 3) 1) 0
        t.hif.sent.get v = (if goes then s.hif.sent.get v + 1 else s.hif.sent.get v) ∧
          bit t.hif.pba v.val = (bit s.hif.pba v.val && !goes)) ∧
    exec (.l1Entry dt) s = .next (if s.hif.l1En = true ∧ s.hif.inL1 = false ∧
        s.hif.lastBusy + max 1 s.ferry.l1idle.toNat * 12000 ≤ s.now + dt then { late with hif := { s.hif with inL1 := true } }
      else late) ∧
    exec (.ltrSend dt) s = .next (if s.hif.ltrEn = true ∧ s.ferry.ltr ≠ s.hif.ltrSent ∧ hostUp s = true then
        { late with hif := { s.hif with
          ltrSent := s.ferry.ltr, ltrCount := s.hif.ltrCount + 1, inL1 := false, lastBusy := s.now + dt } }
      else late)

/-- BAR2_ACCESS, BAR4_ACCESS, PCIO_ACCESS, PCIO_FAILURE, FLR, PERST (R352, R356, R357, R362 to R367): host bytes reach and leave the
Reservoir's words by slots and by packed groups, nothing else moving; an access before the Reservoir is ready, or beyond it, counts
in FERRY_HOSTERR and reads 0; a poisoned write and a failed ECRC change no memory; an outbound access moves slots at the host; the
oldest read that fails is answered REFUSED, recorded and reported, and so is one that finds the host out of reach, whatever writes wait
before it; a host-scope reset empties the engines and the rings and leaves TICKETS, SHARE, the LFSR, the counters, the Keeper and the
outputs. The model's choices: a view's transactions are made in the command's step (log entry 49); a PCIO write that was accepted while
BME = 0 waits, which R367 leaves open, and R357's stream FIFOs, epochs and tolerances (log entry 51); how a bad TLP comes (log entry 53);
what a reset does to configuration space and AER is PCI Express's (log entries 10 and 90). -/
def Obligations.HostReachesTheReservoirAndResets : Prop :=
  ∀ (s : State) (dt : Nat), Available s → MemoriesCanonical s →
    let late := s.elapse dt
    let errs := { s.ferry with hosterr := s.ferry.hosterr + 1 }
    let only (t : State) := t.basins = s.basins ∧ t.barges = s.barges ∧ t.kp = late.kp ∧ t.ferry = s.ferry
    let cleared (t : State) := t.hif.busy = 0 ∧ t.hif.ovr = 0 ∧ t.hif.pba = 0 ∧ t.hif.ring = Vector.replicate 4 {} ∧
      t.hif.bar = Vector.replicate 3 0 ∧ t.hif.msixEn = false ∧ t.hif.msixMask = false ∧ t.hif.mrrs = 2 ∧ t.hif.ctoDis = false ∧
      t.ferry.credMode = true ∧ t.ferry.grant = false ∧ t.ferry.entry = none ∧ (∀ v, (t.ferry.win.get v).en = false) ∧
      (∀ e, (t.ferry.ig.get e).busy = false ∧ (t.ferry.ig.get e).run = none) ∧
      (∀ q, let x := s.ferry.eq.get q
        let y := t.ferry.eq.get q
        y.queue = [] ∧ y.bonus = 0 ∧ y.credit = 0 ∧ y.tickets = x.tickets ∧ y.share = x.share ∧ y.grants = x.grants ∧
          y.fails = x.fails ∧ y.done = x.done) ∧
      t.ferry.lfsr = s.ferry.lfsr ∧ t.ferry.egprog = s.ferry.egprog ∧ t.ferry.hosterr = s.ferry.hosterr ∧
      t.fw.session = none ∧ (∀ n, t.fw.latTol.get n = 0) ∧ t.kp = late.kp ∧ t.pwm = s.pwm ∧ t.weir = s.weir ∧ t.fio = s.fio ∧
      t.tl = s.tl ∧ ((∀ e, (s.ferry.ig.get e).run = none) → SameMemory s t ∧ QuietBarges s t)
    (ReservoirFree late → reservoirReady s = true →
      (∀ (w : Nat) (b : Fin 8 → Byte), w < 1048576 →
        ∃ t, exec (.bar2Access dt true { offset := 8 * w, bytes := (List.finRange 8).map fun i => some (b i) }) s = .next t ∧
          t.rv.mem.word w = slotWord ((List.finRange 8).map b) ∧
          (∀ a, a < 4 * w ∨ 4 * w + 4 ≤ a → t.rv.mem.nonet a = s.rv.mem.nonet a) ∧ only t) ∧
      (∀ (w o : Nat) (bytes : List (Option Byte)), w < 1048576 → o + bytes.length ≤ 8 → s.rv.mem.isUe w = false →
        ∃ t, exec (.bar2Access dt true { offset := 8 * w + o, bytes := bytes }) s = .next t ∧
          (∀ i, i < 36 → bit (t.rv.mem.word w) i = match if o ≤ i / 8 then bytes[i / 8 - o]? else none with
            | some (some y) => bit y (i % 8)
            | _ => bit (s.rv.mem.word w) i) ∧
          (∀ a, a < 4 * w ∨ 4 * w + 4 ≤ a → t.rv.mem.nonet a = s.rv.mem.nonet a) ∧ only t) ∧
      (∀ w : Nat, w < 1048576 →
        ∃ t, exec (.bar2Access dt false { offset := 8 * w, bytes := List.replicate 8 none }) s = .next t ∧
          t.rv.mem = s.rv.mem ∧ t.basins = s.basins ∧ t.barges = s.barges ∧ t.kp = late.kp ∧
          (s.rv.mem.isUe w = false → t.hif.hostRead = (List.range 8).map (slotByte (s.rv.mem.word w)) ∧ t.ferry = s.ferry) ∧
          (s.rv.mem.isUe w = true → t.hif.hostRead = List.replicate 8 0 ∧ t.ferry = errs)) ∧
      (∀ (g : Nat) (b : Fin 36 → Byte), g < 131072 →
        ∃ t, exec (.bar4Access dt true { offset := 36 * g, bytes := (List.finRange 36).map fun i => some (b i) }) s = .next t ∧
          (∀ j i, (hj : j < 8) → (hi : i < 36) →
            bit (t.rv.mem.word (8 * g + j)) i = bit (b ⟨(36 * j + i) / 8, by omega⟩) ((36 * j + i) % 8)) ∧
          (∀ a, a < 32 * g ∨ 32 * g + 32 ≤ a → t.rv.mem.nonet a = s.rv.mem.nonet a) ∧ only t) ∧
      (∀ g : Nat, g < 131072 → (∀ j, j < 8 → s.rv.mem.isUe (8 * g + j) = false) →
        ∃ t, exec (.bar4Access dt false { offset := 36 * g, bytes := List.replicate 36 none }) s = .next t ∧
          t.hif.hostRead.length = 36 ∧
          (∀ j i, j < 8 → i < 36 → bit (t.hif.hostRead.getD ((36 * j + i) / 8) 0) ((36 * j + i) % 8) =
            bit (s.rv.mem.word (8 * g + j)) i) ∧ t.rv.mem = s.rv.mem ∧ only t)) ∧
    (∀ (write : Bool) (x : HostBytes), x.ecrc = true → ∀ c ∈ [Instr.bar2Access dt write x, .bar4Access dt write x],
      exec c s = .next { late with hif := { s.hif with aer := s.hif.aer ||| 0x80000 } }) ∧
    (∀ x : HostBytes, x.ecrc = false → x.poisoned = true → ∀ c ∈ [Instr.bar2Access dt true x, .bar4Access dt true x],
      exec c s = .next { late with hif := { s.hif with aer := s.hif.aer ||| 0x1000 }, ferry := errs }) ∧
    (∀ x : HostBytes, x.ecrc = false →
      let zeros := { s.hif with hostRead := List.replicate x.bytes.length 0 }
      (reservoirReady s = false → x.poisoned = false → ∀ c ∈ [Instr.bar2Access dt true x, .bar4Access dt true x],
        exec c s = .next { late with ferry := errs }) ∧
      (reservoirReady s = false → ∀ c ∈ [Instr.bar2Access dt false x, .bar4Access dt false x],
        exec c s = .next { late with ferry := errs, hif := zeros }) ∧
      (0x480000 ≤ x.offset → x.poisoned = false → exec (.bar4Access dt true x) s = .next { late with ferry := errs }) ∧
      (0x480000 ≤ x.offset → exec (.bar4Access dt false x) s = .next { late with ferry := errs, hif := zeros })) ∧
    (∀ (p : PcioReq) (rest : List PcioReq) (data : List Word), s.wharf.pcio = p :: rest → hostUp s = true →
      ∃ t, exec (.pcioAccess dt data) s = .next t ∧ t.wharf.pcio = rest ∧ SameMemory s t ∧ t.barges = s.barges ∧
        (p.req.tx.write = true → t.wharf.resps = s.wharf.resps ∧
          (∀ a, a < p.haddr.toNat ∨ p.haddr.toNat + 8 * p.words ≤ a → kget t.hif.hostMem a = kget s.hif.hostMem a) ∧
          ∀ j i, j < p.words → i < 8 → (∀ k, k < 4 → txEnabled p.req.tx (4 * j + k) = true) →
            kget t.hif.hostMem (p.haddr.toNat + 8 * j + i) = some (slotByte (p.req.tx.data.getD j 0) i)) ∧
        (p.req.tx.write = false → t.hif.hostMem = s.hif.hostMem ∧ (p.req.drop = false →
          ∃ r, t.wharf.resps = s.wharf.resps ++ [r] ∧ r.init = p.req.init ∧ r.id = p.req.tx.id ∧ r.status = .ok ∧
            r.data = (List.range p.words).map fun j => data.getD j 0))) ∧
    (∀ (before : List PcioReq) (p : PcioReq) (rest : List PcioReq), s.wharf.pcio = before ++ p :: rest →
      (∀ q ∈ before, q.req.tx.write = true) → p.req.tx.write = false →
      let fails (t : State) (kind : Nat) := t.wharf.pcio = before ++ rest ∧
        t.wharf.refCnt = (if s.wharf.cnten then s.wharf.refCnt + 1 else s.wharf.refCnt) ∧
        t.ferry.errInit.toNat = p.req.init.val ∧ t.ferry.errWr = false ∧ t.ferry.errCnt = s.ferry.errCnt + 1 ∧
        t.ferry.errKind.toNat = kind ∧ (p.req.drop = false → ∃ r, t.wharf.resps = s.wharf.resps ++ [r] ∧ r.init = p.req.init ∧
          r.id = p.req.tx.id ∧ r.status = .refused ∧ r.data = []) ∧
        (if s.vectorOpen 15 then t.hif.sent.get 15 = s.hif.sent.get 15 + 1 else t.hif.pba = s.hif.pba ||| 0x8000) ∧
        SameMemory s t ∧ t.barges = s.barges
      (∀ kind : HostEnd, kind ≠ .ok → (kind = .timeout → s.hif.ctoDis = false) →
        ∃ t, exec (.pcioFailure dt kind) s = .next t ∧ fails t (match kind with
          | .timeout => 1
          | .urca => 2
          | _ => 3) ∧
        (kind = .timeout → t.hif.aer = s.hif.aer ||| 0x4000) ∧ (kind = .poisoned → t.hif.aer = s.hif.aer ||| 0x1000)) ∧
      (hostUp s = false → ∀ data, ∃ t, exec (.pcioAccess dt data) s = .next t ∧ fails t 0)) ∧
    (∀ kind, kind = .ok ∨ (kind = .timeout ∧ s.hif.ctoDis = true) → exec (.pcioFailure dt kind) s = .next late) ∧
    ((∀ q ∈ s.wharf.pcio, q.req.tx.write = true) → (∀ kind, exec (.pcioFailure dt kind) s = .next late) ∧
      (hostUp s = false ∨ s.wharf.pcio = [] → ∀ data, exec (.pcioAccess dt data) s = .next late)) ∧
    (∃ t, exec (.flr dt) s = .next t ∧ cleared t ∧ t.hif.bme = false ∧ t.hif.l1En = s.hif.l1En ∧ t.hif.mps = s.hif.mps ∧
      t.hif.aer = s.hif.aer) ∧
    (∃ t, exec (.perst dt) s = .next t ∧ cleared t ∧ t.hif.bme = false ∧ t.hif.l1En = false ∧ t.hif.inL1 = false ∧
      t.hif.mps = 0 ∧ t.hif.aer = 0 ∧ t.hif.subsys = s.hif.subsysStore.getD (0x1F5C, 0x7240))

/-- INGRESS_GO, INGRESS_DONE, EQ_PUSH, FERRY_STRM_WRITE, EGRESS_WRITE (R368 to R371, R373, R377): GO starts an idle engine on a legal
descriptor with BARGE, BEN and MEN as they stand, and sets ERR otherwise; the words that arrived are written in turn, with DONE where
all were, and DONE or ERR raises source 52 + e and vector 10 + e; PUSH appends a legal descriptor to a queue below 8; a posted write
carries the next bytes of the words at WADDR, of the stream FIFO or of the Harbourmaster's own transfer, keeps to the payload size, the
page and the quantum, reads no word twice, and ends its descriptor with the last; a word that cannot be read fails it. Addresses here are
the Reservoir's. The model's choices: an engine's Wharf accesses are made in its command's step (log entry 49); a posted write is as large
as its limits allow (log entry 50); requester 12's transfers (log entry 91). -/
def Obligations.EnginesMoveTheirWords : Prop :=
  ∀ (s : State) (dt : Nat), Available s → MemoriesCanonical s →
    let late := s.elapse dt
    let signals (t : State) (e : Fin 4) (barge : BitVec 6) (ben men : Bool) : Prop :=
      let vec : Fin 64 := ⟨10 + e.val, by omega⟩
      OnlyRequests s t ∧ (ben = false → t.barges = s.barges) ∧
      (ben = true → ∀ g : BargeIx, g.val = barge.toNat → ((t.barges.get g).intc.get ⟨52 + e.val, by omega⟩).pend = true) ∧
      (men = false → t.hif.sent = s.hif.sent ∧ t.hif.pba = s.hif.pba) ∧
      (men = true → if s.vectorOpen vec then t.hif.sent.get vec = s.hif.sent.get vec + 1 ∧ t.hif.pba = s.hif.pba
        else t.hif.sent = s.hif.sent ∧ t.hif.pba = s.hif.pba ||| BitVec.ofNat 64 (2 ^ vec.val))
    (∀ e : Fin 4, let x := s.ferry.ig.get e
      let put (y : Ingress) (t : State) := t = { late with events := t.events, ferry := { s.ferry with ig := vput s.ferry.ig e y } }
      let legal := x.fmt ≠ 3 ∧ x.len ≠ 0 ∧ (x.fmt = 1 → x.len.toNat % 8 = 0) ∧ x.waddr.toNat % 4 = 0 ∧ x.haddr.toNat % 4 = 0
      (x.busy = false → legal → ∃ t, exec (.ingressGo dt e) s = .next t ∧ put { x with
        busy := true, run := some (x.waddr, x.len.toNat, x.fmt), runBarge := x.barge, runBen := x.ben, runMen := x.men } t) ∧
      (x.busy = true ∨ ¬ legal → ∃ t, exec (.ingressGo dt e) s = .next t ∧ signals t e x.barge x.ben x.men ∧
        t = { late with
          events := t.events
          barges := t.barges
          hif := { s.hif with sent := t.hif.sent, pba := t.hif.pba }
          ferry := { s.ferry with ig := vput s.ferry.ig e { x with err := true } } })) ∧
    (∀ (e : Fin 4) (k len : Nat) (waddr : BitVec 32) (fmt : BitVec 2) (data : List Byte) (how : HostEnd),
      let x := s.ferry.ig.get e
      let m := min len (fmtWords fmt.toNat data.length)
      let ends : Prop := how = .timeout → s.hif.ctoDis = false
      x.run = some (waddr, len, fmt) →
      (waddr.toNat = 0x10000000 + 4 * k → k + len ≤ 1048576 → hostUp s = true → (how = .ok → m = len) → ends → ReservoirFree late →
        ∃ t, exec (.ingressDone dt e data how) s = .next t ∧ (t.ferry.ig.get e).busy = false ∧ (t.ferry.ig.get e).run = none ∧
          (t.ferry.ig.get e).done = (x.done || how == .ok) ∧ (t.ferry.ig.get e).err = (x.err || how != .ok) ∧
          (∀ j, j < m → t.rv.mem.word (k + j) = fmtWord fmt.toNat data j) ∧
          (∀ a, a < 4 * k ∨ 4 * (k + m) ≤ a → t.rv.mem.nonet a = s.rv.mem.nonet a) ∧ t.basins = s.basins ∧
          signals t e x.runBarge x.runBen x.runMen) ∧
      (hostUp s = false ∨ (how = .ok ∧ m < len) ∨ ¬ ends → exec (.ingressDone dt e data how) s = .next late)) ∧
    (∀ (e : Fin 4) (data : List Byte) (how : HostEnd), (s.ferry.ig.get e).run = none →
      exec (.ingressDone dt e data how) s = .next late) ∧
    (∀ q : Fin 14, let x := s.ferry.eq.get q
      let flags (t : State) (y : EgReq) := t = { late with events := t.events, ferry := { s.ferry with eq := vput s.ferry.eq q y } }
      let legal := x.fmt ≠ 3 ∧ x.len ≠ 0 ∧ (x.fmt = 1 → x.len.toNat % 8 = 0) ∧ x.waddr.toNat % 4 = 0 ∧ x.haddr.toNat % 4 = 0
      (legal → x.queue.length < 8 → ∃ t, exec (.eqPush dt q) s = .next t ∧
        t = { late with ferry := { s.ferry with eq := t.ferry.eq } } ∧ (t.ferry.eq.get q).queue = x.queue ++
          [{ haddr := x.haddr, waddr := x.waddr, len := x.len.toNat, fmt := x.fmt, stream := x.stream && decide (12 ≤ q.val) }] ∧
        (t.ferry.eq.get q).full = x.full ∧ (t.ferry.eq.get q).failf = x.failf ∧
        (asks s q = false → (t.ferry.eq.get q).edges.head? = some (xclk late, true)) ∧
        (∀ p, p ≠ q → t.ferry.eq.get p = s.ferry.eq.get p)) ∧
      (legal → 8 ≤ x.queue.length → ∃ t, exec (.eqPush dt q) s = .next t ∧ flags t { x with full := true }) ∧
      (¬ legal → ∃ t, exec (.eqPush dt q) s = .next t ∧ flags t { x with failf := true })) ∧
    (∀ v : Word, exec (.ferryStrmWrite dt v) s = .next { late with ferry :=
      if s.ferry.strm.length < 256 then { s.ferry with strm := s.ferry.strm ++ [v] }
      else { s.ferry with strmdrop := satInc s.ferry.strmdrop } }) ∧
    (∀ (d : EgDesc) (rest : List EgDesc),
      let q := s.ferry.owner
      let x := s.ferry.eq.get q
      let f := d.fmt.toNat
      let n := chunkSize s q d
      let first := fmtWords f d.sent
      let read := first + d.held.length
      let ends : Prop := d.size ≤ d.sent + n
      let sends (t : State) (byte : Nat → Byte) (held : List Word) :=
        (∀ i, i < n → kget t.hif.hostMem (d.haddr.toNat + d.sent + i) = some (byte (d.sent + i))) ∧
        (∀ a, a < d.haddr.toNat + d.sent ∨ d.haddr.toNat + d.sent + n ≤ a → kget t.hif.hostMem a = kget s.hif.hostMem a) ∧
        t.ferry.egprog = s.ferry.egprog + BitVec.ofNat 36 n ∧ t.ferry.qpos = s.ferry.qpos + n ∧
        (let y := t.ferry.eq.get q
        (ends → y.queue = rest ∧ y.done = x.done + 1) ∧
          (¬ ends → y.queue = { d with sent := d.sent + n, held := held } :: rest ∧ y.done = x.done) ∧ y.fails = x.fails ∧
          y.credit = (if s.ferry.drawMode then x.credit - BitVec.ofNat 16 ((n + 63) / 64) else x.credit)) ∧
        (t.ferry.grant = false ↔ asks t q = false) ∧ (t.ferry.grant = false → t.ferry.parked = s.ferry.park) ∧
        (ends → t.ferry.sentAt = some (xclk late)) ∧
        (s.ferry.drawn = none → ∀ p, (t.ferry.eq.get p).bonus = (s.ferry.eq.get p).bonus) ∧
        (∀ set, s.ferry.drawn = some set → (t.ferry.eq.get q).bonus = 0 ∧ ∀ p, p ≠ q →
          (t.ferry.eq.get p).bonus = if bit set p.val ∧ (s.ferry.eq.get p).tickets ≠ 0 then satInc (s.ferry.eq.get p).bonus
            else (s.ferry.eq.get p).bonus) ∧ SameMemory s t ∧ t.barges = s.barges
      x.queue = d :: rest → d.fmt ≠ 3 → (d.fmt = 1 → d.len % 8 = 0) →
      (s.ferry.grant = true → s.ferry.voidAt = none → s.ferry.entry = none → hostUp s = true → 0 < n →
        (n ≤ 128 * 2 ^ s.hif.mps.toNat ∧ n ≤ 512 ∧ s.ferry.qpos + n ≤ 4096 ∧ (d.haddr.toNat + d.sent) % 4096 + n ≤ 4096 ∧
          d.sent + n ≤ d.size) ∧
        (∀ o, d.own = some o → ∃ t, exec (.egressWrite dt) s = .next t ∧ sends t (fun i => o.bytes.getD i 0) [] ∧
          t.ferry.strm = s.ferry.strm ∧
          t.ferry.ownEnds = if ends then s.ferry.ownEnds ++ [(o.number, some o.bytes.length)] else s.ferry.ownEnds) ∧
        (d.own = none → d.stream = true → ∃ t, exec (.egressWrite dt) s = .next t ∧
          sends t (fmtByte f fun j => (streamOf s q).getD (j - first) 0) [] ∧
          streamOf t q = (streamOf s q).drop (fmtWords f (d.sent + n) - first)) ∧
        (∀ k, d.own = none → d.stream = false → d.waddr.toNat = 0x10000000 + 4 * k → k + d.len ≤ 1048576 →
          read ≤ fmtTouched f (d.sent + n) → ReservoirFree late →
          let word (j : Nat) : Word := if j < read then d.held.getD (j - first) 0 else s.rv.mem.word (k + j)
          ((∀ j, read ≤ j → j < fmtTouched f (d.sent + n) → s.rv.mem.isUe (k + j) = false) →
            ∃ t, exec (.egressWrite dt) s = .next t ∧ t.ferry.strm = s.ferry.strm ∧
              sends t (fmtByte f word) ((List.range (fmtTouched f (d.sent + n) - fmtWords f (d.sent + n))).map
                fun j => word (fmtWords f (d.sent + n) + j))) ∧
          (∀ j, read ≤ j → j < fmtTouched f (d.sent + n) → s.rv.mem.isUe (k + j) = true →
            ∃ t, exec (.egressWrite dt) s = .next t ∧ (t.ferry.eq.get q).queue = rest ∧
              (t.ferry.eq.get q).fails = x.fails + 1 ∧ (t.ferry.eq.get q).failf = true ∧ t.hif.hostMem = s.hif.hostMem ∧
              (if s.vectorOpen 14 then t.hif.sent.get 14 = s.hif.sent.get 14 + 1 else t.hif.pba = s.hif.pba ||| 0x4000) ∧
              t.ferry.egprog = s.ferry.egprog ∧ (t.ferry.grant = false ↔ asks t q = false) ∧ SameMemory s t))) ∧
      (s.ferry.grant = false ∨ s.ferry.voidAt ≠ none ∨ s.ferry.entry ≠ none ∨ hostUp s = false ∨ n = 0 →
        exec (.egressWrite dt) s = .next late)) ∧
    ((s.ferry.eq.get s.ferry.owner).queue = [] → exec (.egressWrite dt) s = .next { late with
      ferry := if s.ferry.grant = true ∧ s.ferry.voidAt = none ∧ asks s s.ferry.owner = false then
          { s.ferry with grant := false, parked := s.ferry.park, drawn := none }
        else s.ferry })

/-- EGRESS_DRAW, CREDIT_REFILL, ERST (R371 to R376): a draw considers the requesters whose lines were registered two XCLK before it takes
effect; a lottery draw falls on the one whose tickets and bonus cover (L · total) >> 32, with no tickets asking on the first after the last
owner; a credit draw on the greatest CREDIT, ties to the lowest index; a winner whose queue has emptied has the grant void for one XCLK;
a parked requester that asks alone resumes; a holder keeps its quantum; a window sets every CREDIT to 16 · SHARE once, in the mode of the
latest draw; ERST fails the holder's descriptor, but one whose last write left in its XCLK. What a void grant leaves, and by which XCLK's
line a parked requester resumes, is log entry 52, and GRANTS of a quantum without a draw log entry 50. -/
def Obligations.EgressIsSharedByDraws : Prop :=
  ∀ (s : State) (dt : Nat), Available s →
    let f := s.ferry
    let late := s.elapse dt
    let who := ixs 14 fun q => lineBy late 2 q
    let eff (q : Fin 14) : Nat := if (f.eq.get q).tickets = 0 then 0 else (f.eq.get q).tickets.toNat + (f.eq.get q).bonus.toNat
    let sumOf (p : Fin 14 → Bool) : Nat := ((who.filter p).map eff).sum
    let total := sumOf fun _ => true
    let v := (lfsrDrawn late).toNat * total / 2 ^ 32
    let keeps (t : State) := (∀ q, (t.ferry.eq.get q).queue = (f.eq.get q).queue ∧ (t.ferry.eq.get q).bonus = (f.eq.get q).bonus ∧
      (t.ferry.eq.get q).credit = (f.eq.get q).credit ∧ (t.ferry.eq.get q).tickets = (f.eq.get q).tickets) ∧ t.ferry.entry = f.entry ∧
      t = { late with ferry := t.ferry }
    let granted (w : Fin 14) (t : State) := t.ferry.owner = w ∧ t.ferry.grant = true ∧ t.ferry.parked = false ∧
      t.ferry.qpos = 0 ∧ t.ferry.voidAt = none ∧ (t.ferry.eq.get w).grants = (f.eq.get w).grants + 1 ∧
      (∀ q, q ≠ w → (t.ferry.eq.get q).grants = (f.eq.get q).grants) ∧ keeps t
    let drawn (w : Fin 14) := ∃ t, exec (.egressDraw dt) s = .next t ∧ t.ferry.drawMode = f.credMode ∧
      if asks s w = false then t.ferry.owner = w ∧ t.ferry.grant = true ∧ t.ferry.voidAt = some (xclk late) ∧
        t.ferry.drawn = none ∧ (∀ q, (t.ferry.eq.get q).grants = (f.eq.get q).grants) ∧ keeps t
      else granted w t
    let resumes := f.parked = true ∧ asks s f.owner = true ∧ lineBy late 1 f.owner = true ∧
      ∀ q, q ≠ f.owner → lineBy late 1 q = false
    let free := f.voidAt = none ∧ f.grant = false ∧ ¬ resumes ∨ f.voidAt = none ∧ f.grant = true ∧ 4096 ≤ f.qpos ∧ (∃ q ∈ who, q ≠ f.owner) ∨
      f.voidAt.any (fun k => k != xclk late) = true
    (free → who ≠ [] → f.credMode = false → 0 < total →
      ∃ w ∈ who, sumOf (fun q => decide (q < w)) ≤ v ∧ v < sumOf (fun q => decide (q ≤ w)) ∧ drawn w) ∧
    (free → who ≠ [] → f.credMode = false → total = 0 →
      ∃ w ∈ who, (∀ q ∈ who, (w.val + 13 - f.owner.val) % 14 ≤ (q.val + 13 - f.owner.val) % 14) ∧ drawn w) ∧
    (free → who ≠ [] → f.credMode = true →
      ∃ w ∈ who, (∀ q ∈ who, (f.eq.get q).credit.toInt ≤ (f.eq.get w).credit.toInt ∧
        ((f.eq.get q).credit = (f.eq.get w).credit → w ≤ q)) ∧ drawn w) ∧
    (free → who = [] → ∃ t, exec (.egressDraw dt) s = .next t ∧ keeps t ∧ t.ferry.grant = false ∧ t.ferry.voidAt = none ∧
      t.ferry = { f with grant := false, voidAt := none, drawMode := f.credMode, eq := t.ferry.eq } ∧
      (f.voidAt = none → t.ferry.eq = f.eq) ∧ ∀ q, t.ferry.eq.get q = { f.eq.get q with askAt := (t.ferry.eq.get q).askAt }) ∧
    (f.voidAt = none → f.grant = false → resumes → ∃ t, exec (.egressDraw dt) s = .next t ∧ granted f.owner t) ∧
    (f.voidAt = none → f.grant = true → f.qpos < 4096 → exec (.egressDraw dt) s = .next late) ∧
    (f.voidAt = some (xclk late) → exec (.egressDraw dt) s = .next late) ∧
    (f.voidAt = none → f.grant = true → 4096 ≤ f.qpos → (∀ q ∈ who, q = f.owner) →
      exec (.egressDraw dt) s = .next { late with ferry := { f with qpos := 0 } }) ∧
    (f.window < xclk late / 4096 →
      ∃ t, exec (.creditRefill dt) s = .next t ∧ t = { late with ferry := { f with eq := t.ferry.eq, window := xclk late / 4096 } } ∧
        ∀ q, t.ferry.eq.get q =
          if f.drawMode then { f.eq.get q with credit := BitVec.ofNat 16 (16 * (f.eq.get q).share.toNat) } else f.eq.get q) ∧
    (xclk late / 4096 ≤ f.window → exec (.creditRefill dt) s = .next late) ∧
    (∃ t, exec (.erst dt) s = .next t ∧ t.ferry.grant = false ∧ t.ferry.parked = false ∧ t.ferry.voidAt = none ∧
      t.ferry.entry = none ∧ (if s.vectorOpen 14 then t.hif.sent.get 14 = s.hif.sent.get 14 + 1 else t.hif.pba = s.hif.pba ||| 0x4000) ∧
      t.ferry.egrst = satInc f.egrst ∧ (∀ q, q ≠ f.owner → t.ferry.eq.get q = f.eq.get q) ∧
      (f.grant = true → (f.eq.get f.owner).queue ≠ [] → f.sentAt ≠ some (xclk late) →
        (t.ferry.eq.get f.owner).queue = (f.eq.get f.owner).queue.tail ∧
          (t.ferry.eq.get f.owner).fails = (f.eq.get f.owner).fails + 1 ∧ (t.ferry.eq.get f.owner).failf = true) ∧
      (f.grant = false ∨ (f.eq.get f.owner).queue = [] ∨ f.sentAt = some (xclk late) →
        (t.ferry.eq.get f.owner).queue = (f.eq.get f.owner).queue ∧
          (t.ferry.eq.get f.owner).fails = (f.eq.get f.owner).fails ∧ (t.ferry.eq.get f.owner).failf = (f.eq.get f.owner).failf) ∧
      (f.grant = true → f.owner = 12 → t.ferry.strm = []) ∧ (f.grant = true → f.owner = 13 → t.ferry.trace = []) ∧
      t.ferry.egprog = f.egprog ∧ t.hif.hostMem = s.hif.hostMem ∧ SameMemory s t ∧ t.barges = s.barges)

/-! ### The Harbourmaster's firmware (chapter 15) -/

/-- MAILBOX_TAKE, DEADLINE_EXPIRY and the checks that every command has (R379, R382, R384, R385): messages are taken in the order of
their doorbells, the lowest mailbox of one HCLK first, each from a free mailbox with its ring enabled; a wrong LEN, a missing session,
a version that lacks the command and a passed deadline complete it with BADLEN, NOHELLO, BADOP or DEADLINE and do nothing else; a deadline
in a 2.x session is BADARG. An expired command's wake is undone, and a command that has begun what it cannot take back does not expire. The
order of takes and completions, an unknown opcode's answer and the smallest LEN are the model's reading (log entry 60). -/
def Obligations.MailboxesAreTakenAndChecked : Prop :=
  ∀ (s : State) (dt : Nat) (k : Fin 4), Available s → s.fw.up = true →
    let u := s.elapse dt
    let still (t : State) := SameMemory s t ∧ t.kp = u.kp ∧ t.weir = s.weir ∧ PwmTrips s t ∧
      t.fio = s.fio ∧ t.tl = s.tl ∧ t.hif = s.hif ∧ t.fw.session = s.fw.session ∧ t.fw.image = s.fw.image
    let nothing (t : State) := OnlyRequests s t ∧ still t
    let ready (j : Fin 4) := bit s.hif.busy j.val = true ∧ s.fw.slot.get j = none ∧ s.fw.respDue.get j = false ∧
      (s.hif.ring.get j).en = true
    let first := ready k ∧ ∀ j : Fin 4, j ≠ k → ready j →
      s.hif.rungAt.get k < s.hif.rungAt.get j ∨ (s.hif.rungAt.get k = s.hif.rungAt.get j ∧ k < j)
    (first →
      ∃ t, exec (.mailboxTake dt k) s = .next t ∧ bit t.hif.busy k.val = false ∧
        t.hif.clearAt.get k = some ((s.now + dt) / 20) ∧
        (∀ j : Fin 4, j ≠ k → bit t.hif.busy j.val = bit s.hif.busy j.val ∧ t.fw.slot.get j = s.fw.slot.get j) ∧
        (opLength (mailboxCommand k u).op.toNat ≠ none → t.fw.slot.get k = some (mailboxCommand k u)) ∧
        (opLength (mailboxCommand k u).op.toNat = none → Completes u t k (mailboxCommand k u) 0x0001 []) ∧ t.hif.mb = s.hif.mb ∧
        SameMemory s t ∧ OnlyRequests s t ∧ t.kp = u.kp) ∧
    (¬ first → ∃ t, exec (.mailboxTake dt k) s = .next t ∧ t.fw = s.fw ∧ nothing t) ∧
    (∀ c, s.fw.slot.get k = some c →
      let passed := c.deadline ≠ 0 ∧ oldSession s = false ∧ c.takenAt / 20 + 600 * c.deadline.toNat < (s.now + dt) / 20
      (c.begun = false → passed → ∃ t, exec (.deadlineExpiry dt k) s = .next t ∧ Completes u t k c 0x000B [] ∧ QuietBarges s t ∧ still t) ∧
      (c.begun = true ∨ ¬ passed → ∃ t, exec (.deadlineExpiry dt k) s = .next t ∧ t.fw = s.fw ∧ nothing t)) ∧
    (∀ (c : FwCmd) (how : HostEnd) (mismatch : Bool) (differ : List Nat) (b f1 f2 key : List Byte) (writes : Option Nat),
      s.fw.slot.get k = some c → myTurn k c u = true →
      ∀ p ∈ ([(1, 4, .hello dt k), (2, 12, .info dt k), (3, 0, .resetHost dt k),
        (0x10, 36, .loadImage dt k b f1 f2 key writes how differ), (0x11, 6, .imageStat dt k), (0x20, 7, .role dt k),
        (0x30, 10, .taskStart dt k differ), (0x31, 10, .taskStop dt k mismatch), (0x38, 8, .keeper dt k mismatch),
        (0x40, 8, .claim dt k), (0x41, 6, .release dt k), (0x50, 8, .latTol dt k), (0x60, 20, .counters dt k),
        (0x70, 6, .reset dt k), (0x80, 2, .eventRoute dt k), (0x90, 17, .setTime dt k)] : List (BitVec 16 × Nat × Instr)), c.op = p.1 →
        (240 < c.len ∨ c.len < p.2.1 → ∃ t, exec p.2.2 s = .next t ∧ Completes u t k c 0x0002 [] ∧ nothing t) ∧
        (c.len ≤ 240 → p.2.1 ≤ c.len → s.fw.session = none → p.1 ≠ 1 → p.1 ≠ 3 →
          ∃ t, exec p.2.2 s = .next t ∧ Completes u t k c 0x0004 [] ∧ nothing t) ∧
        (∀ v, c.len ≤ 240 → p.2.1 ≤ c.len → s.fw.session = some v → v.toNat < opVersion c →
          ∃ t, exec p.2.2 s = .next t ∧ Completes u t k c 0x0001 [] ∧ nothing t) ∧
        (∀ v, c.len ≤ 240 → p.2.1 ≤ c.len → s.fw.session = some v → opVersion c ≤ v.toNat → v.toNat < 0x0300 → c.deadline ≠ 0 →
          ∃ t, exec p.2.2 s = .next t ∧ Completes u t k c 0x0003 [] ∧ nothing t) ∧
        (∀ v, c.len ≤ 240 → p.2.1 ≤ c.len → s.fw.session = some v → v = 0x0301 → c.deadline ≠ 0 → c.begun = false →
          c.takenAt / 20 + 600 * c.deadline.toNat < (s.now + dt) / 20 →
          ∃ t, exec p.2.2 s = .next t ∧ Completes u t k c 0x000B [] ∧ nothing t))

/-- HELLO, RESET_HOST, EVENT_ROUTE, SET_TIME, LAT_TOL, EVENT_POST (R339, R348, R357, R381, R383, R392, R395, R398): a session opens at the
highest version both sides support; RESET_HOST ends it, sets every epoch to 1 and answers nothing; a route, the station time, its trim
and a tolerance take their values; a basin goes to the state that its tolerance allows; events leave in order, LOST first, and one that
finds its ring full is counted. What the firmware writes through the Wharf waits while a transaction of port HM is outstanding (log entry
62); the order and the stamps of events are the model's reading (log entry 70), and so is what RESET_HOST leaves (log entry 51). -/
def Obligations.SessionsToleranceAndEvents : Prop :=
  ∀ (s : State) (dt : Nat) (k : Fin 4) (c : FwCmd), Available s →
    let u := s.elapse dt
    (CommandRuns u k c 1 → s.fw.session = none →
      (∀ v ∈ [0x0200, 0x0201, 0x0300, 0x0301], c.arg 0 2 ≤ v → v ≤ c.arg 2 2 →
        (∀ w ∈ [0x0200, 0x0201, 0x0300, 0x0301], w ≤ c.arg 2 2 → w ≤ v) →
        ∃ t, exec (.hello dt k) s = .next t ∧ t.fw.session = some (BitVec.ofNat 16 v) ∧ Completes u t k c 0
          (leNum 2 v ++ leNum 2 0x0200 ++ leNum 2 0x0301 ++ leNum 4 (bitsN (firmwareVersion s) 16 16)) ∧ SameMemory s t ∧
          OnlyRequests s t ∧ t.kp = u.kp) ∧
      ((∀ v ∈ [0x0200, 0x0201, 0x0300, 0x0301], v < c.arg 0 2 ∨ c.arg 2 2 < v) →
        ∃ t, exec (.hello dt k) s = .next t ∧ t.fw.session = none ∧
          Completes u t k c 0x0005 (leNum 2 0x0200 ++ leNum 2 0x0301))) ∧
    (CommandRuns u k c 1 → s.fw.session ≠ none →
      ∃ t, exec (.hello dt k) s = .next t ∧ t.fw.session = s.fw.session ∧ Completes u t k c 0x0006 (leNum 4 0)) ∧
    (CommandRuns u k c 3 →
      ∃ t, exec (.resetHost dt k) s = .next t ∧ t.fw.session = none ∧ (∀ j, t.fw.slot.get j = none) ∧
        (∀ j, (t.fw.rings.get j).queue = []) ∧ (∀ i, t.fw.epBasin.get i = 1) ∧ (∀ i, t.fw.epBarge.get i = 1) ∧
        (∀ i, t.fw.epWeir.get i = 1) ∧ (∀ i, t.fw.epPwm.get i = 1) ∧ (∀ i, t.fw.epFi.get i = 1) ∧ (∀ i, t.fw.epFo.get i = 1) ∧
        (∀ i, t.fw.epLink.get i = 1) ∧ (∀ i, t.fw.epTb.get i = 1) ∧ (∀ i, t.fw.epBall.get i = 1) ∧
        (∀ i, t.fw.latTol.get i = 0) ∧ t.hif.busy = 0 ∧ (∀ q, (t.ferry.eq.get q).queue = []) ∧ t.ferry.credMode = true ∧
        t.fw.image = s.fw.image ∧ t.fw.tbOwner = s.fw.tbOwner ∧ t.kp = u.kp ∧ t.weir = s.weir ∧ PwmTrips s t ∧ t.fio = s.fio ∧
        t.tl = s.tl) ∧
    (CommandRuns u k c 0x80 →
      (∀ code : Fin 16, c.arg 0 1 = code.val → 1 ≤ code.val → code.val ≤ 10 → c.arg 1 1 ≤ 3 →
        ∃ t, exec (.eventRoute dt k) s = .next t ∧ (t.fw.route.get code).toNat = c.arg 1 1 ∧
          (∀ j, j ≠ code → t.fw.route.get j = s.fw.route.get j) ∧ Completes u t k c 0 [] ∧ SameMemory s t ∧ t.kp = u.kp) ∧
      (c.arg 0 1 < 1 ∨ 10 < c.arg 0 1 ∨ 3 < c.arg 1 1 →
        ∃ t, exec (.eventRoute dt k) s = .next t ∧ t.fw.route = s.fw.route ∧ Completes u t k c 0x0003 [])) ∧
    (CommandRuns u k c 0x90 →
      (c.arg 8 1 % 4 = 1 → s.kp.mode = .starting → s.crp.bhold = BitVec.allOnes 48 → s.wharf.cur.get 12 = 0 →
        ∃ t, exec (.setTime dt k) s = .next t ∧ t.crp.stTime = BitVec.ofNat 64 (c.arg 0 8) ∧ Completes u t k c 0 [] ∧
          SameMemory s t ∧ t.kp = u.kp ∧ ∀ g, t.barges.get g = { s.barges.get g with
            intc := (t.barges.get g).intc, lastSample := BitVec.ofNat 64 (c.arg 0 8) }) ∧
      (c.arg 8 1 % 4 = 1 → s.kp.mode ≠ .starting ∨ s.crp.bhold ≠ BitVec.allOnes 48 →
        ∃ t, exec (.setTime dt k) s = .next t ∧ t.crp.stTime = u.crp.stTime ∧ Completes u t k c 0x0006 (leNum 4 0)) ∧
      (c.arg 8 1 % 4 = 2 → c.arg 12 4 < 2 ^ 20 → c.arg 16 1 ≤ 1 → s.wharf.cur.get 12 = 0 →
        ∃ t, exec (.setTime dt k) s = .next t ∧ t.crp.stTime = u.crp.stTime ∧ t.crp.stIntvl.toNat = c.arg 12 4 ∧
          t.crp.stDir = decide (c.arg 16 1 = 1) ∧ Completes u t k c 0 [])) ∧
    (CommandRuns u k c 0x50 → c.arg 0 1 = 12 → s.wharf.cur.get 12 = 0 →
      (c.arg 4 4 = 0xFFFFFFFF → ∃ t, exec (.latTol dt k) s = .next t ∧ bit t.ferry.ltr 13 = false ∧ Completes u t k c 0 []) ∧
      (∀ e, e ≤ 5 → c.arg 4 4 < 0xFFFFFFFF → c.arg 4 4 / 32 ^ e ≤ 1023 → (∀ j, j < e → 1023 < c.arg 4 4 / 32 ^ j) →
        ∃ t, exec (.latTol dt k) s = .next t ∧ bitsN t.ferry.ltr 0 10 = c.arg 4 4 / 32 ^ e ∧ bitsN t.ferry.ltr 10 3 = e ∧
          bit t.ferry.ltr 13 = true ∧ Completes u t k c 0 [] ∧ SameMemory s t ∧ QuietBarges s t ∧ t.kp = u.kp)) ∧
    (∀ n : BasinIx, CommandRuns u k c 0x50 → c.arg 0 1 = n.val → loading s k n = false →
      let p := s.crp.bpwr.get n
      ∃ t, exec (.latTol dt k) s = .next t ∧ (vgetN t.fw.latTol n.val 0).toNat = c.arg 4 4 ∧ Completes u t k c 0 [] ∧
        t.kp = u.kp ∧ t.weir = s.weir ∧ PwmTrips s t ∧ SameMemory s t ∧ QuietBarges s t ∧
        (vheld s n = false → p.cur = 0 → p.target = none → p.later = none → p.req.toNat ≤ 1 →
          (c.arg 4 4 < 30000 → (t.crp.bpwr.get n).autob1 = decide (500 ≤ c.arg 4 4) ∧ (t.crp.bpwr.get n).target = none) ∧
          (30000 ≤ c.arg 4 4 → allHeld s n = true → delivers s n = false → loadingInto s n = false →
            (t.crp.bpwr.get n).target = some (if c.arg 4 4 < 3000000 then 2 else 3)))) ∧
    (s.fw.up = true → (∀ r, (s.fw.rings.get r).lost = 0 ∨ 64 ≤ eventsWaiting (s.fw.rings.get r)) →
      let posted := u.crp.stTime.toNat % 2 ^ 32 / 1000
      let joins (r : Fin 4) (e : List Byte) (t : State) :=
        if eventsWaiting (s.fw.rings.get r) < 64 then (t.fw.rings.get r).queue = (s.fw.rings.get r).queue ++ [e]
        else (t.fw.rings.get r).queue = (s.fw.rings.get r).queue ∧ (t.fw.rings.get r).lost = (s.fw.rings.get r).lost + 1
      (∀ stamp ep x rest, s.fw.notices = (stamp, ep, x) :: rest →
        let e := noticeEvent ep x
        let r : Fin 4 := (vgetN s.fw.route e.1 0).toFin
        ∃ t, exec (.eventPost dt) s = .next t ∧ t.fw.notices = rest ∧
          joins r (ringEntry 2 e.1 0 0xFF ((s.fw.rings.get r).seq + 1).toNat (stamp.toNat / 1000) e.2) t ∧
          (∀ j, j ≠ r → t.fw.rings.get j = s.fw.rings.get j) ∧ SameMemory s t ∧ OnlyRequests s t ∧ t.kp = u.kp) ∧
      (∀ w rest, s.fw.notices = [] → s.kp.powered = true → logHead u = some w → s.kp.log = w :: rest →
        let r : Fin 4 := (s.fw.route.get 2).toFin
        ∃ t, exec (.eventPost dt) s = .next t ∧ t.kp = { u.kp with log := rest } ∧
          joins r (ringEntry 2 0x02 0 0xFF ((s.fw.rings.get r).seq + 1).toNat posted (leNum 8 w.toNat)) t ∧
          (∀ j, j ≠ r → t.fw.rings.get j = s.fw.rings.get j) ∧ SameMemory s t ∧ OnlyRequests s t) ∧
      (s.fw.notices = [] → s.kp.powered = false ∨ logHead u = none →
        ∃ t, exec (.eventPost dt) s = .next t ∧ t.fw = s.fw ∧ t.kp = u.kp)) ∧
    (∀ r : Fin 4, s.fw.up = true →
      (∀ j, j < r → (s.fw.rings.get j).lost = 0 ∨ 64 ≤ eventsWaiting (s.fw.rings.get j)) → (s.fw.rings.get r).lost ≠ 0 →
      eventsWaiting (s.fw.rings.get r) < 64 →
      ∃ t, exec (.eventPost dt) s = .next t ∧ (t.fw.rings.get r).lost = 0 ∧ t.fw.notices = s.fw.notices ∧
        (t.fw.rings.get r).queue = (s.fw.rings.get r).queue ++ [ringEntry 2 0x08 0 0xFF ((s.fw.rings.get r).seq + 1).toNat
          (u.crp.stTime.toNat % 2 ^ 32 / 1000) (leNum 4 (s.fw.rings.get r).lost.toNat)])

/-- CLAIM, RELEASE, ROLE, RESET (R292, R387, R388, R391, R392, R397): a claim of a resource that nobody owns gives it, its partner and
their balls to (basin, world) and increases its epoch, one of an owned resource is BUSY and changes nothing; a release disowns; a role
holds or releases its barge; a reset does what its resource's own reset does. A wrong epoch is STALE_ROLE. The resources' words are as
they stand with the trip zones taken up to the command. The model's readings: an epoch rises in its event's step (log entry 61); the
firmware's accesses wait for port HM (log entry 62); what a claim writes, takes and tests (log entry 65) and what a release needs (log
entry 66); HELD for a standby (log entry 67). -/
def Obligations.ClaimsRolesAndResets : Prop :=
  ∀ (s : State) (dt : Nat) (k : Fin 4) (c : FwCmd), Available s →
    let u := followZones (s.elapse dt)
    let id := c.arg 0 4
    let kind := idKind id
    let i := idIndex id
    (∀ (n : BasinIx) (ep : BitVec 16), CommandRuns u k c 0x40 → 3 ≤ kind → kind ≤ 9 → epochOf s.fw kind i = some ep →
      c.arg 6 1 ≤ 1 → c.arg 7 1 = n.val → (c.arg 4 2 = 0 ∨ c.arg 4 2 = ep.toNat) →
      let world := c.arg 6 1 == 1
      let ws := givenWords c
      let v := configured kind i n world ws u
      (kind = 9 → (ws.headD 0).toNat ≤ 1) → bit (readyBits u) (readyBit kind i (ws.headD 0 == 1)) = true →
      foreignTimebase v kind i n world = none → loading u k n = false →
      (s.wharf.cur.get 12 = 0 → bit (cfgRead u kind i (enWord kind)) 0 = false → (∀ r ∈ claimSet v kind i, ownerOf s r.1 r.2 = none) →
        areaTaken v kind i = none → claimReason u v kind i = none → (enableAll (toEnable v kind i world) v).isSome = true →
        ∃ t, exec (.claim dt k) s = .next t ∧ ownerOf t kind i = some (n.val, world) ∧
          (∀ b, ballOf kind i = some b → ownerOf t 9 b.1 = some (n.val, world)) ∧
          epochOf t.fw kind i = some (nextEpoch ep) ∧ Completes u t k c 0 (leNum 2 (nextEpoch ep).toNat) ∧ t.kp = u.kp) ∧
      (∀ o, ownerOf s kind i = some o →
        ∃ t, exec (.claim dt k) s = .next t ∧ Completes u t k c 0x0008 (busyData u kind i o) ∧ t.weir = s.weir ∧ PwmTrips s t ∧
          t.fio = s.fio ∧ t.tl = s.tl ∧ epochOf t.fw kind i = some ep ∧ t.kp = u.kp)) ∧
    (∀ ep : BitVec 16, CommandRuns u k c 0x40 → 3 ≤ kind → kind ≤ 9 → epochOf s.fw kind i = some ep → c.arg 6 1 ≤ 1 →
      c.arg 7 1 < 12 → (kind = 9 → ((givenWords c).headD 0).toNat ≤ 1) → c.arg 4 2 ≠ 0 → c.arg 4 2 ≠ ep.toNat →
      ∃ t, exec (.claim dt k) s = .next t ∧ Completes u t k c 0x0007 (leNum 4 (resId kind i) ++ leNum 2 ep.toNat) ∧ t.weir = s.weir ∧
        PwmTrips s t ∧ t.fio = s.fio ∧ t.tl = s.tl ∧ t.kp = u.kp) ∧
    (∀ (o : Nat × Bool) (ep : BitVec 16), CommandRuns u k c 0x41 → 3 ≤ kind → kind ≤ 9 → epochOf s.fw kind i = some ep →
      (c.arg 4 2 = ep.toNat → s.wharf.cur.get 12 = 0 → boundByTask u kind i = false → ownerOf s kind i = some o →
        (∀ e : Fin 128, kind = 5 → e.val + 1 = i → e.val % 2 = 0 → ((s.fio.fi.get e).en && (s.fio.fi.get e).pair) = false) →
        ∃ t, exec (.release dt k) s = .next t ∧ ownerOf t kind i = none ∧ epochOf t.fw kind i = some (nextEpoch ep) ∧
          Completes u t k c 0 (leNum 2 (nextEpoch ep).toNat) ∧ t.kp = u.kp) ∧
      (c.arg 4 2 ≠ ep.toNat →
        ∃ t, exec (.release dt k) s = .next t ∧ Completes u t k c 0x0007 (leNum 4 (resId kind i) ++ leNum 2 ep.toNat) ∧
          t.weir = s.weir ∧ PwmTrips s t ∧ t.fio = s.fio ∧ t.tl = s.tl ∧ t.kp = u.kp)) ∧
    (∀ g : BargeIx, CommandRuns u k c 0x20 → kind = 2 → i = g.val → c.arg 4 2 = (s.fw.epBarge.get g).toNat →
      let next := nextEpoch (s.fw.epBarge.get g)
      (c.arg 6 1 = 0 → s.wharf.cur.get 12 = 0 → taskOn s g = false → loading u k (basinOf g) = false →
        ∃ t, exec (.role dt k) s = .next t ∧ bit t.crp.bhold g.val = true ∧
          t.fw.epBarge.get g = (if bit s.crp.bhold g.val then s.fw.epBarge.get g else next) ∧
          (∀ h : BargeIx, h ≠ g → bit t.crp.bhold h.val = bit s.crp.bhold h.val) ∧
          Completes u t k c 0 (leNum 2 (t.fw.epBarge.get g).toNat)) ∧
      (c.arg 6 1 = 1 → bit s.kp.retired g.val = false → (s.fw.image.get (basinOf g)).state = 2 →
        (s.fw.image.get (basinOf g)).stale = false → basinDown s (basinOf g) = false → awake s (basinOf g) = true →
        loading u k (basinOf g) = false → s.wharf.cur.get 12 = 0 →
        ∃ t, exec (.role dt k) s = .next t ∧ bit t.crp.bhold g.val = false ∧
          t.fw.epBarge.get g = (if bit s.crp.bhold g.val then next else s.fw.epBarge.get g) ∧
          (∀ h : BargeIx, h ≠ g → bit t.crp.bhold h.val = bit s.crp.bhold h.val) ∧
          Completes u t k c 0 (leNum 2 (t.fw.epBarge.get g).toNat)) ∧
      (c.arg 6 1 = 0 ∧ taskOn s g = true ∨
          c.arg 6 1 = 1 ∧ (bit s.kp.retired g.val = true ∨ (s.fw.image.get (basinOf g)).state ≠ 2) →
        ∃ t, exec (.role dt k) s = .next t ∧ t.crp.bhold = s.crp.bhold ∧ Completes u t k c 0x0006 (leNum 4 (resId 2 g.val)))) ∧
    (∀ n : BasinIx, CommandRuns u k c 0x70 → kind = 1 → i = n.val → c.arg 4 2 = (s.fw.epBasin.get n).toNat →
      loading u k n = false →
      (inReset s n = false → ∃ t, exec (.reset dt k) s = .next t ∧ (t.basins.get n).testing = true ∧
        (∀ g : BargeIx, basinOf g = n → bit t.crp.bhold g.val = true ∧ bit t.kp.retired g.val = false) ∧
        Completes u t k c 0 (leNum 2 (t.fw.epBasin.get n).toNat)) ∧
      (inReset s n = true → ∃ t, exec (.reset dt k) s = .next t ∧ t.crp.bhold = s.crp.bhold ∧
        t.fw.epBasin.get n = s.fw.epBasin.get n ∧ Completes u t k c 0 (leNum 2 (s.fw.epBasin.get n).toNat))) ∧
    (∀ g : BargeIx, CommandRuns u k c 0x70 → kind = 2 → i = g.val → c.arg 4 2 = (s.fw.epBarge.get g).toNat →
      loading u k (basinOf g) = false → inReset s (basinOf g) = false →
      ∃ t, exec (.reset dt k) s = .next t ∧ bit t.crp.bhold g.val = true ∧ (t.barges.get g).rstinfo = 0x100 ∧
        Completes u t k c 0 (leNum 2 (t.fw.epBarge.get g).toNat)) ∧
    (∀ ep : BitVec 16, CommandRuns u k c 0x70 → 3 ≤ kind → kind ≤ 7 → epochOf s.fw kind i = some ep → c.arg 4 2 = ep.toNat →
      (ownerOf s kind i = none →
        ∃ t, exec (.reset dt k) s = .next t ∧ Completes u t k c 0x0009 (leNum 4 id) ∧ t.weir = s.weir ∧ PwmTrips s t ∧
          t.fio = s.fio ∧ t.tl = s.tl) ∧
      (ownerOf s kind i ≠ none →
        ∃ t, exec (.reset dt k) s = .next t ∧ epochOf t.fw kind i = some (nextEpoch ep) ∧
          Completes u t k c 0 (leNum 2 (nextEpoch ep).toNat) ∧ t.kp = u.kp ∧ SameMemory s t ∧ OnlyRequests s t ∧
          (kind = 3 → ∀ j : Fin 384, j.val / 8 = i / 8 → (t.weir.ch.get j).retired = false ∧
            t.fw.epWeir.get j = nextEpoch (s.fw.epWeir.get j)) ∧
          (∀ j : Fin 192, kind = 4 → i = j.val → PwmTrips (pwmReset j u) t) ∧
          (∀ j : Fin 128, kind = 5 → i = j.val → t.fio = (fiReset j u).fio) ∧
          (∀ j : Fin 128, kind = 6 → i = j.val → t.fio = (foReset j u).fio) ∧
          (∀ j : Fin 16, kind = 7 → i = j.val → t.tl = (tlReset j u).tl)))

/-- TASK_START, TASK_STOP, KEEPER (R175, R187, R394, R402, R412): TASK_START and TASK_STOP reach the Keeper, in their turn within the KCLK,
for a task that an image of the named basin loaded, KEEPER carries its other commands, KP_CFG and KP_DSEED; what the Keeper refuses, or the
processors present differently, completes with KEEPER and KP_CMDST; an op that names a barge of a basin under LOAD_IMAGE is BUSY. The
turn is log entry 35's, and what KEEPER answers for KP_CFG and KP_DSEED log entry 67's. -/
def Obligations.TasksReachTheKeeper : Prop :=
  ∀ (s : State) (dt : Nat) (k : Fin 4) (c : FwCmd), Available s → s.kp.powered = true →
    let u := s.elapse dt
    let turn := inOrder u 5 = true
    let staged5 : Keeper := { u.kp with stageAt := u.kp.kt, stage := 5 }
    let waits (v : State) := v.fw.slot.get k = some c ∧ v.kp = u.kp
    (∀ (n : BasinIx) (t : Fin 256), basinOfId (c.arg 4 4) = some n → c.arg 0 2 = t.val → c.arg 8 2 = (s.fw.epBasin.get n).toNat →
      s.fw.taskFrom.get t = some n → s.fw.taskUsable.get t = true → s.fw.taskStale.get t = false → loading u k n = false →
      (CommandRuns u k c 0x30 → basinDown s n = false → awake s n = true → halted s (s.kp.tasks.get t).barge = false →
        ((s.kp.tasks.get t).stbyen = true → halted s (s.kp.tasks.get t).stby = false) →
        (turn → commandResult u 3 (BitVec.ofNat 8 t.val) = 0 → ∀ d, 0 ∉ d →
          ∃ v, exec (.taskStart dt k d) s = .next v ∧ (v.kp.tasks.get t).tstate = 1 ∧
            (∀ j, j ≠ t → v.kp.tasks.get j = s.kp.tasks.get j) ∧ v.kp.cmdResult = 0 ∧ v.kp.mode = s.kp.mode ∧
            Completes u v k c 0 []) ∧
        (turn → commandResult u 3 (BitVec.ofNat 8 t.val) ≠ 0 → ∀ d, 0 ∉ d →
          ∃ v, exec (.taskStart dt k d) s = .next v ∧ v.kp.tasks = s.kp.tasks ∧
            Completes u v k c 0x0010 (leNum 4 (keeperRead v 3).toNat)) ∧
        (turn → ∀ d, 0 ∈ d → ∃ v, exec (.taskStart dt k d) s = .next v ∧ v.kp = { staged5 with lerr := true } ∧
            Completes u v k c 0x0010 (leNum 4 (keeperRead v 3).toNat)) ∧
        (¬ turn → ∀ b, ∃ v, exec (.taskStart dt k b) s = .next v ∧ waits v)) ∧
      (CommandRuns u k c 0x31 →
        (turn → commandResult u 4 (BitVec.ofNat 8 t.val) = 0 →
          ∃ v, exec (.taskStop dt k false) s = .next v ∧ (v.kp.tasks.get t).tstate = 0 ∧
            (∀ j, j ≠ t → v.kp.tasks.get j = s.kp.tasks.get j) ∧ v.kp.cmdResult = 0 ∧ Completes u v k c 0 []) ∧
        (turn → ∃ v, exec (.taskStop dt k true) s = .next v ∧ v.kp = { staged5 with lerr := true } ∧
            Completes u v k c 0x0010 (leNum 4 (keeperRead v 3).toNat)) ∧
        (¬ turn → ∀ b, ∃ v, exec (.taskStop dt k b) s = .next v ∧ waits v))) ∧
    (∀ (n : BasinIx) (t : Fin 256) (b : Bool) (d : List Nat), basinOfId (c.arg 4 4) = some n → c.arg 0 2 = t.val →
      c.arg 8 2 = (s.fw.epBasin.get n).toNat → s.fw.taskFrom.get t ≠ some n ∨ s.fw.taskUsable.get t = false →
      (CommandRuns u k c 0x30 →
        ∃ v, exec (.taskStart dt k d) s = .next v ∧ v.kp = u.kp ∧ Completes u v k c 0x0006 (leNum 4 (resId 1 n.val))) ∧
      (CommandRuns u k c 0x31 →
        ∃ v, exec (.taskStop dt k b) s = .next v ∧ v.kp = u.kp ∧ Completes u v k c 0x0006 (leNum 4 (resId 1 n.val)))) ∧
    (CommandRuns u k c 0x38 → ∀ b, c.arg 0 1 ∉ [1, 2, 5, 6, 7, 8, 9, 16, 17] →
      ∃ v, exec (.keeper dt k b) s = .next v ∧ v.kp = u.kp ∧ Completes u v k c 0x0003 []) ∧
    (∀ n, CommandRuns u k c 0x38 → keeperBasin c = some n → loading u k n = true →
      ∀ b, ∃ v, exec (.keeper dt k b) s = .next v ∧ v.kp = u.kp ∧ Completes u v k c 0x0008 (busyData u 1 n.val (n.val, false))) ∧
    (CommandRuns u k c 0x38 → (∀ n, keeperBasin c = some n → loading u k n = false) →
      (turn → ∀ op ∈ [1, 2, 5, 6, 7, 8, 9], c.arg 0 1 = op →
        ∃ v, exec (.keeper dt k false) s = .next v ∧
          v.kp = (keeperCommand op (BitVec.ofNat 8 (c.arg 1 1)) { u with kp := staged5 }).kp ∧
          Completes u v k c (if v.kp.cmdResult = 0 then 0 else 0x0010) (leNum 4 (keeperRead v 3).toNat)) ∧
      (turn → c.arg 0 1 = 16 → s.kp.mode = .starting ∨ s.kp.mode = .armed →
        ∃ v, exec (.keeper dt k false) s = .next v ∧ v.kp.comm = bit (BitVec.ofNat 36 (c.arg 4 4)) 20 ∧
          v.kp.k.toNat = c.arg 4 4 % 16 ∧ v.kp.w.toNat = c.arg 4 4 / 16 % 65536 ∧ v.kp.tasks = s.kp.tasks ∧
          Completes u v k c 0 (leNum 4 (keeperRead v 3).toNat)) ∧
      (turn → c.arg 0 1 = 17 → s.kp.mode = .starting →
        ∃ v, exec (.keeper dt k false) s = .next v ∧ v.kp = { staged5 with date := BitVec.ofNat 32 (c.arg 4 4) } ∧
          Completes u v k c 0 (leNum 4 (keeperRead v 3).toNat)) ∧
      (turn → ∀ op ∈ [1, 2, 5, 6, 7, 8, 9, 16, 17], c.arg 0 1 = op →
        ∃ v, exec (.keeper dt k true) s = .next v ∧ v.kp = { staged5 with lerr := true } ∧
          Completes u v k c 0x0010 (leNum 4 (keeperRead v 3).toNat)) ∧
      (¬ turn → ∀ b, c.arg 0 1 ∈ [1, 2, 5, 6, 7, 8, 9, 16, 17] → ∃ v, exec (.keeper dt k b) s = .next v ∧ waits v))

/-- LOAD_IMAGE and IMAGE_STAT, INFO and COUNTERS (R354, R385, R392, R393, R397, R402, R404, R418): a load starts with a new basin epoch,
LOADING; an image that passes its checks is programmed, its data written, and is VALID; a signature that does not verify completes with
AUTH and leaves code and memory; a read that fails ends the load with HOSTERR, a deadline that passed before the writing pass with
DEADLINE, and one whose host is out of reach waits; INFO and COUNTERS give their words in slot form to requester 12 and complete when that
transfer ends. Hash and signature are uninterpreted (log entry 4). The registers are as they stand with the trip zones taken up to the
command. The model's readings: the steps of a load (log entry 62), a load that a reset ends (log entry 92), the transfer of a record
(log entry 91) and who owns what in it (log entry 68). -/
def Obligations.ImagesLoadAndRecordsAreCopied : Prop :=
  ∀ (s : State) (dt : Nat) (k : Fin 4) (c : FwCmd), Available s → MemoriesCanonical s →
    let u := followZones (s.elapse dt)
    let sameCode (t : State) := ∀ m p, ((t.basins.get m).code.get p).lines = ((s.basins.get m).code.get p).lines
    let still (t : State) := SameMemory s t ∧ OnlyRequests s t ∧ t.kp = u.kp
    let waits (t : State) := t.fw.slot.get k = some c ∧ t.fw.image = s.fw.image ∧ t.hif.hostMem = s.hif.hostMem ∧ still t
    let gives (t : State) (a : Nat) (bs : List Byte) := t.fw.slot.get k = some { c with sending := some s.ferry.ownBegun } ∧
      t.ferry.ownBegun = s.ferry.ownBegun + 1 ∧ t.hif.hostMem = s.hif.hostMem ∧ still t ∧
      (t.ferry.eq.get 12).queue = (s.ferry.eq.get 12).queue ++ [{
        haddr := BitVec.ofNat 64 a, waddr := 0, len := 0, fmt := 0, stream := false
        own := some { bytes := bs, number := s.ferry.ownBegun } }]
    let sent (i : Instr) (a buffer : Nat) (ws : List Word) :=
      let bs := (ws.flatMap fun w => leNum 8 w.toNat).take buffer
      (bs = [] → ∃ t, exec i s = .next t ∧ Completes u t k c 0 (leNum 4 0) ∧ still t) ∧
      (bs ≠ [] → (s.ferry.eq.get 12).queue.length < 8 → ∃ t, exec i s = .next t ∧ gives t a bs) ∧
      (bs ≠ [] → 8 ≤ (s.ferry.eq.get 12).queue.length → ∃ t, exec i s = .next t ∧ waits t)
    (∀ (n : BasinIx) (b f f2 key : List Byte) (bs : List Binding) (writes : Option Nat) (how : HostEnd) (d : List Nat),
      CommandRuns u k c 0x10 → basinOfId (c.arg 0 4) = some n →
      let j : LoadJob := { n := n, bs := bs, given := c.arg 16 4, first := f, second := f2, key := key, differ := d }
      let next := nextEpoch (s.fw.epBasin.get n)
      let comes : Prop := hostUp s = true ∧ (how = .timeout → s.hif.ctoDis = false)
      (c.started = none → loadBindings c b = some bs → c.arg 4 2 = (s.fw.epBasin.get n).toNat → loadRefused u j = none →
        hostUp s = true → basinDown u n = false → loading u k n = false → awake u n = true →
        ∃ t, exec (.loadImage dt k b f f2 key writes how d) s = .next t ∧ (t.fw.image.get n).state = 1 ∧ t.fw.epBasin.get n = next ∧
          t.fw.slot.get k = some { c with started := some bs } ∧ sameCode t ∧ still t) ∧
      (c.started = none ∨ (s.fw.image.get n).state = 1 → hostUp s = false →
        ∃ t, exec (.loadImage dt k b f f2 key writes how d) s = .next t ∧ sameCode t ∧ waits t) ∧
      (c.started = some bs → (s.fw.image.get n).state = 1 → comes →
        let new := (contentOf n bs f).1
        (f.length = j.given → f2 = f → verifyPass u j = none → (∃ ch, nvpFree u = some ch) → s.wharf.cur.get 12 = 0 →
          banksQuiet u n = true → late c u = false → keeperOf n bs f = [] ∨ inOrder u 5 = true →
          ∃ t, exec (.loadImage dt k b f f2 key none .ok d) s = .next t ∧ (t.fw.image.get n).state = 2 ∧
            (t.fw.image.get n).build = BitVec.ofNat 64 (imageBuild f) ∧ t.fw.epBasin.get n = s.fw.epBasin.get n ∧
            Completes u t k c 0 (leNum 8 (s.fw.epBasin.get n).toNat ++ leNum 8 (imageBuild f)) ∧
            (∀ key l, (key, l) ∈ new.code → key < 16384 → ∀ p : Fin 4, p.val = key / 4096 →
              kget ((t.basins.get n).code.get p).lines (key % 4096) = some { data := l, crc := lineCrc l }) ∧
            (∀ a w, (a, w) ∈ new.data → a < 229376 → kget new.tf3 a = none → (t.basins.get n).mem.word a = w) ∧
            (∀ m, m ≠ n → ∀ p, ((t.basins.get m).code.get p).lines = ((s.basins.get m).code.get p).lines) ∧
            t.rv.mem = s.rv.mem) ∧
        (f.length = j.given → verifyPass u j = none → (∃ ch, nvpFree u = some ch) → s.wharf.cur.get 12 = 0 →
          banksQuiet u n = true → late c u = true →
          ∃ t, exec (.loadImage dt k b f f2 key none .ok d) s = .next t ∧ (t.fw.image.get n).state = 3 ∧
            Completes u t k c 0x000B [] ∧ sameCode t ∧ still t) ∧
        (f.length = j.given → headerFault f j.given = none → imageVerifies u key f = false → how = .ok ∨ writes ≠ none →
          ∃ t, exec (.loadImage dt k b f f2 key writes how d) s = .next t ∧ (t.fw.image.get n).state = 3 ∧
            Completes u t k c 0x000D [] ∧ sameCode t ∧ still t) ∧
        (how ≠ .ok →
          ∃ t, exec (.loadImage dt k b f f2 key none how d) s = .next t ∧ (t.fw.image.get n).state = 3 ∧
            Completes u t k c 0x0012 [] ∧ sameCode t ∧ still t)) ∧
      (c.started = some bs → (s.fw.image.get n).state ≠ 1 →
        ∃ t, exec (.loadImage dt k b f f2 key writes how d) s = .next t ∧ t.fw.image = s.fw.image ∧
          Completes u t k c 0x00FF [] ∧ sameCode t ∧ still t)) ∧
    (∀ n : BasinIx, CommandRuns u k c 0x11 → basinOfId (c.arg 0 4) = some n → c.arg 4 2 = (s.fw.epBasin.get n).toNat →
      loading u k n = false → let x := s.fw.image.get n
      ∃ t, exec (.imageStat dt k) s = .next t ∧ t.fw.image = s.fw.image ∧
        Completes u t k c 0 (leNum 8 x.state.toNat ++ leNum 8 x.build.toNat ++ leNum 8 x.secver.toNat) ∧ still t) ∧
    (CommandRuns u k c 0x02 → c.sending = none →
      (c.arg 0 8 % 8 = 0 → (infoRecord u).length = 1228 ∧ sent (.info dt k) (c.arg 0 8) (c.arg 8 4) (infoRecord u)) ∧
      (c.arg 0 8 % 8 ≠ 0 → ∃ t, exec (.info dt k) s = .next t ∧ t.hif.hostMem = s.hif.hostMem ∧ Completes u t k c 0x0003 [])) ∧
    (∀ (hi : Nat) (base : Option Nat), CommandRuns u k c 0x60 → c.sending = none →
      counterBlock (c.arg 0 1) (c.arg 1 1) = some (hi, base) → c.arg 8 8 % 8 = 0 → (∀ n, loading u k n = false) →
      s.wharf.cur.get 12 = 0 →
      ∃ ws, ws.length = hi + 1 ∧ sent (.counters dt k) (c.arg 8 8) (c.arg 16 4) ws ∧
        ∀ i, i ≤ hi → match base with
          | none => ws[i]? = some (if i = 0x200 then 0 else keeperRead u i)
          | some a => 1 ≤ c.arg 0 1 → c.arg 0 1 ≤ 7 → ws[i]? = some (((perRead (a + 4 * i) u).map fun r => r.1).getD 0)) ∧
    (CommandRuns u k c 0x60 → c.sending = none → counterBlock (c.arg 0 1) (c.arg 1 1) = none ∨ c.arg 8 8 % 8 ≠ 0 →
      ∃ t, exec (.counters dt k) s = .next t ∧ t.hif.hostMem = s.hif.hostMem ∧ Completes u t k c 0x0003 []) ∧
    (∀ p ∈ ([(2, .info dt k), (0x60, .counters dt k)] : List (BitVec 16 × Instr)), CommandRuns u k c p.1 →
      ∀ q, c.sending = some q →
      (∀ n, (s.ferry.ownEnds.find? fun e => e.1 == q) = some (q, some n) →
        ∃ t, exec p.2 s = .next t ∧ Completes u t k c 0 (leNum 4 n) ∧ still t) ∧
      ((s.ferry.ownEnds.find? fun e => e.1 == q) = some (q, none) →
        ∃ t, exec p.2 s = .next t ∧ Completes u t k c 0x0012 [] ∧ still t) ∧
      ((s.ferry.ownEnds.find? fun e => e.1 == q) = none → ∃ t, exec p.2 s = .next t ∧ waits t))

/-! ### Debug and security (chapter 16) -/

/-- NEWCHAL, VERIFY, VERIFY_COMPLETE, RELOCK, DRST, JTAG_UPDATE_IR, JTAG_UPDATE_DR, TAP_RESET (R85, R407 to R410, R413): a verification
consumes the challenge; only a fresh challenge, an eligible slot, no lockout and a signature that verifies unlock, a failure
counts, and the third locks out; DRST resumes the barges and keeps UNLOCKED; IDCODE shows the step; the EXTEST family loads in STARTING
alone and holds the Keeper; DBGACC and SECACC start one access where the lifecycle allows it, and DBGACC's waits for a place of its port.
The hash and the signature scheme are uninterpreted (log entry 4). The model's readings: an instruction that cannot load selects BYPASS,
and the codes of IDCODE and BYPASS (log entry 11); a VERIFY that cannot succeed starts and consumes the challenge (log entry 55); what DRST
restores (log entry 56); when SECACC completes (log entry 58); the bypass and boundary registers (log entry 95). -/
def Obligations.UnlockingAndJtagFollowTheLifecycle : Prop :=
  ∀ (s : State) (dt : Nat), Available s →
    let u := s.elapse dt
    let x := s.sec
    let only (y : Sec) : Out := .next { u with sec := y }
    let noted (o : Out) (y : Sec) := ∃ t, o = .next t ∧ Noted { u with sec := y } t
    (∀ r, exec (.newchal dt r) s = only (if x.vbusy = none then { x with chal := r, fresh := true } else x)) ∧
    (∀ slot : Fin 4, let can := x.fresh && !x.lockout && bit x.fuses.prog slot.val && bit x.fuses.dbg slot.val && !bit x.fuses.rev slot.val
      exec (.verify dt slot) s = only (if x.vbusy = none then { x with vbusy := some (slot, can), fresh := false } else x)) ∧
    (∀ (slot : Fin 4) (can : Bool) (key : List Byte), x.vbusy = some (slot, can) →
      let message := (List.range 32).map (fun i => fld x.chal (8 * i) 8) ++ (List.range 8).map fun i => fld x.loaded.serial (8 * i) 8
      let response := (List.finRange 24).flatMap fun i => (List.range 4).map fun j => fld (x.resp.get i) (8 * j) 8
      let stored := (x.keys.get slot).getD key
      let y := { x with vbusy := none, keys := vput x.keys slot (some stored) }
      let good := can && Config.sha384 stored == x.fuses.hash.get slot && Config.ecdsaVerify stored (Config.sha384 message) response
      (good = true → (∀ t, x.relockAt = some t → t / 20 ≠ (s.now + dt) / 20) →
        noted (exec (.verifyComplete dt key) s) { y with vok := true, unlocked := true }) ∧
      (good = true → ∀ t, x.relockAt = some t → t / 20 = (s.now + dt) / 20 →
        noted (exec (.verifyComplete dt key) s) { y with vok := true }) ∧
      (good = false →
        noted (exec (.verifyComplete dt key) s) { y with
          vfail := true, failcnt := satInc x.failcnt, lockout := x.lockout || decide (2 ≤ x.failcnt.toNat) })) ∧
    (x.vbusy = none → ∀ key, exec (.verifyComplete dt key) s = .next u) ∧
    exec (.relock dt) s = only { x with unlocked := false, relockAt := some (s.now + dt) } ∧
    (∃ t, exec (.drst dt) s = .next t ∧ t.sec = { x with jtagStatus := 0, jtagData := 0, dbgWait := none } ∧ t.kp = u.kp ∧ SameMemory s t ∧
      ∀ g, let b := t.barges.get g
        b.dbg = { tptr := (s.barges.get g).dbg.tptr, wrap := (s.barges.get g).dbg.wrap } ∧
          ((s.barges.get g).dbg.halted = false → b = { s.barges.get g with dbg := b.dbg })) ∧
    (bitsN (jtagIdcode s) 28 4 = x.loaded.step.toNat % 16 ∧ bit (jtagIdcode s) 0 = true) ∧
    (∀ ir : JtagIr, ir ∈ ([0, 3, 4, 5, 6] : List JtagIr) →
      (s.kp.mode = .starting →
        exec (.jtagUpdateIr dt ir) s = .next { u with sec := { x with jtagIr := ir }, kp := { u.kp with testHold := true } }) ∧
      (s.kp.mode ≠ .starting → exec (.jtagUpdateIr dt ir) s = only { x with jtagIr := 0x3F })) ∧
    (∀ ir : JtagIr, ir ∉ ([0, 3, 4, 5, 6] : List JtagIr) → exec (.jtagUpdateIr dt ir) s = only { x with jtagIr := ir }) ∧
    exec (.tapReset dt) s = .next { u with sec := { x with jtagIr := 1 }, kp := { u.kp with testHold := false } } ∧
    (∀ dr : BitVec 72, x.jtagStatus ≠ 3 →
      (x.jtagIr = 0x10 → debugAllowed s = true → s.wharf.cur.get 15 < 32 →
        bitsN dr 0 32 % 4 = 0 → 0x10000000 ≤ bitsN dr 0 32 → bitsN dr 0 32 < 0x10400000 →
        ∃ t r, exec (.jtagUpdateDr dt dr) s = .next t ∧ t.sec = { x with jtagStatus := 3, dbgWait := none } ∧ t.wharf.reqs = s.wharf.reqs ++ [r] ∧
          r.init = 15 ∧ r.tx.addr = fld dr 0 32 ∧ r.tx.write = bit dr 68 ∧ r.tx.size = .word ∧
          (bit dr 68 = true → r.tx.data = [fld dr 32 36]) ∧ SameMemory s t) ∧
      (x.jtagIr = 0x10 → debugAllowed s = true → 32 ≤ s.wharf.cur.get 15 →
        ∃ t a, exec (.jtagUpdateDr dt dr) s = .next t ∧ t.sec = { x with jtagStatus := 3, dbgWait := some a } ∧
          a.addr = fld dr 0 32 ∧ a.write = bit dr 68 ∧ t.wharf.reqs = s.wharf.reqs ∧ SameMemory s t) ∧
      (x.jtagIr = 0x11 → x.loaded.life ≠ 3 →
        (bit dr 68 = false → bitsN dr 0 32 = 1 →
          exec (.jtagUpdateDr dt dr) s = only { x with jtagStatus := 0, jtagData := secStat x }) ∧
        (∀ i : Fin 8, bit dr 68 = false → bitsN dr 0 32 = 0x10 + i.val →
          exec (.jtagUpdateDr dt dr) s = only { x with jtagStatus := 0, jtagData := put36 0 (fld x.chal (32 * i.val) 32) }) ∧
        (∀ i : Fin 24, bit dr 68 = true → bitsN dr 0 32 = 0x20 + i.val →
          exec (.jtagUpdateDr dt dr) s = only { x with jtagStatus := 0, resp := vput x.resp i (fld dr 32 32) }) ∧
        (bitsN dr 0 32 = 3 → exec (.jtagUpdateDr dt dr) s = only { x with jtagStatus := 1 }))) ∧
    (∀ dr : BitVec 72,
      (x.jtagStatus = 3 → (x.jtagIr = 0x10 ∧ debugAllowed s = true) ∨ (x.jtagIr = 0x11 ∧ x.loaded.life ≠ 3) →
        exec (.jtagUpdateDr dt dr) s = .next u) ∧
      (x.jtagIr ∈ ([0, 2, 3, 4] : List JtagIr) → exec (.jtagUpdateDr dt dr) s = only { x with boundary := dr }) ∧
      (x.jtagIr = 1 → exec (.jtagUpdateDr dt dr) s = .next u) ∧
      ((x.jtagIr = 0x10 ∧ debugAllowed s = false) ∨ (x.jtagIr = 0x11 ∧ x.loaded.life = 3) ∨
          x.jtagIr ∉ ([0, 1, 2, 3, 4, 0x10, 0x11] : List JtagIr) →
        exec (.jtagUpdateDr dt dr) s = only { x with bypass := bit dr 0 }))

/-! ### The whole part -/

/-- Coded words and the signature's arithmetic (R140, R141, R160, R161): encoding is exact and its bounds hold, decoding delivers the value or
names the condition that fails, residue first; a fold is (S·2^13 + r + 1) mod P, and n folds from D give (D·M + C) mod P. -/
def Obligations.CodedWordsAndFoldsAreExact : Prop :=
  (∀ (x : Int) (b : Nat), -8388608 ≤ x → x ≤ 8388607 → b ≤ 4092 →
    (encodeCoded x b).toInt = 4093 * x + b ∧ -34334572544 ≤ (encodeCoded x b).toInt ∧
      (encodeCoded x b).toInt ≤ 34334572543 ∧ ((encodeCoded x b).toInt = -34334572544 ↔ x = -8388608 ∧ b = 0) ∧
      ((encodeCoded x b).toInt = 34334572543 ↔ x = 8388607 ∧ b = 4092)) ∧
  (∀ (w : Word) (b : Nat), b ≤ 4092 →
    (∀ q : Int, decodeCoded w b = .ok q ↔ w.toInt = 4093 * q + b ∧ -8388608 ≤ q ∧ q ≤ 8388607) ∧
    (decodeCoded w b = .residue ↔ w.toInt % 4093 ≠ b) ∧
    (decodeCoded w b = .range ↔ w.toInt % 4093 = b ∧ ∀ q : Int, w.toInt = 4093 * q + b → q < -8388608 ∨ 8388607 < q)) ∧
  (∀ (s : BitVec 61) (r : Nat), s.toNat < 2 ^ 61 - 1 → r ≤ 4092 →
    (sigFold s r).toNat = (s.toNat * 2 ^ 13 + r + 1) % (2 ^ 61 - 1)) ∧
  (∀ (d : BitVec 32) (rs : List Nat), (∀ r ∈ rs, r ≤ 4092) →
    let n := rs.length
    (rs.foldl sigFold (d.setWidth 61)).toNat =
      (d.toNat * 2 ^ (13 * n % 61) + ((List.range n).map fun i => (rs.getD i 0 + 1) * 2 ^ (13 * (n - 1 - i))).sum) %
        (2 ^ 61 - 1))

/-- The state after reset (R172, R177, R203, R212, R251, R350, R351, R358 to R376, at the values of their register tables), with the
invariants below: the Keeper in STARTING with KT = 0, K = 3 and W = 1000 and no task active, every barge held, every bank owned by
no one, the outputs and links off, and no memory with a value or an error. -/
def Obligations.ResetLeavesTheStatedState : Prop :=
  let s := State.reset
  (s.kp.mode = .starting ∧ s.kp.kt = 0 ∧ s.kp.k = 3 ∧ s.kp.w = 1000 ∧ s.kp.comm = false ∧ s.kp.retired = 0 ∧ s.kp.log = [] ∧
    ∀ t, (s.kp.tasks.get t).tstate = 0) ∧
  (s.crp.bhold = BitVec.allOnes 48 ∧ s.crp.stTime = 0 ∧ s.crp.thi = 110 ∧ s.crp.tlo = 105 ∧ s.crp.then' = true ∧ s.crp.level = 0) ∧
  (∀ n b, ((s.basins.get n).banks.get b).own = 7) ∧
  (∀ n a, (s.basins.get n).mem.nonet a = 0 ∧ s.rv.mem.nonet a = 0 ∧ s.hms.nonet a = 0) ∧
  ((∀ n, (s.pwm.ch.get n).en = false ∧ pwmDrive s n = .z) ∧ (∀ n, (s.fio.fi.get n).en = false ∧ (s.fio.fo.get n).en = false) ∧
    (∀ n, (s.weir.ch.get n).en = false) ∧ weirGlim s = 4 ∧ weirGwin s = 1000 ∧ ∀ l, (s.tl.link.get l).en = false) ∧
  (s.ferry.credMode = true ∧ s.ferry.lfsr = 1 ∧ s.ferry.park = true ∧ s.ferry.l1idle = 10 ∧
    ∀ q, (s.ferry.eq.get q).tickets = 16 ∧ (s.ferry.eq.get q).share = 16 ∧ (s.ferry.eq.get q).queue = []) ∧
  (s.sec.unlocked = false ∧ s.sec.lockout = false ∧ s.fw.up = false ∧ s.pending = []) ∧
  MemoriesCanonical s ∧ SafeHolds s ∧ QueuesBounded s

/-- Every memory keeps its canonical form over every step, from every state. -/
def Obligations.MemoriesStayCanonical : Prop :=
  ∀ s t : State, MemoriesCanonical s → step s = .next t → MemoriesCanonical t

/-- The queues keep their sizes over every step, from every state where they have them: the store buffers (R64), the XLU's transactions
(R69), the date queues (R155), KP_LOG (R204) and the egress queues (R370); and an output group is owned by an active task that names it,
or by none (R180, R190, R192, R196). -/
def Obligations.QueuesKeepTheirSizes : Prop :=
  ∀ s t : State, QueuesBounded s → step s = .next t → QueuesBounded t

/-- SAFE is left only by a reset of the Keeper (R177): a step of any command that is no reset of the device or of the Keeper's supply
leaves it in SAFE, and one that is leaves it in SAFE or takes the Keeper to STARTING with KT = 0 and no task active. -/
def Obligations.SafeIsLeftOnlyByReset : Prop :=
  ∀ (s t : State) (c : Instr) (rest : List Instr), s.pending = c :: rest → s.kp.mode = .safe → step s = .next t →
    t.kp.mode = .safe ∨
      (ResetsKeeper c ∧ t.kp.mode = .starting ∧ t.kp.kt = 0 ∧ ∀ j, (t.kp.tasks.get j).tstate = 0)

/-- In SAFE no group is live, no opening waits, and SAFE_A and SAFE_B are low and do not toggle (R199): every step keeps this, from every
state where it holds. -/
def Obligations.SafeKeepsOutputsClosed : Prop :=
  ∀ s t : State, SafeHolds s → step s = .next t → SafeHolds t
end

