-- ==== Sys2Proof/Laws/State.lean ====
section
/-! SUPPORT. One lemma per field for the updates of one part of the state, for the passing of device time, and for the vector
updates they are made of. -/

namespace Sys2Proof.Machine

/-! ### Vectors -/

theorem vget_eq {α : Type} {n : Nat} (v : Vector α n) (i : Fin n) : v.get i = v[i.val] := rfl

@[simp] theorem vmod_get_self {α : Type} {n : Nat} (v : Vector α n) (i : Fin n) (f : α → α) :
    (vmod v i f).get i = f (v.get i) := by
  simp [vmod, vget_eq]

theorem vmod_get_ne {α : Type} {n : Nat} (v : Vector α n) (i j : Fin n) (f : α → α) (h : j ≠ i) :
    (vmod v i f).get j = v.get j := by
  have : i.val ≠ j.val := fun e => h (Fin.ext e.symm)
  simp [vmod, vget_eq, this]

theorem vmod_get {α : Type} {n : Nat} (v : Vector α n) (i j : Fin n) (f : α → α) :
    (vmod v i f).get j = if j = i then f (v.get j) else v.get j := by
  by_cases h : j = i
  · subst h; simp
  · simp [h, vmod_get_ne v i j f h]

@[simp] theorem vput_get_self {α : Type} {n : Nat} (v : Vector α n) (i : Fin n) (x : α) : (vput v i x).get i = x := by
  simp [vput, vget_eq]

theorem vput_get_ne {α : Type} {n : Nat} (v : Vector α n) (i j : Fin n) (x : α) (h : j ≠ i) :
    (vput v i x).get j = v.get j := by
  have : i.val ≠ j.val := fun e => h (Fin.ext e.symm)
  simp [vput, vget_eq, this]

theorem vget_ext {α : Type} {n : Nat} {v u : Vector α n} (h : ∀ i : Fin n, v.get i = u.get i) : v = u := by
  apply Vector.ext
  intro i hi
  exact h ⟨i, hi⟩

@[simp] theorem vmod_vmod {α : Type} {n : Nat} (v : Vector α n) (i : Fin n) (f g : α → α) :
    vmod (vmod v i f) i g = vmod v i fun x => g (f x) := by
  apply vget_ext
  intro j
  by_cases h : j = i
  · subst h; simp
  · simp [vmod_get_ne _ _ _ _ h]

theorem vmod_same {α : Type} {n : Nat} (v : Vector α n) (i : Fin n) (f : α → α) (h : f (v.get i) = v.get i) :
    vmod v i f = v := by
  apply vget_ext
  intro j
  by_cases hj : j = i
  · subst hj; simp [h]
  · simp [vmod_get_ne _ _ _ _ hj]

/-! ### Device time -/

@[simp] theorem State.elapse_now (s : State) (dt : Nat) : (s.elapse dt).now = s.now + dt := rfl
@[simp] theorem State.elapse_freeCtr (s : State) (dt : Nat) : (s.elapse dt).freeCtr = s.freeCtr := rfl
@[simp] theorem State.elapse_barges (s : State) (dt : Nat) : (s.elapse dt).barges = s.barges := rfl
@[simp] theorem State.elapse_basins (s : State) (dt : Nat) : (s.elapse dt).basins = s.basins := rfl
@[simp] theorem State.elapse_rv (s : State) (dt : Nat) : (s.elapse dt).rv = s.rv := rfl
@[simp] theorem State.elapse_hms (s : State) (dt : Nat) : (s.elapse dt).hms = s.hms := rfl
@[simp] theorem State.elapse_nvp (s : State) (dt : Nat) : (s.elapse dt).nvp = s.nvp := rfl
@[simp] theorem State.elapse_wharf (s : State) (dt : Nat) : (s.elapse dt).wharf = s.wharf := rfl
theorem State.elapse_kp (s : State) (dt : Nat) :
    (s.elapse dt).kp = { s.kp with kt := (s.elapse dt).kp.kt } := rfl
@[simp] theorem State.elapse_pwm (s : State) (dt : Nat) : (s.elapse dt).pwm = s.pwm := rfl
@[simp] theorem State.elapse_weir (s : State) (dt : Nat) : (s.elapse dt).weir = s.weir := rfl
@[simp] theorem State.elapse_fio (s : State) (dt : Nat) : (s.elapse dt).fio = s.fio := rfl
@[simp] theorem State.elapse_tl (s : State) (dt : Nat) : (s.elapse dt).tl = s.tl := rfl
@[simp] theorem State.elapse_crp (s : State) (dt : Nat) :
    (s.elapse dt).crp = { s.crp with stTime := stAfter s.crp ((s.now + dt) / 12 - s.now / 12) } := rfl
@[simp] theorem State.elapse_hif (s : State) (dt : Nat) : (s.elapse dt).hif = s.hif := rfl
@[simp] theorem State.elapse_ferry (s : State) (dt : Nat) : (s.elapse dt).ferry = s.ferry := rfl
@[simp] theorem State.elapse_fw (s : State) (dt : Nat) : (s.elapse dt).fw = s.fw := rfl
@[simp] theorem State.elapse_sec (s : State) (dt : Nat) : (s.elapse dt).sec = s.sec := rfl
@[simp] theorem State.elapse_events (s : State) (dt : Nat) : (s.elapse dt).events = s.events := rfl
@[simp] theorem State.elapse_pending (s : State) (dt : Nat) : (s.elapse dt).pending = s.pending := rfl

/-- The frame of a command whose part is available (R426, R432). -/
theorem act_next (s : State) (dt : Nat) (f : State → State) (h : s.crp.factory = false) (hc : s.crp.coldHeld = false) :
    act s dt f = .next (f (s.elapse dt)) := by
  simp [act, h, hc]

/-- The frame of the supplies and the reset pin, in every mode. -/
theorem actPins_next (s : State) (dt : Nat) (f : State → State) : actPins s dt f = .next (f (s.elapse dt)) := rfl

/-- What a command's frame can answer: refused in factory mode, else a next state. -/
theorem act_cases (s t : State) (dt : Nat) (f : State → State) (h : act s dt f = .next t) :
    s.crp.factory = false ∧ (t = s.elapse dt ∨ t = f (s.elapse dt)) := by
  unfold act at h
  split at h
  · exact absurd h (by simp)
  · rename_i hf
    simp at hf h
    refine ⟨hf, ?_⟩
    by_cases hc : s.crp.coldHeld = true
    · simp [hc] at h; exact .inl h.symm
    · simp [hc] at h; exact .inr h.symm

/-! ### Parts of the state -/

@[simp] theorem State.modBarge_now (s : State) (g : BargeIx) (f : Barge → Barge) : (s.modBarge g f).now = s.now := rfl
@[simp] theorem State.modBarge_freeCtr (s : State) (g : BargeIx) (f : Barge → Barge) : (s.modBarge g f).freeCtr = s.freeCtr := rfl
@[simp] theorem State.modBarge_basins (s : State) (g : BargeIx) (f : Barge → Barge) : (s.modBarge g f).basins = s.basins := rfl
@[simp] theorem State.modBarge_rv (s : State) (g : BargeIx) (f : Barge → Barge) : (s.modBarge g f).rv = s.rv := rfl
@[simp] theorem State.modBarge_hms (s : State) (g : BargeIx) (f : Barge → Barge) : (s.modBarge g f).hms = s.hms := rfl
@[simp] theorem State.modBarge_nvp (s : State) (g : BargeIx) (f : Barge → Barge) : (s.modBarge g f).nvp = s.nvp := rfl
@[simp] theorem State.modBarge_wharf (s : State) (g : BargeIx) (f : Barge → Barge) : (s.modBarge g f).wharf = s.wharf := rfl
@[simp] theorem State.modBarge_kp (s : State) (g : BargeIx) (f : Barge → Barge) : (s.modBarge g f).kp = s.kp := rfl
@[simp] theorem State.modBarge_pwm (s : State) (g : BargeIx) (f : Barge → Barge) : (s.modBarge g f).pwm = s.pwm := rfl
@[simp] theorem State.modBarge_weir (s : State) (g : BargeIx) (f : Barge → Barge) : (s.modBarge g f).weir = s.weir := rfl
@[simp] theorem State.modBarge_fio (s : State) (g : BargeIx) (f : Barge → Barge) : (s.modBarge g f).fio = s.fio := rfl
@[simp] theorem State.modBarge_tl (s : State) (g : BargeIx) (f : Barge → Barge) : (s.modBarge g f).tl = s.tl := rfl
@[simp] theorem State.modBarge_crp (s : State) (g : BargeIx) (f : Barge → Barge) : (s.modBarge g f).crp = s.crp := rfl
@[simp] theorem State.modBarge_hif (s : State) (g : BargeIx) (f : Barge → Barge) : (s.modBarge g f).hif = s.hif := rfl
@[simp] theorem State.modBarge_ferry (s : State) (g : BargeIx) (f : Barge → Barge) : (s.modBarge g f).ferry = s.ferry := rfl
@[simp] theorem State.modBarge_fw (s : State) (g : BargeIx) (f : Barge → Barge) : (s.modBarge g f).fw = s.fw := rfl
@[simp] theorem State.modBarge_sec (s : State) (g : BargeIx) (f : Barge → Barge) : (s.modBarge g f).sec = s.sec := rfl
@[simp] theorem State.modBarge_events (s : State) (g : BargeIx) (f : Barge → Barge) : (s.modBarge g f).events = s.events := rfl
@[simp] theorem State.modBarge_pending (s : State) (g : BargeIx) (f : Barge → Barge) : (s.modBarge g f).pending = s.pending := rfl
@[simp] theorem State.modBarge_barges (s : State) (g : BargeIx) (f : Barge → Barge) : (s.modBarge g f).barges = vmod s.barges g f := rfl

@[simp] theorem State.modBasin_now (s : State) (n : BasinIx) (f : Basin → Basin) : (s.modBasin n f).now = s.now := rfl
@[simp] theorem State.modBasin_freeCtr (s : State) (n : BasinIx) (f : Basin → Basin) : (s.modBasin n f).freeCtr = s.freeCtr := rfl
@[simp] theorem State.modBasin_barges (s : State) (n : BasinIx) (f : Basin → Basin) : (s.modBasin n f).barges = s.barges := rfl
@[simp] theorem State.modBasin_rv (s : State) (n : BasinIx) (f : Basin → Basin) : (s.modBasin n f).rv = s.rv := rfl
@[simp] theorem State.modBasin_hms (s : State) (n : BasinIx) (f : Basin → Basin) : (s.modBasin n f).hms = s.hms := rfl
@[simp] theorem State.modBasin_nvp (s : State) (n : BasinIx) (f : Basin → Basin) : (s.modBasin n f).nvp = s.nvp := rfl
@[simp] theorem State.modBasin_wharf (s : State) (n : BasinIx) (f : Basin → Basin) : (s.modBasin n f).wharf = s.wharf := rfl
@[simp] theorem State.modBasin_kp (s : State) (n : BasinIx) (f : Basin → Basin) : (s.modBasin n f).kp = s.kp := rfl
@[simp] theorem State.modBasin_pwm (s : State) (n : BasinIx) (f : Basin → Basin) : (s.modBasin n f).pwm = s.pwm := rfl
@[simp] theorem State.modBasin_weir (s : State) (n : BasinIx) (f : Basin → Basin) : (s.modBasin n f).weir = s.weir := rfl
@[simp] theorem State.modBasin_fio (s : State) (n : BasinIx) (f : Basin → Basin) : (s.modBasin n f).fio = s.fio := rfl
@[simp] theorem State.modBasin_tl (s : State) (n : BasinIx) (f : Basin → Basin) : (s.modBasin n f).tl = s.tl := rfl
@[simp] theorem State.modBasin_crp (s : State) (n : BasinIx) (f : Basin → Basin) : (s.modBasin n f).crp = s.crp := rfl
@[simp] theorem State.modBasin_hif (s : State) (n : BasinIx) (f : Basin → Basin) : (s.modBasin n f).hif = s.hif := rfl
@[simp] theorem State.modBasin_ferry (s : State) (n : BasinIx) (f : Basin → Basin) : (s.modBasin n f).ferry = s.ferry := rfl
@[simp] theorem State.modBasin_fw (s : State) (n : BasinIx) (f : Basin → Basin) : (s.modBasin n f).fw = s.fw := rfl
@[simp] theorem State.modBasin_sec (s : State) (n : BasinIx) (f : Basin → Basin) : (s.modBasin n f).sec = s.sec := rfl
@[simp] theorem State.modBasin_events (s : State) (n : BasinIx) (f : Basin → Basin) : (s.modBasin n f).events = s.events := rfl
@[simp] theorem State.modBasin_pending (s : State) (n : BasinIx) (f : Basin → Basin) : (s.modBasin n f).pending = s.pending := rfl
@[simp] theorem State.modBasin_basins (s : State) (n : BasinIx) (f : Basin → Basin) : (s.modBasin n f).basins = vmod s.basins n f := rfl

@[simp] theorem State.modBank_now (s : State) (n : BasinIx) (b : BankIx) (f : Bank → Bank) : (s.modBank n b f).now = s.now := rfl
@[simp] theorem State.modBank_freeCtr (s : State) (n : BasinIx) (b : BankIx) (f : Bank → Bank) : (s.modBank n b f).freeCtr = s.freeCtr := rfl
@[simp] theorem State.modBank_barges (s : State) (n : BasinIx) (b : BankIx) (f : Bank → Bank) : (s.modBank n b f).barges = s.barges := rfl
@[simp] theorem State.modBank_rv (s : State) (n : BasinIx) (b : BankIx) (f : Bank → Bank) : (s.modBank n b f).rv = s.rv := rfl
@[simp] theorem State.modBank_hms (s : State) (n : BasinIx) (b : BankIx) (f : Bank → Bank) : (s.modBank n b f).hms = s.hms := rfl
@[simp] theorem State.modBank_nvp (s : State) (n : BasinIx) (b : BankIx) (f : Bank → Bank) : (s.modBank n b f).nvp = s.nvp := rfl
@[simp] theorem State.modBank_wharf (s : State) (n : BasinIx) (b : BankIx) (f : Bank → Bank) : (s.modBank n b f).wharf = s.wharf := rfl
@[simp] theorem State.modBank_kp (s : State) (n : BasinIx) (b : BankIx) (f : Bank → Bank) : (s.modBank n b f).kp = s.kp := rfl
@[simp] theorem State.modBank_pwm (s : State) (n : BasinIx) (b : BankIx) (f : Bank → Bank) : (s.modBank n b f).pwm = s.pwm := rfl
@[simp] theorem State.modBank_weir (s : State) (n : BasinIx) (b : BankIx) (f : Bank → Bank) : (s.modBank n b f).weir = s.weir := rfl
@[simp] theorem State.modBank_fio (s : State) (n : BasinIx) (b : BankIx) (f : Bank → Bank) : (s.modBank n b f).fio = s.fio := rfl
@[simp] theorem State.modBank_tl (s : State) (n : BasinIx) (b : BankIx) (f : Bank → Bank) : (s.modBank n b f).tl = s.tl := rfl
@[simp] theorem State.modBank_crp (s : State) (n : BasinIx) (b : BankIx) (f : Bank → Bank) : (s.modBank n b f).crp = s.crp := rfl
@[simp] theorem State.modBank_hif (s : State) (n : BasinIx) (b : BankIx) (f : Bank → Bank) : (s.modBank n b f).hif = s.hif := rfl
@[simp] theorem State.modBank_ferry (s : State) (n : BasinIx) (b : BankIx) (f : Bank → Bank) : (s.modBank n b f).ferry = s.ferry := rfl
@[simp] theorem State.modBank_fw (s : State) (n : BasinIx) (b : BankIx) (f : Bank → Bank) : (s.modBank n b f).fw = s.fw := rfl
@[simp] theorem State.modBank_sec (s : State) (n : BasinIx) (b : BankIx) (f : Bank → Bank) : (s.modBank n b f).sec = s.sec := rfl
@[simp] theorem State.modBank_events (s : State) (n : BasinIx) (b : BankIx) (f : Bank → Bank) : (s.modBank n b f).events = s.events := rfl
@[simp] theorem State.modBank_pending (s : State) (n : BasinIx) (b : BankIx) (f : Bank → Bank) : (s.modBank n b f).pending = s.pending := rfl

@[simp] theorem State.modCode_now (s : State) (n : BasinIx) (k : Fin 4) (f : CodeBank → CodeBank) : (s.modCode n k f).now = s.now := rfl
@[simp] theorem State.modCode_freeCtr (s : State) (n : BasinIx) (k : Fin 4) (f : CodeBank → CodeBank) : (s.modCode n k f).freeCtr = s.freeCtr := rfl
@[simp] theorem State.modCode_barges (s : State) (n : BasinIx) (k : Fin 4) (f : CodeBank → CodeBank) : (s.modCode n k f).barges = s.barges := rfl
@[simp] theorem State.modCode_rv (s : State) (n : BasinIx) (k : Fin 4) (f : CodeBank → CodeBank) : (s.modCode n k f).rv = s.rv := rfl
@[simp] theorem State.modCode_hms (s : State) (n : BasinIx) (k : Fin 4) (f : CodeBank → CodeBank) : (s.modCode n k f).hms = s.hms := rfl
@[simp] theorem State.modCode_nvp (s : State) (n : BasinIx) (k : Fin 4) (f : CodeBank → CodeBank) : (s.modCode n k f).nvp = s.nvp := rfl
@[simp] theorem State.modCode_wharf (s : State) (n : BasinIx) (k : Fin 4) (f : CodeBank → CodeBank) : (s.modCode n k f).wharf = s.wharf := rfl
@[simp] theorem State.modCode_kp (s : State) (n : BasinIx) (k : Fin 4) (f : CodeBank → CodeBank) : (s.modCode n k f).kp = s.kp := rfl
@[simp] theorem State.modCode_pwm (s : State) (n : BasinIx) (k : Fin 4) (f : CodeBank → CodeBank) : (s.modCode n k f).pwm = s.pwm := rfl
@[simp] theorem State.modCode_weir (s : State) (n : BasinIx) (k : Fin 4) (f : CodeBank → CodeBank) : (s.modCode n k f).weir = s.weir := rfl
@[simp] theorem State.modCode_fio (s : State) (n : BasinIx) (k : Fin 4) (f : CodeBank → CodeBank) : (s.modCode n k f).fio = s.fio := rfl
@[simp] theorem State.modCode_tl (s : State) (n : BasinIx) (k : Fin 4) (f : CodeBank → CodeBank) : (s.modCode n k f).tl = s.tl := rfl
@[simp] theorem State.modCode_crp (s : State) (n : BasinIx) (k : Fin 4) (f : CodeBank → CodeBank) : (s.modCode n k f).crp = s.crp := rfl
@[simp] theorem State.modCode_hif (s : State) (n : BasinIx) (k : Fin 4) (f : CodeBank → CodeBank) : (s.modCode n k f).hif = s.hif := rfl
@[simp] theorem State.modCode_ferry (s : State) (n : BasinIx) (k : Fin 4) (f : CodeBank → CodeBank) : (s.modCode n k f).ferry = s.ferry := rfl
@[simp] theorem State.modCode_fw (s : State) (n : BasinIx) (k : Fin 4) (f : CodeBank → CodeBank) : (s.modCode n k f).fw = s.fw := rfl
@[simp] theorem State.modCode_sec (s : State) (n : BasinIx) (k : Fin 4) (f : CodeBank → CodeBank) : (s.modCode n k f).sec = s.sec := rfl
@[simp] theorem State.modCode_events (s : State) (n : BasinIx) (k : Fin 4) (f : CodeBank → CodeBank) : (s.modCode n k f).events = s.events := rfl
@[simp] theorem State.modCode_pending (s : State) (n : BasinIx) (k : Fin 4) (f : CodeBank → CodeBank) : (s.modCode n k f).pending = s.pending := rfl

@[simp] theorem State.modTask_now (s : State) (t : Fin 256) (f : KTask → KTask) : (s.modTask t f).now = s.now := rfl
@[simp] theorem State.modTask_freeCtr (s : State) (t : Fin 256) (f : KTask → KTask) : (s.modTask t f).freeCtr = s.freeCtr := rfl
@[simp] theorem State.modTask_barges (s : State) (t : Fin 256) (f : KTask → KTask) : (s.modTask t f).barges = s.barges := rfl
@[simp] theorem State.modTask_basins (s : State) (t : Fin 256) (f : KTask → KTask) : (s.modTask t f).basins = s.basins := rfl
@[simp] theorem State.modTask_rv (s : State) (t : Fin 256) (f : KTask → KTask) : (s.modTask t f).rv = s.rv := rfl
@[simp] theorem State.modTask_hms (s : State) (t : Fin 256) (f : KTask → KTask) : (s.modTask t f).hms = s.hms := rfl
@[simp] theorem State.modTask_nvp (s : State) (t : Fin 256) (f : KTask → KTask) : (s.modTask t f).nvp = s.nvp := rfl
@[simp] theorem State.modTask_wharf (s : State) (t : Fin 256) (f : KTask → KTask) : (s.modTask t f).wharf = s.wharf := rfl
@[simp] theorem State.modTask_pwm (s : State) (t : Fin 256) (f : KTask → KTask) : (s.modTask t f).pwm = s.pwm := rfl
@[simp] theorem State.modTask_weir (s : State) (t : Fin 256) (f : KTask → KTask) : (s.modTask t f).weir = s.weir := rfl
@[simp] theorem State.modTask_fio (s : State) (t : Fin 256) (f : KTask → KTask) : (s.modTask t f).fio = s.fio := rfl
@[simp] theorem State.modTask_tl (s : State) (t : Fin 256) (f : KTask → KTask) : (s.modTask t f).tl = s.tl := rfl
@[simp] theorem State.modTask_crp (s : State) (t : Fin 256) (f : KTask → KTask) : (s.modTask t f).crp = s.crp := rfl
@[simp] theorem State.modTask_hif (s : State) (t : Fin 256) (f : KTask → KTask) : (s.modTask t f).hif = s.hif := rfl
@[simp] theorem State.modTask_ferry (s : State) (t : Fin 256) (f : KTask → KTask) : (s.modTask t f).ferry = s.ferry := rfl
@[simp] theorem State.modTask_fw (s : State) (t : Fin 256) (f : KTask → KTask) : (s.modTask t f).fw = s.fw := rfl
@[simp] theorem State.modTask_sec (s : State) (t : Fin 256) (f : KTask → KTask) : (s.modTask t f).sec = s.sec := rfl
@[simp] theorem State.modTask_events (s : State) (t : Fin 256) (f : KTask → KTask) : (s.modTask t f).events = s.events := rfl
@[simp] theorem State.modTask_pending (s : State) (t : Fin 256) (f : KTask → KTask) : (s.modTask t f).pending = s.pending := rfl
@[simp] theorem State.modTask_kp (s : State) (t : Fin 256) (f : KTask → KTask) : (s.modTask t f).kp = { s.kp with tasks := vmod s.kp.tasks t f } := rfl

@[simp] theorem State.modGroup_now (s : State) (r : Fin 64) (f : KGroup → KGroup) : (s.modGroup r f).now = s.now := rfl
@[simp] theorem State.modGroup_freeCtr (s : State) (r : Fin 64) (f : KGroup → KGroup) : (s.modGroup r f).freeCtr = s.freeCtr := rfl
@[simp] theorem State.modGroup_barges (s : State) (r : Fin 64) (f : KGroup → KGroup) : (s.modGroup r f).barges = s.barges := rfl
@[simp] theorem State.modGroup_basins (s : State) (r : Fin 64) (f : KGroup → KGroup) : (s.modGroup r f).basins = s.basins := rfl
@[simp] theorem State.modGroup_rv (s : State) (r : Fin 64) (f : KGroup → KGroup) : (s.modGroup r f).rv = s.rv := rfl
@[simp] theorem State.modGroup_hms (s : State) (r : Fin 64) (f : KGroup → KGroup) : (s.modGroup r f).hms = s.hms := rfl
@[simp] theorem State.modGroup_nvp (s : State) (r : Fin 64) (f : KGroup → KGroup) : (s.modGroup r f).nvp = s.nvp := rfl
@[simp] theorem State.modGroup_wharf (s : State) (r : Fin 64) (f : KGroup → KGroup) : (s.modGroup r f).wharf = s.wharf := rfl
@[simp] theorem State.modGroup_pwm (s : State) (r : Fin 64) (f : KGroup → KGroup) : (s.modGroup r f).pwm = s.pwm := rfl
@[simp] theorem State.modGroup_weir (s : State) (r : Fin 64) (f : KGroup → KGroup) : (s.modGroup r f).weir = s.weir := rfl
@[simp] theorem State.modGroup_fio (s : State) (r : Fin 64) (f : KGroup → KGroup) : (s.modGroup r f).fio = s.fio := rfl
@[simp] theorem State.modGroup_tl (s : State) (r : Fin 64) (f : KGroup → KGroup) : (s.modGroup r f).tl = s.tl := rfl
@[simp] theorem State.modGroup_crp (s : State) (r : Fin 64) (f : KGroup → KGroup) : (s.modGroup r f).crp = s.crp := rfl
@[simp] theorem State.modGroup_hif (s : State) (r : Fin 64) (f : KGroup → KGroup) : (s.modGroup r f).hif = s.hif := rfl
@[simp] theorem State.modGroup_ferry (s : State) (r : Fin 64) (f : KGroup → KGroup) : (s.modGroup r f).ferry = s.ferry := rfl
@[simp] theorem State.modGroup_fw (s : State) (r : Fin 64) (f : KGroup → KGroup) : (s.modGroup r f).fw = s.fw := rfl
@[simp] theorem State.modGroup_sec (s : State) (r : Fin 64) (f : KGroup → KGroup) : (s.modGroup r f).sec = s.sec := rfl
@[simp] theorem State.modGroup_events (s : State) (r : Fin 64) (f : KGroup → KGroup) : (s.modGroup r f).events = s.events := rfl
@[simp] theorem State.modGroup_pending (s : State) (r : Fin 64) (f : KGroup → KGroup) : (s.modGroup r f).pending = s.pending := rfl
@[simp] theorem State.modGroup_kp (s : State) (r : Fin 64) (f : KGroup → KGroup) : (s.modGroup r f).kp = { s.kp with groups := vmod s.kp.groups r f } := rfl

@[simp] theorem State.modPwm_now (s : State) (n : Fin 192) (f : PwmChan → PwmChan) : (s.modPwm n f).now = s.now := rfl
@[simp] theorem State.modPwm_freeCtr (s : State) (n : Fin 192) (f : PwmChan → PwmChan) : (s.modPwm n f).freeCtr = s.freeCtr := rfl
@[simp] theorem State.modPwm_barges (s : State) (n : Fin 192) (f : PwmChan → PwmChan) : (s.modPwm n f).barges = s.barges := rfl
@[simp] theorem State.modPwm_basins (s : State) (n : Fin 192) (f : PwmChan → PwmChan) : (s.modPwm n f).basins = s.basins := rfl
@[simp] theorem State.modPwm_rv (s : State) (n : Fin 192) (f : PwmChan → PwmChan) : (s.modPwm n f).rv = s.rv := rfl
@[simp] theorem State.modPwm_hms (s : State) (n : Fin 192) (f : PwmChan → PwmChan) : (s.modPwm n f).hms = s.hms := rfl
@[simp] theorem State.modPwm_nvp (s : State) (n : Fin 192) (f : PwmChan → PwmChan) : (s.modPwm n f).nvp = s.nvp := rfl
@[simp] theorem State.modPwm_wharf (s : State) (n : Fin 192) (f : PwmChan → PwmChan) : (s.modPwm n f).wharf = s.wharf := rfl
@[simp] theorem State.modPwm_kp (s : State) (n : Fin 192) (f : PwmChan → PwmChan) : (s.modPwm n f).kp = s.kp := rfl
@[simp] theorem State.modPwm_weir (s : State) (n : Fin 192) (f : PwmChan → PwmChan) : (s.modPwm n f).weir = s.weir := rfl
@[simp] theorem State.modPwm_fio (s : State) (n : Fin 192) (f : PwmChan → PwmChan) : (s.modPwm n f).fio = s.fio := rfl
@[simp] theorem State.modPwm_tl (s : State) (n : Fin 192) (f : PwmChan → PwmChan) : (s.modPwm n f).tl = s.tl := rfl
@[simp] theorem State.modPwm_crp (s : State) (n : Fin 192) (f : PwmChan → PwmChan) : (s.modPwm n f).crp = s.crp := rfl
@[simp] theorem State.modPwm_hif (s : State) (n : Fin 192) (f : PwmChan → PwmChan) : (s.modPwm n f).hif = s.hif := rfl
@[simp] theorem State.modPwm_ferry (s : State) (n : Fin 192) (f : PwmChan → PwmChan) : (s.modPwm n f).ferry = s.ferry := rfl
@[simp] theorem State.modPwm_fw (s : State) (n : Fin 192) (f : PwmChan → PwmChan) : (s.modPwm n f).fw = s.fw := rfl
@[simp] theorem State.modPwm_sec (s : State) (n : Fin 192) (f : PwmChan → PwmChan) : (s.modPwm n f).sec = s.sec := rfl
@[simp] theorem State.modPwm_events (s : State) (n : Fin 192) (f : PwmChan → PwmChan) : (s.modPwm n f).events = s.events := rfl
@[simp] theorem State.modPwm_pending (s : State) (n : Fin 192) (f : PwmChan → PwmChan) : (s.modPwm n f).pending = s.pending := rfl
@[simp] theorem State.modPwm_pwm (s : State) (n : Fin 192) (f : PwmChan → PwmChan) : (s.modPwm n f).pwm = { s.pwm with ch := vmod s.pwm.ch n f } := rfl

@[simp] theorem State.modTb_now (s : State) (m : Fin 16) (f : Timebase → Timebase) : (s.modTb m f).now = s.now := rfl
@[simp] theorem State.modTb_freeCtr (s : State) (m : Fin 16) (f : Timebase → Timebase) : (s.modTb m f).freeCtr = s.freeCtr := rfl
@[simp] theorem State.modTb_barges (s : State) (m : Fin 16) (f : Timebase → Timebase) : (s.modTb m f).barges = s.barges := rfl
@[simp] theorem State.modTb_basins (s : State) (m : Fin 16) (f : Timebase → Timebase) : (s.modTb m f).basins = s.basins := rfl
@[simp] theorem State.modTb_rv (s : State) (m : Fin 16) (f : Timebase → Timebase) : (s.modTb m f).rv = s.rv := rfl
@[simp] theorem State.modTb_hms (s : State) (m : Fin 16) (f : Timebase → Timebase) : (s.modTb m f).hms = s.hms := rfl
@[simp] theorem State.modTb_nvp (s : State) (m : Fin 16) (f : Timebase → Timebase) : (s.modTb m f).nvp = s.nvp := rfl
@[simp] theorem State.modTb_wharf (s : State) (m : Fin 16) (f : Timebase → Timebase) : (s.modTb m f).wharf = s.wharf := rfl
@[simp] theorem State.modTb_kp (s : State) (m : Fin 16) (f : Timebase → Timebase) : (s.modTb m f).kp = s.kp := rfl
@[simp] theorem State.modTb_weir (s : State) (m : Fin 16) (f : Timebase → Timebase) : (s.modTb m f).weir = s.weir := rfl
@[simp] theorem State.modTb_fio (s : State) (m : Fin 16) (f : Timebase → Timebase) : (s.modTb m f).fio = s.fio := rfl
@[simp] theorem State.modTb_tl (s : State) (m : Fin 16) (f : Timebase → Timebase) : (s.modTb m f).tl = s.tl := rfl
@[simp] theorem State.modTb_crp (s : State) (m : Fin 16) (f : Timebase → Timebase) : (s.modTb m f).crp = s.crp := rfl
@[simp] theorem State.modTb_hif (s : State) (m : Fin 16) (f : Timebase → Timebase) : (s.modTb m f).hif = s.hif := rfl
@[simp] theorem State.modTb_ferry (s : State) (m : Fin 16) (f : Timebase → Timebase) : (s.modTb m f).ferry = s.ferry := rfl
@[simp] theorem State.modTb_fw (s : State) (m : Fin 16) (f : Timebase → Timebase) : (s.modTb m f).fw = s.fw := rfl
@[simp] theorem State.modTb_sec (s : State) (m : Fin 16) (f : Timebase → Timebase) : (s.modTb m f).sec = s.sec := rfl
@[simp] theorem State.modTb_events (s : State) (m : Fin 16) (f : Timebase → Timebase) : (s.modTb m f).events = s.events := rfl
@[simp] theorem State.modTb_pending (s : State) (m : Fin 16) (f : Timebase → Timebase) : (s.modTb m f).pending = s.pending := rfl
@[simp] theorem State.modTb_pwm (s : State) (m : Fin 16) (f : Timebase → Timebase) : (s.modTb m f).pwm = { s.pwm with tb := vmod s.pwm.tb m f } := rfl

@[simp] theorem State.modTz_now (s : State) (z : Fin 32) (f : TripZone → TripZone) : (s.modTz z f).now = s.now := rfl
@[simp] theorem State.modTz_freeCtr (s : State) (z : Fin 32) (f : TripZone → TripZone) : (s.modTz z f).freeCtr = s.freeCtr := rfl
@[simp] theorem State.modTz_barges (s : State) (z : Fin 32) (f : TripZone → TripZone) : (s.modTz z f).barges = s.barges := rfl
@[simp] theorem State.modTz_basins (s : State) (z : Fin 32) (f : TripZone → TripZone) : (s.modTz z f).basins = s.basins := rfl
@[simp] theorem State.modTz_rv (s : State) (z : Fin 32) (f : TripZone → TripZone) : (s.modTz z f).rv = s.rv := rfl
@[simp] theorem State.modTz_hms (s : State) (z : Fin 32) (f : TripZone → TripZone) : (s.modTz z f).hms = s.hms := rfl
@[simp] theorem State.modTz_nvp (s : State) (z : Fin 32) (f : TripZone → TripZone) : (s.modTz z f).nvp = s.nvp := rfl
@[simp] theorem State.modTz_wharf (s : State) (z : Fin 32) (f : TripZone → TripZone) : (s.modTz z f).wharf = s.wharf := rfl
@[simp] theorem State.modTz_kp (s : State) (z : Fin 32) (f : TripZone → TripZone) : (s.modTz z f).kp = s.kp := rfl
@[simp] theorem State.modTz_weir (s : State) (z : Fin 32) (f : TripZone → TripZone) : (s.modTz z f).weir = s.weir := rfl
@[simp] theorem State.modTz_fio (s : State) (z : Fin 32) (f : TripZone → TripZone) : (s.modTz z f).fio = s.fio := rfl
@[simp] theorem State.modTz_tl (s : State) (z : Fin 32) (f : TripZone → TripZone) : (s.modTz z f).tl = s.tl := rfl
@[simp] theorem State.modTz_crp (s : State) (z : Fin 32) (f : TripZone → TripZone) : (s.modTz z f).crp = s.crp := rfl
@[simp] theorem State.modTz_hif (s : State) (z : Fin 32) (f : TripZone → TripZone) : (s.modTz z f).hif = s.hif := rfl
@[simp] theorem State.modTz_ferry (s : State) (z : Fin 32) (f : TripZone → TripZone) : (s.modTz z f).ferry = s.ferry := rfl
@[simp] theorem State.modTz_fw (s : State) (z : Fin 32) (f : TripZone → TripZone) : (s.modTz z f).fw = s.fw := rfl
@[simp] theorem State.modTz_sec (s : State) (z : Fin 32) (f : TripZone → TripZone) : (s.modTz z f).sec = s.sec := rfl
@[simp] theorem State.modTz_events (s : State) (z : Fin 32) (f : TripZone → TripZone) : (s.modTz z f).events = s.events := rfl
@[simp] theorem State.modTz_pending (s : State) (z : Fin 32) (f : TripZone → TripZone) : (s.modTz z f).pending = s.pending := rfl
@[simp] theorem State.modTz_pwm (s : State) (z : Fin 32) (f : TripZone → TripZone) : (s.modTz z f).pwm = { s.pwm with tz := vmod s.pwm.tz z f } := rfl

@[simp] theorem State.modWeir_now (s : State) (n : Fin 384) (f : WeirChan → WeirChan) : (s.modWeir n f).now = s.now := rfl
@[simp] theorem State.modWeir_freeCtr (s : State) (n : Fin 384) (f : WeirChan → WeirChan) : (s.modWeir n f).freeCtr = s.freeCtr := rfl
@[simp] theorem State.modWeir_barges (s : State) (n : Fin 384) (f : WeirChan → WeirChan) : (s.modWeir n f).barges = s.barges := rfl
@[simp] theorem State.modWeir_basins (s : State) (n : Fin 384) (f : WeirChan → WeirChan) : (s.modWeir n f).basins = s.basins := rfl
@[simp] theorem State.modWeir_rv (s : State) (n : Fin 384) (f : WeirChan → WeirChan) : (s.modWeir n f).rv = s.rv := rfl
@[simp] theorem State.modWeir_hms (s : State) (n : Fin 384) (f : WeirChan → WeirChan) : (s.modWeir n f).hms = s.hms := rfl
@[simp] theorem State.modWeir_nvp (s : State) (n : Fin 384) (f : WeirChan → WeirChan) : (s.modWeir n f).nvp = s.nvp := rfl
@[simp] theorem State.modWeir_wharf (s : State) (n : Fin 384) (f : WeirChan → WeirChan) : (s.modWeir n f).wharf = s.wharf := rfl
@[simp] theorem State.modWeir_kp (s : State) (n : Fin 384) (f : WeirChan → WeirChan) : (s.modWeir n f).kp = s.kp := rfl
@[simp] theorem State.modWeir_pwm (s : State) (n : Fin 384) (f : WeirChan → WeirChan) : (s.modWeir n f).pwm = s.pwm := rfl
@[simp] theorem State.modWeir_fio (s : State) (n : Fin 384) (f : WeirChan → WeirChan) : (s.modWeir n f).fio = s.fio := rfl
@[simp] theorem State.modWeir_tl (s : State) (n : Fin 384) (f : WeirChan → WeirChan) : (s.modWeir n f).tl = s.tl := rfl
@[simp] theorem State.modWeir_crp (s : State) (n : Fin 384) (f : WeirChan → WeirChan) : (s.modWeir n f).crp = s.crp := rfl
@[simp] theorem State.modWeir_hif (s : State) (n : Fin 384) (f : WeirChan → WeirChan) : (s.modWeir n f).hif = s.hif := rfl
@[simp] theorem State.modWeir_ferry (s : State) (n : Fin 384) (f : WeirChan → WeirChan) : (s.modWeir n f).ferry = s.ferry := rfl
@[simp] theorem State.modWeir_fw (s : State) (n : Fin 384) (f : WeirChan → WeirChan) : (s.modWeir n f).fw = s.fw := rfl
@[simp] theorem State.modWeir_sec (s : State) (n : Fin 384) (f : WeirChan → WeirChan) : (s.modWeir n f).sec = s.sec := rfl
@[simp] theorem State.modWeir_events (s : State) (n : Fin 384) (f : WeirChan → WeirChan) : (s.modWeir n f).events = s.events := rfl
@[simp] theorem State.modWeir_pending (s : State) (n : Fin 384) (f : WeirChan → WeirChan) : (s.modWeir n f).pending = s.pending := rfl
@[simp] theorem State.modWeir_weir (s : State) (n : Fin 384) (f : WeirChan → WeirChan) : (s.modWeir n f).weir = { s.weir with ch := vmod s.weir.ch n f } := rfl

@[simp] theorem State.modWeirGroup_now (s : State) (g : Fin 48) (f : WeirGroup → WeirGroup) : (s.modWeirGroup g f).now = s.now := rfl
@[simp] theorem State.modWeirGroup_freeCtr (s : State) (g : Fin 48) (f : WeirGroup → WeirGroup) : (s.modWeirGroup g f).freeCtr = s.freeCtr := rfl
@[simp] theorem State.modWeirGroup_barges (s : State) (g : Fin 48) (f : WeirGroup → WeirGroup) : (s.modWeirGroup g f).barges = s.barges := rfl
@[simp] theorem State.modWeirGroup_basins (s : State) (g : Fin 48) (f : WeirGroup → WeirGroup) : (s.modWeirGroup g f).basins = s.basins := rfl
@[simp] theorem State.modWeirGroup_rv (s : State) (g : Fin 48) (f : WeirGroup → WeirGroup) : (s.modWeirGroup g f).rv = s.rv := rfl
@[simp] theorem State.modWeirGroup_hms (s : State) (g : Fin 48) (f : WeirGroup → WeirGroup) : (s.modWeirGroup g f).hms = s.hms := rfl
@[simp] theorem State.modWeirGroup_nvp (s : State) (g : Fin 48) (f : WeirGroup → WeirGroup) : (s.modWeirGroup g f).nvp = s.nvp := rfl
@[simp] theorem State.modWeirGroup_wharf (s : State) (g : Fin 48) (f : WeirGroup → WeirGroup) : (s.modWeirGroup g f).wharf = s.wharf := rfl
@[simp] theorem State.modWeirGroup_kp (s : State) (g : Fin 48) (f : WeirGroup → WeirGroup) : (s.modWeirGroup g f).kp = s.kp := rfl
@[simp] theorem State.modWeirGroup_pwm (s : State) (g : Fin 48) (f : WeirGroup → WeirGroup) : (s.modWeirGroup g f).pwm = s.pwm := rfl
@[simp] theorem State.modWeirGroup_fio (s : State) (g : Fin 48) (f : WeirGroup → WeirGroup) : (s.modWeirGroup g f).fio = s.fio := rfl
@[simp] theorem State.modWeirGroup_tl (s : State) (g : Fin 48) (f : WeirGroup → WeirGroup) : (s.modWeirGroup g f).tl = s.tl := rfl
@[simp] theorem State.modWeirGroup_crp (s : State) (g : Fin 48) (f : WeirGroup → WeirGroup) : (s.modWeirGroup g f).crp = s.crp := rfl
@[simp] theorem State.modWeirGroup_hif (s : State) (g : Fin 48) (f : WeirGroup → WeirGroup) : (s.modWeirGroup g f).hif = s.hif := rfl
@[simp] theorem State.modWeirGroup_ferry (s : State) (g : Fin 48) (f : WeirGroup → WeirGroup) : (s.modWeirGroup g f).ferry = s.ferry := rfl
@[simp] theorem State.modWeirGroup_fw (s : State) (g : Fin 48) (f : WeirGroup → WeirGroup) : (s.modWeirGroup g f).fw = s.fw := rfl
@[simp] theorem State.modWeirGroup_sec (s : State) (g : Fin 48) (f : WeirGroup → WeirGroup) : (s.modWeirGroup g f).sec = s.sec := rfl
@[simp] theorem State.modWeirGroup_events (s : State) (g : Fin 48) (f : WeirGroup → WeirGroup) : (s.modWeirGroup g f).events = s.events := rfl
@[simp] theorem State.modWeirGroup_pending (s : State) (g : Fin 48) (f : WeirGroup → WeirGroup) : (s.modWeirGroup g f).pending = s.pending := rfl
@[simp] theorem State.modWeirGroup_weir (s : State) (g : Fin 48) (f : WeirGroup → WeirGroup) : (s.modWeirGroup g f).weir = { s.weir with grp := vmod s.weir.grp g f } := rfl

@[simp] theorem State.modFi_now (s : State) (n : Fin 128) (f : FieldIn → FieldIn) : (s.modFi n f).now = s.now := rfl
@[simp] theorem State.modFi_freeCtr (s : State) (n : Fin 128) (f : FieldIn → FieldIn) : (s.modFi n f).freeCtr = s.freeCtr := rfl
@[simp] theorem State.modFi_barges (s : State) (n : Fin 128) (f : FieldIn → FieldIn) : (s.modFi n f).barges = s.barges := rfl
@[simp] theorem State.modFi_basins (s : State) (n : Fin 128) (f : FieldIn → FieldIn) : (s.modFi n f).basins = s.basins := rfl
@[simp] theorem State.modFi_rv (s : State) (n : Fin 128) (f : FieldIn → FieldIn) : (s.modFi n f).rv = s.rv := rfl
@[simp] theorem State.modFi_hms (s : State) (n : Fin 128) (f : FieldIn → FieldIn) : (s.modFi n f).hms = s.hms := rfl
@[simp] theorem State.modFi_nvp (s : State) (n : Fin 128) (f : FieldIn → FieldIn) : (s.modFi n f).nvp = s.nvp := rfl
@[simp] theorem State.modFi_wharf (s : State) (n : Fin 128) (f : FieldIn → FieldIn) : (s.modFi n f).wharf = s.wharf := rfl
@[simp] theorem State.modFi_kp (s : State) (n : Fin 128) (f : FieldIn → FieldIn) : (s.modFi n f).kp = s.kp := rfl
@[simp] theorem State.modFi_pwm (s : State) (n : Fin 128) (f : FieldIn → FieldIn) : (s.modFi n f).pwm = s.pwm := rfl
@[simp] theorem State.modFi_weir (s : State) (n : Fin 128) (f : FieldIn → FieldIn) : (s.modFi n f).weir = s.weir := rfl
@[simp] theorem State.modFi_tl (s : State) (n : Fin 128) (f : FieldIn → FieldIn) : (s.modFi n f).tl = s.tl := rfl
@[simp] theorem State.modFi_crp (s : State) (n : Fin 128) (f : FieldIn → FieldIn) : (s.modFi n f).crp = s.crp := rfl
@[simp] theorem State.modFi_hif (s : State) (n : Fin 128) (f : FieldIn → FieldIn) : (s.modFi n f).hif = s.hif := rfl
@[simp] theorem State.modFi_ferry (s : State) (n : Fin 128) (f : FieldIn → FieldIn) : (s.modFi n f).ferry = s.ferry := rfl
@[simp] theorem State.modFi_fw (s : State) (n : Fin 128) (f : FieldIn → FieldIn) : (s.modFi n f).fw = s.fw := rfl
@[simp] theorem State.modFi_sec (s : State) (n : Fin 128) (f : FieldIn → FieldIn) : (s.modFi n f).sec = s.sec := rfl
@[simp] theorem State.modFi_events (s : State) (n : Fin 128) (f : FieldIn → FieldIn) : (s.modFi n f).events = s.events := rfl
@[simp] theorem State.modFi_pending (s : State) (n : Fin 128) (f : FieldIn → FieldIn) : (s.modFi n f).pending = s.pending := rfl
@[simp] theorem State.modFi_fio (s : State) (n : Fin 128) (f : FieldIn → FieldIn) : (s.modFi n f).fio = { s.fio with fi := vmod s.fio.fi n f } := rfl

@[simp] theorem State.modFo_now (s : State) (n : Fin 128) (f : FieldOut → FieldOut) : (s.modFo n f).now = s.now := rfl
@[simp] theorem State.modFo_freeCtr (s : State) (n : Fin 128) (f : FieldOut → FieldOut) : (s.modFo n f).freeCtr = s.freeCtr := rfl
@[simp] theorem State.modFo_barges (s : State) (n : Fin 128) (f : FieldOut → FieldOut) : (s.modFo n f).barges = s.barges := rfl
@[simp] theorem State.modFo_basins (s : State) (n : Fin 128) (f : FieldOut → FieldOut) : (s.modFo n f).basins = s.basins := rfl
@[simp] theorem State.modFo_rv (s : State) (n : Fin 128) (f : FieldOut → FieldOut) : (s.modFo n f).rv = s.rv := rfl
@[simp] theorem State.modFo_hms (s : State) (n : Fin 128) (f : FieldOut → FieldOut) : (s.modFo n f).hms = s.hms := rfl
@[simp] theorem State.modFo_nvp (s : State) (n : Fin 128) (f : FieldOut → FieldOut) : (s.modFo n f).nvp = s.nvp := rfl
@[simp] theorem State.modFo_wharf (s : State) (n : Fin 128) (f : FieldOut → FieldOut) : (s.modFo n f).wharf = s.wharf := rfl
@[simp] theorem State.modFo_kp (s : State) (n : Fin 128) (f : FieldOut → FieldOut) : (s.modFo n f).kp = s.kp := rfl
@[simp] theorem State.modFo_pwm (s : State) (n : Fin 128) (f : FieldOut → FieldOut) : (s.modFo n f).pwm = s.pwm := rfl
@[simp] theorem State.modFo_weir (s : State) (n : Fin 128) (f : FieldOut → FieldOut) : (s.modFo n f).weir = s.weir := rfl
@[simp] theorem State.modFo_tl (s : State) (n : Fin 128) (f : FieldOut → FieldOut) : (s.modFo n f).tl = s.tl := rfl
@[simp] theorem State.modFo_crp (s : State) (n : Fin 128) (f : FieldOut → FieldOut) : (s.modFo n f).crp = s.crp := rfl
@[simp] theorem State.modFo_hif (s : State) (n : Fin 128) (f : FieldOut → FieldOut) : (s.modFo n f).hif = s.hif := rfl
@[simp] theorem State.modFo_ferry (s : State) (n : Fin 128) (f : FieldOut → FieldOut) : (s.modFo n f).ferry = s.ferry := rfl
@[simp] theorem State.modFo_fw (s : State) (n : Fin 128) (f : FieldOut → FieldOut) : (s.modFo n f).fw = s.fw := rfl
@[simp] theorem State.modFo_sec (s : State) (n : Fin 128) (f : FieldOut → FieldOut) : (s.modFo n f).sec = s.sec := rfl
@[simp] theorem State.modFo_events (s : State) (n : Fin 128) (f : FieldOut → FieldOut) : (s.modFo n f).events = s.events := rfl
@[simp] theorem State.modFo_pending (s : State) (n : Fin 128) (f : FieldOut → FieldOut) : (s.modFo n f).pending = s.pending := rfl
@[simp] theorem State.modFo_fio (s : State) (n : Fin 128) (f : FieldOut → FieldOut) : (s.modFo n f).fio = { s.fio with fo := vmod s.fio.fo n f } := rfl

@[simp] theorem State.modLink_now (s : State) (l : Fin 16) (f : Link → Link) : (s.modLink l f).now = s.now := rfl
@[simp] theorem State.modLink_freeCtr (s : State) (l : Fin 16) (f : Link → Link) : (s.modLink l f).freeCtr = s.freeCtr := rfl
@[simp] theorem State.modLink_barges (s : State) (l : Fin 16) (f : Link → Link) : (s.modLink l f).barges = s.barges := rfl
@[simp] theorem State.modLink_basins (s : State) (l : Fin 16) (f : Link → Link) : (s.modLink l f).basins = s.basins := rfl
@[simp] theorem State.modLink_rv (s : State) (l : Fin 16) (f : Link → Link) : (s.modLink l f).rv = s.rv := rfl
@[simp] theorem State.modLink_hms (s : State) (l : Fin 16) (f : Link → Link) : (s.modLink l f).hms = s.hms := rfl
@[simp] theorem State.modLink_nvp (s : State) (l : Fin 16) (f : Link → Link) : (s.modLink l f).nvp = s.nvp := rfl
@[simp] theorem State.modLink_wharf (s : State) (l : Fin 16) (f : Link → Link) : (s.modLink l f).wharf = s.wharf := rfl
@[simp] theorem State.modLink_kp (s : State) (l : Fin 16) (f : Link → Link) : (s.modLink l f).kp = s.kp := rfl
@[simp] theorem State.modLink_pwm (s : State) (l : Fin 16) (f : Link → Link) : (s.modLink l f).pwm = s.pwm := rfl
@[simp] theorem State.modLink_weir (s : State) (l : Fin 16) (f : Link → Link) : (s.modLink l f).weir = s.weir := rfl
@[simp] theorem State.modLink_fio (s : State) (l : Fin 16) (f : Link → Link) : (s.modLink l f).fio = s.fio := rfl
@[simp] theorem State.modLink_crp (s : State) (l : Fin 16) (f : Link → Link) : (s.modLink l f).crp = s.crp := rfl
@[simp] theorem State.modLink_hif (s : State) (l : Fin 16) (f : Link → Link) : (s.modLink l f).hif = s.hif := rfl
@[simp] theorem State.modLink_ferry (s : State) (l : Fin 16) (f : Link → Link) : (s.modLink l f).ferry = s.ferry := rfl
@[simp] theorem State.modLink_fw (s : State) (l : Fin 16) (f : Link → Link) : (s.modLink l f).fw = s.fw := rfl
@[simp] theorem State.modLink_sec (s : State) (l : Fin 16) (f : Link → Link) : (s.modLink l f).sec = s.sec := rfl
@[simp] theorem State.modLink_events (s : State) (l : Fin 16) (f : Link → Link) : (s.modLink l f).events = s.events := rfl
@[simp] theorem State.modLink_pending (s : State) (l : Fin 16) (f : Link → Link) : (s.modLink l f).pending = s.pending := rfl
@[simp] theorem State.modLink_tl (s : State) (l : Fin 16) (f : Link → Link) : (s.modLink l f).tl = { s.tl with link := vmod s.tl.link l f } := rfl

@[simp] theorem State.modBpwr_now (s : State) (n : BasinIx) (f : Bpwr → Bpwr) : (s.modBpwr n f).now = s.now := rfl
@[simp] theorem State.modBpwr_freeCtr (s : State) (n : BasinIx) (f : Bpwr → Bpwr) : (s.modBpwr n f).freeCtr = s.freeCtr := rfl
@[simp] theorem State.modBpwr_barges (s : State) (n : BasinIx) (f : Bpwr → Bpwr) : (s.modBpwr n f).barges = s.barges := rfl
@[simp] theorem State.modBpwr_basins (s : State) (n : BasinIx) (f : Bpwr → Bpwr) : (s.modBpwr n f).basins = s.basins := rfl
@[simp] theorem State.modBpwr_rv (s : State) (n : BasinIx) (f : Bpwr → Bpwr) : (s.modBpwr n f).rv = s.rv := rfl
@[simp] theorem State.modBpwr_hms (s : State) (n : BasinIx) (f : Bpwr → Bpwr) : (s.modBpwr n f).hms = s.hms := rfl
@[simp] theorem State.modBpwr_nvp (s : State) (n : BasinIx) (f : Bpwr → Bpwr) : (s.modBpwr n f).nvp = s.nvp := rfl
@[simp] theorem State.modBpwr_wharf (s : State) (n : BasinIx) (f : Bpwr → Bpwr) : (s.modBpwr n f).wharf = s.wharf := rfl
@[simp] theorem State.modBpwr_kp (s : State) (n : BasinIx) (f : Bpwr → Bpwr) : (s.modBpwr n f).kp = s.kp := rfl
@[simp] theorem State.modBpwr_pwm (s : State) (n : BasinIx) (f : Bpwr → Bpwr) : (s.modBpwr n f).pwm = s.pwm := rfl
@[simp] theorem State.modBpwr_weir (s : State) (n : BasinIx) (f : Bpwr → Bpwr) : (s.modBpwr n f).weir = s.weir := rfl
@[simp] theorem State.modBpwr_fio (s : State) (n : BasinIx) (f : Bpwr → Bpwr) : (s.modBpwr n f).fio = s.fio := rfl
@[simp] theorem State.modBpwr_tl (s : State) (n : BasinIx) (f : Bpwr → Bpwr) : (s.modBpwr n f).tl = s.tl := rfl
@[simp] theorem State.modBpwr_hif (s : State) (n : BasinIx) (f : Bpwr → Bpwr) : (s.modBpwr n f).hif = s.hif := rfl
@[simp] theorem State.modBpwr_ferry (s : State) (n : BasinIx) (f : Bpwr → Bpwr) : (s.modBpwr n f).ferry = s.ferry := rfl
@[simp] theorem State.modBpwr_fw (s : State) (n : BasinIx) (f : Bpwr → Bpwr) : (s.modBpwr n f).fw = s.fw := rfl
@[simp] theorem State.modBpwr_sec (s : State) (n : BasinIx) (f : Bpwr → Bpwr) : (s.modBpwr n f).sec = s.sec := rfl
@[simp] theorem State.modBpwr_events (s : State) (n : BasinIx) (f : Bpwr → Bpwr) : (s.modBpwr n f).events = s.events := rfl
@[simp] theorem State.modBpwr_pending (s : State) (n : BasinIx) (f : Bpwr → Bpwr) : (s.modBpwr n f).pending = s.pending := rfl
@[simp] theorem State.modBpwr_crp (s : State) (n : BasinIx) (f : Bpwr → Bpwr) : (s.modBpwr n f).crp = { s.crp with bpwr := vmod s.crp.bpwr n f } := rfl

/-! ### Events (R6) -/

@[simp] theorem State.mark_now (r : W1cReg) (i : Nat) (s : State) : (s.mark r i).now = s.now := rfl
@[simp] theorem State.mark_freeCtr (r : W1cReg) (i : Nat) (s : State) : (s.mark r i).freeCtr = s.freeCtr := rfl
@[simp] theorem State.mark_barges (r : W1cReg) (i : Nat) (s : State) : (s.mark r i).barges = s.barges := rfl
@[simp] theorem State.mark_basins (r : W1cReg) (i : Nat) (s : State) : (s.mark r i).basins = s.basins := rfl
@[simp] theorem State.mark_rv (r : W1cReg) (i : Nat) (s : State) : (s.mark r i).rv = s.rv := rfl
@[simp] theorem State.mark_hms (r : W1cReg) (i : Nat) (s : State) : (s.mark r i).hms = s.hms := rfl
@[simp] theorem State.mark_nvp (r : W1cReg) (i : Nat) (s : State) : (s.mark r i).nvp = s.nvp := rfl
@[simp] theorem State.mark_wharf (r : W1cReg) (i : Nat) (s : State) : (s.mark r i).wharf = s.wharf := rfl
@[simp] theorem State.mark_kp (r : W1cReg) (i : Nat) (s : State) : (s.mark r i).kp = s.kp := rfl
@[simp] theorem State.mark_pwm (r : W1cReg) (i : Nat) (s : State) : (s.mark r i).pwm = s.pwm := rfl
@[simp] theorem State.mark_weir (r : W1cReg) (i : Nat) (s : State) : (s.mark r i).weir = s.weir := rfl
@[simp] theorem State.mark_fio (r : W1cReg) (i : Nat) (s : State) : (s.mark r i).fio = s.fio := rfl
@[simp] theorem State.mark_tl (r : W1cReg) (i : Nat) (s : State) : (s.mark r i).tl = s.tl := rfl
@[simp] theorem State.mark_crp (r : W1cReg) (i : Nat) (s : State) : (s.mark r i).crp = s.crp := rfl
@[simp] theorem State.mark_hif (r : W1cReg) (i : Nat) (s : State) : (s.mark r i).hif = s.hif := rfl
@[simp] theorem State.mark_ferry (r : W1cReg) (i : Nat) (s : State) : (s.mark r i).ferry = s.ferry := rfl
@[simp] theorem State.mark_fw (r : W1cReg) (i : Nat) (s : State) : (s.mark r i).fw = s.fw := rfl
@[simp] theorem State.mark_sec (r : W1cReg) (i : Nat) (s : State) : (s.mark r i).sec = s.sec := rfl
@[simp] theorem State.mark_pending (r : W1cReg) (i : Nat) (s : State) : (s.mark r i).pending = s.pending := rfl

/-- With no event noted, a W1C write clears what its value names (R6). -/
theorem State.w1c_quiet (s : State) (r : W1cReg) (same : Nat → Bool) (v : Word) (h : s.events = []) : s.w1c r same v = v := by
  simp [State.w1c, h]

end Sys2Proof.Machine
end

