-- ==== Sys2Proof/Laws/Frames.lean ====
section
/-! SUPPORT. What the frames of commands do, said once: a gate that holds or does not, the Keeper's stages, and the frames that let
HIF_READY, power states, dividers and trip zones follow. -/

namespace Sys2Proof.Machine

theorem gated_of (c : State → Bool) (f : State → State) (s : State) (h : c s = true) : gated c f s = f s := by simp [gated, h]

theorem gated_not (c : State → Bool) (f : State → State) (s : State) (h : c s = false) : gated c f s = s := by simp [gated, h]

/-- An event in its turn (R187). -/
theorem staged_of (k : Nat) (f : State → State) (s : State) (h : inOrder s k = true) : staged k f s = f (enterStage k s) := by
  simp [staged, h]

/-- An event out of its turn (R187). -/
theorem staged_not (k : Nat) (f : State → State) (s : State) (h : inOrder s k = false) : staged k f s = s := by simp [staged, h]

/-- A change that leaves HIF_READY as it was raises no vector (R346, R361). -/
theorem watchReady_same (f : State → State) (s : State) (h : readyBits (f s) = readyBits s) : watchReady f s = f s := by
  simp [watchReady, h]

/-- A change that leaves holds, tolerances and tasks as they were chooses no power state anew (R348). -/
theorem powersFollow_same (f : State → State) (s : State) (h : powerInputs (f s) = powerInputs s) : powersFollow f s = f s := by
  simp [powersFollow, h]

/-- The frame of a Keeper command whose part is available. -/
theorem keeperAct_next (s : State) (dt : Nat) (f : State → State) (h : s.crp.factory = false) (hc : s.crp.coldHeld = false) :
    keeperAct s dt f = .next (powersFollow (fun s => settle (watchReady f s)) (s.elapse dt)) :=
  act_next s dt _ h hc

/-- The frame of a command that may write any register, whose part is available. -/
theorem registerAct_next (s : State) (dt : Nat) (f : State → State) (h : s.crp.factory = false) (hc : s.crp.coldHeld = false) :
    registerAct s dt f = .next (watchTrips (powersFollow (watchLine 12 fun s => settle (watchReady f s))) (s.elapse dt)) :=
  act_next s dt _ h hc

end Sys2Proof.Machine
end

