-- ==== Sys2Proof/Laws/Memory.lean ====
section
/-! SUPPORT. The memories: what a write leaves to be read, and that every memory operation keeps the canonical form. -/

namespace Sys2Proof.Machine

/-! ### Lists keyed by number -/

/-- Every key of a list is at least k. -/
def keysFrom {α : Type} (k : Nat) (l : List (Nat × α)) : Prop := ∀ c ∈ l, k ≤ c.1

theorem keysRise_cons {α : Type} (j : Nat) (x : α) (r : List (Nat × α)) :
    keysRise ((j, x) :: r) = true ↔ keysRise r = true ∧ keysFrom (j + 1) r := by
  induction r generalizing j x with
  | nil => simp [keysRise, keysFrom]
  | cons c r ih =>
    obtain ⟨k, y⟩ := c
    simp only [keysRise, Bool.and_eq_true, decide_eq_true_eq]
    rw [ih k y]
    constructor
    · rintro ⟨hjk, hr, hk⟩
      refine ⟨⟨hr, hk⟩, ?_⟩
      intro c hc
      rcases List.mem_cons.1 hc with rfl | hc
      · exact hjk
      · exact Nat.le_trans (by omega) (hk c hc)
    · rintro ⟨⟨hr, hk⟩, hj⟩
      exact ⟨hj (k, y) (by simp), hr, hk⟩

theorem kset_keysFrom {α : Type} (l : List (Nat × α)) (k m : Nat) (v : Option α) (h : keysFrom m l) (hm : m ≤ k) :
    keysFrom m (kset l k v) := by
  induction l with
  | nil => cases v <;> simp [kset, keysFrom, hm]
  | cons c r ih =>
    obtain ⟨j, x⟩ := c
    have hj : m ≤ j := h (j, x) (by simp)
    have hr : keysFrom m r := fun c hc => h c (by simp [hc])
    unfold kset
    split
    · intro c hc
      rcases List.mem_cons.1 hc with rfl | hc
      · exact hj
      · exact ih hr c hc
    · have hrest : keysFrom m (if j = k then r else (j, x) :: r) := by
        split
        · exact hr
        · exact h
      cases v with
      | none => exact hrest
      | some y =>
        intro c hc
        rcases List.mem_cons.1 hc with rfl | hc
        · exact hm
        · exact hrest c hc

theorem keysRise_kset {α : Type} (l : List (Nat × α)) (k : Nat) (v : Option α) (h : keysRise l = true) :
    keysRise (kset l k v) = true := by
  induction l with
  | nil => cases v <;> simp [kset, keysRise]
  | cons c r ih =>
    obtain ⟨j, x⟩ := c
    obtain ⟨hr, hf⟩ := (keysRise_cons j x r).1 h
    unfold kset
    split
    · rename_i hjk
      exact (keysRise_cons _ _ _).2 ⟨ih hr, kset_keysFrom r k (j + 1) v hf hjk⟩
    · rename_i hjk
      by_cases e : j = k
      · subst e
        cases v with
        | none => simpa using hr
        | some y => simpa using (keysRise_cons j y r).2 ⟨hr, hf⟩
      · cases v with
        | none => simpa [e] using h
        | some y =>
          simp only [e, if_false]
          refine (keysRise_cons _ _ _).2 ⟨h, ?_⟩
          intro c hc
          rcases List.mem_cons.1 hc with rfl | hc
          · simp; omega
          · have := hf c hc; omega

theorem kget_keysFrom {α : Type} (l : List (Nat × α)) (k m : Nat) (h : keysFrom m l) (hk : k < m) : kget l k = none := by
  induction l with
  | nil => rfl
  | cons c r ih =>
    obtain ⟨j, x⟩ := c
    have hj : m ≤ j := h (j, x) (by simp)
    have : j ≠ k := by omega
    simp [kget, this, ih fun c hc => h c (by simp [hc])]

theorem kget_kset {α : Type} (l : List (Nat × α)) (k i : Nat) (v : Option α) (h : keysRise l = true) :
    kget (kset l k v) i = if i = k then v else kget l i := by
  induction l with
  | nil =>
    cases v with
    | none => by_cases hi : i = k <;> simp [kset, kget, hi]
    | some y =>
      by_cases hi : i = k
      · simp [kset, kget, hi]
      · have : k ≠ i := fun x => hi x.symm
        simp [kset, kget, hi, this]
  | cons c r ih =>
    obtain ⟨j, x⟩ := c
    obtain ⟨hr, hf⟩ := (keysRise_cons j x r).1 h
    unfold kset
    split
    · rename_i hjk
      by_cases hji : j = i
      · subst hji
        have : j ≠ k := by omega
        simp [kget, this]
      · simp [kget, hji, ih hr]
    · rename_i hjk
      by_cases e : j = k
      · subst e
        cases v with
        | none =>
          by_cases hi : i = j
          · subst hi
            simp [kget_keysFrom r i (i + 1) hf (by omega)]
          · have : j ≠ i := fun x => hi x.symm
            simp [kget, hi, this]
        | some y =>
          by_cases hi : i = j
          · subst hi; simp [kget]
          · have : j ≠ i := fun x => hi x.symm
            simp [kget, hi, this]
      · cases v with
        | none =>
          by_cases hi : i = k
          · subst hi
            simp [e, kget, kget_keysFrom r i (j + 1) hf (by omega)]
          · simp [e, hi]
        | some y =>
          by_cases hi : i = k
          · subst hi; simp [kget]
          · have : k ≠ i := fun x => hi x.symm
            simp [kget, e, hi, this]

theorem kset_mem {α : Type} (l : List (Nat × α)) (k : Nat) (v : Option α) (c : Nat × α) (h : c ∈ kset l k v) :
    c ∈ l ∨ v = some c.2 := by
  induction l with
  | nil =>
    cases v with
    | none => simp [kset] at h
    | some y => simp [kset] at h; subst h; simp
  | cons d r ih =>
    obtain ⟨j, x⟩ := d
    unfold kset at h
    split at h
    · rcases List.mem_cons.1 h with rfl | h
      · simp
      · rcases ih h with h | h
        · exact .inl (by simp [h])
        · exact .inr h
    · have hrest : ∀ c ∈ (if j = k then r else (j, x) :: r), c ∈ (j, x) :: r := by
        intro c hc
        split at hc
        · simp [hc]
        · exact hc
      cases v with
      | none => exact .inl (hrest c h)
      | some y =>
        rcases List.mem_cons.1 h with rfl | h
        · simp
        · exact .inl (hrest c h)

/-! ### A memory -/

theorem Mem.wf_iff (m : Mem) :
    m.wf = true ↔ keysRise m.cells = true ∧ (∀ c ∈ m.cells, c.2 ≠ 0) ∧ keysRise m.marks = true := by
  simp [Mem.wf, and_assoc]

theorem Mem.setNonet_wf (m : Mem) (a : Nat) (v : Nonet) (h : m.wf = true) : (m.setNonet a v).wf = true := by
  rw [Mem.wf_iff] at h ⊢
  refine ⟨keysRise_kset _ _ _ h.1, ?_, h.2.2⟩
  intro c hc
  rcases kset_mem _ _ _ _ hc with hc | hc
  · exact h.2.1 c hc
  · split at hc
    · simp at hc
    · simp at hc; subst hc; assumption

/-- A nonet reads as it was last written, and every other as before. -/
theorem Mem.nonet_setNonet (m : Mem) (a b : Nat) (v : Nonet) (h : m.wf = true) :
    (m.setNonet a v).nonet b = if b = a then v else m.nonet b := by
  have hr := ((Mem.wf_iff m).1 h).1
  unfold Mem.nonet Mem.setNonet
  simp only [kget_kset _ _ _ _ hr]
  split
  · by_cases hv : v = 0
    · rw [if_pos hv]; exact hv.symm
    · rw [if_neg hv]; rfl
  · rfl

theorem Mem.setAll_wf (ws : List (Nat × Nonet)) (m : Mem) (h : m.wf = true) : (m.setAll ws).wf = true := by
  induction ws generalizing m with
  | nil => exact h
  | cons w ws ih => exact ih (m.setNonet w.1 w.2) (Mem.setNonet_wf m w.1 w.2 h)

@[simp] theorem Mem.setNonet_marks (m : Mem) (a : Nat) (v : Nonet) : (m.setNonet a v).marks = m.marks := rfl

@[simp] theorem Mem.setAll_marks (ws : List (Nat × Nonet)) (m : Mem) : (m.setAll ws).marks = m.marks := by
  induction ws generalizing m with
  | nil => rfl
  | cons w ws ih => exact ih (m.setNonet w.1 w.2)

/-- A nonet that none of the writes names reads as before. -/
theorem Mem.nonet_setAll_other (ws : List (Nat × Nonet)) (m : Mem) (b : Nat) (h : m.wf = true) (hb : ∀ w ∈ ws, w.1 ≠ b) :
    (m.setAll ws).nonet b = m.nonet b := by
  induction ws generalizing m with
  | nil => rfl
  | cons w ws ih =>
    have h1 := ih (m.setNonet w.1 w.2) (Mem.setNonet_wf m w.1 w.2 h) fun x hx => hb x (by simp [hx])
    have : b ≠ w.1 := fun e => hb w (by simp) e.symm
    show ((m.setNonet w.1 w.2).setAll ws).nonet b = _
    rw [h1, Mem.nonet_setNonet m w.1 b w.2 h, if_neg this]

theorem Mem.heal_wf (m : Mem) (i : Nat) (h : m.wf = true) : (m.heal i).wf = true := by
  unfold Mem.heal
  split
  · exact h
  · rw [Mem.wf_iff] at h ⊢
    exact ⟨h.1, h.2.1, keysRise_kset _ _ _ h.2.2⟩

@[simp] theorem Mem.heal_cells (m : Mem) (i : Nat) : (m.heal i).cells = m.cells := by
  unfold Mem.heal
  split <;> rfl

theorem Mem.heals_wf (l : List Nat) (m : Mem) (h : m.wf = true) : (l.foldl Mem.heal m).wf = true := by
  induction l generalizing m with
  | nil => exact h
  | cons i l ih => exact ih (m.heal i) (Mem.heal_wf m i h)

@[simp] theorem Mem.heals_cells (l : List Nat) (m : Mem) : (l.foldl Mem.heal m).cells = m.cells := by
  induction l generalizing m with
  | nil => rfl
  | cons i l ih => simp [ih]

theorem Mem.write_wf (m : Mem) (ws : List (Nat × Nonet)) (h : m.wf = true) : (m.write ws).wf = true :=
  Mem.heals_wf _ _ (Mem.setAll_wf ws m h)

@[simp] theorem Mem.write_nonet (m : Mem) (ws : List (Nat × Nonet)) (b : Nat) : (m.write ws).nonet b = (m.setAll ws).nonet b := by
  simp [Mem.write, Mem.nonet]

/-- A write leaves every nonet that it does not name as it was. -/
theorem Mem.write_other (m : Mem) (ws : List (Nat × Nonet)) (b : Nat) (h : m.wf = true) (hb : ∀ w ∈ ws, w.1 ≠ b) :
    (m.write ws).nonet b = m.nonet b := by
  rw [Mem.write_nonet, Mem.nonet_setAll_other ws m b h hb]

theorem keysRise_filter {α : Type} (p : Nat × α → Bool) (l : List (Nat × α)) (h : keysRise l = true) :
    keysRise (l.filter p) = true := by
  induction l with
  | nil => rfl
  | cons c r ih =>
    obtain ⟨j, x⟩ := c
    obtain ⟨hr, hf⟩ := (keysRise_cons j x r).1 h
    by_cases hp : p (j, x) = true
    · rw [List.filter_cons_of_pos hp]
      exact (keysRise_cons _ _ _).2 ⟨ih hr, fun c hc => hf c (List.mem_of_mem_filter hc)⟩
    · rw [List.filter_cons_of_neg hp]
      exact ih hr

theorem Mem.zeroed_wf (m : Mem) (h : m.wf = true) : m.zeroed.wf = true := by
  rw [Mem.wf_iff] at h ⊢
  exact ⟨rfl, by simp [Mem.zeroed], keysRise_filter _ _ h.2.2⟩

theorem Mem.zeroBlock_wf (m : Mem) (n p : Nat) (h : m.wf = true) : (m.zeroBlock n p).wf = true := by
  rw [Mem.wf_iff] at h ⊢
  refine ⟨keysRise_filter _ _ h.1, fun c hc => h.2.1 c (List.mem_of_mem_filter hc), keysRise_filter _ _ h.2.2⟩

/-- The value of n nonets read after a write that names none of them is the value before. -/
theorem Mem.read_congr (m m' : Mem) (n : Nat) : ∀ a, (∀ b, a ≤ b → b < a + n → m'.nonet b = m.nonet b) →
    m'.read a n = m.read a n := by
  induction n with
  | zero => intro a _; rfl
  | succ n ih =>
    intro a h
    simp only [Mem.read]
    rw [h a (by omega) (by omega), ih (a + 1) fun b h1 h2 => h b (by omega) (by omega)]

theorem Mem.default_wf : ({} : Mem).wf = true := rfl

end Sys2Proof.Machine
end

