-- ==== Sys2Proof/WellFormed.lean ====
section
/-! DEFINITION. Which operands a command can have: what the rules say of the thing that the operand stands for. The machine is total
and gives every command a meaning whether it is well formed or not; a well-formed one is one that the part can meet. -/

namespace Sys2Proof

open Machine

/-- A transaction as R237 allows it: a burst has 2 to 16 beats from a row's start, a half or word is aligned to its size, a set of
nonets is not empty, a write carries the words of its span and a read none. -/
def Tx.wf (t : Tx) : Bool :=
  (match t.size with
    | .nonet => true
    | .half => t.addr.toNat % 2 == 0
    | .word => t.addr.toNat % 4 == 0
    | .row e => e != 0
    | .burst k => decide (2 ≤ k ∧ k ≤ 16) && t.addr.toNat % 32 == 0) &&
  t.data.length == (if t.write then match t.size with
    | .nonet | .half | .word => 1
    | .row _ => 8
    | .burst k => 8 * k else 0)

/-- A host access to a view of `size` bytes (R358, R364): whole DWORDs, at least one, within the view. -/
def HostBytes.wf (x : HostBytes) (size : Nat) : Bool :=
  x.offset % 4 == 0 && x.bytes.length % 4 == 0 && decide (0 < x.bytes.length) && decide (x.offset + x.bytes.length ≤ size)

/-- A register's address in its space: a word of the bridge's range (R235), a DWORD of BAR0 (R358); any word of a window, or of the
Keeper's space (R83, R203). -/
def RegPath.wf : RegPath → Bool
  | .window _ _ => true
  | .per _ addr => addr.toNat % 4 == 0 && decide (0x20000000 ≤ addr.toNat ∧ addr.toNat < 0x21000000)
  | .bar0 offset _ => offset.toNat % 4 == 0
  | .port _ _ => true

/-- A command's operands are well formed: requesters and disagreeing channels are named once (R216, R281, R309), bit streams have
the lengths of R251 and R266, a frame that is not aborted has a header and at most 259 units (R319 to R321), a conversion round
reads eight sensors (R349), a transfer that fails names how (R367), Max Payload Size is at most the 512 bytes that chapter 14
states, a fuse operation and a warm reset are those that their word spells (R419, R351). -/
def Instr.wf : Instr → Bool
  | .instructionIssue _ _ rivals => decide (rivals.Nodup)
  | .storeBufferDrain _ _ rivals => decide (rivals.Nodup)
  | .rptElement _ _ rivals => decide (rivals.Nodup)
  | .registerWrite _ path _ => decide (path.wf = true)
  | .scrubAccess _ _ rivals => decide (rivals.Nodup)
  | .wharfAccept _ _ tx => decide (tx.wf = true)
  | .targetGrant _ _ rivals => decide (rivals.Nodup)
  | .hrpwmCommit _ disagree => decide (disagree.Nodup)
  | .foCommit _ disagree => decide (disagree.Nodup)
  | .mainSampleReady _ _ bits _ => decide (bits.length ≤ 1024)
  | .fastSample _ _ bits => decide (bits.length ≤ 64)
  | .stuckStream _ _ bits => decide (16 ≤ bits.length ∧ bits.length ≤ 64)
  | .frameReceive _ _ units aborted => decide (aborted = true ∨ (units ≠ [] ∧ units.length ≤ 259))
  | .rstcmdWarm _ value _ => decide (bit value 12 = true)
  | .thermalConversion _ readings => decide (readings.length = 8)
  | .mailboxWrite _ _ data => decide (data.wf 256 = true)
  | .bar2Access _ _ data => decide (data.wf 0x800000 = true)
  | .bar4Access _ _ data => decide (data.wf 0x800000 = true)
  | .pcioFailure _ kind => decide (kind ≠ .ok)
  | .dbgStep _ _ rivals => decide (rivals.Nodup)
  | .fuseLifeAdvance _ value => decide (bitsN value 0 4 = 1)
  | .fuseKeyProgram _ value => decide (bitsN value 0 4 = 2)
  | .fuseDbgSet _ value => decide (bitsN value 0 4 = 3)
  | .fuseRevoke _ value => decide (bitsN value 0 4 = 4)
  | .fuseArbAdvance _ value => decide (bitsN value 0 4 = 5)
  | .fuseFwcntAdvance _ value => decide (bitsN value 0 4 = 6)
  | .fusePfuseBlow _ value => decide (bitsN value 0 4 = 7)
  | .fusePlockBlow _ value => decide (bitsN value 0 4 = 8)
  | .configSpaceWrite _ cfg => decide (cfg.mps.toNat ≤ 2)
  | .idleCount .. | .resultDelivery .. | .xluDepart .. | .xluResponse .. | .iouComplete .. | .cntWaitEnd .. | .gateEntry ..
  | .gateReturn .. | .syncEffect .. | .bankOwnHandoverComplete .. | .sealDepart .. | .lineReadDeliver .. | .patrolRead ..
  | .codeWindowRead .. | .interruptEntry .. | .tcmpWrite .. | .tcmpReached .. | .intcSwiWrite .. | .basinDbellWrite ..
  | .bankOwnWrite .. | .codemapWrite .. | .bcPswWrite .. | .unitContextWrite .. | .dateArrival .. | .retryRequestArrival ..
  | .decisionNoticeArrival .. | .haltEntry .. | .nvpProgram .. | .nvpBlank .. | .nvpComplete .. | .targetResponse ..
  | .wharfCntclr .. | .keeperCycleStart .. | .sealArrival .. | .faultReportArrival .. | .resetReportArrival .. | .decision ..
  | .windowClose .. | .retryRequest .. | .lockGateOpen .. | .channelRetirementReport .. | .keeperSelfTest ..
  | .kclkMonitorWindow .. | .safeHalfPeriod .. | .arm .. | .run .. | .startTask .. | .stopTask .. | .retireBarge ..
  | .forceSafe .. | .clearFc .. | .restoreBarge .. | .clearDegraded .. | .kpDseedWrite .. | .kpCfgWrite .. | .taskEntryWrite ..
  | .kpLogRead .. | .hrpwmStgWrite .. | .foStgWrite .. | .tlStgWrite .. | .tlCommit .. | .groupSafeOrder .. | .timebaseEnable ..
  | .periodBoundary .. | .zxmissExpiry .. | .hrpwmChannelEnable .. | .tripZoneChange .. | .tripclr .. | .hrpwmReadbackSample ..
  | .hrpwmCrst .. | .resWrite .. | .calibrationLock .. | .weirGroupEnable .. | .weirChannelEnable .. | .demodOutput ..
  | .recordAccept .. | .recordWrite .. | .weirFreeze .. | .headerWrite .. | .clockLoss .. | .grst .. | .fthrWrite ..
  | .fiRawChange .. | .fiAccept .. | .fiFreeze .. | .pairDiscrepancy .. | .fret .. | .fiCrst .. | .foEnable ..
  | .foReadbackSample .. | .offTestStart .. | .offTestEnd .. | .foCrst .. | .tlLinkEnable .. | .rxLock .. | .lockLoss ..
  | .capResend .. | .ackTimeout .. | .rxtoExpiry .. | .outFrameSend .. | .safeFrameSend .. | .poisonRecord .. | .tlFreeze ..
  | .tlMtxGo .. | .lrst .. | .pllLock .. | .pllLockLoss .. | .clockMonitorWindow .. | .supplyFault .. | .keeperPowerOn ..
  | .coldReset .. | .resetNPulse .. | .lockstepMismatch .. | .basinReset .. | .bargeResetCmd .. | .bholdWrite ..
  | .stsetWrite .. | .stationTimeTrim .. | .bpwrReqWrite .. | .b1Entry .. | .b1Wake .. | .powerTransitionComplete ..
  | .bootVerify .. | .muartRecovery .. | .hifDbellWrite .. | .hifRciWrite .. | .hifRcfgWrite .. | .flr .. | .perst ..
  | .pcioAccess .. | .ingressGo .. | .ingressDone .. | .eqPush .. | .ferryStrmWrite .. | .egressDraw .. | .egressWrite ..
  | .creditRefill .. | .erst .. | .l1Entry .. | .ltrSend .. | .ringEntryWrite .. | .mailboxTake .. | .deadlineExpiry ..
  | .eventPost .. | .hello .. | .info .. | .resetHost .. | .loadImage .. | .imageStat .. | .role .. | .taskStart ..
  | .taskStop .. | .keeper .. | .claim .. | .release .. | .latTol .. | .counters .. | .reset .. | .eventRoute .. | .setTime ..
  | .dbgHalt .. | .dbgResume .. | .dbgPcWrite .. | .dbgRegdataWrite .. | .drst .. | .newchal .. | .verify ..
  | .verifyComplete .. | .relock .. | .fuseOpComplete .. | .jtagUpdateDr .. | .tapReset .. | .coldResetAssert ..
  | .keeperPowerOnReset .. | .noCrystalEdge .. | .basinSelfTestComplete .. | .reservoirSelfTestComplete .. | .fiEnable ..
  | .jtagUpdateIr .. => true

/-- How long after the previous step a command happens, in units of 1/12 ns (log entry 1). -/
def Instr.dt : Instr → Nat
  | .instructionIssue dt _ _ | .idleCount dt _ | .resultDelivery dt _ _ | .storeBufferDrain dt _ _ | .xluDepart dt _
  | .xluResponse dt _ | .rptElement dt _ _ | .iouComplete dt _ | .cntWaitEnd dt _ | .gateEntry dt _ | .gateReturn dt _
  | .syncEffect dt _ | .bankOwnHandoverComplete dt _ _ | .sealDepart dt _ | .lineReadDeliver dt _ _ _ | .patrolRead dt _ _ _
  | .codeWindowRead dt _ | .interruptEntry dt _ | .tcmpWrite dt _ _ _ | .tcmpReached dt _ _ | .intcSwiWrite dt _ _
  | .basinDbellWrite dt _ _ _ | .bankOwnWrite dt _ _ _ _ | .codemapWrite dt _ _ _ _ | .bcPswWrite dt _ _
  | .unitContextWrite dt _ _ _ | .registerWrite dt _ _ | .dateArrival dt _ | .retryRequestArrival dt _
  | .decisionNoticeArrival dt _ | .haltEntry dt _ | .scrubAccess dt _ _ | .nvpProgram dt _ | .nvpBlank dt _
  | .nvpComplete dt _ _ | .wharfAccept dt _ _ | .targetGrant dt _ _ | .targetResponse dt _ _ | .wharfCntclr dt
  | .keeperCycleStart dt _ | .sealArrival dt _ _ _ | .faultReportArrival dt _ _ | .resetReportArrival dt _ _ | .decision dt _
  | .windowClose dt _ | .retryRequest dt _ | .lockGateOpen dt _ | .channelRetirementReport dt | .keeperSelfTest dt _
  | .kclkMonitorWindow dt _ | .safeHalfPeriod dt _ _ | .arm dt _ _ | .run dt _ _ | .startTask dt _ _ | .stopTask dt _ _
  | .retireBarge dt _ _ | .forceSafe dt _ _ | .clearFc dt _ _ | .restoreBarge dt _ _ | .clearDegraded dt _ _
  | .kpDseedWrite dt _ _ | .kpCfgWrite dt _ _ | .taskEntryWrite dt _ _ _ _ | .kpLogRead dt | .hrpwmStgWrite dt _ _ _
  | .foStgWrite dt _ _ _ | .tlStgWrite dt _ _ _ _ | .hrpwmCommit dt _ | .foCommit dt _ | .tlCommit dt _ _
  | .groupSafeOrder dt _ | .timebaseEnable dt _ _ | .periodBoundary dt _ | .zxmissExpiry dt _ | .hrpwmChannelEnable dt _ _
  | .tripZoneChange dt _ | .tripclr dt _ _ | .hrpwmReadbackSample dt _ _ | .hrpwmCrst dt _ | .resWrite dt _
  | .calibrationLock dt | .weirGroupEnable dt _ _ | .weirChannelEnable dt _ _ | .mainSampleReady dt _ _ _ | .fastSample dt _ _
  | .demodOutput dt _ _ | .recordAccept dt _ | .recordWrite dt _ _ | .weirFreeze dt _ | .headerWrite dt _
  | .stuckStream dt _ _ | .clockLoss dt _ | .grst dt _ | .fthrWrite dt _ _ _ | .fiRawChange dt _ _ | .fiAccept dt _
  | .fiFreeze dt _ | .pairDiscrepancy dt _ | .fret dt _ | .fiCrst dt _ | .foEnable dt _ _ | .foReadbackSample dt _ _
  | .offTestStart dt _ | .offTestEnd dt _ _ | .foCrst dt _ | .tlLinkEnable dt _ _ | .rxLock dt _ _ | .lockLoss dt _ _
  | .capResend dt _ | .frameReceive dt _ _ _ | .ackTimeout dt _ | .rxtoExpiry dt _ | .outFrameSend dt _ | .safeFrameSend dt _
  | .poisonRecord dt _ | .tlFreeze dt _ | .tlMtxGo dt _ | .lrst dt _ | .pllLock dt _ | .pllLockLoss dt _
  | .clockMonitorWindow dt _ _ | .supplyFault dt _ _ | .keeperPowerOn dt | .coldReset dt _ _ | .resetNPulse dt _ _
  | .rstcmdWarm dt _ _ | .lockstepMismatch dt _ | .basinReset dt _ | .bargeResetCmd dt _ | .bholdWrite dt _ _
  | .stsetWrite dt _ | .stationTimeTrim dt | .bpwrReqWrite dt _ _ | .b1Entry dt _ | .b1Wake dt _
  | .powerTransitionComplete dt _ | .thermalConversion dt _ | .bootVerify dt _ _ | .muartRecovery dt _ _
  | .hifDbellWrite dt _ _ | .mailboxWrite dt _ _ | .hifRciWrite dt _ _ _ | .hifRcfgWrite dt _ _ _ | .bar2Access dt _ _
  | .bar4Access dt _ _ | .flr dt | .perst dt | .pcioAccess dt _ | .pcioFailure dt _ | .ingressGo dt _ | .ingressDone dt _ _ _
  | .eqPush dt _ | .ferryStrmWrite dt _ | .egressDraw dt | .egressWrite dt | .creditRefill dt | .erst dt | .l1Entry dt
  | .ltrSend dt | .ringEntryWrite dt _ | .mailboxTake dt _ | .deadlineExpiry dt _ | .eventPost dt | .hello dt _ | .info dt _
  | .resetHost dt _ | .loadImage dt _ _ _ _ _ _ _ _ | .imageStat dt _ | .role dt _ | .taskStart dt _ _ | .taskStop dt _ _
  | .keeper dt _ _ | .claim dt _ | .release dt _ | .latTol dt _ | .counters dt _ | .reset dt _ | .eventRoute dt _
  | .setTime dt _ | .dbgHalt dt _ | .dbgResume dt _ | .dbgStep dt _ _ | .dbgPcWrite dt _ _ | .dbgRegdataWrite dt _ _
  | .drst dt | .newchal dt _ | .verify dt _ | .verifyComplete dt _ | .relock dt | .fuseLifeAdvance dt _ | .fuseKeyProgram dt _
  | .fuseDbgSet dt _ | .fuseRevoke dt _ | .fuseArbAdvance dt _ | .fuseFwcntAdvance dt _ | .fusePfuseBlow dt _
  | .fusePlockBlow dt _ | .fuseOpComplete dt | .jtagUpdateDr dt _ | .tapReset dt | .coldResetAssert dt _
  | .keeperPowerOnReset dt | .noCrystalEdge dt | .basinSelfTestComplete dt _ _ | .reservoirSelfTestComplete dt _ _
  | .fiEnable dt _ _ | .jtagUpdateIr dt _ | .configSpaceWrite dt _ => dt

/-- The same command at another time. -/
def Instr.withDt (dt : Nat) : Instr → Instr
  | .instructionIssue _ g rivals => .instructionIssue dt g rivals
  | .idleCount _ g => .idleCount dt g
  | .resultDelivery _ g split => .resultDelivery dt g split
  | .storeBufferDrain _ g rivals => .storeBufferDrain dt g rivals
  | .xluDepart _ g => .xluDepart dt g
  | .xluResponse _ g => .xluResponse dt g
  | .rptElement _ g rivals => .rptElement dt g rivals
  | .iouComplete _ g => .iouComplete dt g
  | .cntWaitEnd _ g => .cntWaitEnd dt g
  | .gateEntry _ g => .gateEntry dt g
  | .gateReturn _ g => .gateReturn dt g
  | .syncEffect _ g => .syncEffect dt g
  | .bankOwnHandoverComplete _ n b => .bankOwnHandoverComplete dt n b
  | .sealDepart _ g => .sealDepart dt g
  | .lineReadDeliver _ n k way => .lineReadDeliver dt n k way
  | .patrolRead _ n k way => .patrolRead dt n k way
  | .codeWindowRead _ g => .codeWindowRead dt g
  | .interruptEntry _ g => .interruptEntry dt g
  | .tcmpWrite _ g k value => .tcmpWrite dt g k value
  | .tcmpReached _ g k => .tcmpReached dt g k
  | .intcSwiWrite _ g value => .intcSwiWrite dt g value
  | .basinDbellWrite _ n src value => .basinDbellWrite dt n src value
  | .bankOwnWrite _ n b src value => .bankOwnWrite dt n b src value
  | .codemapWrite _ n p src value => .codemapWrite dt n p src value
  | .bcPswWrite _ g value => .bcPswWrite dt g value
  | .unitContextWrite _ g word value => .unitContextWrite dt g word value
  | .registerWrite _ path value => .registerWrite dt path value
  | .dateArrival _ g => .dateArrival dt g
  | .retryRequestArrival _ g => .retryRequestArrival dt g
  | .decisionNoticeArrival _ g => .decisionNoticeArrival dt g
  | .haltEntry _ g => .haltEntry dt g
  | .scrubAccess _ bank rivals => .scrubAccess dt bank rivals
  | .nvpProgram _ c => .nvpProgram dt c
  | .nvpBlank _ c => .nvpBlank dt c
  | .nvpComplete _ c verified => .nvpComplete dt c verified
  | .wharfAccept _ init tx => .wharfAccept dt init tx
  | .targetGrant _ target rivals => .targetGrant dt target rivals
  | .targetResponse _ init id => .targetResponse dt init id
  | .wharfCntclr _ => .wharfCntclr dt
  | .keeperCycleStart _ task => .keeperCycleStart dt task
  | .sealArrival _ g crcOk disagree => .sealArrival dt g crcOk disagree
  | .faultReportArrival _ g crcOk => .faultReportArrival dt g crcOk
  | .resetReportArrival _ g crcOk => .resetReportArrival dt g crcOk
  | .decision _ task => .decision dt task
  | .windowClose _ task => .windowClose dt task
  | .retryRequest _ task => .retryRequest dt task
  | .lockGateOpen _ task => .lockGateOpen dt task
  | .channelRetirementReport _ => .channelRetirementReport dt
  | .keeperSelfTest _ pass => .keeperSelfTest dt pass
  | .kclkMonitorWindow _ count => .kclkMonitorWindow dt count
  | .safeHalfPeriod _ padA padB => .safeHalfPeriod dt padA padB
  | .arm _ arg hm1 => .arm dt arg hm1
  | .run _ arg hm1 => .run dt arg hm1
  | .startTask _ arg hm1 => .startTask dt arg hm1
  | .stopTask _ arg hm1 => .stopTask dt arg hm1
  | .retireBarge _ arg hm1 => .retireBarge dt arg hm1
  | .forceSafe _ arg hm1 => .forceSafe dt arg hm1
  | .clearFc _ arg hm1 => .clearFc dt arg hm1
  | .restoreBarge _ arg hm1 => .restoreBarge dt arg hm1
  | .clearDegraded _ arg hm1 => .clearDegraded dt arg hm1
  | .kpDseedWrite _ hm0 hm1 => .kpDseedWrite dt hm0 hm1
  | .kpCfgWrite _ hm0 hm1 => .kpCfgWrite dt hm0 hm1
  | .taskEntryWrite _ task word hm0 hm1 => .taskEntryWrite dt task word hm0 hm1
  | .kpLogRead _ => .kpLogRead dt
  | .hrpwmStgWrite _ n src value => .hrpwmStgWrite dt n src value
  | .foStgWrite _ n src value => .foStgWrite dt n src value
  | .tlStgWrite _ l slot src value => .tlStgWrite dt l slot src value
  | .hrpwmCommit _ disagree => .hrpwmCommit dt disagree
  | .foCommit _ disagree => .foCommit dt disagree
  | .tlCommit _ l disagree => .tlCommit dt l disagree
  | .groupSafeOrder _ block => .groupSafeOrder dt block
  | .timebaseEnable _ m en => .timebaseEnable dt m en
  | .periodBoundary _ m => .periodBoundary dt m
  | .zxmissExpiry _ m => .zxmissExpiry dt m
  | .hrpwmChannelEnable _ n en => .hrpwmChannelEnable dt n en
  | .tripZoneChange _ z => .tripZoneChange dt z
  | .tripclr _ n src => .tripclr dt n src
  | .hrpwmReadbackSample _ n level => .hrpwmReadbackSample dt n level
  | .hrpwmCrst _ n => .hrpwmCrst dt n
  | .resWrite _ value => .resWrite dt value
  | .calibrationLock _ => .calibrationLock dt
  | .weirGroupEnable _ g en => .weirGroupEnable dt g en
  | .weirChannelEnable _ n en => .weirChannelEnable dt n en
  | .mainSampleReady _ n bits upset => .mainSampleReady dt n bits upset
  | .fastSample _ n bits => .fastSample dt n bits
  | .demodOutput _ n upset => .demodOutput dt n upset
  | .recordAccept _ n => .recordAccept dt n
  | .recordWrite _ basin bank => .recordWrite dt basin bank
  | .weirFreeze _ task => .weirFreeze dt task
  | .headerWrite _ n => .headerWrite dt n
  | .stuckStream _ n bits => .stuckStream dt n bits
  | .clockLoss _ g => .clockLoss dt g
  | .grst _ g => .grst dt g
  | .fthrWrite _ n src value => .fthrWrite dt n src value
  | .fiRawChange _ n pad => .fiRawChange dt n pad
  | .fiAccept _ n => .fiAccept dt n
  | .fiFreeze _ task => .fiFreeze dt task
  | .pairDiscrepancy _ m => .pairDiscrepancy dt m
  | .fret _ n => .fret dt n
  | .fiCrst _ n => .fiCrst dt n
  | .foEnable _ n en => .foEnable dt n en
  | .foReadbackSample _ n level => .foReadbackSample dt n level
  | .offTestStart _ n => .offTestStart dt n
  | .offTestEnd _ n level => .offTestEnd dt n level
  | .foCrst _ n => .foCrst dt n
  | .tlLinkEnable _ l en => .tlLinkEnable dt l en
  | .rxLock _ l chars => .rxLock dt l chars
  | .lockLoss _ l chars => .lockLoss dt l chars
  | .capResend _ l => .capResend dt l
  | .frameReceive _ l units aborted => .frameReceive dt l units aborted
  | .ackTimeout _ l => .ackTimeout dt l
  | .rxtoExpiry _ l => .rxtoExpiry dt l
  | .outFrameSend _ l => .outFrameSend dt l
  | .safeFrameSend _ l => .safeFrameSend dt l
  | .poisonRecord _ l => .poisonRecord dt l
  | .tlFreeze _ task => .tlFreeze dt task
  | .tlMtxGo _ l => .tlMtxGo dt l
  | .lrst _ l => .lrst dt l
  | .pllLock _ p => .pllLock dt p
  | .pllLockLoss _ p => .pllLockLoss dt p
  | .clockMonitorWindow _ clk count => .clockMonitorWindow dt clk count
  | .supplyFault _ rail inRange => .supplyFault dt rail inRange
  | .keeperPowerOn _ => .keeperPowerOn dt
  | .coldReset _ pins levels => .coldReset dt pins levels
  | .resetNPulse _ width pins => .resetNPulse dt width pins
  | .rstcmdWarm _ value pins => .rstcmdWarm dt value pins
  | .lockstepMismatch _ pins => .lockstepMismatch dt pins
  | .basinReset _ n => .basinReset dt n
  | .bargeResetCmd _ g => .bargeResetCmd dt g
  | .bholdWrite _ high value => .bholdWrite dt high value
  | .stsetWrite _ value => .stsetWrite dt value
  | .stationTimeTrim _ => .stationTimeTrim dt
  | .bpwrReqWrite _ n value => .bpwrReqWrite dt n value
  | .b1Entry _ n => .b1Entry dt n
  | .b1Wake _ n => .b1Wake dt n
  | .powerTransitionComplete _ n => .powerTransitionComplete dt n
  | .thermalConversion _ readings => .thermalConversion dt readings
  | .bootVerify _ firmware sig => .bootVerify dt firmware sig
  | .muartRecovery _ firmware sig => .muartRecovery dt firmware sig
  | .hifDbellWrite _ value tlp => .hifDbellWrite dt value tlp
  | .mailboxWrite _ k data => .mailboxWrite dt k data
  | .hifRciWrite _ r value tlp => .hifRciWrite dt r value tlp
  | .hifRcfgWrite _ r value tlp => .hifRcfgWrite dt r value tlp
  | .bar2Access _ write data => .bar2Access dt write data
  | .bar4Access _ write data => .bar4Access dt write data
  | .flr _ => .flr dt
  | .perst _ => .perst dt
  | .pcioAccess _ data => .pcioAccess dt data
  | .pcioFailure _ kind => .pcioFailure dt kind
  | .ingressGo _ e => .ingressGo dt e
  | .ingressDone _ e data how => .ingressDone dt e data how
  | .eqPush _ q => .eqPush dt q
  | .ferryStrmWrite _ value => .ferryStrmWrite dt value
  | .egressDraw _ => .egressDraw dt
  | .egressWrite _ => .egressWrite dt
  | .creditRefill _ => .creditRefill dt
  | .erst _ => .erst dt
  | .l1Entry _ => .l1Entry dt
  | .ltrSend _ => .ltrSend dt
  | .ringEntryWrite _ r => .ringEntryWrite dt r
  | .mailboxTake _ k => .mailboxTake dt k
  | .deadlineExpiry _ k => .deadlineExpiry dt k
  | .eventPost _ => .eventPost dt
  | .hello _ k => .hello dt k
  | .info _ k => .info dt k
  | .resetHost _ k => .resetHost dt k
  | .loadImage _ k bindings first second key writes how differ => .loadImage dt k bindings first second key writes how differ
  | .imageStat _ k => .imageStat dt k
  | .role _ k => .role dt k
  | .taskStart _ k differ => .taskStart dt k differ
  | .taskStop _ k mismatch => .taskStop dt k mismatch
  | .keeper _ k mismatch => .keeper dt k mismatch
  | .claim _ k => .claim dt k
  | .release _ k => .release dt k
  | .latTol _ k => .latTol dt k
  | .counters _ k => .counters dt k
  | .reset _ k => .reset dt k
  | .eventRoute _ k => .eventRoute dt k
  | .setTime _ k => .setTime dt k
  | .dbgHalt _ g => .dbgHalt dt g
  | .dbgResume _ g => .dbgResume dt g
  | .dbgStep _ g rivals => .dbgStep dt g rivals
  | .dbgPcWrite _ g value => .dbgPcWrite dt g value
  | .dbgRegdataWrite _ g value => .dbgRegdataWrite dt g value
  | .drst _ => .drst dt
  | .newchal _ random => .newchal dt random
  | .verify _ slot => .verify dt slot
  | .verifyComplete _ key => .verifyComplete dt key
  | .relock _ => .relock dt
  | .fuseLifeAdvance _ value => .fuseLifeAdvance dt value
  | .fuseKeyProgram _ value => .fuseKeyProgram dt value
  | .fuseDbgSet _ value => .fuseDbgSet dt value
  | .fuseRevoke _ value => .fuseRevoke dt value
  | .fuseArbAdvance _ value => .fuseArbAdvance dt value
  | .fuseFwcntAdvance _ value => .fuseFwcntAdvance dt value
  | .fusePfuseBlow _ value => .fusePfuseBlow dt value
  | .fusePlockBlow _ value => .fusePlockBlow dt value
  | .fuseOpComplete _ => .fuseOpComplete dt
  | .jtagUpdateDr _ dr => .jtagUpdateDr dt dr
  | .tapReset _ => .tapReset dt
  | .coldResetAssert _ rail => .coldResetAssert dt rail
  | .keeperPowerOnReset _ => .keeperPowerOnReset dt
  | .noCrystalEdge _ => .noCrystalEdge dt
  | .basinSelfTestComplete _ n defects => .basinSelfTestComplete dt n defects
  | .reservoirSelfTestComplete _ p defects => .reservoirSelfTestComplete dt p defects
  | .fiEnable _ n en => .fiEnable dt n en
  | .jtagUpdateIr _ ir => .jtagUpdateIr dt ir
  | .configSpaceWrite _ cfg => .configSpaceWrite dt cfg

end Sys2Proof
end

