-- ==== Sys2Proof/Laws/PerInstr.lean ====
section
/-! SUPPORT. Facts about every command as syntax, one lemma per constructor. -/

namespace Sys2Proof.Laws

/-- The time of a command is one of its operands and none of its well-formedness: it can be set, setting it changes nothing else, and
setting it back gives the command again. -/
def Time.Statement (i : Instr) : Prop :=
  ∀ n, (i.withDt n).dt = n ∧ (i.withDt n).wf = i.wf ∧ (i.withDt n).withDt i.dt = i

theorem Time.instructionIssue (dt : Nat) (g : BargeIx) (rivals : List Rival) :
    Time.Statement (.instructionIssue dt g rivals) :=
  fun _ => ⟨rfl, rfl, rfl⟩
theorem Time.idleCount (dt : Nat) (g : BargeIx) :
    Time.Statement (.idleCount dt g) :=
  fun _ => ⟨rfl, rfl, rfl⟩
theorem Time.resultDelivery (dt : Nat) (g : BargeIx) (split : Bool) :
    Time.Statement (.resultDelivery dt g split) :=
  fun _ => ⟨rfl, rfl, rfl⟩
theorem Time.storeBufferDrain (dt : Nat) (g : BargeIx) (rivals : List Rival) :
    Time.Statement (.storeBufferDrain dt g rivals) :=
  fun _ => ⟨rfl, rfl, rfl⟩
theorem Time.xluDepart (dt : Nat) (g : BargeIx) :
    Time.Statement (.xluDepart dt g) :=
  fun _ => ⟨rfl, rfl, rfl⟩
theorem Time.xluResponse (dt : Nat) (g : BargeIx) :
    Time.Statement (.xluResponse dt g) :=
  fun _ => ⟨rfl, rfl, rfl⟩
theorem Time.rptElement (dt : Nat) (g : BargeIx) (rivals : List Rival) :
    Time.Statement (.rptElement dt g rivals) :=
  fun _ => ⟨rfl, rfl, rfl⟩
theorem Time.iouComplete (dt : Nat) (g : BargeIx) :
    Time.Statement (.iouComplete dt g) :=
  fun _ => ⟨rfl, rfl, rfl⟩
theorem Time.cntWaitEnd (dt : Nat) (g : BargeIx) :
    Time.Statement (.cntWaitEnd dt g) :=
  fun _ => ⟨rfl, rfl, rfl⟩
theorem Time.gateEntry (dt : Nat) (g : BargeIx) :
    Time.Statement (.gateEntry dt g) :=
  fun _ => ⟨rfl, rfl, rfl⟩
theorem Time.gateReturn (dt : Nat) (g : BargeIx) :
    Time.Statement (.gateReturn dt g) :=
  fun _ => ⟨rfl, rfl, rfl⟩
theorem Time.syncEffect (dt : Nat) (g : BargeIx) :
    Time.Statement (.syncEffect dt g) :=
  fun _ => ⟨rfl, rfl, rfl⟩
theorem Time.bankOwnHandoverComplete (dt : Nat) (n : BasinIx) (b : BankIx) :
    Time.Statement (.bankOwnHandoverComplete dt n b) :=
  fun _ => ⟨rfl, rfl, rfl⟩
theorem Time.sealDepart (dt : Nat) (g : BargeIx) :
    Time.Statement (.sealDepart dt g) :=
  fun _ => ⟨rfl, rfl, rfl⟩
theorem Time.lineReadDeliver (dt : Nat) (n : BasinIx) (k : Fin 4) (way : Fin 4) :
    Time.Statement (.lineReadDeliver dt n k way) :=
  fun _ => ⟨rfl, rfl, rfl⟩
theorem Time.patrolRead (dt : Nat) (n : BasinIx) (k : Fin 4) (way : Fin 4) :
    Time.Statement (.patrolRead dt n k way) :=
  fun _ => ⟨rfl, rfl, rfl⟩
theorem Time.codeWindowRead (dt : Nat) (g : BargeIx) :
    Time.Statement (.codeWindowRead dt g) :=
  fun _ => ⟨rfl, rfl, rfl⟩
theorem Time.interruptEntry (dt : Nat) (g : BargeIx) :
    Time.Statement (.interruptEntry dt g) :=
  fun _ => ⟨rfl, rfl, rfl⟩
theorem Time.tcmpWrite (dt : Nat) (g : BargeIx) (k : Fin 4) (value : Word) :
    Time.Statement (.tcmpWrite dt g k value) :=
  fun _ => ⟨rfl, rfl, rfl⟩
theorem Time.tcmpReached (dt : Nat) (g : BargeIx) (k : Fin 4) :
    Time.Statement (.tcmpReached dt g k) :=
  fun _ => ⟨rfl, rfl, rfl⟩
theorem Time.intcSwiWrite (dt : Nat) (g : BargeIx) (value : Word) :
    Time.Statement (.intcSwiWrite dt g value) :=
  fun _ => ⟨rfl, rfl, rfl⟩
theorem Time.basinDbellWrite (dt : Nat) (n : BasinIx) (src : Writer) (value : Word) :
    Time.Statement (.basinDbellWrite dt n src value) :=
  fun _ => ⟨rfl, rfl, rfl⟩
theorem Time.bankOwnWrite (dt : Nat) (n : BasinIx) (b : BankIx) (src : Writer) (value : Word) :
    Time.Statement (.bankOwnWrite dt n b src value) :=
  fun _ => ⟨rfl, rfl, rfl⟩
theorem Time.codemapWrite (dt : Nat) (n : BasinIx) (p : Fin 4) (src : Writer) (value : Word) :
    Time.Statement (.codemapWrite dt n p src value) :=
  fun _ => ⟨rfl, rfl, rfl⟩
theorem Time.bcPswWrite (dt : Nat) (g : BargeIx) (value : Word) :
    Time.Statement (.bcPswWrite dt g value) :=
  fun _ => ⟨rfl, rfl, rfl⟩
theorem Time.unitContextWrite (dt : Nat) (g : BargeIx) (word : BitVec 5) (value : Word) :
    Time.Statement (.unitContextWrite dt g word value) :=
  fun _ => ⟨rfl, rfl, rfl⟩
theorem Time.registerWrite (dt : Nat) (path : RegPath) (value : Word) :
    Time.Statement (.registerWrite dt path value) :=
  fun _ => ⟨rfl, rfl, rfl⟩
theorem Time.dateArrival (dt : Nat) (g : BargeIx) :
    Time.Statement (.dateArrival dt g) :=
  fun _ => ⟨rfl, rfl, rfl⟩
theorem Time.retryRequestArrival (dt : Nat) (g : BargeIx) :
    Time.Statement (.retryRequestArrival dt g) :=
  fun _ => ⟨rfl, rfl, rfl⟩
theorem Time.decisionNoticeArrival (dt : Nat) (g : BargeIx) :
    Time.Statement (.decisionNoticeArrival dt g) :=
  fun _ => ⟨rfl, rfl, rfl⟩
theorem Time.haltEntry (dt : Nat) (g : BargeIx) :
    Time.Statement (.haltEntry dt g) :=
  fun _ => ⟨rfl, rfl, rfl⟩
theorem Time.scrubAccess (dt : Nat) (bank : ScrubBank) (rivals : List Rival) :
    Time.Statement (.scrubAccess dt bank rivals) :=
  fun _ => ⟨rfl, rfl, rfl⟩
theorem Time.nvpProgram (dt : Nat) (c : Fin 4) :
    Time.Statement (.nvpProgram dt c) :=
  fun _ => ⟨rfl, rfl, rfl⟩
theorem Time.nvpBlank (dt : Nat) (c : Fin 4) :
    Time.Statement (.nvpBlank dt c) :=
  fun _ => ⟨rfl, rfl, rfl⟩
theorem Time.nvpComplete (dt : Nat) (c : Fin 4) (verified : Bool) :
    Time.Statement (.nvpComplete dt c verified) :=
  fun _ => ⟨rfl, rfl, rfl⟩
theorem Time.wharfAccept (dt : Nat) (init : Fin 16) (tx : Tx) :
    Time.Statement (.wharfAccept dt init tx) :=
  fun _ => ⟨rfl, rfl, rfl⟩
theorem Time.targetGrant (dt : Nat) (target : Fin 20) (rivals : List Rival) :
    Time.Statement (.targetGrant dt target rivals) :=
  fun _ => ⟨rfl, rfl, rfl⟩
theorem Time.targetResponse (dt : Nat) (init : Fin 16) (id : BitVec 5) :
    Time.Statement (.targetResponse dt init id) :=
  fun _ => ⟨rfl, rfl, rfl⟩
theorem Time.wharfCntclr (dt : Nat) :
    Time.Statement (.wharfCntclr dt) :=
  fun _ => ⟨rfl, rfl, rfl⟩
theorem Time.keeperCycleStart (dt : Nat) (task : Fin 256) :
    Time.Statement (.keeperCycleStart dt task) :=
  fun _ => ⟨rfl, rfl, rfl⟩
theorem Time.sealArrival (dt : Nat) (g : BargeIx) (crcOk : Bool) (disagree : Bool) :
    Time.Statement (.sealArrival dt g crcOk disagree) :=
  fun _ => ⟨rfl, rfl, rfl⟩
theorem Time.faultReportArrival (dt : Nat) (g : BargeIx) (crcOk : Bool) :
    Time.Statement (.faultReportArrival dt g crcOk) :=
  fun _ => ⟨rfl, rfl, rfl⟩
theorem Time.resetReportArrival (dt : Nat) (g : BargeIx) (crcOk : Bool) :
    Time.Statement (.resetReportArrival dt g crcOk) :=
  fun _ => ⟨rfl, rfl, rfl⟩
theorem Time.decision (dt : Nat) (task : Fin 256) :
    Time.Statement (.decision dt task) :=
  fun _ => ⟨rfl, rfl, rfl⟩
theorem Time.windowClose (dt : Nat) (task : Fin 256) :
    Time.Statement (.windowClose dt task) :=
  fun _ => ⟨rfl, rfl, rfl⟩
theorem Time.retryRequest (dt : Nat) (task : Fin 256) :
    Time.Statement (.retryRequest dt task) :=
  fun _ => ⟨rfl, rfl, rfl⟩
theorem Time.lockGateOpen (dt : Nat) (task : Fin 256) :
    Time.Statement (.lockGateOpen dt task) :=
  fun _ => ⟨rfl, rfl, rfl⟩
theorem Time.channelRetirementReport (dt : Nat) :
    Time.Statement (.channelRetirementReport dt) :=
  fun _ => ⟨rfl, rfl, rfl⟩
theorem Time.keeperSelfTest (dt : Nat) (pass : Bool) :
    Time.Statement (.keeperSelfTest dt pass) :=
  fun _ => ⟨rfl, rfl, rfl⟩
theorem Time.kclkMonitorWindow (dt : Nat) (count : Nat) :
    Time.Statement (.kclkMonitorWindow dt count) :=
  fun _ => ⟨rfl, rfl, rfl⟩
theorem Time.safeHalfPeriod (dt : Nat) (padA : Bool) (padB : Bool) :
    Time.Statement (.safeHalfPeriod dt padA padB) :=
  fun _ => ⟨rfl, rfl, rfl⟩
theorem Time.arm (dt : Nat) (arg : BitVec 8) (hm1 : LoadWrite) :
    Time.Statement (.arm dt arg hm1) :=
  fun _ => ⟨rfl, rfl, rfl⟩
theorem Time.run (dt : Nat) (arg : BitVec 8) (hm1 : LoadWrite) :
    Time.Statement (.run dt arg hm1) :=
  fun _ => ⟨rfl, rfl, rfl⟩
theorem Time.startTask (dt : Nat) (arg : BitVec 8) (hm1 : LoadWrite) :
    Time.Statement (.startTask dt arg hm1) :=
  fun _ => ⟨rfl, rfl, rfl⟩
theorem Time.stopTask (dt : Nat) (arg : BitVec 8) (hm1 : LoadWrite) :
    Time.Statement (.stopTask dt arg hm1) :=
  fun _ => ⟨rfl, rfl, rfl⟩
theorem Time.retireBarge (dt : Nat) (arg : BitVec 8) (hm1 : LoadWrite) :
    Time.Statement (.retireBarge dt arg hm1) :=
  fun _ => ⟨rfl, rfl, rfl⟩
theorem Time.forceSafe (dt : Nat) (arg : BitVec 8) (hm1 : LoadWrite) :
    Time.Statement (.forceSafe dt arg hm1) :=
  fun _ => ⟨rfl, rfl, rfl⟩
theorem Time.clearFc (dt : Nat) (arg : BitVec 8) (hm1 : LoadWrite) :
    Time.Statement (.clearFc dt arg hm1) :=
  fun _ => ⟨rfl, rfl, rfl⟩
theorem Time.restoreBarge (dt : Nat) (arg : BitVec 8) (hm1 : LoadWrite) :
    Time.Statement (.restoreBarge dt arg hm1) :=
  fun _ => ⟨rfl, rfl, rfl⟩
theorem Time.clearDegraded (dt : Nat) (arg : BitVec 8) (hm1 : LoadWrite) :
    Time.Statement (.clearDegraded dt arg hm1) :=
  fun _ => ⟨rfl, rfl, rfl⟩
theorem Time.kpDseedWrite (dt : Nat) (hm0 : Word) (hm1 : LoadWrite) :
    Time.Statement (.kpDseedWrite dt hm0 hm1) :=
  fun _ => ⟨rfl, rfl, rfl⟩
theorem Time.kpCfgWrite (dt : Nat) (hm0 : Word) (hm1 : LoadWrite) :
    Time.Statement (.kpCfgWrite dt hm0 hm1) :=
  fun _ => ⟨rfl, rfl, rfl⟩
theorem Time.taskEntryWrite (dt : Nat) (task : Fin 256) (word : Fin 16) (hm0 : Word) (hm1 : LoadWrite) :
    Time.Statement (.taskEntryWrite dt task word hm0 hm1) :=
  fun _ => ⟨rfl, rfl, rfl⟩
theorem Time.kpLogRead (dt : Nat) :
    Time.Statement (.kpLogRead dt) :=
  fun _ => ⟨rfl, rfl, rfl⟩
theorem Time.hrpwmStgWrite (dt : Nat) (n : Fin 192) (src : StgWriter) (value : Word) :
    Time.Statement (.hrpwmStgWrite dt n src value) :=
  fun _ => ⟨rfl, rfl, rfl⟩
theorem Time.foStgWrite (dt : Nat) (n : Fin 128) (src : StgWriter) (value : Word) :
    Time.Statement (.foStgWrite dt n src value) :=
  fun _ => ⟨rfl, rfl, rfl⟩
theorem Time.tlStgWrite (dt : Nat) (l : Fin 16) (slot : Fin 64) (src : StgWriter) (value : Word) :
    Time.Statement (.tlStgWrite dt l slot src value) :=
  fun _ => ⟨rfl, rfl, rfl⟩
theorem Time.hrpwmCommit (dt : Nat) (disagree : List (Fin 192)) :
    Time.Statement (.hrpwmCommit dt disagree) :=
  fun _ => ⟨rfl, rfl, rfl⟩
theorem Time.foCommit (dt : Nat) (disagree : List (Fin 128)) :
    Time.Statement (.foCommit dt disagree) :=
  fun _ => ⟨rfl, rfl, rfl⟩
theorem Time.tlCommit (dt : Nat) (l : Fin 16) (disagree : Bool) :
    Time.Statement (.tlCommit dt l disagree) :=
  fun _ => ⟨rfl, rfl, rfl⟩
theorem Time.groupSafeOrder (dt : Nat) (block : OutBlock) :
    Time.Statement (.groupSafeOrder dt block) :=
  fun _ => ⟨rfl, rfl, rfl⟩
theorem Time.timebaseEnable (dt : Nat) (m : Fin 16) (en : Bool) :
    Time.Statement (.timebaseEnable dt m en) :=
  fun _ => ⟨rfl, rfl, rfl⟩
theorem Time.periodBoundary (dt : Nat) (m : Fin 16) :
    Time.Statement (.periodBoundary dt m) :=
  fun _ => ⟨rfl, rfl, rfl⟩
theorem Time.zxmissExpiry (dt : Nat) (m : Fin 16) :
    Time.Statement (.zxmissExpiry dt m) :=
  fun _ => ⟨rfl, rfl, rfl⟩
theorem Time.hrpwmChannelEnable (dt : Nat) (n : Fin 192) (en : Bool) :
    Time.Statement (.hrpwmChannelEnable dt n en) :=
  fun _ => ⟨rfl, rfl, rfl⟩
theorem Time.tripZoneChange (dt : Nat) (z : Fin 32) :
    Time.Statement (.tripZoneChange dt z) :=
  fun _ => ⟨rfl, rfl, rfl⟩
theorem Time.tripclr (dt : Nat) (n : Fin 192) (src : Writer) :
    Time.Statement (.tripclr dt n src) :=
  fun _ => ⟨rfl, rfl, rfl⟩
theorem Time.hrpwmReadbackSample (dt : Nat) (n : Fin 192) (level : Bool) :
    Time.Statement (.hrpwmReadbackSample dt n level) :=
  fun _ => ⟨rfl, rfl, rfl⟩
theorem Time.hrpwmCrst (dt : Nat) (n : Fin 192) :
    Time.Statement (.hrpwmCrst dt n) :=
  fun _ => ⟨rfl, rfl, rfl⟩
theorem Time.resWrite (dt : Nat) (value : Bool) :
    Time.Statement (.resWrite dt value) :=
  fun _ => ⟨rfl, rfl, rfl⟩
theorem Time.calibrationLock (dt : Nat) :
    Time.Statement (.calibrationLock dt) :=
  fun _ => ⟨rfl, rfl, rfl⟩
theorem Time.weirGroupEnable (dt : Nat) (g : Fin 48) (en : Bool) :
    Time.Statement (.weirGroupEnable dt g en) :=
  fun _ => ⟨rfl, rfl, rfl⟩
theorem Time.weirChannelEnable (dt : Nat) (n : Fin 384) (en : Bool) :
    Time.Statement (.weirChannelEnable dt n en) :=
  fun _ => ⟨rfl, rfl, rfl⟩
theorem Time.mainSampleReady (dt : Nat) (n : Fin 384) (bits : List (Bool × Bool)) (upset : Bool) :
    Time.Statement (.mainSampleReady dt n bits upset) :=
  fun _ => ⟨rfl, rfl, rfl⟩
theorem Time.fastSample (dt : Nat) (n : Fin 384) (bits : List Bool) :
    Time.Statement (.fastSample dt n bits) :=
  fun _ => ⟨rfl, rfl, rfl⟩
theorem Time.demodOutput (dt : Nat) (n : Fin 384) (upset : Bool) :
    Time.Statement (.demodOutput dt n upset) :=
  fun _ => ⟨rfl, rfl, rfl⟩
theorem Time.recordAccept (dt : Nat) (n : Fin 384) :
    Time.Statement (.recordAccept dt n) :=
  fun _ => ⟨rfl, rfl, rfl⟩
theorem Time.recordWrite (dt : Nat) (basin : BasinIx) (bank : Bool) :
    Time.Statement (.recordWrite dt basin bank) :=
  fun _ => ⟨rfl, rfl, rfl⟩
theorem Time.weirFreeze (dt : Nat) (task : Fin 256) :
    Time.Statement (.weirFreeze dt task) :=
  fun _ => ⟨rfl, rfl, rfl⟩
theorem Time.headerWrite (dt : Nat) (n : Fin 384) :
    Time.Statement (.headerWrite dt n) :=
  fun _ => ⟨rfl, rfl, rfl⟩
theorem Time.stuckStream (dt : Nat) (n : Fin 384) (bits : List Bool) :
    Time.Statement (.stuckStream dt n bits) :=
  fun _ => ⟨rfl, rfl, rfl⟩
theorem Time.clockLoss (dt : Nat) (g : Fin 48) :
    Time.Statement (.clockLoss dt g) :=
  fun _ => ⟨rfl, rfl, rfl⟩
theorem Time.grst (dt : Nat) (g : Fin 48) :
    Time.Statement (.grst dt g) :=
  fun _ => ⟨rfl, rfl, rfl⟩
theorem Time.fthrWrite (dt : Nat) (n : Fin 384) (src : Writer) (value : Word) :
    Time.Statement (.fthrWrite dt n src value) :=
  fun _ => ⟨rfl, rfl, rfl⟩
theorem Time.fiRawChange (dt : Nat) (n : Fin 128) (pad : Bool) :
    Time.Statement (.fiRawChange dt n pad) :=
  fun _ => ⟨rfl, rfl, rfl⟩
theorem Time.fiAccept (dt : Nat) (n : Fin 128) :
    Time.Statement (.fiAccept dt n) :=
  fun _ => ⟨rfl, rfl, rfl⟩
theorem Time.fiFreeze (dt : Nat) (task : Fin 256) :
    Time.Statement (.fiFreeze dt task) :=
  fun _ => ⟨rfl, rfl, rfl⟩
theorem Time.pairDiscrepancy (dt : Nat) (m : Fin 64) :
    Time.Statement (.pairDiscrepancy dt m) :=
  fun _ => ⟨rfl, rfl, rfl⟩
theorem Time.fret (dt : Nat) (n : Fin 128) :
    Time.Statement (.fret dt n) :=
  fun _ => ⟨rfl, rfl, rfl⟩
theorem Time.fiCrst (dt : Nat) (n : Fin 128) :
    Time.Statement (.fiCrst dt n) :=
  fun _ => ⟨rfl, rfl, rfl⟩
theorem Time.foEnable (dt : Nat) (n : Fin 128) (en : Bool) :
    Time.Statement (.foEnable dt n en) :=
  fun _ => ⟨rfl, rfl, rfl⟩
theorem Time.foReadbackSample (dt : Nat) (n : Fin 128) (level : Bool) :
    Time.Statement (.foReadbackSample dt n level) :=
  fun _ => ⟨rfl, rfl, rfl⟩
theorem Time.offTestStart (dt : Nat) (n : Fin 64) :
    Time.Statement (.offTestStart dt n) :=
  fun _ => ⟨rfl, rfl, rfl⟩
theorem Time.offTestEnd (dt : Nat) (n : Fin 64) (level : Bool) :
    Time.Statement (.offTestEnd dt n level) :=
  fun _ => ⟨rfl, rfl, rfl⟩
theorem Time.foCrst (dt : Nat) (n : Fin 128) :
    Time.Statement (.foCrst dt n) :=
  fun _ => ⟨rfl, rfl, rfl⟩
theorem Time.tlLinkEnable (dt : Nat) (l : Fin 16) (en : Bool) :
    Time.Statement (.tlLinkEnable dt l en) :=
  fun _ => ⟨rfl, rfl, rfl⟩
theorem Time.rxLock (dt : Nat) (l : Fin 16) (chars : List Bool) :
    Time.Statement (.rxLock dt l chars) :=
  fun _ => ⟨rfl, rfl, rfl⟩
theorem Time.lockLoss (dt : Nat) (l : Fin 16) (chars : List Bool) :
    Time.Statement (.lockLoss dt l chars) :=
  fun _ => ⟨rfl, rfl, rfl⟩
theorem Time.capResend (dt : Nat) (l : Fin 16) :
    Time.Statement (.capResend dt l) :=
  fun _ => ⟨rfl, rfl, rfl⟩
theorem Time.frameReceive (dt : Nat) (l : Fin 16) (units : List Word) (aborted : Bool) :
    Time.Statement (.frameReceive dt l units aborted) :=
  fun _ => ⟨rfl, rfl, rfl⟩
theorem Time.ackTimeout (dt : Nat) (l : Fin 16) :
    Time.Statement (.ackTimeout dt l) :=
  fun _ => ⟨rfl, rfl, rfl⟩
theorem Time.rxtoExpiry (dt : Nat) (l : Fin 16) :
    Time.Statement (.rxtoExpiry dt l) :=
  fun _ => ⟨rfl, rfl, rfl⟩
theorem Time.outFrameSend (dt : Nat) (l : Fin 16) :
    Time.Statement (.outFrameSend dt l) :=
  fun _ => ⟨rfl, rfl, rfl⟩
theorem Time.safeFrameSend (dt : Nat) (l : Fin 16) :
    Time.Statement (.safeFrameSend dt l) :=
  fun _ => ⟨rfl, rfl, rfl⟩
theorem Time.poisonRecord (dt : Nat) (l : Fin 16) :
    Time.Statement (.poisonRecord dt l) :=
  fun _ => ⟨rfl, rfl, rfl⟩
theorem Time.tlFreeze (dt : Nat) (task : Fin 256) :
    Time.Statement (.tlFreeze dt task) :=
  fun _ => ⟨rfl, rfl, rfl⟩
theorem Time.tlMtxGo (dt : Nat) (l : Fin 16) :
    Time.Statement (.tlMtxGo dt l) :=
  fun _ => ⟨rfl, rfl, rfl⟩
theorem Time.lrst (dt : Nat) (l : Fin 16) :
    Time.Statement (.lrst dt l) :=
  fun _ => ⟨rfl, rfl, rfl⟩
theorem Time.pllLock (dt : Nat) (p : PllIx) :
    Time.Statement (.pllLock dt p) :=
  fun _ => ⟨rfl, rfl, rfl⟩
theorem Time.pllLockLoss (dt : Nat) (p : PllIx) :
    Time.Statement (.pllLockLoss dt p) :=
  fun _ => ⟨rfl, rfl, rfl⟩
theorem Time.clockMonitorWindow (dt : Nat) (clk : Clk) (count : Nat) :
    Time.Statement (.clockMonitorWindow dt clk count) :=
  fun _ => ⟨rfl, rfl, rfl⟩
theorem Time.supplyFault (dt : Nat) (rail : Rail) (inRange : Bool) :
    Time.Statement (.supplyFault dt rail inRange) :=
  fun _ => ⟨rfl, rfl, rfl⟩
theorem Time.keeperPowerOn (dt : Nat) :
    Time.Statement (.keeperPowerOn dt) :=
  fun _ => ⟨rfl, rfl, rfl⟩
theorem Time.coldReset (dt : Nat) (pins : Pins) (levels : BitVec 12) :
    Time.Statement (.coldReset dt pins levels) :=
  fun _ => ⟨rfl, rfl, rfl⟩
theorem Time.resetNPulse (dt : Nat) (width : Nat) (pins : Pins) :
    Time.Statement (.resetNPulse dt width pins) :=
  fun _ => ⟨rfl, rfl, rfl⟩
theorem Time.rstcmdWarm (dt : Nat) (value : Word) (pins : Pins) :
    Time.Statement (.rstcmdWarm dt value pins) :=
  fun _ => ⟨rfl, rfl, rfl⟩
theorem Time.lockstepMismatch (dt : Nat) (pins : Pins) :
    Time.Statement (.lockstepMismatch dt pins) :=
  fun _ => ⟨rfl, rfl, rfl⟩
theorem Time.basinReset (dt : Nat) (n : BasinIx) :
    Time.Statement (.basinReset dt n) :=
  fun _ => ⟨rfl, rfl, rfl⟩
theorem Time.bargeResetCmd (dt : Nat) (g : BargeIx) :
    Time.Statement (.bargeResetCmd dt g) :=
  fun _ => ⟨rfl, rfl, rfl⟩
theorem Time.bholdWrite (dt : Nat) (high : Bool) (value : Word) :
    Time.Statement (.bholdWrite dt high value) :=
  fun _ => ⟨rfl, rfl, rfl⟩
theorem Time.stsetWrite (dt : Nat) (value : Word) :
    Time.Statement (.stsetWrite dt value) :=
  fun _ => ⟨rfl, rfl, rfl⟩
theorem Time.stationTimeTrim (dt : Nat) :
    Time.Statement (.stationTimeTrim dt) :=
  fun _ => ⟨rfl, rfl, rfl⟩
theorem Time.bpwrReqWrite (dt : Nat) (n : BasinIx) (value : Word) :
    Time.Statement (.bpwrReqWrite dt n value) :=
  fun _ => ⟨rfl, rfl, rfl⟩
theorem Time.b1Entry (dt : Nat) (n : BasinIx) :
    Time.Statement (.b1Entry dt n) :=
  fun _ => ⟨rfl, rfl, rfl⟩
theorem Time.b1Wake (dt : Nat) (n : BasinIx) :
    Time.Statement (.b1Wake dt n) :=
  fun _ => ⟨rfl, rfl, rfl⟩
theorem Time.powerTransitionComplete (dt : Nat) (n : BasinIx) :
    Time.Statement (.powerTransitionComplete dt n) :=
  fun _ => ⟨rfl, rfl, rfl⟩
theorem Time.thermalConversion (dt : Nat) (readings : List (BitVec 12 × Bool)) :
    Time.Statement (.thermalConversion dt readings) :=
  fun _ => ⟨rfl, rfl, rfl⟩
theorem Time.bootVerify (dt : Nat) (firmware : List Byte) (sig : List Byte) :
    Time.Statement (.bootVerify dt firmware sig) :=
  fun _ => ⟨rfl, rfl, rfl⟩
theorem Time.muartRecovery (dt : Nat) (firmware : List Byte) (sig : List Byte) :
    Time.Statement (.muartRecovery dt firmware sig) :=
  fun _ => ⟨rfl, rfl, rfl⟩
theorem Time.hifDbellWrite (dt : Nat) (value : Dword) (tlp : HostFlags) :
    Time.Statement (.hifDbellWrite dt value tlp) :=
  fun _ => ⟨rfl, rfl, rfl⟩
theorem Time.mailboxWrite (dt : Nat) (k : Fin 4) (data : HostBytes) :
    Time.Statement (.mailboxWrite dt k data) :=
  fun _ => ⟨rfl, rfl, rfl⟩
theorem Time.hifRciWrite (dt : Nat) (r : Fin 4) (value : Dword) (tlp : HostFlags) :
    Time.Statement (.hifRciWrite dt r value tlp) :=
  fun _ => ⟨rfl, rfl, rfl⟩
theorem Time.hifRcfgWrite (dt : Nat) (r : Fin 4) (value : Dword) (tlp : HostFlags) :
    Time.Statement (.hifRcfgWrite dt r value tlp) :=
  fun _ => ⟨rfl, rfl, rfl⟩
theorem Time.bar2Access (dt : Nat) (write : Bool) (data : HostBytes) :
    Time.Statement (.bar2Access dt write data) :=
  fun _ => ⟨rfl, rfl, rfl⟩
theorem Time.bar4Access (dt : Nat) (write : Bool) (data : HostBytes) :
    Time.Statement (.bar4Access dt write data) :=
  fun _ => ⟨rfl, rfl, rfl⟩
theorem Time.flr (dt : Nat) :
    Time.Statement (.flr dt) :=
  fun _ => ⟨rfl, rfl, rfl⟩
theorem Time.perst (dt : Nat) :
    Time.Statement (.perst dt) :=
  fun _ => ⟨rfl, rfl, rfl⟩
theorem Time.pcioAccess (dt : Nat) (data : List Word) :
    Time.Statement (.pcioAccess dt data) :=
  fun _ => ⟨rfl, rfl, rfl⟩
theorem Time.pcioFailure (dt : Nat) (kind : HostEnd) :
    Time.Statement (.pcioFailure dt kind) :=
  fun _ => ⟨rfl, rfl, rfl⟩
theorem Time.ingressGo (dt : Nat) (e : Fin 4) :
    Time.Statement (.ingressGo dt e) :=
  fun _ => ⟨rfl, rfl, rfl⟩
theorem Time.ingressDone (dt : Nat) (e : Fin 4) (data : List Byte) (how : HostEnd) :
    Time.Statement (.ingressDone dt e data how) :=
  fun _ => ⟨rfl, rfl, rfl⟩
theorem Time.eqPush (dt : Nat) (q : Fin 14) :
    Time.Statement (.eqPush dt q) :=
  fun _ => ⟨rfl, rfl, rfl⟩
theorem Time.ferryStrmWrite (dt : Nat) (value : Word) :
    Time.Statement (.ferryStrmWrite dt value) :=
  fun _ => ⟨rfl, rfl, rfl⟩
theorem Time.egressDraw (dt : Nat) :
    Time.Statement (.egressDraw dt) :=
  fun _ => ⟨rfl, rfl, rfl⟩
theorem Time.egressWrite (dt : Nat) :
    Time.Statement (.egressWrite dt) :=
  fun _ => ⟨rfl, rfl, rfl⟩
theorem Time.creditRefill (dt : Nat) :
    Time.Statement (.creditRefill dt) :=
  fun _ => ⟨rfl, rfl, rfl⟩
theorem Time.erst (dt : Nat) :
    Time.Statement (.erst dt) :=
  fun _ => ⟨rfl, rfl, rfl⟩
theorem Time.l1Entry (dt : Nat) :
    Time.Statement (.l1Entry dt) :=
  fun _ => ⟨rfl, rfl, rfl⟩
theorem Time.ltrSend (dt : Nat) :
    Time.Statement (.ltrSend dt) :=
  fun _ => ⟨rfl, rfl, rfl⟩
theorem Time.ringEntryWrite (dt : Nat) (r : Fin 4) :
    Time.Statement (.ringEntryWrite dt r) :=
  fun _ => ⟨rfl, rfl, rfl⟩
theorem Time.mailboxTake (dt : Nat) (k : Fin 4) :
    Time.Statement (.mailboxTake dt k) :=
  fun _ => ⟨rfl, rfl, rfl⟩
theorem Time.deadlineExpiry (dt : Nat) (k : Fin 4) :
    Time.Statement (.deadlineExpiry dt k) :=
  fun _ => ⟨rfl, rfl, rfl⟩
theorem Time.eventPost (dt : Nat) :
    Time.Statement (.eventPost dt) :=
  fun _ => ⟨rfl, rfl, rfl⟩
theorem Time.hello (dt : Nat) (k : Fin 4) :
    Time.Statement (.hello dt k) :=
  fun _ => ⟨rfl, rfl, rfl⟩
theorem Time.info (dt : Nat) (k : Fin 4) :
    Time.Statement (.info dt k) :=
  fun _ => ⟨rfl, rfl, rfl⟩
theorem Time.resetHost (dt : Nat) (k : Fin 4) :
    Time.Statement (.resetHost dt k) :=
  fun _ => ⟨rfl, rfl, rfl⟩
theorem Time.loadImage (dt : Nat) (k : Fin 4) (bindings : List Byte) (first : List Byte) (second : List Byte) (key : List Byte) (writes : Option Nat) (how : HostEnd) (differ : List Nat) :
    Time.Statement (.loadImage dt k bindings first second key writes how differ) :=
  fun _ => ⟨rfl, rfl, rfl⟩
theorem Time.imageStat (dt : Nat) (k : Fin 4) :
    Time.Statement (.imageStat dt k) :=
  fun _ => ⟨rfl, rfl, rfl⟩
theorem Time.role (dt : Nat) (k : Fin 4) :
    Time.Statement (.role dt k) :=
  fun _ => ⟨rfl, rfl, rfl⟩
theorem Time.taskStart (dt : Nat) (k : Fin 4) (differ : List Nat) :
    Time.Statement (.taskStart dt k differ) :=
  fun _ => ⟨rfl, rfl, rfl⟩
theorem Time.taskStop (dt : Nat) (k : Fin 4) (mismatch : Bool) :
    Time.Statement (.taskStop dt k mismatch) :=
  fun _ => ⟨rfl, rfl, rfl⟩
theorem Time.keeper (dt : Nat) (k : Fin 4) (mismatch : Bool) :
    Time.Statement (.keeper dt k mismatch) :=
  fun _ => ⟨rfl, rfl, rfl⟩
theorem Time.claim (dt : Nat) (k : Fin 4) :
    Time.Statement (.claim dt k) :=
  fun _ => ⟨rfl, rfl, rfl⟩
theorem Time.release (dt : Nat) (k : Fin 4) :
    Time.Statement (.release dt k) :=
  fun _ => ⟨rfl, rfl, rfl⟩
theorem Time.latTol (dt : Nat) (k : Fin 4) :
    Time.Statement (.latTol dt k) :=
  fun _ => ⟨rfl, rfl, rfl⟩
theorem Time.counters (dt : Nat) (k : Fin 4) :
    Time.Statement (.counters dt k) :=
  fun _ => ⟨rfl, rfl, rfl⟩
theorem Time.reset (dt : Nat) (k : Fin 4) :
    Time.Statement (.reset dt k) :=
  fun _ => ⟨rfl, rfl, rfl⟩
theorem Time.eventRoute (dt : Nat) (k : Fin 4) :
    Time.Statement (.eventRoute dt k) :=
  fun _ => ⟨rfl, rfl, rfl⟩
theorem Time.setTime (dt : Nat) (k : Fin 4) :
    Time.Statement (.setTime dt k) :=
  fun _ => ⟨rfl, rfl, rfl⟩
theorem Time.dbgHalt (dt : Nat) (g : BargeIx) :
    Time.Statement (.dbgHalt dt g) :=
  fun _ => ⟨rfl, rfl, rfl⟩
theorem Time.dbgResume (dt : Nat) (g : BargeIx) :
    Time.Statement (.dbgResume dt g) :=
  fun _ => ⟨rfl, rfl, rfl⟩
theorem Time.dbgStep (dt : Nat) (g : BargeIx) (rivals : List Rival) :
    Time.Statement (.dbgStep dt g rivals) :=
  fun _ => ⟨rfl, rfl, rfl⟩
theorem Time.dbgPcWrite (dt : Nat) (g : BargeIx) (value : Word) :
    Time.Statement (.dbgPcWrite dt g value) :=
  fun _ => ⟨rfl, rfl, rfl⟩
theorem Time.dbgRegdataWrite (dt : Nat) (g : BargeIx) (value : Word) :
    Time.Statement (.dbgRegdataWrite dt g value) :=
  fun _ => ⟨rfl, rfl, rfl⟩
theorem Time.drst (dt : Nat) :
    Time.Statement (.drst dt) :=
  fun _ => ⟨rfl, rfl, rfl⟩
theorem Time.newchal (dt : Nat) (random : BitVec 256) :
    Time.Statement (.newchal dt random) :=
  fun _ => ⟨rfl, rfl, rfl⟩
theorem Time.verify (dt : Nat) (slot : Fin 4) :
    Time.Statement (.verify dt slot) :=
  fun _ => ⟨rfl, rfl, rfl⟩
theorem Time.verifyComplete (dt : Nat) (key : List Byte) :
    Time.Statement (.verifyComplete dt key) :=
  fun _ => ⟨rfl, rfl, rfl⟩
theorem Time.relock (dt : Nat) :
    Time.Statement (.relock dt) :=
  fun _ => ⟨rfl, rfl, rfl⟩
theorem Time.fuseLifeAdvance (dt : Nat) (value : Word) :
    Time.Statement (.fuseLifeAdvance dt value) :=
  fun _ => ⟨rfl, rfl, rfl⟩
theorem Time.fuseKeyProgram (dt : Nat) (value : Word) :
    Time.Statement (.fuseKeyProgram dt value) :=
  fun _ => ⟨rfl, rfl, rfl⟩
theorem Time.fuseDbgSet (dt : Nat) (value : Word) :
    Time.Statement (.fuseDbgSet dt value) :=
  fun _ => ⟨rfl, rfl, rfl⟩
theorem Time.fuseRevoke (dt : Nat) (value : Word) :
    Time.Statement (.fuseRevoke dt value) :=
  fun _ => ⟨rfl, rfl, rfl⟩
theorem Time.fuseArbAdvance (dt : Nat) (value : Word) :
    Time.Statement (.fuseArbAdvance dt value) :=
  fun _ => ⟨rfl, rfl, rfl⟩
theorem Time.fuseFwcntAdvance (dt : Nat) (value : Word) :
    Time.Statement (.fuseFwcntAdvance dt value) :=
  fun _ => ⟨rfl, rfl, rfl⟩
theorem Time.fusePfuseBlow (dt : Nat) (value : Word) :
    Time.Statement (.fusePfuseBlow dt value) :=
  fun _ => ⟨rfl, rfl, rfl⟩
theorem Time.fusePlockBlow (dt : Nat) (value : Word) :
    Time.Statement (.fusePlockBlow dt value) :=
  fun _ => ⟨rfl, rfl, rfl⟩
theorem Time.fuseOpComplete (dt : Nat) :
    Time.Statement (.fuseOpComplete dt) :=
  fun _ => ⟨rfl, rfl, rfl⟩
theorem Time.jtagUpdateDr (dt : Nat) (dr : BitVec 72) :
    Time.Statement (.jtagUpdateDr dt dr) :=
  fun _ => ⟨rfl, rfl, rfl⟩
theorem Time.tapReset (dt : Nat) :
    Time.Statement (.tapReset dt) :=
  fun _ => ⟨rfl, rfl, rfl⟩
theorem Time.coldResetAssert (dt : Nat) (rail : Rail) :
    Time.Statement (.coldResetAssert dt rail) :=
  fun _ => ⟨rfl, rfl, rfl⟩
theorem Time.keeperPowerOnReset (dt : Nat) :
    Time.Statement (.keeperPowerOnReset dt) :=
  fun _ => ⟨rfl, rfl, rfl⟩
theorem Time.noCrystalEdge (dt : Nat) :
    Time.Statement (.noCrystalEdge dt) :=
  fun _ => ⟨rfl, rfl, rfl⟩
theorem Time.basinSelfTestComplete (dt : Nat) (n : BasinIx) (defects : List (Fin 16 × Fin 348)) :
    Time.Statement (.basinSelfTestComplete dt n defects) :=
  fun _ => ⟨rfl, rfl, rfl⟩
theorem Time.reservoirSelfTestComplete (dt : Nat) (p : Fin 4) (defects : List (Fin 4 × Fin 348)) :
    Time.Statement (.reservoirSelfTestComplete dt p defects) :=
  fun _ => ⟨rfl, rfl, rfl⟩
theorem Time.fiEnable (dt : Nat) (n : Fin 128) (en : Bool) :
    Time.Statement (.fiEnable dt n en) :=
  fun _ => ⟨rfl, rfl, rfl⟩
theorem Time.jtagUpdateIr (dt : Nat) (ir : JtagIr) :
    Time.Statement (.jtagUpdateIr dt ir) :=
  fun _ => ⟨rfl, rfl, rfl⟩
theorem Time.configSpaceWrite (dt : Nat) (cfg : ConfigWrite) :
    Time.Statement (.configSpaceWrite dt cfg) :=
  fun _ => ⟨rfl, rfl, rfl⟩

end Sys2Proof.Laws
end

