-- ==== Sys2Proof/Tests/Slice0.lean ====
section
/-! SUPPORT. Tests: commands that are not well formed, worked examples of the spec, one step of a few commands, and for each statement
states and operands that meet its hypotheses. -/

namespace Sys2Proof.Tests

open Machine

/-- The part in service: every barge released, the memories ready, the Keeper in RUNNING, the firmware up. -/
def live : State :=
  { State.reset with
    crp := { State.reset.crp with bhold := 0, armed := true, locked := 0x3F }
    kp := { State.reset.kp with mode := .running }
    basins := State.reset.basins.map fun x => { x with testing := false, bistDone := true }
    rv := { State.reset.rv with ports := State.reset.rv.ports.map fun p => { p with done := true } }
    hif := { State.reset.hif with bme := true }
    fw := { State.reset.fw with up := true } }

/-- Barge 0 of it changed. -/
def liveB (f : Barge → Barge) : State := live.modBarge 0 f

/-- A code line whose instruction 0 is i. -/
def lineOf (i : Insn) : HeldLine := { line := 0, data := i.setWidth 576, bad := false }

/-- A slot's 22 bits at slot k of a template 0 instruction (R18, R19). -/
def slotBits (k guard src dst : Nat) : Insn := BitVec.ofNat 144 ((guard * 2 ^ 19 + src * 2 ^ 10 + dst * 2) * 2 ^ (12 + 22 * k))

/-- Barge 0 with a place for its vital frames, in banks that are its own, and its code line at 0 holding instruction i at slot 0. -/
def liveF (i : Insn) (f : Barge → Barge) : State :=
  (liveB fun b => f { b with vctl := { b.vctl with fps := 0xE0080, vbase := 3 }, lineBuf := [lineOf i] }).modBasin 0 fun x =>
    { x with banks := x.banks.map fun k => { k with own := 8 } }

/-- Its memory changed too. -/
def liveM (i : Insn) (cells : List (Nat × Nat × Nat)) (f : Barge → Barge) : State :=
  (liveF i f).modBasin 0 fun x => { x with mem := cells.foldl (fun m c => m.write (nonetsOf c.1 c.2.2 c.2.1)) x.mem }

/-- Registers w0 and w1 exchanged: w1 → w0 | w0 → w1. -/
def exchange : Insn := slotBits 0 0 1 0 ||| slotBits 1 0 0 1

/-- A task entry (R179): barge 9 with standby 10, retry, hold 2, period 200 µs, window 1 µs to 150 µs, RTIME 50 µs, N = 3,
M = 2^39, C = 12345, groups 5 and 40. -/
def task : KTask :=
  { words := #v[BitVec.ofNat 36 (9 + 10 * 64 + 2 ^ 12 + 2 ^ 13 + 2 * 2 ^ 14), 20000, 0, 100, 15000, 5000, 0, 8, 12345, 0, 3, 32, 256]
    tstate := 1, onbarge := 9 }

/-- Its cycle of KT 0, with date 7. -/
def cycle : Cycle := { start := 0, date := 7, barge := 9 }

/-- The part with the task as task 5, which owns its groups. -/
def liveT (mode : KMode) (now : Nat) (f : KTask → KTask) : State :=
  { live with
    now := now
    kp := { live.kp with
      mode := mode
      kt := BitVec.ofNat 48 (now / 120)
      groups := (live.kp.groups.set 5 { owner := some 5, gstate := 1 }).set 40 { owner := some 5, gstate := 1 }
      tasks := vput live.kp.tasks 5 (f task) } }

/-- A state with its Keeper changed. -/
def withKp (s : State) (f : Keeper → Keeper) : State := { s with kp := f s.kp }

/-- A state with its PWM array changed. -/
def withPwm (s : State) (f : Hrpwm → Hrpwm) : State := { s with pwm := f s.pwm }

/-- A state with its field I/O changed. -/
def withFio (s : State) (f : Fio → Fio) : State := { s with fio := f s.fio }

/-- A state with its Weir, clock and power block, security block, host interface, Ferry or firmware changed. -/
def withWeir (s : State) (f : Weir → Weir) : State := { s with weir := f s.weir }
def withCrp (s : State) (f : Crp → Crp) : State := { s with crp := f s.crp }
def withSec (s : State) (f : Sec → Sec) : State := { s with sec := f s.sec }
def withHif (s : State) (f : Hif → Hif) : State := { s with hif := f s.hif }
def withFerry (s : State) (f : Ferry → Ferry) : State := { s with ferry := f s.ferry }
def withFw (s : State) (f : Firmware → Firmware) : State := { s with fw := f s.fw }
def withTl (s : State) (f : Towline → Towline) : State := { s with tl := f s.tl }

/-- Bytes that all differ a little. -/
def someBytes (n a b : Nat) : List Byte := (List.range n).map fun i => BitVec.ofNat 8 (a * i + b)

/-- A section (R400): type, pos, count, addr and a body, padded to a multiple of 8. -/
def sectionBytes (type pos count addr : Nat) (body : List Byte) : List Byte :=
  leNum 2 type ++ leNum 1 pos ++ [0] ++ leNum 4 body.length ++ leNum 4 addr ++ leNum 4 count ++ body ++
    List.replicate ((8 - body.length % 8) % 8) 0

/-- An image (R399) of these sections, with SECVER 1, BUILD 0x77, every profile, and the signature's slot. -/
def imageBytes (slot retain : Nat) (sections : List (List Byte)) : List Byte :=
  let body := sections.flatten
  leNum 4 0x4B415254 ++ leNum 2 0x0102 ++ leNum 2 0xFFFF ++ leNum 4 (168 + body.length) ++ leNum 4 sections.length ++ leNum 8 1 ++
    leNum 8 0x77 ++ leNum 4 retain ++ List.replicate 28 0 ++ body ++ leNum 1 slot ++ List.replicate 7 0 ++ List.replicate 96 5


/-! ### Commands that are not well formed: one for each check -/

/-- A requester named twice. -/
def twice : List Rival := [{ bank := 0, who := 1 }, { bank := 0, who := 1 }]

theorem test_wf_rivals_twice :
    [Instr.instructionIssue 0 0 twice, .storeBufferDrain 0 0 twice, .rptElement 0 0 twice, .scrubAccess 0 (.basin 0 0) twice,
      .targetGrant 0 0 twice, .dbgStep 0 0 twice, .hrpwmCommit 0 [5, 5], .foCommit 0 [5, 5]].map Instr.wf = List.replicate 8 false := by decide +kernel

theorem test_wf_register_path :
    [Instr.registerWrite 0 (.per false 0x20000002) 0, .registerWrite 0 (.per false 0x1FFFFFFC) 0,
      .registerWrite 0 (.per false 0x21000000) 0, .registerWrite 0 (.bar0 2 {}) 0].map Instr.wf = List.replicate 4 false := by decide +kernel

theorem test_wf_transaction :
    ([(2, false, .word, []), (1, false, .half, []), (0, false, .row 0, []), (0, false, .burst 1, []), (0, false, .burst 17, []),
      (4, false, .burst 2, []), (0, true, .word, []), (0, false, .word, [0]), (0, true, .row 1, [0])] :
      List (BitVec 32 × Bool × TxSize × List Word)).map (fun x =>
        (Instr.wharfAccept 0 0 { addr := x.1, write := x.2.1, size := x.2.2.1, id := 0, world := false, data := x.2.2.2 }).wf) =
      List.replicate 9 false := by decide +kernel

theorem test_wf_lengths :
    [Instr.mainSampleReady 0 0 (List.replicate 1025 (true, true)) false, .fastSample 0 0 (List.replicate 65 true),
      .stuckStream 0 0 (List.replicate 15 true), .stuckStream 0 0 (List.replicate 65 true), .frameReceive 0 0 [] false,
      .frameReceive 0 0 (List.replicate 260 0) false, .thermalConversion 0 (List.replicate 7 (0, false))].map Instr.wf =
      List.replicate 7 false := by decide +kernel

theorem test_wf_host_bytes :
    [Instr.mailboxWrite 0 0 { offset := 2, bytes := List.replicate 4 none }, .mailboxWrite 0 0 { offset := 0, bytes := [none] },
      .mailboxWrite 0 0 { offset := 0, bytes := [] }, .mailboxWrite 0 0 { offset := 256, bytes := List.replicate 4 none },
      .bar2Access 0 true { offset := 0x800000, bytes := List.replicate 4 none },
      .bar4Access 0 true { offset := 0x800000, bytes := List.replicate 4 none }].map Instr.wf = List.replicate 6 false := by decide +kernel

theorem test_wf_named_values :
    [Instr.rstcmdWarm 0 0 {}, .pcioFailure 0 .ok, .configSpaceWrite 0 { bme := true, d3hot := false, ltrEn := false, l1En := false, mps := 3 },
      .fuseLifeAdvance 0 2, .fuseKeyProgram 0 3, .fuseDbgSet 0 4, .fuseRevoke 0 5, .fuseArbAdvance 0 6, .fuseFwcntAdvance 0 7,
      .fusePfuseBlow 0 8, .fusePlockBlow 0 9].map Instr.wf = List.replicate 11 false := by decide +kernel

theorem test_wf_good_ones :
    [Instr.instructionIssue 0 0 [{ bank := 0, who := 1 }], .registerWrite 0 (.per false 0x20070000) 0, .registerWrite 0 (.port 0x1FFF (alike 0x1FFF 0)) 0,
      .thermalConversion 0 (List.replicate 8 (0, false)), .frameReceive 0 0 [] true,
      .mailboxWrite 0 0 { offset := 0, bytes := List.replicate 256 none }, .fusePlockBlow 0 8].map Instr.wf = List.replicate 7 true := by decide +kernel

/-! ### Worked examples of the spec: the expected values are the manual's -/

/-- Chapter 2, "encoding an instruction": the words read as their slots. -/
def exampleInsn : Insn := BitVec.ofNat 144 (0x000C90000 + 0x2C0E00440 * 2 ^ 36 + 0x000000001 * 2 ^ 72)

theorem test_example_slots :
    slotsOf exampleInsn = [{ guard := 0, src := 0x003, dst := 0x048, chain := false },
      { guard := 0, src := 0x004, dst := 0x080, chain := false }, { guard := 0, src := 0x04B, dst := 0x007, chain := false }] := by
  decide +kernel

theorem test_example_moves : movesOf exampleInsn = [{ guard := 0, src := .reg 3, chain := false, dst := .opnd .alu0o },
    { guard := 0, src := .reg 4, chain := false, dst := .trig .alu0 0 }, { guard := 0, src := .lsu, chain := false, dst := .reg 7 }] := by
  decide +kernel

/-- Chapter 6, "a coded sum with its correction". -/
theorem test_coded_sum : encodeCoded 1200 3000 = 0x0004AFDA8 ∧ encodeCoded (-50) 2000 = 0xFFFFCE866 ∧
    decodeCoded 0x00047D611 907 = .ok 1150 ∧ decodeCoded 0x00047E60E 907 = .ok 1151 := by decide +kernel

/-- Chapter 6, "a scaled product with rounding": BX given as 212 fails the residue. -/
theorem test_coded_product : encodeCoded (-1127) 3050 = 0xFFFB9A91F ∧ decodeCoded 0xFFFA2326D 211 = .ok (-1502) ∧
    decodeCoded 0xFFFA2326D 212 = .residue := by decide +kernel

/-- The poison word fails for every residue (R142). -/
theorem test_poison : decodeCoded 0x800000000 2033 = .range ∧ decodeCoded 0x800000000 0 = .residue := by decide +kernel

/-- Chapter 6, "a coded sum, a range check and a bound branch": S after I3, I5 and I8. -/
theorem test_folds : sigFold 0x30A17 907 = 0x6142E38C ∧ sigFold 0x6142E38C 1877 = 0xC285C718756 ∧
    sigFold 0xC285C718756 1 = 0x1850B8E30EAC002 := by decide +kernel

/-- Chapter 10, the lamp-current channel's sample. -/
theorem test_sample_word : scaleClamp 3000001 1 = (1500001, false) ∧ encodeCoded 1500001 1234 = 0x16DF16AAF := by decide +kernel

/-- Chapter 12, the staged word of slot 2. -/
theorem test_staged_word : encodeCoded 1 302 = 0x00000112B := by decide +kernel

/-- Chapter 14, "two draws with aging": the winners. -/
theorem test_lottery : lotteryFind (fun q => if q = 0 then 40 else if q = 3 then 25 else 10) [0, 3, 12] (0x9E3779B9 * 75 / 2 ^ 32) = some 3 ∧
    lotteryFind (fun q => if q = 0 then 41 else if q = 3 then 20 else 11) [0, 3, 12] (0x12345678 * 72 / 2 ^ 32) = some 0 := by
  decide +kernel

/-- Chapter 15, step 4 of the session example: FERRY_LTR for 200,000 ns. -/
theorem test_ltr : ltrWord 0 200000 = 0x28C3 := by decide +kernel

/-- Chapter 14, "one word in both views": the byte and bit of a word's bits. -/
theorem test_views : viewBit false 9 0 = (0x48, 0) ∧ viewBit true 9 0 = (0x28, 4) ∧ viewBit true 9 35 = (0x2C, 7) := by decide +kernel

/-! ### One step of a few commands -/

/-- A field of the state that a step answers. -/
def after {α : Type} (o : Out) (f : State → α) : Option α := match o with
  | .next t => some (f t)
  | _ => none

/-- FORCE_SAFE takes the Keeper to SAFE (R205). -/
theorem test_force_safe : after (exec (.forceSafe 12 0 (sameCmd 6 0)) live) (fun t => t.kp.mode) = some .safe := by decide +kernel

/-- A doorbell sets BUSY, and OVR where BUSY is set (R359). -/
theorem test_doorbell : after (exec (.hifDbellWrite 12 0x5 {}) (withHif live fun h => { h with busy := 4 })) (fun t => (t.hif.busy, t.hif.ovr)) =
    some (5, 4) := by decide +kernel

/-- An empty queue idles (log entry 5). -/
theorem test_idle : after (step live) (fun t => (t.now, t.pending)) = some (0, []) := by decide +kernel

/-! ### Witnesses: for each statement, states and operands that meet the hypotheses of each clause, in the clauses' order -/

/-- A memory without marks. -/
theorem unmarked (m : Mem) (h : m.marks = []) (w : Nat) : m.mark w = none := by simp [Mem.mark, h, kget]

/-- NextInsn, as a test. -/
def nextOk (s : State) (g : BargeIx) (i : Insn) : Bool :=
  let b := s.barges.get g
  decide (bargeRuns s g = true ∧ busyBoundary s g = false ∧ b.trapDue = none ∧ b.hoFault = none ∧ b.dbg.stepping = false ∧
    b.dbg.haltReq = none ∧ b.second = none ∧ b.issueFrom ≤ bclkCount s (basinOf g) ∧ b.irun = 0 ∧ b.flights = [] ∧ b.done = [] ∧
    b.syPend = [] ∧ b.mustRead = false ∧ (∀ j, bitsN (b.dbg.bps.get j).bpa 14 2 ≠ 2) ∧ fmtOf i ≠ 3 ∧
    decodeFault i (pswW b.psw) (pswL b.psw) = none ∧
    (b.heldLine (fld b.pc 2 12)).any (fun h => !h.bad && decide (i = lineInsn h.data (bitsN b.pc 0 2))) = true)

theorem nextOk_spec {s : State} {g : BargeIx} {i : Insn} (h : nextOk s g i = true) : NextInsn s g i := by
  unfold nextOk at h
  obtain ⟨a, b, c, d, e, f, j, k, l, m, n, o, p, q, r, t, u⟩ := of_decide_eq_true h
  obtain ⟨x, hx, hy⟩ := (Option.any_eq_true _ _).1 u
  exact ⟨⟨a, b, c, d, e, f, j, k⟩, l, m, n, o, p, q, r, t, x, hx, by simpa using hy⟩

/-- Triggers, as a test. -/
def trigOk (s : State) (g : BargeIx) (i : Insn) (u : TrigUnit) (op : Nat) (v : Word) : Bool :=
  let b := s.barges.get g
  match movesOf i with
  | [m] => decide (m.dst = .trig u op ∧ guardHolds b.flags m.guard = true ∧ v = srcValue b i m ∧
      (m.src = .xlu → b.xluSeen = b.xluIssued) ∧ (m.src = .iou → b.iou = none))
  | _ => false

theorem trigOk_spec {s : State} {g : BargeIx} {i : Insn} {u : TrigUnit} {op : Nat} {v : Word} (h : trigOk s g i u op v = true) :
    Triggers s g i u op v := by
  unfold trigOk at h
  dsimp only at h
  split at h
  · exact ⟨_, ‹_›, of_decide_eq_true h⟩
  · cases h

/-- A plan is this fault, as a test. -/
def faultOk (p : Plan) (c : BitVec 8) (f : Word) : Bool := match p with
  | .fault d x => d == c && x == f
  | _ => false

theorem faultOk_spec {p : Plan} {c : BitVec 8} {f : Word} (h : faultOk p c f = true) : p = .fault c f := by
  unfold faultOk at h
  split at h
  · simp only [Bool.and_eq_true, beq_iff_eq] at h
    rw [h.1, h.2]
  · cases h


set_option Elab.async false in
theorem witness_StepRunsFrontCommand :
    ∃ (s : State) (c : Instr) (rest : List Instr),
    s.pending = c :: rest := by
  refine
    ⟨{ live with pending := [.idleCount 1 0] }, .idleCount 1 0, [], ?_⟩ <;> decide +kernel

set_option Elab.async false in
theorem witness_TimePassesAndNothingElse :
    (∃ (s : State),
     s.kp.powered = true) ∧
    (∃ (s : State),
     s.kp.powered = false) ∧
    (∃ (i : Instr) (s : State),
     s.crp.factory = true ∧
     PinCommand i) ∧
    (∃ (i : Instr) (s : State),
     s.crp.factory = true ∧
     ¬ PinCommand i) ∧
    (∃ (s : State),
     s.crp.factory = false ∧
     s.crp.coldHeld = true) := by
  refine
    ⟨⟨live, ?_⟩,
     ⟨{ live with kp := { live.kp with powered := false } }, ?_⟩,
     ⟨.coldResetAssert 12 .core, { live with crp := { live.crp with factory := true } }, ?_, ?_⟩,
     ⟨.idleCount 1 0, { live with crp := { live.crp with factory := true } }, ?_, ?_⟩,
     ⟨{ live with crp := { live.crp with coldHeld := true } }, ?_, ?_⟩⟩ <;>
    first | decide +kernel | (unfold PinCommand; decide +kernel)

set_option Elab.async false in
theorem witness_RegisterMovesExchange :
    ∃ (s : State) (dt : Nat) (g : BargeIx) (h : HeldLine),
    let b := s.barges.get g
    let i := lineInsn h.data (bitsN b.pc 0 2)
    let w := pswW b.psw
    Available s ∧
    AtBoundary s g ∧
    NoInterrupts s g ∧
    b.irun = 0 ∧
    b.flights = [] ∧
    b.syPend = [] ∧
    b.mustRead = false ∧
    (∀ j, bitsN (b.dbg.bps.get j).bpa 14 2 ≠ 2) ∧
    b.heldLine (fld b.pc 2 12) = some h ∧
    h.bad = false ∧
    fmtOf i ≠ 3 ∧
    decodeFault i w (pswL b.psw) = none ∧
    (∀ m ∈ movesOf i, (∃ k, m.dst = .reg k) ∧ (m.src = .xlu → b.xluSeen = b.xluIssued) ∧ (m.src = .iou → b.iou = none)) ∧
    (((movesOf i).filter fun m => guardHolds b.flags m.guard).length ≤ 4 ∨
      b.wide.any (fun c => c < bclkCount (s.elapse dt) (basinOf g)) = true) := by
  refine
    ⟨liveB fun b => { b with lineBuf := [lineOf exchange], vital := { b.vital with w := vput (vput b.vital.w 0 5) 1 7 } },
     12, 0, lineOf exchange, ?_, ?_, ?_, ?_, ?_, ?_, ?_, ?_, ?_, ?_, ?_, ?_, ?_, ?_⟩ <;>
    first | decide +kernel | (unfold Available; decide +kernel) | (unfold AtBoundary; decide +kernel) | (unfold NoInterrupts; decide +kernel)

set_option Elab.async false in
theorem witness_AluResultsAreExactAndOneLater :
    (∃ (s : State) (g : BargeIx) (h : HeldLine) (m : Move) (op : Nat),
     let b := s.barges.get g
     let i := lineInsn h.data (bitsN b.pc 0 2)
     Available s ∧
     AtBoundary s g ∧
     NoInterrupts s g ∧
     b.irun = 0 ∧
     b.flights = [] ∧
     b.syPend = [] ∧
     b.mustRead = false ∧
     pswT b.psw = false ∧
     pswV b.psw = false ∧
     (∀ j, bitsN (b.dbg.bps.get j).bpa 14 2 ≠ 2) ∧
     b.heldLine (fld b.pc 2 12) = some h ∧
     h.bad = false ∧
     fmtOf i ≠ 3 ∧
     decodeFault i (pswW b.psw) (pswL b.psw) = none ∧
     movesOf i = [m] ∧
     m.dst = .trig .alu0 op ∧
     guardHolds b.flags m.guard = true ∧
     (m.src = .xlu → b.xluSeen = b.xluIssued) ∧
     (m.src = .iou → b.iou = none)) ∧
    (∃ (s : State) (g : BargeIx) (v : Word) (f : Option (Bool × Bool × Bool × Bool)) (n : Nat),
     let b := s.barges.get g
     Available s ∧
     AtBoundary s g ∧
     n ≤ b.count ∧
     b.flights = [{ port := .alu0, due := n, value := some v, flags := f }]) := by
  refine
    ⟨⟨liveB fun b => { b with lineBuf := [lineOf (slotBits 0 0 1 0x81)], vital := { b.vital with w := vput b.vital.w 1 0xFFFFFFFFF }, u := { b.u with alu0o := 1 } },
      0, lineOf (slotBits 0 0 1 0x81), { guard := 0, src := .reg 1, chain := false, dst := .trig .alu0 1 }, 1, ?_, ?_, ?_,
      ?_, ?_, ?_, ?_, ?_, ?_, ?_, ?_, ?_, ?_, ?_, ?_, ?_, ?_, ?_, ?_⟩,
     ⟨liveB fun b => { b with count := 1, flights := [{ port := .alu0, due := 1, value := some 0, flags := some (true, false, true, false) }] },
      0, 0, some (true, false, true, false), 1, ?_, ?_, ?_, ?_⟩⟩ <;>
    first | decide +kernel | (unfold Available; decide +kernel) | (unfold AtBoundary; decide +kernel) | (unfold NoInterrupts; decide +kernel)

set_option Elab.async false in
theorem witness_IdleRunsWaitsAndHandoversEnd :
    (∃ (s : State) (g : BargeIx),
     let b := s.barges.get g
     Available s ∧
     AtBoundary s g ∧
     NoInterrupts s g ∧
     0 < b.irun ∧
     b.flights = []) ∧
    (∃ (s : State) (dt : Nat) (g : BargeIx) (last : Nat),
     Available s ∧
     bargeRuns s g = true ∧
     (s.barges.get g).wait = some (.count last) ∧
     last ≤ bclkCount (s.elapse dt) (basinOf g)) ∧
    (∃ (s : State) (dt : Nat) (g : BargeIx) (v : Word),
     Available s ∧
     bargeRuns s g = true ∧
     (s.barges.get g).wait = some (.time v) ∧
     reached (sampleTime g (s.elapse dt)).1 v = true) ∧
    (∃ (s : State) (n : BasinIx) (b : BankIx) (h : Handover),
     Available s ∧
     ((s.basins.get n).banks.get b).ho = some h ∧
     ((s.basins.get n).banks.get b).hoWait = [] ∧
     handoverDrained s n h = true) ∧
    (∃ (s : State) (g : BargeIx) (m : SealMsg),
     Available s ∧
     (s.barges.get g).sig.captured = some (m, false)) := by
  refine
    ⟨⟨liveB fun b => { b with irun := 1 }, 0, ?_, ?_, ?_, ?_, ?_⟩,
     ⟨liveB fun b => { b with wait := some (.count 1) }, 12, 0, 1, ?_, ?_, ?_, ?_⟩,
     ⟨liveB fun b => { b with wait := some (.time 0), tcmp := b.tcmp }, 12, 0, 0, ?_, ?_, ?_,
      (by unfold sampleTime; dsimp only; generalize Config.freeChoice _ = c; cases c <;> decide +kernel)⟩,
     ⟨live.modBank 0 3 fun k => { k with ho := some { old := 7, writer := some 1, stores := [(0, 4)] } }, 0, 3,
      { old := 7, writer := some 1, stores := [(0, 4)] }, ?_, ?_, ?_, ?_⟩,
     ⟨liveB fun b => { b with sig := { b.sig with captured := some (.seal 5 1 2, false) } }, 0, .seal 5 1 2, ?_, ?_⟩⟩ <;>
    first | decide +kernel | (unfold Available; decide +kernel) | (unfold AtBoundary; decide +kernel) | (unfold NoInterrupts; decide +kernel)

set_option Elab.async false in
theorem witness_OwnedStoresWriteTheirNonets :
    (∃ (s : State) (dt : Nat) (g : BargeIx) (e : StoreEntry) (rest : List StoreEntry),
     Available s ∧
     MemoriesCanonical s ∧
     basinRuns s (basinOf g) = true ∧
     (s.barges.get g).stores = e :: rest ∧
     e.addr + e.size ≤ 0x100000 ∧
     e.size ≤ 8 ∧
     PortsFree (s.elapse dt) (basinOf g) ∧
     e.since < bclkCount (s.elapse dt) (basinOf g) ∧
     (s.barges.get g).drainAt ≠ some (bclkCount (s.elapse dt) (basinOf g)) ∧
     (∀ w ∈ wordsOf e.addr e.size, (s.basins.get (basinOf g)).mem.mark w = none)) ∧
    (∃ (a n : Nat),
     a + n ≤ 0xFFC00 ∧
     0 < n) ∧
    (∃ (a n : Nat),
     0xFFC00 ≤ a ∧
     a + n ≤ 0x100000 ∧
     0 < n) := by
  refine
    ⟨⟨liveB fun b => { b with stores := [{ addr := 0x1002, size := 8, data := 0x123456789ABCDEF012, world := true, seq := 0, since := 0 }] },
      12, 0, { addr := 0x1002, size := 8, data := 0x123456789ABCDEF012, world := true, seq := 0, since := 0 }, [], ?_, ?_,
      ?_, ?_, ?_, ?_, ?_, ?_, ?_, ?_⟩,
     ⟨0x100, 4, ?_, ?_⟩,
     ⟨0xFFC00, 4, ?_, ?_, ?_⟩⟩ <;>
    first | decide +kernel | (unfold Available; decide +kernel) | (unfold MemoriesCanonical; decide +kernel) | (unfold PortsFree; decide +kernel)

set_option Elab.async false in
theorem witness_OperationsAdvanceAndComplete :
    (∃ (s : State) (g : BargeIx) (o : XluOp) (rest : List XluOp),
     Available s ∧
     basinRuns s (basinOf g) = true ∧
     (s.barges.get g).xluq = o :: rest ∧
     (∀ e ∈ (s.barges.get g).stores, o.after ≤ e.seq)) ∧
    (∃ (s : State) (g : BargeIx) (r : XluResp) (rest : List XluResp),
     let b := s.barges.get g
     Available s ∧
     basinRuns s (basinOf g) = true ∧
     b.xluResps = r :: rest) ∧
    (∃ (s : State) (g : BargeIx) (o : IouOp),
     Available s ∧
     basinRuns s (basinOf g) = true ∧
     (s.barges.get g).iou = some o ∧
     o.write = false ∧
     (∀ e ∈ (s.barges.get g).stores, o.after ≤ e.seq) ∧
     (0x1000 ≤ o.addr.toNat → o.addr.toNat < 0x2000 → o.line ≠ none)) ∧
    (∃ (s : State) (g : BargeIx) (o : IouOp),
     Available s ∧
     basinRuns s (basinOf g) = true ∧
     (s.barges.get g).iou = some o ∧
     o.write = true ∧
     (∀ e ∈ (s.barges.get g).stores, o.after ≤ e.seq)) ∧
    (∃ (s : State) (dt : Nat) (g : BargeIx) (r : RptRun),
     let b := s.barges.get g
     let x := s.basins.get (basinOf g)
     let u := b.u
     let op := bitsN u.rmode 3 3
     let n := rptSize u
     let src := x.mem.read u.rs.toNat n
     let all := rptAccesses u op n
     let sum := u.rd.toInt + (rptExtend n src).toInt
     Available s ∧
     MemoriesCanonical s ∧
     bargeRuns s g = true ∧
     b.rpt = some r ∧
     b.dbg.halted = false ∧
     b.dbg.haltReq = none ∧
     b.stores = [] ∧
     b.trapDue = none ∧
     b.second = none ∧
     b.flights = [] ∧
     NoInterrupts s g ∧
     op ≤ 4 ∧
     max r.next b.issueFrom ≤ bclkCount (s.elapse dt) (basinOf g) ∧
     PortsFree (s.elapse dt) (basinOf g) ∧
     (op = 4 → pswV b.psw = true → bit u.rmode 25 = false → -34359738368 ≤ sum ∧ sum ≤ 34359738367) ∧
     rptFault x b (posOf g) n (rptReads u op ++ rptWrites u op) = none ∧
     (all.all fun y => !inHandover x (bankOf y.2.1)) = true ∧
     (∀ d ∈ b.done, d.ues = [] ∧
      ∃ y ∈ all, d.place = y.1 ∧ d.addr = y.2.1 ∧ (y.1 < 4 → d.raw = x.mem.read y.2.1 y.2.2)) ∧
     ((all.filter fun y => !b.hasDone y).map fun y => bankOf y.2.1).Nodup ∧
     (∀ w, x.mem.mark w = none)) := by
  refine
    ⟨⟨liveB fun b => { b with xluq := [{ write := false, size := .word, addr := 0x10000000, data := 0, world := true, after := 0, load := 1 }] },
      0, { write := false, size := .word, addr := 0x10000000, data := 0, world := true, after := 0, load := 1 }, [], ?_, ?_,
      ?_, ?_⟩,
     ⟨liveB fun b => { b with xluCredits := 1, xluResps := [{ write := false, load := 1, data := 9, ok := true }] }, 0,
      { write := false, load := 1, data := 9, ok := true }, [], ?_, ?_, ?_⟩,
     ⟨liveB fun b => { b with iou := some { write := false, addr := 8, data := 5, world := true, sup := true, after := 0, date := 0, att := false } },
      0, { write := false, addr := 8, data := 5, world := true, sup := true, after := 0, date := 0, att := false }, ?_, ?_,
      ?_, ?_, ?_, ?_⟩,
     ⟨liveB fun b => { b with iou := some { write := true, addr := 0x204, data := 5, world := true, sup := true, after := 0, date := 0, att := false } },
      0, { write := true, addr := 0x204, data := 5, world := true, sup := true, after := 0, date := 0, att := false }, ?_,
      ?_, ?_, ?_, ?_⟩,
     ⟨(liveB fun b => { b with rpt := some { pc := 0, world := true, vital := true, next := 0 }, u := { b.u with rc := 2, rs := 0x1000, rd := 0x12000, rmode := BitVec.ofNat 36 (2 + 8 * 0) } }).modBasin 0 fun x => { x with banks := x.banks.map fun k => { k with own := 8 } },
      12, 0, { pc := 0, world := true, vital := true, next := 0 }, ?_, ?_, ?_, ?_, ?_, ?_, ?_, ?_, ?_, ?_, ?_, ?_, ?_, ?_,
      ?_, ?_, ?_, ?_, ?_, (unmarked _ (by decide +kernel))⟩⟩ <;>
    first | decide +kernel | (unfold Available; decide +kernel) | (unfold NoInterrupts; decide +kernel) | (unfold MemoriesCanonical; decide +kernel) | (unfold PortsFree; decide +kernel)

set_option Elab.async false in
theorem witness_GatesCrossAndReturn :
    (∃ (s : State) (dt : Nat) (g : BargeIx) (h : GateHold),
     let b := s.barges.get g
     let x := s.basins.get (basinOf g)
     let a := b.gateBase.toNat + 4 * h.t.toNat
     let e := x.mem.word (a / 4)
     Available s ∧
     bargeRuns s g = true ∧
     b.gate = some h ∧
     h.isReturn = false ∧
     b.dbg.halted = false ∧
     b.dbg.stepping = false ∧
     drained b = true ∧
     b.syPend = [] ∧
     b.sig.captured = none ∧
     b.flights = [] ∧
     inHandover x (bankOf a) = false ∧
     PortsFree (s.elapse dt) (basinOf g) ∧
     pswW b.psw = false ∧
     h.t.toNat < b.gateCnt.toNat ∧
     a + 4 ≤ 0x100000 ∧
     admits x (posOf g) true true a 4 = true ∧
     x.mem.mark (a / 4) = none ∧
     bit e 15 = true) ∧
    (∃ (s : State) (g : BargeIx) (h : GateHold),
     let b := s.barges.get g
     Available s ∧
     bargeRuns s g = true ∧
     b.gate = some h ∧
     h.isReturn = true ∧
     b.dbg.halted = false ∧
     b.dbg.stepping = false ∧
     drained b = true ∧
     b.syPend = [] ∧
     b.sig.captured = none ∧
     b.flights = [] ∧
     pswW b.psw = true ∧
     pswGA b.psw = true) ∧
    (∃ (s : State) (dt : Nat) (g : BargeIx) (h : GateHold),
     let b := s.barges.get g
     let a := b.gateBase.toNat + 4 * h.t.toNat
     Available s ∧
     bargeRuns s g = true ∧
     b.gate = some h ∧
     b.dbg.halted = false ∧
     b.dbg.stepping = false ∧
     drained b = true ∧
     b.syPend = [] ∧
     b.flights = [] ∧
     b.entry = none ∧
     FrameAdmitted s g ∧
     (if h.isReturn then pswGA b.psw = false
      else pswW b.psw = true ∨ b.gateCnt.toNat ≤ h.t.toNat ∨ 0x100000 < a + 4 ∨
        admits (s.basins.get (basinOf g)) (posOf g) true true a 4 = false ∨
        (inHandover (s.basins.get (basinOf g)) (bankOf a) = false ∧ PortsFree (s.elapse dt) (basinOf g) ∧
          bit ((s.basins.get (basinOf g)).mem.word (a / 4)) 15 = false))) := by
  refine
    ⟨⟨(liveB fun b => { b with psw := 0x16, gate := some { isReturn := false, world := false, t := 2, pc := 3, next := 4 }, gateBase := 0x100, gateCnt := 3, ordinary := { b.ordinary with w := vput b.ordinary.w 3 77 } }).modBasin 0 fun x => { x with mem := x.mem.write (nonetsOf 0x108 0xC123 4), banks := x.banks.map fun k => { k with own := 8 } },
      12, 0, { isReturn := false, world := false, t := 2, pc := 3, next := 4 }, ?_, ?_, ?_, ?_, ?_, ?_, ?_, ?_, ?_, ?_, ?_,
      ?_, ?_, ?_, ?_, ?_, ?_, ?_⟩,
     ⟨liveB fun b => { b with psw := 0x11800A11, gate := some { isReturn := true, world := true, t := 9, pc := 3, next := 4 }, vital := { b.vital with w := vput b.vital.w 1 77 } },
      0, { isReturn := true, world := true, t := 9, pc := 3, next := 4 }, ?_, ?_, ?_, ?_, ?_, ?_, ?_, ?_, ?_, ?_, ?_, ?_⟩,
     ⟨liveM 0 [(0x108, 0x4123,
        4)] fun b => { b with psw := 0x11800813, gate := some { isReturn := true, world := true, t := 2, pc := 3, next := 4 }, gateBase := 0x100, gateCnt := 3, octl := { b.octl with fps := 0xE0080, fpu := 0xE0080 } },
      12, 0, { isReturn := true, world := true, t := 2, pc := 3, next := 4 }, ?_, ?_, ?_, ?_, ?_, ?_, ?_, ?_, ?_, ?_, ?_⟩⟩ <;>
    first | decide +kernel | (unfold Available; decide +kernel) | (unfold FrameAdmitted; decide +kernel) | (unfold PortsFree; decide +kernel)

set_option Elab.async false in
theorem witness_CodeLinesAreReadAndProgrammed :
    (∃ (s : State) (dt : Nat) (n : BasinIx) (k w p : Fin 4) (r : WayRead),
     let c := (s.basins.get n).code.get k
     Available s ∧
     c.ways.get w = some r ∧
     r.use = .demand p ∧
     r.since + 10 ≤ bclkCount (s.elapse dt) n ∧
     (∀ j, bitsN ((s.barges.get (bargeOf n p)).dbg.bps.get j).bpa 14 2 ≠ 1)) ∧
    (∃ (s : State) (n : BasinIx) (k w : Fin 4),
     let c := (s.basins.get n).code.get k
     Available s ∧
     basinRuns s n = true ∧
     (s.basins.get n).scrubPatrol = true ∧
     c.ways.get w = none) ∧
    (∃ (s : State) (dt : Nat) (n : BasinIx) (k w : Fin 4) (r : WayRead),
     let c := (s.basins.get n).code.get k
     Available s ∧
     basinRuns s n = true ∧
     c.ways.get w = some r ∧
     r.use = .patrol ∧
     r.since + 10 ≤ bclkCount (s.elapse dt) n) ∧
    (∃ (s : State) (dt : Nat) (g : BargeIx) (k w : Fin 4) (r : WayRead) (o : IouOp),
     let c := (s.basins.get (basinOf g)).code.get k
     Available s ∧
     c.ways.get w = some r ∧
     r.use = .window (posOf g) ∧
     r.since + 10 ≤ bclkCount (s.elapse dt) (basinOf g) ∧
     (∀ k' w' r', ((s.basins.get (basinOf g)).code.get k').ways.get w' = some r' → r'.use = .window (posOf g) →
      k' = k ∧ w' = w) ∧
     (s.barges.get g).iou = some o) ∧
    (∃ (s : State) (c : Fin 4),
     let x := s.nvp.get c
     let basin := bitsN x.addr 14 4
     Available s ∧
     x.busy = false ∧
     basin < 12) ∧
    (∃ (s : State) (c : Fin 4),
     let x := s.nvp.get c
     let basin := bitsN x.addr 14 4
     Available s ∧
     (x.busy = true ∨ 12 ≤ basin)) ∧
    (∃ (s : State) (dt : Nat) (c : Fin 4) (n : BasinIx) (k : Fin 4) (l : BitVec 12) (new : Option LineBits) (r : WayRead),
     let code := (s.basins.get n).code.get k
     Available s ∧
     (s.nvp.get c).op = some (n.val, k.val, l.toNat, new) ∧
     keysRise code.lines = true ∧
     code.ways.get (wayOf l) = some r ∧
     r.use = .program c ∧
     20 * 12000 ≤ s.now + dt - r.time) := by
  refine
    ⟨⟨(live).modCode 0 1 fun c => { c with ways := vput c.ways 2 (some { use := .demand 3, line := 6, since := 0, asked := 0, time := 0 }) },
      120, 0, 1, 2, 3, { use := .demand 3, line := 6, since := 0, asked := 0, time := 0 }, ?_, ?_, ?_, ?_, ?_⟩,
     ⟨live, 0, 1, 2, ?_, ?_, ?_, ?_⟩,
     ⟨(live).modCode 0 1 fun c => { c with ways := vput c.ways 2 (some { use := .patrol, line := 6, since := 0, asked := 0, time := 0 }) },
      120, 0, 1, 2, { use := .patrol, line := 6, since := 0, asked := 0, time := 0 }, ?_, ?_, ?_, ?_, ?_⟩,
     ⟨((live).modCode 0 1 fun c => { c with ways := vput c.ways 2 (some { use := .window 0, line := 6, since := 0, asked := 0, time := 0 }) }).modBarge 0 fun b => { b with iou := some { write := false, addr := 0x1003, data := 0, world := true, sup := true, after := 0, date := 0, att := false } },
      120, 0, 1, 2, { use := .window 0, line := 6, since := 0, asked := 0, time := 0 },
      { write := false, addr := 0x1003, data := 0, world := true, sup := true, after := 0, date := 0, att := false }, ?_, ?_,
      ?_, ?_, ?_, ?_⟩,
     ⟨{ live with nvp := vput live.nvp 1 { data := vput (Vector.replicate 16 0) 1 5, addr := 0x2E000, busy := false, op := none } },
      1, ?_, ?_, ?_⟩,
     ⟨{ live with nvp := vput live.nvp 1 { data := vput (Vector.replicate 16 0) 1 5, addr := 0x2E000, busy := true, op := none } },
      1, ?_, ?_⟩,
     ⟨({ live with nvp := vput live.nvp 1 { data := vput (Vector.replicate 16 0) 1 5, addr := 0x2E000, busy := true, op := some (11, 1, 6, some 5) } }).modCode 11 1 fun c => { c with ways := vput c.ways (wayOf 6) (some { use := .program 1, line := 6, since := 0, asked := 0, time := 0 }), lines := [(4, { data := 3, crc := 1 }), (6, { data := 9, crc := 1 })] },
      240000, 1, 11, 1, 6, some 5, { use := .program 1, line := 6, since := 0, asked := 0, time := 0 }, ?_, ?_, ?_, ?_, ?_,
      ?_⟩⟩ <;>
    first | decide +kernel | (unfold Available; decide +kernel)

set_option Elab.async false in
theorem witness_InterruptEntrySavesAndVectors :
    (∃ (s : State) (dt : Nat) (g : BargeIx) (n : Fin 64),
     let b := s.barges.get g
     Available s ∧
     AtBoundary s g ∧
     b.flights = [] ∧
     b.syPend = [] ∧
     iouWriting b = false ∧
     b.entry = none ∧
     selectInterrupt b (bclkCount (s.elapse dt) (basinOf g)) = some n ∧
     nextFaults (s.elapse dt) g = false ∧
     heldHard (s.elapse dt) g = false ∧
     FrameAdmitted s g) ∧
    (∃ (s : State) (dt : Nat) (g : BargeIx) (rivals : List Rival) (f : FrameRun) (e : EntryRec),
     let b := s.barges.get g
     let x := s.basins.get (basinOf g)
     let clk := bclkCount (s.elapse dt) (basinOf g)
     let a := f.addr + 32 * (f.made % 3)
     Available s ∧
     MemoriesCanonical s ∧
     bargeRuns s g = true ∧
     b.dbg.stepping = false ∧
     b.frameRun = some f ∧
     b.entry = some e ∧
     e.frame.length = 24 ∧
     f.made < 6 ∧
     f.next ≤ clk ∧
     f.addr % 32 = 0 ∧
     f.addr + 96 ≤ 0x100000 ∧
     inHandover x (bankOf a) = false ∧
     (inEmergency a = true ∨ bargeAdmitted (x.banks.get (bankOf a)).own (posOf g) e.ctxWorld true = true) ∧
     PortsFree (s.elapse dt) (basinOf g) ∧
     (∀ r ∈ rivals, r.bank ≠ bankOf a) ∧
     (∀ w, x.mem.mark w = none)) := by
  refine
    ⟨⟨(liveB fun b => { b with psw := 0x32, ordinary := { b.ordinary with lnk := 5 }, octl := { b.octl with fps := 0xE0080, fpu := 0xE0080, vbase := 9 }, intc := vput b.intc 20 { en := true, pri := 3, world := true, pend := true }, vctl := { b.vctl with vbase := 3, fps := 0xE00A0 } }).modBasin 0 fun x => { x with banks := x.banks.map fun k => { k with own := 0 } },
      24, 0, 20, ?_, ?_, ?_, ?_, ?_, ?_, ?_, ?_, ?_, ?_⟩,
     ⟨liveF 0 fun b => { b with frameRun := some { addr := 0xE0020, made := 0, next := 1 }, entry := some { handler := true, frame := (List.range 24).map fun i => BitVec.ofNat 36 (i + 7), ctxWorld := true, ctxSup := true, oldFp := 0xE0080, cause := 0x55, faddr := 0, pc := 9, double := false } },
      12, 0, [], { addr := 0xE0020, made := 0, next := 1 },
      { handler := true, frame := (List.range 24).map fun i => BitVec.ofNat 36 (i + 7), ctxWorld := true, ctxSup := true, oldFp := 0xE0080, cause := 0x55, faddr := 0, pc := 9, double := false },
      ?_, ?_, ?_, ?_, ?_, ?_, ?_, ?_, ?_, ?_, ?_, ?_, ?_, ?_, ?_, (unmarked _ (by decide +kernel))⟩⟩ <;>
    first | decide +kernel | (unfold Available; decide +kernel) | (unfold AtBoundary; decide +kernel) | (unfold FrameAdmitted; decide +kernel) | (unfold MemoriesCanonical; decide +kernel) | (unfold PortsFree; decide +kernel)

set_option Elab.async false in
theorem witness_RequestsReachTheirBarge :
    (∃ (s : State) (g : BargeIx) (k : Fin 4),
     Available s ∧
     pswL (s.barges.get g).psw = true ∧
     (pswW (s.barges.get g).psw = true ∨ ((s.barges.get g).intc.get ⟨16 + k.val, by omega⟩).world = false)) ∧
    (∃ (s : State) (dt : Nat) (g : BargeIx) (k : Fin 4),
     Available s ∧
     (s.crp.bpwr.get (basinOf g)).cur.toNat ≤ 1 ∧
     bit s.crp.bhold g.val = false ∧
     (s.barges.get g).tcmpArmed.get k = true ∧
     reached (sampleTime g (s.elapse dt)).1 ((s.barges.get g).tcmp.get k) = true) ∧
    (∃ (s : State) (g : BargeIx),
     Available s ∧
     pswL (s.barges.get g).psw = true ∧
     pswW (s.barges.get g).psw = true) ∧
    (∃ (s : State) (g : BargeIx),
     Available s ∧
     pswL (s.barges.get g).psw = true) ∧
    (∃ (s : State),
     Available s) ∧
    (∃ (s : State) (g : BargeIx) (d : BitVec 32) (n : BitVec 8),
     Available s ∧
     bargeRuns s g = true ∧
     s.kp.toBarge.find? (fun m => m.1 == g) = some (g, .date d n)) ∧
    (∃ (s : State) (g : BargeIx) (d : BitVec 32) (n : BitVec 8),
     Available s ∧
     bargeRuns s g = true ∧
     s.kp.toBarge.find? (fun m => m.1 == g) = some (g, .retry d n)) ∧
    (∃ (s : State) (g : BargeIx),
     Available s ∧
     bargeRuns s g = true ∧
     s.kp.toBarge.find? (fun m => m.1 == g) = some (g, .notice)) := by
  refine
    ⟨⟨live, 5, 3, ?_, ?_, ?_⟩,
     ⟨liveB fun b => { b with tcmpArmed := vput b.tcmpArmed 1 true }, 12, 0, 1, ?_, ?_, ?_, ?_,
      (by unfold sampleTime; dsimp only; generalize Config.freeChoice _ = c; cases c <;> decide +kernel)⟩,
     ⟨live, 7, ?_, ?_, ?_⟩,
     ⟨live, 7, ?_, ?_⟩,
     ⟨live, ?_⟩,
     ⟨{ (liveB fun b => { b with sig := { b.sig with en := true, queue := [] } }) with kp := { live.kp with toBarge := [(1, .notice), (0, .date 9 4), (0, .notice)] } },
      0, 9, 4, ?_, ?_, ?_⟩,
     ⟨{ live with kp := { live.kp with toBarge := [(1, .notice), (0, .retry 9 4), (0, .notice)] } }, 0, 9, 4, ?_, ?_, ?_⟩,
     ⟨{ live with kp := { live.kp with toBarge := [(1, .notice), (0, .notice)] } }, 0, ?_, ?_, ?_⟩⟩ <;>
    first | decide +kernel | (unfold Available; decide +kernel)

set_option Elab.async false in
theorem witness_SettingsWaitForSync :
    (∃ (s : State) (g : BargeIx),
     Available s ∧
     pswL (s.barges.get g).psw = true) ∧
    (∃ (s : State) (dt : Nat) (n : BasinIx) (b : BankIx),
     let x := (s.basins.get n).banks.get b
     Available s ∧
     x.ho = none ∧
     x.hoWait = [] ∧
     (∀ w, x.hoTurn = some w → w.bclk ≠ bclkCount (s.elapse dt) n) ∧
     bankStores s n b = [] ∧
     (∀ r ∈ (s.basins.get n).tport, r.refuse = true ∨ reqTouches r b = false)) ∧
    (∃ (s : State),
     Available s) ∧
    (∃ (s : State) (g : BargeIx),
     let b := s.barges.get g
     Available s ∧
     bargeRuns s g = true ∧
     b.sync = true ∧
     b.rfeDue = none ∧
     iouWriting b = false) := by
  refine
    ⟨⟨live, 0, ?_, ?_⟩,
     ⟨live, 12, 3, 2, ?_, ?_, ?_, ?_, ?_, ?_⟩,
     ⟨live, ?_⟩,
     ⟨liveB fun b => { b with sync := true, psw := 0x13, syPend := [(.psw, 0x800000035), (.ctxid, 5), (.psw, 0x37)] }, 0, ?_,
      ?_, ?_, ?_, ?_⟩⟩ <;>
    first | decide +kernel | (unfold Available; decide +kernel)

set_option Elab.async false in
theorem witness_DebugHaltsStepsAndWrites :
    (∃ (s : State),
     Available s) ∧
    (∃ (s : State) (dt : Nat) (g : BargeIx) (c hit : BitVec 3),
     let b := s.barges.get g
     Available s ∧
     bargeRuns s g = true ∧
     b.dbg.haltReq = some (c, hit) ∧
     b.gate = none ∧
     b.sync = false ∧
     b.rfeDue = none ∧
     b.trapDue = none ∧
     b.frameRun = none ∧
     b.dbg.halted = false ∧
     (b.rpt = none ∨ b.done = []) ∧
     ownHandover s g = false ∧
     heldHard (s.elapse dt) g = false ∧
     b.flights = [] ∧
     b.second = none) ∧
    (∃ (s : State) (g : BargeIx),
     Available s ∧
     debugAllowed s = true ∧
     (s.barges.get g).dbg.halted = true ∧
     (s.barges.get g).dbg.atResume = []) ∧
    (∃ (s : State) (dt : Nat) (g : BargeIx),
     let b := s.barges.get g
     Available s ∧
     debugAllowed s = true ∧
     bargeRuns s g = true ∧
     b.dbg.halted = true ∧
     b.dbg.atResume = [] ∧
     b.dbg.haltReq = none ∧
     b.rpt = none ∧
     b.wait = none ∧
     b.gate = none ∧
     b.sync = false ∧
     b.rfeDue = none ∧
     b.trapDue = none ∧
     b.hoFault = none ∧
     b.frameRun = none ∧
     b.second = none ∧
     b.issueFrom ≤ bclkCount (s.elapse dt) (basinOf g) ∧
     ownHandover s g = false ∧
     b.flights = [] ∧
     NoInterrupts s g ∧
     0 < b.irun) ∧
    (∃ (s : State) (g : BargeIx),
     let b := s.barges.get g
     Available s ∧
     debugAllowed s = true ∧
     bargeRuns s g = true ∧
     b.dbg.halted = true ∧
     b.dbg.atResume = [] ∧
     b.second = none ∧
     b.flights = [] ∧
     NoInterrupts s g ∧
     b.irun = 0) ∧
    (∃ (s : State) (g : BargeIx),
     Available s ∧
     debugAllowed s = true ∧
     (s.barges.get g).dbg.halted = true) ∧
    (∃ (s : State) (g : BargeIx) (k : Fin 64),
     let b := s.barges.get g
     Available s ∧
     debugAllowed s = true ∧
     b.dbg.halted = true ∧
     bitsN b.dbg.regsel 0 7 = k.val) ∧
    (∃ (s : State) (g : BargeIx),
     let b := s.barges.get g
     Available s ∧
     debugAllowed s = true ∧
     b.dbg.halted = true) ∧
    (∃ (s : State) (g : BargeIx),
     Available s ∧
     ((s.barges.get g).dbg.halted = false ∨ debugAllowed s = false)) := by
  refine
    ⟨⟨live, ?_⟩,
     ⟨liveB fun b => { b with dbg := { b.dbg with haltReq := some (2, 5) } }, 12, 0, 2, 5, ?_, ?_, ?_, ?_, ?_, ?_, ?_, ?_,
      ?_, ?_, ?_, ?_, ?_, ?_⟩,
     ⟨liveB fun b => { b with dbg := { b.dbg with halted := true } }, 0, ?_, ?_, ?_, ?_⟩,
     ⟨liveB fun b => { b with dbg := { b.dbg with halted := true }, irun := 2 }, 12, 0, ?_, ?_, ?_, ?_, ?_, ?_, ?_, ?_, ?_,
      ?_, ?_, ?_, ?_, ?_, ?_, ?_, ?_, ?_, ?_, ?_⟩,
     ⟨liveB fun b => { b with dbg := { b.dbg with halted := true } }, 0, ?_, ?_, ?_, ?_, ?_, ?_, ?_, ?_, ?_⟩,
     ⟨liveB fun b => { b with dbg := { b.dbg with halted := true } }, 0, ?_, ?_, ?_⟩,
     ⟨liveB fun b => { b with dbg := { b.dbg with halted := true, regsel := 0x83 } }, 0, 3, ?_, ?_, ?_, ?_⟩,
     ⟨liveB fun b => { b with dbg := { b.dbg with halted := true, regsel := 0x83 } }, 0, ?_, ?_, ?_⟩,
     ⟨live, 0, ?_, ?_⟩⟩ <;>
    first | decide +kernel | (unfold Available; decide +kernel) | (unfold NoInterrupts; decide +kernel)

set_option Elab.async false in
theorem witness_FaultsTrapsAndReturns :
    (∃ (s : State) (dt : Nat) (g : BargeIx) (c : BitVec 8) (f : Word) (h : HeldLine),
     let b := s.barges.get g
     let i := lineInsn h.data (bitsN b.pc 0 2)
     Available s ∧
     FaultsAtOnce s g ∧
     FrameAdmitted s g ∧
     (plan g (s.elapse dt) = .fault c f ∨
      (b.mustRead = false ∧ b.heldLine (fld b.pc 2 12) = some h ∧ f = b.pc.setWidth 36 ∧
        ((h.bad = true ∧ c = 0x09) ∨ (h.bad = false ∧ decodeFault i (pswW b.psw) (pswL b.psw) = some c))))) ∧
    (∃ (s : State) (g : BargeIx) (c : BitVec 8) (f : Flight),
     let b := s.barges.get g
     Available s ∧
     AtBoundary s g ∧
     b.flights = [f] ∧
     f.due ≤ b.count ∧
     f.fault = some c ∧
     b.syPend = [] ∧
     b.entry = none ∧
     iouWriting b = false ∧
     FrameAdmitted s g) ∧
    (∃ (s : State) (g : BargeIx) (i : Insn) (v : Word),
     let b := s.barges.get g
     Available s ∧
     NextInsn s g i ∧
     NoInterrupts s g ∧
     Triggers s g i .bru 4 v ∧
     iouWriting b = false ∧
     FrameAdmitted s g) ∧
    (∃ (s : State) (dt : Nat) (g : BargeIx) (c : BitVec 8) (f : Word),
     let b := s.barges.get g
     let w := pswW b.psw
     let fp := b.fp w (pswL b.psw)
     let inRange : Prop := 0xE0060 ≤ fp.toNat ∧ fp.toNat ≤ 0xFFC00
     let own (a : Nat) : Bool := bargeAdmitted ((s.basins.get (basinOf g)).banks.get (bankOf a)).own (posOf g) w true
     Available s ∧
     FaultsAtOnce s g ∧
     plan g (s.elapse dt) = .fault c f ∧
     ¬ (inRange ∧ own (fp.toNat - 96) = true ∧ own (fp.toNat - 1) = true)) ∧
    (∃ (s : State) (dt : Nat) (g : BargeIx) (i : Insn) (v : Word),
     Available s ∧
     NextInsn s g i ∧
     NoInterrupts s g ∧
     Triggers s g i .bru 7 v ∧
     (s.barges.get g).iou = none ∧
     rfeFault (s.elapse dt) g v = none) ∧
    (∃ (s : State) (dt : Nat) (g : BargeIx) (rivals : List Rival) (r : RfeRun),
     let b := s.barges.get g
     let x := s.basins.get (basinOf g)
     let clk := bclkCount (s.elapse dt) (basinOf g)
     let base := rfeFrame b g r.t
     let k := r.words.length / 8
     let words := r.words ++ (frameRow base k).map x.mem.word
     let w (j : Nat) : Word := words.getD j 0
     let z := bit r.t 1
     let l := bit r.t 0
     Available s ∧
     bargeRuns s g = true ∧
     b.dbg.stepping = false ∧
     b.frameRun = none ∧
     b.second = none ∧
     b.rfeDue = some r ∧
     r.synced = true ∧
     r.next ≤ clk ∧
     (r.words.length = 0 ∨ r.words.length = 8 ∨ r.words.length = 16) ∧
     base % 32 = 0 ∧
     base + 96 ≤ 0x100000 ∧
     inHandover x (bankOf (base + 32 * k)) = false ∧
     (bit r.t 2 = true ∨ bargeAdmitted (x.banks.get (bankOf (base + 32 * k))).own (posOf g) z true = true) ∧
     PortsFree (s.elapse dt) (basinOf g) ∧
     (∀ q ∈ rivals, q.bank ≠ bankOf (base + 32 * k)) ∧
     (∀ n, x.mem.mark n = none) ∧
     (k = 2 → pswW (w 1) = z ∧ pswL (w 1) = l ∧ ¬ (pswT (w 1) = true ∧ pswV (w 1) = true))) := by
  refine
    ⟨⟨liveF 0x8 fun b => { b with psw := 0x13 }, 12, 0, 1, 0, (lineOf (0x8)), ?_, ?_, ?_,
      (Or.inl (faultOk_spec (by decide +kernel)))⟩,
     ⟨liveF 0 fun b => { b with count := 1, irun := 0, flights := [{ port := .alu0, due := 1, value := none, fault := some 0x0D, faddr := 5 }] },
      0, 0x0D, { port := .alu0, due := 1, value := none, fault := some 0x0D, faddr := 5 }, ?_, ?_, ?_, ?_, ?_, ?_, ?_, ?_, ?_⟩,
     ⟨liveM (slotBits 0 0 1 0x144) [] fun b => { b with psw := 0x13, vital := { b.vital with w := vput b.vital.w 1 0 }, ordinary := { b.ordinary with w := vput b.ordinary.w 1 0 } },
      0, (slotBits 0 0 1 0x144), 0, ?_, ?_, ?_, ?_, ?_, ?_⟩,
     ⟨liveF (slotBits 0 0 1 0x100) fun b => { b with psw := 0x13, u := { b.u with lsua := 0x200000 }, vctl := { b.vctl with fps := 0xE005F, fpu := 0xE0060, vbase := 3 } },
      12, 0, 4, 0x200000, ?_, ?_, (faultOk_spec (by decide +kernel)), ?_⟩,
     ⟨liveM (slotBits 0 0 1 0x147) [(0xE0080, 4, 0x12345678A), (0xE0084, 4, 0x13), (0xE0088, 4, 0x123), (0xE008C, 4, 7),
        (0xE00D8, 4,
        0)] fun b => { b with psw := 0x13, vital := { b.vital with w := vput b.vital.w 1 3 }, ordinary := { b.ordinary with w := vput b.ordinary.w 1 3 } },
      12, 0, (slotBits 0 0 1 0x147), 3, ?_, ?_, ?_, ?_, ?_, ?_⟩,
     ⟨liveM 0 [(0xE0080, 4, 0x12345678A), (0xE0084, 4, 0x13), (0xE0088, 4, 0x123), (0xE008C, 4, 7), (0xE00D8, 4,
        0)] fun b => { b with psw := 0x13, rfeDue := some { t := 3, pc := 4, since := 0, synced := true, words := [], next := 0 }, count := 5 },
      12, 0, [], { t := 3, pc := 4, since := 0, synced := true, words := [], next := 0 }, ?_, ?_, ?_, ?_, ?_, ?_, ?_, ?_, ?_,
      ?_, ?_, ?_, ?_, ?_, ?_, (unmarked _ (by decide +kernel)), ?_⟩⟩ <;>
    first | decide +kernel | (unfold Available; decide +kernel) | (unfold AtBoundary; decide +kernel) | (unfold FrameAdmitted; decide +kernel) | (unfold NoInterrupts; decide +kernel) | (unfold PortsFree; decide +kernel) | exact nextOk_spec (by decide +kernel) | exact trigOk_spec (by decide +kernel) | (unfold FaultsAtOnce AtBoundary NoInterrupts; decide +kernel)

set_option Elab.async false in
theorem witness_TriggersStartTheirOperations :
    (∃ (s : State) (g : BargeIx) (i : Insn) (v : Word),
     let b := s.barges.get g
     Available s ∧
     NextInsn s g i ∧
     NoInterrupts s g ∧
     pswT b.psw = false ∧
     ∃ op,
     Triggers s g i .alu0 op v) ∧
    (∃ (s : State) (g : BargeIx) (i : Insn) (v : Word),
     let b := s.barges.get g
     Available s ∧
     NextInsn s g i ∧
     NoInterrupts s g ∧
     pswT b.psw = false ∧
     ∃ op,
     Triggers s g i .alu1 op v) ∧
    (∃ (s : State) (g : BargeIx) (i : Insn) (v : Word),
     let b := s.barges.get g
     Available s ∧
     NextInsn s g i ∧
     NoInterrupts s g ∧
     pswT b.psw = false ∧
     ∃ op,
     Triggers s g i .mul op v) ∧
    (∃ (s : State) (dt : Nat) (g : BargeIx) (i : Insn) (v : Word),
     let b := s.barges.get g
     let clk := bclkCount (s.elapse dt) (basinOf g)
     Available s ∧
     NextInsn s g i ∧
     NoInterrupts s g ∧
     pswT b.psw = false ∧
     ∃ op,
     Triggers s g i .vmul op v ∧
     b.vmulReady ≤ clk) ∧
    (∃ (s : State) (g : BargeIx) (i : Insn) (v : Word),
     let b := s.barges.get g
     Available s ∧
     NextInsn s g i ∧
     NoInterrupts s g ∧
     pswT b.psw = false ∧
     ∃ op,
     Triggers s g i .vchk op v) ∧
    (∃ (s : State) (g : BargeIx) (i : Insn) (v : Word),
     let b := s.barges.get g
     Available s ∧
     NextInsn s g i ∧
     NoInterrupts s g ∧
     pswT b.psw = false ∧
     Triggers s g i .cnt 0 v) ∧
    (∃ (s : State) (g : BargeIx) (i : Insn) (v : Word),
     let b := s.barges.get g
     Available s ∧
     NextInsn s g i ∧
     NoInterrupts s g ∧
     pswT b.psw = false ∧
     Triggers s g i .cnt 1 v) ∧
    (∃ (s : State) (g : BargeIx) (i : Insn) (v : Word),
     let b := s.barges.get g
     Available s ∧
     NextInsn s g i ∧
     NoInterrupts s g ∧
     pswT b.psw = false ∧
     Triggers s g i .cnt 2 v) ∧
    (∃ (s : State) (g : BargeIx) (i : Insn) (v : Word),
     let b := s.barges.get g
     Available s ∧
     NextInsn s g i ∧
     NoInterrupts s g ∧
     pswT b.psw = false ∧
     Triggers s g i .cnt 3 v) ∧
    (∃ (s : State) (g : BargeIx) (i : Insn) (v : Word),
     let b := s.barges.get g
     Available s ∧
     NextInsn s g i ∧
     NoInterrupts s g ∧
     pswT b.psw = false ∧
     Triggers s g i .cnt 4 v) ∧
    (∃ (s : State) (g : BargeIx) (i : Insn) (v : Word),
     let b := s.barges.get g
     Available s ∧
     NextInsn s g i ∧
     NoInterrupts s g ∧
     pswT b.psw = false ∧
     Triggers s g i .bru 0 v) ∧
    (∃ (s : State) (g : BargeIx) (i : Insn) (v : Word),
     let b := s.barges.get g
     Available s ∧
     NextInsn s g i ∧
     NoInterrupts s g ∧
     pswT b.psw = false ∧
     Triggers s g i .bru 1 v) ∧
    (∃ (s : State) (g : BargeIx) (i : Insn) (v : Word),
     let b := s.barges.get g
     let w := pswW b.psw
     Available s ∧
     NextInsn s g i ∧
     NoInterrupts s g ∧
     pswT b.psw = false ∧
     Triggers s g i .bru 2 v ∧
     (w = false ∨ bit v 35 = false)) ∧
    (∃ (s : State) (g : BargeIx) (i : Insn) (v : Word),
     let b := s.barges.get g
     let w := pswW b.psw
     Available s ∧
     NextInsn s g i ∧
     NoInterrupts s g ∧
     pswT b.psw = false ∧
     Triggers s g i .bru 2 v ∧
     w = true ∧
     bit v 35 = true ∧
     drained b = true) ∧
    (∃ (s : State) (g : BargeIx) (i : Insn) (v : Word),
     let b := s.barges.get g
     Available s ∧
     NextInsn s g i ∧
     NoInterrupts s g ∧
     pswT b.psw = false ∧
     Triggers s g i .bru 3 v ∧
     drained b = true) ∧
    (∃ (s : State) (g : BargeIx) (i : Insn) (v : Word),
     let b := s.barges.get g
     Available s ∧
     NextInsn s g i ∧
     NoInterrupts s g ∧
     pswT b.psw = false ∧
     Triggers s g i .bru 5 v) ∧
    (∃ (s : State) (g : BargeIx) (i : Insn) (v : Word),
     let b := s.barges.get g
     Available s ∧
     NextInsn s g i ∧
     NoInterrupts s g ∧
     pswT b.psw = false ∧
     Triggers s g i .bru 6 v) ∧
    (∃ (s : State) (g : BargeIx) (i : Insn) (v : Word),
     let b := s.barges.get g
     let u := b.u
     let w := pswW b.psw
     Available s ∧
     NextInsn s g i ∧
     NoInterrupts s g ∧
     pswT b.psw = false ∧
     ∃ op,
     Triggers s g i .rpt op v ∧
     (op ≤ 1 → w = true → pswV b.psw = true → u.rc ≠ 0 → b.sig.isOpen = true ∧ b.sig.n.toNat + u.rc.toNat ≤ 65535)) := by
  refine
    ⟨⟨liveM (slotBits 0 0 1 0x81) [] fun b => { b with psw := 0x13, vital := { b.vital with w := vput b.vital.w 1 1 }, ordinary := { b.ordinary with w := vput b.ordinary.w 1 1 }, u := { b.u with alu0o := 0x7FFFFFFFF } },
      0, (slotBits 0 0 1 0x81), 1, ?_, ?_, ?_, ?_, 1, ?_⟩,
     ⟨liveM (slotBits 0 0 1 0xA1) [] fun b => { b with psw := 0x13, vital := { b.vital with w := vput b.vital.w 1 1 }, ordinary := { b.ordinary with w := vput b.ordinary.w 1 1 }, u := { b.u with alu1o := 0x7FFFFFFFF } },
      0, (slotBits 0 0 1 0xA1), 1, ?_, ?_, ?_, ?_, 1, ?_⟩,
     ⟨liveM (slotBits 0 0 1 0xC0) [] fun b => { b with psw := 0x1B, vital := { b.vital with w := vput b.vital.w 1 0x7FFFFFFFF }, ordinary := { b.ordinary with w := vput b.ordinary.w 1 0x7FFFFFFFF }, u := { b.u with mulo := 0x7FFFFFFFF } },
      0, (slotBits 0 0 1 0xC0), 0x7FFFFFFFF, ?_, ?_, ?_, ?_, 0, ?_⟩,
     ⟨liveM (slotBits 0 0 1 0x160) [] fun b => { b with psw := 0x13, vital := { b.vital with w := vput b.vital.w 1 (encodeCoded 7 30) }, ordinary := { b.ordinary with w := vput b.ordinary.w 1 (encodeCoded 7 30) }, u := { b.u with vmulo := (encodeCoded (-5) 12), vmuls := 0xC, vmulk := 3 } },
      12, 0, (slotBits 0 0 1 0x160), (encodeCoded 7 30), ?_, ?_, ?_, ?_, 0, ?_, ?_⟩,
     ⟨liveM (slotBits 0 0 1 0x168) [] fun b => { b with psw := 0x13, vital := { b.vital with w := vput b.vital.w 1 (encodeCoded 7 12) }, ordinary := { b.ordinary with w := vput b.ordinary.w 1 (encodeCoded 7 12) }, u := { b.u with vchko := (encodeCoded 9 12), vchkh := (encodeCoded 100 12), vchks := 0xC } },
      0, (slotBits 0 0 1 0x168), (encodeCoded 7 12), ?_, ?_, ?_, ?_, 0, ?_⟩,
     ⟨liveM (slotBits 0 0 1 0x158) [] fun b => { b with psw := 0x13, vital := { b.vital with w := vput b.vital.w 1 0 }, ordinary := { b.ordinary with w := vput b.ordinary.w 1 0 } },
      0, (slotBits 0 0 1 0x158), 0, ?_, ?_, ?_, ?_, ?_⟩,
     ⟨liveM (slotBits 0 0 1 0x159) [] fun b => { b with psw := 0x13, vital := { b.vital with w := vput b.vital.w 1 0 }, ordinary := { b.ordinary with w := vput b.ordinary.w 1 0 }, u := { b.u with cntLatch := 0x1234567 } },
      0, (slotBits 0 0 1 0x159), 0, ?_, ?_, ?_, ?_, ?_⟩,
     ⟨liveM (slotBits 0 0 1 0x15A) [] fun b => { b with psw := 0x13, vital := { b.vital with w := vput b.vital.w 1 0 }, ordinary := { b.ordinary with w := vput b.ordinary.w 1 0 }, stalled := 7, wrongPath := 9, count := 12, bclkBase := 1 },
      0, (slotBits 0 0 1 0x15A), 0, ?_, ?_, ?_, ?_, ?_⟩,
     ⟨liveM (slotBits 0 0 1 0x15B) [] fun b => { b with psw := 0x13, vital := { b.vital with w := vput b.vital.w 1 0 }, ordinary := { b.ordinary with w := vput b.ordinary.w 1 0 } },
      0, (slotBits 0 0 1 0x15B), 0, ?_, ?_, ?_, ?_, ?_⟩,
     ⟨liveM (slotBits 0 0 1 0x15C) [] fun b => { b with psw := 0x13, vital := { b.vital with w := vput b.vital.w 1 0 }, ordinary := { b.ordinary with w := vput b.ordinary.w 1 0 } },
      0, (slotBits 0 0 1 0x15C), 0, ?_, ?_, ?_, ?_, ?_⟩,
     ⟨liveM (slotBits 0 0 1 0x140) [] fun b => { b with psw := 0x13, vital := { b.vital with w := vput b.vital.w 1 7 }, ordinary := { b.ordinary with w := vput b.ordinary.w 1 7 } },
      0, (slotBits 0 0 1 0x140), 7, ?_, ?_, ?_, ?_, ?_⟩,
     ⟨liveM (slotBits 0 0 1 0x141) [] fun b => { b with psw := 0x13, vital := { b.vital with w := vput b.vital.w 1 7 }, ordinary := { b.ordinary with w := vput b.ordinary.w 1 7 } },
      0, (slotBits 0 0 1 0x141), 7, ?_, ?_, ?_, ?_, ?_⟩,
     ⟨liveM (slotBits 0 0 1 0x142) [] fun b => { b with psw := 0x13, vital := { b.vital with w := vput b.vital.w 1 7 }, ordinary := { b.ordinary with w := vput b.ordinary.w 1 7 } },
      0, (slotBits 0 0 1 0x142), 7, ?_, ?_, ?_, ?_, ?_, ?_⟩,
     ⟨liveM (slotBits 0 0 1 0x142) [] fun b => { b with psw := 0x13, vital := { b.vital with w := vput b.vital.w 1 0x800000009 }, ordinary := { b.ordinary with w := vput b.ordinary.w 1 0x800000009 } },
      0, (slotBits 0 0 1 0x142), 0x800000009, ?_, ?_, ?_, ?_, ?_, ?_, ?_, ?_⟩,
     ⟨liveM (slotBits 0 0 1 0x143) [] fun b => { b with psw := 0x13, vital := { b.vital with w := vput b.vital.w 1 1 }, ordinary := { b.ordinary with w := vput b.ordinary.w 1 1 } },
      0, (slotBits 0 0 1 0x143), 1, ?_, ?_, ?_, ?_, ?_, ?_⟩,
     ⟨liveM (slotBits 0 0 1 0x145) [] fun b => { b with psw := 0x13, vital := { b.vital with w := vput b.vital.w 1 1 }, ordinary := { b.ordinary with w := vput b.ordinary.w 1 1 } },
      0, (slotBits 0 0 1 0x145), 1, ?_, ?_, ?_, ?_, ?_⟩,
     ⟨liveM (slotBits 0 0 1 0x146) [] fun b => { b with psw := 0x13, vital := { b.vital with w := vput b.vital.w 1 1 }, ordinary := { b.ordinary with w := vput b.ordinary.w 1 1 }, lineBuf := [lineOf (slotBits 0 0 1 0x146), { line := 3, data := 0, bad := false }] },
      0, (slotBits 0 0 1 0x146), 1, ?_, ?_, ?_, ?_, ?_⟩,
     ⟨liveM (slotBits 0 0 1 0x138) [] fun b => { b with psw := 0x13, vital := { b.vital with w := vput b.vital.w 1 1 }, ordinary := { b.ordinary with w := vput b.ordinary.w 1 1 }, u := { b.u with rc := 0, rs := 0x1000, rd := 0x12000, rmode := 2 } },
      0, (slotBits 0 0 1 0x138), 1, ?_, ?_, ?_, ?_, 0, ?_, ?_⟩⟩ <;>
    first | decide +kernel | (unfold Available; decide +kernel) | (unfold NoInterrupts; decide +kernel) | exact nextOk_spec (by decide +kernel) | exact trigOk_spec (by decide +kernel)

set_option Elab.async false in
theorem witness_MemoryTriggersStartTheirOperations :
    (∃ (s : State) (g : BargeIx) (i : Insn) (v : Word),
     let b := s.barges.get g
     let x := s.basins.get (basinOf g)
     let u := b.u
     let w := pswW b.psw
     let sup := pswL b.psw
     let vital := w && pswV b.psw
     let room : Prop := b.sig.isOpen = true ∧ b.sig.n.toNat + 1 ≤ 65535
     Available s ∧
     NextInsn s g i ∧
     NoInterrupts s g ∧
     pswT b.psw = false ∧
     ∃ (op : Nat) (a : Int),
     Triggers s g i .lsu op v ∧
     lsuAddress false u op v = some a ∧
     let n := lsuSize op
     let parts := partsOf a n
     accessFault x (posOf g) w sup parts = none ∧
     (∀ p ∈ parts, inHandover x (bankOf p.addr.toNat) = false) ∧
     lsuStore op = true ∧
     b.stores.length + parts.length ≤ 4 ∧
     (vital = true → room)) ∧
    (∃ (s : State) (dt : Nat) (g : BargeIx) (rivals : List Rival) (i : Insn) (v : Word),
     let b := s.barges.get g
     let x := s.basins.get (basinOf g)
     let u := b.u
     let w := pswW b.psw
     let sup := pswL b.psw
     let free (k : BankIx) : Prop := inHandover x k = false ∧ ∀ r ∈ rivals, r.bank ≠ k
     Available s ∧
     NextInsn s g i ∧
     NoInterrupts s g ∧
     pswT b.psw = false ∧
     ∃ (op : Nat) (a : Int),
     Triggers s g i .lsu op v ∧
     lsuAddress false u op v = some a ∧
     let n := lsuSize op
     let parts := partsOf a n
     accessFault x (posOf g) w sup parts = none ∧
     (∀ p ∈ parts, inHandover x (bankOf p.addr.toNat) = false) ∧
     lsuStore op = false ∧
     (∀ e ∈ b.stores, e.meets a.toNat n = false) ∧
     storeFirst b (firstBank a n) = false ∧
     PortsFree (s.elapse dt) (basinOf g) ∧
     free (bankOf a.toNat) ∧
     (∀ k, x.mem.mark k = none)) ∧
    (∃ (s : State) (g : BargeIx) (i : Insn) (v : Word),
     let b := s.barges.get g
     let x := s.basins.get (basinOf g)
     let u := b.u
     let w := pswW b.psw
     let sup := pswL b.psw
     Available s ∧
     NextInsn s g i ∧
     NoInterrupts s g ∧
     pswT b.psw = false ∧
     ∃ (op : Nat) (a : Int),
     Triggers s g i .lsu op v ∧
     lsuAddress false u op v = some a ∧
     let n := lsuSize op
     let parts := partsOf a n
     accessFault x (posOf g) w sup parts = none ∧
     (∀ p ∈ parts, inHandover x (bankOf p.addr.toNat) = false) ∧
     lsuStore op = false ∧
     ∃ e,
     youngest b a.toNat n = some e ∧
     e.addr = a.toNat ∧
     e.size = n) ∧
    (∃ (s : State) (dt : Nat) (g : BargeIx) (rivals : List Rival) (i : Insn) (v : Word),
     let b := s.barges.get g
     let x := s.basins.get (basinOf g)
     let u := b.u
     let w := pswW b.psw
     let sup := pswL b.psw
     let free (k : BankIx) : Prop := inHandover x k = false ∧ ∀ r ∈ rivals, r.bank ≠ k
     Available s ∧
     NextInsn s g i ∧
     NoInterrupts s g ∧
     pswT b.psw = false ∧
     ∃ op,
     Triggers s g i .mac op v ∧
     bitsN v 0 2 ≠ 3 ∧
     let p := macAddrs u
     let k := bitsN v 0 2
     (op ≤ 1 → accessFault x (posOf g) w sup [{ addr := p.1, len := 4 }, { addr := p.2, len := 4 }] = none ∧
      (∀ e ∈ b.stores, e.meets p.1 4 = false ∧ e.meets p.2 4 = false) ∧ bankOf p.1 ≠ bankOf p.2 ∧ free (bankOf p.1) ∧
      free (bankOf p.2) ∧ PortsFree (s.elapse dt) (basinOf g) ∧ ∀ k, x.mem.mark k = none)) ∧
    (∃ (s : State) (g : BargeIx) (i : Insn) (v : Word),
     let b := s.barges.get g
     let u := b.u
     let w := pswW b.psw
     let vital := w && pswV b.psw
     let room : Prop := b.sig.isOpen = true ∧ b.sig.n.toNat + 1 ≤ 65535
     Available s ∧
     NextInsn s g i ∧
     NoInterrupts s g ∧
     pswT b.psw = false ∧
     ∃ op,
     Triggers s g i .xlu op v ∧
     let a : BitVec 32 := (u.xlua + v).setWidth 32
     let write := op % 2 == 1
     a.toNat % sizeNonets (xluSize op) = 0 ∧
     b.xluCredits < 8 ∧
     ((List.finRange 4).map fun p => (s.barges.get (bargeOf (basinOf g) p)).xluCredits).sum < 32 ∧
     (write = true → vital = true → room)) ∧
    (∃ (s : State) (dt : Nat) (g : BargeIx) (i : Insn) (v : Word),
     let b := s.barges.get g
     let u := b.u
     let w := pswW b.psw
     let sup := pswL b.psw
     let room : Prop := b.sig.isOpen = true ∧ b.sig.n.toNat + 1 ≤ 65535
     Available s ∧
     NextInsn s g i ∧
     NoInterrupts s g ∧
     pswT b.psw = false ∧
     ∃ op,
     Triggers s g i .iou op v ∧
     b.iou = none ∧
     let a := u.ioua + v
     let stages := op = 1 ∧ w = true ∧ vitalStaging (s.elapse dt) w a.toNat = true
     a.toNat < 0x10000 ∧
     (op = 0 → winRead (s.elapse dt) g w a.toNat ≠ none) ∧
     (op = 1 → winWriteFaults (s.elapse dt) g w sup a.toNat u.ioud = false) ∧
     (stages → pswV b.psw = true ∧ room)) ∧
    (∃ (s : State) (g : BargeIx) (i : Insn) (v : Word),
     let b := s.barges.get g
     let w := pswW b.psw
     let vital := w && pswV b.psw
     let room : Prop := b.sig.isOpen = true ∧ b.sig.n.toNat + 1 ≤ 65535
     Available s ∧
     NextInsn s g i ∧
     NoInterrupts s g ∧
     pswT b.psw = false ∧
     b.sig.en = true ∧
     Triggers s g i .sig 0 v ∧
     (vital = true → room)) ∧
    (∃ (s : State) (g : BargeIx) (i : Insn) (v : Word),
     let b := s.barges.get g
     let w := pswW b.psw
     let vital := w && pswV b.psw
     Available s ∧
     NextInsn s g i ∧
     NoInterrupts s g ∧
     pswT b.psw = false ∧
     b.sig.en = true ∧
     Triggers s g i .sig 1 v ∧
     bitsN v 0 12 ≤ 4092 ∧
     bitsN v 12 8 ≠ 0 ∧
     (vital = true → b.sig.isOpen = true ∧ b.sig.n.toNat + bitsN v 12 8 ≤ 65535)) ∧
    (∃ (s : State) (g : BargeIx) (i : Insn) (v : Word),
     let b := s.barges.get g
     Available s ∧
     NextInsn s g i ∧
     NoInterrupts s g ∧
     pswT b.psw = false ∧
     b.sig.en = true ∧
     Triggers s g i .sig 2 v ∧
     b.sig.isOpen = true ∧
     (b.sig.tchk = true → v.setWidth 8 = b.sig.task)) := by
  refine
    ⟨⟨liveM (slotBits 0 0 1 0x100) [(0x1000, 4, 0x123456789), (0x1004, 4, 0xABCDEF012), (0x1FFFC, 4, 0x1FF0F00A5), (0x20000,
        4, 0xFEDCBA987), (0x12000, 4,
        0x800000005)] fun b => { b with psw := 0x13, vital := { b.vital with w := vput b.vital.w 1 8 }, ordinary := { b.ordinary with w := vput b.ordinary.w 1 8 }, u := { b.u with lsua := 0x1000, lsux := 2, rs := 0x1004, rd := 0x1100, lsud := 0xF87654321 } },
      0, (slotBits 0 0 1 0x100), 8, ?_, ?_, ?_, ?_, 32, (0x1008), ?_, ?_, ?_, ?_, ?_, ?_, ?_⟩,
     ⟨liveM (slotBits 0 0 1 0xE0) [(0x1000, 4, 0x123456789), (0x1004, 4, 0xABCDEF012), (0x1FFFC, 4, 0x1FF0F00A5), (0x20000, 4,
        0xFEDCBA987), (0x12000, 4,
        0x800000005)] fun b => { b with psw := 0x13, vital := { b.vital with w := vput b.vital.w 1 4 }, ordinary := { b.ordinary with w := vput b.ordinary.w 1 4 }, u := { b.u with lsua := 0x1000, lsux := 2, rs := 0x1004, rd := 0x1100, lsud := 0xF87654321 } },
      12, 0, [], (slotBits 0 0 1 0xE0), 4, ?_, ?_, ?_, ?_, 0, (0x1004), ?_, ?_, ?_, ?_, ?_, ?_, ?_, ?_, ?_,
      (unmarked _ (by decide +kernel))⟩,
     ⟨liveM (slotBits 0 0 1 0xF0) [(0x1000, 4, 0x123456789), (0x1004, 4, 0xABCDEF012), (0x1FFFC, 4, 0x1FF0F00A5), (0x20000, 4,
        0xFEDCBA987), (0x12000, 4,
        0x800000005)] fun b => { b with psw := 0x13, vital := { b.vital with w := vput b.vital.w 1 0x100 }, ordinary := { b.ordinary with w := vput b.ordinary.w 1 0x100 }, u := { b.u with lsua := 0x1000, lsux := 2, rs := 0x1004, rd := 0x1100, lsud := 0xF87654321 }, stores := [{ addr := 0x1100, size := 4, data := 0x111, world := true, seq := 0, since := 0 }] },
      0, (slotBits 0 0 1 0xF0), 0x100, ?_, ?_, ?_, ?_, 16, (0x1100), ?_, ?_, ?_, ?_, ?_,
      { addr := 0x1100, size := 4, data := 0x111, world := true, seq := 0, since := 0 }, ?_, ?_, ?_⟩,
     ⟨liveM (slotBits 0 0 1 0x130) [(0x1000, 4, 0x123456789), (0x1004, 4, 0xABCDEF012), (0x1FFFC, 4, 0x1FF0F00A5), (0x20000,
        4, 0xFEDCBA987), (0x12000, 4,
        0x800000005)] fun b => { b with psw := 0x13, vital := { b.vital with w := vput b.vital.w 1 0 }, ordinary := { b.ordinary with w := vput b.ordinary.w 1 0 }, u := { b.u with macxa := 0x1006, macya := 0x12001, macxs := 4, macys := 0xFFFFFFFFC, macxm := 0x10, macym := 0, acc := #v[5, 0xFFFFFFFFFFFFFFFFFFFFF, 0x7FFFFFFFFFFFFFFFFFFFF] } },
      12, 0, [], (slotBits 0 0 1 0x130), 0, ?_, ?_, ?_, ?_, 0, ?_, ?_,
      (fun _ => ⟨by decide +kernel, by decide +kernel, by decide +kernel, by decide +kernel, by decide +kernel,
        by unfold PortsFree; decide +kernel, unmarked _ (by decide +kernel)⟩)⟩,
     ⟨liveM (slotBits 0 0 1 0x120) [] fun b => { b with psw := 0x13, vital := { b.vital with w := vput b.vital.w 1 0 }, ordinary := { b.ordinary with w := vput b.ordinary.w 1 0 }, u := { b.u with xlua := 0x10000000, xlud := 0x987654321 } },
      0, (slotBits 0 0 1 0x120), 0, ?_, ?_, ?_, ?_, 0, ?_, ?_, ?_, ?_, ?_⟩,
     ⟨liveM (slotBits 0 0 1 0x150) [] fun b => { b with psw := 0x13, vital := { b.vital with w := vput b.vital.w 1 1 }, ordinary := { b.ordinary with w := vput b.ordinary.w 1 1 }, u := { b.u with ioua := 8, ioud := 5 } },
      12, 0, (slotBits 0 0 1 0x150), 1, ?_, ?_, ?_, ?_, 0, ?_, ?_, ?_, ?_, ?_, ?_⟩,
     ⟨liveM (slotBits 0 0 1 0x170) [] fun b => { b with psw := 0x13, vital := { b.vital with w := vput b.vital.w 1 0x123456789 }, ordinary := { b.ordinary with w := vput b.ordinary.w 1 0x123456789 }, sig := { b.sig with en := true, isOpen := true, s := 5, n := 7, task := 3 } },
      0, (slotBits 0 0 1 0x170), 0x123456789, ?_, ?_, ?_, ?_, ?_, ?_, ?_⟩,
     ⟨liveM (slotBits 0 0 1 0x171) [] fun b => { b with psw := 0x1B, vital := { b.vital with w := vput b.vital.w 1 12365 }, ordinary := { b.ordinary with w := vput b.ordinary.w 1 12365 }, sig := { b.sig with en := true, isOpen := true, s := 5, n := 7, task := 3 } },
      0, (slotBits 0 0 1 0x171), 12365, ?_, ?_, ?_, ?_, ?_, ?_, ?_, ?_, ?_⟩,
     ⟨liveM (slotBits 0 0 1 0x172) [] fun b => { b with psw := 0x13, vital := { b.vital with w := vput b.vital.w 1 3 }, ordinary := { b.ordinary with w := vput b.ordinary.w 1 3 }, sig := { b.sig with en := true, isOpen := true, s := 5, n := 7, task := 3, tchk := true, retry := true } },
      0, (slotBits 0 0 1 0x172), 3, ?_, ?_, ?_, ?_, ?_, ?_, ?_, ?_⟩⟩ <;>
    first | decide +kernel | (unfold Available; decide +kernel) | (unfold NoInterrupts; decide +kernel) | (unfold PortsFree; decide +kernel) | exact nextOk_spec (by decide +kernel) | exact trigOk_spec (by decide +kernel)

set_option Elab.async false in
theorem witness_TaggedModeChecksItsTags :
    (∃ (s : State) (g : BargeIx) (i : Insn) (v : Word),
     let b := s.barges.get g
     Available s ∧
     NextInsn s g i ∧
     NoInterrupts s g ∧
     pswT b.psw = true ∧
     pswV b.psw = false ∧
     ∃ m k,
     movesOf i = [m] ∧
     m.src = .imm k ∧
     ∃ unit op,
     Triggers s g i unit op v) ∧
    (∃ (s : State) (g : BargeIx) (i : Insn) (v : Word),
     let b := s.barges.get g
     let u := b.u
     let tag (a : Word) : Nat := bitsN a 32 4
     let val (a : Word) : BitVec 32 := a.setWidth 32
     let pairs (op : Nat) : List (Nat × Nat × Nat) :=
      if op ≤ 3 then [(0, 0, 0), (1, 1, 1), (3, 0, 3), (0, 3, 3), (5, 0, 5), (4, 0, 4)]
      else if op ≤ 7 ∨ op = 0x18 then [(0, 0, 0), (1, 1, 1), (3, 0, 3), (3, 3, 0), (5, 0, 5), (5, 5, 0), (4, 0, 4)]
      else if op ≤ 0x0F ∨ op = 0x19 then [(1, 1, 1), (2, 2, 2), (6, 1, 6), (7, 1, 7)]
      else if op ≤ 0x17 then [(0, 0, 0), (0, 1, 0), (1, 0, 1), (1, 1, 1), (6, 0, 6), (6, 1, 6), (7, 0, 7), (7, 1, 7)]
      else if op ≤ 0x1B then [(0, 0, 0), (3, 3, 3)]
      else if op ≤ 0x1D then [(1, 1, 1), (3, 3, 3), (4, 4, 4)]
      else [(0, 0, 0), (0, 1, 0)]
     let isBool (a : Word) : Prop := tag a = 2 → val a = 0 ∨ val a = 1
     Available s ∧
     NextInsn s g i ∧
     NoInterrupts s g ∧
     pswT b.psw = true ∧
     pswV b.psw = false ∧
     let unit : TrigUnit := .alu0
     let o : Word := u.alu0o
     ∃ op,
     Triggers s g i unit op v ∧
     ∃ k,
     op ≠ 0x1F ∧
     (tag o, tag v, k) ∈ pairs op ∧
     isBool o ∧
     isBool v) ∧
    (∃ (s : State) (g : BargeIx) (i : Insn) (v : Word),
     let b := s.barges.get g
     Available s ∧
     NextInsn s g i ∧
     NoInterrupts s g ∧
     pswT b.psw = true ∧
     pswV b.psw = false ∧
     let unit : TrigUnit := .alu0
     ∃ op,
     Triggers s g i unit op v ∧
     op = 0x1F) ∧
    (∃ (s : State) (g : BargeIx) (i : Insn) (v : Word),
     let b := s.barges.get g
     let u := b.u
     let tag (a : Word) : Nat := bitsN a 32 4
     let invalid (k : Nat) : Prop := (8 ≤ k ∧ k ≤ 13) ∨ k = 15
     let isNull (op : Nat) (o : Word) : Prop :=
      (op = 0x18 ∨ op = 0x19) ∧ (tag o = 14 ∨ tag v = 14) ∧ ¬ invalid (tag o) ∧ ¬ invalid (tag v)
     Available s ∧
     NextInsn s g i ∧
     NoInterrupts s g ∧
     pswT b.psw = true ∧
     pswV b.psw = false ∧
     let unit : TrigUnit := .alu0
     let o : Word := u.alu0o
     ∃ op,
     Triggers s g i unit op v ∧
     isNull op o) ∧
    (∃ (s : State) (g : BargeIx) (i : Insn) (v : Word),
     let b := s.barges.get g
     let u := b.u
     let tag (a : Word) : Nat := bitsN a 32 4
     let val (a : Word) : BitVec 32 := a.setWidth 32
     let invalid (k : Nat) : Prop := (8 ≤ k ∧ k ≤ 13) ∨ k = 15
     let pairs (op : Nat) : List (Nat × Nat × Nat) :=
      if op ≤ 3 then [(0, 0, 0), (1, 1, 1), (3, 0, 3), (0, 3, 3), (5, 0, 5), (4, 0, 4)]
      else if op ≤ 7 ∨ op = 0x18 then [(0, 0, 0), (1, 1, 1), (3, 0, 3), (3, 3, 0), (5, 0, 5), (5, 5, 0), (4, 0, 4)]
      else if op ≤ 0x0F ∨ op = 0x19 then [(1, 1, 1), (2, 2, 2), (6, 1, 6), (7, 1, 7)]
      else if op ≤ 0x17 then [(0, 0, 0), (0, 1, 0), (1, 0, 1), (1, 1, 1), (6, 0, 6), (6, 1, 6), (7, 0, 7), (7, 1, 7)]
      else if op ≤ 0x1B then [(0, 0, 0), (3, 3, 3)]
      else if op ≤ 0x1D then [(1, 1, 1), (3, 3, 3), (4, 4, 4)]
      else [(0, 0, 0), (0, 1, 0)]
     let isBool (a : Word) : Prop := tag a = 2 → val a = 0 ∨ val a = 1
     let isNull (op : Nat) (o : Word) : Prop :=
      (op = 0x18 ∨ op = 0x19) ∧ (tag o = 14 ∨ tag v = 14) ∧ ¬ invalid (tag o) ∧ ¬ invalid (tag v)
     let canFault : Prop := b.entry = none ∧ iouWriting b = false ∧ FrameAdmitted s g
     Available s ∧
     NextInsn s g i ∧
     NoInterrupts s g ∧
     pswT b.psw = true ∧
     pswV b.psw = false ∧
     let unit : TrigUnit := .alu0
     let o : Word := u.alu0o
     ∃ op,
     Triggers s g i unit op v ∧
     op ≠ 0x1F ∧
     ¬ isNull op o ∧
     ((∀ k, (tag o, tag v, k) ∉ pairs op) ∨ ¬ isBool o ∨ ¬ isBool v) ∧
     canFault) ∧
    (∃ (s : State) (g : BargeIx) (i : Insn) (v : Word),
     let b := s.barges.get g
     let u := b.u
     let tag (a : Word) : Nat := bitsN a 32 4
     let val (a : Word) : BitVec 32 := a.setWidth 32
     let pairs (op : Nat) : List (Nat × Nat × Nat) :=
      if op ≤ 3 then [(0, 0, 0), (1, 1, 1), (3, 0, 3), (0, 3, 3), (5, 0, 5), (4, 0, 4)]
      else if op ≤ 7 ∨ op = 0x18 then [(0, 0, 0), (1, 1, 1), (3, 0, 3), (3, 3, 0), (5, 0, 5), (5, 5, 0), (4, 0, 4)]
      else if op ≤ 0x0F ∨ op = 0x19 then [(1, 1, 1), (2, 2, 2), (6, 1, 6), (7, 1, 7)]
      else if op ≤ 0x17 then [(0, 0, 0), (0, 1, 0), (1, 0, 1), (1, 1, 1), (6, 0, 6), (6, 1, 6), (7, 0, 7), (7, 1, 7)]
      else if op ≤ 0x1B then [(0, 0, 0), (3, 3, 3)]
      else if op ≤ 0x1D then [(1, 1, 1), (3, 3, 3), (4, 4, 4)]
      else [(0, 0, 0), (0, 1, 0)]
     let isBool (a : Word) : Prop := tag a = 2 → val a = 0 ∨ val a = 1
     Available s ∧
     NextInsn s g i ∧
     NoInterrupts s g ∧
     pswT b.psw = true ∧
     pswV b.psw = false ∧
     let unit : TrigUnit := .alu1
     let o : Word := u.alu1o
     ∃ op,
     Triggers s g i unit op v ∧
     ∃ k,
     op ≠ 0x1F ∧
     (tag o, tag v, k) ∈ pairs op ∧
     isBool o ∧
     isBool v) ∧
    (∃ (s : State) (g : BargeIx) (i : Insn) (v : Word),
     let b := s.barges.get g
     Available s ∧
     NextInsn s g i ∧
     NoInterrupts s g ∧
     pswT b.psw = true ∧
     pswV b.psw = false ∧
     let unit : TrigUnit := .alu1
     ∃ op,
     Triggers s g i unit op v ∧
     op = 0x1F) ∧
    (∃ (s : State) (g : BargeIx) (i : Insn) (v : Word),
     let b := s.barges.get g
     let u := b.u
     let tag (a : Word) : Nat := bitsN a 32 4
     let invalid (k : Nat) : Prop := (8 ≤ k ∧ k ≤ 13) ∨ k = 15
     let isNull (op : Nat) (o : Word) : Prop :=
      (op = 0x18 ∨ op = 0x19) ∧ (tag o = 14 ∨ tag v = 14) ∧ ¬ invalid (tag o) ∧ ¬ invalid (tag v)
     Available s ∧
     NextInsn s g i ∧
     NoInterrupts s g ∧
     pswT b.psw = true ∧
     pswV b.psw = false ∧
     let unit : TrigUnit := .alu1
     let o : Word := u.alu1o
     ∃ op,
     Triggers s g i unit op v ∧
     isNull op o) ∧
    (∃ (s : State) (g : BargeIx) (i : Insn) (v : Word),
     let b := s.barges.get g
     let u := b.u
     let tag (a : Word) : Nat := bitsN a 32 4
     let val (a : Word) : BitVec 32 := a.setWidth 32
     let invalid (k : Nat) : Prop := (8 ≤ k ∧ k ≤ 13) ∨ k = 15
     let pairs (op : Nat) : List (Nat × Nat × Nat) :=
      if op ≤ 3 then [(0, 0, 0), (1, 1, 1), (3, 0, 3), (0, 3, 3), (5, 0, 5), (4, 0, 4)]
      else if op ≤ 7 ∨ op = 0x18 then [(0, 0, 0), (1, 1, 1), (3, 0, 3), (3, 3, 0), (5, 0, 5), (5, 5, 0), (4, 0, 4)]
      else if op ≤ 0x0F ∨ op = 0x19 then [(1, 1, 1), (2, 2, 2), (6, 1, 6), (7, 1, 7)]
      else if op ≤ 0x17 then [(0, 0, 0), (0, 1, 0), (1, 0, 1), (1, 1, 1), (6, 0, 6), (6, 1, 6), (7, 0, 7), (7, 1, 7)]
      else if op ≤ 0x1B then [(0, 0, 0), (3, 3, 3)]
      else if op ≤ 0x1D then [(1, 1, 1), (3, 3, 3), (4, 4, 4)]
      else [(0, 0, 0), (0, 1, 0)]
     let isBool (a : Word) : Prop := tag a = 2 → val a = 0 ∨ val a = 1
     let isNull (op : Nat) (o : Word) : Prop :=
      (op = 0x18 ∨ op = 0x19) ∧ (tag o = 14 ∨ tag v = 14) ∧ ¬ invalid (tag o) ∧ ¬ invalid (tag v)
     let canFault : Prop := b.entry = none ∧ iouWriting b = false ∧ FrameAdmitted s g
     Available s ∧
     NextInsn s g i ∧
     NoInterrupts s g ∧
     pswT b.psw = true ∧
     pswV b.psw = false ∧
     let unit : TrigUnit := .alu1
     let o : Word := u.alu1o
     ∃ op,
     Triggers s g i unit op v ∧
     op ≠ 0x1F ∧
     ¬ isNull op o ∧
     ((∀ k, (tag o, tag v, k) ∉ pairs op) ∨ ¬ isBool o ∨ ¬ isBool v) ∧
     canFault) ∧
    (∃ (s : State) (g : BargeIx) (i : Insn) (v : Word),
     let b := s.barges.get g
     let u := b.u
     let tag (a : Word) : Nat := bitsN a 32 4
     Available s ∧
     NextInsn s g i ∧
     NoInterrupts s g ∧
     pswT b.psw = true ∧
     pswV b.psw = false ∧
     ∃ op,
     Triggers s g i .mul op v ∧
     let k := op % 2
     tag u.mulo = k ∧
     tag v = k) ∧
    (∃ (s : State) (g : BargeIx) (i : Insn) (v : Word),
     let b := s.barges.get g
     let u := b.u
     let tag (a : Word) : Nat := bitsN a 32 4
     let canFault : Prop := b.entry = none ∧ iouWriting b = false ∧ FrameAdmitted s g
     Available s ∧
     NextInsn s g i ∧
     NoInterrupts s g ∧
     pswT b.psw = true ∧
     pswV b.psw = false ∧
     ∃ op,
     Triggers s g i .mul op v ∧
     let k := op % 2
     ¬ (tag u.mulo = k ∧ tag v = k) ∧
     canFault) ∧
    (∃ (s : State) (g : BargeIx) (i : Insn) (v : Word),
     let b := s.barges.get g
     let canFault : Prop := b.entry = none ∧ iouWriting b = false ∧ FrameAdmitted s g
     Available s ∧
     NextInsn s g i ∧
     NoInterrupts s g ∧
     pswT b.psw = true ∧
     pswV b.psw = false ∧
     ∃ op,
     (Triggers s g i .vmul op v ∨ Triggers s g i .vchk op v ∨ Triggers s g i .sig op v) ∧
     canFault) ∧
    (∃ (s : State) (g : BargeIx) (i : Insn) (v : Word),
     let b := s.barges.get g
     let u := b.u
     let tag (a : Word) : Nat := bitsN a 32 4
     let canFault : Prop := b.entry = none ∧ iouWriting b = false ∧ FrameAdmitted s g
     Available s ∧
     NextInsn s g i ∧
     NoInterrupts s g ∧
     pswT b.psw = true ∧
     pswV b.psw = false ∧
     ∃ op,
     Triggers s g i .lsu op v ∧
     canFault ∧
     (lsuMode op = 0 ∨ lsuMode op = 3) ∧
     ¬ (tag u.lsua = 5 ∨ tag u.lsua = 0 ∨ tag u.lsua = 1)) ∧
    (∃ (s : State) (g : BargeIx) (i : Insn) (v : Word),
     let b := s.barges.get g
     let u := b.u
     let tag (a : Word) : Nat := bitsN a 32 4
     let canFault : Prop := b.entry = none ∧ iouWriting b = false ∧ FrameAdmitted s g
     Available s ∧
     NextInsn s g i ∧
     NoInterrupts s g ∧
     pswT b.psw = true ∧
     pswV b.psw = false ∧
     ∃ op,
     Triggers s g i .lsu op v ∧
     canFault ∧
     lsuStore op = true ∧
     (if lsuSize op < 4 then ¬ (tag u.lsud = 0 ∨ tag u.lsud = 1)
      else (8 ≤ tag u.lsud ∧ tag u.lsud ≤ 13) ∨ (lsuSize op = 8 ∧ 8 ≤ tag v ∧ tag v ≤ 13))) ∧
    (∃ (s : State) (dt : Nat) (g : BargeIx) (rivals : List Rival) (i : Insn) (v : Word),
     let b := s.barges.get g
     let x := s.basins.get (basinOf g)
     let u := b.u
     let w := pswW b.psw
     let tag (a : Word) : Nat := bitsN a 32 4
     let val (a : Word) : BitVec 32 := a.setWidth 32
     Available s ∧
     NextInsn s g i ∧
     NoInterrupts s g ∧
     pswT b.psw = true ∧
     pswV b.psw = false ∧
     ∃ op,
     Triggers s g i .lsu op v ∧
     lsuStore op = false ∧
     lsuMode op = 0 ∧
     let n := lsuSize op
     let base : Word := if tag u.lsua = 5 then BitVec.ofNat 36 (4 * (val u.lsua).toNat)
      else if tag u.lsua = 0 then (val u.lsua).signExtend 36 else (val u.lsua).setWidth 36
     let a := base + (val v).signExtend 36
     (tag u.lsua = 5 ∨ tag u.lsua = 0 ∨ tag u.lsua = 1) ∧
     n < 8 ∧
     a.toNat % n = 0 ∧
     accessFault x (posOf g) w (pswL b.psw) [{ addr := a.toInt, len := n }] = none ∧
     inHandover x (bankOf a.toNat) = false ∧
     b.stores = [] ∧
     PortsFree (s.elapse dt) (basinOf g) ∧
     (∀ r ∈ rivals, r.bank ≠ bankOf a.toNat) ∧
     (∀ k, x.mem.mark k = none)) := by
  refine
    ⟨⟨liveM (slotBits 0 0 256 0x81) [] fun b => { b with psw := 0x17, vital := { b.vital with w := vput b.vital.w 1 5 }, ordinary := { b.ordinary with w := vput b.ordinary.w 1 5 }, u := { b.u with alu0o := 5 } },
      0, (slotBits 0 0 256 0x81), 0x0, ?_, ?_, ?_, ?_, ?_,
      { guard := 0, src := .imm 0, chain := false, dst := .trig .alu0 1 }, 0, ?_, ?_, .alu0, 1, ?_⟩,
     ⟨liveM (slotBits 0 0 1 0x81) [] fun b => { b with psw := 0x17, vital := { b.vital with w := vput b.vital.w 1 0x9 }, ordinary := { b.ordinary with w := vput b.ordinary.w 1 0x9 }, u := { b.u with alu0o := 0x5 } },
      0, (slotBits 0 0 1 0x81), 0x9, ?_, ?_, ?_, ?_, ?_, 1, ?_, 0, ?_, ?_, ?_, ?_⟩,
     ⟨liveM (slotBits 0 0 1 0x9F) [] fun b => { b with psw := 0x17, vital := { b.vital with w := vput b.vital.w 1 0xE00000007 }, ordinary := { b.ordinary with w := vput b.ordinary.w 1 0xE00000007 }, u := { b.u with alu0o := 0x300000005 } },
      0, (slotBits 0 0 1 0x9F), 0xE00000007, ?_, ?_, ?_, ?_, ?_, 0x1F, ?_, ?_⟩,
     ⟨liveM (slotBits 0 0 1 0x98) [] fun b => { b with psw := 0x17, vital := { b.vital with w := vput b.vital.w 1 0xE00000007 }, ordinary := { b.ordinary with w := vput b.ordinary.w 1 0xE00000007 }, u := { b.u with alu0o := 0xE00000005 } },
      0, (slotBits 0 0 1 0x98), 0xE00000007, ?_, ?_, ?_, ?_, ?_, 24, ?_, ?_⟩,
     ⟨liveM (slotBits 0 0 1 0x88) [] fun b => { b with psw := 0x17, vital := { b.vital with w := vput b.vital.w 1 0x200000001 }, ordinary := { b.ordinary with w := vput b.ordinary.w 1 0x200000001 }, u := { b.u with alu0o := 0x200000002 } },
      0, (slotBits 0 0 1 0x88), 0x200000001, ?_, ?_, ?_, ?_, ?_, 8, ?_, ?_, ?_, (Or.inr (Or.inl (by decide +kernel))), ?_⟩,
     ⟨liveM (slotBits 0 0 1 0xA1) [] fun b => { b with psw := 0x17, vital := { b.vital with w := vput b.vital.w 1 0x9 }, ordinary := { b.ordinary with w := vput b.ordinary.w 1 0x9 }, u := { b.u with alu1o := 0x5 } },
      0, (slotBits 0 0 1 0xA1), 0x9, ?_, ?_, ?_, ?_, ?_, 1, ?_, 0, ?_, ?_, ?_, ?_⟩,
     ⟨liveM (slotBits 0 0 1 0xBF) [] fun b => { b with psw := 0x17, vital := { b.vital with w := vput b.vital.w 1 0xE00000007 }, ordinary := { b.ordinary with w := vput b.ordinary.w 1 0xE00000007 }, u := { b.u with alu1o := 0x300000005 } },
      0, (slotBits 0 0 1 0xBF), 0xE00000007, ?_, ?_, ?_, ?_, ?_, 0x1F, ?_, ?_⟩,
     ⟨liveM (slotBits 0 0 1 0xB8) [] fun b => { b with psw := 0x17, vital := { b.vital with w := vput b.vital.w 1 0xE00000007 }, ordinary := { b.ordinary with w := vput b.ordinary.w 1 0xE00000007 }, u := { b.u with alu1o := 0xE00000005 } },
      0, (slotBits 0 0 1 0xB8), 0xE00000007, ?_, ?_, ?_, ?_, ?_, 24, ?_, ?_⟩,
     ⟨liveM (slotBits 0 0 1 0xA8) [] fun b => { b with psw := 0x17, vital := { b.vital with w := vput b.vital.w 1 0x200000001 }, ordinary := { b.ordinary with w := vput b.ordinary.w 1 0x200000001 }, u := { b.u with alu1o := 0x200000002 } },
      0, (slotBits 0 0 1 0xA8), 0x200000001, ?_, ?_, ?_, ?_, ?_, 8, ?_, ?_, ?_, (Or.inr (Or.inl (by decide +kernel))), ?_⟩,
     ⟨liveM (slotBits 0 0 1 0xC0) [] fun b => { b with psw := 0x17, vital := { b.vital with w := vput b.vital.w 1 0x3 }, ordinary := { b.ordinary with w := vput b.ordinary.w 1 0x3 }, u := { b.u with mulo := 0xFFFFFFFF } },
      0, (slotBits 0 0 1 0xC0), 0x3, ?_, ?_, ?_, ?_, ?_, 0, ?_, ?_, ?_⟩,
     ⟨liveM (slotBits 0 0 1 0xC0) [] fun b => { b with psw := 0x17, vital := { b.vital with w := vput b.vital.w 1 0x5 }, ordinary := { b.ordinary with w := vput b.ordinary.w 1 0x5 }, u := { b.u with mulo := 0x100000007 } },
      0, (slotBits 0 0 1 0xC0), 0x5, ?_, ?_, ?_, ?_, ?_, 0, ?_, ?_, ?_⟩,
     ⟨liveM (slotBits 0 0 1 0x160) [] fun b => { b with psw := 0x17, vital := { b.vital with w := vput b.vital.w 1 5 }, ordinary := { b.ordinary with w := vput b.ordinary.w 1 5 } },
      0, (slotBits 0 0 1 0x160), 5, ?_, ?_, ?_, ?_, ?_, 0, (Or.inl (trigOk_spec (by decide +kernel))), ?_⟩,
     ⟨liveM (slotBits 0 0 1 0xF0) [] fun b => { b with psw := 0x17, vital := { b.vital with w := vput b.vital.w 1 0x0 }, ordinary := { b.ordinary with w := vput b.ordinary.w 1 0x0 }, u := { b.u with lsua := 0x200001000 } },
      0, (slotBits 0 0 1 0xF0), 0x0, ?_, ?_, ?_, ?_, ?_, 16, ?_, ?_, ?_, ?_⟩,
     ⟨liveM (slotBits 0 0 1 0x100) [] fun b => { b with psw := 0x17, vital := { b.vital with w := vput b.vital.w 1 0x0 }, ordinary := { b.ordinary with w := vput b.ordinary.w 1 0x0 }, u := { b.u with lsua := 0x100001000, lsud := 0x200000001 } },
      0, (slotBits 0 0 1 0x100), 0x0, ?_, ?_, ?_, ?_, ?_, 32, ?_, ?_, ?_, ?_⟩,
     ⟨liveM (slotBits 0 0 1 0xE0) [(0x1000, 4, 0x012345678), (0x1004, 4, 0xABCDEF012), (0x1008, 4, 0xF00000001), (0x100C, 4,
        0x5FFFFFFFF), (0x1010, 4,
        0xE87654321)] fun b => { b with psw := 0x17, vital := { b.vital with w := vput b.vital.w 1 0x0 }, ordinary := { b.ordinary with w := vput b.ordinary.w 1 0x0 }, u := { b.u with lsua := 0x500000400 } },
      12, 0, [], (slotBits 0 0 1 0xE0), 0x0, ?_, ?_, ?_, ?_, ?_, 0, ?_, ?_, ?_, ?_, ?_, ?_, ?_, ?_, ?_, ?_, ?_,
      (unmarked _ (by decide +kernel))⟩⟩ <;>
    first | decide +kernel | (unfold Available; decide +kernel) | (unfold FrameAdmitted; decide +kernel) | (unfold NoInterrupts; decide +kernel) | (unfold PortsFree; decide +kernel) | exact nextOk_spec (by decide +kernel) | exact trigOk_spec (by decide +kernel)

set_option Elab.async false in
theorem witness_MemoriesAreScrubbedAndAccessed :
    (∃ (s : State) (dt : Nat) (n : BasinIx) (b : BankIx) (row : Nat),
     let x := s.basins.get n
     Available s ∧
     basinRuns s n = true ∧
     x.testing = false ∧
     PortsFree (s.elapse dt) n ∧
     (x.scrubIdle = true ∨ (x.banks.get b).scrubLast + 4096 ≤ bclkCount (s.elapse dt) n) ∧
     scrubWriteback (x.banks.get b) = some row) ∧
    (∃ (s : State) (dt : Nat) (n : BasinIx) (b : BankIx),
     let x := s.basins.get n
     let bank := x.banks.get b
     Available s ∧
     basinRuns s n = true ∧
     x.testing = false ∧
     PortsFree (s.elapse dt) n ∧
     (x.scrubIdle = true ∨ bank.scrubLast + 4096 ≤ bclkCount (s.elapse dt) n) ∧
     scrubWriteback bank = none) ∧
    (∃ (s : State) (dt : Nat) (b : BankIx) (row : Nat),
     let bank := s.rv.banks.get b
     let k := xclk (s.elapse dt)
     Available s ∧
     bank.portBAt.all (fun j => j < k) = true ∧
     (rvAsked (s.elapse dt) b k = false ∨ bank.scrubLast + 4096 ≤ k) ∧
     scrubWriteback bank = some row) ∧
    (∃ (s : State) (dt : Nat) (b : BankIx),
     let bank := s.rv.banks.get b
     let k := xclk (s.elapse dt)
     Available s ∧
     bank.portBAt.all (fun j => j < k) = true ∧
     (rvAsked (s.elapse dt) b k = false ∨ bank.scrubLast + 4096 ≤ k) ∧
     scrubWriteback bank = none) ∧
    (∃ (s : State) (dt : Nat) (r : WharfReq) (h : r.target.val < 12),
     let n : BasinIx := ⟨r.target.val, h⟩
     let x := s.basins.get n
     let a := r.tx.addr.toNat % 0x100000
     Available s ∧
     MemoriesCanonical s ∧
     s.wharf.reqs = [r] ∧
     x.tport = [] ∧
     basinRuns s n = true ∧
     r.tx.size = .word ∧
     r.drop = false ∧
     r.beat = 0 ∧
     r.bad = false ∧
     r.got = [] ∧
     r.refuse = false ∧
     r.tx.addr.toNat % 4 = 0 ∧
     a < 0xE0000 ∧
     basinAdmits s n r = true ∧
     (x.banks.get (bankOf a)).ho = none ∧
     r.since ≤ xclk (s.elapse dt) ∧
     s.wharf.busyTill.get r.target ≤ xclk (s.elapse dt) ∧
     PortsFree (s.elapse dt) n) ∧
    (∃ (s : State) (dt : Nat) (r : WharfReq),
     Available s ∧
     MemoriesCanonical s ∧
     s.wharf.reqs = [r] ∧
     r.target = 16 ∧
     r.tx.size = .word ∧
     r.drop = false ∧
     r.tx.addr.toNat % 4 = 0 ∧
     0x11000000 ≤ r.tx.addr.toNat ∧
     r.tx.addr.toNat < 0x11080000 ∧
     r.since ≤ xclk (s.elapse dt) ∧
     s.wharf.busyTill.get 16 ≤ xclk (s.elapse dt)) ∧
    (∃ (s : State) (dt : Nat) (r : WharfReq),
     Available s ∧
     MemoriesCanonical s ∧
     s.wharf.reqs = [r] ∧
     12 ≤ r.target.val ∧
     r.target.val < 16 ∧
     r.tx.size = .word ∧
     r.drop = false ∧
     r.tx.addr.toNat % 4 = 0 ∧
     0x10000000 ≤ r.tx.addr.toNat ∧
     r.tx.addr.toNat < 0x10400000 ∧
     r.since ≤ xclk (s.elapse dt) ∧
     s.wharf.busyTill.get r.target ≤ xclk (s.elapse dt) ∧
     rvTaken s r (xclk (s.elapse dt)) = false) := by
  refine
    ⟨⟨live.modBasin 2 fun x => { x with mem := { cells := [(0x1001, 5), (0x2003, 7)], marks := [(0x400, .ce), (0x402, .ue), (0x4002, .ce)] }, banks := vmod x.banks 0 fun k => { k with scrubBack := some 128 } },
      12, 2, 0, 128, ?_, ?_, ?_, ?_, ?_, ?_⟩,
     ⟨live.modBasin 2 fun x => { x with mem := { cells := [(0x1001, 5), (0x2003, 7)], marks := [(0x400, .ce), (0x402, .ue), (0x4002, .ce)] }, banks := vmod x.banks 0 fun k => { k with scrubRow := 128 } },
      12, 2, 0, ?_, ?_, ?_, ?_, ?_, ?_⟩,
     ⟨{ live with rv := { live.rv with mem := { cells := [], marks := [(4, .ue), (6, .ce)] }, banks := vmod live.rv.banks 3 fun k => { k with scrubBack := some 0 } } },
      12, 3, 0, ?_, ?_, ?_, ?_⟩,
     ⟨{ live with rv := { live.rv with mem := { cells := [], marks := [(4, .ue), (6, .ce)] }, banks := vmod live.rv.banks 3 fun k => { k with scrubRow := 0 } } },
      12, 3, ?_, ?_, ?_, ?_⟩,
     ⟨{ live with wharf := { live.wharf with reqs := [{ init := 12, target := 0, tx := { addr := 0x00000000, write := true, size := .word, id := 3, world := false, data := [0xABCDEF012] }, qos := 4, since := 0, seq := 7 }] }, basins := vput live.basins 0 { (live.basins.get 0) with mem := { cells := [(4, 1), (9, 3)], marks := [(4, .ue), (6, .ce)] }, banks := (live.basins.get 0).banks.map fun k => { k with own := 0x44 } }, rv := { live.rv with mem := { cells := [(4, 1), (9, 3)], marks := [(4, .ue), (6, .ce)] } }, hms := { cells := [(4, 1), (9, 3)], marks := [] } },
      240,
      { init := 12, target := 0, tx := { addr := 0x00000000, write := true, size := .word, id := 3, world := false, data := [0xABCDEF012] }, qos := 4, since := 0, seq := 7 },
      by decide, ?_, ?_, ?_, ?_, ?_, ?_, ?_, ?_, ?_, ?_, ?_, ?_, ?_, ?_, ?_, ?_, ?_, ?_⟩,
     ⟨{ live with wharf := { live.wharf with reqs := [{ init := 12, target := 16, tx := { addr := 0x11000000, write := true, size := .word, id := 3, world := false, data := [0xABCDEF012] }, qos := 4, since := 0, seq := 7 }] }, basins := vput live.basins 0 { (live.basins.get 0) with mem := { cells := [(4, 1), (9, 3)], marks := [(4, .ue), (6, .ce)] }, banks := (live.basins.get 0).banks.map fun k => { k with own := 0x44 } }, rv := { live.rv with mem := { cells := [(4, 1), (9, 3)], marks := [(4, .ue), (6, .ce)] } }, hms := { cells := [(4, 1), (9, 3)], marks := [] } },
      12,
      { init := 12, target := 16, tx := { addr := 0x11000000, write := true, size := .word, id := 3, world := false, data := [0xABCDEF012] }, qos := 4, since := 0, seq := 7 },
      ?_, ?_, ?_, ?_, ?_, ?_, ?_, ?_, ?_, ?_, ?_⟩,
     ⟨{ live with wharf := { live.wharf with reqs := [{ init := 12, target := 12, tx := { addr := 0x10000000, write := true, size := .word, id := 3, world := false, data := [0xABCDEF012] }, qos := 4, since := 0, seq := 7 }] }, basins := vput live.basins 0 { (live.basins.get 0) with mem := { cells := [(4, 1), (9, 3)], marks := [(4, .ue), (6, .ce)] }, banks := (live.basins.get 0).banks.map fun k => { k with own := 0x44 } }, rv := { live.rv with mem := { cells := [(4, 1), (9, 3)], marks := [(4, .ue), (6, .ce)] } }, hms := { cells := [(4, 1), (9, 3)], marks := [] } },
      12,
      { init := 12, target := 12, tx := { addr := 0x10000000, write := true, size := .word, id := 3, world := false, data := [0xABCDEF012] }, qos := 4, since := 0, seq := 7 },
      ?_, ?_, ?_, ?_, ?_, ?_, ?_, ?_, ?_, ?_, ?_, ?_, ?_⟩⟩ <;>
    first | decide +kernel | (unfold Available; decide +kernel) | (unfold MemoriesCanonical; decide +kernel) | (unfold PortsFree; decide +kernel)

set_option Elab.async false in
theorem witness_WharfAnswersAndRegistersKeepFields :
    (∃ (s : State) (g : BargeIx),
     Available s ∧
     pswL (s.barges.get g).psw = true ∧
     pswW (s.barges.get g).psw = true) ∧
    (∃ (s : State) (dt : Nat),
     Available s ∧
     (∀ r ∈ s.wharf.reqs, r.seq ≠ s.wharf.seq ∧ r.target ≠ 17) ∧
     s.wharf.cur.get 12 < 32 ∧
     s.wharf.busyTill.get 17 ≤ xclk (s.elapse dt) ∧
     (s.wharf.directAt.get 12).all (fun k => k ≤ xclk (s.elapse dt)) = true ∧
     (∀ n, (s.basins.get n).hoAcks = [])) ∧
    (∃ (s : State) (init : Fin 16) (t : Tx) (g : Fin 20),
     Available s ∧
     12 ≤ init.val ∧
     s.wharf.cur.get init < 32 ∧
     decodeTx s init t = .inr g) ∧
    (∃ (s : State) (dt : Nat) (init : Fin 16) (h : init.val < 12) (p : Fin 4) (o : XluOp) (g : Fin 20),
     let n : BasinIx := ⟨init.val, h⟩
     Available s ∧
     s.wharf.cur.get init < 32 ∧
     tenderPick (s.elapse dt) n = some (p, o) ∧
     (s.basins.get n).tenderAt ≠ some (xclk (s.elapse dt)) ∧
     decodeTx s init (tenderTx p o) = .inr g) ∧
    (∃ (s : State) (init : Fin 16) (t : Tx) (reason : Nat),
     Available s ∧
     12 ≤ init.val ∧
     s.wharf.cur.get init < 32 ∧
     decodeTx s init t = .inl reason) ∧
    (∃ (s : State) (init : Fin 16) (id : BitVec 5) (r : WharfResp),
     Available s ∧
     s.wharf.resps.find? (fun x => x.init == init && x.id == id) = some r) ∧
    (∃ (s : State) (init : Fin 16) (id : BitVec 5) (r : WharfResp),
     Available s ∧
     12 ≤ init.val ∧
     s.wharf.resps.find? (fun x => x.init == init && x.id == id) = some r ∧
     (init = 15 → s.sec.dbgWait = none) ∧
     (init = 14 → ∀ k, (s.tl.link.get k).mtxTxs = [] ∧ ∀ f ∈ (s.tl.link.get k).mrxFrames, f.txs = [])) ∧
    (∃ (s : State) (id : BitVec 5) (r : WharfResp) (t : Tx) (g : Fin 20),
     Available s ∧
     s.wharf.resps.find? (fun x => x.init == 15 && x.id == id) = some r ∧
     s.sec.dbgWait = some t ∧
     s.wharf.cur.get 15 = 32 ∧
     decodeTx s 15 t = .inr g) ∧
    (∃ (s : State),
     Available s) := by
  refine
    ⟨⟨live, 0, ?_, ?_, ?_⟩,
     ⟨live, 12, ?_, ?_, ?_, ?_, ?_, ?_⟩,
     ⟨live, 12, { addr := 0x10000010, write := false, size := .word, id := 3, world := false, data := [] }, 12, ?_, ?_, ?_,
      ?_⟩,
     ⟨live.modBasin 4 fun x => { x with tender := [(2, { write := false, size := .word, addr := 0x10000010, data := 0, world := true, after := 0, load := 1 })] },
      12, 4, by decide, 2,
      { write := false, size := .word, addr := 0x10000010, data := 0, world := true, after := 0, load := 1 }, 12, ?_, ?_, ?_,
      ?_, ?_⟩,
     ⟨live, 12, { addr := 0x30000000, write := false, size := .word, id := 3, world := false, data := [] }, 1, ?_, ?_, ?_, ?_⟩,
     ⟨{ live with wharf := { live.wharf with resps := [{ init := 3, id := 7, write := true, status := .ok, data := [], seq := 4, load := 3 }, { init := 2, id := 7, write := false, status := .ok, data := [5], seq := 4, load := 3 }], cur := vput live.wharf.cur 2 1 } },
      2, 7, { init := 2, id := 7, write := false, status := .ok, data := [5], seq := 4, load := 3 }, ?_, ?_⟩,
     ⟨{ live with wharf := { live.wharf with resps := [{ init := 3, id := 7, write := true, status := .ok, data := [], seq := 4, load := 3 }, { init := 15, id := 7, write := false, status := .ok, data := [5], seq := 4, load := 3 }], cur := vput live.wharf.cur 15 1 } },
      15, 7, { init := 15, id := 7, write := false, status := .ok, data := [5], seq := 4, load := 3 }, ?_, ?_, ?_, ?_, ?_⟩,
     ⟨withSec ({ live with wharf := { live.wharf with resps := [{ init := 3, id := 7, write := true, status := .ok, data := [], seq := 4, load := 3 }, { init := 15, id := 7, write := false, status := .ok, data := [5], seq := 4, load := 3 }], cur := vput live.wharf.cur 15 32 } }) fun x => { x with dbgWait := some { addr := 0x11000000, write := false, size := .word, id := 3, world := false, data := [] } },
      7, { init := 15, id := 7, write := false, status := .ok, data := [5], seq := 4, load := 3 },
      { addr := 0x11000000, write := false, size := .word, id := 3, world := false, data := [] }, 16, ?_, ?_, ?_, ?_, ?_⟩,
     ⟨{ live with wharf := { live.wharf with cur := vput live.wharf.cur 2 1, tgrant := vput live.wharf.tgrant 2 1, tmaxw := vput live.wharf.tmaxw 2 1, recent := [] } },
      ?_⟩⟩ <;>
    first | decide +kernel | (unfold Available; decide +kernel)

set_option Elab.async false in
theorem witness_MemoryReadsWhatWasWritten :
    (∃ (m : Mem),
     m.wf = true) ∧
    (∃ (m : Mem) (n : Nat),
     m.wf = true ∧
     ∃ k,
     k < n) ∧
    (∃ (m : Mem) (a n : Nat),
     m.wf = true ∧
     ∃ b,
     (b < a ∨ a + n ≤ b)) := by
  refine
    ⟨⟨{ cells := [(3, 1), (5, 2)], marks := [(0, .ce)] }, ?_⟩,
     ⟨{ cells := [(3, 1), (5, 2)], marks := [(0, .ce)] }, 8, ?_, 0, ?_⟩,
     ⟨{ cells := [(3, 1), (5, 2)], marks := [(0, .ce)] }, 2, 4, ?_, 1, ?_⟩⟩ <;> decide +kernel

set_option Elab.async false in
theorem witness_CyclesStartAndSealsAreJudged :
    (∃ (s : State) (dt : Nat) (t : Fin 256) (b : BargeIx),
     let k := (s.elapse dt).kp
     let x := s.kp.tasks.get t
     Available s ∧
     KeeperLive s ∧
     x.tstate = 1 ∧
     x.onbarge.toNat = b.val ∧
     x.period ≠ 0 ∧
     k.kt.toNat % x.period = x.phase ∧
     x.notBefore.all (ktReached k.kt) = true ∧
     x.lastStart ≠ some k.kt ∧
     firstStart (s.elapse dt) t = true ∧
     inOrder (s.elapse dt) 4 = true) ∧
    (∃ (s : State) (dt : Nat) (g : BargeIx) (v : BitVec 61) (task : BitVec 8) (n : BitVec 16) (rest : List SealMsg),
     let x := s.kp.tasks.get task.toFin
     Available s ∧
     s.kp.links.get g = .seal v task n :: rest ∧
     inOrder (s.elapse dt) 1 = true ∧
     ∃ c,
     KeeperLive s ∧
     x.tstate = 1 ∧
     x.onbarge.toNat = g.val ∧
     x.cycles.getLast? = some c ∧
     c.judged = none ∧
     c.retryAt = none) ∧
    (∃ (s : State) (dt : Nat) (g : BargeIx) (v : BitVec 61) (task : BitVec 8) (n : BitVec 16) (rest : List SealMsg),
     let x := s.kp.tasks.get task.toFin
     Available s ∧
     s.kp.links.get g = .seal v task n :: rest ∧
     inOrder (s.elapse dt) 1 = true ∧
     KeeperLive s ∧
     (x.tstate ≠ 1 ∨ x.onbarge.toNat ≠ g.val ∨ (x.cycles.getLast?.all fun c => !c.takes) = true) ∧
     x.stale = none) ∧
    (∃ (s : State) (dt : Nat) (g : BargeIx) (v : BitVec 61) (task : BitVec 8) (n : BitVec 16) (rest : List SealMsg),
     let x := s.kp.tasks.get task.toFin
     Available s ∧
     s.kp.links.get g = .seal v task n :: rest ∧
     inOrder (s.elapse dt) 1 = true ∧
     ∃ o m,
     KeeperLive s ∧
     x.tstate = 0 ∧
     x.stale = some (o, m + 1) ∧
     o.toNat = g.val) ∧
    (∃ (s : State) (dt : Nat) (g : BargeIx) (v : BitVec 61) (task : BitVec 8) (n : BitVec 16) (rest : List SealMsg),
     Available s ∧
     s.kp.links.get g = .seal v task n :: rest ∧
     inOrder (s.elapse dt) 1 = true ∧
     KeeperLive s) ∧
    (∃ (s : State) (dt : Nat) (g : BargeIx) (v : BitVec 61) (task : BitVec 8) (n : BitVec 16) (rest : List SealMsg),
     Available s ∧
     s.kp.links.get g = .seal v task n :: rest ∧
     inOrder (s.elapse dt) 1 = true) ∧
    (∃ (s : State) (dt : Nat) (g : BargeIx) (v : BitVec 61) (task : BitVec 8) (n : BitVec 16) (rest : List SealMsg),
     Available s ∧
     s.kp.links.get g = .seal v task n :: rest ∧
     inOrder (s.elapse dt) 1 = true ∧
     (s.kp.mode = .starting ∨ s.kp.mode = .safe)) := by
  refine
    ⟨⟨liveT .armed 2400000 fun t => { t with last := 1 }, 0, 5, 9, ?_, ?_, ?_, ?_, ?_, ?_, ?_, ?_, ?_, ?_⟩,
     ⟨withKp (liveT .running 0 fun t => { t with cycles := [{ start := 0, date := 7, barge := 9 }] }) fun k => { k with links := vput k.links 9 [.seal (BitVec.ofNat 61 ((7 * 2 ^ 39 + 12345) % (2 ^ 61 - 1))) 5 3, .seal 0 0 0] },
      12, 9, BitVec.ofNat 61 ((7 * 2 ^ 39 + 12345) % (2 ^ 61 - 1)), 5, 3, [.seal 0 0 0], ?_, ?_, ?_,
      { start := 0, date := 7, barge := 9 }, ?_, ?_, ?_, ?_, ?_, ?_⟩,
     ⟨withKp (live) fun k => { k with links := vput k.links 9 [.seal (1) 5 3, .seal 0 0 0] }, 12, 9, 1, 5, 3, [.seal 0 0 0],
      ?_, ?_, ?_, ?_, ?_, ?_⟩,
     ⟨withKp (liveT .running 0 fun t => { t with cycles := [], tstate := 0, stale := some (9, 2) }) fun k => { k with links := vput k.links 9 [.seal (1) 5 3, .seal 0 0 0] },
      12, 9, 1, 5, 3, [.seal 0 0 0], ?_, ?_, ?_, 9, 1, ?_, ?_, ?_, ?_⟩,
     ⟨withKp (liveT .running 0 fun t => { t with cycles := [{ start := 0, date := 7, barge := 9 }] }) fun k => { k with links := vput k.links 9 [.seal (1) 5 3, .seal 0 0 0] },
      12, 9, 1, 5, 3, [.seal 0 0 0], ?_, ?_, ?_, ?_⟩,
     ⟨withKp (liveT .running 0 fun t => { t with cycles := [{ start := 0, date := 7, barge := 9 }] }) fun k => { k with links := vput k.links 9 [.seal (1) 5 3, .seal 0 0 0] },
      12, 9, 1, 5, 3, [.seal 0 0 0], ?_, ?_, ?_⟩,
     ⟨withKp (liveT .starting 0 fun t => { t with cycles := [{ start := 0, date := 7, barge := 9 }] }) fun k => { k with links := vput k.links 9 [.seal (1) 5 3, .seal 0 0 0] },
      12, 9, 1, 5, 3, [.seal 0 0 0], ?_, ?_, ?_, ?_⟩⟩ <;>
    first | decide +kernel | (unfold Available; decide +kernel) | (unfold KeeperLive; decide +kernel)

set_option Elab.async false in
theorem witness_DecisionsOpenGatesOrRetry :
    (∃ (s : State) (dt : Nat) (t : Fin 256) (c : Cycle),
     let k := (s.elapse dt).kp
     let x := s.kp.tasks.get t
     Available s ∧
     ∃ due,
     inOrder (s.elapse dt) 1 = true ∧
     KeeperCommits s ∧
     x.tstate = 1 ∧
     x.openAt = none ∧
     x.cycles.head? = some c ∧
     c.judged = some (0, due) ∧
     ktReached k.kt due = true ∧
     (c.event = false ∨ evtCount s c.barge < keeperK s)) ∧
    (∃ (s : State) (dt : Nat) (t : Fin 256) (c : Cycle),
     let k := (s.elapse dt).kp
     let x := s.kp.tasks.get t
     Available s ∧
     ∃ due,
     inOrder (s.elapse dt) 1 = true ∧
     s.kp.powered = true ∧
     s.kp.mode = .armed ∧
     x.tstate = 1 ∧
     x.cycles.head? = some c ∧
     c.judged = some (0, due) ∧
     ktReached k.kt due = true ∧
     (c.event = false ∨ evtCount s c.barge < keeperK s)) ∧
    (∃ (s : State) (dt : Nat) (t : Fin 256) (c : Cycle),
     let k := (s.elapse dt).kp
     let x := s.kp.tasks.get t
     Available s ∧
     ∃ due,
     inOrder (s.elapse dt) 1 = true ∧
     KeeperLive s ∧
     x.tstate = 1 ∧
     x.cycles.head? = some c ∧
     c.judged = some (0, due) ∧
     ktReached k.kt due = true ∧
     c.event = true ∧
     keeperK s ≤ evtCount s c.barge) ∧
    (∃ (s : State) (dt : Nat) (t : Fin 256) (c : Cycle),
     let k := (s.elapse dt).kp
     let x := s.kp.tasks.get t
     Available s ∧
     ∃ code due,
     inOrder (s.elapse dt) 1 = true ∧
     KeeperLive s ∧
     x.tstate = 1 ∧
     x.retry = true ∧
     x.cycles.head? = some c ∧
     c.judged = some (code, due) ∧
     ktReached k.kt due = true ∧
     (code = 3 ∨ code = 4 ∨ code = 5) ∧
     c.retried = false ∧
     (due - c.start).toNat + x.rtime ≤ x.late) ∧
    (∃ (s : State) (dt : Nat) (t : Fin 256) (c : Cycle),
     let k := (s.elapse dt).kp
     let x := s.kp.tasks.get t
     Available s ∧
     ∃ due,
     inOrder (s.elapse dt) 3 = true ∧
     KeeperLive s ∧
     x.tstate = 1 ∧
     x.cycles.getLast? = some c ∧
     c.retryAt = some due ∧
     ktReached k.kt due = true) ∧
    (∃ (s : State) (dt : Nat) (t : Fin 256),
     let k := (s.elapse dt).kp
     let x := s.kp.tasks.get t
     Available s ∧
     ∃ due d a,
     KeeperCommits s ∧
     x.openAt = some (due, d, a) ∧
     ktReached k.kt due = true) := by
  refine
    ⟨⟨liveT .degraded 1200 fun t => { t with failrun := 3, cycles := [{ start := 0, date := 7, barge := 9, judged := some (0, 10) }, { start := 10, date := 8, barge := 9 }] },
      12, 5, { start := 0, date := 7, barge := 9, judged := some (0, 10) }, ?_, 10, ?_, ?_, ?_, ?_, ?_, ?_, ?_, ?_⟩,
     ⟨liveT .armed 1200 fun t => { t with failrun := 3, cycles := [{ start := 0, date := 7, barge := 9, judged := some (0, 10) }, { start := 10, date := 8, barge := 9 }] },
      12, 5, { start := 0, date := 7, barge := 9, judged := some (0, 10) }, ?_, 10, ?_, ?_, ?_, ?_, ?_, ?_, ?_, ?_⟩,
     ⟨withKp (liveT .armed 1200 fun t => { t with failrun := 3, cycles := [{ start := 0, date := 7, barge := 9, judged := some (0, 10), event := true }, { start := 10, date := 8, barge := 9 }] }) fun k => { k with bf := vput k.bf 9 { events := [1, 1, 1], dates := 1, total := 3 } },
      12, 5, { start := 0, date := 7, barge := 9, judged := some (0, 10), event := true }, ?_, 10, ?_, ?_, ?_, ?_, ?_, ?_,
      ?_, ?_⟩,
     ⟨liveT .running 1200 fun t => { t with cycles := [{ start := 0, date := 7, barge := 9, judged := some (3, 10) }, { start := 10, date := 8, barge := 9 }] },
      12, 5, { start := 0, date := 7, barge := 9, judged := some (3, 10) }, ?_, 3, 10, ?_, ?_, ?_, ?_, ?_, ?_, ?_, ?_, ?_, ?_⟩,
     ⟨liveT .armed 1200 fun t => { t with cycles := [{ start := 0, date := 7, barge := 9, retryAt := some 9, att := true, retried := true }] },
      12, 5, { start := 0, date := 7, barge := 9, retryAt := some 9, att := true, retried := true }, ?_, 9, ?_, ?_, ?_, ?_,
      ?_, ?_⟩,
     ⟨liveT .running 1200 fun t => { t with openAt := some (10, 7, true) }, 12, 5, ?_, 10, 7, true, ?_, ?_, ?_⟩⟩ <;>
    first | decide +kernel | (unfold Available; decide +kernel) | (unfold KeeperLive; decide +kernel) | (unfold KeeperCommits; decide +kernel)

set_option Elab.async false in
theorem witness_FailuresRetireOrEnterSafe :
    (∃ (s : State) (dt : Nat) (t : Fin 256) (c : Cycle),
     let k := (s.elapse dt).kp
     let x := s.kp.tasks.get t
     Available s ∧
     KeeperLive s ∧
     x.tstate = 1 ∧
     x.onbarge.toNat = c.barge.val ∧
     bit s.kp.retired c.barge.val = false ∧
     ∃ code due,
     x.cycles.head? = some c ∧
     c.judged = some (code, due) ∧
     ktReached k.kt due = true ∧
     3 ≤ code.toNat ∧
     (x.retry = false ∨ code.toNat = 6 ∨ c.retried = true ∨ x.late < (due - c.start).toNat + x.rtime) ∧
     code.toNat ≤ 6 ∧
     inOrder (s.elapse dt) 1 = true) ∧
    (∃ (s : State) (dt : Nat) (t : Fin 256) (c : Cycle),
     let k := (s.elapse dt).kp
     let x := s.kp.tasks.get t
     Available s ∧
     KeeperLive s ∧
     x.tstate = 1 ∧
     x.onbarge.toNat = c.barge.val ∧
     bit s.kp.retired c.barge.val = false ∧
     x.cycles.getLast? = some c ∧
     c.judged = none ∧
     x.late ≤ (k.kt - c.start).toNat ∧
     inOrder (s.elapse dt) 2 = true) ∧
    (∃ (s : State) (dt : Nat) (t : Fin 256) (c : Cycle),
     let k := (s.elapse dt).kp
     let x := s.kp.tasks.get t
     Available s ∧
     KeeperLive s ∧
     x.tstate = 1 ∧
     x.onbarge.toNat = c.barge.val ∧
     bit s.kp.retired c.barge.val = false ∧
     x.cycles.getLast? = some c ∧
     c.judged = none ∧
     x.late ≤ (k.kt - c.start).toNat ∧
     x.stbyen = true ∧
     bit s.kp.retired x.stby = false ∧
     x.stby ≠ c.barge.val ∧
     inOrder (s.elapse dt) 2 = true ∧
     (∀ j, j ≠ t → (s.kp.tasks.get j).tstate ≠ 1 ∨ (s.kp.tasks.get j).onbarge.toNat ≠ c.barge.val)) ∧
    (∃ (s : State),
     Available s ∧
     s.kp.powered = true ∧
     s.kp.mode ≠ .safe ∧
     ∃ n,
     (n < 940 ∨ 1060 < n)) ∧
    (∃ (s : State),
     Available s ∧
     s.kp.powered = true ∧
     s.kp.mode ≠ .safe) ∧
    (∃ (s : State) (dt : Nat),
     Available s ∧
     s.kp.powered = true ∧
     s.kp.mode ≠ .safe ∧
     inOrder (s.elapse dt) 5 = true) ∧
    (∃ (s : State) (dt : Nat),
     let k := (s.elapse dt).kp
     Available s ∧
     s.kp.powered = true ∧
     s.kp.mode ≠ .safe ∧
     ∃ due a b,
     KeeperCommits s ∧
     s.kp.toggleAt = some due ∧
     ktReached k.kt due = true ∧
     (a ≠ s.kp.safeA ∨ b ≠ s.kp.safeB)) ∧
    (∃ (s : State) (dt : Nat),
     let k := (s.elapse dt).kp
     Available s ∧
     s.kp.powered = true ∧
     s.kp.mode ≠ .safe ∧
     ∃ due,
     KeeperCommits s ∧
     s.kp.toggleAt = some due ∧
     ktReached k.kt due = true) ∧
    (∃ (s : State),
     Available s ∧
     s.kp.powered = true ∧
     s.kp.mode ≠ .safe ∧
     ∃ n,
     940 ≤ n ∧
     n ≤ 1060) := by
  refine
    ⟨⟨liveT .running 1200120 fun t => { t with cycles := [{ start := 0, date := 7, barge := 9, judged := some (6, 10) }, { start := 10, date := 8, barge := 9 }] },
      12, 5, { start := 0, date := 7, barge := 9, judged := some (6, 10) }, ?_, ?_, ?_, ?_, ?_, 6, 10, ?_, ?_, ?_, ?_, ?_,
      ?_, ?_⟩,
     ⟨liveT .running 1800000 fun t => { t with cycles := [{ start := 0, date := 7, barge := 9 }] }, 12, 5,
      { start := 0, date := 7, barge := 9 }, ?_, ?_, ?_, ?_, ?_, ?_, ?_, ?_, ?_⟩,
     ⟨withKp (liveT .running 1800000 fun t => { t with failrun := 0, cycles := [{ start := 0, date := 7, barge := 9 }] }) fun k => { k with logOvf := true },
      12, 5, { start := 0, date := 7, barge := 9 }, ?_, ?_, ?_, ?_, ?_, ?_, ?_, ?_, ?_, ?_, ?_, ?_, ?_⟩,
     ⟨{ liveT .starting 1200 (fun t => t) with tl := { live.tl with link := live.tl.link.map fun l => { l with cfg := l.cfg ||| 5 } } },
      ?_, ?_, ?_, 0, ?_⟩,
     ⟨{ liveT .starting 1200 (fun t => t) with tl := { live.tl with link := live.tl.link.map fun l => { l with cfg := l.cfg ||| 5 } } },
      ?_, ?_, ?_⟩,
     ⟨{ liveT .starting 1200 (fun t => t) with tl := { live.tl with link := live.tl.link.map fun l => { l with cfg := l.cfg ||| 5 } } },
      12, ?_, ?_, ?_, ?_⟩,
     ⟨withKp ({ liveT .running 1200 (fun t => t) with tl := { live.tl with link := live.tl.link.map fun l => { l with cfg := l.cfg ||| 5 } } }) fun k => { k with toggleAt := some 11, safeA := true },
      120, ?_, ?_, ?_, 11, false, false, ?_, ?_, ?_, ?_⟩,
     ⟨withKp ({ liveT .running 1200 (fun t => t) with tl := { live.tl with link := live.tl.link.map fun l => { l with cfg := l.cfg ||| 5 } } }) fun k => { k with toggleAt := some 11, safeA := true },
      120, ?_, ?_, ?_, 11, ?_, ?_, ?_⟩,
     ⟨{ liveT .starting 1200 (fun t => t) with tl := { live.tl with link := live.tl.link.map fun l => { l with cfg := l.cfg ||| 5 } } },
      ?_, ?_, ?_, 940, ?_, ?_⟩⟩ <;>
    first | decide +kernel | (unfold Available; decide +kernel) | (unfold KeeperLive; decide +kernel) | (unfold KeeperCommits; decide +kernel)

set_option Elab.async false in
theorem witness_ReportsReachTheKeeper :
    (∃ (s : State) (g : BargeIx) (cause : BitVec 8) (pc : BitVec 14) (task : BitVec 8) (rest : List SealMsg),
     Available s ∧
     s.kp.powered = true ∧
     s.kp.links.get g = .fault cause pc task :: rest) ∧
    (∃ (s : State) (g : BargeIx) (info : Word) (rest : List SealMsg),
     Available s ∧
     s.kp.powered = true ∧
     s.kp.links.get g = .reset info :: rest ∧
     bit s.kp.retired g.val = false) ∧
    (∃ (s : State) (g : BargeIx) (info : Word) (rest : List SealMsg),
     Available s ∧
     s.kp.powered = true ∧
     s.kp.links.get g = .reset info :: rest ∧
     bit s.kp.retired g.val = true) ∧
    (∃ (s : State) (g : BargeIx) (info : Word) (rest : List SealMsg),
     Available s ∧
     s.kp.powered = true ∧
     s.kp.links.get g = .reset info :: rest) ∧
    (∃ (s : State) (r : RetReport) (rest : List RetReport),
     Available s ∧
     s.kp.powered = true ∧
     s.kp.reports = r :: rest) := by
  refine
    ⟨⟨withKp (liveT .running 1200 fun t => { t with last := 0 }) fun k => { k with links := vput k.links 9 [.fault 0x1E 5 5, .seal 0 0 0] },
      9, 0x1E, 5, 5, [.seal 0 0 0], ?_, ?_, ?_⟩,
     ⟨withKp (liveT .running 1200 fun t => { t with last := 0 }) fun k => { k with links := vput k.links 9 [.reset 0x100, .seal 0 0 0] },
      9, 0x100, [.seal 0 0 0], ?_, ?_, ?_, ?_⟩,
     ⟨withKp (withKp (liveT .running 1200 fun t => { t with last := 0 }) fun k => { k with links := vput k.links 9 [.reset 0x100, .seal 0 0 0] }) fun k => { k with retired := 0x200 },
      9, 0x100, [.seal 0 0 0], ?_, ?_, ?_, ?_⟩,
     ⟨withKp (liveT .running 1200 fun t => { t with last := 0 }) fun k => { k with links := vput k.links 9 [.reset 0x100, .seal 0 0 0] },
      9, 0x100, [.seal 0 0 0], ?_, ?_, ?_⟩,
     ⟨{ liveT .running 1200 (fun t => t) with kp := { (liveT .running 1200 (fun t => t)).kp with reports := [{ kind := 4, index := 191 }] } },
      { kind := 4, index := 191 }, [], ?_, ?_, ?_⟩⟩ <;>
    first | decide +kernel | (unfold Available; decide +kernel)

set_option Elab.async false in
theorem witness_KeeperCommandsAndLoadPortAct :
    (∃ (s : State) (dt : Nat),
     Available s ∧
     s.kp.powered = true ∧
     inOrder (s.elapse dt) 5 = true ∧
     s.kp.mode = .starting ∧
     s.kp.stok = true ∧
     s.crp.pins.ktest = false ∧
     s.kp.testHold = false) ∧
    (∃ (s : State) (dt : Nat),
     Available s ∧
     s.kp.powered = true ∧
     inOrder (s.elapse dt) 5 = true ∧
     s.kp.mode = .armed ∧
     s.kp.comm = false ∧
     (∃ t, (s.kp.tasks.get t).tstate = 1) ∧
     (∀ t, (s.kp.tasks.get t).tstate = 1 → (s.kp.tasks.get t).last = 1 ∨ (s.kp.tasks.get t).last = 2)) ∧
    (∃ (s : State) (dt : Nat),
     Available s ∧
     s.kp.powered = true ∧
     inOrder (s.elapse dt) 5 = true ∧
     ∃ (arg : BitVec 8),
     let x := s.kp.tasks.get arg.toFin
     KeeperLive s ∧
     x.tstate ≠ 1 ∧
     x.barge ≤ 47 ∧
     x.stby ≤ 47 ∧
     (x.stbyen = true → x.stby / 4 = x.barge / 4 ∧ x.stby ≠ x.barge) ∧
     bit s.kp.retired x.barge = false ∧
     10000 ≤ x.period ∧
     x.period ≤ 10000000 ∧
     x.phase < x.period ∧
     x.early < x.late ∧
     x.late ≤ x.period ∧
     x.rtime ≤ x.late ∧
     x.n ≠ 0 ∧
     x.m = 2 ^ (13 * x.n % 61) ∧
     x.c < 2 ^ 61 - 1 ∧
     (∀ r ∈ x.groups, (s.kp.groups.get r).owner = none ∨ (s.kp.groups.get r).owner = some arg)) ∧
    (∃ (s : State) (dt : Nat),
     Available s ∧
     s.kp.powered = true ∧
     inOrder (s.elapse dt) 5 = true ∧
     ∃ (arg : BitVec 8),
     KeeperLive s ∧
     (s.kp.tasks.get arg.toFin).tstate = 1) ∧
    (∃ (s : State) (dt : Nat),
     Available s ∧
     s.kp.powered = true ∧
     inOrder (s.elapse dt) 5 = true ∧
     ∃ (arg : BitVec 8),
     let x := s.kp.tasks.get arg.toFin
     KeeperLive s ∧
     x.tstate ≠ 0) ∧
    (∃ (s : State) (dt : Nat),
     Available s ∧
     s.kp.powered = true ∧
     inOrder (s.elapse dt) 5 = true ∧
     ∃ (arg : BitVec 8) (b : BargeIx),
     arg.toNat = b.val ∧
     KeeperLive s ∧
     bit s.kp.retired b.val = false) ∧
    (∃ (s : State) (dt : Nat),
     Available s ∧
     s.kp.powered = true ∧
     inOrder (s.elapse dt) 5 = true ∧
     ∃ (arg : BitVec 8) (b : BargeIx),
     arg.toNat = b.val) ∧
    (∃ (s : State) (dt : Nat),
     Available s ∧
     s.kp.powered = true ∧
     inOrder (s.elapse dt) 5 = true ∧
     ∃ (arg : BitVec 8) (b : BargeIx),
     arg.toNat = b.val ∧
     KeeperLive s ∧
     (∀ t, (s.kp.tasks.get t).tstate = 1 → (s.kp.tasks.get t).onbarge.toNat ≠ b.val)) ∧
    (∃ (s : State) (dt : Nat),
     Available s ∧
     s.kp.powered = true ∧
     inOrder (s.elapse dt) 5 = true ∧
     s.kp.mode = .degraded ∧
     s.kp.retired = 0 ∧
     (∀ t, (s.kp.tasks.get t).tstate ≠ 2)) ∧
    (∃ (s : State) (dt : Nat),
     Available s ∧
     s.kp.powered = true ∧
     inOrder (s.elapse dt) 5 = true ∧
     ∃ (arg : BitVec 8),
     s.kp.mode = .safe ∧
     ∃ p ∈ ([(1, .arm dt arg (sameCmd 1 arg)), (2, .run dt arg (sameCmd 2 arg)), (3, .startTask dt arg (sameCmd 3 arg)),
      (4, .stopTask dt arg (sameCmd 4 arg)), (5, .retireBarge dt arg (sameCmd 5 arg)), (6, .forceSafe dt arg (sameCmd 6 arg)),
      (8, .restoreBarge dt arg (sameCmd 8 arg)), (9, .clearDegraded dt arg (sameCmd 9 arg))] : List (BitVec 4 × Instr)),
     True) ∧
    (∃ (s : State) (dt : Nat),
     Available s ∧
     s.kp.powered = true ∧
     inOrder (s.elapse dt) 5 = true ∧
     ∃ (v : Word),
     (bitsN v 0 4 = 0 ∨ 10 ≤ bitsN v 0 4)) ∧
    (∃ (s : State) (dt : Nat) (v : Word),
     Available s ∧
     s.kp.powered = true ∧
     inOrder (s.elapse dt) 5 = true ∧
     ∃ (hm1 : LoadWrite),
     hm1 ≠ alike 5 v) ∧
    (∃ (s : State) (dt : Nat) (v : Word),
     Available s ∧
     s.kp.powered = true ∧
     inOrder (s.elapse dt) 5 = true ∧
     ∃ (hm1 : LoadWrite),
     hm1 ≠ alike 4 v) ∧
    (∃ (s : State) (dt : Nat) (v : Word) (t : Fin 256) (w : Fin 16),
     let e := 0x1000 + 16 * t.val + w.val
     Available s ∧
     s.kp.powered = true ∧
     inOrder (s.elapse dt) 5 = true ∧
     ∃ (hm1 : LoadWrite),
     hm1 ≠ alike e v) ∧
    (∃ (s : State) (dt : Nat),
     Available s ∧
     s.kp.powered = true ∧
     inOrder (s.elapse dt) 5 = true) ∧
    (∃ (s : State) (dt : Nat) (t : Fin 256) (w : Fin 16),
     Available s ∧
     s.kp.powered = true ∧
     inOrder (s.elapse dt) 5 = true ∧
     (s.kp.tasks.get t).tstate = 1 ∧
     w.val < 13) ∧
    (∃ (s : State) (dt : Nat) (t : Fin 256) (w : Fin 16),
     Available s ∧
     s.kp.powered = true ∧
     inOrder (s.elapse dt) 5 = true ∧
     ∃ (j : Fin 13),
     j.val = w.val ∧
     (s.kp.tasks.get t).tstate ≠ 1) ∧
    (∃ (s : State) (dt : Nat),
     Available s ∧
     s.kp.powered = true ∧
     inOrder (s.elapse dt) 5 = true ∧
     (∀ x ∈ s.events, x.reg ≠ .kpStat)) ∧
    (∃ (s : State) (dt : Nat),
     Available s ∧
     s.kp.powered = true ∧
     inOrder (s.elapse dt) 5 = true ∧
     kclkOver (s.elapse dt) s.kp.logNew.1 = true) ∧
    (∃ (s : State) (dt : Nat),
     Available s ∧
     s.kp.powered = true ∧
     inOrder (s.elapse dt) 5 = true ∧
     kclkOver (s.elapse dt) s.kp.logNew.1 = false ∧
     s.kp.log.length ≤ s.kp.logNew.2) := by
  refine
    ⟨⟨withKp State.reset fun k => { k with stok := true }, 12, ?_, ?_, ?_, ?_, ?_, ?_, ?_⟩,
     ⟨liveT .armed 1200 fun t => { t with last := 1 }, 12, ?_, ?_, ?_, ?_, ?_, ?_, ?_⟩,
     ⟨withKp (liveT .armed 1200 fun t => { t with tstate := 0 }) fun k => { k with groups := live.kp.groups }, 12, ?_, ?_,
      ?_, 5, ?_, ?_, ?_, ?_, ?_, ?_, ?_, ?_, ?_, ?_, ?_, ?_, ?_, ?_, ?_, ?_⟩,
     ⟨liveT .armed 1200 fun t => { t with last := 1 }, 12, ?_, ?_, ?_, 5, ?_, ?_⟩,
     ⟨(withKp (liveT .armed 1200 fun t => { t with cycles := [{ start := 0, date := 7, barge := 9 }], outstanding := 0 }) fun k => { k with groups := k.groups.set 40 { owner := some 6, gstate := 1 } }),
      12, ?_, ?_, ?_, 5, ?_, ?_⟩,
     ⟨liveT .armed 1200 fun t => { t with last := 1 }, 12, ?_, ?_, ?_, 0, 0, ?_, ?_, ?_⟩,
     ⟨withKp (liveT .starting 1200 fun t => { t with tstate := 0 }) fun k => { k with bf := vput k.bf 9 { events := [3, 4], dates := 6, total := 2 } },
      12, ?_, ?_, ?_, 9, 9, ?_⟩,
     ⟨withKp (liveT .armed 1200 fun t => { t with last := 1 }) fun k => { k with retired := 0x800000000600 }, 12, ?_, ?_, ?_,
      10, 10, ?_, ?_, ?_⟩,
     ⟨liveT .degraded 1200 fun t => { t with last := 1 }, 12, ?_, ?_, ?_, ?_, ?_, ?_⟩,
     ⟨liveT .safe 1200 fun t => { t with last := 1 }, 12, ?_, ?_, ?_, 9, ?_, (1, .arm 12 9 (sameCmd 1 9)), ?_, trivial⟩,
     ⟨liveT .starting 1200 fun t => { t with last := 1 }, 12, ?_, ?_, ?_, 0x10, ?_⟩,
     ⟨liveT .starting 1200 fun t => { t with tstate := 0 }, 12, 0xFFFFFFFFF, ?_, ?_, ?_, alike 9 0xFFFFFFFFF, ?_⟩,
     ⟨liveT .starting 1200 fun t => { t with tstate := 0 }, 12, 0xFFFFFFFFF, ?_, ?_, ?_, alike 9 0xFFFFFFFFF, ?_⟩,
     ⟨liveT .starting 1200 fun t => { t with tstate := 0 }, 12, 0xFFFFFFFFF, 5, 0, ?_, ?_, ?_, alike 9 0xFFFFFFFFF, ?_⟩,
     ⟨liveT .starting 1200 fun t => { t with tstate := 0 }, 12, ?_, ?_, ?_⟩,
     ⟨liveT .armed 1200 fun t => { t with last := 1 }, 12, 5, 0, ?_, ?_, ?_, ?_, ?_⟩,
     ⟨liveT .armed 1200 fun t => { t with tstate := 0 }, 12, 5, 0, ?_, ?_, ?_, 0, ?_, ?_⟩,
     ⟨{ (liveT .starting 1200 fun t => { t with tstate := 0 }) with events := [{ reg := .kpLog, bit := 4, time := 12 }], kp := { (liveT .starting 1200 fun t => { t with tstate := 0 }).kp with lerr := true } },
      12, ?_, ?_, ?_, ?_⟩,
     ⟨withKp (liveT .running 1200 fun t => { t with tstate := 0 }) fun k => { k with log := [] }, 240, ?_, ?_, ?_, ?_⟩,
     ⟨withKp (liveT .running 1200 fun t => { t with tstate := 0 }) fun k => { k with log := [], logNew := (1200, 0) }, 12,
      ?_, ?_, ?_, ?_, ?_⟩⟩ <;>
    first | decide +kernel | (unfold Available; decide +kernel) | (unfold KeeperLive; decide +kernel)

set_option Elab.async false in
theorem witness_StagedValuesCarryTheirGeneration :
    (∃ (s : State) (g : BargeIx) (w : Bool) (d : BitVec 32) (a : Bool) (src : StgWriter),
     Available s ∧
     (src = .window g w d a ∨ src = .bridge) ∧
     let heard := src = .bridge ∨ bit s.kp.retired g.val = false
     ∃ (n : Fin 192),
     let c := s.pwm.ch.get n
     (c.st = 2 ∨ isPartner s n = true ∨ ¬ heard)) ∧
    (∃ (s : State) (g : BargeIx) (w : Bool) (d : BitVec 32) (a : Bool) (src : StgWriter),
     Available s ∧
     (src = .window g w d a ∨ src = .bridge) ∧
     let heard := src = .bridge ∨ bit s.kp.retired g.val = false
     ∃ (n : Fin 192),
     let c := s.pwm.ch.get n
     let admits := src = .bridge ∨ pwmAdmits s g w n = true
     c.st ≠ 2 ∧
     isPartner s n = false ∧
     admits ∧
     heard ∧
     c.vital = true ∧
     src ≠ .bridge) ∧
    (∃ (s : State) (g : BargeIx) (w : Bool) (d : BitVec 32) (a : Bool) (src : StgWriter),
     Available s ∧
     (src = .window g w d a ∨ src = .bridge) ∧
     let heard := src = .bridge ∨ bit s.kp.retired g.val = false
     ∃ (n : Fin 192),
     let c := s.pwm.ch.get n
     let admits := src = .bridge ∨ pwmAdmits s g w n = true
     c.st ≠ 2 ∧
     isPartner s n = false ∧
     admits ∧
     heard ∧
     c.vital = true ∧
     src = .bridge) ∧
    (∃ (s : State) (v : Word) (g : BargeIx) (w : Bool) (d : BitVec 32) (a : Bool) (src : StgWriter),
     Available s ∧
     (src = .window g w d a ∨ src = .bridge) ∧
     let heard := src = .bridge ∨ bit s.kp.retired g.val = false
     ∃ (n : Fin 192),
     let c := s.pwm.ch.get n
     let admits := src = .bridge ∨ pwmAdmits s g w n = true
     c.st ≠ 2 ∧
     isPartner s n = false ∧
     admits ∧
     heard ∧
     c.vital = false ∧
     let x : BitVec 24 := v.setWidth 24
     validX (s.pwm.tb.get c.tb) c x.toInt = true) ∧
    (∃ (s : State) (v : Word) (g : BargeIx) (w : Bool) (d : BitVec 32) (a : Bool) (src : StgWriter),
     Available s ∧
     (src = .window g w d a ∨ src = .bridge) ∧
     let heard := src = .bridge ∨ bit s.kp.retired g.val = false
     ∃ (n : Fin 192),
     let c := s.pwm.ch.get n
     let admits := src = .bridge ∨ pwmAdmits s g w n = true
     c.st ≠ 2 ∧
     isPartner s n = false ∧
     admits ∧
     heard ∧
     c.vital = false ∧
     let x : BitVec 24 := v.setWidth 24
     validX (s.pwm.tb.get c.tb) c x.toInt = false) ∧
    (∃ (s : State) (g : BargeIx) (w : Bool) (d : BitVec 32) (a : Bool) (src : StgWriter),
     Available s ∧
     (src = .window g w d a ∨ src = .bridge) ∧
     let heard := src = .bridge ∨ bit s.kp.retired g.val = false
     ∃ (n : Fin 128),
     let c := s.fio.fo.get n
     (c.st = 2 ∨ ¬ heard)) ∧
    (∃ (s : State) (g : BargeIx) (w : Bool) (d : BitVec 32) (a : Bool) (src : StgWriter),
     Available s ∧
     (src = .window g w d a ∨ src = .bridge) ∧
     let heard := src = .bridge ∨ bit s.kp.retired g.val = false
     ∃ (n : Fin 128),
     let c := s.fio.fo.get n
     let admits := src = .bridge ∨ foAdmits s g w n = true
     c.st ≠ 2 ∧
     admits ∧
     heard ∧
     c.vital = true ∧
     src ≠ .bridge) ∧
    (∃ (s : State) (g : BargeIx) (w : Bool) (d : BitVec 32) (a : Bool) (src : StgWriter),
     Available s ∧
     (src = .window g w d a ∨ src = .bridge) ∧
     let heard := src = .bridge ∨ bit s.kp.retired g.val = false
     ∃ (n : Fin 128),
     let c := s.fio.fo.get n
     let admits := src = .bridge ∨ foAdmits s g w n = true
     c.st ≠ 2 ∧
     admits ∧
     heard ∧
     c.vital = true ∧
     src = .bridge) ∧
    (∃ (s : State) (v : Word) (g : BargeIx) (w : Bool) (d : BitVec 32) (a : Bool) (src : StgWriter),
     Available s ∧
     (src = .window g w d a ∨ src = .bridge) ∧
     let heard := src = .bridge ∨ bit s.kp.retired g.val = false
     ∃ (n : Fin 128),
     let c := s.fio.fo.get n
     let admits := src = .bridge ∨ foAdmits s g w n = true
     c.st ≠ 2 ∧
     admits ∧
     heard ∧
     c.vital = false ∧
     v ≠ 0 ∧
     v ≠ 1) ∧
    (∃ (s : State) (v : Word) (g : BargeIx) (w : Bool) (d : BitVec 32) (a : Bool) (src : StgWriter),
     Available s ∧
     (src = .window g w d a ∨ src = .bridge) ∧
     let heard := src = .bridge ∨ bit s.kp.retired g.val = false
     ∃ (n : Fin 128),
     let c := s.fio.fo.get n
     let admits := src = .bridge ∨ foAdmits s g w n = true
     c.st ≠ 2 ∧
     admits ∧
     heard ∧
     c.vital = false ∧
     c.en = false ∧
     (v = 0 ∨ v = 1)) ∧
    (∃ (s : State) (v : Word) (g : BargeIx) (w : Bool) (d : BitVec 32) (a : Bool) (src : StgWriter),
     Available s ∧
     (src = .window g w d a ∨ src = .bridge) ∧
     let heard := src = .bridge ∨ bit s.kp.retired g.val = false
     ∃ (n : Fin 128),
     let c := s.fio.fo.get n
     let admits := src = .bridge ∨ foAdmits s g w n = true
     c.st ≠ 2 ∧
     admits ∧
     heard ∧
     c.vital = false ∧
     c.en = true ∧
     (v = 0 ∨ v = 1)) ∧
    (∃ (s : State) (g : BargeIx) (w : Bool) (d : BitVec 32) (a : Bool) (src : StgWriter),
     Available s ∧
     (src = .window g w d a ∨ src = .bridge) ∧
     let heard := src = .bridge ∨ bit s.kp.retired g.val = false
     ∃ (n : Fin 16) (j : Fin 64),
     let l := s.tl.link.get n
     (l.outlen ≤ j.val ∨ ¬ heard)) ∧
    (∃ (s : State) (g : BargeIx) (w : Bool) (d : BitVec 32) (a : Bool) (src : StgWriter),
     Available s ∧
     (src = .window g w d a ∨ src = .bridge) ∧
     let heard := src = .bridge ∨ bit s.kp.retired g.val = false
     ∃ (n : Fin 16) (j : Fin 64),
     let l := s.tl.link.get n
     let admits := src = .bridge ∨ tlAdmits s g w n = true
     j.val < l.outlen ∧
     admits ∧
     heard ∧
     l.vital = true ∧
     src ≠ .bridge) ∧
    (∃ (s : State) (g : BargeIx) (w : Bool) (d : BitVec 32) (a : Bool) (src : StgWriter),
     Available s ∧
     (src = .window g w d a ∨ src = .bridge) ∧
     let heard := src = .bridge ∨ bit s.kp.retired g.val = false
     ∃ (n : Fin 16) (j : Fin 64),
     let l := s.tl.link.get n
     let admits := src = .bridge ∨ tlAdmits s g w n = true
     j.val < l.outlen ∧
     admits ∧
     heard ∧
     l.vital = true ∧
     src = .bridge) ∧
    (∃ (s : State) (g : BargeIx) (w : Bool) (d : BitVec 32) (a : Bool) (src : StgWriter),
     Available s ∧
     (src = .window g w d a ∨ src = .bridge) ∧
     let heard := src = .bridge ∨ bit s.kp.retired g.val = false
     ∃ (n : Fin 16) (j : Fin 64),
     let l := s.tl.link.get n
     let admits := src = .bridge ∨ tlAdmits s g w n = true
     j.val < l.outlen ∧
     admits ∧
     heard ∧
     l.vital = false) := by
  refine
    ⟨⟨live.modPwm 4 fun c => { c with cfg := 2867, ores := 0x324D2, st := 2 }, 8, true, 7, true, .window 8 true 7 true, ?_,
      ?_, 4, ?_⟩,
     ⟨live.modPwm 4 fun c => { c with cfg := 2867, ores := 0x324D2 }, 8, true, 7, true, .window 8 true 7 true, ?_, ?_, 4, ?_,
      ?_, ?_, ?_, ?_, ?_⟩,
     ⟨live.modPwm 4 fun c => { c with cfg := 2867, ores := 0x324D2 }, 8, true, 7, true, .bridge, ?_, ?_, 4, ?_, ?_, ?_, ?_,
      ?_, ?_⟩,
     ⟨live.modPwm 4 fun c => { c with cfg := 3, ores := 0x324D2 }, 64000, 8, true, 7, true, .window 8 true 7 true, ?_, ?_, 4,
      ?_, ?_, ?_, ?_, ?_, ?_⟩,
     ⟨live.modPwm 4 fun c => { c with cfg := 3, ores := 0x324D2 }, 0xFFFFFF, 8, true, 7, true, .window 8 true 7 true, ?_, ?_,
      4, ?_, ?_, ?_, ?_, ?_, ?_⟩,
     ⟨live.modFo 4 fun c => { c with cfg := 0x1914817, ores := 0x324D2, st := 2 }, 8, true, 7, true, .window 8 true 7 true,
      ?_, ?_, 4, ?_⟩,
     ⟨live.modFo 4 fun c => { c with cfg := 0x1914817, ores := 0x324D2 }, 8, true, 7, true, .window 8 true 7 true, ?_, ?_, 4,
      ?_, ?_, ?_, ?_, ?_⟩,
     ⟨live.modFo 4 fun c => { c with cfg := 0x1914817, ores := 0x324D2 }, 8, true, 7, true, .bridge, ?_, ?_, 4, ?_, ?_, ?_,
      ?_, ?_⟩,
     ⟨live.modFo 4 fun c => { c with cfg := 0x1914801, ores := 0x324D2 }, 2, 8, true, 7, true, .window 8 true 7 true, ?_, ?_,
      4, ?_, ?_, ?_, ?_, ?_, ?_⟩,
     ⟨live.modFo 4 fun c => { c with cfg := 0x1914800, ores := 0x324D2 }, 0, 8, true, 7, true, .window 8 true 7 true, ?_, ?_,
      4, ?_, ?_, ?_, ?_, ?_, ?_⟩,
     ⟨live.modFo 4 fun c => { c with cfg := 0x1914801, ores := 0x324D2 }, 0, 8, true, 7, true, .window 8 true 7 true, ?_, ?_,
      4, ?_, ?_, ?_, ?_, ?_, ?_⟩,
     ⟨live.modLink 4 fun c => { c with cfg := 38609275, rxcfg := 0x3000001, rxdst := 0x10002 }, 8, true, 7, true,
      .window 8 true 7 true, ?_, ?_, 4, 2, ?_⟩,
     ⟨live.modLink 4 fun c => { c with cfg := 38609275, rxcfg := 0x3000001, rxdst := 0x10002 }, 8, true, 7, true,
      .window 8 true 7 true, ?_, ?_, 4, 0, ?_, ?_, ?_, ?_, ?_⟩,
     ⟨live.modLink 4 fun c => { c with cfg := 38609275, rxcfg := 0x3000001, rxdst := 0x10002 }, 8, true, 7, true, .bridge,
      ?_, ?_, 4, 1, ?_, ?_, ?_, ?_, ?_⟩,
     ⟨live.modLink 4 fun c => { c with cfg := 33554459, rxcfg := 0x3000001, rxdst := 0x10002 }, 8, true, 7, true,
      .window 8 true 7 true, ?_, ?_, 4, 0, ?_, ?_, ?_, ?_⟩⟩ <;>
    first | decide +kernel | (unfold Available; decide +kernel)

set_option Elab.async false in
theorem witness_CommitsApplyTheirGeneration :
    (∃ (s : State),
     Available s ∧
     s.pwm.gates = []) ∧
    (∃ (s : State) (dt : Nat) (r : BitVec 6) (d : BitVec 32) (a : Bool) (since : Nat) (rest : List GateMsg),
     Available s ∧
     s.pwm.gates = .opening r d a since :: rest ∧
     (s.now + dt) / 120 ≤ since / 120) ∧
    (∃ (s : State) (dt : Nat) (r : BitVec 6) (d : BitVec 32) (a : Bool) (since : Nat) (rest : List GateMsg),
     Available s ∧
     s.pwm.gates = .opening r d a since :: rest ∧
     since / 120 < (s.now + dt) / 120) ∧
    (∃ (s : State),
     Available s ∧
     s.fio.gates = []) ∧
    (∃ (s : State) (dt : Nat) (r : BitVec 6) (d : BitVec 32) (a : Bool) (since : Nat) (rest : List GateMsg),
     Available s ∧
     s.fio.gates = .opening r d a since :: rest ∧
     (s.now + dt) / 120 ≤ since / 120) ∧
    (∃ (s : State) (dt : Nat) (r : BitVec 6) (d : BitVec 32) (a : Bool) (since : Nat) (rest : List GateMsg),
     Available s ∧
     s.fio.gates = .opening r d a since :: rest ∧
     since / 120 < (s.now + dt) / 120) ∧
    (∃ (s : State) (n : Fin 16),
     let l := s.tl.link.get n
     Available s ∧
     l.gates = []) ∧
    (∃ (s : State) (dt : Nat) (n : Fin 16) (r : BitVec 6) (d : BitVec 32) (a : Bool) (since : Nat) (rest : List GateMsg),
     let l := s.tl.link.get n
     Available s ∧
     l.gates = .opening r d a since :: rest ∧
     (s.now + dt) / 120 ≤ since / 120) ∧
    (∃ (s : State) (dt : Nat) (n : Fin 16) (r : BitVec 6) (d : BitVec 32) (a : Bool) (since : Nat) (rest : List GateMsg),
     let l := s.tl.link.get n
     Available s ∧
     l.gates = .opening r d a since :: rest ∧
     since / 120 < (s.now + dt) / 120 ∧
     ¬ (l.en = true ∧ l.vital = true ∧ l.group = r ∧ l.retired = false)) ∧
    (∃ (s : State) (dt : Nat) (n : Fin 16) (r : BitVec 6) (d : BitVec 32) (a : Bool) (since : Nat) (rest : List GateMsg),
     let l := s.tl.link.get n
     let hit (j : Fin 64) : Bool := (l.stg.get j).any fun x => x.date == d && x.att == a && decide (j.val < l.outlen)
     Available s ∧
     l.gates = .opening r d a since :: rest ∧
     since / 120 < (s.now + dt) / 120 ∧
     l.en = true ∧
     l.vital = true ∧
     l.group = r ∧
     l.retired = false ∧
     (∀ j, hit j = false)) ∧
    (∃ (s : State) (dt : Nat) (n : Fin 16) (dis : Bool) (r : BitVec 6) (d : BitVec 32) (a : Bool) (since : Nat) (rest : List GateMsg),
     let l := s.tl.link.get n
     let hit (j : Fin 64) : Bool := (l.stg.get j).any fun x => x.date == d && x.att == a && decide (j.val < l.outlen)
     let coded (j : Fin 64) : Bool := match (l.stg.get j).map fun x => decodeCoded x.value ((l.obase + j.val) % 4093) with
      | some (.ok _) => true
      | _ => false
     Available s ∧
     l.gates = .opening r d a since :: rest ∧
     since / 120 < (s.now + dt) / 120 ∧
     l.en = true ∧
     l.vital = true ∧
     l.group = r ∧
     l.retired = false ∧
     (∃ j, hit j = true) ∧
     (∀ j, hit j = true → coded j = true) ∧
     dis = false) ∧
    (∃ (s : State) (dt : Nat) (n : Fin 16) (dis : Bool) (r : BitVec 6) (d : BitVec 32) (a : Bool) (since : Nat) (rest : List GateMsg),
     let l := s.tl.link.get n
     let hit (j : Fin 64) : Bool := (l.stg.get j).any fun x => x.date == d && x.att == a && decide (j.val < l.outlen)
     let coded (j : Fin 64) : Bool := match (l.stg.get j).map fun x => decodeCoded x.value ((l.obase + j.val) % 4093) with
      | some (.ok _) => true
      | _ => false
     Available s ∧
     l.gates = .opening r d a since :: rest ∧
     since / 120 < (s.now + dt) / 120 ∧
     l.en = true ∧
     l.vital = true ∧
     l.group = r ∧
     l.retired = false ∧
     (∃ j, hit j = true) ∧
     (dis = true ∨ (∃ j, hit j = true ∧ coded j = false))) := by
  refine
    ⟨⟨((((((live.modPwm 0 fun c => { c with cfg := 2867, ores := 0x324D2, pend := some (1, 2), stg := some { value := encodeCoded 64000 1234, date := 7, att := true } }).modPwm 2 fun c => { c with cfg := 2867, ores := 0x324D2, pend := some (1, 2), stg := some { value := encodeCoded 64000 1234 + 1, date := 7, att := true } }).modPwm 4 fun c => { c with cfg := 2867, ores := 0x324D2, stg := some { value := encodeCoded 64000 1234, date := 8, att := true } }).modPwm 6 fun c => { c with cfg := 2867 + 512, ores := 0x324D2, stg := some { value := encodeCoded 64000 1234, date := 7, att := true } }).modPwm 8 fun c => { c with cfg := 2867, ores := 0x324D2 }).modPwm 10 fun c => { c with cfg := 2866, stg := some { value := encodeCoded 64000 1234, date := 7, att := true } }),
      ?_, ?_⟩,
     ⟨{ (withPwm (((((((((live.modPwm 0 fun c => { c with cfg := 2867, ores := 0x324D2, pend := some (1, 2), stg := some { value := encodeCoded 64000 1234, date := 7, att := true } }).modPwm 2 fun c => { c with cfg := 2867, ores := 0x324D2, pend := some (1, 2), stg := some { value := encodeCoded 64000 1234 + 1, date := 7, att := true } }).modPwm 4 fun c => { c with cfg := 2867, ores := 0x324D2, stg := some { value := encodeCoded 64000 1234, date := 8, att := true } }).modPwm 6 fun c => { c with cfg := 2867 + 512, ores := 0x324D2, stg := some { value := encodeCoded 64000 1234, date := 7, att := true } }).modPwm 8 fun c => { c with cfg := 2867, ores := 0x324D2 }).modPwm 10 fun c => { c with cfg := 2866, stg := some { value := encodeCoded 64000 1234, date := 7, att := true } }).modPwm 12 fun c => { c with cfg := 2867, ores := 0x324D2, st := 0, fresh := false, appl := some 5 }).modPwm 14 fun c => { c with cfg := 2867, ores := 0x324D2, stg := some { value := encodeCoded 64000 1234, date := 8, att := true }, st := 0, fresh := false, appl := some 5 })) fun x => { x with gates := [.opening 5 7 true 100, .safeAll] }) with now := 100 },
      0, 5, 7, true, 100, [.safeAll], ?_, ?_, ?_⟩,
     ⟨withPwm (((((((((live.modPwm 0 fun c => { c with cfg := 2867, ores := 0x324D2, pend := some (1, 2), stg := some { value := encodeCoded 64000 1234, date := 7, att := true } }).modPwm 2 fun c => { c with cfg := 2867, ores := 0x324D2, pend := some (1, 2), stg := some { value := encodeCoded 64000 1234 + 1, date := 7, att := true } }).modPwm 4 fun c => { c with cfg := 2867, ores := 0x324D2, stg := some { value := encodeCoded 64000 1234, date := 8, att := true } }).modPwm 6 fun c => { c with cfg := 2867 + 512, ores := 0x324D2, stg := some { value := encodeCoded 64000 1234, date := 7, att := true } }).modPwm 8 fun c => { c with cfg := 2867, ores := 0x324D2 }).modPwm 10 fun c => { c with cfg := 2866, stg := some { value := encodeCoded 64000 1234, date := 7, att := true } }).modPwm 12 fun c => { c with cfg := 2867, ores := 0x324D2, st := 0, fresh := false, appl := some 5 }).modPwm 14 fun c => { c with cfg := 2867, ores := 0x324D2, stg := some { value := encodeCoded 64000 1234, date := 8, att := true }, st := 0, fresh := false, appl := some 5 })) fun x => { x with gates := [.opening 5 7 true 100, .safeAll] },
      120, 5, 7, true, 100, [.safeAll], ?_, ?_, ?_⟩,
     ⟨((((((live.modFo 0 fun c => { c with cfg := 0x1914817, ores := 0x324D2, stg := some { value := encodeCoded 1 1234, date := 7, att := true } }).modFo 2 fun c => { c with cfg := 0x1914817, ores := 0x324D2, appl := some true, stg := some { value := encodeCoded 2 1234, date := 7, att := true } }).modFo 4 fun c => { c with cfg := 0x1914817, ores := 0x324D2, stg := some { value := encodeCoded 1 1234, date := 8, att := true } }).modFo 6 fun c => { c with cfg := 0x1914813, ores := 0x324D2, stg := some { value := encodeCoded 1 1234, date := 7, att := true } }).modFo 8 fun c => { c with cfg := 0x1914817, ores := 0x324D2 }).modFo 10 fun c => { c with cfg := 0x1914817, ores := 0x324D2, stg := some { value := encodeCoded 0 1234, date := 7, att := true } }),
      ?_, ?_⟩,
     ⟨{ (withFio (((((((((live.modFo 0 fun c => { c with cfg := 0x1914817, ores := 0x324D2, stg := some { value := encodeCoded 1 1234, date := 7, att := true } }).modFo 2 fun c => { c with cfg := 0x1914817, ores := 0x324D2, appl := some true, stg := some { value := encodeCoded 2 1234, date := 7, att := true } }).modFo 4 fun c => { c with cfg := 0x1914817, ores := 0x324D2, stg := some { value := encodeCoded 1 1234, date := 8, att := true } }).modFo 6 fun c => { c with cfg := 0x1914813, ores := 0x324D2, stg := some { value := encodeCoded 1 1234, date := 7, att := true } }).modFo 8 fun c => { c with cfg := 0x1914817, ores := 0x324D2 }).modFo 10 fun c => { c with cfg := 0x1914817, ores := 0x324D2, stg := some { value := encodeCoded 0 1234, date := 7, att := true } }).modFo 12 fun c => { c with cfg := 0x1914817, ores := 0x324D2, st := 0, fresh := false, appl := some true }).modFo 11 fun c => { c with cfg := 0x1914817, ores := 0x324D2, stg := some { value := encodeCoded 1 1234, date := 8, att := true }, st := 0, fresh := false, appl := some true })) fun x => { x with gates := [.opening 5 7 true 100, .safeAll] }) with now := 100 },
      0, 5, 7, true, 100, [.safeAll], ?_, ?_, ?_⟩,
     ⟨withFio (((((((((live.modFo 0 fun c => { c with cfg := 0x1914817, ores := 0x324D2, stg := some { value := encodeCoded 1 1234, date := 7, att := true } }).modFo 2 fun c => { c with cfg := 0x1914817, ores := 0x324D2, appl := some true, stg := some { value := encodeCoded 2 1234, date := 7, att := true } }).modFo 4 fun c => { c with cfg := 0x1914817, ores := 0x324D2, stg := some { value := encodeCoded 1 1234, date := 8, att := true } }).modFo 6 fun c => { c with cfg := 0x1914813, ores := 0x324D2, stg := some { value := encodeCoded 1 1234, date := 7, att := true } }).modFo 8 fun c => { c with cfg := 0x1914817, ores := 0x324D2 }).modFo 10 fun c => { c with cfg := 0x1914817, ores := 0x324D2, stg := some { value := encodeCoded 0 1234, date := 7, att := true } }).modFo 12 fun c => { c with cfg := 0x1914817, ores := 0x324D2, st := 0, fresh := false, appl := some true }).modFo 11 fun c => { c with cfg := 0x1914817, ores := 0x324D2, stg := some { value := encodeCoded 1 1234, date := 8, att := true }, st := 0, fresh := false, appl := some true })) fun x => { x with gates := [.opening 5 7 true 100, .safeAll] },
      120, 5, 7, true, 100, [.safeAll], ?_, ?_, ?_⟩,
     ⟨live.modLink 4 fun c => { c with cfg := 55386491, rxcfg := 0x3000001, rxdst := 0x10002 }, 4, ?_, ?_⟩,
     ⟨{ (live.modLink 4 fun c => { c with cfg := 55386491, rxcfg := 0x3000001, rxdst := 0x10002, gates := [.opening 5 7 true 100, .safeAll], stg := (Vector.replicate 64 none) }) with now := 100 },
      0, 4, 5, 7, true, 100, [.safeAll], ?_, ?_, ?_⟩,
     ⟨live.modLink 4 fun c => { c with gates := [.opening 5 7 true 100, .safeAll] }, 120, 4, 5, 7, true, 100, [.safeAll], ?_,
      ?_, ?_, ?_⟩,
     ⟨live.modLink 4 fun c => { c with cfg := 55386491, rxcfg := 0x3000001, rxdst := 0x10002, gates := [.opening 5 7 true 100, .safeAll], stg := (Vector.replicate 64 none) },
      120, 4, 5, 7, true, 100, [.safeAll], ?_, ?_, ?_, ?_, ?_, ?_, ?_, ?_⟩,
     ⟨live.modLink 4 fun c => { c with cfg := 55386491, rxcfg := 0x3000001, rxdst := 0x10002, gates := [.opening 5 7 true 100, .safeAll], stg := ((Vector.replicate 64 none).set 1 (some { value := encodeCoded 77 1235, date := 7, att := true })).set 2 (some { value := 5, date := 6, att := true }) },
      120, 4, false, 5, 7, true, 100, [.safeAll], ?_, ?_, ?_, ?_, ?_, ?_, ?_, ?_, ?_, ?_⟩,
     ⟨live.modLink 4 fun c => { c with cfg := 55386491, rxcfg := 0x3000001, rxdst := 0x10002, gates := [.opening 5 7 true 100, .safeAll], stg := ((Vector.replicate 64 none).set 1 (some { value := encodeCoded 77 1235, date := 7, att := true })).set 2 (some { value := 5, date := 6, att := true }) },
      120, 4, true, 5, 7, true, 100, [.safeAll], ?_, ?_, ?_, ?_, ?_, ?_, ?_, ?_, ?_⟩⟩ <;>
    first | decide +kernel | (unfold Available; decide +kernel)

set_option Elab.async false in
theorem witness_TimebasesPlaceBoundaries :
    (∃ (s : State) (m : Fin 16),
     let t := s.pwm.tb.get m
     Available s ∧
     ∃ e,
     t.en = e) ∧
    (∃ (s : State) (m : Fin 16),
     let t := s.pwm.tb.get m
     let follows := ∃ k : Fin 16, t.src.toNat = k.val ∧ (s.pwm.tb.get k).en = true ∧ (s.pwm.tb.get k).per = t.per ∧
      t.ofs.toNat < t.per.toNat ∧ chainFree s.pwm.tb m 16 k.val = true
     Available s ∧
     t.en = false ∧
     25 ≤ t.per.toNat ∧
     (t.mode ≠ 1 ∨ follows)) ∧
    (∃ (s : State) (m : Fin 16),
     let t := s.pwm.tb.get m
     let follows := ∃ k : Fin 16, t.src.toNat = k.val ∧ (s.pwm.tb.get k).en = true ∧ (s.pwm.tb.get k).per = t.per ∧
      t.ofs.toNat < t.per.toNat ∧ chainFree s.pwm.tb m 16 k.val = true
     Available s ∧
     t.en = false ∧
     (t.per.toNat < 25 ∨ (t.mode = 1 ∧ ¬ follows))) ∧
    (∃ (s : State) (m : Fin 16),
     let t := s.pwm.tb.get m
     let used := (∃ n, (s.pwm.ch.get n).en = true ∧ (leadOf s n).tb = m) ∨
      ∃ k, (s.pwm.tb.get k).en = true ∧ (s.pwm.tb.get k).mode = 1 ∧ (s.pwm.tb.get k).src.toNat = m.val
     Available s ∧
     t.en = true ∧
     used) ∧
    (∃ (s : State) (m : Fin 16),
     let t := s.pwm.tb.get m
     let used := (∃ n, (s.pwm.ch.get n).en = true ∧ (leadOf s n).tb = m) ∨
      ∃ k, (s.pwm.tb.get k).en = true ∧ (s.pwm.tb.get k).mode = 1 ∧ (s.pwm.tb.get k).src.toNat = m.val
     Available s ∧
     t.en = true ∧
     ¬ used) ∧
    (∃ (s : State) (dt : Nat) (m : Fin 16) (b : Nat),
     let t := s.pwm.tb.get m
     let now := (s.now + dt) / 24
     let due := (t.mode = 0 ∧ (t.lastB.map (· + t.per.toNat)).getD (t.since + 1) = b) ∨
      (t.mode = 1 ∧ (∃ k : Fin 16, t.src.toNat = k.val ∧ (s.pwm.tb.get k).lastB.map (· + t.ofs.toNat) = some b) ∧
        t.since < b ∧ t.lastB.all (· < b) = true) ∨
      (t.mode = 2 ∧ t.lastB.map (· + t.per.toNat) = some b) ∨
      (t.mode = 2 ∧ t.lastB = none ∧ b = now ∧ t.since < now ∧
        (s.now + dt) % 24 / 12 ≤ ((s.elapse dt).crp.stTime.setWidth 36 - t.start : Word).toNat ∧
        ((s.elapse dt).crp.stTime.setWidth 36 - t.start : Word).toNat < 34359738368) ∨
      (t.mode = 3 ∧ t.zxDue = some b)
     Available s ∧
     t.en = true ∧
     due ∧
     b ≤ now) ∧
    (∃ (s : State) (dt : Nat) (m : Fin 16) (b : Nat),
     let t := s.pwm.tb.get m
     let now := (s.now + dt) / 24
     let due := (t.mode = 0 ∧ (t.lastB.map (· + t.per.toNat)).getD (t.since + 1) = b) ∨
      (t.mode = 1 ∧ (∃ k : Fin 16, t.src.toNat = k.val ∧ (s.pwm.tb.get k).lastB.map (· + t.ofs.toNat) = some b) ∧
        t.since < b ∧ t.lastB.all (· < b) = true) ∨
      (t.mode = 2 ∧ t.lastB.map (· + t.per.toNat) = some b) ∨
      (t.mode = 2 ∧ t.lastB = none ∧ b = now ∧ t.since < now ∧
        (s.now + dt) % 24 / 12 ≤ ((s.elapse dt).crp.stTime.setWidth 36 - t.start : Word).toNat ∧
        ((s.elapse dt).crp.stTime.setWidth 36 - t.start : Word).toNat < 34359738368) ∨
      (t.mode = 3 ∧ t.zxDue = some b)
     Available s ∧
     (t.en = false ∨ (due ∧ now < b))) ∧
    (∃ (s : State) (dt : Nat) (m : Fin 16) (b : Nat),
     let t := s.pwm.tb.get m
     let now := (s.now + dt) / 24
     Available s ∧
     t.en = true ∧
     t.mode = 3 ∧
     t.lastB.map (· + t.per.toNat) = some b ∧
     t.zxDue.all (b < ·) = true ∧
     b ≤ now) ∧
    (∃ (s : State) (m : Fin 16),
     let t := s.pwm.tb.get m
     Available s ∧
     (t.en = false ∨ t.mode ≠ 3 ∨ t.lastB = none)) := by
  refine
    ⟨⟨(live).modTb 3 fun t => { t with en := true }, 3, ?_, true, ?_⟩,
     ⟨(live).modTb 3 fun t => { t with per := 25, bpos := 3 }, 3, ?_, ?_, ?_, ?_⟩,
     ⟨(live).modTb 3 fun t => { t with per := 24 }, 3, ?_, ?_, ?_⟩,
     ⟨(live.modPwm 4 fun c => { c with cfg := 2867, ores := 0x324D2 }).modTb 3 fun t => { t with en := true }, 3, ?_, ?_, ?_⟩,
     ⟨(live).modTb 3 fun t => { t with en := true, lastB := some 3 }, 3, ?_, ?_, ?_⟩,
     ⟨(live.modPwm 4 fun c => { c with cfg := 2867, ores := 0x324D2, pend := some (64000, 24000) }).modTb 3 fun t => { t with en := true, lastB := some 0, bpos := 0 },
      24000, 3, 1000, ?_, ?_, ?_, ?_⟩,
     ⟨(live).modTb 3 fun t => { t with en := true, since := 4, bpos := 3, slotcnt := 3 }, 96, 3, 5, ?_, ?_⟩,
     ⟨(live).modTb 3 fun t => { t with en := true, mode := 3, lastB := some 2 }, 24048, 3, 1002, ?_, ?_, ?_, ?_, ?_, ?_⟩,
     ⟨(live).modTb 3 fun t => { t with per := 30 }, 3, ?_, ?_⟩⟩ <;>
    first | decide +kernel | (unfold Available; decide +kernel)

set_option Elab.async false in
theorem witness_TripsAndReadbackProtectOutputs :
    (∃ (s : State) (dt : Nat),
     Available s ∧
     ∃ (z : Fin 32),
     let x := s.pwm.tz.get z
     let now := (s.now + dt) / 24
     let since := x.orSince.getD now
     let filt := bitsN x.src2 20 3
     zoneOr s x = true ∧
     x.act = false ∧
     since + filt < now) ∧
    (∃ (s : State) (dt : Nat),
     Available s ∧
     ∃ (z : Fin 32),
     let x := s.pwm.tz.get z
     let now := (s.now + dt) / 24
     let since := x.orSince.getD now
     let filt := bitsN x.src2 20 3
     zoneOr s x = true ∧
     x.act = false ∧
     now ≤ since + filt) ∧
    (∃ (s : State),
     Available s ∧
     ∃ (z : Fin 32),
     let x := s.pwm.tz.get z
     zoneOr s x = true ∧
     x.act = true) ∧
    (∃ (s : State),
     Available s ∧
     ∃ (z : Fin 32),
     let x := s.pwm.tz.get z
     zoneOr s x = false) ∧
    (∃ (s : State),
     Available s ∧
     ∃ (n : Fin 192),
     let c := s.pwm.ch.get n
     let quiet := ∀ z : Fin 32, bit c.tzmask z.val = true → (s.pwm.tz.get z).act = false
     quiet) ∧
    (∃ (s : State),
     Available s ∧
     ∃ (n : Fin 192),
     let c := s.pwm.ch.get n
     let quiet := ∀ z : Fin 32, bit c.tzmask z.val = true → (s.pwm.tz.get z).act = false
     ¬ quiet) ∧
    (∃ (s : State),
     Available s ∧
     ∃ (n : Fin 192),
     ∃ (g : BargeIx),
     pwmAdmits s g (pswW (s.barges.get g).psw) n = true) ∧
    (∃ (s : State) (dt : Nat),
     Available s ∧
     ∃ (n : Fin 192),
     let c := s.pwm.ch.get n
     let k := (s.now + dt) / 24 - (phaseNow (s.elapse dt) n).2 / 64
     let sampled := c.en = true ∧ c.rben = true ∧ c.rbset ≤ k ∧ (k - c.rbset) % 125 = 0 ∧
      c.sampledAt ≠ some ((s.now + dt) / 24)
     (¬ sampled ∨ pwmDrive (s.elapse dt) n = .z)) ∧
    (∃ (s : State) (dt : Nat),
     Available s ∧
     ∃ (n : Fin 192) (driven : Bool),
     let c := s.pwm.ch.get n
     let k := (s.now + dt) / 24 - (phaseNow (s.elapse dt) n).2 / 64
     let sampled := c.en = true ∧ c.rben = true ∧ c.rbset ≤ k ∧ (k - c.rbset) % 125 = 0 ∧
      c.sampledAt ≠ some ((s.now + dt) / 24)
     sampled ∧
     pwmDrive (s.elapse dt) n = boolDrive driven) ∧
    (∃ (s : State),
     Available s) := by
  refine
    ⟨⟨((live.modPwm 4 fun c => { c with cfg := 2867, ores := 0x324D2, trip := 4, tripcnt := 5 }).modTz 2 fun x => { x with src0 := 0x3FFFFF03, src2 := 0x2FFFFF, act := false, orSince := some 1 }).modFi 3 fun c => { c with cfg := c.cfg ||| 1, raw := true },
      240, ?_, 2, ?_, ?_, ?_⟩,
     ⟨((live.modPwm 4 fun c => { c with cfg := 2867, ores := 0x324D2, trip := 0x80000004, tripcnt := 5 }).modTz 2 fun x => { x with src0 := 0x3FFFFF03, src2 := 0x2FFFFF, act := false, orSince := none }).modFi 3 fun c => { c with cfg := c.cfg ||| 1, raw := true },
      24, ?_, 2, ?_, ?_, ?_⟩,
     ⟨((live.modPwm 4 fun c => { c with cfg := 2867, ores := 0x324D2, trip := 0x80000004, tripcnt := 5 }).modTz 2 fun x => { x with src0 := 0x3FFFFF03, src2 := 0x2FFFFF, act := true, orSince := none }).modFi 3 fun c => { c with cfg := c.cfg ||| 1, raw := true },
      ?_, 2, ?_, ?_⟩,
     ⟨((live.modPwm 4 fun c => { c with cfg := 2867, ores := 0x324D2, trip := 0x80000004, tripcnt := 5 }).modTz 2 fun x => { x with src0 := 0x3FFFFFFF, src2 := 0x2FFFFF, act := true, orSince := none }).modFi 3 fun c => { c with cfg := c.cfg ||| 1, raw := true },
      ?_, 2, ?_⟩,
     ⟨((live.modPwm 4 fun c => { c with cfg := 2867, ores := 0x324D2, trip := 4 }).modTz 2 fun x => { x with src0 := 0x3FFFFFFF, src2 := 0x2FFFFF, act := false, orSince := none }).modFi 3 fun c => { c with cfg := c.cfg ||| 1, raw := true },
      ?_, 4, ?_⟩,
     ⟨((live.modPwm 4 fun c => { c with cfg := 2867, ores := 0x324D2, trip := 4 }).modTz 2 fun x => { x with src0 := 0x3FFFFFFF, src2 := 0x2FFFFF, act := true, orSince := none }).modFi 3 fun c => { c with cfg := c.cfg ||| 1, raw := true },
      ?_, 4, ?_⟩,
     ⟨(live.modPwm 4 fun c => { c with cfg := 2867, ores := 0x324D2 }).modBarge 8 fun b => { b with psw := 0x13 }, ?_, 4, 8,
      ?_⟩,
     ⟨withPwm (live.modPwm 4 fun c => { c with cfg := 2867 + 0x10000, ores := 0x324D2, rb := 0x129 }) fun x => { x with tb := vput x.tb 3 { per := 1000, en := true, lastB := some 0 } },
      240, ?_, 4, ?_⟩,
     ⟨withPwm (live.modPwm 4 fun c => { c with cfg := 2867 + 0x10000, ores := 0x324D2, rb := 0x129, rbh := 1, rbl := 0, phaseLvl := .high }) fun x => { x with tb := vput x.tb 3 { per := 1000, en := true, lastB := some 0 } },
      480, ?_, 4, true, ?_, ?_⟩,
     ⟨((live.modPwm 4 fun c => { c with cfg := 2867, ores := 0x324D2, trip := 0, tripped := true, st := 2, rcause := 2 }).modTz 2 fun x => { x with src0 := 0x3FFFFFFF, src2 := 0x2FFFFF, act := true, orSince := none }).modFi 3 fun c => { c with cfg := c.cfg ||| 1, raw := true },
      ?_⟩⟩ <;>
    first | decide +kernel | (unfold Available; decide +kernel)

set_option Elab.async false in
theorem witness_EnablesMeetTheirRules :
    (∃ (s : State),
     Available s ∧
     ∃ (n : Fin 192),
     let c := s.pwm.ch.get n
     ∃ e,
     c.en = e) ∧
    (∃ (s : State),
     Available s ∧
     ∃ (n : Fin 192),
     let c := s.pwm.ch.get n
     let foBall := ∃ i : Fin 32, n.val = 160 + i.val ∧ ((s.fw.ballOwner.get i).any fun x => x.2.2) = true
     let meets := (isPartner s n = true ∨ (1 ≤ c.mode ∧ c.mode ≤ 5 ∧ (c.vital = true → c.rben = true))) ∧ ¬ foBall
     c.en = false ∧
     meets) ∧
    (∃ (s : State),
     Available s ∧
     ∃ (n : Fin 192),
     let c := s.pwm.ch.get n
     let foBall := ∃ i : Fin 32, n.val = 160 + i.val ∧ ((s.fw.ballOwner.get i).any fun x => x.2.2) = true
     let meets := (isPartner s n = true ∨ (1 ≤ c.mode ∧ c.mode ≤ 5 ∧ (c.vital = true → c.rben = true))) ∧ ¬ foBall
     c.en = false ∧
     ¬ meets) ∧
    (∃ (s : State),
     Available s ∧
     ∃ (n : Fin 192),
     let c := s.pwm.ch.get n
     c.en = true) ∧
    (∃ (s : State),
     Available s ∧
     ∃ (n : Fin 128),
     let c := s.fio.fi.get n
     ∃ e,
     c.en = e) ∧
    (∃ (s : State),
     Available s ∧
     ∃ (n : Fin 128),
     let c := s.fio.fi.get n
     let meets := c.residue ≤ 4092 ∧ (c.pair = true → (s.fio.fi.get (fiOdd n)).en = true)
     c.en = false ∧
     meets) ∧
    (∃ (s : State),
     Available s ∧
     ∃ (n : Fin 128),
     let c := s.fio.fi.get n
     let meets := c.residue ≤ 4092 ∧ (c.pair = true → (s.fio.fi.get (fiOdd n)).en = true)
     c.en = false ∧
     ¬ meets) ∧
    (∃ (s : State),
     Available s ∧
     ∃ (n : Fin 128),
     let c := s.fio.fi.get n
     let needed := n.val % 2 = 1 ∧ (s.fio.fi.get (fiEven n)).en = true ∧ (s.fio.fi.get (fiEven n)).pair = true
     c.en = true ∧
     ¬ needed) ∧
    (∃ (s : State),
     Available s ∧
     ∃ (n : Fin 128),
     let c := s.fio.fi.get n
     let needed := n.val % 2 = 1 ∧ (s.fio.fi.get (fiEven n)).en = true ∧ (s.fio.fi.get (fiEven n)).pair = true
     c.en = true ∧
     needed) ∧
    (∃ (s : State),
     Available s ∧
     ∃ (n : Fin 128),
     let c := s.fio.fo.get n
     ∃ e,
     c.en = e) ∧
    (∃ (s : State),
     Available s ∧
     ∃ (n : Fin 128),
     let c := s.fio.fo.get n
     let meets := (c.vital = true → n.val < 64 ∧ c.rben = true ∧ c.ten = true) ∧ c.residue ≤ 4092 ∧ 1 ≤ c.tint ∧ c.tint ≤ 100 ∧
      50 ≤ c.tpulse ∧ c.tpulse ≤ 500 ∧ c.tpulse * 2 ≤ c.tint * 1000
     c.en = false ∧
     meets) ∧
    (∃ (s : State),
     Available s ∧
     ∃ (n : Fin 128),
     let c := s.fio.fo.get n
     let meets := (c.vital = true → n.val < 64 ∧ c.rben = true ∧ c.ten = true) ∧ c.residue ≤ 4092 ∧ 1 ≤ c.tint ∧ c.tint ≤ 100 ∧
      50 ≤ c.tpulse ∧ c.tpulse ≤ 500 ∧ c.tpulse * 2 ≤ c.tint * 1000
     c.en = false ∧
     ¬ meets) ∧
    (∃ (s : State),
     Available s ∧
     ∃ (n : Fin 128),
     let c := s.fio.fo.get n
     c.en = true) ∧
    (∃ (s : State),
     Available s) ∧
    (∃ (s : State),
     Available s ∧
     bit s.crp.locked 5 = true ∧
     bit s.crp.clkbad 14 = false) ∧
    (∃ (s : State),
     Available s ∧
     (bit s.crp.locked 5 = false ∨ bit s.crp.clkbad 14 = true)) := by
  refine
    ⟨⟨live.modPwm 4 fun c => { c with cfg := 306, rb := 0x129 }, ?_, 4, false, ?_⟩,
     ⟨live.modPwm 4 fun c => { c with cfg := 306, rb := 0x129 }, ?_, 4, ?_, ?_⟩,
     ⟨live.modPwm 4 fun c => { c with cfg := 48, rb := 0x129 }, ?_, 4, ?_, ?_⟩,
     ⟨live.modPwm 4 fun c => { c with cfg := 2867, ores := 0x324D2, st := 0, tripped := true, pend := some (5, 5), relAt := some 3 },
      ?_, 4, ?_⟩,
     ⟨(live).modFi 4 fun c => { c with cfg := 0x50028, res := 0 }, ?_, 4, false, ?_⟩,
     ⟨(live).modFi 4 fun c => { c with cfg := 0x50028, res := 4092 }, ?_, 4, ?_, ?_⟩,
     ⟨(live).modFi 4 fun c => { c with cfg := 0x50028, res := 4093 }, ?_, 4, ?_, ?_⟩,
     ⟨(live).modFi 4 fun c => { c with cfg := 0x50029, res := 7 }, ?_, 4, ?_, ?_⟩,
     ⟨((live).modFi 4 fun c => { c with cfg := 0x54029, res := 0 }).modFi 5 fun c => { c with cfg := 0x50029, res := 7 }, ?_,
      5, ?_, ?_⟩,
     ⟨(live).modFo 4 fun c => { c with cfg := 0x1914816, test := 0x6415, ores := 0x324D2 }, ?_, 4, false, ?_⟩,
     ⟨(live).modFo 4 fun c => { c with cfg := 0x1914816, test := 0x6415, ores := 0x324D2 }, ?_, 4, ?_, ?_⟩,
     ⟨(live).modFo 64 fun c => { c with cfg := 0x1914816, test := 0x6415, ores := 0x324D2 }, ?_, 64, ?_, ?_⟩,
     ⟨(live).modFo 4 fun c => { c with cfg := 0x1914817, test := 0x6415, ores := 0x324D2, st := 0, appl := some true, pulse := some 3 },
      ?_, 4, ?_⟩,
     ⟨{ live with crp := { live.crp with profile := 0 } }, ?_⟩,
     ⟨live, ?_, ?_, ?_⟩,
     ⟨withCrp live fun c => { c with locked := 0x1F }, ?_, ?_⟩⟩ <;>
    first | decide +kernel | (unfold Available; decide +kernel)

set_option Elab.async false in
theorem witness_FieldInputsDebounceAndRetire :
    (∃ (s : State),
     Available s ∧
     ∃ (n : Fin 128) (pad : Bool),
     let c := s.fio.fi.get n
     c.en = true ∧
     (pad != c.inv) = !c.raw) ∧
    (∃ (s : State),
     Available s ∧
     ∃ (n : Fin 128) (pad : Bool),
     let c := s.fio.fi.get n
     (c.en = false ∨ (pad != c.inv) = c.raw)) ∧
    (∃ (s : State) (dt : Nat),
     Available s ∧
     ∃ (n : Fin 128),
     let c := s.fio.fi.get n
     let held := c.en = true ∧ c.raw ≠ c.lvl ∧ c.rawAt + c.deb * 12000 ≤ s.now + dt
     held) ∧
    (∃ (s : State) (dt : Nat),
     Available s ∧
     ∃ (n : Fin 128),
     let c := s.fio.fi.get n
     let held := c.en = true ∧ c.raw ≠ c.lvl ∧ c.rawAt + c.deb * 12000 ≤ s.now + dt
     ¬ held) ∧
    (∃ (s : State),
     Available s ∧
     ∃ (task : Fin 256),
     BitVec.ofNat 8 task.val ∈ s.fio.freezes) ∧
    (∃ (s : State),
     Available s ∧
     ∃ (task : Fin 256),
     BitVec.ofNat 8 task.val ∉ s.fio.freezes) ∧
    (∃ (s : State) (dt : Nat),
     Available s ∧
     ∃ (m : Fin 64) (n : Fin 128) (since : Nat),
     (n.val = 2 * m.val ∨ n.val = 2 * m.val + 1) ∧
     (s.fio.fi.get (fiEven n)).equalAt = some since ∧
     since + (s.fio.fi.get (fiEven n)).disc * 1000 * 12000 ≤ s.now + dt ∧
     (s.fio.fi.get n).retired = false) ∧
    (∃ (s : State),
     Available s ∧
     ∃ (n : Fin 128),
     let c := s.fio.fi.get n
     c.retired = true) ∧
    (∃ (s : State),
     Available s ∧
     ∃ (n : Fin 128),
     let c := s.fio.fi.get n
     c.retired = false) ∧
    (∃ (s : State),
     Available s) := by
  refine
    ⟨⟨(live).modFi 4 fun c => { c with cfg := 0x50029, res := 0, raw := false }, ?_, 4, true, ?_, ?_⟩,
     ⟨(live).modFi 4 fun c => { c with cfg := 0x50028, res := 0 }, ?_, 4, true, ?_⟩,
     ⟨(live).modFi 4 fun c => { c with cfg := 0x50029, res := 77, raw := true, lvl := false, rawTs := 9 }, 120000, ?_, 4, ?_⟩,
     ⟨(live).modFi 4 fun c => { c with cfg := 0x50029, res := 77, raw := true }, 119999, ?_, 4, ?_⟩,
     ⟨withFio (((live).modFi 5 fun c => { c with cfg := 0x9E000029, res := 0 }).modFi 4 fun c => { c with cfg := 0x1656000029, res := 77, lvl := true }) fun x => { x with freezes := [9, 5] },
      ?_, 5, ?_⟩,
     ⟨withFio ((live).modFi 4 fun c => { c with cfg := 0x1656000029, res := 0 }) fun x => { x with freezes := [9] }, ?_, 5,
      ?_⟩,
     ⟨((live).modFi 5 fun c => { c with cfg := 0x50029, res := 0x10000 }).modFi 4 fun c => { c with cfg := 0x54029, res := 0, equalAt := some 100 },
      120000100, ?_, 2, 4, 100, ?_, ?_, ?_, ?_⟩,
     ⟨(live).modFi 4 fun c => { c with cfg := 0x50029, res := 0, retired := true, rcause := 1 }, ?_, 4, ?_⟩,
     ⟨(live).modFi 4 fun c => { c with cfg := 0x50029, res := 0 }, ?_, 4, ?_⟩,
     ⟨(live).modFi 4 fun c => { c with cfg := 0x50029, res := 0, retired := true, rcause := 1 }, ?_⟩⟩ <;>
    first | decide +kernel | (unfold Available; decide +kernel)

set_option Elab.async false in
theorem witness_FieldOutputsAreProven :
    (∃ (s : State) (dt : Nat),
     Available s ∧
     ∃ (n : Fin 128),
     let c := s.fio.fo.get n
     let us := (s.now + dt) / 12000
     c.sampledAt = some us) ∧
    (∃ (s : State) (dt : Nat),
     Available s ∧
     ∃ (n : Fin 128),
     let c := s.fio.fo.get n
     let us := (s.now + dt) / 12000
     let suspended := c.en = false ∨ c.rben = false ∨ c.st = 2 ∨ c.pulse.isSome = true ∨
      s.now + dt < c.driveAt + c.rbset * 12000 ∨ foDrive s n = .z
     c.sampledAt ≠ some us ∧
     suspended) ∧
    (∃ (s : State) (dt : Nat),
     Available s ∧
     ∃ (n : Fin 128) (level : Bool),
     let c := s.fio.fo.get n
     let us := (s.now + dt) / 12000
     let suspended := c.en = false ∨ c.rben = false ∨ c.st = 2 ∨ c.pulse.isSome = true ∨
      s.now + dt < c.driveAt + c.rbset * 12000 ∨ foDrive s n = .z
     c.sampledAt ≠ some us ∧
     ¬ suspended ∧
     foDrive s n = boolDrive level) ∧
    (∃ (s : State) (dt : Nat),
     Available s ∧
     ∃ (n : Fin 128) (level : Bool),
     let c := s.fio.fo.get n
     let us := (s.now + dt) / 12000
     let suspended := c.en = false ∨ c.rben = false ∨ c.st = 2 ∨ c.pulse.isSome = true ∨
      s.now + dt < c.driveAt + c.rbset * 12000 ∨ foDrive s n = .z
     c.sampledAt ≠ some us ∧
     ¬ suspended ∧
     foDrive s n = boolDrive (!level)) ∧
    (∃ (s : State) (dt : Nat),
     Available s ∧
     ∃ (m : Fin 64) (n : Fin 128),
     n.val = m.val ∧
     let c := s.fio.fo.get n
     let comes := c.en = true ∧ c.ten = true ∧ c.pulse = none ∧
      c.schedAt + (c.tofs * 10 + c.nextTest * c.tint * 1000) * 12000 ≤ s.now + dt
     ¬ comes) ∧
    (∃ (s : State) (dt : Nat),
     Available s ∧
     ∃ (m : Fin 64) (n : Fin 128),
     n.val = m.val ∧
     let c := s.fio.fo.get n
     let comes := c.en = true ∧ c.ten = true ∧ c.pulse = none ∧
      c.schedAt + (c.tofs * 10 + c.nextTest * c.tint * 1000) * 12000 ≤ s.now + dt
     comes) ∧
    (∃ (s : State) (dt : Nat),
     Available s ∧
     ∃ (m : Fin 64) (n : Fin 128),
     n.val = m.val ∧
     let c := s.fio.fo.get n
     let ends := c.pulse.any fun since => since + c.tpulse * 12000 ≤ s.now + dt + 24
     ends = false) ∧
    (∃ (s : State) (dt : Nat),
     Available s ∧
     ∃ (m : Fin 64) (n : Fin 128),
     n.val = m.val ∧
     let c := s.fio.fo.get n
     let ends := c.pulse.any fun since => since + c.tpulse * 12000 ≤ s.now + dt + 24
     ends = true ∧
     c.st ≠ 2) ∧
    (∃ (s : State),
     Available s) := by
  refine
    ⟨⟨(live).modFo 4 fun c => { c with cfg := 0x1914817, test := 0x6415, ores := 0x324D2, appl := some true, st := 1, sampledAt := some 20 },
      240000, ?_, 4, ?_⟩,
     ⟨(live).modFo 4 fun c => { c with cfg := 0x1914816, test := 0x6415, ores := 0x324D2, appl := some true, st := 1, miss := 3 },
      240000, ?_, 4, ?_, ?_⟩,
     ⟨(live).modFo 4 fun c => { c with cfg := 0x1914817, test := 0x6415, ores := 0x324D2, appl := some true, st := 1, miss := 3 },
      240000, ?_, 4, true, ?_, ?_, ?_⟩,
     ⟨(live).modFo 4 fun c => { c with cfg := 0x1914817, test := 0x6415, ores := 0x324D2, appl := some true, st := 1, miss := 0 },
      240000, ?_, 4, false, ?_, ?_, ?_⟩,
     ⟨(live).modFo 4 fun c => { c with cfg := 0x1914817, test := 0x6415, ores := 0x324D2, appl := some true, st := 1, nextTest := 1, pulse := some 7 },
      120000000, ?_, 4, 4, ?_, ?_⟩,
     ⟨(live).modFo 4 fun c => { c with cfg := 0x1914817, test := 0x6415, ores := 0x324D2, appl := some true, st := 1, nextTest := 1 },
      120000000, ?_, 4, 4, ?_, ?_⟩,
     ⟨(live).modFo 4 fun c => { c with cfg := 0x1914817, test := 0x6415, ores := 0x324D2, appl := some true, st := 1, pulse := none },
      1199982, ?_, 4, 4, ?_, ?_⟩,
     ⟨(live).modFo 4 fun c => { c with cfg := 0x1914817, test := 0x6415, ores := 0x324D2, appl := some true, st := 0, pulse := some 7 },
      1199983, ?_, 4, 4, ?_, ?_, ?_⟩,
     ⟨(live).modFo 4 fun c => { c with cfg := 0x1914817, test := 0x6415, ores := 0x324D2, appl := some true, st := 0, pulse := some 7, miss := 3, nextTest := 4, rcause := 2 },
      ?_⟩⟩ <;>
    first | decide +kernel | (unfold Available; decide +kernel)

set_option Elab.async false in
theorem witness_SafeOrdersReachEveryOutput :
    (∃ (s : State),
     Available s ∧
     ∃ (m : GateMsg) (rest : List GateMsg) (all : Bool) (g : BitVec 6),
     m = (if all then .safeAll else .safe g) ∧
     s.pwm.gates = m :: rest) ∧
    (∃ (s : State),
     Available s ∧
     ∃ (m : GateMsg) (rest : List GateMsg) (all : Bool) (g : BitVec 6),
     m = (if all then .safeAll else .safe g) ∧
     s.fio.gates = m :: rest) ∧
    (∃ (s : State),
     Available s ∧
     ∃ (m : GateMsg) (rest : List GateMsg) (all : Bool) (g : BitVec 6),
     m = (if all then .safeAll else .safe g) ∧
     ∃ l,
     let x := s.tl.link.get l
     x.gates = m :: rest) ∧
    (∃ (s : State),
     Available s ∧
     ∃ (n : Fin 192),
     let c := s.pwm.ch.get n
     (c.en = false ∨ pwmBallOk s n = false)) ∧
    (∃ (s : State),
     Available s ∧
     ∃ (n : Fin 192),
     let c := s.pwm.ch.get n
     let lead := leadOf s n
     c.en = true ∧
     pwmBallOk s n = true ∧
     let live := c.st ≠ 2 ∧ lead.st = 1 ∧ (isPartner s n = true → c.joined = true)
     ¬ live) ∧
    (∃ (s : State),
     Available s ∧
     ∃ (n : Fin 192),
     let c := s.pwm.ch.get n
     let lead := leadOf s n
     c.en = true ∧
     pwmBallOk s n = true ∧
     let live := c.st ≠ 2 ∧ lead.st = 1 ∧ (isPartner s n = true → c.joined = true)
     live ∧
     (c.tripped = true ∨ lead.tripped = true)) ∧
    (∃ (s : State),
     Available s ∧
     ∃ (n : Fin 128),
     let c := s.fio.fo.get n
     (c.en = false ∨ foBallOk s n = false)) ∧
    (∃ (s : State),
     Available s ∧
     ∃ (n : Fin 128),
     let c := s.fio.fo.get n
     c.en = true ∧
     foBallOk s n = true ∧
     c.st ≠ 1) ∧
    (∃ (s : State),
     Available s ∧
     ∃ (n : Fin 128),
     let c := s.fio.fo.get n
     c.en = true ∧
     foBallOk s n = true ∧
     c.st = 1 ∧
     c.pulse.isSome = true) ∧
    (∃ (s : State),
     Available s ∧
     ∃ (n : Fin 128),
     let c := s.fio.fo.get n
     c.en = true ∧
     foBallOk s n = true ∧
     ∃ x,
     c.st = 1 ∧
     c.pulse = none ∧
     c.appl = some x) := by
  refine
    ⟨⟨withPwm (((((((live.modPwm 0 fun c => { c with cfg := 2867, ores := 0x324D2, pend := some (1, 2), stg := some { value := encodeCoded 64000 1234, date := 7, att := true } }).modPwm 2 fun c => { c with cfg := 2867, ores := 0x324D2, pend := some (1, 2), stg := some { value := encodeCoded 64000 1234 + 1, date := 7, att := true } }).modPwm 4 fun c => { c with cfg := 2867, ores := 0x324D2, stg := some { value := encodeCoded 64000 1234, date := 8, att := true } }).modPwm 6 fun c => { c with cfg := 2867 + 512, ores := 0x324D2, stg := some { value := encodeCoded 64000 1234, date := 7, att := true } }).modPwm 8 fun c => { c with cfg := 2867, ores := 0x324D2 }).modPwm 10 fun c => { c with cfg := 2866, stg := some { value := encodeCoded 64000 1234, date := 7, att := true } })) fun x => { x with gates := [.safeAll, .safe 1] },
      ?_, .safeAll, [.safe 1], true, 0, ?_, ?_⟩,
     ⟨withFio (((((((live.modFo 0 fun c => { c with cfg := 0x1914817, ores := 0x324D2, stg := some { value := encodeCoded 1 1234, date := 7, att := true } }).modFo 2 fun c => { c with cfg := 0x1914817, ores := 0x324D2, appl := some true, stg := some { value := encodeCoded 2 1234, date := 7, att := true } }).modFo 4 fun c => { c with cfg := 0x1914817, ores := 0x324D2, stg := some { value := encodeCoded 1 1234, date := 8, att := true } }).modFo 6 fun c => { c with cfg := 0x1914813, ores := 0x324D2, stg := some { value := encodeCoded 1 1234, date := 7, att := true } }).modFo 8 fun c => { c with cfg := 0x1914817, ores := 0x324D2 }).modFo 10 fun c => { c with cfg := 0x1914817, ores := 0x324D2, stg := some { value := encodeCoded 0 1234, date := 7, att := true } })) fun x => { x with gates := [.safeAll, .safe 1] },
      ?_, .safeAll, [.safe 1], true, 0, ?_, ?_⟩,
     ⟨live.modLink 4 fun c => { c with cfg := 38609275, rxcfg := 0x3000001, rxdst := 0x10002, groupSafe := false, gates := [.safeAll, .safe 1] },
      ?_, .safeAll, [.safe 1], true, 0, ?_, 4, ?_⟩,
     ⟨live.modPwm 4 fun c => { c with cfg := 2866, ores := 0x324D2 }, ?_, 4, ?_⟩,
     ⟨live.modPwm 4 fun c => { c with cfg := 2867 + 0x10000, ores := 0x324D2, st := 0 }, ?_, 4, ?_, ?_, ?_⟩,
     ⟨live.modPwm 4 fun c => { c with cfg := 2867 + 0x40000, ores := 0x324D2, st := 1, tripped := true }, ?_, 4, ?_, ?_, ?_,
      ?_⟩,
     ⟨(live).modFo 4 fun c => { c with cfg := 0x1914816, test := 0x6415, ores := 0x324D2 }, ?_, 4, ?_⟩,
     ⟨(live).modFo 4 fun c => { c with cfg := 0x1914917, test := 0x6415, ores := 0x324D2, st := 0 }, ?_, 4, ?_, ?_, ?_⟩,
     ⟨(live).modFo 4 fun c => { c with cfg := 0x1914917, test := 0x6415, ores := 0x324D2, st := 1, pulse := some 3 }, ?_, 4,
      ?_, ?_, ?_, ?_⟩,
     ⟨(live).modFo 4 fun c => { c with cfg := 0x1914917, test := 0x6415, ores := 0x324D2, st := 1, appl := some true }, ?_,
      4, ?_, ?_, true, ?_, ?_, ?_⟩⟩ <;>
    first | decide +kernel | (unfold Available; decide +kernel)

set_option Elab.async false in
theorem witness_SamplesFollowTheSincFilter :
    (∃ (k r : Nat) (xs : List Int),
     0 < r ∧
     xs.length = k * (r - 1) + 1) ∧
    (∃ (k r : Nat) (xs : List Int),
     0 < r ∧
     k * (r - 1) + 1 ≤ xs.length ∧
     (∀ x ∈ xs, x = 1 ∨ x = -1)) ∧
    (∃ (k r n : Nat),
     0 < r ∧
     k * (r - 1) + 1 ≤ n) ∧
    (∃ (s : State) (n : Fin 384),
     Available s ∧
     weirRunning s n = false) ∧
    (∃ (s : State) (n : Fin 384),
     let c := s.weir.ch.get n
     Available s ∧
     weirRunning s n = true ∧
     ∃ (bits : List (Bool × Bool)),
     bits.length = c.osr) ∧
    (∃ (s : State) (n : Fin 384),
     let c := s.weir.ch.get n
     Available s ∧
     weirRunning s n = true ∧
     ∃ (bits : List Bool),
     bits.length = c.fosr ∧
     c.fen = true) ∧
    (∃ (s : State) (n : Fin 384),
     let c := s.weir.ch.get n
     Available s ∧
     weirRunning s n = true ∧
     c.dmen = true ∧
     (c.dmOut + 1) * c.dec ≤ c.dmMain) := by
  refine
    ⟨⟨3, 4, [1, -1, 1, 1, -1, -1, 1, 1, 1, -1], ?_, ?_⟩,
     ⟨3, 4, [1, -1, 1, 1, -1, -1, 1, 1, 1, -1, 1], ?_, ?_, ?_⟩,
     ⟨3, 4, 10, ?_, ?_⟩,
     ⟨live, 9, ?_, ?_⟩,
     ⟨(({ live with weir := { live.weir with grp := vmod live.weir.grp 1 fun g => { g with en := true } } } : State).modWeir 9 fun c => { c with cfg := 134742085, chres := 0x30004D2, dst := 0x10001, samples := 5, bits := List.replicate 14 true }),
      9, ?_, ?_, ((List.replicate 4 (true, true)) ++ [(false, false)] ++ (List.replicate 3 (false, false))), ?_⟩,
     ⟨(({ live with weir := { live.weir with grp := vmod live.weir.grp 1 fun g => { g with en := true } } } : State).modWeir 9 fun c => { c with cfg := 134742533, chres := 0x30004D2, dst := 0x10001, fcfg := 3276869, fthr := 0x80001FFFF, hi := false, lo := false, fsamples := 3, fbits := [true, false, true, true, false, true, true, false, true, true, true, true, true, true] }),
      9, ?_, ?_, [true, false, true, true, true, true, true, true], ?_, ?_⟩,
     ⟨(({ live with weir := { live.weir with grp := vmod live.weir.grp 1 fun g => { g with en := true } } } : State).modWeir 9 fun c => { c with cfg := 134218245, chres := 0x30004D2, dst := 0x10001, dmcfg := 131107, dmMain := 8, dmOut := 0, dmStamp := 77, ui := [5, 4, 3, 2, 1, 9, 9], uq := [1, 2, 3, 4, -5, 9, 9] }),
      9, ?_, ?_, ?_, ?_⟩⟩ <;>
    first | decide +kernel | (unfold Available; decide +kernel)

set_option Elab.async false in
theorem witness_RecordsReachTheirAreas :
    (∃ (s : State) (n : Fin 384) (b : BasinIx),
     let c := s.weir.ch.get n
     let up := (s.crp.bpwr.get b).cur.toNat ≤ 1
     Available s ∧
     MemoriesCanonical s ∧
     c.basin = b.val ∧
     ∃ ws,
     c.ready = some ws ∧
     (s.weir.fifo.get b).length < 128 ∧
     up) ∧
    (∃ (s : State) (n : Fin 384) (b : BasinIx),
     let c := s.weir.ch.get n
     let up := (s.crp.bpwr.get b).cur.toNat ≤ 1
     Available s ∧
     MemoriesCanonical s ∧
     c.basin = b.val ∧
     ∃ ws,
     c.ready = some ws ∧
     (128 ≤ (s.weir.fifo.get b).length ∨ ¬ up)) ∧
    (∃ (s : State) (n : Fin 384) (b : BasinIx),
     let c := s.weir.ch.get n
     Available s ∧
     MemoriesCanonical s ∧
     c.basin = b.val ∧
     c.ready = none) ∧
    (∃ (s : State) (dt : Nat) (n : Fin 384) (b : BasinIx),
     let c := s.weir.ch.get n
     let x := s.basins.get b
     let up := (s.crp.bpwr.get b).cur.toNat ≤ 1
     let portBFree (k : BankIx) := (x.banks.get k).portBAt ≠ some (bclkCount (s.elapse dt) b)
     let quay (bank : Bool) : BankIx := if bank then 15 else 14
     Available s ∧
     MemoriesCanonical s ∧
     c.basin = b.val ∧
     ∃ pre r rest,
     s.weir.fifo.get b = pre ++ r :: rest ∧
     (∀ q ∈ pre, ∃ k : Fin 384, q.src = k.val ∧ (s.weir.ch.get k).bank ≠ c.bank) ∧
     r.src = n.val ∧
     r.time / 30 ≠ (s.now + dt) / 30 ∧
     up ∧
     portBFree (quay c.bank)) ∧
    (∃ (s : State) (dt : Nat) (n : Fin 384) (b : BasinIx),
     let c := s.weir.ch.get n
     let x := s.basins.get b
     let up := (s.crp.bpwr.get b).cur.toNat ≤ 1
     let portBFree (k : BankIx) := (x.banks.get k).portBAt ≠ some (bclkCount (s.elapse dt) b)
     let quay (bank : Bool) : BankIx := if bank then 15 else 14
     Available s ∧
     MemoriesCanonical s ∧
     c.basin = b.val ∧
     ∃ h,
     c.area.header = some h ∧
     up ∧
     portBFree (quay c.bank) ∧
     (∀ r ∈ s.weir.fifo.get b, r.src ≠ n.val ∨ r.half ≠ h)) ∧
    (∃ (s : State) (dt : Nat) (b : BasinIx),
     let x := s.basins.get b
     let up := (s.crp.bpwr.get b).cur.toNat ≤ 1
     let portBFree (k : BankIx) := (x.banks.get k).portBAt ≠ some (bclkCount (s.elapse dt) b)
     let quay (bank : Bool) : BankIx := if bank then 15 else 14
     Available s ∧
     MemoriesCanonical s ∧
     ∃ (l : Fin 16) (r : Record) (rest : List Record),
     let y := s.tl.link.get l
     y.dbasin = b.val ∧
     y.fifo = r :: rest ∧
     weirWaits s b (quay y.dbank) = false ∧
     (y.recRow ≠ 0 ∨ (∀ k, (s.tl.link.get k).area.header = none)) ∧
     (∀ k, k ≠ l → (s.tl.link.get k).dbasin ≠ b.val ∨ (s.tl.link.get k).dbank ≠ y.dbank ∨ (s.tl.link.get k).fifo = []) ∧
     x.tport = [] ∧
     r.time / 480 ≠ (s.now + dt) / 480 ∧
     8 * y.recRow < r.words.length ∧
     up ∧
     portBFree (quay y.dbank)) ∧
    (∃ (s : State) (dt : Nat) (b : BasinIx),
     let x := s.basins.get b
     let up := (s.crp.bpwr.get b).cur.toNat ≤ 1
     let portBFree (k : BankIx) := (x.banks.get k).portBAt ≠ some (bclkCount (s.elapse dt) b)
     let quay (bank : Bool) : BankIx := if bank then 15 else 14
     Available s ∧
     MemoriesCanonical s ∧
     ∃ (l : Fin 16) (h : Bool),
     let y := s.tl.link.get l
     y.dbasin = b.val ∧
     y.area.header = some h ∧
     (y.area.zero = true ∨ ∀ r ∈ y.fifo, r.src ≠ l.val ∨ r.half ≠ h) ∧
     weirWaits s b (quay y.dbank) = false ∧
     (∀ k, (s.tl.link.get k).recRow = 0) ∧
     (∀ k, k ≠ l → (s.tl.link.get k).area.header = none) ∧
     x.tport = [] ∧
     up ∧
     portBFree (quay y.dbank)) ∧
    (∃ (s : State) (b : BasinIx),
     let up := (s.crp.bpwr.get b).cur.toNat ≤ 1
     Available s ∧
     MemoriesCanonical s ∧
     ¬ up) ∧
    (∃ (s : State),
     Available s ∧
     MemoriesCanonical s ∧
     ∃ (task : Fin 256),
     BitVec.ofNat 8 task.val ∉ s.weir.freezes) ∧
    (∃ (s : State),
     Available s ∧
     MemoriesCanonical s ∧
     ∃ (task : Fin 256),
     BitVec.ofNat 8 task.val ∈ s.weir.freezes) := by
  refine
    ⟨⟨withWeir ((({ live with weir := { live.weir with grp := vmod live.weir.grp 1 fun g => { g with en := true } } } : State).modWeir 9 fun c => { c with cfg := 134742533, chres := 0x30004D2, dst := 184811698, ready := some [5, 0xC00000000], gapNext := true, retired := true, area := { next0 := 3, next1 := 2, wrap1 := true, half := true, seq := 7, header := none } })) fun w => { w with fifo := vput w.fifo 2 [{ src := 8, half := false, words := [1], time := 0 }], freezes := [] },
      9, 2, ?_, ?_, ?_, [5, 0xC00000000], ?_, ?_, ?_⟩,
     ⟨withWeir ((({ live with weir := { live.weir with grp := vmod live.weir.grp 1 fun g => { g with en := true } } } : State).modWeir 9 fun c => { c with cfg := 134742533, chres := 0x30004D2, dst := 184811698, ready := some [5, 6], drops := 3 })) fun w => { w with fifo := vput w.fifo 2 (List.replicate 128 { src := 8, half := false, words := [1], time := 0 }), freezes := [] },
      9, 2, ?_, ?_, ?_, [5, 6], ?_, ?_⟩,
     ⟨withWeir ((({ live with weir := { live.weir with grp := vmod live.weir.grp 1 fun g => { g with en := true } } } : State).modWeir 9 fun c => { c with cfg := 134742533, chres := 0x30004D2, dst := 184811698 })) fun w => { w with fifo := vput w.fifo 2 [], freezes := [] },
      9, 2, ?_, ?_, ?_, ?_⟩,
     ⟨(withWeir ((({ live with weir := { live.weir with grp := vmod live.weir.grp 1 fun g => { g with en := true } } } : State).modWeir 9 fun c => { c with cfg := 134742533, chres := 0x30004D2, dst := 184811698, area := { next0 := 3, next1 := 2, wrap1 := true, half := true, seq := 7, header := none } })) fun w => { w with fifo := vput w.fifo 2 [{ src := 19, half := false, words := [7], time := 0 }, { src := 9, half := true, words := [0x123456789, 0xABCDEF012], time := 0 }, { src := 8, half := false, words := [1], time := 0 }], freezes := [] }).modBasin 2 fun x => { x with mem := { cells := [(0xF0000, 3), (0xF00A0, 9), (0xF00A9, 9), (0xF00E0, 9)], marks := [] } },
      30, 9, 2, ?_, ?_, ?_, [{ src := 19, half := false, words := [7], time := 0 }],
      { src := 9, half := true, words := [0x123456789, 0xABCDEF012], time := 0 },
      [{ src := 8, half := false, words := [1], time := 0 }], ?_, ?_, ?_, ?_, ?_, ?_⟩,
     ⟨(withWeir ((({ live with weir := { live.weir with grp := vmod live.weir.grp 1 fun g => { g with en := true } } } : State).modWeir 9 fun c => { c with cfg := 134742533, chres := 0x30004D2, dst := 184811698, area := { next0 := 3, next1 := 2, wrap1 := true, half := true, seq := 7, header := some true } })) fun w => { w with fifo := vput w.fifo 2 [{ src := 9, half := false, words := [1, 2], time := 0 }], freezes := [] }).modBasin 2 fun x => { x with mem := { cells := [(0xF0000, 3), (0xF00A0, 9), (0xF00A9, 9), (0xF00E0, 9)], marks := [] } },
      12, 9, 2, ?_, ?_, ?_, true, ?_, ?_, ?_, ?_⟩,
     ⟨((live).modLink 3 fun l => { l with rxdst := 262322, rxcfg := 6, recRow := 0, fifo := [{ src := 3, half := true, words := [1, 2, 3, 4, 5, 6, 7, 8, 9], time := 0 }, { src := 3, half := false, words := [1], time := 0 }] }).modBasin 2 fun x => { x with mem := { cells := [(0xF0000, 3), (0xF00A0, 9), (0xF00A9, 9), (0xF00E0, 9)], marks := [] } },
      480, 2, ?_, ?_, 3, { src := 3, half := true, words := [1, 2, 3, 4, 5, 6, 7, 8, 9], time := 0 },
      [{ src := 3, half := false, words := [1], time := 0 }], ?_, ?_, ?_, ?_, ?_, ?_, ?_, ?_, ?_, ?_⟩,
     ⟨((live).modLink 3 fun l => { l with rxdst := 262322, rxcfg := 6, recRow := 0, fifo := [{ src := 3, half := false, words := [1], time := 0 }], area := { next0 := 3, next1 := 2, wrap1 := true, half := true, seq := 7, header := some true } }).modBasin 2 fun x => { x with mem := { cells := [(0xF0000, 3), (0xF00A0, 9), (0xF00A9, 9), (0xF00E0, 9)], marks := [] } },
      12, 2, ?_, ?_, 3, true, ?_, ?_, ?_, ?_, ?_, ?_, ?_, ?_, ?_⟩,
     ⟨withCrp (withWeir ((({ live with weir := { live.weir with grp := vmod live.weir.grp 1 fun g => { g with en := true } } } : State).modWeir 9 fun c => { c with cfg := 134742533, chres := 0x30004D2, dst := 184811698 })) fun w => { w with fifo := vput w.fifo 2 [], freezes := [] }) fun c => { c with bpwr := vmod c.bpwr 2 fun p => { p with cur := 2 } },
      2, ?_, ?_, ?_⟩,
     ⟨withWeir ((({ live with weir := { live.weir with grp := vmod live.weir.grp 1 fun g => { g with en := true } } } : State).modWeir 9 fun c => { c with cfg := 134742533, chres := 0x30004D2, dst := 184811698 })) fun w => { w with fifo := vput w.fifo 2 [], freezes := [9] },
      ?_, ?_, 5, ?_⟩,
     ⟨withWeir ((({ live with weir := { live.weir with grp := vmod live.weir.grp 1 fun g => { g with en := true } } } : State).modWeir 9 fun c => { c with cfg := 134742533, chres := 0x30004D2, dst := 184811698, area := { next0 := 3, next1 := 2, wrap1 := true, half := true, seq := 7, header := none } })) fun w => { w with fifo := vput w.fifo 2 [{ src := 9, half := true, words := [1, 2], time := 0 }, { src := 9, half := true, words := [1, 2], time := 36 }, { src := 8, half := false, words := [1], time := 0 }], freezes := [9, 5, 3] },
      ?_, ?_, 5, ?_⟩⟩ <;>
    first | decide +kernel | (unfold Available; decide +kernel) | (unfold MemoriesCanonical; decide +kernel)

set_option Elab.async false in
theorem witness_WeirStreamsStartAndRetire :
    (∃ (s : State),
     Available s ∧
     ∃ (n : Fin 384),
     let c := s.weir.ch.get n
     weirRunning s n = true ∧
     c.retired = false ∧
     0 < c.stk) ∧
    (∃ (s : State),
     Available s ∧
     ∃ (n : Fin 384) (bits : List Bool),
     let c := s.weir.ch.get n
     (weirRunning s n = false ∨ c.retired = true ∨ bits.length ≠ c.stk ∨ (true ∈ bits ∧ false ∈ bits))) ∧
    (∃ (s : State),
     Available s ∧
     ∃ (g : Fin 48),
     (s.weir.grp.get g).en = true) ∧
    (∃ (s : State),
     Available s ∧
     ∃ (g : Fin 48),
     (s.weir.grp.get g).en = false) ∧
    (∃ (s : State),
     Available s) ∧
    (∃ (s : State),
     Available s ∧
     ∃ (n : Fin 384),
     let c := s.weir.ch.get n
     ∃ e,
     c.en = e) ∧
    (∃ (s : State),
     Available s ∧
     ∃ (n : Fin 384),
     let c := s.weir.ch.get n
     let g := s.weir.grp.get (weirGroupOf n)
     let meets := c.bv ≤ 4092 ∧ c.bq ≤ 4092 ∧ 1 ≤ c.depth ∧ 16 ≤ g.div.toNat ∧ g.div.toNat ≤ 80 ∧ 1 ≤ g.capt.toNat ∧
      g.capt.toNat + 3 ≤ g.div.toNat ∧ 4 ≤ c.osr ∧ c.osr ≤ 1024 ∧ 4 ≤ c.fosr ∧ c.fosr ≤ 64 ∧ c.forder ≤ 3 ∧ 16 ≤ c.stk ∧
      c.stk ≤ 64 ∧ (c.dmen = true → c.dorder ≤ 3 ∧ demodLimits g.div.toNat c = true)
     c.en = false ∧
     ¬ meets) ∧
    (∃ (s : State),
     Available s ∧
     ∃ (n : Fin 384),
     let c := s.weir.ch.get n
     let g := s.weir.grp.get (weirGroupOf n)
     let meets := c.bv ≤ 4092 ∧ c.bq ≤ 4092 ∧ 1 ≤ c.depth ∧ 16 ≤ g.div.toNat ∧ g.div.toNat ≤ 80 ∧ 1 ≤ g.capt.toNat ∧
      g.capt.toNat + 3 ≤ g.div.toNat ∧ 4 ≤ c.osr ∧ c.osr ≤ 1024 ∧ 4 ≤ c.fosr ∧ c.fosr ≤ 64 ∧ c.forder ≤ 3 ∧ 16 ≤ c.stk ∧
      c.stk ≤ 64 ∧ (c.dmen = true → c.dorder ≤ 3 ∧ demodLimits g.div.toNat c = true)
     c.en = false ∧
     meets ∧
     c.basin < 12 ∧
     recordsOut s n.val = true) ∧
    (∃ (s : State),
     Available s ∧
     ∃ (n : Fin 384),
     let c := s.weir.ch.get n
     let g := s.weir.grp.get (weirGroupOf n)
     let meets := c.bv ≤ 4092 ∧ c.bq ≤ 4092 ∧ 1 ≤ c.depth ∧ 16 ≤ g.div.toNat ∧ g.div.toNat ≤ 80 ∧ 1 ≤ g.capt.toNat ∧
      g.capt.toNat + 3 ≤ g.div.toNat ∧ 4 ≤ c.osr ∧ c.osr ≤ 1024 ∧ 4 ≤ c.fosr ∧ c.fosr ≤ 64 ∧ c.forder ≤ 3 ∧ 16 ≤ c.stk ∧
      c.stk ≤ 64 ∧ (c.dmen = true → c.dorder ≤ 3 ∧ demodLimits g.div.toNat c = true)
     c.en = false ∧
     meets ∧
     recordsOut s n.val = false ∧
     ∃ (b : BasinIx),
     c.basin = b.val) ∧
    (∃ (s : State),
     Available s ∧
     ∃ (n : Fin 384),
     let c := s.weir.ch.get n
     c.en = true) ∧
    (∃ (s : State),
     Available s ∧
     ∃ (n : Fin 384) (v : Word),
     let c := s.weir.ch.get n
     v ≠ c.fthr) ∧
    (∃ (s : State),
     Available s ∧
     ∃ (n : Fin 384) (v : Word),
     let c := s.weir.ch.get n
     v = c.fthr) ∧
    (∃ (s : State),
     Available s ∧
     ∃ (n : Fin 384),
     ∃ (g : BargeIx),
     weirAdmits s g (pswW (s.barges.get g).psw) n = true) := by
  refine
    ⟨⟨(({ live with weir := { live.weir with grp := vmod live.weir.grp 1 fun g => { g with en := true } } } : State).modWeir 9 fun c => { c with cfg := 134742533, chres := 0x30004D2, dst := 0x10001, fcfg := 24706 }),
      ?_, 9, ?_, ?_, ?_⟩,
     ⟨live, ?_, 9, [], ?_⟩,
     ⟨(({ live with weir := { live.weir with grp := vmod live.weir.grp 1 fun g => { g with en := true } } } : State).modWeir 9 fun c => { c with cfg := 134742533, chres := 0x30004D2, dst := 0x10001 }),
      ?_, 1, ?_⟩,
     ⟨(({ live with weir := { live.weir with grp := vmod live.weir.grp 1 fun g => { g with en := true } } } : State).modWeir 9 fun c => { c with cfg := 134742533, chres := 0x30004D2, dst := 0x10001 }),
      ?_, 2, ?_⟩,
     ⟨(({ live with weir := { live.weir with grp := vmod live.weir.grp 1 fun g => { g with en := true } } } : State).modWeir 9 fun c => { c with cfg := 134742533, chres := 0x30004D2, dst := 0x10001, retired := true, rcause := 1, hi := true, window := [true], samples := 4, area := { next0 := 3, next1 := 2, wrap1 := true, half := true, seq := 7, header := none } }),
      ?_⟩,
     ⟨(({ live with weir := { live.weir with grp := vmod live.weir.grp 1 fun g => { g with en := true } } } : State).modWeir 9 fun c => { c with cfg := 134742532, chres := 0x30004D2, dst := 0x10001 }),
      ?_, 9, false, ?_⟩,
     ⟨((({ live with weir := { live.weir with grp := vmod live.weir.grp 1 fun g => { g with en := true } } } : State).modWeir 9 fun c => { c with cfg := 134742532, chres := 0, dst := 0x10002 })).modWeirGroup 1 fun g => { g with div := 15, capt := 1 },
      ?_, 9, ?_, ?_⟩,
     ⟨(withWeir ((({ live with weir := { live.weir with grp := vmod live.weir.grp 1 fun g => { g with en := true } } } : State).modWeir 9 fun c => { c with cfg := 134742532, chres := 0, dst := 0x1010002 })) fun w => { w with ch := (Vector.replicate 384 { (State.reset.weir.ch.get 0) with chres := 0x3000000, dst := 2 }).set 9 (w.ch.get 9) }).modWeirGroup 1 fun g => { g with div := 20, capt := 8 },
      ?_, 9, ?_, ?_, ?_, ?_⟩,
     ⟨((({ live with weir := { live.weir with grp := vmod live.weir.grp 1 fun g => { g with en := true } } } : State).modWeir 9 fun c => { c with cfg := 34078756, chres := 0, dst := 0x1010002, samples := 4 })).modWeirGroup 1 fun g => { g with div := 16, capt := 1 },
      ?_, 9, ?_, ?_, ?_, 2, ?_⟩,
     ⟨(({ live with weir := { live.weir with grp := vmod live.weir.grp 1 fun g => { g with en := true } } } : State).modWeir 9 fun c => { c with cfg := 134742533, chres := 0x30004D2, dst := 0x10001, hi := true, retired := true }),
      ?_, 9, ?_⟩,
     ⟨(({ live with weir := { live.weir with grp := vmod live.weir.grp 1 fun g => { g with en := true } } } : State).modWeir 9 fun c => { c with cfg := 134742533, chres := 0x30004D2, dst := 0x10001, fthr := 7, fthrPast := [(1, 2, 5), (3, 4, 13)] }),
      ?_, 9, 9, ?_⟩,
     ⟨(({ live with weir := { live.weir with grp := vmod live.weir.grp 1 fun g => { g with en := true } } } : State).modWeir 9 fun c => { c with cfg := 134742533, chres := 0x30004D2, dst := 0x10001, fthr := 7, fthrPast := [(1, 2, 5), (3, 4, 13)] }),
      ?_, 9, 7, ?_⟩,
     ⟨((({ live with weir := { live.weir with grp := vmod live.weir.grp 1 fun g => { g with en := true } } } : State).modWeir 9 fun c => { c with cfg := 134742533, chres := 0x30004D2, dst := 0x10002, fthr := 7 })).modBarge 8 fun b => { b with psw := 0x13 },
      ?_, 9, 8, ?_⟩⟩ <;>
    first | decide +kernel | (unfold Available; decide +kernel)

set_option Elab.async false in
theorem witness_LinksComeUpAndGoDown :
    (∃ (s : State) (n : Fin 16),
     let l := s.tl.link.get n
     Available s ∧
     ∃ e,
     l.en = e) ∧
    (∃ (s : State) (n : Fin 16),
     let l := s.tl.link.get n
     let meets := l.vmin ≤ l.vmax ∧ (l.vital = true → 3 ≤ l.vmin) ∧ l.obase ≤ 4092 ∧ l.outlen ≤ 64 ∧ 1 ≤ l.inlen ∧ l.inlen ≤ 64 ∧
      16 ≤ l.ackto ∧ 1 ≤ l.depth ∧ l.dbasin < 12 ∧ (l.oper = 0 ∨ frameChars (2 + l.outlen + (l.vmax == 3).toNat) ≤ l.oper)
     Available s ∧
     l.en = false ∧
     meets ∧
     ∃ (b : BasinIx),
     l.dbasin = b.val) ∧
    (∃ (s : State) (n : Fin 16),
     let l := s.tl.link.get n
     let meets := l.vmin ≤ l.vmax ∧ (l.vital = true → 3 ≤ l.vmin) ∧ l.obase ≤ 4092 ∧ l.outlen ≤ 64 ∧ 1 ≤ l.inlen ∧ l.inlen ≤ 64 ∧
      16 ≤ l.ackto ∧ 1 ≤ l.depth ∧ l.dbasin < 12 ∧ (l.oper = 0 ∨ frameChars (2 + l.outlen + (l.vmax == 3).toNat) ≤ l.oper)
     Available s ∧
     l.en = false ∧
     ¬ meets) ∧
    (∃ (s : State) (n : Fin 16),
     let l := s.tl.link.get n
     Available s ∧
     l.en = true) ∧
    (∃ (s : State) (n : Fin 16),
     let l := s.tl.link.get n
     let run (cs : List Bool) : Nat := cs.foldl (fun r v => if v then r + 1 else 0) l.rxRun
     Available s ∧
     ∃ (chars : List Bool),
     l.en = true ∧
     l.lock = false ∧
     (∀ k, k < chars.length → run (chars.take k) < 64) ∧
     chars ≠ [] ∧
     64 ≤ run chars) ∧
    (∃ (s : State) (n : Fin 16),
     let l := s.tl.link.get n
     let run (cs : List Bool) : Nat := cs.foldl (fun r v => if v then r + 1 else 0) l.rxRun
     Available s ∧
     ∃ (chars : List Bool),
     l.en = true ∧
     l.lock = false ∧
     (∀ k, k < chars.length → run (chars.take k) < 64) ∧
     run chars < 64) ∧
    (∃ (s : State) (dt : Nat) (n : Fin 16),
     let l := s.tl.link.get n
     Available s ∧
     l.en = true ∧
     l.lock = true ∧
     l.retired = false ∧
     l.up = false ∧
     l.unacked = none ∧
     (l.capDue = true ∨ l.capAt + 1000 * 12000 ≤ s.now + dt)) ∧
    (∃ (s : State) (n : Fin 16),
     let l := s.tl.link.get n
     Available s ∧
     (l.en = false ∨ l.lock = false ∨ l.retired = true ∨ l.up = true)) ∧
    (∃ (s : State) (n : Fin 16),
     let l := s.tl.link.get n
     let history (cs : List Bool) : BitVec 16 := cs.foldl (fun h v => h <<< 1 ||| if v then 0 else 1) l.rxHist
     Available s ∧
     ∃ (chars : List Bool),
     l.en = true ∧
     l.lock = true ∧
     (∀ k, k < chars.length → violations (history (chars.take k)) < 4) ∧
     chars ≠ [] ∧
     4 ≤ violations (history chars)) ∧
    (∃ (s : State) (n : Fin 16),
     let l := s.tl.link.get n
     let history (cs : List Bool) : BitVec 16 := cs.foldl (fun h v => h <<< 1 ||| if v then 0 else 1) l.rxHist
     Available s ∧
     ∃ (chars : List Bool),
     l.en = true ∧
     l.lock = true ∧
     (∀ k, k < chars.length → violations (history (chars.take k)) < 4) ∧
     violations (history chars) < 4) ∧
    (∃ (s : State) (dt : Nat) (n : Fin 16),
     let l := s.tl.link.get n
     Available s ∧
     l.en = true ∧
     l.up = true ∧
     l.retired = false ∧
     l.rxto ≠ 0 ∧
     l.lastIn + l.rxto * 12000 < s.now + dt ∧
     l.vital = true) ∧
    (∃ (s : State) (dt : Nat) (n : Fin 16),
     let l := s.tl.link.get n
     Available s ∧
     l.en = true ∧
     l.up = true ∧
     l.retired = false ∧
     l.rxto ≠ 0 ∧
     l.lastIn + l.rxto * 12000 < s.now + dt ∧
     l.vital = false) ∧
    (∃ (s : State) (dt : Nat) (n : Fin 16),
     let l := s.tl.link.get n
     Available s ∧
     (l.en = false ∨ l.up = false ∨ l.rxto = 0 ∨ s.now + dt ≤ l.lastIn + l.rxto * 12000)) ∧
    (∃ (s : State),
     Available s) := by
  refine
    ⟨⟨(live).modLink 4 fun l => { l with cfg := 12940288346, rxcfg := 50331650, time := 0xC80000, rxdst := 0x10002 }, 4, ?_,
      false, ?_⟩,
     ⟨(live).modLink 4 fun l => { l with cfg := 12901663066, rxcfg := 50331649, time := 13107200, rxdst := 0x10002, up := true, retired := false, image := Vector.replicate 64 7 },
      4, ?_, ?_, ?_, 2, ?_⟩,
     ⟨(live).modLink 4 fun l => { l with cfg := 12940288376, rxcfg := 50331650, time := 0xC80000, rxdst := 0x10002 }, 4, ?_,
      ?_, ?_⟩,
     ⟨(live).modLink 4 fun l => { l with cfg := 12940288347, rxcfg := 50331650, time := 0xC80000, rxdst := 0x10002, up := true, lock := true, unacked := some { kind := 2, seq := 7, units := [1, 2], tries := 1, eof := 100 } },
      4, ?_, ?_⟩,
     ⟨(live).modLink 4 fun l => { l with cfg := 12940288347, rxcfg := 50331650, time := 0xC80000, rxdst := 0x10002, txSeq := 255 },
      4, ?_, List.replicate 64 true, ?_, ?_, ?_, ?_, ?_⟩,
     ⟨(live).modLink 4 fun l => { l with cfg := 12940288347, rxcfg := 50331650, time := 0xC80000, rxdst := 0x10002, rxRun := 60 },
      4, ?_, [], ?_, ?_, ?_, ?_⟩,
     ⟨(live).modLink 4 fun l => { l with cfg := 12940288341, rxcfg := 50331650, time := 0xC80000, rxdst := 0x10002, lock := true, capAt := 5 },
      12000005, 4, ?_, ?_, ?_, ?_, ?_, ?_, ?_⟩,
     ⟨(live).modLink 4 fun l => { l with cfg := 12940288340, rxcfg := 50331650, time := 0xC80000, rxdst := 0x10002, lock := true },
      4, ?_, ?_⟩,
     ⟨(live).modLink 4 fun l => { l with cfg := 12940288347, rxcfg := 50331650, time := 0xC80000, rxdst := 0x10002, lock := true, ver := 2, up := true },
      4, ?_, [false, false, false, false], ?_, ?_, ?_, ?_, ?_⟩,
     ⟨(live).modLink 4 fun l => { l with cfg := 12940288347, rxcfg := 50331650, time := 0xC80000, rxdst := 0x10002, lock := true, up := true, ver := 2 },
      4, ?_, [], ?_, ?_, ?_, ?_⟩,
     ⟨(live).modLink 4 fun l => { l with cfg := 12940288383, rxcfg := 50334210, time := 0xC80000, rxdst := 0x10002, up := true, lastIn := 5 },
      120006, 4, ?_, ?_, ?_, ?_, ?_, ?_, ?_⟩,
     ⟨(live).modLink 4 fun l => { l with cfg := 12940288351, rxcfg := 50334210, time := 0xC80000, rxdst := 0x10002, up := true, lastIn := 5 },
      120006, 4, ?_, ?_, ?_, ?_, ?_, ?_, ?_⟩,
     ⟨(live).modLink 4 fun l => { l with cfg := 12940288382, rxcfg := 50334210, time := 0xC80000, rxdst := 0x10002, up := true, lastIn := 5 },
      120006, 4, ?_, ?_⟩,
     ⟨(live).modLink 4 fun l => { l with cfg := 12940288382, rxcfg := 50331650, time := 0xC80000, rxdst := 0x10002, up := true, retired := true, rcause := 2, crcerr := 4, drop := 3, area := { next0 := 3, next1 := 2, wrap1 := true, half := true, seq := 7, header := none } },
      ?_⟩⟩ <;>
    first | decide +kernel | (unfold Available; decide +kernel)

set_option Elab.async false in
theorem witness_FramesAreCheckedAndUsed :
    (∃ (s : State),
     Available s) ∧
    (∃ (s : State) (n : Fin 16),
     let l := s.tl.link.get n
     Available s ∧
     (l.en = false ∨ l.lock = false)) ∧
    (∃ (s : State) (n : Fin 16) (us : List Word),
     let l := s.tl.link.get n
     let v := if l.retired then l.pver else l.ver
     Available s ∧
     l.en = true ∧
     l.lock = true ∧
     frameValid v us = false) ∧
    (∃ (s : State) (n : Fin 16) (us : List Word),
     let l := s.tl.link.get n
     let h := us.headD 0
     let v := if l.retired then l.pver else l.ver
     Available s ∧
     l.en = true ∧
     l.lock = true ∧
     frameValid v us = true ∧
     hdrType h ≤ 4 ∧
     l.rxSeq = some (hdrSeq h)) ∧
    (∃ (s : State) (n : Fin 16) (us : List Word),
     let l := s.tl.link.get n
     let h := us.headD 0
     let v := if l.retired then l.pver else l.ver
     let new := frameValid v us = true ∧ hdrType h ≤ 4 ∧ l.rxSeq ≠ some (hdrSeq h)
     Available s ∧
     l.en = true ∧
     l.lock = true ∧
     new ∧
     (l.retired = true ∨ (l.up = false ∧ hdrType h ≠ 1) ∨ (l.retired = false ∧ l.up = true ∧ hdrType h = 2))) ∧
    (∃ (s : State) (n : Fin 16) (us : List Word),
     let l := s.tl.link.get n
     let h := us.headD 0
     let v := if l.retired then l.pver else l.ver
     let new := frameValid v us = true ∧ hdrType h ≤ 4 ∧ l.rxSeq ≠ some (hdrSeq h)
     Available s ∧
     l.en = true ∧
     l.lock = true ∧
     ∃ a b c,
     us = [h, a, b, c] ∧
     new ∧
     hdrType h = 1 ∧
     l.retired = false) ∧
    (∃ (s : State) (n : Fin 16) (us : List Word),
     let l := s.tl.link.get n
     let h := us.headD 0
     let v := if l.retired then l.pver else l.ver
     let new := frameValid v us = true ∧ hdrType h ≤ 4 ∧ l.rxSeq ≠ some (hdrSeq h)
     Available s ∧
     l.en = true ∧
     l.lock = true ∧
     new ∧
     hdrType h = 3 ∧
     l.retired = false ∧
     l.up = true ∧
     hdrLen h ≤ l.inlen) ∧
    (∃ (s : State) (n : Fin 16) (us : List Word),
     let l := s.tl.link.get n
     let h := us.headD 0
     let v := if l.retired then l.pver else l.ver
     let new := frameValid v us = true ∧ hdrType h ≤ 4 ∧ l.rxSeq ≠ some (hdrSeq h)
     Available s ∧
     l.en = true ∧
     l.lock = true ∧
     new ∧
     hdrType h = 3 ∧
     l.retired = false ∧
     l.up = true ∧
     l.inlen < hdrLen h) ∧
    (∃ (s : State) (n : Fin 16) (us : List Word),
     let l := s.tl.link.get n
     let h := us.headD 0
     let v := if l.retired then l.pver else l.ver
     let new := frameValid v us = true ∧ hdrType h ≤ 4 ∧ l.rxSeq ≠ some (hdrSeq h)
     Available s ∧
     l.en = true ∧
     l.lock = true ∧
     new ∧
     hdrType h = 4 ∧
     l.retired = false ∧
     l.up = true ∧
     l.mrxFits (hdrLen h + 1) = false) ∧
    (∃ (s : State) (n : Fin 16) (us : List Word),
     let l := s.tl.link.get n
     let h := us.headD 0
     let v := if l.retired then l.pver else l.ver
     let new := frameValid v us = true ∧ hdrType h ≤ 4 ∧ l.rxSeq ≠ some (hdrSeq h)
     Available s ∧
     l.en = true ∧
     l.lock = true ∧
     new ∧
     hdrType h = 4 ∧
     l.retired = false ∧
     l.up = true ∧
     l.mrxFits (hdrLen h + 1) = true) ∧
    (∃ (s : State) (n : Fin 16) (us : List Word),
     let l := s.tl.link.get n
     let h := us.headD 0
     let v := if l.retired then l.pver else l.ver
     Available s ∧
     l.en = true ∧
     l.lock = true ∧
     ∃ f,
     frameValid v us = true ∧
     hdrType h = 5 ∧
     l.unacked = some f ∧
     (l.retired = true ∨ f.seq ≠ hdrSeq h)) ∧
    (∃ (s : State) (n : Fin 16) (us : List Word),
     let l := s.tl.link.get n
     let h := us.headD 0
     let v := if l.retired then l.pver else l.ver
     Available s ∧
     l.en = true ∧
     l.lock = true ∧
     ∃ f,
     frameValid v us = true ∧
     hdrType h = 5 ∧
     l.unacked = some f ∧
     l.retired = false ∧
     f.seq = hdrSeq h ∧
     f.kind = 2 ∧
     l.up = true ∧
     l.maintDue = false) ∧
    (∃ (s : State) (n : Fin 16) (us : List Word),
     let l := s.tl.link.get n
     let h := us.headD 0
     let v := if l.retired then l.pver else l.ver
     Available s ∧
     l.en = true ∧
     l.lock = true ∧
     ∃ f,
     frameValid v us = true ∧
     hdrType h = 5 ∧
     l.unacked = some f ∧
     l.retired = false ∧
     f.seq = hdrSeq h ∧
     f.kind = 4 ∧
     l.up = true ∧
     l.maintDue = false) ∧
    (∃ (s : State) (n : Fin 16) (us : List Word),
     let l := s.tl.link.get n
     let h := us.headD 0
     let v := if l.retired then l.pver else l.ver
     Available s ∧
     l.en = true ∧
     l.lock = true ∧
     ∃ f,
     frameValid v us = true ∧
     hdrType h = 6 ∧
     l.unacked = some f ∧
     l.retired = false ∧
     f.tries < l.retry) := by
  refine
    ⟨⟨(live).modLink 4 fun l => { l with cfg := 12940288347, rxcfg := 50331650, time := 0xC80000, rxdst := 0x10002, lock := true },
      ?_⟩,
     ⟨(live).modLink 4 fun l => { l with cfg := 12940288347, rxcfg := 50331650, time := 0xC80000, rxdst := 0x10002 }, 4, ?_,
      ?_⟩,
     ⟨(live).modLink 4 fun l => { l with cfg := 12940288347, rxcfg := 50331650, time := 0xC80000, rxdst := 0x10002, lock := true, crcerr := 3 },
      4, [1, 2], ?_, ?_, ?_, ?_⟩,
     ⟨(live).modLink 4 fun l => { l with cfg := 12940288347, rxcfg := 50331650, time := 0xC80000, rxdst := 0x10002, lock := true, ver := 2, up := true, rxSeq := some 9, rxdup := 1 },
      4, (sealFrame [headerUnit 3 9 1 false, 3]), ?_, ?_, ?_, ?_, ?_, ?_⟩,
     ⟨(live).modLink 4 fun l => { l with cfg := 12940288347, rxcfg := 50331650, time := 0xC80000, rxdst := 0x10002, lock := true, ver := 1, pver := 1, retired := true },
      4, (sealFrame [headerUnit 3 9 1 false, 50]), ?_, ?_, ?_, ?_, ?_⟩,
     ⟨(live).modLink 4 fun l => { l with cfg := 12940288347, rxcfg := 50331650, time := 0xC80000, rxdst := 0x10002, lock := true, capAcked := true },
      4, (sealFrame [headerUnit 1 9 2 false, BitVec.ofNat 36 (1 + 4 * 3), BitVec.ofNat 36 (2 + 128 * 3)]), ?_, ?_, ?_,
      BitVec.ofNat 36 (1 + 4 * 3), BitVec.ofNat 36 (2 + 128 * 3),
      crcUnit [headerUnit 1 9 2 false, BitVec.ofNat 36 (1 + 4 * 3), BitVec.ofNat 36 (2 + 128 * 3)], ?_, ?_, ?_, ?_⟩,
     ⟨(live).modLink 4 fun l => { l with cfg := 12940288347, rxcfg := 50331651, time := 0xC80000, rxdst := 0x10002, lock := true, up := true, ver := 1, pver := 1, rxSeq := some 8, gapNext := true },
      4, (sealFrame [headerUnit 3 9 0 false]), ?_, ?_, ?_, ?_, ?_, ?_, ?_, ?_⟩,
     ⟨(live).modLink 4 fun l => { l with cfg := 12940288347, rxcfg := 50331650, time := 0xC80000, rxdst := 0x10002, lock := true, up := true, ver := 1, rxSeq := some 8 },
      4, (sealFrame [headerUnit 3 9 3 false, 50, 51, 52]), ?_, ?_, ?_, ?_, ?_, ?_, ?_, ?_⟩,
     ⟨(live).modLink 4 fun l => { l with cfg := 12940288347, rxcfg := 50331650, time := 0xC80000, rxdst := 0x10002, lock := true, up := true, ver := 2, mrx := 0, mrxRd := 0 },
      4, (sealFrame [headerUnit 4 9 2 false, 50, 51]), ?_, ?_, ?_, ?_, ?_, ?_, ?_, ?_⟩,
     ⟨(live).modLink 4 fun l => { l with cfg := 12940288347, rxcfg := 50331650, time := 0xC80000, rxdst := 0x10002, lock := true, up := true, ver := 2, mrx := 16777216, mrxWr := 15, mrxRd := 15 },
      4, (sealFrame [headerUnit 4 9 2 false, 50, 51]), ?_, ?_, ?_, ?_, ?_, ?_, ?_, ?_⟩,
     ⟨(live).modLink 4 fun l => { l with cfg := 12940288347, rxcfg := 50331650, time := 0xC80000, rxdst := 0x10002, lock := true, up := true, ver := 1, unacked := some { kind := 2, seq := 7, units := [1, 2], tries := 1, eof := 100 } },
      4, (sealFrame [headerUnit 5 8 0 false]), ?_, ?_, ?_, { kind := 2, seq := 7, units := [1, 2], tries := 1, eof := 100 },
      ?_, ?_, ?_, ?_⟩,
     ⟨(live).modLink 4 fun l => { l with cfg := 12940288347, rxcfg := 50331650, time := 0xC80000, rxdst := 0x10002, lock := true, up := true, ver := 1, unacked := some { kind := 2, seq := 7, units := [1, 2], tries := 1, eof := 100 } },
      4, (sealFrame [headerUnit 5 7 0 false]), ?_, ?_, ?_, { kind := 2, seq := 7, units := [1, 2], tries := 1, eof := 100 },
      ?_, ?_, ?_, ?_, ?_, ?_, ?_, ?_⟩,
     ⟨(live).modLink 4 fun l => { l with cfg := 12940288347, rxcfg := 50331650, time := 0xC80000, rxdst := 0x10002, lock := true, up := true, ver := 2, mtxBusy := true, unacked := some { kind := 4, seq := 7, units := [1, 2], tries := 1, eof := 100 } },
      4, (sealFrame [headerUnit 5 7 0 false]), ?_, ?_, ?_, { kind := 4, seq := 7, units := [1, 2], tries := 1, eof := 100 },
      ?_, ?_, ?_, ?_, ?_, ?_, ?_, ?_⟩,
     ⟨(live).modLink 4 fun l => { l with cfg := 12940288347, rxcfg := 50331650, time := 0xC80000, rxdst := 0x10002, lock := true, up := true, ver := 2, retries := 3, unacked := some { kind := 2, seq := 7, units := [1, 2], tries := 1, eof := 100 } },
      4, (sealFrame [headerUnit 6 0 0 false]), ?_, ?_, ?_, { kind := 2, seq := 7, units := [1, 2], tries := 1, eof := 100 },
      ?_, ?_, ?_, ?_, ?_⟩⟩ <;>
    first | decide +kernel | (unfold Available; decide +kernel)

set_option Elab.async false in
theorem witness_FramesAreSentAndRecordsPoisoned :
    (∃ (s : State) (dt : Nat) (n : Fin 16),
     let l := s.tl.link.get n
     Available s ∧
     ∃ f,
     l.unacked = some f ∧
     f.eof + l.ackto * 480 < s.now + dt ∧
     f.tries < l.retry) ∧
    (∃ (s : State) (dt : Nat) (n : Fin 16),
     let l := s.tl.link.get n
     Available s ∧
     ∃ f,
     l.unacked = some f ∧
     f.eof + l.ackto * 480 < s.now + dt ∧
     l.retry ≤ f.tries ∧
     l.retired = false) ∧
    (∃ (s : State) (dt : Nat) (n : Fin 16),
     let l := s.tl.link.get n
     Available s ∧
     (∀ f, l.unacked = some f → s.now + dt ≤ f.eof + l.ackto * 480)) ∧
    (∃ (s : State) (dt : Nat) (n : Fin 16),
     let l := s.tl.link.get n
     let outDue := l.en = true ∧ l.up = true ∧ l.sendsSafe = false ∧ l.unacked = none ∧
      (l.outDue = true ∨ (l.oper ≠ 0 ∧ l.lastOut + l.oper * 480 ≤ s.now + dt))
     Available s ∧
     outDue) ∧
    (∃ (s : State) (dt : Nat) (n : Fin 16),
     let l := s.tl.link.get n
     let outDue := l.en = true ∧ l.up = true ∧ l.sendsSafe = false ∧ l.unacked = none ∧
      (l.outDue = true ∨ (l.oper ≠ 0 ∧ l.lastOut + l.oper * 480 ≤ s.now + dt))
     Available s ∧
     ¬ outDue) ∧
    (∃ (s : State) (dt : Nat) (n : Fin 16),
     let l := s.tl.link.get n
     let period := if l.oper = 0 then 1200000 else l.oper * 480
     let safeDue := l.sendsSafe = true ∧ (l.up = true ∨ l.retired = true) ∧ (l.safeDue = true ∨
      (l.lastSafe + period ≤ s.now + dt ∧ (l.retired = true ∨ (l.oper ≠ 0 ∧ l.unacked = none))))
     Available s ∧
     safeDue) ∧
    (∃ (s : State) (dt : Nat) (n : Fin 16),
     let l := s.tl.link.get n
     let period := if l.oper = 0 then 1200000 else l.oper * 480
     let safeDue := l.sendsSafe = true ∧ (l.up = true ∨ l.retired = true) ∧ (l.safeDue = true ∨
      (l.lastSafe + period ≤ s.now + dt ∧ (l.retired = true ∨ (l.oper ≠ 0 ∧ l.unacked = none))))
     Available s ∧
     ¬ safeDue) ∧
    (∃ (s : State) (n : Fin 16),
     let l := s.tl.link.get n
     Available s ∧
     l.mtxBusy = true) ∧
    (∃ (s : State) (n : Fin 16),
     let l := s.tl.link.get n
     let noAccess := ∀ k, (s.tl.link.get k).mtxTxs = [] ∧ ∀ f ∈ (s.tl.link.get k).mrxFrames, f.txs = []
     Available s ∧
     l.mtxBusy = false ∧
     noAccess ∧
     1 ≤ l.mtxLen.toNat ∧
     l.mtxLen.toNat + s.wharf.cur.get 14 ≤ 32) ∧
    (∃ (s : State) (n : Fin 16),
     let l := s.tl.link.get n
     let noAccess := ∀ k, (s.tl.link.get k).mtxTxs = [] ∧ ∀ f ∈ (s.tl.link.get k).mrxFrames, f.txs = []
     Available s ∧
     ∃ r,
     l.mtxBusy = true ∧
     noAccess ∧
     l.mtxLen.toNat = l.mtxGot.length + 1 ∧
     l.up = true ∧
     l.unacked = none ∧
     s.wharf.resps.find? (fun x => x.init == 14 && x.id == BitVec.ofNat 5 n.val) = some r ∧
     r.write = false) ∧
    (∃ (s : State) (n : Fin 16),
     let l := s.tl.link.get n
     let noAccess := ∀ k, (s.tl.link.get k).mtxTxs = [] ∧ ∀ f ∈ (s.tl.link.get k).mrxFrames, f.txs = []
     Available s ∧
     ∃ r f fs,
     noAccess ∧
     l.mrxFrames = f :: fs ∧
     f.left = 1 ∧
     l.maintDue = false ∧
     s.wharf.resps.find? (fun x => x.init == 14 && x.id == BitVec.ofNat 5 n.val) = some r ∧
     r.write = true) ∧
    (∃ (s : State) (dt : Nat) (n : Fin 16),
     let l := s.tl.link.get n
     let due := l.en = true ∧ (l.retired = true ∨ l.up = false) ∧ l.frz = false ∧
      l.lastPoison + (if l.rxto = 0 then 1000 else l.rxto) * 12000 ≤ s.now + dt
     Available s ∧
     due) ∧
    (∃ (s : State) (dt : Nat) (n : Fin 16),
     let l := s.tl.link.get n
     let due := l.en = true ∧ (l.retired = true ∨ l.up = false) ∧ l.frz = false ∧
      l.lastPoison + (if l.rxto = 0 then 1000 else l.rxto) * 12000 ≤ s.now + dt
     Available s ∧
     ¬ due) ∧
    (∃ (s : State),
     Available s ∧
     ∃ (task : Fin 256),
     BitVec.ofNat 8 task.val ∉ s.tl.freezes) ∧
    (∃ (s : State),
     Available s ∧
     ∃ (task : Fin 256),
     BitVec.ofNat 8 task.val ∈ s.tl.freezes) := by
  refine
    ⟨⟨(live).modLink 4 fun l => { l with cfg := 12940288347, rxcfg := 50331650, time := 0xC80000, rxdst := 0x10002, up := true, unacked := some { kind := 2, seq := 7, units := [1, 2], tries := 0, eof := 100 }, retries := 0 },
      96112, 4, ?_, { kind := 2, seq := 7, units := [1, 2], tries := 0, eof := 100 }, ?_, ?_, ?_⟩,
     ⟨(live).modLink 4 fun l => { l with cfg := 12940288347, rxcfg := 50331650, time := 0xC80000, rxdst := 0x10002, lock := true, up := true, mtxBusy := true, unacked := some { kind := 2, seq := 7, units := [1, 2], tries := 3, eof := 100 } },
      96112, 4, ?_, { kind := 2, seq := 7, units := [1, 2], tries := 3, eof := 100 }, ?_, ?_, ?_, ?_⟩,
     ⟨(live).modLink 4 fun l => { l with cfg := 12940288347, rxcfg := 50331650, time := 0xC80000, rxdst := 0x10002, up := true, unacked := none },
      96100, 4, ?_, ?_⟩,
     ⟨(live).modLink 4 fun l => { l with cfg := 12940288347, rxcfg := 50331650, time := 0xC80000, rxdst := 0x10002, image := ((live.tl.link.get 4).image.set 0 5).set 1 6, imageDate := 77, txSeq := 8, up := true, groupSafe := false, ver := 1, outDue := true },
      0, 4, ?_, ?_⟩,
     ⟨(live).modLink 4 fun l => { l with cfg := 12940288379, rxcfg := 50331650, time := 0xC80000, rxdst := 0x10002, up := true, outDue := true },
      12, 4, ?_, ?_⟩,
     ⟨(live).modLink 4 fun l => { l with cfg := 12940288379, rxcfg := 50331650, time := 0xC80000, rxdst := 0x10002, image := ((live.tl.link.get 4).image.set 0 5).set 1 6, imageDate := 77, txSeq := 8, up := true, retired := false, ver := 1, pver := 1, safeDue := true },
      12, 4, ?_, ?_⟩,
     ⟨(live).modLink 4 fun l => { l with cfg := 12940288347, rxcfg := 50331650, time := 0xC80000, rxdst := 0x10002, up := true, safeDue := true },
      12, 4, ?_, ?_⟩,
     ⟨(live).modLink 4 fun l => { l with cfg := 12940288347, rxcfg := 50331650, time := 0xC80000, rxdst := 0x10002, mtxBusy := true },
      4, ?_, ?_⟩,
     ⟨(live).modLink 4 fun l => { l with cfg := 12940288347, rxcfg := 50331650, time := 0xC80000, rxdst := 0x10002, up := true, mtxLen := 3, mtxAddr := 0, mtxGot := [5] },
      4, ?_, ?_, ?_, ?_, ?_⟩,
     ⟨{ ((live).modLink 4 fun l => { l with cfg := 12940288347, rxcfg := 50331650, time := 0xC80000, rxdst := 0x10002, up := true, ver := 2, mtxBusy := true, mtxLen := 3, mtxGot := [5, 6] }) with wharf := { live.wharf with cur := vput live.wharf.cur 14 1, resps := [{ init := 14, id := 4, write := false, status := .ok, data := [7], seq := 0 }] } },
      4, ?_, { init := 14, id := 4, write := false, status := .ok, data := [7], seq := 0 }, ?_, ?_, ?_, ?_, ?_, ?_, ?_⟩,
     ⟨{ ((live).modLink 4 fun l => { l with cfg := 12940288347, rxcfg := 50331650, time := 0xC80000, rxdst := 0x10002, up := true, ver := 2, mrx := 16777216, mrxWr := 15, mrxFrames := [{ txs := [], left := 1, size := 3 }, { txs := [], left := 2, size := 4 }] }) with wharf := { live.wharf with cur := vput live.wharf.cur 14 1, resps := [{ init := 14, id := 4, write := true, status := .ok, data := [], seq := 0 }] } },
      4, ?_, { init := 14, id := 4, write := true, status := .ok, data := [], seq := 0 },
      { txs := [], left := 1, size := 3 }, [{ txs := [], left := 2, size := 4 }], ?_, ?_, ?_, ?_, ?_, ?_⟩,
     ⟨(live).modLink 4 fun l => { l with cfg := 12940288347, rxcfg := 50331651, time := 0xC80000, rxdst := 0x10002, up := false, retired := false, pver := 1, lastPoison := 5 },
      12000005, 4, ?_, ?_⟩,
     ⟨(live).modLink 4 fun l => { l with cfg := 12940288347, rxcfg := 50331651, time := 0xC80000, rxdst := 0x10002, up := false, retired := false, pver := 1, lastPoison := 5 },
      4, 4, ?_, ?_⟩,
     ⟨withTl live fun x => { x with freezes := [9] }, ?_, 5, ?_⟩,
     ⟨withTl ((live).modLink 4 fun l => { l with cfg := 12940288379, rxcfg := 50331651, time := 0xC80000, rxdst := 184811522, up := true, retired := false, pver := 3, fifo := [{ src := 4, half := true, words := [1], time := 480 }, { src := 4, half := false, words := [1], time := 0 }], area := { next0 := 3, next1 := 2, wrap1 := true, half := true, seq := 7, header := none } }) fun x => { x with freezes := [9, 5, 3] },
      ?_, 5, ?_⟩⟩ <;>
    first | decide +kernel | (unfold Available; decide +kernel)

set_option Elab.async false in
theorem witness_ClocksAndSuppliesAreWatched :
    (∃ (s : State),
     Available s) ∧
    (∃ (s : State),
     Available s ∧
     ∃ (p : PllIx),
     bit s.crp.locked p.val = true) ∧
    (∃ (s : State),
     Available s ∧
     ∃ (p : PllIx),
     bit s.crp.locked p.val = false) ∧
    (∃ (s : State),
     Available s ∧
     ∃ (clk : Clk) (count e : Nat),
     e = (match clk with
      | .bclk n => (if s.crp.profile = 2 then 12000 else 16000) / 2 ^ (s.crp.bpwr.get n).tdiv.toNat
      | .pclk => 8000
      | .fclk => 6400
      | .xclk => if s.crp.profile = 0 then 12800 else 9600
      | .hclk => 9600
      | .tclk => 400
      | .refclk => 1600) ∧
     let runs := match clk with
      | .bclk n => s.crp.armed = true ∧ (s.crp.bpwr.get n).cur = 0
      | _ => s.crp.armed = true
     runs ∧
     (800 * count < 94 * e ∨ 106 * e < 800 * count)) ∧
    (∃ (s : State),
     Available s ∧
     ∃ (clk : Clk) (count e : Nat),
     e = (match clk with
      | .bclk n => (if s.crp.profile = 2 then 12000 else 16000) / 2 ^ (s.crp.bpwr.get n).tdiv.toNat
      | .pclk => 8000
      | .fclk => 6400
      | .xclk => if s.crp.profile = 0 then 12800 else 9600
      | .hclk => 9600
      | .tclk => 400
      | .refclk => 1600) ∧
     let runs := match clk with
      | .bclk n => s.crp.armed = true ∧ (s.crp.bpwr.get n).cur = 0
      | _ => s.crp.armed = true
     runs ∧
     94 * e ≤ 800 * count ∧
     800 * count ≤ 106 * e) ∧
    (∃ (s : State),
     Available s ∧
     ∃ (clk : Clk) (e : Nat),
     e = (match clk with
      | .bclk n => (if s.crp.profile = 2 then 12000 else 16000) / 2 ^ (s.crp.bpwr.get n).tdiv.toNat
      | .pclk => 8000
      | .fclk => 6400
      | .xclk => if s.crp.profile = 0 then 12800 else 9600
      | .hclk => 9600
      | .tclk => 400
      | .refclk => 1600) ∧
     let runs := match clk with
      | .bclk n => s.crp.armed = true ∧ (s.crp.bpwr.get n).cur = 0
      | _ => s.crp.armed = true
     ¬ runs) ∧
    (∃ (s : State),
     Available s ∧
     s.crp.armed = false) ∧
    (∃ (s : State),
     Available s ∧
     s.crp.armed = true) ∧
    (∃ (s : State),
     Available s ∧
     s.kp.powered = false) ∧
    (∃ (s : State),
     Available s ∧
     s.kp.powered = true) := by
  refine
    ⟨⟨withCrp live fun c => { c with locked := 0x1F, armed := false }, ?_⟩,
     ⟨withPwm live fun x => { x with calok := true }, ?_, 0, ?_⟩,
     ⟨withCrp live fun c => { c with locked := 0x1E }, ?_, 0, ?_⟩,
     ⟨withKp (withCrp live fun c => { c with profile := 0 }) fun k => { k with mode := .running }, ?_, .pclk, 939, 8000, ?_,
      ?_, ?_⟩,
     ⟨withCrp live fun c => { c with profile := 0, clkbad := 0x3FFFF }, ?_, .pclk, 940, 8000, ?_, ?_, ?_, ?_⟩,
     ⟨withCrp live fun c => { c with armed := false }, ?_, .pclk, 8000, ?_, ?_⟩,
     ⟨withCrp live fun c => { c with armed := false }, ?_, ?_⟩,
     ⟨withCrp live fun c => { c with inr := 0x3F, iobank := c.iobank.map fun b => { b with inr := true, mon := true } }, ?_,
      ?_⟩,
     ⟨withKp live fun k => { k with powered := false, testHold := true }, ?_, ?_⟩,
     ⟨live, ?_, ?_⟩⟩ <;>
    first | decide +kernel | (unfold Available; decide +kernel)

set_option Elab.async false in
theorem witness_HeatTimeAndPowerFollowTheirRules :
    (∃ (s : State) (rs : List (BitVec 12 × Bool)),
     Available s ∧
     rs.length = 8) ∧
    (∃ (s : State),
     Available s) ∧
    (∃ (s : State) (dt : Nat),
     Available s ∧
     let c := (s.elapse dt).crp
     let comes := s.crp.stIntvl ≠ 0 ∧ s.crp.trimAt + max 10 s.crp.stIntvl.toNat * 12000 ≤ s.now + dt ∧
      (s.crp.stDir = true → c.stTime ≠ s.crp.stTime)
     comes) ∧
    (∃ (s : State) (dt : Nat),
     Available s ∧
     let c := (s.elapse dt).crp
     let comes := s.crp.stIntvl ≠ 0 ∧ s.crp.trimAt + max 10 s.crp.stIntvl.toNat * 12000 ≤ s.now + dt ∧
      (s.crp.stDir = true → c.stTime ≠ s.crp.stTime)
     ¬ comes) ∧
    (∃ (s : State),
     Available s ∧
     ∃ (n : BasinIx) (v : Word),
     let r : BitVec 2 := fld v 0 2
     vheld s n = true ∧
     r ≠ 0) ∧
    (∃ (s : State),
     Available s ∧
     ∃ (n : BasinIx) (v : Word),
     let p := s.crp.bpwr.get n
     let r : BitVec 2 := fld v 0 2
     (vheld s n = false ∨ r = 0) ∧
     p.target.isSome = true) ∧
    (∃ (s : State),
     Available s ∧
     ∃ (n : BasinIx) (v : Word),
     let p := s.crp.bpwr.get n
     let r : BitVec 2 := fld v 0 2
     (vheld s n = false ∨ r = 0) ∧
     p.target = none ∧
     p.cur ≠ 1 ∧
     p.cur ≠ r ∧
     2 ≤ r.toNat) ∧
    (∃ (s : State),
     Available s ∧
     ∃ (n : BasinIx) (v : Word),
     let p := s.crp.bpwr.get n
     let r : BitVec 2 := fld v 0 2
     (vheld s n = false ∨ r = 0) ∧
     p.target = none ∧
     2 ≤ p.cur.toNat ∧
     r.toNat ≤ 1) ∧
    (∃ (s : State),
     Available s ∧
     ∃ (n : BasinIx) (v : Word),
     let p := s.crp.bpwr.get n
     let r : BitVec 2 := fld v 0 2
     (vheld s n = false ∨ r = 0) ∧
     p.target = none ∧
     (p.cur = 1 ∨ (p.cur = 0 ∧ r.toNat ≤ 1) ∨ (p.cur = r ∧ 2 ≤ r.toNat))) ∧
    (∃ (s : State) (dt : Nat),
     Available s ∧
     ∃ (n : BasinIx),
     let p := s.crp.bpwr.get n
     let e := s.elapse dt
     let pendingIrq (g : BargeIx) := (selectInterrupt (s.barges.get g) (bclkCount e n)).isSome = true
     p.cur = 0 ∧
     p.target = none ∧
     p.req.toNat ≤ 1 ∧
     p.autob1 = true ∧
     vheld s n = false ∧
     (∀ g, basinOf g = n → let b := s.barges.get g
      (bit s.crp.bhold g.val = true ∨ waitsLonger e n 2000 b = true) ∧ drained b = true ∧ b.xluq = [] ∧ ¬ pendingIrq g)) ∧
    (∃ (s : State),
     Available s ∧
     ∃ (n : BasinIx),
     let p := s.crp.bpwr.get n
     (vheld s n = true ∨ p.autob1 = false ∨ p.cur ≠ 0)) ∧
    (∃ (s : State) (dt : Nat),
     Available s ∧
     ∃ (n : BasinIx),
     let p := s.crp.bpwr.get n
     let e := s.elapse dt
     let pendingIrq (g : BargeIx) := (selectInterrupt (s.barges.get g) (bclkCount e n)).isSome = true
     let wakes := vheld s n = true ∨ p.changed = true ∨ portAWanted s n = true ∨ ∃ g, basinOf g = n ∧
      bit s.crp.bhold g.val = false ∧
        (((s.barges.get g).wait.isSome = true ∧ waitsLonger e n 600 (s.barges.get g) = false) ∨ pendingIrq g)
     p.cur = 1 ∧
     wakes) ∧
    (∃ (s : State) (dt : Nat),
     Available s ∧
     ∃ (n : BasinIx),
     let p := s.crp.bpwr.get n
     let e := s.elapse dt
     let pendingIrq (g : BargeIx) := (selectInterrupt (s.barges.get g) (bclkCount e n)).isSome = true
     let wakes := vheld s n = true ∨ p.changed = true ∨ portAWanted s n = true ∨ ∃ g, basinOf g = n ∧
      bit s.crp.bhold g.val = false ∧
        (((s.barges.get g).wait.isSome = true ∧ waitsLonger e n 600 (s.barges.get g) = false) ∨ pendingIrq g)
     (p.cur ≠ 1 ∨ ¬ wakes)) ∧
    (∃ (s : State),
     Available s ∧
     ∃ (n : BasinIx) (goal : BitVec 2),
     let p := s.crp.bpwr.get n
     p.target = some goal ∧
     p.cur = 3 ∧
     (s.basins.get n).testing = true) ∧
    (∃ (s : State),
     Available s ∧
     ∃ (n : BasinIx) (goal : BitVec 2),
     let p := s.crp.bpwr.get n
     p.target = some goal ∧
     (p.cur ≠ 3 ∨ (s.basins.get n).testing = false) ∧
     goal ≠ 0 ∧
     vheld s n = true) ∧
    (∃ (s : State),
     Available s ∧
     ∃ (n : BasinIx) (goal : BitVec 2),
     let p := s.crp.bpwr.get n
     p.target = some goal ∧
     (p.cur ≠ 3 ∨ (s.basins.get n).testing = false) ∧
     (goal = 0 ∨ vheld s n = false)) := by
  refine
    ⟨⟨withCrp live fun c => { c with hotRun := vput c.hotRun 1 0, level := 0 },
      [(100, false), (480, false), (90, false), (0xFFF, false), (7, false), (8, false), (9, false), (10, false)], ?_, ?_⟩,
     ⟨withCrp (withKp live fun k => { k with mode := .starting }) fun c => { c with bhold := BitVec.allOnes 48, stsetl := 0xABCDEF012 },
      ?_⟩,
     ⟨withCrp live fun c => { c with stIntvl := 10, stDir := true, trimAt := 5, stTime := 7 }, 120005, ?_, ?_⟩,
     ⟨withCrp live fun c => { c with stIntvl := 0, stDir := true, trimAt := 5, stTime := 7 }, 120005, ?_, ?_⟩,
     ⟨withKp live fun k => { k with tasks := vmod k.tasks 3 fun t => { t with tstate := 1, onbarge := 9 } }, ?_, 2, 0x12, ?_,
      ?_⟩,
     ⟨withCrp (live) fun c => { c with bpwr := vmod c.bpwr 2 fun p => { p with target := some 2 } }, ?_, 2, 0x12, ?_, ?_⟩,
     ⟨withCrp (live) fun c => { c with bpwr := vmod c.bpwr 2 fun p => { p with cur := 0 } }, ?_, 2, 0x12, ?_, ?_, ?_, ?_, ?_⟩,
     ⟨withCrp (live) fun c => { c with bpwr := vmod c.bpwr 2 fun p => { p with cur := 2, req := 2 } }, ?_, 2, 0, ?_, ?_, ?_,
      ?_⟩,
     ⟨withCrp (live) fun c => { c with bpwr := vmod c.bpwr 2 fun p => { p with cur := 1, req := 0 } }, ?_, 2, 2, ?_, ?_, ?_⟩,
     ⟨withCrp (withCrp live fun c => { c with bhold := 0xF00 }) fun c => { c with bpwr := vmod c.bpwr 2 fun p => { p with autob1 := true, req := 0 } },
      12, ?_, 2, ?_, ?_, ?_, ?_, ?_, ?_⟩,
     ⟨withCrp (withKp live fun k => { k with tasks := vmod k.tasks 3 fun t => { t with tstate := 1, onbarge := 9 } }) fun c => { c with bpwr := vmod c.bpwr 2 fun p => { p with autob1 := true } },
      ?_, 2, ?_⟩,
     ⟨withCrp (live) fun c => { c with bpwr := vmod c.bpwr 2 fun p => { p with cur := 1, changed := true } }, 12, ?_, 2, ?_,
      ?_⟩,
     ⟨withCrp (live) fun c => { c with bpwr := vmod c.bpwr 2 fun p => { p with changed := true } }, 12, ?_, 2, ?_⟩,
     ⟨(withCrp (live) fun c => { c with bpwr := vmod c.bpwr 2 fun p => { p with cur := 3, target := some 0 } }).modBasin 2 fun x => { x with testing := true },
      ?_, 2, 0, ?_, ?_, ?_⟩,
     ⟨withCrp (withKp live fun k => { k with tasks := vmod k.tasks 3 fun t => { t with tstate := 1, onbarge := 9 } }) fun c => { c with bpwr := vmod c.bpwr 2 fun p => { p with cur := 0, target := some 2 } },
      ?_, 2, 2, ?_, ?_, ?_, ?_⟩,
     ⟨(withCrp (live) fun c => { c with bpwr := vmod c.bpwr 2 fun p => { p with cur := 0, target := some 2, waking := true } }).modBasin 2 fun x => { x with mem := { cells := [(5, 3)], marks := [(9, .ce)] } },
      ?_, 2, 2, ?_, ?_, ?_⟩⟩ <;>
    first | decide +kernel | (unfold Available; decide +kernel)

set_option Elab.async false in
theorem witness_ColdAndWarmResetsCoverTheDevice :
    (∃ (s : State) (dt : Nat),
     Available s ∧
     let period := if s.crp.profile = 0 then 15 else 20
     let merged := s.crp.warmAt.any fun x => x / period == (s.now + dt) / period
     merged = false ∧
     ∃ (w : Nat),
     1000 ≤ w) ∧
    (∃ (s : State) (dt : Nat),
     Available s ∧
     let period := if s.crp.profile = 0 then 15 else 20
     let merged := s.crp.warmAt.any fun x => x / period == (s.now + dt) / period
     merged = false ∧
     ∃ (w : Nat),
     200 ≤ w ∧
     w < 1000) ∧
    (∃ (s : State) (dt : Nat),
     Available s ∧
     let period := if s.crp.profile = 0 then 15 else 20
     let merged := s.crp.warmAt.any fun x => x / period == (s.now + dt) / period
     merged = false ∧
     ∃ (v : Word),
     bit v 12 = true ∧
     bitsN v 16 8 = 0xA5) ∧
    (∃ (s : State) (dt : Nat),
     Available s ∧
     let period := if s.crp.profile = 0 then 15 else 20
     let merged := s.crp.warmAt.any fun x => x / period == (s.now + dt) / period
     merged = false) ∧
    (∃ (s : State) (dt : Nat),
     Available s ∧
     let period := if s.crp.profile = 0 then 15 else 20
     let merged := s.crp.warmAt.any fun x => x / period == (s.now + dt) / period
     merged = true ∧
     ∃ (w : Nat),
     1000 ≤ w) ∧
    (∃ (s : State) (dt : Nat),
     Available s ∧
     let period := if s.crp.profile = 0 then 15 else 20
     let merged := s.crp.warmAt.any fun x => x / period == (s.now + dt) / period
     merged = true ∧
     ∃ (v : Word),
     bit v 12 = true ∧
     bitsN v 16 8 = 0xA5) ∧
    (∃ (s : State) (dt : Nat),
     Available s ∧
     let period := if s.crp.profile = 0 then 15 else 20
     let merged := s.crp.warmAt.any fun x => x / period == (s.now + dt) / period
     merged = true) ∧
    (∃ (s : State),
     Available s ∧
     ∃ (w : Nat),
     w < 200) ∧
    (∃ (s : State),
     Available s ∧
     ∃ (v : Word),
     (bit v 12 = false ∨ bitsN v 16 8 ≠ 0xA5)) ∧
    (∃ (s : State),
     Available s ∧
     ∃ (r : Rail),
     (r = .core ∨ r = .sram ∨ r = .nvm)) ∧
    (∃ (s : State),
     Available s ∧
     ∃ (r : Rail),
     r ≠ .core ∧
     r ≠ .sram ∧
     r ≠ .nvm) ∧
    (∃ (s : State),
     Available s) := by
  refine
    ⟨⟨withSec (withCrp live fun c => { c with pins := { c.pins with profile := 0 } }) fun x => { x with fuses := { x.fuses with pfuse := 2, plock := false }, loaded := { x.loaded with pfuse := 1 }, lockout := true },
      12, ?_, ?_, 1000, ?_⟩,
     ⟨live, 12, ?_, ?_, 200, ?_, ?_⟩,
     ⟨live, 12, ?_, ?_, 0xA51000, ?_, ?_⟩,
     ⟨live, 12, ?_, ?_⟩,
     ⟨withCrp live fun c => { c with warmAt := some 0, src := 3 }, 12, ?_, ?_, 1000, ?_⟩,
     ⟨withCrp live fun c => { c with warmAt := some 0, src := 3 }, 12, ?_, ?_, 0xA51000, ?_, ?_⟩,
     ⟨withCrp live fun c => { c with warmAt := some 0, src := 3 }, 12, ?_, ?_⟩,
     ⟨live, ?_, 0, ?_⟩,
     ⟨live, ?_, 0x5, ?_⟩,
     ⟨live, ?_, .core, ?_⟩,
     ⟨live, ?_, .kp, ?_, ?_, ?_⟩,
     ⟨withSec ({ live with rv := { live.rv with mem := { cells := [(5, 3)], marks := [] } } } : State) fun x => { x with fuses := { x.fuses with pfuse := 0, plock := false } },
      ?_⟩⟩ <;>
    first | decide +kernel | (unfold Available; decide +kernel)

set_option Elab.async false in
theorem witness_BasinAndBargeResetsKeepTheRest :
    (∃ (s : State),
     Available s ∧
     let resets (n : BasinIx) := (s.basins.get n).testing = true ∧ (s.basins.get n).waking = false
     ∃ (n : BasinIx),
     resets n) ∧
    (∃ (s : State),
     Available s ∧
     let resets (n : BasinIx) := (s.basins.get n).testing = true ∧ (s.basins.get n).waking = false
     ∃ (n : BasinIx),
     ¬ resets n) ∧
    (∃ (s : State),
     Available s ∧
     let resets (n : BasinIx) := (s.basins.get n).testing = true ∧ (s.basins.get n).waking = false
     ∃ (g : BargeIx),
     resets (basinOf g)) ∧
    (∃ (s : State),
     Available s ∧
     let resets (n : BasinIx) := (s.basins.get n).testing = true ∧ (s.basins.get n).waking = false
     ∃ (g : BargeIx),
     ¬ resets (basinOf g)) ∧
    (∃ (s : State),
     Available s) ∧
    (∃ (s : State),
     Available s ∧
     ∃ (n : BasinIx),
     let x := s.basins.get n
     x.testing = true ∧
     s.crp.armed = true) ∧
    (∃ (s : State),
     Available s ∧
     ∃ (n : BasinIx),
     let x := s.basins.get n
     (x.testing = false ∨ s.crp.armed = false)) ∧
    (∃ (s : State),
     Available s ∧
     ∃ (p : Fin 4),
     let x := s.rv.ports.get p
     x.done = false ∧
     s.crp.armed = true) ∧
    (∃ (s : State),
     Available s ∧
     ∃ (p : Fin 4),
     let x := s.rv.ports.get p
     (x.done = true ∨ s.crp.armed = false)) := by
  refine
    ⟨⟨(withKp (liveT .running 1200 fun t => { t with tstate := 1 }) fun k => { k with retired := 0x800000000600 }).modBasin 2 fun x => { x with testing := true, waking := false, mem := { cells := [(5, 3)], marks := [(20000, .stuck), (9, .ue)] } },
      ?_, 2, ?_⟩,
     ⟨withKp (liveT .running 1200 fun t => { t with tstate := 1 }) fun k => { k with retired := 0x800000000600 }, ?_, 2, ?_⟩,
     ⟨(withKp (liveT .running 1200 fun t => { t with tstate := 1 }) fun k => { k with retired := 0x800000000600 }).modBasin 2 fun x => { x with testing := true, waking := false, mem := { cells := [(5, 3)], marks := [(20000, .stuck), (9, .ue)] } },
      ?_, 9, ?_⟩,
     ⟨withKp (liveT .running 1200 fun t => { t with tstate := 1 }) fun k => { k with retired := 0x800000000600 }, ?_, 9, ?_⟩,
     ⟨withKp (withCrp live fun c => { c with bhold := 0x800000000601 }) fun k => { k with retired := 0x800000000400 }, ?_⟩,
     ⟨(live).modBasin 2 fun x => { x with testing := true, waking := false, mem := { cells := [(5, 3)], marks := [(20000, .stuck), (9, .ue)] } },
      ?_, 2, ?_, ?_⟩,
     ⟨live, ?_, 2, ?_⟩,
     ⟨{ live with rv := { mem := { cells := [(5, 3)], marks := [(65536 * 13, .stuck)] } } }, ?_, 3, ?_, ?_⟩,
     ⟨live, ?_, 3, ?_⟩⟩ <;>
    first | decide +kernel | (unfold Available; decide +kernel)

set_option Elab.async false in
theorem witness_FirmwareAndFusesAreGuarded :
    (∃ (s : State),
     Available s ∧
     let boots := s.crp.armed = true ∧ s.fw.up = false
     let fromStore := s.fw.recovery = false ∧ s.crp.bootMode ≠ 1 ∧ ¬ (s.crp.bootMode = 2 ∧ s.sec.loaded.life = 0)
     boots ∧
     fromStore) ∧
    (∃ (s : State),
     Available s ∧
     let boots := s.crp.armed = true ∧ s.fw.up = false
     let fromStore := s.fw.recovery = false ∧ s.crp.bootMode ≠ 1 ∧ ¬ (s.crp.bootMode = 2 ∧ s.sec.loaded.life = 0)
     ¬ (boots ∧ fromStore)) ∧
    (∃ (s : State),
     Available s ∧
     let boots := s.crp.armed = true ∧ s.fw.up = false
     let fromUart := s.fw.recovery = true ∨ s.crp.bootMode = 1
     boots ∧
     fromUart) ∧
    (∃ (s : State),
     Available s ∧
     let boots := s.crp.armed = true ∧ s.fw.up = false
     let fromUart := s.fw.recovery = true ∨ s.crp.bootMode = 1
     ¬ (boots ∧ fromUart)) ∧
    (∃ (s : State) (dt : Nat) (v : Word),
     Available s ∧
     let x := s.sec
     let f := x.fuses
     let slot : Fin 4 := ⟨bitsN v 4 2 % 4, Nat.mod_lt _ (by decide)⟩
     let value := bitsN v 6 7
     let open' := x.loaded.life = 0 ∨ (x.loaded.life = 1 ∧ x.unlocked = true)
     ∃ p ∈ ([(1, open', .fuseLifeAdvance dt v), (2, open' ∧ bit f.prog slot.val = false, .fuseKeyProgram dt v),
      (3, open', .fuseDbgSet dt v), (4, ∃ t : Fin 4, t ≠ slot ∧ bit f.prog t.val = true ∧ bit f.rev t.val = false, .fuseRevoke dt v),
      (5, f.arb.toNat < value ∧ value ≤ 64, .fuseArbAdvance dt v), (6, f.fwcnt.toNat < value ∧ value ≤ 32, .fuseFwcntAdvance dt v),
      (7, open' ∧ value % 4 ≠ 0, .fusePfuseBlow dt v), (8, open', .fusePlockBlow dt v)] : List (Nat × Prop × Instr)),
     x.fpop = none ∧
     bitsN v 13 8 = 0x5A ∧
     p.2.1) ∧
    (∃ (s : State) (dt : Nat) (v : Word),
     Available s ∧
     let x := s.sec
     let f := x.fuses
     let slot : Fin 4 := ⟨bitsN v 4 2 % 4, Nat.mod_lt _ (by decide)⟩
     let value := bitsN v 6 7
     let open' := x.loaded.life = 0 ∨ (x.loaded.life = 1 ∧ x.unlocked = true)
     ∃ p ∈ ([(1, open', .fuseLifeAdvance dt v), (2, open' ∧ bit f.prog slot.val = false, .fuseKeyProgram dt v),
      (3, open', .fuseDbgSet dt v), (4, ∃ t : Fin 4, t ≠ slot ∧ bit f.prog t.val = true ∧ bit f.rev t.val = false, .fuseRevoke dt v),
      (5, f.arb.toNat < value ∧ value ≤ 64, .fuseArbAdvance dt v), (6, f.fwcnt.toNat < value ∧ value ≤ 32, .fuseFwcntAdvance dt v),
      (7, open' ∧ value % 4 ≠ 0, .fusePfuseBlow dt v), (8, open', .fusePlockBlow dt v)] : List (Nat × Prop × Instr)),
     (x.fpop ≠ none ∨ bitsN v 13 8 ≠ 0x5A ∨ ¬ p.2.1)) ∧
    (∃ (s : State),
     Available s ∧
     let x := s.sec
     ∃ (o : FuseOp),
     x.fpop = some o) ∧
    (∃ (s : State),
     Available s ∧
     let x := s.sec
     x.fpop = none) := by
  refine
    ⟨⟨withSec (withCrp (withFw live fun x => { x with up := false, recovery := false }) fun c => { c with bootMode := 0 }) fun x => { x with loaded := { x.loaded with life := 0 } },
      ?_, ?_, ?_⟩,
     ⟨live, ?_, ?_⟩,
     ⟨withFw live fun x => { x with up := false, recovery := true }, ?_, ?_, ?_⟩,
     ⟨live, ?_, ?_⟩,
     ⟨withSec live fun x => { x with unlocked := false, fdata := vput x.fdata 3 7, fuses := { x.fuses with life := 0, prog := 0x2, rev := 0, arb := 5, fwcnt := 6 }, loaded := { x.loaded with life := 0 } },
      12, 737905, ?_, _, List.mem_cons_self, ?_, ?_, Or.inl (by decide +kernel)⟩,
     ⟨withSec (withSec live fun x => { x with unlocked := false, fdata := vput x.fdata 3 7, fuses := { x.fuses with life := 0, prog := 0x2, rev := 0, arb := 5, fwcnt := 6 }, loaded := { x.loaded with life := 0 } }) fun x => { x with fpop := some { op := 1, slot := 0, value := 0, hash := 0 } },
      12, 737905, ?_, _, List.mem_cons_self, Or.inl (by decide +kernel)⟩,
     ⟨withSec (withSec live fun x => { x with unlocked := false, fdata := vput x.fdata 3 7, fuses := { x.fuses with life := 0, prog := 0x2, rev := 0, arb := 5, fwcnt := 6 }, loaded := { x.loaded with life := 0 } }) fun x => { x with fpop := some { op := 1, slot := 2, value := 9, hash := 5 } },
      ?_, { op := 1, slot := 2, value := 9, hash := 5 }, ?_⟩,
     ⟨live, ?_, ?_⟩⟩ <;>
    first | decide +kernel | (unfold Available; decide +kernel)

set_option Elab.async false in
theorem witness_HostRegistersAndRingsWork :
    (∃ (s : State) (dt : Nat),
     Available s ∧
     ∃ (i : Fin 4) (v : Dword) (x : HostFlags),
     ∃ c ∈ [Instr.hifDbellWrite dt v x, .hifRciWrite dt i v x, .hifRcfgWrite dt i v x],
     x.ecrc = true) ∧
    (∃ (s : State) (dt : Nat),
     Available s ∧
     ∃ (i : Fin 4) (v : Dword) (x : HostFlags),
     ∃ c ∈ [Instr.hifDbellWrite dt v x, .hifRciWrite dt i v x, .hifRcfgWrite dt i v x],
     x.ecrc = false ∧
     x.poisoned = true) ∧
    (∃ (s : State) (dt : Nat),
     Available s ∧
     ∃ (i : Fin 4) (v : Dword) (x : HostFlags),
     ∃ c ∈ [Instr.hifDbellWrite dt v x, .hifRciWrite dt i v x, .hifRcfgWrite dt i v x],
     x.ecrc = false ∧
     x.poisoned = false ∧
     x.be ≠ 0xF) ∧
    (∃ (s : State),
     Available s ∧
     let plain (x : HostFlags) : Prop := x.ecrc = false ∧ x.poisoned = false ∧ x.be = 0xF
     ∃ (x : HostFlags),
     plain x) ∧
    (∃ (s : State),
     Available s ∧
     ∃ (x : HostBytes),
     x.ecrc = true) ∧
    (∃ (s : State),
     Available s ∧
     ∃ (x : HostBytes),
     x.ecrc = false ∧
     x.poisoned = true) ∧
    (∃ (s : State) (dt : Nat),
     Available s ∧
     let taken (k : Fin 4) : Bool := bit s.hif.busy k.val || s.hif.clearAt.get k == some ((s.now + dt) / 20)
     ∃ (k : Fin 4) (x : HostBytes),
     x.ecrc = false ∧
     x.poisoned = false ∧
     taken k = true) ∧
    (∃ (s : State) (dt : Nat),
     Available s ∧
     let taken (k : Fin 4) : Bool := bit s.hif.busy k.val || s.hif.clearAt.get k == some ((s.now + dt) / 20)
     ∃ (k : Fin 4) (x : HostBytes),
     x.ecrc = false ∧
     x.poisoned = false ∧
     taken k = false) ∧
    (∃ (s : State),
     Available s ∧
     ∃ (i : Fin 4) (e : List Byte) (rest : List (List Byte)),
     (s.fw.rings.get i).queue = e :: rest ∧
     e.length = 64 ∧
     let r := s.hif.ring.get i
     let sent := (s.ferry.entry.map fun x => x.2).getD 0
     let x := s.ferry.eq.get 12
     let turn : Prop := s.ferry.grant = true ∧ s.ferry.owner = 12 ∧ s.ferry.voidAt = none ∧ s.ferry.qpos < 4096 ∧
      hostUp s = true ∧ r.en = true ∧ (r.pi.toNat + 1) % ringSize r ≠ r.ci.toNat % ringSize r ∧
      (∀ e, s.ferry.entry = some e → e.1 = i) ∧ ∀ d, x.queue.head? = some d → d.sent = 0
     turn ∧
     sent < 64 ∧
     r.base.toNat + 64 * r.pi.toNat + 64 ≤ 2 ^ 64) ∧
    (∃ (s : State),
     Available s ∧
     ∃ (i : Fin 4) (e : List Byte) (rest : List (List Byte)),
     (s.fw.rings.get i).queue = e :: rest ∧
     e.length = 64 ∧
     let r := s.hif.ring.get i
     let sent := (s.ferry.entry.map fun x => x.2).getD 0
     let x := s.ferry.eq.get 12
     let turn : Prop := s.ferry.grant = true ∧ s.ferry.owner = 12 ∧ s.ferry.voidAt = none ∧ s.ferry.qpos < 4096 ∧
      hostUp s = true ∧ r.en = true ∧ (r.pi.toNat + 1) % ringSize r ≠ r.ci.toNat % ringSize r ∧
      (∀ e, s.ferry.entry = some e → e.1 = i) ∧ ∀ d, x.queue.head? = some d → d.sent = 0
     ¬ turn) ∧
    (∃ (s : State),
     Available s ∧
     ∃ (i : Fin 4),
     (s.fw.rings.get i).queue = []) ∧
    (∃ (s : State),
     Available s) := by
  refine
    ⟨⟨withHif live fun h => { h with aer := 0x1001 }, 12, ?_, 1, 0x1F3, { ecrc := true },
      .hifDbellWrite 12 0x1F3 ({ ecrc := true }), ?_, ?_⟩,
     ⟨withHif live fun h => { h with aer := 0x1001 }, 12, ?_, 1, 0x1F3, { poisoned := true },
      .hifDbellWrite 12 0x1F3 ({ poisoned := true }), ?_, ?_, ?_⟩,
     ⟨withHif live fun h => { h with aer := 0x1001 }, 12, ?_, 1, 0x1F3, { be := 0xE },
      .hifDbellWrite 12 0x1F3 ({ be := 0xE }), ?_, ?_, ?_, ?_⟩,
     ⟨withHif live fun h => { h with busy := 0, ovr := 2, clearAt := vput h.clearAt 1 (none) }, ?_, {}, ?_⟩,
     ⟨withHif live fun h => { h with aer := 0x1001 }, ?_, { offset := 4, bytes := [some 1], ecrc := true, poisoned := true },
      ?_⟩,
     ⟨live, ?_, { offset := 4, bytes := [some 1], poisoned := true }, ?_, ?_⟩,
     ⟨withHif live fun h => { h with busy := 4, ovr := 1, clearAt := vput h.clearAt 2 (none) }, 12, ?_, 2,
      { offset := 4, bytes := [some 1] }, ?_, ?_, ?_⟩,
     ⟨withHif live fun h => { h with busy := 3, mb := vput h.mb 2 [] }, 12, ?_, 2,
      { offset := 4, bytes := [some 1, none, some 3, some 4] }, ?_, ?_, ?_⟩,
     ⟨withFerry (withFw (withHif live fun h => { h with ring := vput h.ring 1 { (h.ring.get 1) with log2n := 4, base := 0x1000, en := true, pi := 1, ci := 1 }, hostMem := [(0x1041, 3), (0x2000, 4)], table := vput h.table 7 0 }) fun x => { x with rings := vmod x.rings 1 fun r => { r with queue := [([1, 2, 0, 4] ++ List.replicate 60 7), [5]] } }) fun f => { f with grant := true, owner := 12 },
      ?_, 1, ([1, 2, 0, 4] ++ List.replicate 60 7), [[5]], ?_, ?_, ?_, ?_, ?_⟩,
     ⟨withFerry (withFw (withHif live fun h => { h with ring := vput h.ring 1 { (h.ring.get 1) with log2n := 4, base := 0x1000, en := false, pi := 1, ci := 1 }, hostMem := [(0x1041, 3), (0x2000, 4)], table := vput h.table 7 0 }) fun x => { x with rings := vmod x.rings 1 fun r => { r with queue := [([1, 2, 0, 4] ++ List.replicate 60 7), [5]] } }) fun f => { f with grant := true, owner := 12 },
      ?_, 1, ([1, 2, 0, 4] ++ List.replicate 60 7), [[5]], ?_, ?_, ?_⟩,
     ⟨live, ?_, 2, ?_⟩,
     ⟨withHif live fun h => { h with inL1 := true, bme := false, pba := 5, aer := 0x5000 }, ?_⟩⟩ <;>
    first | decide +kernel | (unfold Available; decide +kernel)

set_option Elab.async false in
theorem witness_HostReachesTheReservoirAndResets :
    (∃ (s : State) (dt : Nat),
     Available s ∧
     MemoriesCanonical s ∧
     let late := s.elapse dt
     ReservoirFree late ∧
     reservoirReady s = true ∧
     ∃ (w : Nat),
     w < 1048576) ∧
    (∃ (s : State) (dt : Nat),
     Available s ∧
     MemoriesCanonical s ∧
     let late := s.elapse dt
     ReservoirFree late ∧
     reservoirReady s = true ∧
     ∃ (w o : Nat) (bytes : List (Option Byte)),
     w < 1048576 ∧
     o + bytes.length ≤ 8 ∧
     s.rv.mem.isUe w = false) ∧
    (∃ (s : State) (dt : Nat),
     Available s ∧
     MemoriesCanonical s ∧
     let late := s.elapse dt
     ReservoirFree late ∧
     reservoirReady s = true ∧
     ∃ (g : Nat),
     g < 131072) ∧
    (∃ (s : State) (dt : Nat),
     Available s ∧
     MemoriesCanonical s ∧
     let late := s.elapse dt
     ReservoirFree late ∧
     reservoirReady s = true ∧
     ∃ (g : Nat),
     g < 131072 ∧
     (∀ j, j < 8 → s.rv.mem.isUe (8 * g + j) = false)) ∧
    (∃ (s : State) (dt : Nat),
     Available s ∧
     MemoriesCanonical s ∧
     ∃ (write : Bool) (x : HostBytes),
     x.ecrc = true ∧
     ∃ c ∈ [Instr.bar2Access dt write x, .bar4Access dt write x],
     True) ∧
    (∃ (s : State) (dt : Nat),
     Available s ∧
     MemoriesCanonical s ∧
     ∃ (x : HostBytes),
     x.ecrc = false ∧
     x.poisoned = true ∧
     ∃ c ∈ [Instr.bar2Access dt true x, .bar4Access dt true x],
     True) ∧
    (∃ (s : State) (dt : Nat),
     Available s ∧
     MemoriesCanonical s ∧
     ∃ (x : HostBytes),
     x.ecrc = false ∧
     reservoirReady s = false ∧
     x.poisoned = false ∧
     ∃ c ∈ [Instr.bar2Access dt true x, .bar4Access dt true x],
     True) ∧
    (∃ (s : State) (dt : Nat),
     Available s ∧
     MemoriesCanonical s ∧
     ∃ (x : HostBytes),
     x.ecrc = false ∧
     reservoirReady s = false ∧
     ∃ c ∈ [Instr.bar2Access dt false x, .bar4Access dt false x],
     True) ∧
    (∃ (s : State),
     Available s ∧
     MemoriesCanonical s ∧
     ∃ (x : HostBytes),
     x.ecrc = false ∧
     0x480000 ≤ x.offset ∧
     x.poisoned = false) ∧
    (∃ (s : State),
     Available s ∧
     MemoriesCanonical s ∧
     ∃ (x : HostBytes),
     x.ecrc = false ∧
     0x480000 ≤ x.offset) ∧
    (∃ (s : State),
     Available s ∧
     MemoriesCanonical s ∧
     ∃ (p : PcioReq) (rest : List PcioReq),
     s.wharf.pcio = p :: rest ∧
     hostUp s = true) ∧
    (∃ (s : State),
     Available s ∧
     MemoriesCanonical s ∧
     ∃ (before : List PcioReq) (p : PcioReq) (rest : List PcioReq),
     s.wharf.pcio = before ++ p :: rest ∧
     (∀ q ∈ before, q.req.tx.write = true) ∧
     p.req.tx.write = false ∧
     ∃ (kind : HostEnd),
     kind ≠ .ok ∧
     (kind = .timeout → s.hif.ctoDis = false)) ∧
    (∃ (s : State),
     Available s ∧
     MemoriesCanonical s ∧
     ∃ (before : List PcioReq) (p : PcioReq) (rest : List PcioReq),
     s.wharf.pcio = before ++ p :: rest ∧
     (∀ q ∈ before, q.req.tx.write = true) ∧
     p.req.tx.write = false ∧
     hostUp s = false) ∧
    (∃ (s : State),
     Available s ∧
     MemoriesCanonical s ∧
     ∃ (kind : HostEnd),
     (kind = .ok ∨ (kind = .timeout ∧ s.hif.ctoDis = true))) ∧
    (∃ (s : State),
     Available s ∧
     MemoriesCanonical s ∧
     (∀ q ∈ s.wharf.pcio, q.req.tx.write = true)) ∧
    (∃ (s : State),
     Available s ∧
     MemoriesCanonical s ∧
     (∀ q ∈ s.wharf.pcio, q.req.tx.write = true) ∧
     (hostUp s = false ∨ s.wharf.pcio = [])) ∧
    (∃ (s : State),
     Available s ∧
     MemoriesCanonical s) := by
  refine
    ⟨⟨({ live with rv := { live.rv with mem := { cells := [(3, 1), (20, 5), (33, 9), (64, 7), (100, 3)], marks := [] } } } : State),
      12, ?_, ?_, ?_, ?_, 5, ?_⟩,
     ⟨({ live with rv := { live.rv with mem := { cells := [(3, 1), (20, 5), (33, 9), (64, 7), (100, 3)], marks := [] } } } : State),
      12, ?_, ?_, ?_, ?_, 5, 0, [some 1, none, some 3], ?_, ?_, ?_⟩,
     ⟨({ live with rv := { live.rv with mem := { cells := [(3, 1), (20, 5), (33, 9), (64, 7), (100, 3)], marks := [] } } } : State),
      12, ?_, ?_, ?_, ?_, 0, ?_⟩,
     ⟨({ live with rv := { live.rv with mem := { cells := [(3, 1), (20, 5), (33, 9), (64, 7), (100, 3)], marks := [] } } } : State),
      12, ?_, ?_, ?_, ?_, 0, ?_, ?_⟩,
     ⟨live, 12, ?_, ?_, true, { offset := 8, bytes := [some 1], ecrc := true }, ?_,
      .bar2Access 12 true { offset := 8, bytes := [some 1], ecrc := true }, ?_, trivial⟩,
     ⟨live, 12, ?_, ?_, { offset := 8, bytes := [some 1], poisoned := true }, ?_, ?_,
      .bar2Access 12 true { offset := 8, bytes := [some 1], poisoned := true }, ?_, trivial⟩,
     ⟨{ live with rv := { live.rv with ports := vput live.rv.ports 2 { fail := 1, done := true } } }, 12, ?_, ?_,
      { offset := 0, bytes := [some 1] }, ?_, ?_, ?_, .bar2Access 12 true { offset := 0, bytes := [some 1] }, ?_, trivial⟩,
     ⟨{ live with rv := { live.rv with ports := vput live.rv.ports 2 { fail := 1, done := true } } }, 12, ?_, ?_,
      { offset := 0, bytes := [some 1, none] }, ?_, ?_, .bar2Access 12 false { offset := 0, bytes := [some 1, none] }, ?_,
      trivial⟩,
     ⟨live, ?_, ?_, { offset := 0x480000, bytes := [some 1] }, ?_, ?_, ?_⟩,
     ⟨live, ?_, ?_, { offset := 0x480000, bytes := [some 1] }, ?_, ?_⟩,
     ⟨({ live with wharf := { live.wharf with pcio := [{ req := { init := 13, target := 19, tx := { addr := 0x60000000, write := true, size := .word, id := 3, world := false, data := [0x123456789] }, qos := 4, since := 0, seq := 7 }, haddr := 0x100, words := 1 }, { req := { init := 13, target := 19, tx := { addr := 0x60000000, write := true, size := .word, id := 3, world := false, data := [0x123456789] }, qos := 4, since := 0, seq := 7 }, haddr := 0x100, words := 1 }], cur := vput live.wharf.cur 13 1 } } : State),
      ?_, ?_,
      { req := { init := 13, target := 19, tx := { addr := 0x60000000, write := true, size := .word, id := 3, world := false, data := [0x123456789] }, qos := 4, since := 0, seq := 7 }, haddr := 0x100, words := 1 },
      [{ req := { init := 13, target := 19, tx := { addr := 0x60000000, write := true, size := .word, id := 3, world := false, data := [0x123456789] }, qos := 4, since := 0, seq := 7 }, haddr := 0x100, words := 1 }],
      ?_, ?_⟩,
     ⟨({ live with wharf := { live.wharf with pcio := [{ req := { init := 13, target := 19, tx := { addr := 0x60000000, write := false, size := .word, id := 3, world := false, data := [] }, qos := 4, since := 0, seq := 7 }, haddr := 0x100, words := 1 }, { req := { init := 13, target := 19, tx := { addr := 0x60000000, write := false, size := .word, id := 3, world := false, data := [] }, qos := 4, since := 0, seq := 7 }, haddr := 0x100, words := 1 }], cur := vput live.wharf.cur 13 1 } } : State),
      ?_, ?_, [],
      { req := { init := 13, target := 19, tx := { addr := 0x60000000, write := false, size := .word, id := 3, world := false, data := [] }, qos := 4, since := 0, seq := 7 }, haddr := 0x100, words := 1 },
      [{ req := { init := 13, target := 19, tx := { addr := 0x60000000, write := false, size := .word, id := 3, world := false, data := [] }, qos := 4, since := 0, seq := 7 }, haddr := 0x100, words := 1 }],
      ?_, ?_, ?_, .timeout, ?_, ?_⟩,
     ⟨({ (withHif live fun h => { h with bme := false }) with wharf := { live.wharf with pcio := [{ req := { init := 13, target := 19, tx := { addr := 0x60000000, write := false, size := .word, id := 3, world := false, data := [] }, qos := 4, since := 0, seq := 7 }, haddr := 0x100, words := 1 }, { req := { init := 13, target := 19, tx := { addr := 0x60000000, write := false, size := .word, id := 3, world := false, data := [] }, qos := 4, since := 0, seq := 7 }, haddr := 0x100, words := 1 }], cur := vput live.wharf.cur 13 1 } } : State),
      ?_, ?_, [],
      { req := { init := 13, target := 19, tx := { addr := 0x60000000, write := false, size := .word, id := 3, world := false, data := [] }, qos := 4, since := 0, seq := 7 }, haddr := 0x100, words := 1 },
      [{ req := { init := 13, target := 19, tx := { addr := 0x60000000, write := false, size := .word, id := 3, world := false, data := [] }, qos := 4, since := 0, seq := 7 }, haddr := 0x100, words := 1 }],
      ?_, ?_, ?_, ?_⟩,
     ⟨({ live with wharf := { live.wharf with pcio := [{ req := { init := 13, target := 19, tx := { addr := 0x60000000, write := false, size := .word, id := 3, world := false, data := [] }, qos := 4, since := 0, seq := 7 }, haddr := 0x100, words := 1 }, { req := { init := 13, target := 19, tx := { addr := 0x60000000, write := false, size := .word, id := 3, world := false, data := [] }, qos := 4, since := 0, seq := 7 }, haddr := 0x100, words := 1 }], cur := vput live.wharf.cur 13 1 } } : State),
      ?_, ?_, .ok, ?_⟩,
     ⟨live, ?_, ?_, ?_⟩,
     ⟨live, ?_, ?_, ?_, ?_⟩,
     ⟨withFw (withFerry (withHif live fun h => { h with busy := 5, ovr := 1, pba := 9, inL1 := true, l1En := true, aer := 0x4000 }) fun f => { f with credMode := false, grant := true, owner := 3, lfsr := 77, hosterr := 4, win := vput f.win 2 { baseL := 5, en := true }, ig := vmod f.ig 1 fun x => { x with busy := true, run := none }, eq := vmod f.eq 3 fun q => { q with tickets := 3, bonus := 4, credit := 5, grants := 6, queue := [{ haddr := 0, waddr := 0x10000000, len := 4, fmt := 0, stream := false }] } }) fun x => { x with session := some 0x301 },
      ?_, ?_⟩⟩ <;>
    first | decide +kernel | (unfold Available; decide +kernel) | (unfold MemoriesCanonical; decide +kernel) | (unfold ReservoirFree; decide +kernel)

set_option Elab.async false in
theorem witness_EnginesMoveTheirWords :
    (∃ (s : State),
     Available s ∧
     MemoriesCanonical s ∧
     ∃ (e : Fin 4),
     let x := s.ferry.ig.get e
     let legal := x.fmt ≠ 3 ∧ x.len ≠ 0 ∧ (x.fmt = 1 → x.len.toNat % 8 = 0) ∧ x.waddr.toNat % 4 = 0 ∧ x.haddr.toNat % 4 = 0
     x.busy = false ∧
     legal) ∧
    (∃ (s : State),
     Available s ∧
     MemoriesCanonical s ∧
     ∃ (e : Fin 4),
     let x := s.ferry.ig.get e
     let legal := x.fmt ≠ 3 ∧ x.len ≠ 0 ∧ (x.fmt = 1 → x.len.toNat % 8 = 0) ∧ x.waddr.toNat % 4 = 0 ∧ x.haddr.toNat % 4 = 0
     (x.busy = true ∨ ¬ legal)) ∧
    (∃ (s : State) (dt : Nat),
     Available s ∧
     MemoriesCanonical s ∧
     let late := s.elapse dt
     ∃ (e : Fin 4) (k len : Nat) (waddr : BitVec 32) (fmt : BitVec 2) (data : List Byte) (how : HostEnd),
     let x := s.ferry.ig.get e
     let m := min len (fmtWords fmt.toNat data.length)
     let ends : Prop := how = .timeout → s.hif.ctoDis = false
     x.run = some (waddr, len, fmt) ∧
     waddr.toNat = 0x10000000 + 4 * k ∧
     k + len ≤ 1048576 ∧
     hostUp s = true ∧
     (how = .ok → m = len) ∧
     ends ∧
     ReservoirFree late) ∧
    (∃ (s : State),
     Available s ∧
     MemoriesCanonical s ∧
     ∃ (e : Fin 4) (len : Nat) (waddr : BitVec 32) (fmt : BitVec 2) (data : List Byte) (how : HostEnd),
     let x := s.ferry.ig.get e
     let m := min len (fmtWords fmt.toNat data.length)
     let ends : Prop := how = .timeout → s.hif.ctoDis = false
     x.run = some (waddr, len, fmt) ∧
     (hostUp s = false ∨ (how = .ok ∧ m < len) ∨ ¬ ends)) ∧
    (∃ (s : State),
     Available s ∧
     MemoriesCanonical s ∧
     ∃ (e : Fin 4),
     (s.ferry.ig.get e).run = none) ∧
    (∃ (s : State),
     Available s ∧
     MemoriesCanonical s ∧
     ∃ (q : Fin 14),
     let x := s.ferry.eq.get q
     let legal := x.fmt ≠ 3 ∧ x.len ≠ 0 ∧ (x.fmt = 1 → x.len.toNat % 8 = 0) ∧ x.waddr.toNat % 4 = 0 ∧ x.haddr.toNat % 4 = 0
     legal ∧
     x.queue.length < 8) ∧
    (∃ (s : State),
     Available s ∧
     MemoriesCanonical s ∧
     ∃ (q : Fin 14),
     let x := s.ferry.eq.get q
     let legal := x.fmt ≠ 3 ∧ x.len ≠ 0 ∧ (x.fmt = 1 → x.len.toNat % 8 = 0) ∧ x.waddr.toNat % 4 = 0 ∧ x.haddr.toNat % 4 = 0
     legal ∧
     8 ≤ x.queue.length) ∧
    (∃ (s : State),
     Available s ∧
     MemoriesCanonical s ∧
     ∃ (q : Fin 14),
     let x := s.ferry.eq.get q
     let legal := x.fmt ≠ 3 ∧ x.len ≠ 0 ∧ (x.fmt = 1 → x.len.toNat % 8 = 0) ∧ x.waddr.toNat % 4 = 0 ∧ x.haddr.toNat % 4 = 0
     ¬ legal) ∧
    (∃ (s : State),
     Available s ∧
     MemoriesCanonical s) ∧
    (∃ (s : State),
     Available s ∧
     MemoriesCanonical s ∧
     ∃ (d : EgDesc) (rest : List EgDesc),
     let q := s.ferry.owner
     let x := s.ferry.eq.get q
     let n := chunkSize s q d
     x.queue = d :: rest ∧
     d.fmt ≠ 3 ∧
     (d.fmt = 1 → d.len % 8 = 0) ∧
     s.ferry.grant = true ∧
     s.ferry.voidAt = none ∧
     s.ferry.entry = none ∧
     hostUp s = true ∧
     0 < n) ∧
    (∃ (s : State),
     Available s ∧
     MemoriesCanonical s ∧
     ∃ (d : EgDesc) (rest : List EgDesc),
     let q := s.ferry.owner
     let x := s.ferry.eq.get q
     let n := chunkSize s q d
     x.queue = d :: rest ∧
     d.fmt ≠ 3 ∧
     (d.fmt = 1 → d.len % 8 = 0) ∧
     s.ferry.grant = true ∧
     s.ferry.voidAt = none ∧
     s.ferry.entry = none ∧
     hostUp s = true ∧
     0 < n ∧
     ∃ o,
     d.own = some o) ∧
    (∃ (s : State),
     Available s ∧
     MemoriesCanonical s ∧
     ∃ (d : EgDesc) (rest : List EgDesc),
     let q := s.ferry.owner
     let x := s.ferry.eq.get q
     let n := chunkSize s q d
     x.queue = d :: rest ∧
     d.fmt ≠ 3 ∧
     (d.fmt = 1 → d.len % 8 = 0) ∧
     s.ferry.grant = true ∧
     s.ferry.voidAt = none ∧
     s.ferry.entry = none ∧
     hostUp s = true ∧
     0 < n ∧
     d.own = none ∧
     d.stream = true) ∧
    (∃ (s : State) (dt : Nat),
     Available s ∧
     MemoriesCanonical s ∧
     let late := s.elapse dt
     ∃ (d : EgDesc) (rest : List EgDesc),
     let q := s.ferry.owner
     let x := s.ferry.eq.get q
     let f := d.fmt.toNat
     let n := chunkSize s q d
     let first := fmtWords f d.sent
     let read := first + d.held.length
     x.queue = d :: rest ∧
     d.fmt ≠ 3 ∧
     (d.fmt = 1 → d.len % 8 = 0) ∧
     s.ferry.grant = true ∧
     s.ferry.voidAt = none ∧
     s.ferry.entry = none ∧
     hostUp s = true ∧
     0 < n ∧
     ∃ k,
     d.own = none ∧
     d.stream = false ∧
     d.waddr.toNat = 0x10000000 + 4 * k ∧
     k + d.len ≤ 1048576 ∧
     read ≤ fmtTouched f (d.sent + n) ∧
     ReservoirFree late ∧
     (∀ j, read ≤ j → j < fmtTouched f (d.sent + n) → s.rv.mem.isUe (k + j) = false)) ∧
    (∃ (s : State) (dt : Nat),
     Available s ∧
     MemoriesCanonical s ∧
     let late := s.elapse dt
     ∃ (d : EgDesc) (rest : List EgDesc),
     let q := s.ferry.owner
     let x := s.ferry.eq.get q
     let f := d.fmt.toNat
     let n := chunkSize s q d
     let first := fmtWords f d.sent
     let read := first + d.held.length
     x.queue = d :: rest ∧
     d.fmt ≠ 3 ∧
     (d.fmt = 1 → d.len % 8 = 0) ∧
     s.ferry.grant = true ∧
     s.ferry.voidAt = none ∧
     s.ferry.entry = none ∧
     hostUp s = true ∧
     0 < n ∧
     ∃ k,
     d.own = none ∧
     d.stream = false ∧
     d.waddr.toNat = 0x10000000 + 4 * k ∧
     k + d.len ≤ 1048576 ∧
     read ≤ fmtTouched f (d.sent + n) ∧
     ReservoirFree late ∧
     ∃ j,
     read ≤ j ∧
     j < fmtTouched f (d.sent + n) ∧
     s.rv.mem.isUe (k + j) = true) ∧
    (∃ (s : State),
     Available s ∧
     MemoriesCanonical s ∧
     ∃ (d : EgDesc) (rest : List EgDesc),
     let q := s.ferry.owner
     let x := s.ferry.eq.get q
     let n := chunkSize s q d
     x.queue = d :: rest ∧
     d.fmt ≠ 3 ∧
     (d.fmt = 1 → d.len % 8 = 0) ∧
     (s.ferry.grant = false ∨ s.ferry.voidAt ≠ none ∨ s.ferry.entry ≠ none ∨ hostUp s = false ∨ n = 0)) ∧
    (∃ (s : State),
     Available s ∧
     MemoriesCanonical s ∧
     (s.ferry.eq.get s.ferry.owner).queue = []) := by
  refine
    ⟨⟨withFerry (live) fun x => { x with ig := vmod x.ig 1 fun y => { y with haddr := 0x104, waddr := 0x10000010, len := 8, fmt := 1 } },
      ?_, ?_, 1, ?_, ?_⟩,
     ⟨withFerry (live) fun x => { x with ig := vmod x.ig 1 fun y => { y with err := false, haddr := 0, waddr := 0x10000000, len := 4, fmt := 0, busy := true } },
      ?_, ?_, 1, ?_⟩,
     ⟨withFerry (({ live with rv := { live.rv with mem := { cells := [(3, 1), (20, 5), (33, 9), (64, 7), (100, 3)], marks := [] } } } : State)) fun x => { x with ig := vmod x.ig 1 fun y => { y with run := some (0x10000010, 3, 0), busy := true, runBen := true, runBarge := 9, runMen := true } },
      12, ?_, ?_, 1, 4, 3, 0x10000010, 0, ((List.range 24).map fun i => BitVec.ofNat 8 (37 * i + 3)), .ok, ?_, ?_, ?_, ?_,
      ?_, ?_, ?_⟩,
     ⟨withFerry (live) fun x => { x with ig := vmod x.ig 1 fun y => { y with run := some (0x10000010, 3, 0), busy := true } },
        ?_, ?_, 1, 3, 0x10000010, 0, ((List.range 17).map fun i => BitVec.ofNat 8 (37 * i + 3)), .ok, ?_, ?_⟩,
     ⟨live, ?_, ?_, 1, ?_⟩,
     ⟨withFerry (live) fun x => { x with eq := vmod x.eq 3 fun y => { y with haddr := 8, waddr := 0x10000004, len := 16, fmt := 0, stream := true, queue := List.replicate 0 { haddr := 0x1000, waddr := 0x10000000, len := 40, fmt := 0, stream := false, sent := 0 } } },
      ?_, ?_, 3, ?_, ?_⟩,
     ⟨withFerry (live) fun x => { x with eq := vmod x.eq 3 fun y => { y with waddr := 0x10000004, queue := List.replicate 8 { haddr := 0x1000, waddr := 0x10000000, len := 40, fmt := 0, stream := false, sent := 0 } } },
      ?_, ?_, 3, ?_, ?_⟩,
     ⟨withFerry (live) fun x => { x with eq := vmod x.eq 3 fun y => { y with fmt := 3 } }, ?_, ?_, 3, ?_⟩,
     ⟨withFerry live fun f => { f with strm := List.replicate 0 5, strmdrop := 0 }, ?_, ?_⟩,
     ⟨withFerry (({ (withHif live fun h => { h with hostMem := [(0xFFF, 1), (0x1003, 7), (0x1208, 9)] }) with rv := { live.rv with mem := { cells := [(3, 1), (20, 5), (33, 9), (64, 7), (100, 3)], marks := [] } } } : State)) fun x => { x with eq := vmod x.eq 3 fun y => { y with queue := [{ haddr := 0x1000, waddr := 0x10000000, len := 40, fmt := 0, stream := false, sent := 0 }, { haddr := 0x1000, waddr := 0x10000000, len := 40, fmt := 0, stream := false, sent := 0 }], credit := 3, bonus := 2, fails := 4 }, grant := true, owner := 3 },
      ?_, ?_, { haddr := 0x1000, waddr := 0x10000000, len := 40, fmt := 0, stream := false, sent := 0 },
      [{ haddr := 0x1000, waddr := 0x10000000, len := 40, fmt := 0, stream := false, sent := 0 }], ?_, ?_, ?_, ?_, ?_, ?_,
      ?_, ?_⟩,
     ⟨withFerry ((withHif live fun h => { h with hostMem := [(0xFFF, 1), (0x2003, 7)] })) fun x => { x with eq := vmod x.eq 12 fun y => { y with queue := [{ haddr := 0x2000, waddr := 0, len := 10, fmt := 0, stream := false, sent := 0, own := some { number := 4, bytes := List.replicate 80 7 } }, { haddr := 0x1000, waddr := 0x10000000, len := 40, fmt := 0, stream := false, sent := 0 }], credit := 3, bonus := 2, fails := 4 }, grant := true, owner := 12 },
      ?_, ?_,
      { haddr := 0x2000, waddr := 0, len := 10, fmt := 0, stream := false, sent := 0, own := some { number := 4, bytes := List.replicate 80 7 } },
      [{ haddr := 0x1000, waddr := 0x10000000, len := 40, fmt := 0, stream := false, sent := 0 }], ?_, ?_, ?_, ?_, ?_, ?_,
      ?_, ?_, { number := 4, bytes := List.replicate 80 7 }, ?_⟩,
     ⟨withFerry ((withHif live fun h => { h with hostMem := [(0xFFF, 1), (0x1003, 7)] })) fun x => { x with eq := vmod x.eq 12 fun y => { y with queue := [{ haddr := 0x1000, waddr := 0x10000000, len := 10, fmt := 0, stream := true, sent := 0 }, { haddr := 0x1000, waddr := 0x10000000, len := 40, fmt := 0, stream := false, sent := 0 }], credit := 3, bonus := 2, fails := 4 }, grant := true, owner := 12, strm := (List.range 20).map fun i => BitVec.ofNat 36 (i * 0x123456789 + 5) },
      ?_, ?_, { haddr := 0x1000, waddr := 0x10000000, len := 10, fmt := 0, stream := true, sent := 0 },
      [{ haddr := 0x1000, waddr := 0x10000000, len := 40, fmt := 0, stream := false, sent := 0 }], ?_, ?_, ?_, ?_, ?_, ?_,
      ?_, ?_, ?_, ?_⟩,
     ⟨withFerry (({ (withHif live fun h => { h with hostMem := [(0xFFF, 1), (0x1003, 7), (0x1208, 9)] }) with rv := { live.rv with mem := { cells := [(3, 1), (20, 5), (33, 9), (64, 7), (100, 3)], marks := [] } } } : State)) fun x => { x with eq := vmod x.eq 3 fun y => { y with queue := [{ haddr := 0x1000, waddr := 0x10000000, len := 40, fmt := 0, stream := false, sent := 0 }, { haddr := 0x1000, waddr := 0x10000000, len := 40, fmt := 0, stream := false, sent := 0 }], credit := 3, bonus := 2, fails := 4 }, grant := true, owner := 3 },
      12, ?_, ?_, { haddr := 0x1000, waddr := 0x10000000, len := 40, fmt := 0, stream := false, sent := 0 },
      [{ haddr := 0x1000, waddr := 0x10000000, len := 40, fmt := 0, stream := false, sent := 0 }], ?_, ?_, ?_, ?_, ?_, ?_,
      ?_, ?_, 0, ?_, ?_, ?_, ?_, ?_, ?_, ?_⟩,
     ⟨withFerry (({ (withHif live fun h => { h with hostMem := [(0xFFF, 1), (0x1003, 7), (0x1208, 9)] }) with rv := { live.rv with mem := { cells := [(3, 1), (20, 5), (33, 9), (64, 7), (100, 3)], marks := [(0, .ue)] } } } : State)) fun x => { x with eq := vmod x.eq 3 fun y => { y with queue := [{ haddr := 0x1000, waddr := 0x10000000, len := 40, fmt := 0, stream := false, sent := 0 }, { haddr := 0x1000, waddr := 0x10000000, len := 40, fmt := 0, stream := false, sent := 0 }], credit := 3, bonus := 2, fails := 4 }, grant := true, owner := 3 },
      12, ?_, ?_, { haddr := 0x1000, waddr := 0x10000000, len := 40, fmt := 0, stream := false, sent := 0 },
      [{ haddr := 0x1000, waddr := 0x10000000, len := 40, fmt := 0, stream := false, sent := 0 }], ?_, ?_, ?_, ?_, ?_, ?_,
      ?_, ?_, 0, ?_, ?_, ?_, ?_, ?_, ?_, 0, ?_, ?_, ?_⟩,
     ⟨withFerry (({ (withHif live fun h => { h with hostMem := [(0xFFF, 1), (0x1003, 7), (0x1208, 9)] }) with rv := { live.rv with mem := { cells := [(3, 1), (20, 5), (33, 9), (64, 7), (100, 3)], marks := [] } } } : State)) fun x => { x with eq := vmod x.eq 3 fun y => { y with queue := [{ haddr := 0x1000, waddr := 0x10000000, len := 40, fmt := 0, stream := false, sent := 0 }, { haddr := 0x1000, waddr := 0x10000000, len := 40, fmt := 0, stream := false, sent := 0 }], credit := 3, bonus := 2, fails := 4 }, grant := false, owner := 3 },
      ?_, ?_, { haddr := 0x1000, waddr := 0x10000000, len := 40, fmt := 0, stream := false, sent := 0 },
      [{ haddr := 0x1000, waddr := 0x10000000, len := 40, fmt := 0, stream := false, sent := 0 }], ?_, ?_, ?_, ?_⟩,
     ⟨live, ?_, ?_, ?_⟩⟩ <;>
    first | decide +kernel | (unfold Available; decide +kernel) | (unfold MemoriesCanonical; decide +kernel) | (unfold ReservoirFree; decide +kernel)

set_option Elab.async false in
theorem witness_EgressIsSharedByDraws :
    (∃ (s : State) (dt : Nat),
     Available s ∧
     let f := s.ferry
     let late := s.elapse dt
     let who := ixs 14 fun q => lineBy late 2 q
     let eff (q : Fin 14) : Nat := if (f.eq.get q).tickets = 0 then 0 else (f.eq.get q).tickets.toNat + (f.eq.get q).bonus.toNat
     let sumOf (p : Fin 14 → Bool) : Nat := ((who.filter p).map eff).sum
     let total := sumOf fun _ => true
     let resumes := f.parked = true ∧ asks s f.owner = true ∧ lineBy late 1 f.owner = true ∧
      ∀ q, q ≠ f.owner → lineBy late 1 q = false
     let free := f.voidAt = none ∧ f.grant = false ∧ ¬ resumes ∨ f.voidAt = none ∧ f.grant = true ∧ 4096 ≤ f.qpos ∧ (∃ q ∈ who, q ≠ f.owner) ∨
      f.voidAt.any (fun k => k != xclk late) = true
     free ∧
     who ≠ [] ∧
     f.credMode = false ∧
     0 < total) ∧
    (∃ (s : State) (dt : Nat),
     Available s ∧
     let f := s.ferry
     let late := s.elapse dt
     let who := ixs 14 fun q => lineBy late 2 q
     let eff (q : Fin 14) : Nat := if (f.eq.get q).tickets = 0 then 0 else (f.eq.get q).tickets.toNat + (f.eq.get q).bonus.toNat
     let sumOf (p : Fin 14 → Bool) : Nat := ((who.filter p).map eff).sum
     let total := sumOf fun _ => true
     let resumes := f.parked = true ∧ asks s f.owner = true ∧ lineBy late 1 f.owner = true ∧
      ∀ q, q ≠ f.owner → lineBy late 1 q = false
     let free := f.voidAt = none ∧ f.grant = false ∧ ¬ resumes ∨ f.voidAt = none ∧ f.grant = true ∧ 4096 ≤ f.qpos ∧ (∃ q ∈ who, q ≠ f.owner) ∨
      f.voidAt.any (fun k => k != xclk late) = true
     free ∧
     who ≠ [] ∧
     f.credMode = false ∧
     total = 0) ∧
    (∃ (s : State) (dt : Nat),
     Available s ∧
     let f := s.ferry
     let late := s.elapse dt
     let who := ixs 14 fun q => lineBy late 2 q
     let resumes := f.parked = true ∧ asks s f.owner = true ∧ lineBy late 1 f.owner = true ∧
      ∀ q, q ≠ f.owner → lineBy late 1 q = false
     let free := f.voidAt = none ∧ f.grant = false ∧ ¬ resumes ∨ f.voidAt = none ∧ f.grant = true ∧ 4096 ≤ f.qpos ∧ (∃ q ∈ who, q ≠ f.owner) ∨
      f.voidAt.any (fun k => k != xclk late) = true
     free ∧
     who ≠ [] ∧
     f.credMode = true) ∧
    (∃ (s : State) (dt : Nat),
     Available s ∧
     let f := s.ferry
     let late := s.elapse dt
     let who := ixs 14 fun q => lineBy late 2 q
     let resumes := f.parked = true ∧ asks s f.owner = true ∧ lineBy late 1 f.owner = true ∧
      ∀ q, q ≠ f.owner → lineBy late 1 q = false
     let free := f.voidAt = none ∧ f.grant = false ∧ ¬ resumes ∨ f.voidAt = none ∧ f.grant = true ∧ 4096 ≤ f.qpos ∧ (∃ q ∈ who, q ≠ f.owner) ∨
      f.voidAt.any (fun k => k != xclk late) = true
     free ∧
     who = []) ∧
    (∃ (s : State) (dt : Nat),
     Available s ∧
     let f := s.ferry
     let late := s.elapse dt
     let resumes := f.parked = true ∧ asks s f.owner = true ∧ lineBy late 1 f.owner = true ∧
      ∀ q, q ≠ f.owner → lineBy late 1 q = false
     f.voidAt = none ∧
     f.grant = false ∧
     resumes) ∧
    (∃ (s : State),
     Available s ∧
     let f := s.ferry
     f.voidAt = none ∧
     f.grant = true ∧
     f.qpos < 4096) ∧
    (∃ (s : State) (dt : Nat),
     Available s ∧
     let f := s.ferry
     let late := s.elapse dt
     f.voidAt = some (xclk late)) ∧
    (∃ (s : State) (dt : Nat),
     Available s ∧
     let f := s.ferry
     let late := s.elapse dt
     let who := ixs 14 fun q => lineBy late 2 q
     f.voidAt = none ∧
     f.grant = true ∧
     4096 ≤ f.qpos ∧
     (∀ q ∈ who, q = f.owner)) ∧
    (∃ (s : State) (dt : Nat),
     Available s ∧
     let f := s.ferry
     let late := s.elapse dt
     f.window < xclk late / 4096) ∧
    (∃ (s : State) (dt : Nat),
     Available s ∧
     let f := s.ferry
     let late := s.elapse dt
     xclk late / 4096 ≤ f.window) ∧
    (∃ (s : State),
     Available s) := by
  refine
    ⟨⟨withFerry live fun f => { f with eq := Vector.ofFn fun q => match q.val with | 1 => { (f.eq.get q) with queue := [{ haddr := 0x1000, waddr := 0x10000000, len := 40, fmt := 0, stream := false, sent := 0 }], tickets := 4, bonus := 3, credit := 5, edges := [(0, true)] } | 3 => { (f.eq.get q) with queue := [{ haddr := 0x1000, waddr := 0x10000000, len := 40, fmt := 0, stream := false, sent := 0 }], tickets := 0, bonus := 9, credit := 5, edges := [(0, true)] } | 5 => { (f.eq.get q) with queue := [{ haddr := 0x1000, waddr := 0x10000000, len := 40, fmt := 0, stream := false, sent := 0 }], tickets := 16, bonus := 0, credit := 7, edges := [(0, true)] } | 12 => { (f.eq.get q) with queue := [{ haddr := 0x1000, waddr := 0x10000000, len := 40, fmt := 0, stream := false, sent := 0 }], tickets := 1, bonus := 2, credit := 7, edges := [(0, true)] } | _ => f.eq.get q, credMode := false, lfsr := 0x9E3779B9, owner := 5 },
      90, ?_, ?_, ?_, ?_, ?_⟩,
     ⟨withFerry live fun f => { f with eq := Vector.ofFn fun q => match q.val with | 1 => { (f.eq.get q) with queue := [{ haddr := 0x1000, waddr := 0x10000000, len := 40, fmt := 0, stream := false, sent := 0 }], tickets := 0, bonus := 3, credit := 5, edges := [(0, true)] } | 3 => { (f.eq.get q) with queue := [{ haddr := 0x1000, waddr := 0x10000000, len := 40, fmt := 0, stream := false, sent := 0 }], tickets := 0, bonus := 9, credit := 5, edges := [(0, true)] } | 5 => { (f.eq.get q) with queue := [{ haddr := 0x1000, waddr := 0x10000000, len := 40, fmt := 0, stream := false, sent := 0 }], tickets := 0, bonus := 0, credit := 7, edges := [(0, true)] } | 12 => { (f.eq.get q) with queue := [{ haddr := 0x1000, waddr := 0x10000000, len := 40, fmt := 0, stream := false, sent := 0 }], tickets := 0, bonus := 2, credit := 7, edges := [(0, true)] } | _ => f.eq.get q, credMode := false, owner := 0 },
      90, ?_, ?_, ?_, ?_, ?_⟩,
     ⟨withFerry live fun f => { f with eq := Vector.ofFn fun q => match q.val with | 1 => { (f.eq.get q) with queue := [{ haddr := 0x1000, waddr := 0x10000000, len := 40, fmt := 0, stream := false, sent := 0 }], tickets := 4, bonus := 3, credit := 5, edges := [(0, true)] } | 3 => { (f.eq.get q) with queue := [{ haddr := 0x1000, waddr := 0x10000000, len := 40, fmt := 0, stream := false, sent := 0 }], tickets := 0, bonus := 9, credit := 5, edges := [(0, true)] } | 5 => { (f.eq.get q) with queue := [{ haddr := 0x1000, waddr := 0x10000000, len := 40, fmt := 0, stream := false, sent := 0 }], tickets := 16, bonus := 0, credit := 7, edges := [(0, true)] } | 12 => { (f.eq.get q) with queue := [{ haddr := 0x1000, waddr := 0x10000000, len := 40, fmt := 0, stream := false, sent := 0 }], tickets := 1, bonus := 2, credit := 7, edges := [(0, true)] } | _ => f.eq.get q, credMode := true, owner := 3 },
      90, ?_, ?_, ?_, ?_⟩,
     ⟨live, 90, ?_, ?_, ?_⟩,
     ⟨withFerry live fun f => { f with eq := Vector.ofFn fun q => match q.val with | 5 => { (f.eq.get q) with queue := [{ haddr := 0x1000, waddr := 0x10000000, len := 40, fmt := 0, stream := false, sent := 0 }], tickets := 16, bonus := 0, credit := 7, edges := [(0, true)] } | _ => f.eq.get q, parked := true, owner := 5 },
      90, ?_, ?_, ?_, ?_⟩,
     ⟨withFerry live fun f => { f with eq := Vector.ofFn fun q => match q.val with | 1 => { (f.eq.get q) with queue := [{ haddr := 0x1000, waddr := 0x10000000, len := 40, fmt := 0, stream := false, sent := 0 }], tickets := 4, bonus := 3, credit := 5, edges := [(0, true)] } | 3 => { (f.eq.get q) with queue := [{ haddr := 0x1000, waddr := 0x10000000, len := 40, fmt := 0, stream := false, sent := 0 }], tickets := 0, bonus := 9, credit := 5, edges := [(0, true)] } | 5 => { (f.eq.get q) with queue := [{ haddr := 0x1000, waddr := 0x10000000, len := 40, fmt := 0, stream := false, sent := 0 }], tickets := 16, bonus := 0, credit := 7, edges := [(0, true)] } | 12 => { (f.eq.get q) with queue := [{ haddr := 0x1000, waddr := 0x10000000, len := 40, fmt := 0, stream := false, sent := 0 }], tickets := 1, bonus := 2, credit := 7, edges := [(0, true)] } | _ => f.eq.get q, grant := true, qpos := 4095, owner := 5 },
      ?_, ?_, ?_, ?_⟩,
     ⟨withFerry live fun f => { f with eq := Vector.ofFn fun q => match q.val with | 1 => { (f.eq.get q) with queue := [{ haddr := 0x1000, waddr := 0x10000000, len := 40, fmt := 0, stream := false, sent := 0 }], tickets := 4, bonus := 3, credit := 5, edges := [(0, true)] } | 3 => { (f.eq.get q) with queue := [{ haddr := 0x1000, waddr := 0x10000000, len := 40, fmt := 0, stream := false, sent := 0 }], tickets := 0, bonus := 9, credit := 5, edges := [(0, true)] } | 5 => { (f.eq.get q) with queue := [{ haddr := 0x1000, waddr := 0x10000000, len := 40, fmt := 0, stream := false, sent := 0 }], tickets := 16, bonus := 0, credit := 7, edges := [(0, true)] } | 12 => { (f.eq.get q) with queue := [{ haddr := 0x1000, waddr := 0x10000000, len := 40, fmt := 0, stream := false, sent := 0 }], tickets := 1, bonus := 2, credit := 7, edges := [(0, true)] } | _ => f.eq.get q, grant := true, voidAt := some 6, owner := 5 },
      90, ?_, ?_⟩,
     ⟨withFerry live fun f => { f with eq := Vector.ofFn fun q => match q.val with | 5 => { (f.eq.get q) with queue := [{ haddr := 0x1000, waddr := 0x10000000, len := 40, fmt := 0, stream := false, sent := 0 }], tickets := 16, bonus := 0, credit := 7, edges := [(0, true)] } | _ => f.eq.get q, grant := true, qpos := 4096, owner := 5 },
      90, ?_, ?_, ?_, ?_, ?_⟩,
     ⟨withFerry live fun f => { f with eq := Vector.ofFn fun q => match q.val with | 1 => { (f.eq.get q) with queue := [{ haddr := 0x1000, waddr := 0x10000000, len := 40, fmt := 0, stream := false, sent := 0 }], tickets := 4, bonus := 3, credit := 5, edges := [(0, true)] } | 3 => { (f.eq.get q) with queue := [{ haddr := 0x1000, waddr := 0x10000000, len := 40, fmt := 0, stream := false, sent := 0 }], tickets := 0, bonus := 9, credit := 5, edges := [(0, true)] } | 5 => { (f.eq.get q) with queue := [{ haddr := 0x1000, waddr := 0x10000000, len := 40, fmt := 0, stream := false, sent := 0 }], tickets := 16, bonus := 0, credit := 7, edges := [(0, true)] } | 12 => { (f.eq.get q) with queue := [{ haddr := 0x1000, waddr := 0x10000000, len := 40, fmt := 0, stream := false, sent := 0 }], tickets := 1, bonus := 2, credit := 7, edges := [(0, true)] } | _ => f.eq.get q, credMode := true, window := 0 },
      61500, ?_, ?_⟩,
     ⟨withFerry live fun f => { f with eq := Vector.ofFn fun q => match q.val with | 1 => { (f.eq.get q) with queue := [{ haddr := 0x1000, waddr := 0x10000000, len := 40, fmt := 0, stream := false, sent := 0 }], tickets := 4, bonus := 3, credit := 5, edges := [(0, true)] } | 3 => { (f.eq.get q) with queue := [{ haddr := 0x1000, waddr := 0x10000000, len := 40, fmt := 0, stream := false, sent := 0 }], tickets := 0, bonus := 9, credit := 5, edges := [(0, true)] } | 5 => { (f.eq.get q) with queue := [{ haddr := 0x1000, waddr := 0x10000000, len := 40, fmt := 0, stream := false, sent := 0 }], tickets := 16, bonus := 0, credit := 7, edges := [(0, true)] } | 12 => { (f.eq.get q) with queue := [{ haddr := 0x1000, waddr := 0x10000000, len := 40, fmt := 0, stream := false, sent := 0 }], tickets := 1, bonus := 2, credit := 7, edges := [(0, true)] } | _ => f.eq.get q, credMode := true, window := 0 },
      90, ?_, ?_⟩,
     ⟨withFerry live fun f => { f with eq := Vector.ofFn fun q => match q.val with | 1 => { (f.eq.get q) with queue := [{ haddr := 0x1000, waddr := 0x10000000, len := 40, fmt := 0, stream := false, sent := 0 }], tickets := 4, bonus := 3, credit := 5, edges := [(0, true)] } | 3 => { (f.eq.get q) with queue := [{ haddr := 0x1000, waddr := 0x10000000, len := 40, fmt := 0, stream := false, sent := 0 }], tickets := 0, bonus := 9, credit := 5, edges := [(0, true)] } | 5 => { (f.eq.get q) with queue := [{ haddr := 0x1000, waddr := 0x10000000, len := 40, fmt := 0, stream := false, sent := 0 }], tickets := 16, bonus := 0, credit := 7, edges := [(0, true)] } | 12 => { (f.eq.get q) with queue := [{ haddr := 0x1000, waddr := 0x10000000, len := 40, fmt := 0, stream := false, sent := 0 }], tickets := 1, bonus := 2, credit := 7, edges := [(0, true)] } | _ => f.eq.get q, grant := true, owner := 5, strm := [4], trace := [7], egrst := 0, sentAt := none },
      ?_⟩⟩ <;>
    first | decide +kernel | (unfold Available; decide +kernel)

set_option Elab.async false in
theorem witness_MailboxesAreTakenAndChecked :
    (∃ (s : State) (k : Fin 4),
     Available s ∧
     s.fw.up = true ∧
     let ready (j : Fin 4) := bit s.hif.busy j.val = true ∧ s.fw.slot.get j = none ∧ s.fw.respDue.get j = false ∧
      (s.hif.ring.get j).en = true
     let first := ready k ∧ ∀ j : Fin 4, j ≠ k → ready j →
      s.hif.rungAt.get k < s.hif.rungAt.get j ∨ (s.hif.rungAt.get k = s.hif.rungAt.get j ∧ k < j)
     first) ∧
    (∃ (s : State) (k : Fin 4),
     Available s ∧
     s.fw.up = true ∧
     let ready (j : Fin 4) := bit s.hif.busy j.val = true ∧ s.fw.slot.get j = none ∧ s.fw.respDue.get j = false ∧
      (s.hif.ring.get j).en = true
     let first := ready k ∧ ∀ j : Fin 4, j ≠ k → ready j →
      s.hif.rungAt.get k < s.hif.rungAt.get j ∨ (s.hif.rungAt.get k = s.hif.rungAt.get j ∧ k < j)
     ¬ first) ∧
    (∃ (s : State) (dt : Nat) (k : Fin 4),
     Available s ∧
     s.fw.up = true ∧
     ∃ c,
     s.fw.slot.get k = some c ∧
     let passed := c.deadline ≠ 0 ∧ oldSession s = false ∧ c.takenAt / 20 + 600 * c.deadline.toNat < (s.now + dt) / 20
     c.begun = false ∧
     passed) ∧
    (∃ (s : State) (dt : Nat) (k : Fin 4),
     Available s ∧
     s.fw.up = true ∧
     ∃ c,
     s.fw.slot.get k = some c ∧
     let passed := c.deadline ≠ 0 ∧ oldSession s = false ∧ c.takenAt / 20 + 600 * c.deadline.toNat < (s.now + dt) / 20
     (c.begun = true ∨ ¬ passed)) ∧
    (∃ (s : State) (dt : Nat) (k : Fin 4),
     Available s ∧
     s.fw.up = true ∧
     let u := s.elapse dt
     ∃ (c : FwCmd) (how : HostEnd) (mismatch : Bool) (differ : List Nat) (b f1 f2 key : List Byte) (writes : Option Nat),
     s.fw.slot.get k = some c ∧
     myTurn k c u = true ∧
     ∃ p ∈ ([(1, 4, .hello dt k), (2, 12, .info dt k), (3, 0, .resetHost dt k),
      (0x10, 36, .loadImage dt k b f1 f2 key writes how differ), (0x11, 6, .imageStat dt k), (0x20, 7, .role dt k),
      (0x30, 10, .taskStart dt k differ), (0x31, 10, .taskStop dt k mismatch), (0x38, 8, .keeper dt k mismatch),
      (0x40, 8, .claim dt k), (0x41, 6, .release dt k), (0x50, 8, .latTol dt k), (0x60, 20, .counters dt k),
      (0x70, 6, .reset dt k), (0x80, 2, .eventRoute dt k), (0x90, 17, .setTime dt k)] : List (BitVec 16 × Nat × Instr)),
     c.op = p.1 ∧
     (240 < c.len ∨ c.len < p.2.1)) ∧
    (∃ (s : State) (dt : Nat) (k : Fin 4),
     Available s ∧
     s.fw.up = true ∧
     let u := s.elapse dt
     ∃ (c : FwCmd) (how : HostEnd) (mismatch : Bool) (differ : List Nat) (b f1 f2 key : List Byte) (writes : Option Nat),
     s.fw.slot.get k = some c ∧
     myTurn k c u = true ∧
     ∃ p ∈ ([(1, 4, .hello dt k), (2, 12, .info dt k), (3, 0, .resetHost dt k),
      (0x10, 36, .loadImage dt k b f1 f2 key writes how differ), (0x11, 6, .imageStat dt k), (0x20, 7, .role dt k),
      (0x30, 10, .taskStart dt k differ), (0x31, 10, .taskStop dt k mismatch), (0x38, 8, .keeper dt k mismatch),
      (0x40, 8, .claim dt k), (0x41, 6, .release dt k), (0x50, 8, .latTol dt k), (0x60, 20, .counters dt k),
      (0x70, 6, .reset dt k), (0x80, 2, .eventRoute dt k), (0x90, 17, .setTime dt k)] : List (BitVec 16 × Nat × Instr)),
     c.op = p.1 ∧
     c.len ≤ 240 ∧
     p.2.1 ≤ c.len ∧
     s.fw.session = none ∧
     p.1 ≠ 1 ∧
     p.1 ≠ 3) ∧
    (∃ (s : State) (dt : Nat) (k : Fin 4),
     Available s ∧
     s.fw.up = true ∧
     let u := s.elapse dt
     ∃ (c : FwCmd) (how : HostEnd) (mismatch : Bool) (differ : List Nat) (b f1 f2 key : List Byte) (writes : Option Nat),
     s.fw.slot.get k = some c ∧
     myTurn k c u = true ∧
     ∃ p ∈ ([(1, 4, .hello dt k), (2, 12, .info dt k), (3, 0, .resetHost dt k),
      (0x10, 36, .loadImage dt k b f1 f2 key writes how differ), (0x11, 6, .imageStat dt k), (0x20, 7, .role dt k),
      (0x30, 10, .taskStart dt k differ), (0x31, 10, .taskStop dt k mismatch), (0x38, 8, .keeper dt k mismatch),
      (0x40, 8, .claim dt k), (0x41, 6, .release dt k), (0x50, 8, .latTol dt k), (0x60, 20, .counters dt k),
      (0x70, 6, .reset dt k), (0x80, 2, .eventRoute dt k), (0x90, 17, .setTime dt k)] : List (BitVec 16 × Nat × Instr)),
     c.op = p.1 ∧
     ∃ v,
     c.len ≤ 240 ∧
     p.2.1 ≤ c.len ∧
     s.fw.session = some v ∧
     v.toNat < opVersion c) ∧
    (∃ (s : State) (dt : Nat) (k : Fin 4),
     Available s ∧
     s.fw.up = true ∧
     let u := s.elapse dt
     ∃ (c : FwCmd) (how : HostEnd) (mismatch : Bool) (differ : List Nat) (b f1 f2 key : List Byte) (writes : Option Nat),
     s.fw.slot.get k = some c ∧
     myTurn k c u = true ∧
     ∃ p ∈ ([(1, 4, .hello dt k), (2, 12, .info dt k), (3, 0, .resetHost dt k),
      (0x10, 36, .loadImage dt k b f1 f2 key writes how differ), (0x11, 6, .imageStat dt k), (0x20, 7, .role dt k),
      (0x30, 10, .taskStart dt k differ), (0x31, 10, .taskStop dt k mismatch), (0x38, 8, .keeper dt k mismatch),
      (0x40, 8, .claim dt k), (0x41, 6, .release dt k), (0x50, 8, .latTol dt k), (0x60, 20, .counters dt k),
      (0x70, 6, .reset dt k), (0x80, 2, .eventRoute dt k), (0x90, 17, .setTime dt k)] : List (BitVec 16 × Nat × Instr)),
     c.op = p.1 ∧
     ∃ v,
     c.len ≤ 240 ∧
     p.2.1 ≤ c.len ∧
     s.fw.session = some v ∧
     opVersion c ≤ v.toNat ∧
     v.toNat < 0x0300 ∧
     c.deadline ≠ 0) ∧
    (∃ (s : State) (dt : Nat) (k : Fin 4),
     Available s ∧
     s.fw.up = true ∧
     let u := s.elapse dt
     ∃ (c : FwCmd) (how : HostEnd) (mismatch : Bool) (differ : List Nat) (b f1 f2 key : List Byte) (writes : Option Nat),
     s.fw.slot.get k = some c ∧
     myTurn k c u = true ∧
     ∃ p ∈ ([(1, 4, .hello dt k), (2, 12, .info dt k), (3, 0, .resetHost dt k),
      (0x10, 36, .loadImage dt k b f1 f2 key writes how differ), (0x11, 6, .imageStat dt k), (0x20, 7, .role dt k),
      (0x30, 10, .taskStart dt k differ), (0x31, 10, .taskStop dt k mismatch), (0x38, 8, .keeper dt k mismatch),
      (0x40, 8, .claim dt k), (0x41, 6, .release dt k), (0x50, 8, .latTol dt k), (0x60, 20, .counters dt k),
      (0x70, 6, .reset dt k), (0x80, 2, .eventRoute dt k), (0x90, 17, .setTime dt k)] : List (BitVec 16 × Nat × Instr)),
     c.op = p.1 ∧
     ∃ v,
     c.len ≤ 240 ∧
     p.2.1 ≤ c.len ∧
     s.fw.session = some v ∧
     v = 0x0301 ∧
     c.deadline ≠ 0 ∧
     c.begun = false ∧
     c.takenAt / 20 + 600 * c.deadline.toNat < (s.now + dt) / 20) := by
  refine
    ⟨⟨withFw (withHif live fun h => { h with busy := 7, rungAt := #v[3, 3, 9, 3], ring := (vput (vput h.ring 1 { (h.ring.get 1) with en := true }) 2 { (h.ring.get 2) with en := true }), mb := vput h.mb 1 [0x01, 0x00, 0x07, 0x00, 0x04, 0x00, 0x00, 0x00, 0x00, 0x00, 0x00, 0x00, 0x00, 0x00, 0x00, 0x00, 0x00, 0x02, 0x01, 0x03] }) fun x => { x with up := true },
      1, ?_, ?_, ?_⟩,
     ⟨withFw (withHif live fun h => { h with busy := 7, rungAt := #v[3, 3, 2, 3], ring := (vput (vput h.ring 1 { (h.ring.get 1) with en := true }) 2 { (h.ring.get 2) with en := true }), mb := vput h.mb 1 [0x01, 0x00, 0x07, 0x00, 0x04, 0x00, 0x00, 0x00, 0x00, 0x00, 0x00, 0x00, 0x00, 0x00, 0x00, 0x00, 0x00, 0x02, 0x01, 0x03] }) fun x => { x with up := true },
      1, ?_, ?_, ?_⟩,
     ⟨withFw (live) fun x => { x with slot := vput x.slot 1 (some { op := 0x20, tag := 9, len := 7, deadline := 1, payload := [0x00, 0x00, 0x00, 0x00, 0x00, 0x00, 0x00], takenAt := 0, seq := 3, started := none, sending := none }), session := some 0x301 },
      13000, 1, ?_, ?_,
      ({ op := 0x20, tag := 9, len := 7, deadline := 1, payload := [0x00, 0x00, 0x00, 0x00, 0x00, 0x00, 0x00], takenAt := 0, seq := 3, started := none, sending := none } : FwCmd),
      ?_, ?_, ?_⟩,
     ⟨withFw (live) fun x => { x with slot := vput x.slot 1 (some { op := 0x20, tag := 9, len := 7, deadline := 1, payload := [0x00, 0x00, 0x00, 0x00, 0x00, 0x00, 0x00], takenAt := 0, seq := 3, started := none, sending := none }), session := some 0x301 },
      12000, 1, ?_, ?_,
      ({ op := 0x20, tag := 9, len := 7, deadline := 1, payload := [0x00, 0x00, 0x00, 0x00, 0x00, 0x00, 0x00], takenAt := 0, seq := 3, started := none, sending := none } : FwCmd),
      ?_, ?_⟩,
     ⟨withFw (live) fun x => { x with slot := vput x.slot 1 (some { op := 0x1, tag := 9, len := 241, deadline := 0, payload := [], takenAt := 0, seq := 3, started := none, sending := none }), session := some 0x301 },
      12, 1, ?_, ?_,
      ({ op := 0x1, tag := 9, len := 241, deadline := 0, payload := [], takenAt := 0, seq := 3, started := none, sending := none } : FwCmd),
      .ok, false, [], [], [], [], [], none, ?_, ?_, ((1, 4, .hello 12 1) : BitVec 16 × Nat × Instr), ?_, ?_, ?_⟩,
     ⟨withFw (live) fun x => { x with slot := vput x.slot 1 (some { op := 0x2, tag := 9, len := 12, deadline := 0, payload := [], takenAt := 0, seq := 3, started := none, sending := none }), session := none },
      12, 1, ?_, ?_,
      ({ op := 0x2, tag := 9, len := 12, deadline := 0, payload := [], takenAt := 0, seq := 3, started := none, sending := none } : FwCmd),
      .ok, false, [], [], [], [], [], none, ?_, ?_, ((2, 12, .info 12 1) : BitVec 16 × Nat × Instr), ?_, ?_, ?_, ?_, ?_, ?_,
      ?_⟩,
     ⟨withFw (live) fun x => { x with slot := vput x.slot 1 (some { op := 0x50, tag := 9, len := 8, deadline := 0, payload := [0x00, 0x00, 0x00, 0x03], takenAt := 0, seq := 3, started := none, sending := none }), session := some 0x200 },
      12, 1, ?_, ?_,
      ({ op := 0x50, tag := 9, len := 8, deadline := 0, payload := [0x00, 0x00, 0x00, 0x03], takenAt := 0, seq := 3, started := none, sending := none } : FwCmd),
      .ok, false, [], [], [], [], [], none, ?_, ?_, ((80, 8, .latTol 12 1) : BitVec 16 × Nat × Instr), ?_, ?_, 0x200, ?_, ?_,
      ?_, ?_⟩,
     ⟨withFw (live) fun x => { x with slot := vput x.slot 1 (some { op := 0x1, tag := 9, len := 4, deadline := 1, payload := [], takenAt := 0, seq := 3, started := none, sending := none }), session := some 0x201 },
      12, 1, ?_, ?_,
      ({ op := 0x1, tag := 9, len := 4, deadline := 1, payload := [], takenAt := 0, seq := 3, started := none, sending := none } : FwCmd),
      .ok, false, [], [], [], [], [], none, ?_, ?_, ((1, 4, .hello 12 1) : BitVec 16 × Nat × Instr), ?_, ?_, 0x201, ?_, ?_,
      ?_, ?_, ?_, ?_⟩,
     ⟨withFw ({ live with now := 13000 }) fun x => { x with slot := vput x.slot 1 (some { op := 0x1, tag := 9, len := 4, deadline := 1, payload := [], takenAt := 0, seq := 3, started := none, sending := none }), session := some 0x301 },
      12, 1, ?_, ?_,
      ({ op := 0x1, tag := 9, len := 4, deadline := 1, payload := [], takenAt := 0, seq := 3, started := none, sending := none } : FwCmd),
      .ok, false, [], [], [], [], [], none, ?_, ?_, ((1, 4, .hello 12 1) : BitVec 16 × Nat × Instr), ?_, ?_, 0x301, ?_, ?_,
      ?_, ?_, ?_, ?_, ?_⟩⟩ <;>
    first | decide +kernel | (unfold Available; decide +kernel)

set_option Elab.async false in
theorem witness_SessionsToleranceAndEvents :
    (∃ (s : State) (dt : Nat) (k : Fin 4) (c : FwCmd),
     Available s ∧
     let u := s.elapse dt
     CommandRuns u k c 1 ∧
     s.fw.session = none ∧
     ∃ v ∈ [0x0200, 0x0201, 0x0300, 0x0301],
     c.arg 0 2 ≤ v ∧
     v ≤ c.arg 2 2 ∧
     (∀ w ∈ [0x0200, 0x0201, 0x0300, 0x0301], w ≤ c.arg 2 2 → w ≤ v)) ∧
    (∃ (s : State) (dt : Nat) (k : Fin 4) (c : FwCmd),
     Available s ∧
     let u := s.elapse dt
     CommandRuns u k c 1 ∧
     s.fw.session = none ∧
     (∀ v ∈ [0x0200, 0x0201, 0x0300, 0x0301], v < c.arg 0 2 ∨ c.arg 2 2 < v)) ∧
    (∃ (s : State) (dt : Nat) (k : Fin 4) (c : FwCmd),
     Available s ∧
     let u := s.elapse dt
     CommandRuns u k c 1 ∧
     s.fw.session ≠ none) ∧
    (∃ (s : State) (dt : Nat) (k : Fin 4) (c : FwCmd),
     Available s ∧
     let u := s.elapse dt
     CommandRuns u k c 3) ∧
    (∃ (s : State) (dt : Nat) (k : Fin 4) (c : FwCmd),
     Available s ∧
     let u := s.elapse dt
     CommandRuns u k c 0x80 ∧
     ∃ (code : Fin 16),
     c.arg 0 1 = code.val ∧
     1 ≤ code.val ∧
     code.val ≤ 10 ∧
     c.arg 1 1 ≤ 3) ∧
    (∃ (s : State) (dt : Nat) (k : Fin 4) (c : FwCmd),
     Available s ∧
     let u := s.elapse dt
     CommandRuns u k c 0x80 ∧
     (c.arg 0 1 < 1 ∨ 10 < c.arg 0 1 ∨ 3 < c.arg 1 1)) ∧
    (∃ (s : State) (dt : Nat) (k : Fin 4) (c : FwCmd),
     Available s ∧
     let u := s.elapse dt
     CommandRuns u k c 0x90 ∧
     c.arg 8 1 % 4 = 1 ∧
     s.kp.mode = .starting ∧
     s.crp.bhold = BitVec.allOnes 48 ∧
     s.wharf.cur.get 12 = 0) ∧
    (∃ (s : State) (dt : Nat) (k : Fin 4) (c : FwCmd),
     Available s ∧
     let u := s.elapse dt
     CommandRuns u k c 0x90 ∧
     c.arg 8 1 % 4 = 1 ∧
     (s.kp.mode ≠ .starting ∨ s.crp.bhold ≠ BitVec.allOnes 48)) ∧
    (∃ (s : State) (dt : Nat) (k : Fin 4) (c : FwCmd),
     Available s ∧
     let u := s.elapse dt
     CommandRuns u k c 0x90 ∧
     c.arg 8 1 % 4 = 2 ∧
     c.arg 12 4 < 2 ^ 20 ∧
     c.arg 16 1 ≤ 1 ∧
     s.wharf.cur.get 12 = 0) ∧
    (∃ (s : State) (dt : Nat) (k : Fin 4) (c : FwCmd),
     Available s ∧
     let u := s.elapse dt
     CommandRuns u k c 0x50 ∧
     c.arg 0 1 = 12 ∧
     s.wharf.cur.get 12 = 0 ∧
     c.arg 4 4 = 0xFFFFFFFF) ∧
    (∃ (s : State) (dt : Nat) (k : Fin 4) (c : FwCmd),
     Available s ∧
     let u := s.elapse dt
     CommandRuns u k c 0x50 ∧
     c.arg 0 1 = 12 ∧
     s.wharf.cur.get 12 = 0 ∧
     ∃ e,
     e ≤ 5 ∧
     c.arg 4 4 < 0xFFFFFFFF ∧
     c.arg 4 4 / 32 ^ e ≤ 1023 ∧
     (∀ j, j < e → 1023 < c.arg 4 4 / 32 ^ j)) ∧
    (∃ (s : State) (dt : Nat) (k : Fin 4) (c : FwCmd),
     Available s ∧
     let u := s.elapse dt
     ∃ (n : BasinIx),
     CommandRuns u k c 0x50 ∧
     c.arg 0 1 = n.val ∧
     loading s k n = false) ∧
    (∃ (s : State),
     Available s ∧
     s.fw.up = true ∧
     (∀ r, (s.fw.rings.get r).lost = 0 ∨ 64 ≤ eventsWaiting (s.fw.rings.get r)) ∧
     ∃ stamp ep x rest,
     s.fw.notices = (stamp, ep, x) :: rest) ∧
    (∃ (s : State) (dt : Nat),
     Available s ∧
     let u := s.elapse dt
     s.fw.up = true ∧
     (∀ r, (s.fw.rings.get r).lost = 0 ∨ 64 ≤ eventsWaiting (s.fw.rings.get r)) ∧
     ∃ w rest,
     s.fw.notices = [] ∧
     s.kp.powered = true ∧
     logHead u = some w ∧
     s.kp.log = w :: rest) ∧
    (∃ (s : State) (dt : Nat),
     Available s ∧
     let u := s.elapse dt
     s.fw.up = true ∧
     (∀ r, (s.fw.rings.get r).lost = 0 ∨ 64 ≤ eventsWaiting (s.fw.rings.get r)) ∧
     s.fw.notices = [] ∧
     (s.kp.powered = false ∨ logHead u = none)) ∧
    (∃ (s : State),
     Available s ∧
     ∃ (r : Fin 4),
     s.fw.up = true ∧
     (∀ j, j < r → (s.fw.rings.get j).lost = 0 ∨ 64 ≤ eventsWaiting (s.fw.rings.get j)) ∧
     (s.fw.rings.get r).lost ≠ 0 ∧
     eventsWaiting (s.fw.rings.get r) < 64) := by
  refine
    ⟨⟨withFw (live) fun x => { x with slot := vput x.slot 1 (some { op := 0x1, tag := 9, len := 4, deadline := 0, payload := [0x00, 0x01, 0x01, 0x03], takenAt := 0, seq := 3, started := none, sending := none }), session := none },
      12, 1,
      ({ op := 0x1, tag := 9, len := 4, deadline := 0, payload := [0x00, 0x01, 0x01, 0x03], takenAt := 0, seq := 3, started := none, sending := none } : FwCmd),
      ?_, ?_, ?_, 0x301, ?_, ?_, ?_, ?_⟩,
     ⟨withFw (live) fun x => { x with slot := vput x.slot 1 (some { op := 0x1, tag := 9, len := 4, deadline := 0, payload := [0x02, 0x03, 0xFF, 0xFF], takenAt := 0, seq := 3, started := none, sending := none }), session := none },
      12, 1,
      ({ op := 0x1, tag := 9, len := 4, deadline := 0, payload := [0x02, 0x03, 0xFF, 0xFF], takenAt := 0, seq := 3, started := none, sending := none } : FwCmd),
      ?_, ?_, ?_, ?_⟩,
     ⟨withFw (live) fun x => { x with slot := vput x.slot 1 (some { op := 0x1, tag := 9, len := 4, deadline := 0, payload := [0x00, 0x00, 0x01, 0x03], takenAt := 0, seq := 3, started := none, sending := none }), session := some 0x301 },
      12, 1,
      ({ op := 0x1, tag := 9, len := 4, deadline := 0, payload := [0x00, 0x00, 0x01, 0x03], takenAt := 0, seq := 3, started := none, sending := none } : FwCmd),
      ?_, ?_, ?_⟩,
     ⟨withFw (live) fun x => { x with slot := vput x.slot 1 (some { op := 0x3, tag := 9, len := 0, deadline := 0, payload := [], takenAt := 0, seq := 3, started := none, sending := none }), session := some 0x301, rings := vput x.rings 2 { queue := [[1]] }, epBarge := vput x.epBarge 3 9 },
      12, 1,
      ({ op := 0x3, tag := 9, len := 0, deadline := 0, payload := [], takenAt := 0, seq := 3, started := none, sending := none } : FwCmd),
      ?_, ?_⟩,
     ⟨withFw (live) fun x => { x with slot := vput x.slot 1 (some { op := 0x80, tag := 9, len := 2, deadline := 0, payload := [0x01, 0x03], takenAt := 0, seq := 3, started := none, sending := none }), session := some 0x301 },
      12, 1,
      ({ op := 0x80, tag := 9, len := 2, deadline := 0, payload := [0x01, 0x03], takenAt := 0, seq := 3, started := none, sending := none } : FwCmd),
      ?_, ?_, 1, ?_, ?_, ?_, ?_⟩,
     ⟨withFw (live) fun x => { x with slot := vput x.slot 1 (some { op := 0x80, tag := 9, len := 2, deadline := 0, payload := [0x00, 0x03], takenAt := 0, seq := 3, started := none, sending := none }), session := some 0x301 },
      12, 1,
      ({ op := 0x80, tag := 9, len := 2, deadline := 0, payload := [0x00, 0x03], takenAt := 0, seq := 3, started := none, sending := none } : FwCmd),
      ?_, ?_, ?_⟩,
     ⟨withFw ({ State.reset with fw := { State.reset.fw with up := true } }) fun x => { x with slot := vput x.slot 1 (some { op := 0x90, tag := 9, len := 17, deadline := 0, payload := [0xEF, 0xCD, 0xAB, 0x89, 0x67, 0x45, 0x23, 0x01, 0x01, 0x09, 0x00, 0x00, 0x00, 0x00, 0x00, 0x00, 0x00], takenAt := 0, seq := 3, started := none, sending := none }), session := some 0x301 },
      12, 1,
      ({ op := 0x90, tag := 9, len := 17, deadline := 0, payload := [0xEF, 0xCD, 0xAB, 0x89, 0x67, 0x45, 0x23, 0x01, 0x01, 0x09, 0x00, 0x00, 0x00, 0x00, 0x00, 0x00, 0x00], takenAt := 0, seq := 3, started := none, sending := none } : FwCmd),
      ?_, ?_, ?_, ?_, ?_, ?_⟩,
     ⟨withFw (live) fun x => { x with slot := vput x.slot 1 (some { op := 0x90, tag := 9, len := 17, deadline := 0, payload := [0xEF, 0xCD, 0xAB, 0x89, 0x67, 0x45, 0x23, 0x01, 0x01, 0x09, 0x00, 0x00, 0x00, 0x00, 0x00, 0x00, 0x00], takenAt := 0, seq := 3, started := none, sending := none }), session := some 0x301 },
      12, 1,
      ({ op := 0x90, tag := 9, len := 17, deadline := 0, payload := [0xEF, 0xCD, 0xAB, 0x89, 0x67, 0x45, 0x23, 0x01, 0x01, 0x09, 0x00, 0x00, 0x00, 0x00, 0x00, 0x00, 0x00], takenAt := 0, seq := 3, started := none, sending := none } : FwCmd),
      ?_, ?_, ?_, ?_⟩,
     ⟨withFw (live) fun x => { x with slot := vput x.slot 1 (some { op := 0x90, tag := 9, len := 17, deadline := 0, payload := [0x4D, 0x00, 0x00, 0x00, 0x00, 0x00, 0x00, 0x00, 0x02, 0x00, 0x00, 0x00, 0xFF, 0xFF, 0x0F, 0x00, 0x01], takenAt := 0, seq := 3, started := none, sending := none }), session := some 0x301 },
      12, 1,
      ({ op := 0x90, tag := 9, len := 17, deadline := 0, payload := [0x4D, 0x00, 0x00, 0x00, 0x00, 0x00, 0x00, 0x00, 0x02, 0x00, 0x00, 0x00, 0xFF, 0xFF, 0x0F, 0x00, 0x01], takenAt := 0, seq := 3, started := none, sending := none } : FwCmd),
      ?_, ?_, ?_, ?_, ?_, ?_⟩,
     ⟨withFw (live) fun x => { x with slot := vput x.slot 1 (some { op := 0x50, tag := 9, len := 8, deadline := 0, payload := [0x0C, 0x00, 0x00, 0x00, 0xFF, 0xFF, 0xFF, 0xFF], takenAt := 0, seq := 3, started := none, sending := none }), session := some 0x301 },
      12, 1,
      ({ op := 0x50, tag := 9, len := 8, deadline := 0, payload := [0x0C, 0x00, 0x00, 0x00, 0xFF, 0xFF, 0xFF, 0xFF], takenAt := 0, seq := 3, started := none, sending := none } : FwCmd),
      ?_, ?_, ?_, ?_, ?_⟩,
     ⟨withFw (live) fun x => { x with slot := vput x.slot 1 (some { op := 0x50, tag := 9, len := 8, deadline := 0, payload := [0x0C, 0x00, 0x00, 0x00, 0x00, 0x00, 0x00, 0x00], takenAt := 0, seq := 3, started := none, sending := none }), session := some 0x301 },
      12, 1,
      ({ op := 0x50, tag := 9, len := 8, deadline := 0, payload := [0x0C, 0x00, 0x00, 0x00, 0x00, 0x00, 0x00, 0x00], takenAt := 0, seq := 3, started := none, sending := none } : FwCmd),
      ?_, ?_, ?_, ?_, 0, ?_, ?_, ?_, ?_⟩,
     ⟨withFw (live) fun x => { x with slot := vput x.slot 1 (some { op := 0x50, tag := 9, len := 8, deadline := 0, payload := [0x01, 0x00, 0x00, 0x00, 0x00, 0x00, 0x00, 0x00], takenAt := 0, seq := 3, started := none, sending := none }), session := some 0x301 },
      12, 1,
      ({ op := 0x50, tag := 9, len := 8, deadline := 0, payload := [0x01, 0x00, 0x00, 0x00, 0x00, 0x00, 0x00, 0x00], takenAt := 0, seq := 3, started := none, sending := none } : FwCmd),
      ?_, 1, ?_, ?_, ?_⟩,
     ⟨withFw live fun x => { x with notices := [(5000, 3, .keeperState 1 2 3), (1, 2, .power 1 2)], route := vput x.route 9 2, rings := vput x.rings 3 { queue := [[1], []] } },
      ?_, ?_, ?_, 5000, 3, .keeperState 1 2 3, [(1, 2, .power 1 2)], ?_⟩,
     ⟨{ live with kp := { live.kp with log := [0x123456789, 5] } }, 12, ?_, ?_, ?_, 0x123456789, [5], ?_, ?_, ?_, ?_⟩,
     ⟨live, 12, ?_, ?_, ?_, ?_, ?_⟩,
     ⟨withFw live fun x => { x with notices := [(77, 2, .power 1 2)], rings := vput (vput x.rings 1 { lost := 1, queue := [[4]] }) 3 { lost := 9 } },
      ?_, 1, ?_, ?_, ?_, ?_⟩⟩ <;>
    first | decide +kernel | (unfold Available; decide +kernel) | (unfold CommandRuns; decide +kernel)

set_option Elab.async false in
theorem witness_ClaimsRolesAndResets :
    (∃ (s : State) (dt : Nat) (k : Fin 4) (c : FwCmd),
     Available s ∧
     let u := followZones (s.elapse dt)
     let id := c.arg 0 4
     let kind := idKind id
     let i := idIndex id
     ∃ (n : BasinIx) (ep : BitVec 16),
     CommandRuns u k c 0x40 ∧
     3 ≤ kind ∧
     kind ≤ 9 ∧
     epochOf s.fw kind i = some ep ∧
     c.arg 6 1 ≤ 1 ∧
     c.arg 7 1 = n.val ∧
     (c.arg 4 2 = 0 ∨ c.arg 4 2 = ep.toNat) ∧
     let world := c.arg 6 1 == 1
     let ws := givenWords c
     let v := configured kind i n world ws u
     (kind = 9 → (ws.headD 0).toNat ≤ 1) ∧
     bit (readyBits u) (readyBit kind i (ws.headD 0 == 1)) = true ∧
     foreignTimebase v kind i n world = none ∧
     loading u k n = false ∧
     s.wharf.cur.get 12 = 0 ∧
     bit (cfgRead u kind i (enWord kind)) 0 = false ∧
     (∀ r ∈ claimSet v kind i, ownerOf s r.1 r.2 = none) ∧
     areaTaken v kind i = none ∧
     claimReason u v kind i = none ∧
     (enableAll (toEnable v kind i world) v).isSome = true) ∧
    (∃ (s : State) (dt : Nat) (k : Fin 4) (c : FwCmd),
     Available s ∧
     let u := followZones (s.elapse dt)
     let id := c.arg 0 4
     let kind := idKind id
     let i := idIndex id
     ∃ (n : BasinIx) (ep : BitVec 16),
     CommandRuns u k c 0x40 ∧
     3 ≤ kind ∧
     kind ≤ 9 ∧
     epochOf s.fw kind i = some ep ∧
     c.arg 6 1 ≤ 1 ∧
     c.arg 7 1 = n.val ∧
     (c.arg 4 2 = 0 ∨ c.arg 4 2 = ep.toNat) ∧
     let world := c.arg 6 1 == 1
     let ws := givenWords c
     let v := configured kind i n world ws u
     (kind = 9 → (ws.headD 0).toNat ≤ 1) ∧
     bit (readyBits u) (readyBit kind i (ws.headD 0 == 1)) = true ∧
     foreignTimebase v kind i n world = none ∧
     loading u k n = false ∧
     ∃ o,
     ownerOf s kind i = some o) ∧
    (∃ (s : State) (dt : Nat) (k : Fin 4) (c : FwCmd),
     Available s ∧
     let u := followZones (s.elapse dt)
     let id := c.arg 0 4
     let kind := idKind id
     let i := idIndex id
     ∃ (ep : BitVec 16),
     CommandRuns u k c 0x40 ∧
     3 ≤ kind ∧
     kind ≤ 9 ∧
     epochOf s.fw kind i = some ep ∧
     c.arg 6 1 ≤ 1 ∧
     c.arg 7 1 < 12 ∧
     (kind = 9 → ((givenWords c).headD 0).toNat ≤ 1) ∧
     c.arg 4 2 ≠ 0 ∧
     c.arg 4 2 ≠ ep.toNat) ∧
    (∃ (s : State) (dt : Nat) (k : Fin 4) (c : FwCmd),
     Available s ∧
     let u := followZones (s.elapse dt)
     let id := c.arg 0 4
     let kind := idKind id
     let i := idIndex id
     ∃ (o : Nat × Bool) (ep : BitVec 16),
     CommandRuns u k c 0x41 ∧
     3 ≤ kind ∧
     kind ≤ 9 ∧
     epochOf s.fw kind i = some ep ∧
     c.arg 4 2 = ep.toNat ∧
     s.wharf.cur.get 12 = 0 ∧
     boundByTask u kind i = false ∧
     ownerOf s kind i = some o ∧
     (∀ e : Fin 128, kind = 5 → e.val + 1 = i → e.val % 2 = 0 → ((s.fio.fi.get e).en && (s.fio.fi.get e).pair) = false)) ∧
    (∃ (s : State) (dt : Nat) (k : Fin 4) (c : FwCmd),
     Available s ∧
     let u := followZones (s.elapse dt)
     let id := c.arg 0 4
     let kind := idKind id
     let i := idIndex id
     ∃ (ep : BitVec 16),
     CommandRuns u k c 0x41 ∧
     3 ≤ kind ∧
     kind ≤ 9 ∧
     epochOf s.fw kind i = some ep ∧
     c.arg 4 2 ≠ ep.toNat) ∧
    (∃ (s : State) (dt : Nat) (k : Fin 4) (c : FwCmd),
     Available s ∧
     let u := followZones (s.elapse dt)
     let id := c.arg 0 4
     let kind := idKind id
     let i := idIndex id
     ∃ (g : BargeIx),
     CommandRuns u k c 0x20 ∧
     kind = 2 ∧
     i = g.val ∧
     c.arg 4 2 = (s.fw.epBarge.get g).toNat ∧
     c.arg 6 1 = 0 ∧
     s.wharf.cur.get 12 = 0 ∧
     taskOn s g = false ∧
     loading u k (basinOf g) = false) ∧
    (∃ (s : State) (dt : Nat) (k : Fin 4) (c : FwCmd),
     Available s ∧
     let u := followZones (s.elapse dt)
     let id := c.arg 0 4
     let kind := idKind id
     let i := idIndex id
     ∃ (g : BargeIx),
     CommandRuns u k c 0x20 ∧
     kind = 2 ∧
     i = g.val ∧
     c.arg 4 2 = (s.fw.epBarge.get g).toNat ∧
     c.arg 6 1 = 1 ∧
     bit s.kp.retired g.val = false ∧
     (s.fw.image.get (basinOf g)).state = 2 ∧
     (s.fw.image.get (basinOf g)).stale = false ∧
     basinDown s (basinOf g) = false ∧
     awake s (basinOf g) = true ∧
     loading u k (basinOf g) = false ∧
     s.wharf.cur.get 12 = 0) ∧
    (∃ (s : State) (dt : Nat) (k : Fin 4) (c : FwCmd),
     Available s ∧
     let u := followZones (s.elapse dt)
     let id := c.arg 0 4
     let kind := idKind id
     let i := idIndex id
     ∃ (g : BargeIx),
     CommandRuns u k c 0x20 ∧
     kind = 2 ∧
     i = g.val ∧
     c.arg 4 2 = (s.fw.epBarge.get g).toNat ∧
     (c.arg 6 1 = 0 ∧ taskOn s g = true ∨
      c.arg 6 1 = 1 ∧ (bit s.kp.retired g.val = true ∨ (s.fw.image.get (basinOf g)).state ≠ 2))) ∧
    (∃ (s : State) (dt : Nat) (k : Fin 4) (c : FwCmd),
     Available s ∧
     let u := followZones (s.elapse dt)
     let id := c.arg 0 4
     let kind := idKind id
     let i := idIndex id
     ∃ (n : BasinIx),
     CommandRuns u k c 0x70 ∧
     kind = 1 ∧
     i = n.val ∧
     c.arg 4 2 = (s.fw.epBasin.get n).toNat ∧
     loading u k n = false ∧
     inReset s n = false) ∧
    (∃ (s : State) (dt : Nat) (k : Fin 4) (c : FwCmd),
     Available s ∧
     let u := followZones (s.elapse dt)
     let id := c.arg 0 4
     let kind := idKind id
     let i := idIndex id
     ∃ (n : BasinIx),
     CommandRuns u k c 0x70 ∧
     kind = 1 ∧
     i = n.val ∧
     c.arg 4 2 = (s.fw.epBasin.get n).toNat ∧
     loading u k n = false ∧
     inReset s n = true) ∧
    (∃ (s : State) (dt : Nat) (k : Fin 4) (c : FwCmd),
     Available s ∧
     let u := followZones (s.elapse dt)
     let id := c.arg 0 4
     let kind := idKind id
     let i := idIndex id
     ∃ (g : BargeIx),
     CommandRuns u k c 0x70 ∧
     kind = 2 ∧
     i = g.val ∧
     c.arg 4 2 = (s.fw.epBarge.get g).toNat ∧
     loading u k (basinOf g) = false ∧
     inReset s (basinOf g) = false) ∧
    (∃ (s : State) (dt : Nat) (k : Fin 4) (c : FwCmd),
     Available s ∧
     let u := followZones (s.elapse dt)
     let id := c.arg 0 4
     let kind := idKind id
     let i := idIndex id
     ∃ (ep : BitVec 16),
     CommandRuns u k c 0x70 ∧
     3 ≤ kind ∧
     kind ≤ 7 ∧
     epochOf s.fw kind i = some ep ∧
     c.arg 4 2 = ep.toNat ∧
     ownerOf s kind i = none) ∧
    (∃ (s : State) (dt : Nat) (k : Fin 4) (c : FwCmd),
     Available s ∧
     let u := followZones (s.elapse dt)
     let id := c.arg 0 4
     let kind := idKind id
     let i := idIndex id
     ∃ (ep : BitVec 16),
     CommandRuns u k c 0x70 ∧
     3 ≤ kind ∧
     kind ≤ 7 ∧
     epochOf s.fw kind i = some ep ∧
     c.arg 4 2 = ep.toNat ∧
     ownerOf s kind i ≠ none) := by
  refine
    ⟨⟨withFw (({ live with crp := { live.crp with iobank := live.crp.iobank.map fun b => { b with mon := true } }, pwm := { live.pwm with calok := true } } : State)) fun x => { x with slot := vput x.slot 1 (some { op := 0x40, tag := 9, len := 8, deadline := 0, payload := [0x09, 0x00, 0x00, 0x03, 0x00, 0x00, 0x00, 0x01], takenAt := 0, seq := 3, started := none, sending := none }), session := some 0x301 },
      12, 1,
      ({ op := 0x40, tag := 9, len := 8, deadline := 0, payload := [0x09, 0x00, 0x00, 0x03, 0x00, 0x00, 0x00, 0x01], takenAt := 0, seq := 3, started := none, sending := none } : FwCmd),
      ?_, 1, 1, ?_, ?_, ?_, ?_, ?_, ?_, ?_, ?_, ?_, ?_, ?_, ?_, ?_, ?_, ?_, ?_, ?_⟩,
     ⟨withFw (withWeir ({ live with crp := { live.crp with iobank := live.crp.iobank.map fun b => { b with mon := true } }, pwm := { live.pwm with calok := true } } : State) fun w => { w with ch := vmod w.ch 9 fun c => { c with chres := 0x1000000, dst := 1 } }) fun x => { x with slot := vput x.slot 1 (some { op := 0x40, tag := 9, len := 8, deadline := 0, payload := [0x09, 0x00, 0x00, 0x03, 0x00, 0x00, 0x00, 0x01], takenAt := 0, seq := 3, started := none, sending := none }), session := some 0x301 },
      12, 1,
      ({ op := 0x40, tag := 9, len := 8, deadline := 0, payload := [0x09, 0x00, 0x00, 0x03, 0x00, 0x00, 0x00, 0x01], takenAt := 0, seq := 3, started := none, sending := none } : FwCmd),
      ?_, 1, 1, ?_, ?_, ?_, ?_, ?_, ?_, ?_, ?_, ?_, ?_, ?_, (1, false), ?_⟩,
     ⟨withFw (({ live with crp := { live.crp with iobank := live.crp.iobank.map fun b => { b with mon := true } }, pwm := { live.pwm with calok := true } } : State)) fun x => { x with slot := vput x.slot 1 (some { op := 0x40, tag := 9, len := 16, deadline := 0, payload := [0x09, 0x00, 0x00, 0x03, 0x03, 0x00, 0x00, 0x01, 0x01, 0x00, 0x00, 0x00, 0x00, 0x00, 0x00, 0x00], takenAt := 0, seq := 3, started := none, sending := none }), session := some 0x301 },
      12, 1,
      ({ op := 0x40, tag := 9, len := 16, deadline := 0, payload := [0x09, 0x00, 0x00, 0x03, 0x03, 0x00, 0x00, 0x01, 0x01, 0x00, 0x00, 0x00, 0x00, 0x00, 0x00, 0x00], takenAt := 0, seq := 3, started := none, sending := none } : FwCmd),
      ?_, 1, ?_, ?_, ?_, ?_, ?_, ?_, ?_, ?_, ?_⟩,
     ⟨withFw (withWeir live fun w => { w with ch := vmod w.ch 9 fun c => { c with chres := 0x1000000, dst := 1 } }) fun x => { x with slot := vput x.slot 1 (some { op := 0x41, tag := 9, len := 6, deadline := 0, payload := [0x09, 0x00, 0x00, 0x03, 0x01, 0x00], takenAt := 0, seq := 3, started := none, sending := none }), session := some 0x301 },
      12, 1,
      ({ op := 0x41, tag := 9, len := 6, deadline := 0, payload := [0x09, 0x00, 0x00, 0x03, 0x01, 0x00], takenAt := 0, seq := 3, started := none, sending := none } : FwCmd),
      ?_, (1, false), 1, ?_, ?_, ?_, ?_, ?_, ?_, ?_, ?_, ?_⟩,
     ⟨withFw (withWeir live fun w => { w with ch := vmod w.ch 9 fun c => { c with chres := 0x1000000, dst := 1 } }) fun x => { x with slot := vput x.slot 1 (some { op := 0x41, tag := 9, len := 6, deadline := 0, payload := [0x09, 0x00, 0x00, 0x03, 0x05, 0x00], takenAt := 0, seq := 3, started := none, sending := none }), session := some 0x301 },
      12, 1,
      ({ op := 0x41, tag := 9, len := 6, deadline := 0, payload := [0x09, 0x00, 0x00, 0x03, 0x05, 0x00], takenAt := 0, seq := 3, started := none, sending := none } : FwCmd),
      ?_, 1, ?_, ?_, ?_, ?_, ?_⟩,
     ⟨withFw (live) fun x => { x with slot := vput x.slot 1 (some { op := 0x20, tag := 9, len := 7, deadline := 0, payload := [0x09, 0x00, 0x00, 0x02, 0x01, 0x00, 0x00], takenAt := 0, seq := 3, started := none, sending := none }), session := some 0x301 },
      12, 1,
      ({ op := 0x20, tag := 9, len := 7, deadline := 0, payload := [0x09, 0x00, 0x00, 0x02, 0x01, 0x00, 0x00], takenAt := 0, seq := 3, started := none, sending := none } : FwCmd),
      ?_, 9, ?_, ?_, ?_, ?_, ?_, ?_, ?_, ?_⟩,
     ⟨withFw ({ live with crp := { live.crp with bhold := 0x3FF } }) fun x => { x with slot := vput x.slot 1 (some { op := 0x20, tag := 9, len := 7, deadline := 0, payload := [0x09, 0x00, 0x00, 0x02, 0x01, 0x00, 0x01], takenAt := 0, seq := 3, started := none, sending := none }), session := some 0x301, image := vput x.image 2 { state := 2 } },
      12, 1,
      ({ op := 0x20, tag := 9, len := 7, deadline := 0, payload := [0x09, 0x00, 0x00, 0x02, 0x01, 0x00, 0x01], takenAt := 0, seq := 3, started := none, sending := none } : FwCmd),
      ?_, 9, ?_, ?_, ?_, ?_, ?_, ?_, ?_, ?_, ?_, ?_, ?_, ?_⟩,
     ⟨withFw ({ live with crp := { live.crp with bhold := 0x3FF } }) fun x => { x with slot := vput x.slot 1 (some { op := 0x20, tag := 9, len := 7, deadline := 0, payload := [0x09, 0x00, 0x00, 0x02, 0x01, 0x00, 0x01], takenAt := 0, seq := 3, started := none, sending := none }), session := some 0x301 },
      12, 1,
      ({ op := 0x20, tag := 9, len := 7, deadline := 0, payload := [0x09, 0x00, 0x00, 0x02, 0x01, 0x00, 0x01], takenAt := 0, seq := 3, started := none, sending := none } : FwCmd),
      ?_, 9, ?_, ?_, ?_, ?_, ?_⟩,
     ⟨withFw (live) fun x => { x with slot := vput x.slot 1 (some { op := 0x70, tag := 9, len := 6, deadline := 0, payload := [0x02, 0x00, 0x00, 0x01, 0x01, 0x00], takenAt := 0, seq := 3, started := none, sending := none }), session := some 0x301 },
      12, 1,
      ({ op := 0x70, tag := 9, len := 6, deadline := 0, payload := [0x02, 0x00, 0x00, 0x01, 0x01, 0x00], takenAt := 0, seq := 3, started := none, sending := none } : FwCmd),
      ?_, 2, ?_, ?_, ?_, ?_, ?_, ?_⟩,
     ⟨withFw (({ live with basins := vmod live.basins 2 fun x => { x with testing := true } } : State)) fun x => { x with slot := vput x.slot 1 (some { op := 0x70, tag := 9, len := 6, deadline := 0, payload := [0x02, 0x00, 0x00, 0x01, 0x01, 0x00], takenAt := 0, seq := 3, started := none, sending := none }), session := some 0x301 },
      12, 1,
      ({ op := 0x70, tag := 9, len := 6, deadline := 0, payload := [0x02, 0x00, 0x00, 0x01, 0x01, 0x00], takenAt := 0, seq := 3, started := none, sending := none } : FwCmd),
      ?_, 2, ?_, ?_, ?_, ?_, ?_, ?_⟩,
     ⟨withFw (live) fun x => { x with slot := vput x.slot 1 (some { op := 0x70, tag := 9, len := 6, deadline := 0, payload := [0x09, 0x00, 0x00, 0x02, 0x01, 0x00], takenAt := 0, seq := 3, started := none, sending := none }), session := some 0x301 },
      12, 1,
      ({ op := 0x70, tag := 9, len := 6, deadline := 0, payload := [0x09, 0x00, 0x00, 0x02, 0x01, 0x00], takenAt := 0, seq := 3, started := none, sending := none } : FwCmd),
      ?_, 9, ?_, ?_, ?_, ?_, ?_, ?_⟩,
     ⟨withFw (live) fun x => { x with slot := vput x.slot 1 (some { op := 0x70, tag := 9, len := 6, deadline := 0, payload := [0x09, 0x00, 0x00, 0x03, 0x01, 0x00], takenAt := 0, seq := 3, started := none, sending := none }), session := some 0x301 },
      12, 1,
      ({ op := 0x70, tag := 9, len := 6, deadline := 0, payload := [0x09, 0x00, 0x00, 0x03, 0x01, 0x00], takenAt := 0, seq := 3, started := none, sending := none } : FwCmd),
      ?_, 1, ?_, ?_, ?_, ?_, ?_, ?_⟩,
     ⟨withFw (withWeir live fun w => { w with ch := vmod w.ch 9 fun c => { c with chres := 0x1000000, dst := 1 } }) fun x => { x with slot := vput x.slot 1 (some { op := 0x70, tag := 9, len := 6, deadline := 0, payload := [0x09, 0x00, 0x00, 0x03, 0x01, 0x00], takenAt := 0, seq := 3, started := none, sending := none }), session := some 0x301 },
      12, 1,
      ({ op := 0x70, tag := 9, len := 6, deadline := 0, payload := [0x09, 0x00, 0x00, 0x03, 0x01, 0x00], takenAt := 0, seq := 3, started := none, sending := none } : FwCmd),
      ?_, 1, ?_, ?_, ?_, ?_, ?_, ?_⟩⟩ <;>
    first | decide +kernel | (unfold Available; decide +kernel) | (unfold CommandRuns; decide +kernel)

set_option Elab.async false in
theorem witness_TasksReachTheKeeper :
    (∃ (s : State) (dt : Nat) (k : Fin 4) (c : FwCmd),
     Available s ∧
     s.kp.powered = true ∧
     let u := s.elapse dt
     let turn := inOrder u 5 = true
     ∃ (n : BasinIx) (t : Fin 256),
     basinOfId (c.arg 4 4) = some n ∧
     c.arg 0 2 = t.val ∧
     c.arg 8 2 = (s.fw.epBasin.get n).toNat ∧
     s.fw.taskFrom.get t = some n ∧
     s.fw.taskUsable.get t = true ∧
     s.fw.taskStale.get t = false ∧
     loading u k n = false ∧
     CommandRuns u k c 0x30 ∧
     basinDown s n = false ∧
     awake s n = true ∧
     halted s (s.kp.tasks.get t).barge = false ∧
     ((s.kp.tasks.get t).stbyen = true → halted s (s.kp.tasks.get t).stby = false) ∧
     turn ∧
     commandResult u 3 (BitVec.ofNat 8 t.val) = 0 ∧
     ∃ (d : List Nat),
     0 ∉ d) ∧
    (∃ (s : State) (dt : Nat) (k : Fin 4) (c : FwCmd),
     Available s ∧
     s.kp.powered = true ∧
     let u := s.elapse dt
     let turn := inOrder u 5 = true
     ∃ (n : BasinIx) (t : Fin 256),
     basinOfId (c.arg 4 4) = some n ∧
     c.arg 0 2 = t.val ∧
     c.arg 8 2 = (s.fw.epBasin.get n).toNat ∧
     s.fw.taskFrom.get t = some n ∧
     s.fw.taskUsable.get t = true ∧
     s.fw.taskStale.get t = false ∧
     loading u k n = false ∧
     CommandRuns u k c 0x30 ∧
     basinDown s n = false ∧
     awake s n = true ∧
     halted s (s.kp.tasks.get t).barge = false ∧
     ((s.kp.tasks.get t).stbyen = true → halted s (s.kp.tasks.get t).stby = false) ∧
     turn ∧
     commandResult u 3 (BitVec.ofNat 8 t.val) ≠ 0 ∧
     ∃ (d : List Nat),
     0 ∉ d) ∧
    (∃ (s : State) (dt : Nat) (k : Fin 4) (c : FwCmd),
     Available s ∧
     s.kp.powered = true ∧
     let u := s.elapse dt
     let turn := inOrder u 5 = true
     ∃ (n : BasinIx) (t : Fin 256),
     basinOfId (c.arg 4 4) = some n ∧
     c.arg 0 2 = t.val ∧
     c.arg 8 2 = (s.fw.epBasin.get n).toNat ∧
     s.fw.taskFrom.get t = some n ∧
     s.fw.taskUsable.get t = true ∧
     s.fw.taskStale.get t = false ∧
     loading u k n = false ∧
     CommandRuns u k c 0x30 ∧
     basinDown s n = false ∧
     awake s n = true ∧
     halted s (s.kp.tasks.get t).barge = false ∧
     ((s.kp.tasks.get t).stbyen = true → halted s (s.kp.tasks.get t).stby = false) ∧
     turn ∧
     ∃ (d : List Nat),
     0 ∈ d) ∧
    (∃ (s : State) (dt : Nat) (k : Fin 4) (c : FwCmd),
     Available s ∧
     s.kp.powered = true ∧
     let u := s.elapse dt
     let turn := inOrder u 5 = true
     ∃ (n : BasinIx) (t : Fin 256),
     basinOfId (c.arg 4 4) = some n ∧
     c.arg 0 2 = t.val ∧
     c.arg 8 2 = (s.fw.epBasin.get n).toNat ∧
     s.fw.taskFrom.get t = some n ∧
     s.fw.taskUsable.get t = true ∧
     s.fw.taskStale.get t = false ∧
     loading u k n = false ∧
     CommandRuns u k c 0x30 ∧
     basinDown s n = false ∧
     awake s n = true ∧
     halted s (s.kp.tasks.get t).barge = false ∧
     ((s.kp.tasks.get t).stbyen = true → halted s (s.kp.tasks.get t).stby = false) ∧
     ¬ turn) ∧
    (∃ (s : State) (dt : Nat) (k : Fin 4) (c : FwCmd),
     Available s ∧
     s.kp.powered = true ∧
     let u := s.elapse dt
     let turn := inOrder u 5 = true
     ∃ (n : BasinIx) (t : Fin 256),
     basinOfId (c.arg 4 4) = some n ∧
     c.arg 0 2 = t.val ∧
     c.arg 8 2 = (s.fw.epBasin.get n).toNat ∧
     s.fw.taskFrom.get t = some n ∧
     s.fw.taskUsable.get t = true ∧
     s.fw.taskStale.get t = false ∧
     loading u k n = false ∧
     CommandRuns u k c 0x31 ∧
     turn ∧
     commandResult u 4 (BitVec.ofNat 8 t.val) = 0) ∧
    (∃ (s : State) (dt : Nat) (k : Fin 4) (c : FwCmd),
     Available s ∧
     s.kp.powered = true ∧
     let u := s.elapse dt
     let turn := inOrder u 5 = true
     ∃ (n : BasinIx) (t : Fin 256),
     basinOfId (c.arg 4 4) = some n ∧
     c.arg 0 2 = t.val ∧
     c.arg 8 2 = (s.fw.epBasin.get n).toNat ∧
     s.fw.taskFrom.get t = some n ∧
     s.fw.taskUsable.get t = true ∧
     s.fw.taskStale.get t = false ∧
     loading u k n = false ∧
     CommandRuns u k c 0x31 ∧
     turn) ∧
    (∃ (s : State) (dt : Nat) (k : Fin 4) (c : FwCmd),
     Available s ∧
     s.kp.powered = true ∧
     let u := s.elapse dt
     let turn := inOrder u 5 = true
     ∃ (n : BasinIx) (t : Fin 256),
     basinOfId (c.arg 4 4) = some n ∧
     c.arg 0 2 = t.val ∧
     c.arg 8 2 = (s.fw.epBasin.get n).toNat ∧
     s.fw.taskFrom.get t = some n ∧
     s.fw.taskUsable.get t = true ∧
     s.fw.taskStale.get t = false ∧
     loading u k n = false ∧
     CommandRuns u k c 0x31 ∧
     ¬ turn) ∧
    (∃ (s : State) (dt : Nat) (k : Fin 4) (c : FwCmd),
     Available s ∧
     s.kp.powered = true ∧
     let u := s.elapse dt
     ∃ (n : BasinIx) (t : Fin 256),
     basinOfId (c.arg 4 4) = some n ∧
     c.arg 0 2 = t.val ∧
     c.arg 8 2 = (s.fw.epBasin.get n).toNat ∧
     (s.fw.taskFrom.get t ≠ some n ∨ s.fw.taskUsable.get t = false) ∧
     CommandRuns u k c 0x30) ∧
    (∃ (s : State) (dt : Nat) (k : Fin 4) (c : FwCmd),
     Available s ∧
     s.kp.powered = true ∧
     let u := s.elapse dt
     ∃ (n : BasinIx) (t : Fin 256),
     basinOfId (c.arg 4 4) = some n ∧
     c.arg 0 2 = t.val ∧
     c.arg 8 2 = (s.fw.epBasin.get n).toNat ∧
     (s.fw.taskFrom.get t ≠ some n ∨ s.fw.taskUsable.get t = false) ∧
     CommandRuns u k c 0x31) ∧
    (∃ (s : State) (dt : Nat) (k : Fin 4) (c : FwCmd),
     Available s ∧
     s.kp.powered = true ∧
     let u := s.elapse dt
     CommandRuns u k c 0x38 ∧
     c.arg 0 1 ∉ [1, 2, 5, 6, 7, 8, 9, 16, 17]) ∧
    (∃ (s : State) (dt : Nat) (k : Fin 4) (c : FwCmd),
     Available s ∧
     s.kp.powered = true ∧
     let u := s.elapse dt
     ∃ n,
     CommandRuns u k c 0x38 ∧
     keeperBasin c = some n ∧
     loading u k n = true) ∧
    (∃ (s : State) (dt : Nat) (k : Fin 4) (c : FwCmd),
     Available s ∧
     s.kp.powered = true ∧
     let u := s.elapse dt
     let turn := inOrder u 5 = true
     CommandRuns u k c 0x38 ∧
     (∀ n, keeperBasin c = some n → loading u k n = false) ∧
     turn ∧
     ∃ op ∈ [1, 2, 5, 6, 7, 8, 9],
     c.arg 0 1 = op) ∧
    (∃ (s : State) (dt : Nat) (k : Fin 4) (c : FwCmd),
     Available s ∧
     s.kp.powered = true ∧
     let u := s.elapse dt
     let turn := inOrder u 5 = true
     CommandRuns u k c 0x38 ∧
     (∀ n, keeperBasin c = some n → loading u k n = false) ∧
     turn ∧
     c.arg 0 1 = 16 ∧
     (s.kp.mode = .starting ∨ s.kp.mode = .armed)) ∧
    (∃ (s : State) (dt : Nat) (k : Fin 4) (c : FwCmd),
     Available s ∧
     s.kp.powered = true ∧
     let u := s.elapse dt
     let turn := inOrder u 5 = true
     CommandRuns u k c 0x38 ∧
     (∀ n, keeperBasin c = some n → loading u k n = false) ∧
     turn ∧
     c.arg 0 1 = 17 ∧
     s.kp.mode = .starting) ∧
    (∃ (s : State) (dt : Nat) (k : Fin 4) (c : FwCmd),
     Available s ∧
     s.kp.powered = true ∧
     let u := s.elapse dt
     let turn := inOrder u 5 = true
     CommandRuns u k c 0x38 ∧
     (∀ n, keeperBasin c = some n → loading u k n = false) ∧
     turn ∧
     ∃ op ∈ [1, 2, 5, 6, 7, 8, 9, 16, 17],
     c.arg 0 1 = op) ∧
    (∃ (s : State) (dt : Nat) (k : Fin 4) (c : FwCmd),
     Available s ∧
     s.kp.powered = true ∧
     let u := s.elapse dt
     let turn := inOrder u 5 = true
     CommandRuns u k c 0x38 ∧
     (∀ n, keeperBasin c = some n → loading u k n = false) ∧
     ¬ turn ∧
     c.arg 0 1 ∈ [1, 2, 5, 6, 7, 8, 9, 16, 17]) := by
  refine
    ⟨⟨withFw ((liveT .running 1234567 fun t => { t with tstate := 0 })) fun x => { x with slot := vput x.slot 1 (some { op := 0x30, tag := 9, len := 10, deadline := 0, payload := [0x05, 0x00, 0x00, 0x00, 0x01, 0x00, 0x00, 0x01, 0x01, 0x00], takenAt := 0, seq := 3, started := none, sending := none }), session := some 0x301, taskFrom := vput x.taskFrom 5 (some 1), taskUsable := vput x.taskUsable 5 true },
      12, 1,
      ({ op := 0x30, tag := 9, len := 10, deadline := 0, payload := [0x05, 0x00, 0x00, 0x00, 0x01, 0x00, 0x00, 0x01, 0x01, 0x00], takenAt := 0, seq := 3, started := none, sending := none } : FwCmd),
      ?_, ?_, 1, 5, ?_, ?_, ?_, ?_, ?_, ?_, ?_, ?_, ?_, ?_, ?_, ?_, ?_, ?_, [], ?_⟩,
     ⟨withFw ((liveT .running 1234567 id)) fun x => { x with slot := vput x.slot 1 (some { op := 0x30, tag := 9, len := 10, deadline := 0, payload := [0x05, 0x00, 0x00, 0x00, 0x01, 0x00, 0x00, 0x01, 0x01, 0x00], takenAt := 0, seq := 3, started := none, sending := none }), session := some 0x301, taskFrom := vput x.taskFrom 5 (some 1), taskUsable := vput x.taskUsable 5 true },
      12, 1,
      ({ op := 0x30, tag := 9, len := 10, deadline := 0, payload := [0x05, 0x00, 0x00, 0x00, 0x01, 0x00, 0x00, 0x01, 0x01, 0x00], takenAt := 0, seq := 3, started := none, sending := none } : FwCmd),
      ?_, ?_, 1, 5, ?_, ?_, ?_, ?_, ?_, ?_, ?_, ?_, ?_, ?_, ?_, ?_, ?_, ?_, [], ?_⟩,
     ⟨withFw ((liveT .running 1234567 fun t => { t with tstate := 0 })) fun x => { x with slot := vput x.slot 1 (some { op := 0x30, tag := 9, len := 10, deadline := 0, payload := [0x05, 0x00, 0x00, 0x00, 0x01, 0x00, 0x00, 0x01, 0x01, 0x00], takenAt := 0, seq := 3, started := none, sending := none }), session := some 0x301, taskFrom := vput x.taskFrom 5 (some 1), taskUsable := vput x.taskUsable 5 true },
      12, 1,
      ({ op := 0x30, tag := 9, len := 10, deadline := 0, payload := [0x05, 0x00, 0x00, 0x00, 0x01, 0x00, 0x00, 0x01, 0x01, 0x00], takenAt := 0, seq := 3, started := none, sending := none } : FwCmd),
      ?_, ?_, 1, 5, ?_, ?_, ?_, ?_, ?_, ?_, ?_, ?_, ?_, ?_, ?_, ?_, ?_, [0], ?_⟩,
     ⟨withFw ((liveT .running 2400000 fun t => { t with last := 1 })) fun x => { x with slot := vput x.slot 1 (some { op := 0x30, tag := 9, len := 10, deadline := 0, payload := [0x05, 0x00, 0x00, 0x00, 0x01, 0x00, 0x00, 0x01, 0x01, 0x00], takenAt := 0, seq := 3, started := none, sending := none }), session := some 0x301, taskFrom := vput x.taskFrom 5 (some 1), taskUsable := vput x.taskUsable 5 true },
      12, 1,
      ({ op := 0x30, tag := 9, len := 10, deadline := 0, payload := [0x05, 0x00, 0x00, 0x00, 0x01, 0x00, 0x00, 0x01, 0x01, 0x00], takenAt := 0, seq := 3, started := none, sending := none } : FwCmd),
      ?_, ?_, 1, 5, ?_, ?_, ?_, ?_, ?_, ?_, ?_, ?_, ?_, ?_, ?_, ?_, ?_⟩,
     ⟨withFw ((liveT .running 1234567 id)) fun x => { x with slot := vput x.slot 1 (some { op := 0x31, tag := 9, len := 10, deadline := 0, payload := [0x05, 0x00, 0x00, 0x00, 0x01, 0x00, 0x00, 0x01, 0x01, 0x00], takenAt := 0, seq := 3, started := none, sending := none }), session := some 0x301, taskFrom := vput x.taskFrom 5 (some 1), taskUsable := vput x.taskUsable 5 true },
      12, 1,
      ({ op := 0x31, tag := 9, len := 10, deadline := 0, payload := [0x05, 0x00, 0x00, 0x00, 0x01, 0x00, 0x00, 0x01, 0x01, 0x00], takenAt := 0, seq := 3, started := none, sending := none } : FwCmd),
      ?_, ?_, 1, 5, ?_, ?_, ?_, ?_, ?_, ?_, ?_, ?_, ?_, ?_⟩,
     ⟨withFw ((liveT .running 1234567 id)) fun x => { x with slot := vput x.slot 1 (some { op := 0x31, tag := 9, len := 10, deadline := 0, payload := [0x05, 0x00, 0x00, 0x00, 0x01, 0x00, 0x00, 0x01, 0x01, 0x00], takenAt := 0, seq := 3, started := none, sending := none }), session := some 0x301, taskFrom := vput x.taskFrom 5 (some 1), taskUsable := vput x.taskUsable 5 true },
      12, 1,
      ({ op := 0x31, tag := 9, len := 10, deadline := 0, payload := [0x05, 0x00, 0x00, 0x00, 0x01, 0x00, 0x00, 0x01, 0x01, 0x00], takenAt := 0, seq := 3, started := none, sending := none } : FwCmd),
      ?_, ?_, 1, 5, ?_, ?_, ?_, ?_, ?_, ?_, ?_, ?_, ?_⟩,
     ⟨withFw ((liveT .running 2400000 fun t => { t with last := 1 })) fun x => { x with slot := vput x.slot 1 (some { op := 0x31, tag := 9, len := 10, deadline := 0, payload := [0x05, 0x00, 0x00, 0x00, 0x01, 0x00, 0x00, 0x01, 0x01, 0x00], takenAt := 0, seq := 3, started := none, sending := none }), session := some 0x301, taskFrom := vput x.taskFrom 5 (some 1), taskUsable := vput x.taskUsable 5 true },
      12, 1,
      ({ op := 0x31, tag := 9, len := 10, deadline := 0, payload := [0x05, 0x00, 0x00, 0x00, 0x01, 0x00, 0x00, 0x01, 0x01, 0x00], takenAt := 0, seq := 3, started := none, sending := none } : FwCmd),
      ?_, ?_, 1, 5, ?_, ?_, ?_, ?_, ?_, ?_, ?_, ?_, ?_⟩,
     ⟨withFw ((liveT .running 1234567 fun t => { t with tstate := 0 })) fun x => { x with slot := vput x.slot 1 (some { op := 0x30, tag := 9, len := 10, deadline := 0, payload := [0x05, 0x00, 0x00, 0x00, 0x01, 0x00, 0x00, 0x01, 0x01, 0x00], takenAt := 0, seq := 3, started := none, sending := none }), session := some 0x301 },
      12, 1,
      ({ op := 0x30, tag := 9, len := 10, deadline := 0, payload := [0x05, 0x00, 0x00, 0x00, 0x01, 0x00, 0x00, 0x01, 0x01, 0x00], takenAt := 0, seq := 3, started := none, sending := none } : FwCmd),
      ?_, ?_, 1, 5, ?_, ?_, ?_, ?_, ?_⟩,
     ⟨withFw ((liveT .running 1234567 fun t => { t with tstate := 0 })) fun x => { x with slot := vput x.slot 1 (some { op := 0x31, tag := 9, len := 10, deadline := 0, payload := [0x05, 0x00, 0x00, 0x00, 0x01, 0x00, 0x00, 0x01, 0x01, 0x00], takenAt := 0, seq := 3, started := none, sending := none }), session := some 0x301 },
      12, 1,
      ({ op := 0x31, tag := 9, len := 10, deadline := 0, payload := [0x05, 0x00, 0x00, 0x00, 0x01, 0x00, 0x00, 0x01, 0x01, 0x00], takenAt := 0, seq := 3, started := none, sending := none } : FwCmd),
      ?_, ?_, 1, 5, ?_, ?_, ?_, ?_, ?_⟩,
     ⟨withFw ((liveT .running 1234567 id)) fun x => { x with slot := vput x.slot 1 (some { op := 0x38, tag := 9, len := 8, deadline := 0, payload := [0x00, 0x03, 0x00, 0x00, 0x85, 0x3E, 0x10, 0x00], takenAt := 0, seq := 3, started := none, sending := none }), session := some 0x301 },
      12, 1,
      ({ op := 0x38, tag := 9, len := 8, deadline := 0, payload := [0x00, 0x03, 0x00, 0x00, 0x85, 0x3E, 0x10, 0x00], takenAt := 0, seq := 3, started := none, sending := none } : FwCmd),
      ?_, ?_, ?_, ?_⟩,
     ⟨withFw (withFw ((liveT .running 1234567 id)) fun x => { x with slot := vput x.slot 1 (some { op := 0x38, tag := 9, len := 8, deadline := 0, payload := [0x05, 0x09, 0x00, 0x00, 0x85, 0x3E, 0x10, 0x00], takenAt := 0, seq := 3, started := none, sending := none }), session := some 0x301 }) fun x => { x with slot := vput x.slot 3 (some { op := 0x10, tag := 1, len := 36, deadline := 0, payload := [0x02, 0x00, 0x00, 0x01, 0x00, 0x00, 0x00, 0x00, 0x00, 0x00, 0x00, 0x00, 0x00, 0x00, 0x00, 0x00, 0x00, 0x00, 0x00, 0x00, 0x00, 0x00, 0x00, 0x00, 0x00, 0x00, 0x00, 0x00, 0x00, 0x00, 0x00, 0x00, 0x00, 0x00, 0x00, 0x00], takenAt := 0, seq := 1, started := some [] }) },
      12, 1,
      ({ op := 0x38, tag := 9, len := 8, deadline := 0, payload := [0x05, 0x09, 0x00, 0x00, 0x85, 0x3E, 0x10, 0x00], takenAt := 0, seq := 3, started := none, sending := none } : FwCmd),
      ?_, ?_, 2, ?_, ?_, ?_⟩,
     ⟨withFw (live) fun x => { x with slot := vput x.slot 1 (some { op := 0x38, tag := 9, len := 8, deadline := 0, payload := [0x01, 0x03, 0x00, 0x00, 0x85, 0x3E, 0x10, 0x00], takenAt := 0, seq := 3, started := none, sending := none }), session := some 0x301 },
      12, 1,
      ({ op := 0x38, tag := 9, len := 8, deadline := 0, payload := [0x01, 0x03, 0x00, 0x00, 0x85, 0x3E, 0x10, 0x00], takenAt := 0, seq := 3, started := none, sending := none } : FwCmd),
      ?_, ?_, ?_, ?_, ?_, 1, ?_, ?_⟩,
     ⟨withFw ((liveT .armed 1234567 id)) fun x => { x with slot := vput x.slot 1 (some { op := 0x38, tag := 9, len := 8, deadline := 0, payload := [0x10, 0x00, 0x00, 0x00, 0x85, 0x3E, 0x10, 0x00], takenAt := 0, seq := 3, started := none, sending := none }), session := some 0x301 },
      12, 1,
      ({ op := 0x38, tag := 9, len := 8, deadline := 0, payload := [0x10, 0x00, 0x00, 0x00, 0x85, 0x3E, 0x10, 0x00], takenAt := 0, seq := 3, started := none, sending := none } : FwCmd),
      ?_, ?_, ?_, ?_, ?_, ?_, ?_⟩,
     ⟨withFw ((liveT .starting 1234567 id)) fun x => { x with slot := vput x.slot 1 (some { op := 0x38, tag := 9, len := 8, deadline := 0, payload := [0x11, 0x00, 0x00, 0x00, 0x85, 0x3E, 0x10, 0x00], takenAt := 0, seq := 3, started := none, sending := none }), session := some 0x301 },
      12, 1,
      ({ op := 0x38, tag := 9, len := 8, deadline := 0, payload := [0x11, 0x00, 0x00, 0x00, 0x85, 0x3E, 0x10, 0x00], takenAt := 0, seq := 3, started := none, sending := none } : FwCmd),
      ?_, ?_, ?_, ?_, ?_, ?_, ?_⟩,
     ⟨withFw ((liveT .running 1234567 id)) fun x => { x with slot := vput x.slot 1 (some { op := 0x38, tag := 9, len := 8, deadline := 0, payload := [0x01, 0x03, 0x00, 0x00, 0x85, 0x3E, 0x10, 0x00], takenAt := 0, seq := 3, started := none, sending := none }), session := some 0x301 },
      12, 1,
      ({ op := 0x38, tag := 9, len := 8, deadline := 0, payload := [0x01, 0x03, 0x00, 0x00, 0x85, 0x3E, 0x10, 0x00], takenAt := 0, seq := 3, started := none, sending := none } : FwCmd),
      ?_, ?_, ?_, ?_, ?_, 1, ?_, ?_⟩,
     ⟨withFw ((liveT .running 2400000 fun t => { t with last := 1 })) fun x => { x with slot := vput x.slot 1 (some { op := 0x38, tag := 9, len := 8, deadline := 0, payload := [0x01, 0x03, 0x00, 0x00, 0x85, 0x3E, 0x10, 0x00], takenAt := 0, seq := 3, started := none, sending := none }), session := some 0x301 },
      12, 1,
      ({ op := 0x38, tag := 9, len := 8, deadline := 0, payload := [0x01, 0x03, 0x00, 0x00, 0x85, 0x3E, 0x10, 0x00], takenAt := 0, seq := 3, started := none, sending := none } : FwCmd),
      ?_, ?_, ?_, ?_, ?_, ?_⟩⟩ <;>
    first | decide +kernel | (unfold Available; decide +kernel) | (unfold CommandRuns; decide +kernel)

set_option Elab.async false in
theorem witness_ImagesLoadAndRecordsAreCopied :
    (∃ (s : State) (dt : Nat) (k : Fin 4) (c : FwCmd),
     Available s ∧
     MemoriesCanonical s ∧
     let u := followZones (s.elapse dt)
     ∃ (n : BasinIx) (b f f2 key : List Byte) (bs : List Binding) (d : List Nat),
     CommandRuns u k c 0x10 ∧
     basinOfId (c.arg 0 4) = some n ∧
     let j : LoadJob := { n := n, bs := bs, given := c.arg 16 4, first := f, second := f2, key := key, differ := d }
     c.started = none ∧
     loadBindings c b = some bs ∧
     c.arg 4 2 = (s.fw.epBasin.get n).toNat ∧
     loadRefused u j = none ∧
     hostUp s = true ∧
     basinDown u n = false ∧
     loading u k n = false ∧
     awake u n = true) ∧
    (∃ (s : State) (dt : Nat) (k : Fin 4) (c : FwCmd),
     Available s ∧
     MemoriesCanonical s ∧
     let u := followZones (s.elapse dt)
     ∃ (n : BasinIx),
     CommandRuns u k c 0x10 ∧
     basinOfId (c.arg 0 4) = some n ∧
     (c.started = none ∨ (s.fw.image.get n).state = 1) ∧
     hostUp s = false) ∧
    (∃ (s : State) (dt : Nat) (k : Fin 4) (c : FwCmd),
     Available s ∧
     MemoriesCanonical s ∧
     let u := followZones (s.elapse dt)
     ∃ (n : BasinIx) (f f2 key : List Byte) (bs : List Binding) (how : HostEnd) (d : List Nat),
     CommandRuns u k c 0x10 ∧
     basinOfId (c.arg 0 4) = some n ∧
     let j : LoadJob := { n := n, bs := bs, given := c.arg 16 4, first := f, second := f2, key := key, differ := d }
     let comes : Prop := hostUp s = true ∧ (how = .timeout → s.hif.ctoDis = false)
     c.started = some bs ∧
     (s.fw.image.get n).state = 1 ∧
     comes ∧
     f.length = j.given ∧
     f2 = f ∧
     verifyPass u j = none ∧
     (∃ ch, nvpFree u = some ch) ∧
     s.wharf.cur.get 12 = 0 ∧
     banksQuiet u n = true ∧
     late c u = false ∧
     (keeperOf n bs f = [] ∨ inOrder u 5 = true)) ∧
    (∃ (s : State) (dt : Nat) (k : Fin 4) (c : FwCmd),
     Available s ∧
     MemoriesCanonical s ∧
     let u := followZones (s.elapse dt)
     ∃ (n : BasinIx) (f f2 key : List Byte) (bs : List Binding) (how : HostEnd) (d : List Nat),
     CommandRuns u k c 0x10 ∧
     basinOfId (c.arg 0 4) = some n ∧
     let j : LoadJob := { n := n, bs := bs, given := c.arg 16 4, first := f, second := f2, key := key, differ := d }
     let comes : Prop := hostUp s = true ∧ (how = .timeout → s.hif.ctoDis = false)
     c.started = some bs ∧
     (s.fw.image.get n).state = 1 ∧
     comes ∧
     f.length = j.given ∧
     verifyPass u j = none ∧
     (∃ ch, nvpFree u = some ch) ∧
     s.wharf.cur.get 12 = 0 ∧
     banksQuiet u n = true ∧
     late c u = true) ∧
    (∃ (s : State) (dt : Nat) (k : Fin 4) (c : FwCmd),
     Available s ∧
     MemoriesCanonical s ∧
     let u := followZones (s.elapse dt)
     ∃ (n : BasinIx) (f f2 key : List Byte) (bs : List Binding) (writes : Option Nat) (how : HostEnd) (d : List Nat),
     CommandRuns u k c 0x10 ∧
     basinOfId (c.arg 0 4) = some n ∧
     let j : LoadJob := { n := n, bs := bs, given := c.arg 16 4, first := f, second := f2, key := key, differ := d }
     let comes : Prop := hostUp s = true ∧ (how = .timeout → s.hif.ctoDis = false)
     c.started = some bs ∧
     (s.fw.image.get n).state = 1 ∧
     comes ∧
     f.length = j.given ∧
     headerFault f j.given = none ∧
     imageVerifies u key f = false ∧
     (how = .ok ∨ writes ≠ none)) ∧
    (∃ (s : State) (dt : Nat) (k : Fin 4) (c : FwCmd),
     Available s ∧
     MemoriesCanonical s ∧
     let u := followZones (s.elapse dt)
     ∃ (n : BasinIx) (bs : List Binding) (how : HostEnd),
     CommandRuns u k c 0x10 ∧
     basinOfId (c.arg 0 4) = some n ∧
     let comes : Prop := hostUp s = true ∧ (how = .timeout → s.hif.ctoDis = false)
     c.started = some bs ∧
     (s.fw.image.get n).state = 1 ∧
     comes ∧
     how ≠ .ok) ∧
    (∃ (s : State) (dt : Nat) (k : Fin 4) (c : FwCmd),
     Available s ∧
     MemoriesCanonical s ∧
     let u := followZones (s.elapse dt)
     ∃ (n : BasinIx) (bs : List Binding),
     CommandRuns u k c 0x10 ∧
     basinOfId (c.arg 0 4) = some n ∧
     c.started = some bs ∧
     (s.fw.image.get n).state ≠ 1) ∧
    (∃ (s : State) (dt : Nat) (k : Fin 4) (c : FwCmd),
     Available s ∧
     MemoriesCanonical s ∧
     let u := followZones (s.elapse dt)
     ∃ (n : BasinIx),
     CommandRuns u k c 0x11 ∧
     basinOfId (c.arg 0 4) = some n ∧
     c.arg 4 2 = (s.fw.epBasin.get n).toNat ∧
     loading u k n = false) ∧
    (∃ (s : State) (dt : Nat) (k : Fin 4) (c : FwCmd),
     Available s ∧
     MemoriesCanonical s ∧
     let u := followZones (s.elapse dt)
     CommandRuns u k c 0x02 ∧
     c.sending = none ∧
     c.arg 0 8 % 8 = 0) ∧
    (∃ (s : State) (dt : Nat) (k : Fin 4) (c : FwCmd),
     Available s ∧
     MemoriesCanonical s ∧
     let u := followZones (s.elapse dt)
     CommandRuns u k c 0x02 ∧
     c.sending = none ∧
     c.arg 0 8 % 8 ≠ 0) ∧
    (∃ (s : State) (dt : Nat) (k : Fin 4) (c : FwCmd),
     Available s ∧
     MemoriesCanonical s ∧
     let u := followZones (s.elapse dt)
     ∃ (hi : Nat) (base : Option Nat),
     CommandRuns u k c 0x60 ∧
     c.sending = none ∧
     counterBlock (c.arg 0 1) (c.arg 1 1) = some (hi, base) ∧
     c.arg 8 8 % 8 = 0 ∧
     (∀ n, loading u k n = false) ∧
     s.wharf.cur.get 12 = 0) ∧
    (∃ (s : State) (dt : Nat) (k : Fin 4) (c : FwCmd),
     Available s ∧
     MemoriesCanonical s ∧
     let u := followZones (s.elapse dt)
     CommandRuns u k c 0x60 ∧
     c.sending = none ∧
     (counterBlock (c.arg 0 1) (c.arg 1 1) = none ∨ c.arg 8 8 % 8 ≠ 0)) ∧
    (∃ (s : State) (dt : Nat) (k : Fin 4) (c : FwCmd),
     Available s ∧
     MemoriesCanonical s ∧
     let u := followZones (s.elapse dt)
     ∃ p ∈ ([(2, .info dt k), (0x60, .counters dt k)] : List (BitVec 16 × Instr)),
     CommandRuns u k c p.1 ∧
     ∃ q,
     c.sending = some q ∧
     ∃ n,
     (s.ferry.ownEnds.find? fun e => e.1 == q) = some (q, some n)) ∧
    (∃ (s : State) (dt : Nat) (k : Fin 4) (c : FwCmd),
     Available s ∧
     MemoriesCanonical s ∧
     let u := followZones (s.elapse dt)
     ∃ p ∈ ([(2, .info dt k), (0x60, .counters dt k)] : List (BitVec 16 × Instr)),
     CommandRuns u k c p.1 ∧
     ∃ q,
     c.sending = some q ∧
     (s.ferry.ownEnds.find? fun e => e.1 == q) = some (q, none)) ∧
    (∃ (s : State) (dt : Nat) (k : Fin 4) (c : FwCmd),
     Available s ∧
     MemoriesCanonical s ∧
     let u := followZones (s.elapse dt)
     ∃ p ∈ ([(2, .info dt k), (0x60, .counters dt k)] : List (BitVec 16 × Instr)),
     CommandRuns u k c p.1 ∧
     ∃ q,
     c.sending = some q ∧
     (s.ferry.ownEnds.find? fun e => e.1 == q) = none) := by
  refine
    ⟨⟨withFw (({ live with crp := { live.crp with bhold := 0xFFFFFFFFFFFF } } : State)) fun x => { x with slot := vput x.slot 1 (some { op := 0x10, tag := 9, len := 36, deadline := 0, payload := [0x01, 0x00, 0x00, 0x01, 0x01, 0x00, 0x00, 0x00, 0x00, 0x10, 0x00, 0x00, 0x00, 0x00, 0x00, 0x00, 0xA8, 0x00, 0x00, 0x00, 0x00, 0x00, 0x00, 0x00, 0x00, 0x80, 0x00, 0x00, 0x00, 0x00, 0x00, 0x00, 0x00, 0x00, 0x00, 0x00], takenAt := 0, seq := 3, started := none, sending := none }), session := some 0x301 },
      12, 1,
      ({ op := 0x10, tag := 9, len := 36, deadline := 0, payload := [0x01, 0x00, 0x00, 0x01, 0x01, 0x00, 0x00, 0x00, 0x00, 0x10, 0x00, 0x00, 0x00, 0x00, 0x00, 0x00, 0xA8, 0x00, 0x00, 0x00, 0x00, 0x00, 0x00, 0x00, 0x00, 0x80, 0x00, 0x00, 0x00, 0x00, 0x00, 0x00, 0x00, 0x00, 0x00, 0x00], takenAt := 0, seq := 3, started := none, sending := none } : FwCmd),
      ?_, ?_, 1, [], (imageBytes 255 0 []), (imageBytes 255 0 []), [], [], [], ?_, ?_, ?_, ?_, ?_, ?_, ?_, ?_, ?_, ?_⟩,
     ⟨withFw ((withHif ({ live with crp := { live.crp with bhold := 0xFFFFFFFFFFFF } } : State) fun h => { h with bme := false })) fun x => { x with slot := vput x.slot 1 (some { op := 0x10, tag := 9, len := 36, deadline := 0, payload := [0x01, 0x00, 0x00, 0x01, 0x01, 0x00, 0x00, 0x00, 0x00, 0x10, 0x00, 0x00, 0x00, 0x00, 0x00, 0x00, 0x38, 0x01, 0x00, 0x00, 0x00, 0x00, 0x00, 0x00, 0x00, 0x80, 0x00, 0x00, 0x00, 0x00, 0x00, 0x00, 0x00, 0x00, 0x00, 0x00], takenAt := 0, seq := 3, started := none, sending := none }), session := some 0x301 },
      12, 1,
      ({ op := 0x10, tag := 9, len := 36, deadline := 0, payload := [0x01, 0x00, 0x00, 0x01, 0x01, 0x00, 0x00, 0x00, 0x00, 0x10, 0x00, 0x00, 0x00, 0x00, 0x00, 0x00, 0x38, 0x01, 0x00, 0x00, 0x00, 0x00, 0x00, 0x00, 0x00, 0x80, 0x00, 0x00, 0x00, 0x00, 0x00, 0x00, 0x00, 0x00, 0x00, 0x00], takenAt := 0, seq := 3, started := none, sending := none } : FwCmd),
      ?_, ?_, 1, ?_, ?_, ?_, ?_⟩,
     ⟨withFw (({ live with crp := { live.crp with bhold := 0xFFFFFFFFFFFF } } : State)) fun x => { x with slot := vput x.slot 1 (some { op := 0x10, tag := 9, len := 36, deadline := 0, payload := [0x01, 0x00, 0x00, 0x01, 0x01, 0x00, 0x00, 0x00, 0x00, 0x10, 0x00, 0x00, 0x00, 0x00, 0x00, 0x00, 0xA8, 0x00, 0x00, 0x00, 0x00, 0x00, 0x00, 0x00, 0x00, 0x80, 0x00, 0x00, 0x00, 0x00, 0x00, 0x00, 0x00, 0x00, 0x00, 0x00], takenAt := 0, seq := 3, started := some [], sending := none }), session := some 0x301, image := vput x.image 1 { state := 1 } },
      12, 1,
      ({ op := 0x10, tag := 9, len := 36, deadline := 0, payload := [0x01, 0x00, 0x00, 0x01, 0x01, 0x00, 0x00, 0x00, 0x00, 0x10, 0x00, 0x00, 0x00, 0x00, 0x00, 0x00, 0xA8, 0x00, 0x00, 0x00, 0x00, 0x00, 0x00, 0x00, 0x00, 0x80, 0x00, 0x00, 0x00, 0x00, 0x00, 0x00, 0x00, 0x00, 0x00, 0x00], takenAt := 0, seq := 3, started := some [], sending := none } : FwCmd),
      ?_, ?_, 1, (imageBytes 255 0 []), (imageBytes 255 0 []), [], [], .ok, [], ?_, ?_, ?_, ?_, ?_, ?_, ?_, ?_, ?_, ?_, ?_,
      ?_, ?_⟩,
     ⟨withFw (({ ({ live with crp := { live.crp with bhold := 0xFFFFFFFFFFFF } } : State) with now := 13000 } : State)) fun x => { x with slot := vput x.slot 1 (some { op := 0x10, tag := 9, len := 36, deadline := 1, payload := [0x01, 0x00, 0x00, 0x01, 0x01, 0x00, 0x00, 0x00, 0x00, 0x10, 0x00, 0x00, 0x00, 0x00, 0x00, 0x00, 0xA8, 0x00, 0x00, 0x00, 0x00, 0x00, 0x00, 0x00, 0x00, 0x80, 0x00, 0x00, 0x00, 0x00, 0x00, 0x00, 0x00, 0x00, 0x00, 0x00], takenAt := 0, seq := 3, started := some [], sending := none }), session := some 0x301, image := vput x.image 1 { state := 1 } },
      12, 1,
      ({ op := 0x10, tag := 9, len := 36, deadline := 1, payload := [0x01, 0x00, 0x00, 0x01, 0x01, 0x00, 0x00, 0x00, 0x00, 0x10, 0x00, 0x00, 0x00, 0x00, 0x00, 0x00, 0xA8, 0x00, 0x00, 0x00, 0x00, 0x00, 0x00, 0x00, 0x00, 0x80, 0x00, 0x00, 0x00, 0x00, 0x00, 0x00, 0x00, 0x00, 0x00, 0x00], takenAt := 0, seq := 3, started := some [], sending := none } : FwCmd),
      ?_, ?_, 1, (imageBytes 255 0 []), (imageBytes 255 0 []), [], [], .ok, [], ?_, ?_, ?_, ?_, ?_, ?_, ?_, ?_, ?_, ?_, ?_⟩,
     ⟨withFw (({ live with crp := { live.crp with bhold := 0xFFFFFFFFFFFF } } : State)) fun x => { x with slot := vput x.slot 1 (some { op := 0x10, tag := 9, len := 36, deadline := 0, payload := [0x01, 0x00, 0x00, 0x01, 0x01, 0x00, 0x00, 0x00, 0x00, 0x10, 0x00, 0x00, 0x00, 0x00, 0x00, 0x00, 0xA8, 0x00, 0x00, 0x00, 0x00, 0x00, 0x00, 0x00, 0x00, 0x80, 0x00, 0x00, 0x00, 0x00, 0x00, 0x00, 0x00, 0x00, 0x00, 0x00], takenAt := 0, seq := 3, started := some [], sending := none }), session := some 0x301, image := vput x.image 1 { state := 1 } },
      12, 1,
      ({ op := 0x10, tag := 9, len := 36, deadline := 0, payload := [0x01, 0x00, 0x00, 0x01, 0x01, 0x00, 0x00, 0x00, 0x00, 0x10, 0x00, 0x00, 0x00, 0x00, 0x00, 0x00, 0xA8, 0x00, 0x00, 0x00, 0x00, 0x00, 0x00, 0x00, 0x00, 0x80, 0x00, 0x00, 0x00, 0x00, 0x00, 0x00, 0x00, 0x00, 0x00, 0x00], takenAt := 0, seq := 3, started := some [], sending := none } : FwCmd),
      ?_, ?_, 1, (imageBytes 0 0 []), (imageBytes 0 0 []), [], [], none, .ok, [], ?_, ?_, ?_, ?_, ?_, ?_, ?_, ?_, ?_⟩,
     ⟨withFw (({ live with crp := { live.crp with bhold := 0xFFFFFFFFFFFF } } : State)) fun x => { x with slot := vput x.slot 1 (some { op := 0x10, tag := 9, len := 36, deadline := 0, payload := [0x01, 0x00, 0x00, 0x01, 0x01, 0x00, 0x00, 0x00, 0x00, 0x10, 0x00, 0x00, 0x00, 0x00, 0x00, 0x00, 0x38, 0x01, 0x00, 0x00, 0x00, 0x00, 0x00, 0x00, 0x00, 0x80, 0x00, 0x00, 0x00, 0x00, 0x00, 0x00, 0x00, 0x00, 0x00, 0x00], takenAt := 0, seq := 3, started := some [], sending := none }), session := some 0x301, image := vput x.image 1 { state := 1 } },
      12, 1,
      ({ op := 0x10, tag := 9, len := 36, deadline := 0, payload := [0x01, 0x00, 0x00, 0x01, 0x01, 0x00, 0x00, 0x00, 0x00, 0x10, 0x00, 0x00, 0x00, 0x00, 0x00, 0x00, 0x38, 0x01, 0x00, 0x00, 0x00, 0x00, 0x00, 0x00, 0x00, 0x80, 0x00, 0x00, 0x00, 0x00, 0x00, 0x00, 0x00, 0x00, 0x00, 0x00], takenAt := 0, seq := 3, started := some [], sending := none } : FwCmd),
      ?_, ?_, 1, [], .timeout, ?_, ?_, ?_, ?_, ?_, ?_⟩,
     ⟨withFw (({ live with crp := { live.crp with bhold := 0xFFFFFFFFFFFF } } : State)) fun x => { x with slot := vput x.slot 1 (some { op := 0x10, tag := 9, len := 36, deadline := 0, payload := [0x01, 0x00, 0x00, 0x01, 0x01, 0x00, 0x00, 0x00, 0x00, 0x10, 0x00, 0x00, 0x00, 0x00, 0x00, 0x00, 0x38, 0x01, 0x00, 0x00, 0x00, 0x00, 0x00, 0x00, 0x00, 0x80, 0x00, 0x00, 0x00, 0x00, 0x00, 0x00, 0x00, 0x00, 0x00, 0x00], takenAt := 0, seq := 3, started := some [], sending := none }), session := some 0x301, image := vput x.image 1 { state := 0 } },
      12, 1,
      ({ op := 0x10, tag := 9, len := 36, deadline := 0, payload := [0x01, 0x00, 0x00, 0x01, 0x01, 0x00, 0x00, 0x00, 0x00, 0x10, 0x00, 0x00, 0x00, 0x00, 0x00, 0x00, 0x38, 0x01, 0x00, 0x00, 0x00, 0x00, 0x00, 0x00, 0x00, 0x80, 0x00, 0x00, 0x00, 0x00, 0x00, 0x00, 0x00, 0x00, 0x00, 0x00], takenAt := 0, seq := 3, started := some [], sending := none } : FwCmd),
      ?_, ?_, 1, [], ?_, ?_, ?_, ?_⟩,
     ⟨withFw (live) fun x => { x with slot := vput x.slot 1 (some { op := 0x11, tag := 9, len := 6, deadline := 0, payload := [0x02, 0x00, 0x00, 0x01, 0x01, 0x00], takenAt := 0, seq := 3, started := none, sending := none }), session := some 0x301, image := vput x.image 2 { state := 2, build := 0x1234, secver := 5 } },
      12, 1,
      ({ op := 0x11, tag := 9, len := 6, deadline := 0, payload := [0x02, 0x00, 0x00, 0x01, 0x01, 0x00], takenAt := 0, seq := 3, started := none, sending := none } : FwCmd),
      ?_, ?_, 2, ?_, ?_, ?_, ?_⟩,
     ⟨withFw ((withHif live fun h => { h with bme := true, hostMem := [(0xFFF, 1), (0x1003, 7), (0x13FF, 9)] })) fun x => { x with slot := vput x.slot 1 (some { op := 0x2, tag := 9, len := 12, deadline := 0, payload := [0x00, 0x10, 0x00, 0x00, 0x00, 0x00, 0x00, 0x00, 0x00, 0x00, 0x00, 0x00], takenAt := 0, seq := 3, started := none, sending := none }), session := some 0x301 },
      12, 1,
      ({ op := 0x2, tag := 9, len := 12, deadline := 0, payload := [0x00, 0x10, 0x00, 0x00, 0x00, 0x00, 0x00, 0x00, 0x00, 0x00, 0x00, 0x00], takenAt := 0, seq := 3, started := none, sending := none } : FwCmd),
      ?_, ?_, ?_, ?_, ?_⟩,
     ⟨withFw ((withHif live fun h => { h with bme := true, hostMem := [(0xFFF, 1), (0x1003, 7), (0x13FF, 9)] })) fun x => { x with slot := vput x.slot 1 (some { op := 0x2, tag := 9, len := 12, deadline := 0, payload := [0x04, 0x10, 0x00, 0x00, 0x00, 0x00, 0x00, 0x00, 0x40, 0x00, 0x00, 0x00], takenAt := 0, seq := 3, started := none, sending := none }), session := some 0x301 },
      12, 1,
      ({ op := 0x2, tag := 9, len := 12, deadline := 0, payload := [0x04, 0x10, 0x00, 0x00, 0x00, 0x00, 0x00, 0x00, 0x40, 0x00, 0x00, 0x00], takenAt := 0, seq := 3, started := none, sending := none } : FwCmd),
      ?_, ?_, ?_, ?_, ?_⟩,
     ⟨withFw ((withHif live fun h => { h with bme := true, hostMem := [(0xFFF, 1), (0x1003, 7), (0x13FF, 9)] })) fun x => { x with slot := vput x.slot 1 (some { op := 0x60, tag := 9, len := 20, deadline := 0, payload := [0x00, 0x02, 0x00, 0x00, 0x00, 0x00, 0x00, 0x00, 0x00, 0x10, 0x00, 0x00, 0x00, 0x00, 0x00, 0x00, 0x00, 0x00, 0x00, 0x00], takenAt := 0, seq := 3, started := none, sending := none }), session := some 0x301 },
      12, 1,
      ({ op := 0x60, tag := 9, len := 20, deadline := 0, payload := [0x00, 0x02, 0x00, 0x00, 0x00, 0x00, 0x00, 0x00, 0x00, 0x10, 0x00, 0x00, 0x00, 0x00, 0x00, 0x00, 0x00, 0x00, 0x00, 0x00], takenAt := 0, seq := 3, started := none, sending := none } : FwCmd),
      ?_, ?_, 0x93, some 0x20000000, ?_, ?_, ?_, ?_, ?_, ?_⟩,
     ⟨withFw ((withHif live fun h => { h with bme := true, hostMem := [(0xFFF, 1), (0x1003, 7), (0x13FF, 9)] })) fun x => { x with slot := vput x.slot 1 (some { op := 0x60, tag := 9, len := 20, deadline := 0, payload := [0x09, 0x02, 0x00, 0x00, 0x00, 0x00, 0x00, 0x00, 0x00, 0x10, 0x00, 0x00, 0x00, 0x00, 0x00, 0x00, 0x10, 0x00, 0x00, 0x00], takenAt := 0, seq := 3, started := none, sending := none }), session := some 0x301 },
      12, 1,
      ({ op := 0x60, tag := 9, len := 20, deadline := 0, payload := [0x09, 0x02, 0x00, 0x00, 0x00, 0x00, 0x00, 0x00, 0x00, 0x10, 0x00, 0x00, 0x00, 0x00, 0x00, 0x00, 0x10, 0x00, 0x00, 0x00], takenAt := 0, seq := 3, started := none, sending := none } : FwCmd),
      ?_, ?_, ?_, ?_, ?_⟩,
     ⟨withFw ((withFerry (withHif live fun h => { h with bme := true, hostMem := [(0xFFF, 1), (0x1003, 7), (0x13FF, 9)] }) fun f => { f with ownBegun := 9, ownEnds := [(7, some 64), (8, none)] })) fun x => { x with slot := vput x.slot 1 (some { op := 0x2, tag := 9, len := 12, deadline := 0, payload := [0x00, 0x10, 0x00, 0x00, 0x00, 0x00, 0x00, 0x00, 0x40, 0x00, 0x00, 0x00], takenAt := 0, seq := 3, started := none, sending := some 7 }), session := some 0x301 },
      12, 1,
      ({ op := 0x2, tag := 9, len := 12, deadline := 0, payload := [0x00, 0x10, 0x00, 0x00, 0x00, 0x00, 0x00, 0x00, 0x40, 0x00, 0x00, 0x00], takenAt := 0, seq := 3, started := none, sending := some 7 } : FwCmd),
      ?_, ?_, ((2, .info 12 1) : BitVec 16 × Instr), ?_, ?_, 7, ?_, 64, ?_⟩,
     ⟨withFw ((withFerry (withHif live fun h => { h with bme := true, hostMem := [(0xFFF, 1), (0x1003, 7), (0x13FF, 9)] }) fun f => { f with ownBegun := 9, ownEnds := [(6, some 64), (7, none)] })) fun x => { x with slot := vput x.slot 1 (some { op := 0x2, tag := 9, len := 12, deadline := 0, payload := [0x00, 0x10, 0x00, 0x00, 0x00, 0x00, 0x00, 0x00, 0x40, 0x00, 0x00, 0x00], takenAt := 0, seq := 3, started := none, sending := some 7 }), session := some 0x301 },
      12, 1,
      ({ op := 0x2, tag := 9, len := 12, deadline := 0, payload := [0x00, 0x10, 0x00, 0x00, 0x00, 0x00, 0x00, 0x00, 0x40, 0x00, 0x00, 0x00], takenAt := 0, seq := 3, started := none, sending := some 7 } : FwCmd),
      ?_, ?_, ((2, .info 12 1) : BitVec 16 × Instr), ?_, ?_, 7, ?_, ?_⟩,
     ⟨withFw ((withFerry (withHif live fun h => { h with bme := true, hostMem := [(0xFFF, 1), (0x1003, 7), (0x13FF, 9)] }) fun f => { f with ownBegun := 9, ownEnds := [(6, some 64), (8, none)] })) fun x => { x with slot := vput x.slot 1 (some { op := 0x2, tag := 9, len := 12, deadline := 0, payload := [0x00, 0x10, 0x00, 0x00, 0x00, 0x00, 0x00, 0x00, 0x40, 0x00, 0x00, 0x00], takenAt := 0, seq := 3, started := none, sending := some 7 }), session := some 0x301 },
      12, 1,
      ({ op := 0x2, tag := 9, len := 12, deadline := 0, payload := [0x00, 0x10, 0x00, 0x00, 0x00, 0x00, 0x00, 0x00, 0x40, 0x00, 0x00, 0x00], takenAt := 0, seq := 3, started := none, sending := some 7 } : FwCmd),
      ?_, ?_, ((2, .info 12 1) : BitVec 16 × Instr), ?_, ?_, 7, ?_, ?_⟩⟩ <;>
    first | decide +kernel | (unfold Available; decide +kernel) | (unfold CommandRuns; decide +kernel) | (unfold MemoriesCanonical; decide +kernel)

set_option Elab.async false in
theorem witness_UnlockingAndJtagFollowTheLifecycle :
    (∃ (s : State),
     Available s) ∧
    (∃ (s : State),
     Available s ∧
     let x := s.sec
     ∃ (slot : Fin 4) (can : Bool) (key : List Byte),
     x.vbusy = some (slot, can) ∧
     let message := (List.range 32).map (fun i => fld x.chal (8 * i) 8) ++ (List.range 8).map fun i => fld x.loaded.serial (8 * i) 8
     let response := (List.finRange 24).flatMap fun i => (List.range 4).map fun j => fld (x.resp.get i) (8 * j) 8
     let stored := (x.keys.get slot).getD key
     let good := can && Config.sha384 stored == x.fuses.hash.get slot && Config.ecdsaVerify stored (Config.sha384 message) response
     good = false) ∧
    (∃ (s : State),
     Available s ∧
     let x := s.sec
     x.vbusy = none) ∧
    (∃ (s : State),
     Available s ∧
     ∃ (ir : JtagIr),
     ir ∈ ([0, 3, 4, 5, 6] : List JtagIr) ∧
     s.kp.mode = .starting) ∧
    (∃ (s : State),
     Available s ∧
     ∃ (ir : JtagIr),
     ir ∈ ([0, 3, 4, 5, 6] : List JtagIr) ∧
     s.kp.mode ≠ .starting) ∧
    (∃ (s : State),
     Available s ∧
     ∃ (ir : JtagIr),
     ir ∉ ([0, 3, 4, 5, 6] : List JtagIr)) ∧
    (∃ (s : State),
     Available s ∧
     let x := s.sec
     ∃ (dr : BitVec 72),
     x.jtagStatus ≠ 3 ∧
     x.jtagIr = 0x10 ∧
     debugAllowed s = true ∧
     s.wharf.cur.get 15 < 32 ∧
     bitsN dr 0 32 % 4 = 0 ∧
     0x10000000 ≤ bitsN dr 0 32 ∧
     bitsN dr 0 32 < 0x10400000) ∧
    (∃ (s : State),
     Available s ∧
     let x := s.sec
     x.jtagStatus ≠ 3 ∧
     x.jtagIr = 0x10 ∧
     debugAllowed s = true ∧
     32 ≤ s.wharf.cur.get 15) ∧
    (∃ (s : State),
     Available s ∧
     let x := s.sec
     ∃ (dr : BitVec 72),
     x.jtagStatus ≠ 3 ∧
     x.jtagIr = 0x11 ∧
     x.loaded.life ≠ 3 ∧
     bit dr 68 = false ∧
     bitsN dr 0 32 = 1) ∧
    (∃ (s : State),
     Available s ∧
     let x := s.sec
     ∃ (dr : BitVec 72),
     x.jtagStatus ≠ 3 ∧
     x.jtagIr = 0x11 ∧
     x.loaded.life ≠ 3 ∧
     ∃ (i : Fin 8),
     bit dr 68 = false ∧
     bitsN dr 0 32 = 0x10 + i.val) ∧
    (∃ (s : State),
     Available s ∧
     let x := s.sec
     ∃ (dr : BitVec 72),
     x.jtagStatus ≠ 3 ∧
     x.jtagIr = 0x11 ∧
     x.loaded.life ≠ 3 ∧
     ∃ (i : Fin 24),
     bit dr 68 = true ∧
     bitsN dr 0 32 = 0x20 + i.val) ∧
    (∃ (s : State),
     Available s ∧
     let x := s.sec
     ∃ (dr : BitVec 72),
     x.jtagStatus ≠ 3 ∧
     x.jtagIr = 0x11 ∧
     x.loaded.life ≠ 3 ∧
     bitsN dr 0 32 = 3) ∧
    (∃ (s : State),
     Available s ∧
     let x := s.sec
     x.jtagStatus = 3 ∧
     ((x.jtagIr = 0x10 ∧ debugAllowed s = true) ∨ (x.jtagIr = 0x11 ∧ x.loaded.life ≠ 3))) ∧
    (∃ (s : State),
     Available s ∧
     let x := s.sec
     x.jtagIr ∈ ([0, 2, 3, 4] : List JtagIr)) ∧
    (∃ (s : State),
     Available s ∧
     let x := s.sec
     x.jtagIr = 1) ∧
    (∃ (s : State),
     Available s ∧
     let x := s.sec
     ((x.jtagIr = 0x10 ∧ debugAllowed s = false) ∨ (x.jtagIr = 0x11 ∧ x.loaded.life = 3) ∨
      x.jtagIr ∉ ([0, 1, 2, 3, 4, 0x10, 0x11] : List JtagIr))) := by
  refine
    ⟨⟨withSec (live) fun x => { x with vbusy := none }, ?_⟩,
     ⟨withSec (live) fun x => { x with vbusy := some (1, false), failcnt := 0, fuses := { x.fuses with hash := vput x.fuses.hash 1 5 } },
      ?_, 1, false, [1], ?_, ?_⟩,
     ⟨withSec (live) fun x => { x with unlocked := true }, ?_, ?_⟩,
     ⟨State.reset, ?_, 0, ?_, ?_⟩,
     ⟨live, ?_, 0, ?_, ?_⟩,
     ⟨live, ?_, 1, ?_⟩,
     ⟨withSec (live) fun x => { x with jtagIr := 0x10 }, ?_, 0x101234567810101234, ?_, ?_, ?_, ?_, ?_, ?_, ?_⟩,
     ⟨withSec (({ live with wharf := { live.wharf with cur := vput live.wharf.cur 15 32 } } : State)) fun x => { x with jtagIr := 0x10 },
      ?_, ?_, ?_, ?_, ?_⟩,
     ⟨withSec (live) fun x => { x with jtagIr := 0x11, unlocked := true }, ?_, 1, ?_, ?_, ?_, ?_, ?_⟩,
     ⟨withSec (live) fun x => { x with jtagIr := 0x11, chal := 0x1234567890ABCDEF1122334455667788 }, ?_, 0x10, ?_, ?_, ?_, 0,
      ?_, ?_⟩,
     ⟨withSec (live) fun x => { x with jtagIr := 0x11, resp := vput x.resp 2 5 }, ?_, 0x1F1234567800000020, ?_, ?_, ?_, 0,
      ?_, ?_⟩,
     ⟨withSec (live) fun x => { x with jtagIr := 0x11 }, ?_, 3, ?_, ?_, ?_, ?_⟩,
     ⟨withSec (live) fun x => { x with jtagIr := 0x10, jtagStatus := 3 }, ?_, ?_, ?_⟩,
     ⟨withSec (live) fun x => { x with jtagIr := 0, bypass := true }, ?_, ?_⟩,
     ⟨withSec (live) fun x => { x with jtagIr := 1 }, ?_, ?_⟩,
     ⟨withSec (live) fun x => { x with jtagIr := 0x10, loaded := { x.loaded with life := 3 } }, ?_, ?_⟩⟩ <;>
    first | decide +kernel | (unfold Available; decide +kernel)

set_option Elab.async false in
theorem witness_CodedWordsAndFoldsAreExact :
    (∃ (x : Int) (b : Nat),
     -8388608 ≤ x ∧
     x ≤ 8388607 ∧
     b ≤ 4092) ∧
    (∃ (b : Nat),
     b ≤ 4092) ∧
    (∃ (s : BitVec 61) (r : Nat),
     s.toNat < 2 ^ 61 - 1 ∧
     r ≤ 4092) ∧
    (∃ (rs : List Nat),
     (∀ r ∈ rs, r ≤ 4092)) := by
  refine
    ⟨⟨(-8388608), 0, ?_, ?_, ?_⟩,
     ⟨0, ?_⟩,
     ⟨0, 0, ?_, ?_⟩,
     ⟨[], ?_⟩⟩ <;> decide +kernel

/-- Slot 1 programmed with the hash of the empty key, and a verification under way, RELOCK written at some time. -/
def unlockable (relock : Option Nat) : State := withSec live fun x => { x with
  vbusy := some (1, true), relockAt := relock, fuses := { x.fuses with hash := vput x.fuses.hash 1 (Config.sha384 []) } }

/-- A verification that unlocks (R408), for a key and a response that the signature scheme accepts: the scheme is uninterpreted
(log entry 4), so that what it accepts is a premise here. -/
theorem good_unlocks (relock : Option Nat)
    (h : Config.ecdsaVerify [] (Config.sha384 (List.replicate 40 0)) (List.replicate 96 0) = true) :
    let x := (unlockable relock).sec
    let message := (List.range 32).map (fun i => fld x.chal (8 * i) 8) ++ (List.range 8).map fun i => fld x.loaded.serial (8 * i) 8
    let response := (List.finRange 24).flatMap fun i => (List.range 4).map fun j => fld (x.resp.get i) (8 * j) 8
    (true && Config.sha384 [] == x.fuses.hash.get 1 && Config.ecdsaVerify [] (Config.sha384 message) response) = true := by
  have hm : (List.range 32).map (fun i => fld live.sec.chal (8 * i) 8) ++
      (List.range 8).map (fun i => fld live.sec.loaded.serial (8 * i) 8) = List.replicate 40 0 := by decide +kernel
  have hr : ((List.finRange 24).flatMap fun i => (List.range 4).map fun j => fld (live.sec.resp.get i) (8 * j) 8) =
      List.replicate 96 0 := by decide +kernel
  have hh : (unlockable relock).sec.fuses.hash.get 1 = Config.sha384 [] := rfl
  show (true && Config.sha384 [] == (unlockable relock).sec.fuses.hash.get 1 && Config.ecdsaVerify [] (Config.sha384
    ((List.range 32).map (fun i => fld live.sec.chal (8 * i) 8) ++ (List.range 8).map fun i => fld live.sec.loaded.serial (8 * i) 8))
    ((List.finRange 24).flatMap fun i => (List.range 4).map fun j => fld (live.sec.resp.get i) (8 * j) 8)) = true
  rw [hm, hr, hh, h]
  simp

/-- Without a RELOCK in its HCLK, and with one. -/
theorem witness_UnlockingAndJtagFollowTheLifecycle_good
    (h : Config.ecdsaVerify [] (Config.sha384 (List.replicate 40 0)) (List.replicate 96 0) = true) :
    ∀ relock ∈ [none, some 12], ∃ (s : State) (dt : Nat) (slot : Fin 4) (can : Bool) (key : List Byte), Available s ∧
      let x := s.sec
      x.vbusy = some (slot, can) ∧ x.relockAt = relock ∧
        let message := (List.range 32).map (fun i => fld x.chal (8 * i) 8) ++ (List.range 8).map fun i => fld x.loaded.serial (8 * i) 8
        let response := (List.finRange 24).flatMap fun i => (List.range 4).map fun j => fld (x.resp.get i) (8 * j) 8
        (can && Config.sha384 key == x.fuses.hash.get slot && Config.ecdsaVerify key (Config.sha384 message) response) = true ∧
          ∀ t, relock = some t → t / 20 = (s.now + dt) / 20 :=
  fun relock hr => ⟨unlockable relock, 12, 1, true, [], by unfold Available; exact ⟨rfl, rfl⟩, rfl, rfl, good_unlocks relock h, by
    rcases List.mem_cons.1 hr with rfl | hr
    · intro t ht; cases ht
    · rcases List.mem_singleton.1 hr with rfl
      intro t ht; cases ht; decide⟩

theorem witness_MemoriesStayCanonical : ∃ s t : State, MemoriesCanonical s ∧ step s = .next t :=
  ⟨{ live with pending := [.relock 12] }, _, by unfold MemoriesCanonical; decide +kernel, rfl⟩

/-- With a command that is no reset, and with one that is. -/
theorem witness_SafeIsLeftOnlyByReset :
    (∃ (s t : State) (c : Instr) (rest : List Instr), s.pending = c :: rest ∧ s.kp.mode = .safe ∧ step s = .next t ∧ ¬ ResetsKeeper c) ∧
      ∃ (s t : State) (c : Instr) (rest : List Instr), s.pending = c :: rest ∧ s.kp.mode = .safe ∧ step s = .next t ∧ ResetsKeeper c :=
  ⟨⟨{ withKp live (fun k => { k with mode := .safe }) with pending := [.relock 12] }, _, _, _, rfl, rfl, rfl, id⟩,
    ⟨{ withKp live (fun k => { k with mode := .safe }) with pending := [.lockstepMismatch 12 {}] }, _, _, _, rfl, rfl, rfl, trivial⟩⟩

theorem witness_SafeKeepsOutputsClosed : ∃ s t : State, s.kp.mode = .safe ∧ SafeHolds s ∧ step s = .next t :=
  ⟨{ withKp live (fun k => { k with mode := .safe }) with pending := [.relock 12] }, _, rfl, by unfold SafeHolds; decide +kernel, rfl⟩

theorem witness_QueuesKeepTheirSizes : ∃ s t : State, QueuesBounded s ∧ step s = .next t :=
  ⟨{ live with pending := [.relock 12] }, _, by
    refine ⟨by decide +kernel, by decide +kernel, by decide +kernel, by decide +kernel, ?_⟩
    have h : ∀ r : Fin 64, (live.kp.groups.get r).owner = none := by decide +kernel
    intro r o ho
    exact absurd ho (by simp [h r]), rfl⟩

end Sys2Proof.Tests
end

section
/-! The nonet order of a memory (O20). -/

namespace Sys2Proof.Machine

/-! ### The nonet order of a memory (R2) -/

theorem mem_nonetsOf {w : Nat × Nonet} {n : Nat} : ∀ {a v : Nat}, w ∈ nonetsOf a v n → a ≤ w.1 ∧ w.1 < a + n := by
  induction n with
  | zero => intro a v h; simp [nonetsOf] at h
  | succ n ih =>
    intro a v h
    rcases List.mem_cons.1 h with rfl | h
    · simp
    · have := ih h
      omega

/-- Writing nonets in order leaves each address holding its nine bits of the value. -/
theorem Mem.nonet_setAll_nonetsOf (n : Nat) : ∀ (m : Mem) (a v : Nat), m.wf = true → ∀ k, k < n →
    (m.setAll (nonetsOf a v n)).nonet (a + k) = BitVec.ofNat 9 (v / 512 ^ k) := by
  induction n with
  | zero => intro m a v _ k hk; omega
  | succ n ih =>
    intro m a v h k hk
    have hset : (m.setNonet a (BitVec.ofNat 9 v)).wf = true := Mem.setNonet_wf m a _ h
    show ((m.setNonet a (BitVec.ofNat 9 v)).setAll (nonetsOf (a + 1) (v / 512) n)).nonet (a + k) = _
    cases k with
    | zero =>
      rw [Mem.nonet_setAll_other _ _ _ hset fun w hw e => by have := mem_nonetsOf hw; omega]
      simp [Mem.nonet_setNonet m a a _ h]
    | succ k =>
      rw [Nat.add_comm k 1, ← Nat.add_assoc, ih _ _ _ hset k (by omega), Nat.div_div_eq_div_mul, Nat.pow_add, Nat.pow_one]

/-- Reading n nonets that hold the value's bits in order gives the value modulo 512^n. -/
theorem Mem.read_of_nonets (m : Mem) (n : Nat) : ∀ a v, (∀ k, k < n → m.nonet (a + k) = BitVec.ofNat 9 (v / 512 ^ k)) →
    m.read a n = v % 512 ^ n := by
  induction n with
  | zero => intro a v _; simp [Mem.read, Nat.mod_one]
  | succ n ih =>
    intro a v h
    have hrest : m.read (a + 1) n = v / 512 % 512 ^ n := ih (a + 1) (v / 512) fun k hk => by
      rw [Nat.add_assoc, Nat.add_comm 1 k, h (k + 1) (by omega), Nat.div_div_eq_div_mul, Nat.pow_succ']
    have hlow := h 0 (by omega)
    simp only [Nat.add_zero, Nat.pow_zero, Nat.div_one] at hlow
    rw [Mem.read, hlow, hrest, Nat.pow_succ', Nat.mod_mul]
    rfl

/-- Settles O20, by induction on the number of nonets: a nonet read after its own write is that write, and no later one names it. -/
theorem memoryReadsWhatWasWritten : Obligations.MemoryReadsWhatWasWritten := by
  intro m a n v h
  have hnonet : ∀ k, k < n → (m.write (nonetsOf a v n)).nonet (a + k) = BitVec.ofNat 9 (v / 512 ^ k) := fun k hk => by
    rw [Mem.write_nonet, Mem.nonet_setAll_nonetsOf n m a v h k hk]
  refine ⟨Mem.write_wf m _ h, Mem.read_of_nonets _ n a v hnonet, hnonet, fun b hb => ?_⟩
  exact Mem.write_other m _ b h fun w hw e => by have := mem_nonetsOf hw; omega

end Sys2Proof.Machine
end

section
/-! What each function of the machine leaves of the memories: `f_mems` where it writes none, `f_wf` where it writes but keeps the
canonical form. -/

namespace Sys2Proof.Machine

/-- The memories of the part. -/
def State.mems (s : State) : Vector Mem 12 × Mem × Mem := (s.basins.map Basin.mem, s.rv.mem, s.hms)

@[simp] theorem State.mems_mk (now freeCtr : Nat) (barges : Vector Barge 48) (basins : Vector Basin 12) (rv : Reservoir)
    (hms : Mem) (nvp : Vector NvpChan 4) (wharf : Wharf) (kp : Keeper) (pwm : Hrpwm) (weir : Weir) (fio : Fio) (tl : Towline)
    (crp : Crp) (hif : Hif) (ferry : Ferry) (fw : Firmware) (sec : Sec) (events : List W1cEvent) (pending : List Instr) :
    State.mems ⟨now, freeCtr, barges, basins, rv, hms, nvp, wharf, kp, pwm, weir, fio, tl, crp, hif, ferry, fw, sec, events,
      pending⟩ = (basins.map Basin.mem, rv.mem, hms) := by
  simp only [State.mems]

@[simp] theorem State.mems_eta (s : State) : (s.basins.map Basin.mem, s.rv.mem, s.hms) = s.mems := rfl

@[simp] theorem State.mems_ite (c : Prop) [Decidable c] (s t : State) :
    (if c then s else t).mems = if c then s.mems else t.mems := apply_ite State.mems c s t

@[simp] theorem foldl_mems {α : Type} (f : State → α → State) (h : ∀ s a, (f s a).mems = s.mems) (l : List α) (s : State) :
    (l.foldl f s).mems = s.mems := by
  induction l generalizing s with
  | nil => rfl
  | cons a l ih => rw [List.foldl_cons, ih, h]

@[simp] theorem vmod_map_mem (v : Vector Basin 12) (n : BasinIx) (f : Basin → Basin) (h : ∀ x, (f x).mem = x.mem) :
    (vmod v n f).map Basin.mem = v.map Basin.mem := by
  apply vget_ext
  intro j
  by_cases hj : j = n
  · subst hj; simp [vget_eq, vmod, h]
  · have : n.val ≠ j.val := fun e => hj (Fin.ext e.symm)
    simp [vget_eq, vmod, this]

@[simp] theorem Basin.mem_ite (c : Prop) [Decidable c] (x y : Basin) :
    (if c then x else y).mem = if c then x.mem else y.mem := apply_ite Basin.mem c x y

/-- Every memory of the list is in its canonical form. -/
def memsWf (m : Vector Mem 12 × Mem × Mem) : Prop := (∀ n : BasinIx, (m.1.get n).wf = true) ∧ m.2.1.wf = true ∧ m.2.2.wf = true

theorem basinMem_get (v : Vector Basin 12) (n : BasinIx) : (v.map Basin.mem).get n = (v.get n).mem := by
  simp [vget_eq]

theorem memoriesCanonical_iff (s : State) : MemoriesCanonical s ↔ memsWf s.mems := by
  simp [MemoriesCanonical, memsWf, State.mems, vget_eq, -State.mems_eta]

@[simp] theorem memsWf_ite (c : Prop) [Decidable c] (a b : Vector Mem 12 × Mem × Mem) :
    memsWf (if c then a else b) = if c then memsWf a else memsWf b := apply_ite memsWf c a b

theorem foldl_wf {α : Type} (f : State → α → State) (h : ∀ s a, memsWf s.mems → memsWf (f s a).mems) (l : List α) (s : State)
    (hs : memsWf s.mems) : memsWf (l.foldl f s).mems := by
  induction l generalizing s with
  | nil => exact hs
  | cons a l ih => exact ih _ (h s a hs)

@[simp] theorem elim_mems {α : Type} (o : Option α) (s : State) (f : α → State) (h : ∀ a, (f a).mems = s.mems) :
    (o.elim s f).mems = s.mems := by
  cases o <;> simp [h]

@[simp] theorem Basin.counted_mem (x : Basin) (c off : Nat) (cur : Word) : (x.counted c off cur).mem = x.mem := by
  simp [Basin.counted]

@[simp] theorem memsWf_rv (s : State) (m : Mem) (h : memsWf s.mems) (hm : m.wf = true) :
    memsWf (s.basins.map Basin.mem, m, s.hms) := ⟨h.1, hm, h.2.2⟩

@[simp] theorem memsWf_hms (s : State) (m : Mem) (h : memsWf s.mems) (hm : m.wf = true) :
    memsWf (s.basins.map Basin.mem, s.rv.mem, m) := ⟨h.1, h.2.1, hm⟩

theorem State.modBasin_wf (s : State) (n : BasinIx) (f : Basin → Basin) (h : memsWf s.mems)
    (hf : ∀ x : Basin, x.mem.wf = true → (f x).mem.wf = true) : memsWf (s.modBasin n f).mems := by
  obtain ⟨hb, hr, hh⟩ := h
  refine ⟨fun j => ?_, hr, hh⟩
  have hj : ∀ i : BasinIx, (s.basins.get i).mem.wf = true := ((memoriesCanonical_iff s).2 ⟨hb, hr, hh⟩).1
  rw [State.mems, basinMem_get, State.modBasin_basins, vmod_get]
  split
  · exact hf _ (hj j)
  · exact hj j

@[simp] theorem Basin.writeBy_wf (x : Basin) (portB : Bool) (c : Nat) (ws : List (Nat × Nonet)) (h : x.mem.wf = true) :
    (x.writeBy portB c ws).mem.wf = true := by
  unfold Basin.writeBy
  split <;> exact Mem.write_wf _ _ h

@[simp] theorem State.modBasin_writeBy_wf (s : State) (n : BasinIx) (portB : Bool) (c : Nat) (ws : List (Nat × Nonet))
    (h : memsWf s.mems) : memsWf (s.modBasin n fun x => x.writeBy portB c ws).mems :=
  s.modBasin_wf n _ h fun x hx => x.writeBy_wf portB c ws hx

theorem healRow_wf (m : Mem) (ws : List Nat) (h : m.wf = true) : (healRow m ws).wf = true := by
  unfold healRow
  induction ws generalizing m with
  | nil => exact h
  | cons i ws ih =>
    refine ih _ ?_
    dsimp only
    split
    · exact Mem.heal_wf m i h
    · exact h

theorem mems_of_some {s t : State} (h : t.mems = s.mems) : ∀ u ∈ some t, u.mems = s.mems := by simpa using h

theorem wf_of_some {t : State} (h : memsWf t.mems) : ∀ u ∈ some t, memsWf u.mems := by simpa using h

theorem getD_mems (o : Option State) (s : State) (h : ∀ t ∈ o, t.mems = s.mems) : (o.getD s).mems = s.mems := by
  cases o with
  | none => rfl
  | some t => exact h t rfl

theorem getD_wf (o : Option State) (s : State) (hs : memsWf s.mems) (h : ∀ t ∈ o, memsWf t.mems) :
    memsWf (o.getD s).mems := by
  cases o with
  | none => exact hs
  | some t => exact h t rfl

@[simp] theorem State.mems_dite (c : Prop) [Decidable c] (s : c → State) (t : ¬c → State) :
    (if h : c then s h else t h).mems = if h : c then (s h).mems else (t h).mems := apply_dite State.mems c s t

@[simp] theorem memsWf_dite (c : Prop) [Decidable c] (a : c → Vector Mem 12 × Mem × Mem) (b : ¬c → Vector Mem 12 × Mem × Mem) :
    memsWf (if h : c then a h else b h) = if h : c then memsWf (a h) else memsWf (b h) := apply_dite memsWf c a b

theorem memsWf_map (v : Vector Basin 12) (m k : Mem) :
    memsWf (v.map Basin.mem, m, k) ↔ (∀ n : BasinIx, (v.get n).mem.wf = true) ∧ m.wf = true ∧ k.wf = true := by
  simp [memsWf, vget_eq]

theorem mems_eq_iff (s : State) (v : Vector Mem 12) (m k : Mem) :
    s.mems = (v, m, k) ↔ s.basins.map Basin.mem = v ∧ s.rv.mem = m ∧ s.hms = k := by
  simp [State.mems, -State.mems_eta]

/-! ### The functions of Machine/Ops -/

@[simp] theorem State.elapse_mems (s : State) (dt : Nat) :
    (State.elapse s dt).mems = s.mems := by
  simp [State.elapse]

@[simp] theorem gated_mems (c : State → Bool) (f : State → State) (s : State) (h : (f s).mems = s.mems) :
    (gated c f s).mems = s.mems := by
  simp [gated, h]

@[simp] theorem State.modBarge_mems (s : State) (g : BargeIx) (f : Barge → Barge) :
    (State.modBarge s g f).mems = s.mems := by
  simp [State.modBarge]

@[simp] theorem State.modBasin_mems (s : State) (n : BasinIx) (f : Basin → Basin) (h : ∀ x, (f x).mem = x.mem) :
    (s.modBasin n f).mems = s.mems := by
  simp [State.modBasin, h]

@[simp] theorem State.modBank_mems (s : State) (n : BasinIx) (b : BankIx) (f : Bank → Bank) :
    (s.modBank n b f).mems = s.mems := by
  simp [State.modBank]

@[simp] theorem State.modCode_mems (s : State) (n : BasinIx) (k : Fin 4) (f : CodeBank → CodeBank) :
    (s.modCode n k f).mems = s.mems := by
  simp [State.modCode]

@[simp] theorem State.modTask_mems (s : State) (t : Fin 256) (f : KTask → KTask) :
    (State.modTask s t f).mems = s.mems := by
  simp [State.modTask]

@[simp] theorem State.modGroup_mems (s : State) (r : Fin 64) (f : KGroup → KGroup) :
    (State.modGroup s r f).mems = s.mems := by
  simp [State.modGroup]

@[simp] theorem State.modPwm_mems (s : State) (n : Fin 192) (f : PwmChan → PwmChan) :
    (State.modPwm s n f).mems = s.mems := by
  simp [State.modPwm]

@[simp] theorem State.modTb_mems (s : State) (m : Fin 16) (f : Timebase → Timebase) :
    (State.modTb s m f).mems = s.mems := by
  simp [State.modTb]

@[simp] theorem State.modTz_mems (s : State) (z : Fin 32) (f : TripZone → TripZone) :
    (State.modTz s z f).mems = s.mems := by
  simp [State.modTz]

@[simp] theorem State.modWeir_mems (s : State) (n : Fin 384) (f : WeirChan → WeirChan) :
    (State.modWeir s n f).mems = s.mems := by
  simp [State.modWeir]

@[simp] theorem State.modWeirGroup_mems (s : State) (g : Fin 48) (f : WeirGroup → WeirGroup) :
    (State.modWeirGroup s g f).mems = s.mems := by
  simp [State.modWeirGroup]

@[simp] theorem State.modFi_mems (s : State) (n : Fin 128) (f : FieldIn → FieldIn) :
    (State.modFi s n f).mems = s.mems := by
  simp [State.modFi]

@[simp] theorem State.modFo_mems (s : State) (n : Fin 128) (f : FieldOut → FieldOut) :
    (State.modFo s n f).mems = s.mems := by
  simp [State.modFo]

@[simp] theorem State.modLink_mems (s : State) (l : Fin 16) (f : Link → Link) :
    (State.modLink s l f).mems = s.mems := by
  simp [State.modLink]

@[simp] theorem State.modBpwr_mems (s : State) (n : BasinIx) (f : Bpwr → Bpwr) :
    (State.modBpwr s n f).mems = s.mems := by
  simp [State.modBpwr]

@[simp] theorem State.free_mems (s : State) :
    (State.free s).mems = s.mems := by
  simp [State.free]

@[simp] theorem State.msix_mems (s : State) (v : Fin 64) :
    (State.msix s v).mems = s.mems := by
  simp [State.msix]

@[simp] theorem watchReady_mems (f : State → State) (s : State) : (watchReady f s).mems = (f s).mems := by
  simp [watchReady]

@[simp] theorem State.mark_mems (r : W1cReg) (i : Nat) (s : State) :
    (State.mark r i s).mems = s.mems := by
  simp [State.mark]

/-! ### The functions of Machine/Memory -/

@[simp] theorem State.pend_mems (s : State) (g : BargeIx) (n : Fin 64) :
    (State.pend s g n).mems = s.mems := by
  simp [State.pend]

@[simp] theorem State.pendBasin_mems (s : State) (n : BasinIx) (src : Fin 64) :
    (State.pendBasin s n src).mems = s.mems := by
  simp [State.pendBasin]

@[simp] theorem State.bump_mems (s : State) (kind i : Nat) :
    (State.bump s kind i).mems = s.mems := by
  simp [State.bump]

@[simp] theorem State.notify_mems (s : State) (x : FwNotice) :
    (State.notify s x).mems = s.mems := by
  simp [State.notify]

@[simp] theorem State.reportRetired_mems (s : State) (kind index : Nat) (cause : BitVec 8) (vital : Bool) :
    (State.reportRetired s kind index cause vital).mems = s.mems := by
  simp [State.reportRetired]

@[simp] theorem noteErrorIn_mems (n : BasinIx) (src : Nat) (m : Mem) (s : State) (i : Nat) :
    (noteErrorIn n src m s i).mems = s.mems := by
  simp [noteErrorIn]

@[simp] theorem noteErrorsIn_mems (n : BasinIx) (src : Nat) (m : Mem) (s : State) (words : List Nat) :
    (noteErrorsIn n src m s words).mems = s.mems := by
  simp [noteErrorsIn]

@[simp] theorem noteErrors_mems (n : BasinIx) (src : Nat) (s : State) (words : List Nat) :
    (noteErrors n src s words).mems = s.mems := by
  simp [noteErrors]

@[simp] theorem noteRvError_mems (s : State) (w : Nat) :
    (noteRvError s w).mems = s.mems := by
  simp [noteRvError]

@[simp] theorem rvWriteNonets_wf (ws : List (Nat × Nonet)) (s : State) (h : memsWf s.mems) : memsWf (rvWriteNonets ws s).mems :=
  ⟨h.1, Mem.write_wf _ _ h.2.1, h.2.2⟩

@[simp] theorem askBank_mems (s : State) (n : BasinIx) (b : BankIx) (who : Fin 6) (rivals : List Rival) :
    (askBank s n b who rivals).2.mems = s.mems := by
  simp [askBank]

@[simp] theorem askPortB_mems (s : State) (n : BasinIx) (b : BankIx) (who : PortB) :
    (askPortB s n b who).2.mems = s.mems := by
  unfold askPortB
  dsimp only
  repeat' split
  all_goals simp

/-! ### The functions of Machine/BargeOps -/

@[simp] theorem latchSig_mems (g : BargeIx) (s : State) :
    (latchSig g s).mems = s.mems := by
  simp [latchSig]

@[simp] theorem State.linkSend_mems (g : BargeIx) (m : SealMsg) (s : State) :
    (State.linkSend g m s).mems = s.mems := by
  simp [State.linkSend]

@[simp] theorem departSeal_mems (g : BargeIx) (s : State) :
    (departSeal g s).mems = s.mems := by
  unfold departSeal
  split <;> simp

@[simp] theorem requestHalt_mems (g : BargeIx) (cause : BitVec 3) (hit : BitVec 3) (s : State) :
    (requestHalt g cause hit s).mems = s.mems := by
  simp [requestHalt]

@[simp] theorem bpHit_mems (g : BargeIx) (mode : Nat) (p : BitVec 14 → Bool) (s : State) (j : Fin 8) :
    (bpHit g mode p s j).mems = s.mems := by
  unfold bpHit
  dsimp only
  repeat' split
  all_goals simp

@[simp] theorem bpHits_mems (g : BargeIx) (mode : Nat) (p : BitVec 14 → Bool) (s : State) :
    (bpHits g mode p s).mems = s.mems := by
  simp [bpHits]

@[simp] theorem traceWord_mems (g : BargeIx) (kind : Nat) (s : State) :
    (traceWord g kind s).mems = s.mems := by
  simp [traceWord]

@[simp] theorem kickWay_mems (n : BasinIx) (k : Fin 4) (s : State) (w : Fin 4) :
    (kickWay n k s w).mems = s.mems := by
  unfold kickWay
  split <;> simp

@[simp] theorem kickBank_mems (n : BasinIx) (k : Fin 4) (s : State) :
    (kickBank n k s).mems = s.mems := by
  simp [kickBank]

@[simp] theorem kickBasin_mems (n : BasinIx) (s : State) :
    (kickBasin n s).mems = s.mems := by
  simp [kickBasin]

@[simp] theorem demandLine_mems (g : BargeIx) (l : BitVec 12) (s : State) :
    (demandLine g l s).mems = s.mems := by
  simp [demandLine]

@[simp] theorem readAhead_mems (g : BargeIx) (want : CodeBank → List (BitVec 12)) (s : State) :
    (readAhead g want s).mems = s.mems := by
  simp [readAhead]

@[simp] theorem prefetch_mems (g : BargeIx) (l : BitVec 12) (s : State) :
    (prefetch g l s).mems = s.mems := by
  simp [prefetch]

@[simp] theorem cancelReads_mems (g : BargeIx) (s : State) :
    (cancelReads g s).mems = s.mems := by
  simp [cancelReads]

@[simp] theorem flush_mems (g : BargeIx) (s : State) :
    (flush g s).mems = s.mems := by
  simp [flush]

@[simp] theorem deliverLine_mems (g : BargeIx) (demand : Bool) (h : HeldLine) (s : State) :
    (deliverLine g demand h s).mems = s.mems := by
  simp [deliverLine]

@[simp] theorem State.dropTx_mems (init : Fin 16) (ids : BitVec 5 → Bool) (s : State) : (s.dropTx init ids).mems = s.mems := by
  simp [State.dropTx, Vector.map_map, Function.comp_def]

@[simp] theorem dropXlu_mems (g : BargeIx) (s : State) :
    (dropXlu g s).mems = s.mems := by
  simp [dropXlu]

@[simp] theorem resetBarge_mems (g : BargeIx) (info : Word) (s : State) :
    (resetBarge g info s).mems = s.mems := by
  simp [resetBarge]

/-! ### The functions of Machine/Entry -/

@[simp] theorem beginHandover_mems (n : BasinIx) (b : BankIx) (value : BitVec 7) (writer : Option (Fin 4)) (s : State) :
    (beginHandover n b value writer s).mems = s.mems := by
  simp [beginHandover]

@[simp] theorem runWaiting_mems (n : BasinIx) (b : BankIx) (l : List WaitingHo) (s : State) :
    (runWaiting n b l s).mems = s.mems := by
  induction l generalizing s with
  | nil => simp [runWaiting]
  | cons w rest ih =>
    unfold runWaiting
    dsimp only
    split
    · simp
    · split
      · simp [ih]
      · split <;> simp [ih]

@[simp] theorem handover_mems (n : BasinIx) (b : BankIx) (value : BitVec 7) (writer : Option (Fin 4)) (world : Bool) (s : State) :
    (handover n b value writer world s).mems = s.mems := by
  simp [handover]

@[simp] theorem completeHandover_mems (n : BasinIx) (b : BankIx) (s : State) :
    (completeHandover n b s).mems = s.mems := by
  unfold completeHandover
  split <;> simp

@[simp] theorem basinSetting_mems (g : BargeIx) (s : State) (kv : SyKey × Word) :
    (basinSetting g s kv).mems = s.mems := by
  unfold basinSetting
  split <;> simp

@[simp] theorem applySync_mems (g : BargeIx) (s : State) :
    (applySync g s).mems = s.mems := by
  simp [applySync]

@[simp] theorem reportFault_mems (g : BargeIx) (vital : Bool) (cause : BitVec 8) (pc : BitVec 14) (s : State) :
    (reportFault g vital cause pc s).mems = s.mems := by
  simp [reportFault]

@[simp] theorem escalate_mems (g : BargeIx) (code : BitVec 8) (pc : BitVec 14) (world : Bool) (orig : BitVec 8) (s : State) :
    (escalate g code pc world orig s).mems = s.mems := by
  simp [escalate]

@[simp] theorem doubleFault_mems (g : BargeIx) (e : EntryRec) (dfa : Bool) (code : BitVec 8) (addr : Word) (next : Nat) (s : State) :
    (doubleFault g e dfa code addr next s).mems = s.mems := by
  simp [doubleFault]

@[simp] theorem enter_mems (g : BargeIx) (x : EntryFor) (s : State) :
    (enter g x s).mems = s.mems := by
  simp [enter]

@[simp] theorem frameFails_mems (g : BargeIx) (e : EntryRec) (code : BitVec 8) (addr : Word) (s : State) :
    (frameFails g e code addr s).mems = s.mems := by
  simp [frameFails]

@[simp] theorem frameStep_wf (g : BargeIx) (rivals : List Rival) (s : State) (h : memsWf s.mems) :
    memsWf (frameStep g rivals s).mems := by
  unfold frameStep
  dsimp only
  repeat' split
  all_goals simp [h]

@[simp] theorem takeFault_mems (g : BargeIx) (world : Bool) (cause : BitVec 8) (faddr : Word) (pc : BitVec 14) (irun : Nat) (s : State) :
    (takeFault g world cause faddr pc irun s).mems = s.mems := by
  unfold takeFault
  dsimp only
  split <;> simp

@[simp] theorem vectorFault_mems (g : BargeIx) (e : EntryRec) (s : State) :
    (vectorFault g e s).mems = s.mems := by
  simp [vectorFault]

@[simp] theorem enterInterrupt_mems (g : BargeIx) (n : Fin 64) (s : State) :
    (enterInterrupt g n s).mems = s.mems := by
  simp [enterInterrupt]

@[simp] theorem noteReturnRead_mems (g : BargeIx) (cause : BitVec 8) (faddr : Word) (s : State) :
    (noteReturnRead g cause faddr s).mems = s.mems := by
  simp [noteReturnRead]

@[simp] theorem returnFails_mems (g : BargeIx) (r : RfeRun) (faddr : Word) (s : State) :
    (returnFails g r faddr s).mems = s.mems := by
  simp [returnFails]

@[simp] theorem rfeSync_mems (g : BargeIx) (s : State) :
    (rfeSync g s).mems = s.mems := by
  unfold rfeSync
  dsimp only
  repeat' split
  all_goals simp

@[simp] theorem rfeReturn_mems (g : BargeIx) (r : RfeRun) (a : Nat) (ws : List Word) (s : State) :
    (rfeReturn g r a ws s).mems = s.mems := by
  simp [rfeReturn]

@[simp] theorem rfeStep_mems (g : BargeIx) (rivals : List Rival) (s : State) :
    (rfeStep g rivals s).mems = s.mems := by
  unfold rfeStep
  dsimp only
  repeat' split
  all_goals simp

@[simp] theorem gateDelivery_mems (g : BargeIx) (h : GateHold) (k : State → State) (s : State) (hk : (k s).mems = s.mems) :
    (gateDelivery g h k s).mems = s.mems := by
  unfold gateDelivery
  dsimp only
  split <;> simp [hk]

@[simp] theorem gateFails_mems (g : BargeIx) (h : GateHold) (s : State) :
    (gateFails g h s).mems = s.mems := by
  simp [gateFails]

@[simp] theorem passGate_mems (g : BargeIx) (h : GateHold) (s : State) :
    (passGate g h s).mems = s.mems := by
  simp [passGate]

@[simp] theorem passGateReturn_mems (g : BargeIx) (h : GateHold) (s : State) :
    (passGateReturn g h s).mems = s.mems := by
  simp [passGateReturn]

@[simp] theorem readGate_mems (g : BargeIx) (h : GateHold) (s : State) :
    (readGate g h s).mems = s.mems := by
  simp [readGate]

/-! ### The functions of Machine/Waveform -/

@[simp] theorem pwmRecord_mems (n : Fin 192) (p : Drive × Nat) (s : State) :
    (pwmRecord n p s).mems = s.mems := by
  simp [pwmRecord]

@[simp] theorem pwmWatch_mems (n : Fin 192) (f : State → State) (s : State) : (pwmWatch n f s).mems = (f s).mems := by
  simp [pwmWatch]

@[simp] theorem pwmEvent_mems (n : Fin 192) (s : State) :
    (pwmEvent n s).mems = s.mems := by
  unfold pwmEvent
  dsimp only
  repeat' split
  all_goals simp

@[simp] theorem pwmTripOne_mems (n : Fin 192) (s : State) :
    (pwmTripOne n s).mems = s.mems := by
  simp [pwmTripOne]

@[simp] theorem tripZoneEval_mems (z : Fin 32) (s : State) :
    (tripZoneEval z s).mems = s.mems := by
  simp [tripZoneEval]

@[simp] theorem followZones_mems (s : State) :
    (followZones s).mems = s.mems := by
  simp [followZones]

@[simp] theorem watchTrips_mems (f : State → State) (s : State) (h : ∀ s, (f s).mems = s.mems) : (watchTrips f s).mems = s.mems := by
  simp [watchTrips, h]
theorem watchTrips_wf (f : State → State) (s : State) (h : ∀ s, memsWf s.mems → memsWf (f s).mems) (hs : memsWf s.mems) :
    memsWf (watchTrips f s).mems := by
  simpa [watchTrips] using h _ (by simpa using hs)

@[simp] theorem pwmTripClear_mems (n : Fin 192) (s : State) :
    (pwmTripClear n s).mems = s.mems := by
  simp [pwmTripClear]

/-! ### The functions of Machine/Weir -/

@[simp] theorem mapFresh_mems (n : Fin 384) (f : Record → Record) (s : State) :
    (mapFresh n f s).mems = s.mems := by
  simp [mapFresh]

@[simp] theorem weirRetire_mems (n : Fin 384) (cause : Nat) (s : State) :
    (weirRetire n cause s).mems = s.mems := by
  simp [weirRetire]

@[simp] theorem countSample_mems (n : Fin 384) (bad : Bool) (s : State) :
    (countSample n bad s).mems = s.mems := by
  simp [countSample]

@[simp] theorem weirSample_mems (n : Fin 384) (glitched : Bool) (ws : List Word) (ff : Bool) (s : State) :
    (weirSample n glitched ws ff s).mems = s.mems := by
  simp [weirSample]

@[simp] theorem mainSample_mems (n : Fin 384) (bits : List (Bool × Bool)) (upset : Bool) (s : State) :
    (mainSample n bits upset s).mems = s.mems := by
  simp [mainSample]

@[simp] theorem demodSample_mems (n : Fin 384) (upset : Bool) (s : State) :
    (demodSample n upset s).mems = s.mems := by
  simp [demodSample]

@[simp] theorem fastStep_mems (n : Fin 384) (bits : List Bool) (s : State) :
    (fastStep n bits s).mems = s.mems := by
  simp [fastStep]

@[simp] theorem portBWrite_wf (n : BasinIx) (ws : List (Nat × Nonet)) (s : State) (h : memsWf s.mems) :
    memsWf (portBWrite n ws s).mems :=
  State.modBasin_writeBy_wf _ _ _ _ _ h

@[simp] theorem acceptRecord_mems (n : Fin 384) (s : State) :
    (acceptRecord n s).mems = s.mems := by
  unfold acceptRecord
  dsimp only
  split <;> simp

@[simp] theorem weirEvent_mems (c : WeirChan) (b : BasinIx) (s : State) :
    (weirEvent c b s).mems = s.mems := by
  simp [weirEvent]

@[simp] theorem writeWeirRecord_wf (b : BasinIx) (r : Record) (s : State) (h : memsWf s.mems) :
    memsWf (writeWeirRecord b r s).mems := by
  simp [writeWeirRecord, h]

@[simp] theorem weirFreezeOne_mems (n : Fin 384) (s : State) :
    (weirFreezeOne n s).mems = s.mems := by
  simp [weirFreezeOne]

@[simp] theorem weirFreezeAll_mems (t : BitVec 8) (s : State) :
    (weirFreezeAll t s).mems = s.mems := by
  simp [weirFreezeAll]

@[simp] theorem writeHeader_wf (n : Fin 384) (s : State) (h : memsWf s.mems) :
    memsWf (writeHeader n s).mems := by
  unfold writeHeader
  split <;> simp [h]

@[simp] theorem weirRefuse_mems (n : Fin 384) (s : State) :
    (weirRefuse n s).mems = s.mems := by
  simp [weirRefuse]

@[simp] theorem weirSetEnable_wf (n : Fin 384) (en : Bool) (s : State) (h : memsWf s.mems) :
    memsWf (weirSetEnable n en s).mems := by
  simp [weirSetEnable, h]

@[simp] theorem eachMember_mems (g : Fin 48) (f : Fin 384 → State → State) (s : State) (h : ∀ n s, (f n s).mems = s.mems) :
    (eachMember g f s).mems = s.mems := by
  simp [eachMember, h]

@[simp] theorem weirSetGroup_mems (g : Fin 48) (en : Bool) (s : State) :
    (weirSetGroup g en s).mems = s.mems := by
  simp [weirSetGroup]

@[simp] theorem weirGroupReset_mems (g : Fin 48) (s : State) :
    (weirGroupReset g s).mems = s.mems := by
  simp [weirGroupReset]

@[simp] theorem weirClockLoss_mems (g : Fin 48) (s : State) :
    (weirClockLoss g s).mems = s.mems := by
  simp [weirClockLoss]

@[simp] theorem weirStuck_mems (n : Fin 384) (bits : List Bool) (s : State) :
    (weirStuck n bits s).mems = s.mems := by
  simp [weirStuck]

@[simp] theorem weirWriteChan_wf (n : Fin 384) (k : Nat) (v : Word) (s : State) (h : memsWf s.mems) :
    memsWf (weirWriteChan n k v s).mems := by
  simp [weirWriteChan, h]

@[simp] theorem weirWriteGroup_mems (g : Fin 48) (v : Word) (s : State) :
    (weirWriteGroup g v s).mems = s.mems := by
  simp [weirWriteGroup]

theorem weirWrite_wf (off : Nat) (v : Word) (s : State) (h : memsWf s.mems) :
    ∀ t ∈ weirWrite off v s, memsWf t.mems := by
  unfold weirWrite
  repeat' (first | extract_lets | split | refine wf_of_some ?_)
  all_goals simp +zetaDelta [h]

/-! ### The functions of Machine/Hrpwm -/

@[simp] theorem pwmRetire_mems (n : Fin 192) (cause : Nat) (s : State) :
    (pwmRetire n cause s).mems = s.mems := by
  simp [pwmRetire]

@[simp] theorem pwmRefuse_mems (n : Fin 192) (s : State) :
    (pwmRefuse n s).mems = s.mems := by
  simp [pwmRefuse]

@[simp] theorem pwmOutOfRange_mems (n : Fin 192) (s : State) :
    (pwmOutOfRange n s).mems = s.mems := by
  simp [pwmOutOfRange]

@[simp] theorem pwmStage_mems (n : Fin 192) (src : StgWriter) (v : Word) (s : State) :
    (pwmStage n src v s).mems = s.mems := by
  unfold pwmStage
  split <;> simp

@[simp] theorem pwmReleaseOne_mems (since : Nat) (n : Fin 192) (s : State) :
    (pwmReleaseOne since n s).mems = s.mems := by
  simp [pwmReleaseOne]

@[simp] theorem pwmCommitOne_mems (d : BitVec 32) (a : Bool) (since : Nat) (disagree : List (Fin 192)) (n : Fin 192) (s : State) :
    (pwmCommitOne d a since disagree n s).mems = s.mems := by
  unfold pwmCommitOne
  dsimp only
  repeat' split
  all_goals simp

@[simp] theorem pwmCommit_mems (g : BitVec 6) (d : BitVec 32) (a : Bool) (since : Nat) (disagree : List (Fin 192)) (s : State) :
    (pwmCommit g d a since disagree s).mems = s.mems := by
  simp [pwmCommit]

@[simp] theorem pwmDiscard_mems (g : BitVec 6) (gen : Option (BitVec 32 × Bool)) (s : State) :
    (pwmDiscard g gen s).mems = s.mems := by
  simp [pwmDiscard]

@[simp] theorem pwmSafe_mems (g : Option (BitVec 6)) (s : State) :
    (pwmSafe g s).mems = s.mems := by
  simp [pwmSafe]

@[simp] theorem boundaryAt_mems (m : Fin 16) (b : Nat) (s : State) :
    (boundaryAt m b s).mems = s.mems := by
  simp [boundaryAt]

@[simp] theorem atBoundary_mems (m : Fin 16) (s : State) :
    (atBoundary m s).mems = s.mems := by
  unfold atBoundary
  dsimp only
  split <;> simp

@[simp] theorem zxExpire_mems (m : Fin 16) (s : State) :
    (zxExpire m s).mems = s.mems := by
  unfold zxExpire
  dsimp only
  split <;> simp

@[simp] theorem zeroCross_mems (n : Nat) (s : State) :
    (zeroCross n s).mems = s.mems := by
  simp [zeroCross]

@[simp] theorem tbRefuse_mems (m : Fin 16) (s : State) :
    (tbRefuse m s).mems = s.mems := by
  simp [tbRefuse]

@[simp] theorem tbSetEnable_mems (m : Fin 16) (en : Bool) (s : State) :
    (tbSetEnable m en s).mems = s.mems := by
  simp [tbSetEnable]

@[simp] theorem pwmSetEnable_mems (n : Fin 192) (en : Bool) (s : State) :
    (pwmSetEnable n en s).mems = s.mems := by
  simp [pwmSetEnable]

@[simp] theorem pwmReset_mems (n : Fin 192) (s : State) :
    (pwmReset n s).mems = s.mems := by
  simp [pwmReset]

@[simp] theorem pwmCompare_mems (n : Fin 192) (driven level : Bool) (s : State) :
    (pwmCompare n driven level s).mems = s.mems := by
  simp [pwmCompare]

@[simp] theorem pwmReadback_mems (n : Fin 192) (level : Bool) (s : State) :
    (pwmReadback n level s).mems = s.mems := by
  unfold pwmReadback
  split <;> simp

@[simp] theorem pwmWriteCfg_mems (n : Fin 192) (v : Word) (s : State) :
    (pwmWriteCfg n v s).mems = s.mems := by
  simp [pwmWriteCfg]

theorem pwmWriteChan_mems (n : Fin 192) (k : Nat) (v : Word) (s : State) :
    ∀ t ∈ pwmWriteChan n k v s, t.mems = s.mems := by
  unfold pwmWriteChan
  repeat' (first | extract_lets | split | refine mems_of_some ?_)
  all_goals simp +zetaDelta

@[simp] theorem tbWrite_mems (m : Fin 16) (k : Nat) (v : Word) (s : State) :
    (tbWrite m k v s).mems = s.mems := by
  unfold tbWrite
  split <;> simp

@[simp] theorem tzStore_mems (z : Fin 32) (k : Nat) (v : Word) (s : State) :
    (tzStore z k v s).mems = s.mems := by
  unfold tzStore
  split <;> simp

@[simp] theorem tzWrite_mems (z : Fin 32) (k : Nat) (v : Word) (s : State) :
    (tzWrite z k v s).mems = s.mems := by
  simp [tzWrite]

@[simp] theorem pwmSetRes_mems (v : Bool) (s : State) :
    (pwmSetRes v s).mems = s.mems := by
  simp [pwmSetRes]

theorem pwmWrite_mems (off : Nat) (v : Word) (s : State) : ∀ t ∈ pwmWrite off v s, t.mems = s.mems := by
  unfold pwmWrite
  split
  · simp
  · split
    · simp
    · split
      · simp
      · split
        · simp
        · split
          · exact pwmWriteChan_mems _ _ _ _
          · simp

/-! ### The functions of Machine/FieldIo -/

@[simp] theorem fiEvent_mems (n : Fin 128) (s : State) :
    (fiEvent n s).mems = s.mems := by
  unfold fiEvent
  dsimp only
  repeat' split
  all_goals simp

@[simp] theorem fiPairWatch_mems (n : Fin 128) (s : State) :
    (fiPairWatch n s).mems = s.mems := by
  simp [fiPairWatch]

@[simp] theorem fiChange_mems (n : Fin 128) (f : FieldIn → FieldIn) (s : State) :
    (fiChange n f s).mems = s.mems := by
  simp [fiChange]

@[simp] theorem fiAcceptLevel_mems (n : Fin 128) (s : State) :
    (fiAcceptLevel n s).mems = s.mems := by
  simp [fiAcceptLevel]

@[simp] theorem fiRaw_mems (n : Fin 128) (pad : Bool) (s : State) :
    (fiRaw n pad s).mems = s.mems := by
  simp [fiRaw]

@[simp] theorem fiFreezeAll_mems (t : BitVec 8) (s : State) :
    (fiFreezeAll t s).mems = s.mems := by
  simp [fiFreezeAll]

@[simp] theorem fiRetire_mems (n : Fin 128) (cause : Nat) (s : State) :
    (fiRetire n cause s).mems = s.mems := by
  simp [fiRetire]

@[simp] theorem fiDiscrepancy_mems (m : Fin 64) (s : State) :
    (fiDiscrepancy m s).mems = s.mems := by
  unfold fiDiscrepancy
  dsimp only
  split <;> simp

@[simp] theorem fiReset_mems (n : Fin 128) (s : State) :
    (fiReset n s).mems = s.mems := by
  simp [fiReset]

@[simp] theorem fiRefuse_mems (n : Fin 128) (s : State) :
    (fiRefuse n s).mems = s.mems := by
  simp [fiRefuse]

@[simp] theorem fiSetEnable_mems (n : Fin 128) (en : Bool) (s : State) :
    (fiSetEnable n en s).mems = s.mems := by
  simp [fiSetEnable]

@[simp] theorem foWatch_mems (n : Fin 128) (f : State → State) (s : State) : (foWatch n f s).mems = (f s).mems := by
  simp [foWatch]

@[simp] theorem foChange_mems (n : Fin 128) (f : FieldOut → FieldOut) (s : State) :
    (foChange n f s).mems = s.mems := by
  simp [foChange]

@[simp] theorem foRetire_mems (n : Fin 128) (cause : Nat) (s : State) :
    (foRetire n cause s).mems = s.mems := by
  simp [foRetire]

@[simp] theorem foApply_mems (n : Fin 128) (x : Bool) (s : State) :
    (foApply n x s).mems = s.mems := by
  simp [foApply]

@[simp] theorem foRefuse_mems (n : Fin 128) (s : State) :
    (foRefuse n s).mems = s.mems := by
  simp [foRefuse]

@[simp] theorem foStage_mems (n : Fin 128) (src : StgWriter) (v : Word) (s : State) :
    (foStage n src v s).mems = s.mems := by
  unfold foStage
  split <;> simp

@[simp] theorem foReleaseOne_mems (n : Fin 128) (s : State) :
    (foReleaseOne n s).mems = s.mems := by
  unfold foReleaseOne
  dsimp only
  split <;> simp

@[simp] theorem foCommitOne_mems (d : BitVec 32) (a : Bool) (disagree : List (Fin 128)) (n : Fin 128) (s : State) :
    (foCommitOne d a disagree n s).mems = s.mems := by
  unfold foCommitOne
  dsimp only
  repeat' split
  all_goals simp

@[simp] theorem foCommit_mems (g : BitVec 6) (d : BitVec 32) (a : Bool) (disagree : List (Fin 128)) (s : State) :
    (foCommit g d a disagree s).mems = s.mems := by
  simp [foCommit]

@[simp] theorem foDiscard_mems (g : BitVec 6) (gen : Option (BitVec 32 × Bool)) (s : State) :
    (foDiscard g gen s).mems = s.mems := by
  simp [foDiscard]

@[simp] theorem foSafe_mems (g : Option (BitVec 6)) (s : State) :
    (foSafe g s).mems = s.mems := by
  simp [foSafe]

@[simp] theorem foReadback_mems (n : Fin 128) (level : Bool) (s : State) :
    (foReadback n level s).mems = s.mems := by
  unfold foReadback
  split <;> simp

@[simp] theorem foTestStart_mems (n : Fin 128) (s : State) :
    (foTestStart n s).mems = s.mems := by
  simp [foTestStart]

@[simp] theorem foTestEnd_mems (n : Fin 128) (level : Bool) (s : State) :
    (foTestEnd n level s).mems = s.mems := by
  unfold foTestEnd
  dsimp only
  split <;> simp

@[simp] theorem foReset_mems (n : Fin 128) (s : State) :
    (foReset n s).mems = s.mems := by
  simp [foReset]

@[simp] theorem foSetEnable_mems (n : Fin 128) (en : Bool) (s : State) :
    (foSetEnable n en s).mems = s.mems := by
  simp [foSetEnable]

theorem fiWriteChan_mems (n : Fin 128) (k : Nat) (v : Word) (s : State) :
    ∀ t ∈ fiWriteChan n k v s, t.mems = s.mems := by
  unfold fiWriteChan
  repeat' (first | extract_lets | split | refine mems_of_some ?_)
  all_goals simp +zetaDelta

@[simp] theorem foWriteChan_mems (n : Fin 128) (k : Nat) (v : Word) (s : State) :
    (foWriteChan n k v s).mems = s.mems := by
  unfold foWriteChan
  split <;> simp

theorem fioWrite_mems (off : Nat) (v : Word) (s : State) : ∀ t ∈ fioWrite off v s, t.mems = s.mems := by
  unfold fioWrite
  split
  · simp
  · split
    · exact fiWriteChan_mems _ _ _ _
    · split <;> simp

/-! ### The functions of Machine/Wharf -/

@[simp] theorem noteDecerr_mems (irq : Bool) (init : Fin 16) (t : Tx) (reason : Nat) (s : State) :
    (noteDecerr irq init t reason s).mems = s.mems := by
  simp [noteDecerr]

@[simp] theorem noteRefused_mems (irq : Bool) (s : State) :
    (noteRefused irq s).mems = s.mems := by
  simp [noteRefused]

@[simp] theorem respond_mems (r : WharfReq) (status : TxStatus) (data : List Word) (s : State) :
    (respond r status data s).mems = s.mems := by
  unfold respond
  split <;> simp

@[simp] theorem respondDecerr_mems (r : WharfReq) (reason : Nat) (s : State) :
    (respondDecerr r reason s).mems = s.mems := by
  simp [respondDecerr]

@[simp] theorem acceptTx_mems (init : Fin 16) (t : Tx) (load since : Nat) (s : State) :
    (acceptTx init t load since s).mems = s.mems := by
  unfold acceptTx
  split <;> simp

@[simp] theorem noteStall_mems (init : Fin 16) (s : State) :
    (noteStall init s).mems = s.mems := by
  simp [noteStall]

@[simp] theorem portAccept_mems (init : Fin 16) (t : Tx) (s : State) :
    (portAccept init t s).mems = s.mems := by
  unfold portAccept
  dsimp only
  repeat' split
  all_goals simp

@[simp] theorem debugPresent_mems (s : State) :
    (debugPresent s).mems = s.mems := by
  unfold debugPresent
  split <;> simp

@[simp] theorem portResponse_mems (init : Fin 16) (id : BitVec 5) (s : State) :
    (portResponse init id s).mems = s.mems := by
  unfold portResponse
  split <;> simp

@[simp] theorem noteGrant_mems (r : WharfReq) (k : Nat) (s : State) :
    (noteGrant r k s).mems = s.mems := by
  simp [noteGrant]

@[simp] theorem refuseBasin_mems (n : BasinIx) (r : WharfReq) (s : State) :
    (refuseBasin n r s).mems = s.mems := by
  simp [refuseBasin]

@[simp] theorem beatBasin_wf (n : BasinIx) (r : WharfReq) (s : State) (h : memsWf s.mems) : memsWf (beatBasin n r s).2.mems := by
  unfold beatBasin
  extract_lets _ _ _ _ _
  split
  · split <;> simp +zetaDelta [h]
  · simp +zetaDelta [h]

@[simp] theorem endBasin_mems (n : BasinIx) (r : WharfReq) (s : State) :
    (endBasin n r s).mems = s.mems := by
  simp [endBasin]

@[simp] theorem askTarget_mems (s : State) (n : BasinIx) (b : BankIx) (rivals : List Rival) :
    (askTarget s n b rivals).2.mems = s.mems := by
  unfold askTarget
  split <;> simp

@[simp] theorem tryHeld_wf (n : BasinIx) (rivals : List Rival) (s : State) (r : WharfReq) (h : memsWf s.mems) :
    memsWf (tryHeld n rivals s r).mems := by
  simp [tryHeld, h]

@[simp] theorem tryAllHeld_wf (n : BasinIx) (rivals : List Rival) (s : State) (h : memsWf s.mems) :
    memsWf (tryAllHeld n rivals s).mems :=
  foldl_wf _ (fun s r h => tryHeld_wf n rivals s r h) _ s h

@[simp] theorem grantBasin_mems (n : BasinIx) (r : WharfReq) (s : State) :
    (grantBasin n r s).mems = s.mems := by
  simp [grantBasin]

@[simp] theorem takeRvBank_mems (r : WharfReq) (s : State) :
    (takeRvBank r s).mems = s.mems := by
  simp [takeRvBank]

@[simp] theorem performRv_wf (r : WharfReq) (s : State) (h : memsWf s.mems) : memsWf (performRv r s).mems := by
  unfold performRv
  extract_lets
  repeat' split
  all_goals simp +zetaDelta [h]

@[simp] theorem performHms_wf (r : WharfReq) (s : State) (h : memsWf s.mems) : memsWf (performHms r s).mems := by
  unfold performHms
  split
  · simp [h, Mem.write_wf _ _ (show s.hms.wf = true from h.2.2)]
  · simp [h]

@[simp] theorem finishBasin_wf (n : BasinIx) (s : State) (r : WharfReq) (h : memsWf s.mems) :
    memsWf (finishBasin n s r).mems := by
  unfold finishBasin
  have step : ∀ (l : List Nat) (x : WharfReq × State), memsWf x.2.mems →
      memsWf (l.foldl (fun x _ => beatBasin n x.1 x.2) x).2.mems := by
    intro l
    induction l with
    | nil => exact fun _ hx => hx
    | cons _ l ih => exact fun x hx => ih _ (beatBasin_wf n x.1 x.2 hx)
  simpa using step (List.range (txBeats r.tx - r.beat)) (r, s) h

@[simp] theorem performMemory_wf (r : WharfReq) (s : State) (h : memsWf s.mems) :
    memsWf (performMemory r s).mems := by
  simp [performMemory, h]

@[simp] theorem portReady_mems (first : Bool) (r : WharfReq) (s : State) :
    (portReady first r s).2.mems = s.mems := by
  unfold portReady
  dsimp only
  repeat' split
  all_goals simp

@[simp] theorem takeResponse_mems (init : Fin 16) (q : Nat) (s : State) :
    (takeResponse init q s).2.mems = s.mems := by
  unfold takeResponse
  split <;> simp

@[simp] theorem holdDirect_mems (init : Fin 16) (s : State) :
    (holdDirect init s).mems = s.mems := by
  simp [holdDirect]

theorem directTx_wf (perform : WharfReq → State → State) (init : Fin 16) (t : Tx) (j : Nat) (s : State)
    (hp : ∀ r s, memsWf s.mems → memsWf (perform r s).mems) (h : memsWf s.mems) :
    memsWf (directTx perform init t j s).2.mems := by
  unfold directTx
  extract_lets
  split
  · simp [h]
  · split
    · simp +zetaDelta [h]
    · split
      · simp [h]
      · extract_lets
        split
        · rw [takeResponse_mems]
          exact hp _ _ (by simp +zetaDelta [h])
        · simp +zetaDelta [h]
@[simp] theorem notePcioError_mems (r : WharfReq) (kind : BitVec 2) (s : State) :
    (notePcioError r kind s).mems = s.mems := by
  simp [notePcioError]

@[simp] theorem grantPcio_mems (r : WharfReq) (s : State) :
    (grantPcio r s).mems = s.mems := by
  simp [grantPcio]

@[simp] theorem nvpStart_mems (c : Fin 4) (blank : Bool) (s : State) :
    (nvpStart c blank s).mems = s.mems := by
  simp [nvpStart]

@[simp] theorem reprogrammed_mems (n : BasinIx) (k : Fin 4) (l : BitVec 12) (s : State) (p : Fin 4) :
    (reprogrammed n k l s p).mems = s.mems := by
  simp [reprogrammed]

@[simp] theorem nvpEnd_mems (c : Fin 4) (verified : Bool) (s : State) :
    (nvpEnd c verified s).mems = s.mems := by
  unfold nvpEnd
  split <;> simp

theorem nvpWrite_mems (w : Nat) (v : Word) (s : State) :
    ∀ t ∈ nvpWrite w v s, t.mems = s.mems := by
  unfold nvpWrite
  repeat' (first | extract_lets | split | refine mems_of_some ?_)
  all_goals simp +zetaDelta

@[simp] theorem scrubBasin_wf (n : BasinIx) (b : BankIx) (rivals : List Rival) (s : State) (h : memsWf s.mems) :
    memsWf (scrubBasin n b rivals s).mems := by
  unfold scrubBasin
  dsimp only
  repeat' split
  all_goals simp [h]

@[simp] theorem scrubRv_wf (b : BankIx) (s : State) (h : memsWf s.mems) : memsWf (scrubRv b s).mems := by
  unfold scrubRv
  extract_lets bank k put
  have hput : ∀ f t, memsWf t.mems → memsWf (put f t).mems := fun f t ht => by simp [put, ht]
  have hrv : s.rv.mem.wf = true := h.2.1
  split
  · exact h
  · split
    · exact hput _ _ (by simp [h, healRow_wf _ _ hrv])
    · exact hput _ _ (by simp [h])

@[simp] theorem clearCounters_mems (s : State) :
    (clearCounters s).mems = s.mems := by
  simp [clearCounters]

@[simp] theorem setCounting_mems (en : Bool) (s : State) :
    (setCounting en s).mems = s.mems := by
  simp [setCounting]

theorem wharfWrite_mems (off : Nat) (v : Word) (s : State) : ∀ t ∈ wharfWrite off v s, t.mems = s.mems := by
  unfold wharfWrite
  extract_lets
  split
  · simp
  · split
    · simp
    · refine mems_of_some ?_
      repeat' split
      all_goals simp +zetaDelta

/-! ### The functions of Machine/Towline -/

@[simp] theorem tlRefuse_mems (n : Fin 16) (s : State) :
    (tlRefuse n s).mems = s.mems := by
  simp [tlRefuse]

@[simp] theorem tlEvent_mems (l : Link) (s : State) :
    (tlEvent l s).mems = s.mems := by
  unfold tlEvent
  repeat' (first | extract_lets | split)
  all_goals simp +zetaDelta

@[simp] theorem tlGiveUp_mems (n : Fin 16) (f : Link → Link) (s : State) :
    (tlGiveUp n f s).mems = s.mems := by
  simp [tlGiveUp]

@[simp] theorem tlRetire_mems (n : Fin 16) (cause : Nat) (s : State) :
    (tlRetire n cause s).mems = s.mems := by
  simp [tlRetire]

@[simp] theorem tlDown_mems (n : Fin 16) (cause : Nat) (s : State) :
    (tlDown n cause s).mems = s.mems := by
  simp [tlDown]

@[simp] theorem tlSendMaint_mems (n : Fin 16) (s : State) :
    (tlSendMaint n s).mems = s.mems := by
  simp [tlSendMaint]

@[simp] theorem tlRetry_mems (n : Fin 16) (s : State) :
    (tlRetry n s).mems = s.mems := by
  unfold tlRetry
  dsimp only
  split <;> simp

@[simp] theorem tlNegotiate_mems (n : Fin 16) (s : State) :
    (tlNegotiate n s).mems = s.mems := by
  simp [tlNegotiate]

@[simp] theorem tlAccept_mems (n : Fin 16) (half : Bool) (pay : List Word) (ret : Bool) (info echo : Word) (s : State) :
    (tlAccept n half pay ret info echo s).mems = s.mems := by
  simp [tlAccept]

@[simp] theorem tlPoison_mems (n : Fin 16) (half : Bool) (s : State) :
    (tlPoison n half s).mems = s.mems := by
  simp [tlPoison]

@[simp] theorem tlPresentOne_mems (s : State) :
    (tlPresentOne s).mems = s.mems := by
  unfold tlPresentOne
  repeat' (first | extract_lets | split)
  all_goals simp +zetaDelta

@[simp] theorem tlPresent_mems (s : State) :
    (tlPresent s).mems = s.mems := by
  simp [tlPresent]

@[simp] theorem tlMaint_mems (n : Fin 16) (h : Word) (pay : List Word) (s : State) :
    (tlMaint n h pay s).mems = s.mems := by
  simp [tlMaint]

@[simp] theorem tlResponse_mems (id : BitVec 5) (s : State) :
    (tlResponse id s).mems = s.mems := by
  unfold tlResponse
  split <;> simp

@[simp] theorem tlUse_mems (n : Fin 16) (us : List Word) (s : State) :
    (tlUse n us s).mems = s.mems := by
  simp [tlUse]

@[simp] theorem tlAcked_mems (n : Fin 16) (seq : BitVec 8) (s : State) :
    (tlAcked n seq s).mems = s.mems := by
  unfold tlAcked
  dsimp only
  split <;> simp

@[simp] theorem tlDuplicate_mems (n : Fin 16) (ty : Nat) (seq : BitVec 8) (s : State) :
    (tlDuplicate n ty seq s).mems = s.mems := by
  simp [tlDuplicate]

@[simp] theorem tlReceive_mems (n : Fin 16) (us : List Word) (s : State) :
    (tlReceive n us s).mems = s.mems := by
  simp [tlReceive]

@[simp] theorem tlStage_mems (n : Fin 16) (slot : Fin 64) (src : StgWriter) (v : Word) (s : State) :
    (tlStage n slot src v s).mems = s.mems := by
  unfold tlStage
  split <;> simp

@[simp] theorem tlCommit_mems (n : Fin 16) (g : BitVec 6) (d : BitVec 32) (a : Bool) (disagree : Bool) (s : State) :
    (tlCommit n g d a disagree s).mems = s.mems := by
  simp [tlCommit]

@[simp] theorem tlDiscard_mems (g : BitVec 6) (gen : Option (BitVec 32 × Bool)) (s : State) :
    (tlDiscard g gen s).mems = s.mems := by
  simp [tlDiscard]

@[simp] theorem tlSafe_mems (n : Fin 16) (s : State) :
    (tlSafe n s).mems = s.mems := by
  simp [tlSafe]

@[simp] theorem tlSendOut_mems (n : Fin 16) (s : State) :
    (tlSendOut n s).mems = s.mems := by
  simp [tlSendOut]

@[simp] theorem tlSendSafe_mems (n : Fin 16) (s : State) :
    (tlSendSafe n s).mems = s.mems := by
  simp [tlSendSafe]

@[simp] theorem tlHeader_wf (n : Fin 16) (s : State) (h : memsWf s.mems) :
    memsWf (tlHeader n s).mems := by
  unfold tlHeader
  dsimp only
  split <;> simp [h]

@[simp] theorem tlSetEnable_wf (n : Fin 16) (en : Bool) (s : State) (h : memsWf s.mems) :
    memsWf (tlSetEnable n en s).mems := by
  simp [tlSetEnable, h]

@[simp] theorem tlLock_mems (n : Fin 16) (s : State) :
    (tlLock n s).mems = s.mems := by
  simp [tlLock]

@[simp] theorem tlLoseLock_mems (n : Fin 16) (s : State) :
    (tlLoseLock n s).mems = s.mems := by
  simp [tlLoseLock]

@[simp] theorem tlChar_mems (n : Fin 16) (s : State) (valid : Bool) :
    (tlChar n s valid).mems = s.mems := by
  simp [tlChar]

@[simp] theorem tlChars_mems (n : Fin 16) (chars : List Bool) (s : State) :
    (tlChars n chars s).mems = s.mems := by
  simp [tlChars]

@[simp] theorem tlResendCap_mems (n : Fin 16) (s : State) :
    (tlResendCap n s).mems = s.mems := by
  simp [tlResendCap]

@[simp] theorem tlFreezeOne_mems (n : Fin 16) (s : State) :
    (tlFreezeOne n s).mems = s.mems := by
  simp [tlFreezeOne]

@[simp] theorem tlFreezeAll_mems (t : BitVec 8) (s : State) :
    (tlFreezeAll t s).mems = s.mems := by
  simp [tlFreezeAll]

@[simp] theorem tlPoisonDue_mems (n : Fin 16) (s : State) :
    (tlPoisonDue n s).mems = s.mems := by
  simp [tlPoisonDue]

@[simp] theorem tlRxto_mems (n : Fin 16) (s : State) :
    (tlRxto n s).mems = s.mems := by
  simp [tlRxto]

@[simp] theorem tlMtxStart_mems (n : Fin 16) (s : State) :
    (tlMtxStart n s).mems = s.mems := by
  simp [tlMtxStart]

@[simp] theorem tlReset_mems (n : Fin 16) (s : State) :
    (tlReset n s).mems = s.mems := by
  simp [tlReset]

@[simp] theorem writeLinkRecord_wf (n : Fin 16) (b : BasinIx) (r : Record) (s : State) (h : memsWf s.mems) :
    memsWf (writeLinkRecord n b r s).mems := by
  simp [writeLinkRecord, h]

@[simp] theorem recordWriteAny_wf (b : BasinIx) (bank : Bool) (s : State) (h : memsWf s.mems) :
    memsWf (recordWriteAny b bank s).mems := by
  unfold recordWriteAny
  dsimp only
  repeat' split
  all_goals simp [h]

theorem tlWriteLink_wf (n : Fin 16) (k : Nat) (v : Word) (s : State) (h : memsWf s.mems) :
    ∀ t ∈ tlWriteLink n k v s, memsWf t.mems := by
  unfold tlWriteLink
  repeat' (first | extract_lets | split | refine wf_of_some ?_)
  all_goals simp +zetaDelta [h]

theorem tlWrite_wf (off : Nat) (v : Word) (s : State) (h : memsWf s.mems) : ∀ t ∈ tlWrite off v s, memsWf t.mems := by
  unfold tlWrite
  split
  · exact tlWriteLink_wf _ _ _ _ h
  · split
    · cases tlRead s off <;> simp [h]
    · cases tlRead s off <;> simp [h]

/-! ### The functions of Machine/Windows -/

@[simp] theorem pendSetting_mems (g : BargeIx) (k : SyKey) (v : Word) (s : State) :
    (pendSetting g k v s).mems = s.mems := by
  simp [pendSetting]

@[simp] theorem writeTcmp_mems (g : BargeIx) (k : Fin 4) (v : Word) (s : State) :
    (writeTcmp g k v s).mems = s.mems := by
  simp [writeTcmp]

@[simp] theorem writeIntSrc_mems (g : BargeIx) (n : Fin 64) (v : Word) (s : State) :
    (writeIntSrc g n v s).mems = s.mems := by
  simp [writeIntSrc]

@[simp] theorem writeSwi_mems (g : BargeIx) (v : Word) (s : State) :
    (writeSwi g v s).mems = s.mems := by
  simp [writeSwi]

@[simp] theorem writeDbell_mems (g : BargeIx) (v : Word) (s : State) :
    (writeDbell g v s).mems = s.mems := by
  simp [writeDbell]

@[simp] theorem writeControl_mems (g : BargeIx) (world : Bool) (a : Nat) (v : Word) (s : State) :
    (writeControl g world a v s).mems = s.mems := by
  unfold writeControl
  split <;> simp

@[simp] theorem winWrite_wf (g : BargeIx) (world : Bool) (date : BitVec 32) (att : Bool) (a : Nat) (v : Word) (s : State)
    (h : memsWf s.mems) : memsWf (winWrite g world date att a v s).mems := by
  have hfi : ∀ n k, ((fiWriteChan n k v s).getD s).mems = s.mems := fun n k => getD_mems _ s (fiWriteChan_mems n k v s)
  simp [winWrite, h, hfi]

@[simp] theorem writeFault_mems (g : BargeIx) (cause : BitVec 8) (faddr : Word) (s : State) :
    (writeFault g cause faddr s).mems = s.mems := by
  simp [writeFault]

@[simp] theorem regWriteBy_wf (g : BargeIx) (a : Nat) (v : Word) (s : State) (h : memsWf s.mems) :
    memsWf (regWriteBy g a v s).mems := by
  simp [regWriteBy, h]

/-! ### The functions of Machine/Issue -/

@[simp] theorem State.viewed_mems (g : BargeIx) (s : State) :
    (State.viewed g s).mems = s.mems := by
  simp [State.viewed]

@[simp] theorem fetchAccess_mems (g : BargeIx) (src : Nat) (rivals : List Rival) (x : Nat × Nat × Nat) (s : State) :
    (fetchAccess g src rivals x s).2.mems = s.mems := by
  unfold fetchAccess
  dsimp only
  split <;> simp

@[simp] theorem fetchAll_mems (g : BargeIx) (src : Nat → Nat) (rivals : List Rival) (l : List (Nat × Nat × Nat)) (s : State) :
    (fetchAll g src rivals l s).2.mems = s.mems := by
  induction l generalizing s with
  | nil => rfl
  | cons x rest ih =>
    unfold fetchAll
    split <;> simp [ih]

@[simp] theorem Ctx.load_mems (c : Ctx) (op : Nat) (a : Int) (n : Nat) (s : State) :
    (Ctx.load c op a n s).mems = s.mems := by
  simp [Ctx.load]

@[simp] theorem Ctx.lsu_mems (c : Ctx) (s : State) :
    (Ctx.lsu c s).mems = s.mems := by
  unfold Ctx.lsu
  split <;> simp

@[simp] theorem sampleTime_mems (g : BargeIx) (s : State) :
    (sampleTime g s).2.mems = s.mems := by
  simp [sampleTime]

@[simp] theorem Ctx.cnt_mems (c : Ctx) (s : State) :
    (Ctx.cnt c s).mems = s.mems := by
  unfold Ctx.cnt
  dsimp only
  repeat' split
  all_goals simp

@[simp] theorem Ctx.branch_mems (c : Ctx) (tgt : BitVec 14) (s : State) :
    (Ctx.branch c tgt s).mems = s.mems := by
  simp [Ctx.branch]

@[simp] theorem Ctx.wrongWay_mems (c : Ctx) (before : Barge) (s : State) :
    (Ctx.wrongWay c before s).mems = s.mems := by
  unfold Ctx.wrongWay
  split <;> simp

@[simp] theorem Ctx.bru_mems (c : Ctx) (s : State) :
    (Ctx.bru c s).mems = s.mems := by
  unfold Ctx.bru
  dsimp only
  repeat' split
  all_goals simp

@[simp] theorem Ctx.bookkeep_mems (c : Ctx) (s : State) :
    (Ctx.bookkeep c s).mems = s.mems := by
  simp [Ctx.bookkeep]

@[simp] theorem Ctx.effect_mems (c : Ctx) (s : State) :
    (Ctx.effect c s).mems = s.mems := by
  simp [Ctx.effect]

@[simp] theorem finishTrap_mems (g : BargeIx) (s : State) :
    (finishTrap g s).mems = s.mems := by
  unfold finishTrap
  dsimp only
  repeat' split
  all_goals simp

@[simp] theorem noteHold_mems (g : BargeIx) (banks : List BankIx) (s : State) :
    (noteHold g banks s).mems = s.mems := by
  simp [noteHold]

@[simp] theorem boundary_mems (g : BargeIx) (split : Bool) (s : State) :
    (boundary g split s).1.mems = s.mems := by
  unfold boundary
  dsimp only
  repeat' split
  all_goals simp

@[simp] theorem finishLoad_mems (g : BargeIx) (rivals : List Rival) (s : State) :
    (finishLoad g rivals s).2.2.mems = s.mems := by
  unfold finishLoad
  dsimp only
  repeat' split
  all_goals simp

@[simp] theorem afterLoad_mems (g : BargeIx) (rivals : List Rival) (f : Bool → State → State) (s : State)
    (h : ∀ b s, (f b s).mems = s.mems) : (afterLoad g rivals f s).mems = s.mems := by
  simp [afterLoad, h]
theorem afterLoad_wf (g : BargeIx) (rivals : List Rival) (f : Bool → State → State) (s : State)
    (hf : ∀ b s, memsWf s.mems → memsWf (f b s).mems) (h : memsWf s.mems) : memsWf (afterLoad g rivals f s).mems := by
  unfold afterLoad
  extract_lets r
  have hr : memsWf r.2.2.mems := by simpa [r] using h
  split
  · exact hf _ _ hr
  · exact hr

@[simp] theorem issueAt_mems (g : BargeIx) (rivals : List Rival) (masked read : Bool) (s : State) :
    (issueAt g rivals masked read s).mems = s.mems := by
  unfold issueAt
  dsimp only
  repeat' split
  all_goals simp

@[simp] theorem issueOne_wf (g : BargeIx) (rivals : List Rival) (masked : Bool) (s : State) (h : memsWf s.mems) :
    memsWf (issueOne g rivals masked s).mems := by
  simp [issueOne, h]

/-! ### The functions of Machine/Keeper -/

@[simp] theorem watchKstat_mems (f : State → State) (s : State) : (watchKstat f s).mems = (f s).mems := by
  simp [watchKstat]

@[simp] theorem State.addLog_mems (s : State) (w : Word) :
    (State.addLog s w).mems = s.mems := by
  simp [State.addLog]

@[simp] theorem State.kpLog_mems (s : State) (kind cause : Nat) (task : BitVec 8) (barge : Nat) :
    (State.kpLog s kind cause task barge).mems = s.mems := by
  simp [State.kpLog]

@[simp] theorem setMode_mems (m : KMode) (cause : BitVec 8) (s : State) :
    (setMode m cause s).mems = s.mems := by
  simp [setMode]

@[simp] theorem degrade_mems (s : State) :
    (degrade s).mems = s.mems := by
  simp [degrade]

@[simp] theorem sendGate_mems (m : GateMsg) (grp : Option (BitVec 6)) (s : State) :
    (sendGate m grp s).mems = s.mems := by
  simp [sendGate]

@[simp] theorem openGroup_mems (d : BitVec 32) (a : Bool) (s : State) (r : Fin 64) :
    (openGroup d a s r).mems = s.mems := by
  simp [openGroup]

@[simp] theorem safeGroup_mems (s : State) (r : Fin 64) :
    (safeGroup s r).mems = s.mems := by
  simp [safeGroup]

@[simp] theorem openTask_mems (t : Fin 256) (s : State) :
    (openTask t s).mems = s.mems := by
  unfold openTask
  split <;> simp

@[simp] theorem clearStaged_mems (gen : Option (BitVec 32 × Bool)) (s : State) (r : Fin 64) :
    (clearStaged gen s r).mems = s.mems := by
  simp [clearStaged]

@[simp] theorem releaseGroups_mems (t : Fin 256) (s : State) :
    (releaseGroups t s).mems = s.mems := by
  simp [releaseGroups]

@[simp] theorem dropGates_mems (p : GateMsg → Bool) (s : State) :
    (dropGates p s).mems = s.mems := by
  simp [dropGates]

@[simp] theorem enterSafe_mems (cause : BitVec 8) (s : State) :
    (enterSafe cause s).mems = s.mems := by
  simp [enterSafe]

@[simp] theorem faultEvent_mems (b : BargeIx) (s : State) :
    (faultEvent b s).mems = s.mems := by
  simp [faultEvent]

@[simp] theorem moveTask_mems (b : BargeIx) (s : State) (t : Fin 256) :
    (moveTask b s t).mems = s.mems := by
  simp [moveTask]

@[simp] theorem retireBarge_mems (b : BargeIx) (cause : Nat) (s : State) :
    (retireBarge b cause s).mems = s.mems := by
  simp [retireBarge]

@[simp] theorem State.toBarge_mems (s : State) (b : BargeIx) (m : KMsg) :
    (State.toBarge s b m).mems = s.mems := by
  simp [State.toBarge]

@[simp] theorem startCycle_mems (t : Fin 256) (s : State) :
    (startCycle t s).mems = s.mems := by
  unfold startCycle
  split <;> simp

@[simp] theorem unexpectedSeal_mems (b : BargeIx) (t : Fin 256) (s : State) :
    (unexpectedSeal b t s).mems = s.mems := by
  unfold unexpectedSeal
  split <;> simp

@[simp] theorem countSeal_mems (b : BargeIx) (t : Fin 256) (s : State) :
    (countSeal b t s).mems = s.mems := by
  simp [countSeal]

@[simp] theorem judge_mems (b : BargeIx) (v : BitVec 61) (task : BitVec 8) (n : BitVec 16) (disagree : Bool) (s : State) :
    (judge b v task n disagree s).mems = s.mems := by
  unfold judge
  dsimp only
  repeat' split
  all_goals simp

@[simp] theorem dropLink_mems (b : BargeIx) (s : State) :
    (dropLink b s).mems = s.mems := by
  simp [dropLink]

@[simp] theorem sealArrives_mems (b : BargeIx) (crcOk disagree : Bool) (s : State) :
    (sealArrives b crcOk disagree s).mems = s.mems := by
  unfold sealArrives
  split <;> simp

@[simp] theorem faultArrives_mems (b : BargeIx) (crcOk : Bool) (s : State) :
    (faultArrives b crcOk s).mems = s.mems := by
  unfold faultArrives
  split <;> simp

@[simp] theorem resetArrives_mems (b : BargeIx) (crcOk : Bool) (s : State) :
    (resetArrives b crcOk s).mems = s.mems := by
  unfold resetArrives
  split <;> simp

@[simp] theorem classify_mems (c : Cycle) (code : Nat) (s : State) :
    (classify c code s).mems = s.mems := by
  simp [classify]

@[simp] theorem failDecision_mems (t : Fin 256) (c : Cycle) (code : Nat) (s : State) :
    (failDecision t c code s).mems = s.mems := by
  simp [failDecision]

@[simp] theorem endFailed_mems (t : Fin 256) (c : Cycle) (code : Nat) (s : State) :
    (endFailed t c code s).mems = s.mems := by
  simp [endFailed]

@[simp] theorem endMatched_mems (t : Fin 256) (c : Cycle) (s : State) :
    (endMatched t c s).mems = s.mems := by
  simp [endMatched]

@[simp] theorem decide'_mems (t : Fin 256) (s : State) :
    (decide' t s).mems = s.mems := by
  unfold decide'
  dsimp only
  repeat' split
  all_goals simp

@[simp] theorem closeWindow_mems (t : Fin 256) (s : State) :
    (closeWindow t s).mems = s.mems := by
  unfold closeWindow
  dsimp only
  split <;> simp

@[simp] theorem sendRetry_mems (t : Fin 256) (s : State) :
    (sendRetry t s).mems = s.mems := by
  unfold sendRetry
  dsimp only
  repeat' split
  all_goals simp

@[simp] theorem openGates_mems (t : Fin 256) (s : State) :
    (openGates t s).mems = s.mems := by
  unfold openGates
  split <;> simp

@[simp] theorem retirementReport_mems (s : State) :
    (retirementReport s).mems = s.mems := by
  unfold retirementReport
  split <;> simp

@[simp] theorem selfTest_mems (pass : Bool) (s : State) :
    (selfTest pass s).mems = s.mems := by
  simp [selfTest]

@[simp] theorem halfPeriod_mems (padA padB : Bool) (s : State) :
    (halfPeriod padA padB s).mems = s.mems := by
  unfold halfPeriod
  split <;> simp

@[simp] theorem startTask_mems (t : Fin 256) (s : State) :
    (startTask t s).mems = s.mems := by
  simp [startTask]

@[simp] theorem stopTask_mems (t : Fin 256) (s : State) :
    (stopTask t s).mems = s.mems := by
  simp [stopTask]

@[simp] theorem startSafePins_mems (s : State) :
    (startSafePins s).mems = s.mems := by
  simp [startSafePins]

@[simp] theorem commandEffect_mems (op : Nat) (arg : BitVec 8) (s : State) :
    (commandEffect op arg s).mems = s.mems := by
  unfold commandEffect
  dsimp only
  repeat' split
  all_goals simp

@[simp] theorem keeperCommand_mems (op : Nat) (arg : BitVec 8) (s : State) :
    (keeperCommand op arg s).mems = s.mems := by
  simp [keeperCommand]

@[simp] theorem loadError_mems (s : State) :
    (loadError s).mems = s.mems := by
  simp [loadError]

@[simp] theorem keeperWrite_mems (w : Nat) (v : Word) (s : State) :
    (keeperWrite w v s).mems = s.mems := by
  unfold keeperWrite
  repeat' (first | extract_lets | split | refine mems_of_some ?_)
  all_goals simp +zetaDelta

@[simp] theorem loadPort_mems (w : Nat) (v : Word) (same : Bool) (s : State) :
    (loadPort w v same s).mems = s.mems := by
  simp [loadPort]

@[simp] theorem commandPort_mems (op : Nat) (arg : BitVec 8) (hm1 : LoadWrite) (s : State) :
    (commandPort op arg hm1 s).mems = s.mems := by
  simp [commandPort]

@[simp] theorem popLog_mems (s : State) :
    (popLog s).mems = s.mems := by
  simp [popLog]

@[simp] theorem stopTasksOn_mems (p : Nat → Bool) (s : State) :
    (stopTasksOn p s).mems = s.mems := by
  simp [stopTasksOn]

@[simp] theorem keeperReset_mems (s : State) :
    (keeperReset s).mems = s.mems := by
  simp [keeperReset]

/-! ### The functions of Machine/Power -/

@[simp] theorem beginPower_mems (n : BasinIx) (goal : BitVec 2) (s : State) :
    (beginPower n goal s).mems = s.mems := by
  simp [beginPower]

@[simp] theorem setDivider_mems (s : State) (n : BasinIx) :
    (setDivider s n).mems = s.mems := by
  simp [setDivider]

@[simp] theorem holdAwake_mems (s : State) (n : BasinIx) :
    (holdAwake s n).mems = s.mems := by
  simp [holdAwake]

@[simp] theorem settle_mems (s : State) :
    (settle s).mems = s.mems := by
  simp [settle]

@[simp] theorem writeBpwr_mems (n : BasinIx) (v : Word) (s : State) :
    (writeBpwr n v s).mems = s.mems := by
  simp [writeBpwr]

@[simp] theorem closeBanks_mems (n : BasinIx) (s : State) :
    (closeBanks n s).mems = s.mems := by
  simp [closeBanks]

@[simp] theorem leaveB1_mems (n : BasinIx) (s : State) :
    (leaveB1 n s).mems = s.mems := by
  simp [leaveB1]

@[simp] theorem choosePower_mems (n : BasinIx) (s : State) :
    (choosePower n s).mems = s.mems := by
  simp [choosePower]

@[simp] theorem choosePowers_mems (s : State) :
    (choosePowers s).mems = s.mems := by
  simp [choosePowers]

@[simp] theorem powersFollow_mems (f : State → State) (s : State) : (powersFollow f s).mems = (f s).mems := by
  simp [powersFollow]

@[simp] theorem holdsFollow_mems (f : State → State) (s : State) : (holdsFollow f s).mems = (f s).mems := by
  simp [holdsFollow]

@[simp] theorem enterStage_mems (k : Nat) (s : State) :
    (enterStage k s).mems = s.mems := by
  simp [enterStage]

@[simp] theorem staged_mems (k : Nat) (f : State → State) (s : State) (h : ∀ s, (f s).mems = s.mems) :
    (staged k f s).mems = s.mems := by
  simp [staged, h]

/-! ### The functions of Machine/BargeRun -/

@[simp] theorem stepped_mems (g : BargeIx) (f : State → State) (s : State) : (stepped g f s).mems = (f s).mems := by
  simp [stepped]

@[simp] theorem idleStep_mems (g : BargeIx) (s : State) : (idleStep g s).mems = s.mems := by
  unfold idleStep
  extract_lets
  split
  · rfl
  · refine afterLoad_mems _ _ _ _ fun _ t => ?_
    repeat' (first | extract_lets | split)
    all_goals simp +zetaDelta

@[simp] theorem drainStore_wf (g : BargeIx) (rivals : List Rival) (s : State) (h : memsWf s.mems) :
    memsWf (drainStore g rivals s).mems := by
  unfold drainStore
  split <;> simp [h]

@[simp] theorem departXlu_mems (g : BargeIx) (s : State) :
    (departXlu g s).mems = s.mems := by
  unfold departXlu
  dsimp only
  split <;> simp

@[simp] theorem takeXluResp_mems (g : BargeIx) (s : State) :
    (takeXluResp g s).mems = s.mems := by
  unfold takeXluResp
  split <;> simp

@[simp] theorem completeIou_wf (g : BargeIx) (s : State) (h : memsWf s.mems) :
    memsWf (completeIou g s).mems := by
  unfold completeIou
  dsimp only
  split <;> simp [h]

@[simp] theorem rptAskWrites_mems (g : BargeIx) (rivals : List Rival) (l : List (Nat × Nat × Nat)) (s : State) :
    (rptAskWrites g rivals l s).2.mems = s.mems := by
  induction l generalizing s with
  | nil => rfl
  | cons x rest ih =>
    unfold rptAskWrites
    split <;> simp [ih]

@[simp] theorem rptProcess_wf (g : BargeIx) (r : RptRun) (s : State) (h : memsWf s.mems) :
    memsWf (rptProcess g r s).mems := by
  unfold rptProcess
  dsimp only
  repeat' split
  all_goals simp [h]

@[simp] theorem rptElement_wf (g : BargeIx) (rivals : List Rival) (s : State) (h : memsWf s.mems) :
    memsWf (rptElement g rivals s).mems := by
  unfold rptElement
  extract_lets
  split
  · exact h
  · split
    · exact h
    · refine afterLoad_wf _ _ _ _ (fun _ t ht => ?_) h
      extract_lets d
      have hd : memsWf d.1.mems := by
        simp only [d]
        split <;> simp [ht]
      clear_value d
      repeat' (first | extract_lets | split)
      all_goals simp +zetaDelta [hd]

@[simp] theorem endWait_mems (g : BargeIx) (s : State) :
    (endWait g s).mems = s.mems := by
  unfold endWait
  split <;> simp

@[simp] theorem endGate_mems (g : BargeIx) (ret : Bool) (s : State) :
    (endGate g ret s).mems = s.mems := by
  unfold endGate
  dsimp only
  repeat' split
  all_goals simp

@[simp] theorem syncStep_mems (g : BargeIx) (s : State) :
    (syncStep g s).mems = s.mems := by
  simp [syncStep]

@[simp] theorem endRead_mems (n : BasinIx) (k w : Fin 4) (l : BitVec 12) (s : State) :
    (endRead n k w l s).mems = s.mems := by
  simp [endRead]

@[simp] theorem deliverRead_mems (n : BasinIx) (k w : Fin 4) (s : State) :
    (deliverRead n k w s).mems = s.mems := by
  unfold deliverRead
  dsimp only
  repeat' split
  all_goals simp

@[simp] theorem endPatrol_mems (n : BasinIx) (k w : Fin 4) (r : WayRead) (s : State) :
    (endPatrol n k w r s).mems = s.mems := by
  simp [endPatrol]

@[simp] theorem patrolStep_mems (n : BasinIx) (k w : Fin 4) (s : State) :
    (patrolStep n k w s).mems = s.mems := by
  unfold patrolStep
  dsimp only
  repeat' split
  all_goals simp

@[simp] theorem windowRead_mems (g : BargeIx) (s : State) :
    (windowRead g s).mems = s.mems := by
  unfold windowRead
  dsimp only
  split <;> simp

@[simp] theorem interruptAt_mems (g : BargeIx) (s : State) :
    (interruptAt g s).mems = s.mems := by
  unfold interruptAt
  dsimp only
  repeat' split
  all_goals simp

@[simp] theorem takeInterrupt_mems (g : BargeIx) (s : State) :
    (takeInterrupt g s).mems = s.mems := by
  simp [takeInterrupt]

@[simp] theorem dropMsg_mems (g : BargeIx) (s : State) :
    (dropMsg g s).mems = s.mems := by
  simp [dropMsg]

@[simp] theorem dateArrives_mems (g : BargeIx) (s : State) :
    (dateArrives g s).mems = s.mems := by
  unfold dateArrives
  split <;> simp

@[simp] theorem retryArrives_mems (g : BargeIx) (s : State) :
    (retryArrives g s).mems = s.mems := by
  unfold retryArrives
  split <;> simp

@[simp] theorem noticeArrives_mems (g : BargeIx) (s : State) :
    (noticeArrives g s).mems = s.mems := by
  unfold noticeArrives
  split <;> simp

@[simp] theorem compareReached_mems (g : BargeIx) (k : Fin 4) (s : State) :
    (compareReached g k s).mems = s.mems := by
  simp [compareReached]

@[simp] theorem haltStep_mems (g : BargeIx) (s : State) :
    (haltStep g s).mems = s.mems := by
  unfold haltStep
  dsimp only
  split <;> simp

@[simp] theorem unhalt_mems (g : BargeIx) (step : Bool) (s : State) :
    (unhalt g step s).mems = s.mems := by
  simp [unhalt]

@[simp] theorem runOnce_wf (g : BargeIx) (rivals : List Rival) (s : State) (h : memsWf s.mems) :
    memsWf (runOnce g rivals s).mems := by
  simp [runOnce, h]

@[simp] theorem stepBarge_wf (g : BargeIx) (rivals : List Rival) (s : State) (h : memsWf s.mems) :
    memsWf (stepBarge g rivals s).mems := by
  simp [stepBarge, h]

@[simp] theorem writeDbgPc_mems (g : BargeIx) (v : Word) (s : State) :
    (writeDbgPc g v s).mems = s.mems := by
  simp [writeDbgPc]

@[simp] theorem writeDbgReg_mems (g : BargeIx) (v : Word) (s : State) :
    (writeDbgReg g v s).mems = s.mems := by
  simp [writeDbgReg]

/-! ### The functions of Machine/Crp -/

@[simp] theorem armMonitors_mems (s : State) :
    (armMonitors s).mems = s.mems := by
  simp [armMonitors]

@[simp] theorem lockPll_mems (p : PllIx) (s : State) :
    (lockPll p s).mems = s.mems := by
  simp [lockPll]

@[simp] theorem losePll_mems (p : PllIx) (s : State) :
    (losePll p s).mems = s.mems := by
  simp [losePll]

@[simp] theorem clockFault_mems (c : Clk) (s : State) :
    (clockFault c s).mems = s.mems := by
  unfold clockFault
  split <;> simp

@[simp] theorem clockWindow_mems (c : Clk) (count : Nat) (s : State) :
    (clockWindow c count s).mems = s.mems := by
  simp [clockWindow]

@[simp] theorem supplyFault_mems (r : Rail) (s : State) :
    (supplyFault r s).mems = s.mems := by
  unfold supplyFault
  dsimp only
  repeat' split
  all_goals simp

@[simp] theorem supplyBack_mems (r : Rail) (s : State) :
    (supplyBack r s).mems = s.mems := by
  unfold supplyBack
  dsimp only
  repeat' split
  all_goals simp

@[simp] theorem cutNvp_mems (s : State) (c : Fin 4) :
    (cutNvp s c).mems = s.mems := by
  unfold cutNvp
  split <;> simp

@[simp] theorem cutAllNvp_mems (s : State) :
    (cutAllNvp s).mems = s.mems := by
  simp [cutAllNvp]

@[simp] theorem performWrite_wf (r : WharfReq) (s : State) (h : memsWf s.mems) : memsWf (performWrite r s).mems := by
  unfold performWrite
  extract_lets
  split
  · simp [h, Mem.write_wf _ _ (show s.hms.wf = true from h.2.2)]
  · split <;> simp [h]

@[simp] theorem endWrite_wf (s : State) (r : WharfReq) (h : memsWf s.mems) :
    memsWf (endWrite s r).mems := by
  simp [endWrite, h]

@[simp] theorem staleImage_mems (n : BasinIx) (s : State) :
    (staleImage n s).mems = s.mems := by
  simp [staleImage]

@[simp] theorem deviceReset_mems (crp : Crp) (rv : Reservoir) (loaded : Fuses) (s : State) :
    (deviceReset crp rv loaded s).mems = (s.basins.map Basin.mem, rv.mem, s.hms) := by
  have e : (Vector.ofFn fun n => (s.basins.get n).afterReset s.now (bclkCount s n)).map Basin.mem = s.basins.map Basin.mem := by
    apply vget_ext
    intro n
    simp [vget_eq, Basin.afterReset]
  simp [deviceReset, e]

@[simp] theorem beginWarm_wf (src : BitVec 2) (pins : Pins) (s : State) (h : memsWf s.mems) : memsWf (beginWarm src pins s).mems := by
  unfold beginWarm
  extract_lets
  simp +zetaDelta
  exact foldl_wf _ (fun s r h => endWrite_wf s r h) _ _ (by simpa using h)

@[simp] theorem warmReset_wf (src : BitVec 2) (pins : Pins) (s : State) (h : memsWf s.mems) :
    memsWf (warmReset src pins s).mems := by
  simp [warmReset, h]

@[simp] theorem assertCold_wf (r : Rail) (s : State) (h : memsWf s.mems) : memsWf (assertCold r s).mems := by
  have hc : memsWf (cutAllNvp s).mems := by simpa using h
  have hrv : (cutAllNvp s).rv.mem.wf = true := hc.2.1
  unfold assertCold
  split
  · simp [memsWf_rv _ _ hc (Mem.zeroed_wf _ hrv)]
  · exact h

@[simp] theorem releaseCold_wf (pins : Pins) (levels : BitVec 12) (s : State) (h : memsWf s.mems) :
    memsWf (releaseCold pins levels s).mems := by
  have hrv : s.rv.mem.wf = true := h.2.1
  have hb : ∀ n, (s.basins.get n).mem.zeroed.wf = true := fun n => Mem.zeroed_wf _ (((memoriesCanonical_iff s).2 h).1 n)
  unfold releaseCold
  extract_lets rv _ crp s1
  have h1 : s1.mems = (s.basins.map Basin.mem, s.rv.mem.zeroed, s.hms) := deviceReset_mems _ _ _ _
  split
  · exact h
  · rw [State.mems_mk, memsWf_map]
    obtain ⟨e1, e2, _⟩ := (mems_eq_iff s1 _ _ _).1 h1
    have e (n : BasinIx) : (s1.basins.get n).mem = (s.basins.get n).mem := by rw [← basinMem_get, e1, basinMem_get]
    refine ⟨fun n => ?_, by simpa [e2] using Mem.zeroed_wf _ hrv, Mem.zeroed_wf _ h.2.2⟩
    simpa [vget_eq] using (e n ▸ hb n : (s1.basins.get n).mem.zeroed.wf = true)

@[simp] theorem resetPulse_wf (width : Nat) (pins : Pins) (s : State) (h : memsWf s.mems) :
    memsWf (resetPulse width pins s).mems := by
  simp [resetPulse, h]

@[simp] theorem resetTender_mems (n : BasinIx) (s : State) :
    (resetTender n s).mems = s.mems := by
  simp [resetTender]

@[simp] theorem resetPosition_mems (n : BasinIx) (s : State) (p : Fin 4) :
    (resetPosition n s p).mems = s.mems := by
  simp [resetPosition]

@[simp] theorem completePort_wf (n : BasinIx) (s : State) (h : memsWf s.mems) : memsWf (completePort n s).mems := by
  refine foldl_wf _ (fun s r h => ?_) _ _ (by simpa using h)
  split <;> simp [h]

@[simp] theorem restoreBasin_wf (n : BasinIx) (s : State) (h : memsWf s.mems) : memsWf (restoreBasin n s).mems :=
  (completePort n s).modBasin_wf n _ (completePort_wf n s h) fun _ hx => by simpa [Basin.afterReset] using hx

@[simp] theorem resetBasin_wf (n : BasinIx) (s : State) (h : memsWf s.mems) : memsWf (resetBasin n s).mems := by
  unfold resetBasin
  split
  · exact h
  · extract_lets s1 s2 kept told _ s3 src
    have h2 : s2.mems = s.mems := by simp [s2, s1]
    have h3 : s3.mems = s.mems := by rw [← h2]; simp [s3]
    have htold : ∀ t, (told t).mems = t.mems := fun t => by simp [told]
    have h4 : src.mems = s.mems := by simp [src, h3]
    clear_value kept s3 told src
    rw [settle_mems, watchReady_mems, htold]
    exact restoreBasin_wf _ _ (by simpa [h4] using h)

@[simp] theorem endBasinTest_wf (n : BasinIx) (defects : List (Fin 16 × Fin 348)) (s : State) (h : memsWf s.mems) :
    memsWf (endBasinTest n defects s).mems := by
  unfold endBasinTest
  split
  · exact State.modBasin_wf _ _ _ h fun x hx => Mem.zeroed_wf _ hx
  · exact h

@[simp] theorem endReservoirTest_wf (p : Fin 4) (defects : List (Fin 4 × Fin 348)) (s : State) (h : memsWf s.mems) :
    memsWf (endReservoirTest p defects s).mems := by
  have hrv : s.rv.mem.wf = true := h.2.1
  unfold endReservoirTest
  split
  · exact h
  · simp [h, Mem.zeroBlock_wf _ _ _ hrv]

@[simp] theorem commandReset_mems (g : BargeIx) (s : State) :
    (commandReset g s).mems = s.mems := by
  simp [commandReset]

@[simp] theorem writeHold_mems (g : BargeIx) (hold : Bool) (s : State) :
    (writeHold g hold s).mems = s.mems := by
  simp [writeHold]

@[simp] theorem writeHolds_mems (high : Bool) (v : Word) (s : State) :
    (writeHolds high v s).mems = s.mems := by
  simp [writeHolds]

@[simp] theorem loadStationTime_mems (v : Word) (s : State) :
    (loadStationTime v s).mems = s.mems := by
  simp [loadStationTime]

@[simp] theorem trim_mems (before : BitVec 64) (s : State) :
    (trim before s).mems = s.mems := by
  simp [trim]

@[simp] theorem setCur_mems (n : BasinIx) (c : BitVec 2) (s : State) :
    (setCur n c s).mems = s.mems := by
  simp [setCur]

@[simp] theorem enterB1_mems (n : BasinIx) (s : State) :
    (enterB1 n s).mems = s.mems := by
  simp [enterB1]

@[simp] theorem wakeB1_mems (n : BasinIx) (s : State) :
    (wakeB1 n s).mems = s.mems := by
  simp [wakeB1]

@[simp] theorem powerOff_wf (n : BasinIx) (s : State) (h : memsWf s.mems) : memsWf (powerOff n s).mems := by
  unfold powerOff
  extract_lets s1
  have h1 : memsWf s1.mems := by simpa [s1] using h
  exact s1.modBasin_wf n _ h1 fun x hx => Mem.zeroed_wf _ hx

@[simp] theorem holdAll_mems (n : BasinIx) (s : State) :
    (holdAll n s).mems = s.mems := by
  simp [holdAll]

@[simp] theorem endPower_wf (n : BasinIx) (s : State) (h : memsWf s.mems) :
    memsWf (endPower n s).mems := by
  unfold endPower
  dsimp only
  repeat' split
  all_goals simp [h]

@[simp] theorem convert_mems (rs : List (BitVec 12 × Bool)) (s : State) (k : Fin 8) :
    (convert rs s k).mems = s.mems := by
  unfold convert
  split <;> simp

@[simp] theorem setLevel_mems (l : BitVec 2) (s : State) :
    (setLevel l s).mems = s.mems := by
  simp [setLevel]

@[simp] theorem throttle_mems (s : State) :
    (throttle s).mems = s.mems := by
  simp [throttle]

@[simp] theorem conversion_mems (rs : List (BitVec 12 × Bool)) (s : State) :
    (conversion rs s).mems = s.mems := by
  simp [conversion]

@[simp] theorem bootWith_mems (firmware sig : List Byte) (s : State) :
    (bootWith firmware sig s).mems = s.mems := by
  simp [bootWith]

@[simp] theorem bootStore_mems (firmware sig : List Byte) (s : State) :
    (bootStore firmware sig s).mems = s.mems := by
  simp [bootStore]

@[simp] theorem bootReceived_mems (firmware sig : List Byte) (s : State) :
    (bootReceived firmware sig s).mems = s.mems := by
  simp [bootReceived]

@[simp] theorem writeRstcmd_wf (v : Word) (pins : Pins) (s : State) (h : memsWf s.mems) : memsWf (writeRstcmd v pins s).mems := by
  unfold writeRstcmd
  split
  · exact warmReset_wf _ _ _ h
  · exact foldl_wf _ (fun s n h => resetBasin_wf n s h) _ _ h

@[simp] theorem writeBrst_mems (high : Bool) (v : Word) (s : State) :
    (writeBrst high v s).mems = s.mems := by
  simp [writeBrst]

@[simp] theorem crpReadEffect_mems (off : Nat) (s : State) :
    (crpReadEffect off s).mems = s.mems := by
  simp [crpReadEffect]

theorem crpWrite_wf (off : Nat) (v : Word) (s : State) (h : memsWf s.mems) :
    ∀ t ∈ crpWrite off v s, memsWf t.mems := by
  unfold crpWrite
  repeat' (first | extract_lets | split | refine wf_of_some ?_)
  all_goals simp +zetaDelta [h]

/-! ### The functions of Machine/Ferry -/

@[simp] theorem hostWrite_mems (a : Nat) (bs : List Byte) (s : State) :
    (hostWrite a bs s).mems = s.mems := by
  simp [hostWrite]

@[simp] theorem touchLink_mems (s : State) :
    (touchLink s).mems = s.mems := by
  simp [touchLink]

@[simp] theorem enterL1_mems (s : State) :
    (enterL1 s).mems = s.mems := by
  simp [enterL1]

@[simp] theorem sendLtr_mems (s : State) :
    (sendLtr s).mems = s.mems := by
  simp [sendLtr]

@[simp] theorem flushVector_mems (s : State) (v : Fin 64) :
    (flushVector s v).mems = s.mems := by
  simp [flushVector]

@[simp] theorem flushVectors_mems (s : State) :
    (flushVectors s).mems = s.mems := by
  simp [flushVectors]

@[simp] theorem writeConfig_mems (c : ConfigWrite) (s : State) :
    (writeConfig c s).mems = s.mems := by
  simp [writeConfig]

@[simp] theorem noteOvr_mems (k : Fin 4) (s : State) :
    (noteOvr k s).mems = s.mems := by
  simp [noteOvr]

@[simp] theorem ringDoorbell_mems (s : State) (k : Fin 4) :
    (ringDoorbell s k).mems = s.mems := by
  simp [ringDoorbell]

@[simp] theorem ringDoorbells_mems (v : BitVec 4) (s : State) :
    (ringDoorbells v s).mems = s.mems := by
  simp [ringDoorbells]

@[simp] theorem hostErr_mems (s : State) :
    (hostErr s).mems = s.mems := by
  simp [hostErr]

@[simp] theorem poisonedWrite_mems (s : State) :
    (poisonedWrite s).mems = s.mems := by
  simp [poisonedWrite]

@[simp] theorem dropTlp_mems (s : State) :
    (dropTlp s).mems = s.mems := by
  simp [dropTlp]

@[simp] theorem hostRegister_mems (x : HostFlags) (f : State → State) (s : State) (h : ∀ s, (f s).mems = s.mems) :
    (hostRegister x f s).mems = s.mems := by
  simp [hostRegister, h]

@[simp] theorem writeMailbox_mems (k : Fin 4) (x : HostBytes) (s : State) :
    (writeMailbox k x s).mems = s.mems := by
  simp [writeMailbox]

@[simp] theorem writeRci_mems (i : Fin 4) (v : Dword) (s : State) :
    (writeRci i v s).mems = s.mems := by
  simp [writeRci]

@[simp] theorem writeRcfg_mems (i : Fin 4) (v : Dword) (s : State) :
    (writeRcfg i v s).mems = s.mems := by
  simp [writeRcfg]

@[simp] theorem State.modEq_mems (s : State) (q : Fin 14) (f : EgReq → EgReq) :
    (State.modEq s q f).mems = s.mems := by
  simp [State.modEq]

@[simp] theorem watchLine_mems (q : Fin 14) (f : State → State) (s : State) : (watchLine q f s).mems = (f s).mems := by
  simp [watchLine]

@[simp] theorem endGrant_mems (s : State) :
    (endGrant s).mems = s.mems := by
  simp [endGrant]

@[simp] theorem settleBonus_mems (s : State) :
    (settleBonus s).mems = s.mems := by
  unfold settleBonus
  split <;> simp

@[simp] theorem sendData_mems (a : Nat) (bs : List Byte) (s : State) :
    (sendData a bs s).mems = s.mems := by
  simp [sendData]

@[simp] theorem entryWritten_mems (i : Fin 4) (e : List Byte) (rest : List (List Byte)) (s : State) :
    (entryWritten i e rest s).mems = s.mems := by
  simp [entryWritten]

@[simp] theorem writeEntry_mems (i : Fin 4) (s : State) :
    (writeEntry i s).mems = s.mems := by
  unfold writeEntry
  split <;> simp

@[simp] theorem bar0Register_mems (off : Nat) (v : Dword) (s : State) :
    (bar0Register off v s).mems = s.mems := by
  unfold bar0Register
  repeat' (first | extract_lets | split | refine mems_of_some ?_)
  all_goals simp +zetaDelta

@[simp] theorem bar0Write_mems (off : Nat) (x : HostFlags) (v : Dword) (s : State) :
    (bar0Write off x v s).mems = s.mems := by
  simp [bar0Write]

/-- The memories of the state that a run of transactions has reached are canonical. -/
def FerryRun.Wf (r : FerryRun) : Prop := ∀ x ∈ r, memsWf x.2.mems

theorem FerryRun.over_wf (s : State) (r : FerryRun) (f : State → State) (hs : memsWf s.mems) (hr : r.Wf)
    (hf : ∀ s, memsWf s.mems → memsWf (f s).mems) : memsWf (FerryRun.over s r f).mems := by
  cases r with
  | none => simpa [FerryRun.over] using hs
  | some x => exact hf _ (hr x rfl)

theorem FerryRun.access_wf (t : Tx) (r : FerryRun) (h : r.Wf) : (r.access t).2.Wf := by
  cases r with
  | none => simp [FerryRun.access, FerryRun.Wf]
  | some x =>
    obtain ⟨j, s⟩ := x
    have hd := directTx_wf performMemory 13 t j s (fun r s h => performMemory_wf r s h) (h _ rfl)
    unfold FerryRun.access
    dsimp only
    split
    next heq =>
      rw [heq] at hd
      simpa [FerryRun.Wf] using hd
    next => simp [FerryRun.Wf]

theorem viewAccess_wf (t : Tx) (r : FerryRun) (h : r.Wf) : (viewAccess t r).2.Wf := by
  have ha := FerryRun.access_wf t r h
  unfold viewAccess
  split
  next x r1 heq =>
    rw [heq] at ha
    dsimp only
    split
    · exact ha
    · intro y hy
      obtain ⟨z, hz, rfl⟩ := Option.mem_map.1 hy
      simpa using ha z hz
  next r1 heq =>
    rw [heq] at ha
    exact ha

theorem viewWriteWord_wf (packed : Bool) (x : HostBytes) (r : FerryRun) (w : Nat) (h : r.Wf) : (viewWriteWord packed x r w).Wf := by
  unfold viewWriteWord
  extract_lets bitsOf full part value r1 r2
  have h1 : r1.Wf := by
    simp only [r1]
    split
    · exact h
    · exact viewAccess_wf _ _ h
  split
  · exact h1
  · exact viewAccess_wf _ _ (viewAccess_wf _ _ h1)

@[simp] theorem returnBytes_mems (packed : Bool) (x : HostBytes) (ws : List (Nat × Word)) (s : State) :
    (returnBytes packed x ws s).mems = s.mems := by
  simp [returnBytes]

@[simp] theorem viewWrite_wf (packed : Bool) (x : HostBytes) (s : State) (h : memsWf s.mems) :
    memsWf (viewWrite packed x s).mems := by
  have step : ∀ (l : List Nat) (r : FerryRun), r.Wf → (l.foldl (viewWriteWord packed x) r).Wf := by
    intro l
    induction l with
    | nil => exact fun _ hr => hr
    | cons w l ih => exact fun r hr => ih _ (viewWriteWord_wf packed x r w hr)
  exact FerryRun.over_wf s _ id h (step _ _ (by simpa [FerryRun.Wf] using h)) fun _ ht => ht

@[simp] theorem viewRead_wf (packed : Bool) (x : HostBytes) (s : State) (h : memsWf s.mems) :
    memsWf (viewRead packed x s).mems := by
  unfold viewRead
  extract_lets step r
  have hstep : ∀ (l : List Nat) (r : List (Nat × Word) × FerryRun), r.2.Wf → (l.foldl step r).2.Wf := by
    intro l
    induction l with
    | nil => exact fun _ hr => hr
    | cons w l ih => exact fun r hr => ih _ (viewAccess_wf _ r.2 hr)
  exact FerryRun.over_wf s _ _ h (hstep _ ([], some (0, s)) (by simpa [FerryRun.Wf] using h)) fun t ht => by simpa using ht

@[simp] theorem viewHost_wf (packed write : Bool) (x : HostBytes) (s : State) (h : memsWf s.mems) :
    memsWf (viewHost packed write x s).mems := by
  simp [viewHost, h]

@[simp] theorem noteAer_mems (how : HostEnd) (s : State) :
    (noteAer how s).mems = s.mems := by
  simp [noteAer]

@[simp] theorem pcioFail_mems (p : PcioReq) (kind : BitVec 2) (s : State) :
    (pcioFail p kind s).mems = s.mems := by
  simp [pcioFail]

@[simp] theorem failRead_mems (kind : BitVec 2) (s : State) :
    (failRead kind s).mems = s.mems := by
  unfold failRead
  split <;> simp

@[simp] theorem pcioGo_mems (data : List Word) (s : State) :
    (pcioGo data s).mems = s.mems := by
  unfold pcioGo
  dsimp only
  repeat' split
  all_goals simp

@[simp] theorem pcioEndFail_mems (kind : HostEnd) (s : State) :
    (pcioEndFail kind s).mems = s.mems := by
  simp [pcioEndFail]

@[simp] theorem igSignal_mems (e : Fin 4) (barge : BitVec 6) (ben men : Bool) (s : State) :
    (igSignal e barge ben men s).mems = s.mems := by
  unfold igSignal
  split <;> simp

@[simp] theorem igStart_mems (e : Fin 4) (s : State) :
    (igStart e s).mems = s.mems := by
  simp [igStart]

@[simp] theorem igFinish_mems (e : Fin 4) (ok : Bool) (s : State) :
    (igFinish e ok s).mems = s.mems := by
  simp [igFinish]

theorem writeRun_wf (id addr : Nat) (ws : List Word) (r : FerryRun) (h : r.Wf) : (writeRun id addr ws r).2.Wf := by
  induction ws generalizing addr r with
  | nil => exact h
  | cons w rest ih =>
    have ha := FerryRun.access_wf (ferryTx id addr (some w)) r h
    unfold writeRun
    split
    next heq =>
      rw [heq] at ha
      split
      · exact ih _ _ ha
      · exact ha
    next heq =>
      rw [heq] at ha
      exact ha

@[simp] theorem igEnd_wf (e : Fin 4) (data : List Byte) (how : HostEnd) (s : State) (h : memsWf s.mems) :
    memsWf (igEnd e data how s).mems := by
  unfold igEnd
  split
  · extract_lets
    split
    · exact h
    · exact FerryRun.over_wf s _ _ h (writeRun_wf _ _ _ _ (by simpa [FerryRun.Wf] using h)) fun t ht => by simpa using ht
  · exact h

@[simp] theorem eqPushDesc_mems (q : Fin 14) (s : State) :
    (eqPushDesc q s).mems = s.mems := by
  simp [eqPushDesc]

@[simp] theorem grantTo_mems (q : Fin 14) (drawn : Option (BitVec 14)) (s : State) :
    (grantTo q drawn s).mems = s.mems := by
  simp [grantTo]

@[simp] theorem voidTo_mems (q : Fin 14) (s : State) :
    (voidTo q s).mems = s.mems := by
  simp [voidTo]

@[simp] theorem draw_mems (s0 : State) :
    (draw s0).mems = s0.mems := by
  unfold draw
  dsimp only
  split <;> simp

@[simp] theorem egressArbitrate_mems (s : State) :
    (egressArbitrate s).mems = s.mems := by
  unfold egressArbitrate
  dsimp only
  split <;> simp

@[simp] theorem setStream_mems (q : Fin 14) (ws : List Word) (s : State) :
    (setStream q ws s).mems = s.mems := by
  simp [setStream]

@[simp] theorem noteEnd_mems (d : EgDesc) (ok : Bool) (s : State) :
    (noteEnd d ok s).mems = s.mems := by
  unfold noteEnd
  split <;> simp

@[simp] theorem failFront_mems (q : Fin 14) (s : State) :
    (failFront q s).mems = s.mems := by
  unfold failFront
  split <;> simp

@[simp] theorem sendBytes_mems (q : Fin 14) (d : EgDesc) (bs : List Byte) (held : List Word) (s : State) :
    (sendBytes q d bs held s).mems = s.mems := by
  simp [sendBytes]

theorem readRun_wf (addr n : Nat) (r : FerryRun) (h : r.Wf) : (readRun addr n r).2.Wf := by
  induction n generalizing addr r with
  | zero => exact h
  | succ n ih =>
    have ha := FerryRun.access_wf (ferryTx 5 addr none) r h
    unfold readRun
    split
    next heq =>
      rw [heq] at ha
      split
      · exact ih _ _ ha
      · exact ha
    next heq =>
      rw [heq] at ha
      exact ha

@[simp] theorem egressSend_wf (s : State) (h : memsWf s.mems) : memsWf (egressSend s).mems := by
  have hr : ∀ a n, (readRun a n (some (0, s))).2.Wf := fun a n => readRun_wf a n _ (by simpa [FerryRun.Wf] using h)
  unfold egressSend
  extract_lets q
  split
  next d rest hq =>
    extract_lets n f first count cut bytes
    split
    · exact h
    · split
      · simp [h]
      · split
        · simp [h]
        · have hx := hr (d.waddr.toNat + 4 * (first + d.held.length)) (count - d.held.length)
          split
          · simp [h]
          next heq =>
            rw [heq] at hx
            simpa using hx _ rfl
          next heq =>
            rw [heq] at hx
            simpa using hx _ rfl
  next => split <;> simp [h]

@[simp] theorem refill_mems (s : State) :
    (refill s).mems = s.mems := by
  simp [refill]

@[simp] theorem egressReset_mems (s : State) :
    (egressReset s).mems = s.mems := by
  simp [egressReset]

@[simp] theorem strmWrite_mems (v : Word) (s : State) :
    (strmWrite v s).mems = s.mems := by
  simp [strmWrite]

@[simp] theorem mayWrite_wf (e : Fin 4) (waddr : BitVec 32) (s : State) (j : Nat) (h : memsWf s.mems) :
    memsWf (mayWrite e waddr s j).mems := by
  unfold mayWrite
  split
  · have ha := FerryRun.access_wf (ferryTx (1 + e.val) (waddr.toNat + 4 * j) (some (Config.freeWord s.freeCtr)))
      (some (j, s.free)) (by simpa [FerryRun.Wf] using h)
    revert ha
    generalize (FerryRun.access _ _).2 = r
    intro ha
    cases r with
    | none => simpa using h
    | some x => exact ha x rfl
  · simpa using h

@[simp] theorem stopIngress_wf (s : State) (e : Fin 4) (h : memsWf s.mems) : memsWf (stopIngress s e).mems := by
  unfold stopIngress
  extract_lets s1
  have h1 : memsWf s1.mems := by
    simp only [s1]
    split
    · exact foldl_wf _ (fun s j h => mayWrite_wf e _ s j h) _ _ h
    · exact h
  simpa using h1

@[simp] theorem hostScopeReset_wf (s : State) (h : memsWf s.mems) : memsWf (hostScopeReset s).mems := by
  have h1 : memsWf ((List.finRange 4).foldl stopIngress s).mems := foldl_wf _ (fun s e h => stopIngress_wf s e h) _ _ h
  simpa [hostScopeReset] using h1

@[simp] theorem flrReset_wf (s : State) (h : memsWf s.mems) :
    memsWf (flrReset s).mems := by
  simp [flrReset, h]

@[simp] theorem perstReset_wf (s : State) (h : memsWf s.mems) :
    memsWf (perstReset s).mems := by
  simp [perstReset, h]

@[simp] theorem eqWrite_mems (q : Fin 14) (k : Nat) (v : Word) (s : State) :
    (eqWrite q k v s).mems = s.mems := by
  unfold eqWrite
  split <;> simp

@[simp] theorem igWrite_mems (e : Fin 4) (k : Nat) (v : Word) (s : State) :
    (igWrite e k v s).mems = s.mems := by
  unfold igWrite
  split <;> simp

theorem ferryWrite_mems (off : Nat) (v : Word) (s : State) :
    ∀ t ∈ ferryWrite off v s, t.mems = s.mems := by
  unfold ferryWrite
  repeat' (first | extract_lets | split | refine mems_of_some ?_)
  all_goals simp +zetaDelta

/-! ### The functions of Machine/Sec -/

@[simp] theorem newChallenge_mems (random : BitVec 256) (s : State) :
    (newChallenge random s).mems = s.mems := by
  simp [newChallenge]

@[simp] theorem startVerify_mems (slot : Fin 4) (s : State) :
    (startVerify slot s).mems = s.mems := by
  simp [startVerify]

@[simp] theorem noteKey_mems (slot : Fin 4) (given : List Byte) (s : State) :
    (noteKey slot given s).mems = s.mems := by
  simp [noteKey]

@[simp] theorem endVerify_mems (given : List Byte) (s0 : State) :
    (endVerify given s0).mems = s0.mems := by
  unfold endVerify
  dsimp only
  split <;> simp

@[simp] theorem relock_mems (s : State) :
    (relock s).mems = s.mems := by
  simp [relock]

@[simp] theorem fuseStart_mems (op : Nat) (v : Word) (s : State) :
    (fuseStart op v s).mems = s.mems := by
  simp [fuseStart]

@[simp] theorem fuseEnd_mems (s : State) :
    (fuseEnd s).mems = s.mems := by
  unfold fuseEnd
  split <;> simp

@[simp] theorem resetDbg_mems (s : State) (g : BargeIx) :
    (resetDbg s g).mems = s.mems := by
  simp [resetDbg]

@[simp] theorem debugReset_mems (s : State) :
    (debugReset s).mems = s.mems := by
  simp [debugReset]

@[simp] theorem writeDbgCtl_wf (g : BargeIx) (v : Word) (s : State) (h : memsWf s.mems) :
    memsWf (writeDbgCtl g v s).mems := by
  simp [writeDbgCtl, h]

@[simp] theorem dbgWrite_wf (g : BargeIx) (k : Nat) (v : Word) (s : State) (h : memsWf s.mems) :
    memsWf (dbgWrite g k v s).mems := by
  unfold dbgWrite
  split <;> simp [h]

@[simp] theorem writeSecCtl_mems (v : Word) (s : State) :
    (writeSecCtl v s).mems = s.mems := by
  simp [writeSecCtl]

theorem secWrite_wf (off : Nat) (v : Word) (s : State) (h : memsWf s.mems) :
    ∀ t ∈ secWrite off v s, memsWf t.mems := by
  unfold secWrite
  repeat' (first | extract_lets | split | refine wf_of_some ?_)
  all_goals simp +zetaDelta [h]

@[simp] theorem updateIr_mems (ir : JtagIr) (s : State) :
    (updateIr ir s).mems = s.mems := by
  simp [updateIr]

@[simp] theorem secAccess_wf (off : Nat) (write : Bool) (v : Word) (s : State) (h : memsWf s.mems) :
    memsWf (secAccess off write v s).mems := by
  have hw := getD_wf (secWrite off v s) s h (secWrite_wf off v s h)
  unfold secAccess
  split
  · simp [h]
  · split <;> simp [h, hw]

@[simp] theorem updateDr_wf (dr : BitVec 72) (s : State) (h : memsWf s.mems) :
    memsWf (updateDr dr s).mems := by
  unfold updateDr
  split <;> simp [h]

@[simp] theorem testLogicReset_mems (s : State) :
    (testLogicReset s).mems = s.mems := by
  simp [testLogicReset]

/-! ### The functions of Machine/Bridge -/

theorem basinWrite_mems (n : BasinIx) (off : Nat) (v : Word) (s : State) :
    ∀ t ∈ basinWrite n off v s, t.mems = s.mems := by
  unfold basinWrite
  repeat' (first | extract_lets | split | refine mems_of_some ?_)
  all_goals simp +zetaDelta

theorem perRead_mems (a : Nat) (s : State) : ∀ x ∈ perRead a s, x.2.mems = s.mems := by
  have plain (w : Option Word) : ∀ x ∈ w.map fun v => (v, s), x.2.mems = s.mems := by
    cases w <;> simp
  unfold perRead
  extract_lets off plain'
  split
  · exact plain _
  · split
    any_goals exact plain _
    · split
      · exact plain _
      · simp
    · cases crpRead s off <;> simp
    · simp

theorem perWrite_wf (a : Nat) (v : Word) (s : State) (h : memsWf s.mems) : ∀ t ∈ perWrite a v s, memsWf t.mems := by
  have kept {o : Option State} (ho : ∀ t ∈ o, t.mems = s.mems) : ∀ t ∈ o, memsWf t.mems := fun t ht => by
    rw [ho t ht]; exact h
  unfold perWrite
  extract_lets off
  split
  · exact kept (basinWrite_mems _ _ _ _)
  · split
    · exact kept (wharfWrite_mems _ _ _)
    · split
      · cases rvPortRead _ _ <;> simp [h]
      · simp
    · exact weirWrite_wf _ _ _ h
    · exact kept (pwmWrite_mems _ _ _)
    · exact kept (fioWrite_mems _ _ _)
    · exact tlWrite_wf _ _ _ h
    · exact crpWrite_wf _ _ _ h
    · exact kept (ferryWrite_mems _ _ _)
    · exact secWrite_wf _ _ _ h
    · simp

theorem performRegister_wf (read : Nat → State → Option (Word × State)) (write : Nat → Word → State → Option State) (a : Nat)
    (r : WharfReq) (s : State) (hr : ∀ a s, memsWf s.mems → ∀ x ∈ read a s, memsWf x.2.mems)
    (hw : ∀ a v s, memsWf s.mems → ∀ t ∈ write a v s, memsWf t.mems) (h : memsWf s.mems) :
    memsWf (performRegister read write a r s).mems := by
  unfold performRegister
  split
  · split
    next s1 heq =>
      have h1 : memsWf s1.mems := hw _ _ _ (by simpa using h) s1 heq
      extract_lets _ s2
      have h2 : memsWf s2.mems := by simpa [s2] using h1
      cases s1.wharf.serving <;> simpa using h2
    · simpa using h
  · split
    next v s1 heq => simpa using hr _ _ h _ heq
    · simpa using h

@[simp] theorem ackHandovers_mems (n : BasinIx) (b : BankIx) (s : State) :
    (ackHandovers n b s).mems = s.mems := by
  simp [ackHandovers]

@[simp] theorem performPer_wf (r : WharfReq) (s : State) (h : memsWf s.mems) : memsWf (performPer r s).mems := by
  unfold performPer
  extract_lets a
  split
  · simp [h]
  · exact performRegister_wf _ _ _ _ _ (fun a s h x hx => by rw [perRead_mems a s x hx]; exact h)
      (fun a v s h => perWrite_wf a v s h) h

@[simp] theorem performNvp_wf (r : WharfReq) (s : State) (h : memsWf s.mems) : memsWf (performNvp r s).mems := by
  refine performRegister_wf _ _ _ _ _ (fun a s h => ?_) (fun a v s h => ?_) h
  · simpa using h
  · simpa [getD_mems _ s (nvpWrite_mems a v s)] using h

@[simp] theorem serveBasin_wf (n : BasinIx) (rivals : List Rival) (pick : Option WharfReq) (s : State) (h : memsWf s.mems) :
    memsWf (serveBasin n rivals pick s).mems := by
  unfold serveBasin
  dsimp only
  repeat' split
  all_goals simp [h]

@[simp] theorem serve_wf (r : WharfReq) (s : State) (h : memsWf s.mems) :
    memsWf (serve r s).mems := by
  simp [serve, h]

@[simp] theorem grantAt_wf (g : Fin 20) (rivals : List Rival) (s : State) (h : memsWf s.mems) :
    memsWf (grantAt g rivals s).mems := by
  unfold grantAt
  dsimp only
  repeat' split
  all_goals simp [h]

@[simp] theorem busWrite_wf (init : Fin 16) (a : BitVec 32) (v : Word) (s : State) (h : memsWf s.mems) :
    memsWf (busWrite init a v s).mems := by
  refine directTx_wf _ _ _ _ _ (fun r s h => ?_) h
  split <;> simp [h]

@[simp] theorem writeRegister_wf (p : RegPath) (v : Word) (s : State) (h : memsWf s.mems) :
    memsWf (writeRegister p v s).mems := by
  unfold writeRegister
  split <;> simp [h]

/-! ### The functions of Machine/Mailbox -/

@[simp] theorem answer_mems (status : Nat) (data : List Byte) (s : State) :
    (answer status data s).2.mems = s.mems := by
  simp [answer]

@[simp] theorem putEntry_mems (r : Fin 4) (mk : Nat → List Byte) (s : State) :
    (putEntry r mk s).mems = s.mems := by
  simp [putEntry]

@[simp] theorem putEvent_mems (r : Fin 4) (code : Nat) (stamp : BitVec 32) (data : List Byte) (s : State) :
    (putEvent r code stamp data s).mems = s.mems := by
  simp [putEvent]

@[simp] theorem postEvent_mems (code : Nat) (stamp : BitVec 32) (data : List Byte) (s : State) :
    (postEvent code stamp data s).mems = s.mems := by
  simp [postEvent]

@[simp] theorem withEpoch_mems (s : State) (kind i ep : Nat) (go : Reply) (h : go.2.mems = s.mems) :
    (withEpoch s kind i ep go).2.mems = s.mems := by
  unfold withEpoch
  split <;> simp [h]
@[simp] theorem withEpoch_wf (s : State) (kind i ep : Nat) (go : Reply) (hs : memsWf s.mems) (h : memsWf go.2.mems) :
    memsWf (withEpoch s kind i ep go).2.mems := by
  unfold withEpoch
  split <;> simp [h, hs]

@[simp] theorem ringOwner_mems (n : Nat) (src : Fin 64) (s : State) :
    (ringOwner n src s).mems = s.mems := by
  unfold ringOwner
  split <;> simp

@[simp] theorem ringFor_mems (kind i : Nat) (s : State) :
    (ringFor kind i s).mems = s.mems := by
  unfold ringFor
  split <;> simp

@[simp] theorem complete_mems (k : Fin 4) (c : FwCmd) (a : Answer) (s : State) :
    (complete k c a s).mems = s.mems := by
  simp [complete]

@[simp] theorem busyLoading_mems (n : BasinIx) (s : State) :
    (busyLoading n s).2.mems = s.mems := by
  simp [busyLoading]

@[simp] theorem runCommand_mems (k : Fin 4) (op : BitVec 16) (h : FwCmd → State → Reply) (s : State)
    (hh : ∀ c s, (h c s).2.mems = s.mems) : (runCommand k op h s).mems = s.mems := by
  unfold runCommand
  repeat' (first | extract_lets | split)
  all_goals simp +zetaDelta [hh]
theorem runCommand_wf (k : Fin 4) (op : BitVec 16) (h : FwCmd → State → Reply) (s : State)
    (hh : ∀ c s, memsWf s.mems → memsWf (h c s).2.mems) (hs : memsWf s.mems) : memsWf (runCommand k op h s).mems := by
  unfold runCommand
  repeat' (first | extract_lets | split)
  all_goals simp +zetaDelta [hs, hh]

@[simp] theorem takeMailbox_mems (k : Fin 4) (s : State) :
    (takeMailbox k s).mems = s.mems := by
  simp [takeMailbox]

@[simp] theorem expireDeadline_mems (k : Fin 4) (s : State) :
    (expireDeadline k s).mems = s.mems := by
  unfold expireDeadline
  split <;> simp

@[simp] theorem noticeBell_mems (x : FwNotice) (s : State) :
    (noticeBell x s).mems = s.mems := by
  unfold noticeBell
  split <;> simp

@[simp] theorem nextEvent_mems (s : State) :
    (nextEvent s).mems = s.mems := by
  unfold nextEvent
  dsimp only
  repeat' split
  all_goals simp

/-! ### The functions of Machine/Firmware -/

@[simp] theorem wakeBasin_mems (n : BasinIx) (s : State) :
    (wakeBasin n s).mems = s.mems := by
  simp [wakeBasin]

@[simp] theorem helloReply_mems (c : FwCmd) (s : State) :
    (helloReply c s).2.mems = s.mems := by
  unfold helloReply
  dsimp only
  repeat' split
  all_goals simp

@[simp] theorem setSlot_mems (k : Fin 4) (c : FwCmd) (s : State) :
    (setSlot k c s).mems = s.mems := by
  simp [setSlot]

@[simp] theorem giveTransfer_mems (haddr : Nat) (bs : List Byte) (s : State) :
    (giveTransfer haddr bs s).mems = s.mems := by
  simp [giveTransfer]

@[simp] theorem sendWords_mems (k : Fin 4) (haddr buffer : Nat) (ws : List Word) (c : FwCmd) (s : State) :
    (sendWords k haddr buffer ws c s).2.mems = s.mems := by
  unfold sendWords
  dsimp only
  repeat' split
  all_goals simp

@[simp] theorem transferEnd_mems (q : Nat) (s : State) :
    (transferEnd q s).2.mems = s.mems := by
  unfold transferEnd
  split <;> simp

@[simp] theorem infoReply_mems (k : Fin 4) (c : FwCmd) (s : State) :
    (infoReply k c s).2.mems = s.mems := by
  unfold infoReply
  repeat' (first | extract_lets | split)
  all_goals simp +zetaDelta

theorem hmTx_mems (addr : Nat) (size : TxSize) (write : Bool) (data : List Word) (f : State → State) (s : State)
    (hf : ∀ s, (f s).mems = s.mems) : (hmTx addr size write data f s).mems = s.mems := by
  unfold hmTx
  extract_lets t q s1 s2
  rw [takeResponse_mems]
  simp only [s2]
  split <;> simp [s1, hf]

@[simp] theorem hmTx_wf (addr : Nat) (size : TxSize) (write : Bool) (data : List Word) (f : State → State) (s : State)
    (hf : ∀ s, memsWf s.mems → memsWf (f s).mems) (h : memsWf s.mems) : memsWf (hmTx addr size write data f s).mems := by
  unfold hmTx
  extract_lets t q s1 s2
  rw [takeResponse_mems]
  simp only [s2]
  split
  · rw [respond_mems]
    exact hf _ (by simpa [s1] using h)
  · simpa [s1] using h

@[simp] theorem hmWrite_mems (addr : Nat) (v : Word) (f : State → State) (s : State) (hf : ∀ s, (f s).mems = s.mems) :
    (hmWrite addr v f s).mems = s.mems := hmTx_mems _ _ _ _ f s hf

theorem hmWrite_wf (addr : Nat) (v : Word) (f : State → State) (s : State)
    (hf : ∀ s, memsWf s.mems → memsWf (f s).mems) (h : memsWf s.mems) : memsWf (hmWrite addr v f s).mems :=
  hmTx_wf _ _ _ _ f s hf h

@[simp] theorem hmRead_mems (addr : Nat) (s : State) : (hmRead addr s).mems = s.mems :=
  hmTx_mems _ _ _ _ id s fun _ => rfl

@[simp] theorem counterWord_mems (base : Option Nat) (r : List Word × State) (w : Nat) :
    (counterWord base r w).2.mems = r.2.mems := by
  unfold counterWord
  split
  · rfl
  · split
    next heq => simpa using perRead_mems _ _ _ heq
    · rfl

@[simp] theorem counterWords_mems (base : Option Nat) (l : List Nat) (r : List Word × State) :
    (l.foldl (counterWord base) r).2.mems = r.2.mems := by
  induction l generalizing r with
  | nil => rfl
  | cons w l ih => rw [List.foldl_cons, ih, counterWord_mems]

@[simp] theorem countersReply_mems (k : Fin 4) (c : FwCmd) (s : State) : (countersReply k c s).2.mems = s.mems := by
  unfold countersReply
  repeat' (first | extract_lets | split)
  all_goals simp +zetaDelta

@[simp] theorem imageStatReply_mems (k : Fin 4) (c : FwCmd) (s : State) :
    (imageStatReply k c s).2.mems = s.mems := by
  unfold imageStatReply
  dsimp only
  repeat' split
  all_goals simp

@[simp] theorem cfgWrite_wf (kind i k : Nat) (v : Word) (s : State) (h : memsWf s.mems) :
    memsWf (cfgWrite kind i k v s).mems :=
  hmWrite_wf _ _ _ _ (fun s h => getD_wf _ s h (perWrite_wf _ v s h)) h

@[simp] theorem blockEn_wf (kind i : Nat) (en : Bool) (s : State) (h : memsWf s.mems) :
    memsWf (blockEn kind i en s).mems := by
  unfold blockEn
  split <;> simp [h]

@[simp] theorem setEn_wf (kind i : Nat) (en : Bool) (s : State) (h : memsWf s.mems) : memsWf (setEn kind i en s).mems :=
  hmWrite_wf _ _ _ _ (fun s h => blockEn_wf kind i en s h) h

@[simp] theorem setCfgField_wf (kind i k lo width v : Nat) (s : State) (h : memsWf s.mems) :
    memsWf (setCfgField kind i k lo width v s).mems := by
  simp [setCfgField, h]

@[simp] theorem applyEntry_wf (n : BasinIx) (bs : List Binding) (s : State) (e : ManEntry) (h : memsWf s.mems) :
    memsWf (applyEntry n bs s e).mems := by
  unfold applyEntry
  extract_lets reg
  have hreg : ∀ off, memsWf (reg off).mems := fun off => hmWrite_wf _ _ _ _
    (fun s h => by rw [getD_mems _ s (basinWrite_mems n off _ s)]; exact h) h
  repeat' split
  all_goals simp [h, hreg]

@[simp] theorem enableVital_wf (bs : List Binding) (man : List ManEntry) (s : State) (h : memsWf s.mems) :
    memsWf (enableVital bs man s).mems := by
  refine foldl_wf _ (fun s i h => foldl_wf _ (fun s r h => ?_) _ _ h) _ _ (foldl_wf _ (fun s m h => setEn_wf _ _ _ _ h) _ _ h)
  split <;> simp [h]

@[simp] theorem writeRow_wf (n : BasinIx) (s : State) (row : Nat × List (Nat × Word)) (h : memsWf s.mems) :
    memsWf (writeRow n s row).mems :=
  hmTx_wf _ _ _ _ _ _ (fun s h => s.modBasin_wf n _ h fun _ hx => Mem.write_wf _ _ hx) h

@[simp] theorem writeRows_wf (n : BasinIx) (rows : List (Nat × List (Nat × Word))) (s : State) (h : memsWf s.mems) :
    memsWf (writeRows n rows s).mems :=
  foldl_wf _ (fun s row h => writeRow_wf n s row h) _ _ h

@[simp] theorem applyManifest_wf (n : BasinIx) (bs : List Binding) (man : List ManEntry) (s : State) (h : memsWf s.mems) :
    memsWf (applyManifest n bs man s).mems :=
  enableVital_wf bs man _ (foldl_wf _ (fun s e h => applyEntry_wf n bs s e h) _ _ h)

@[simp] theorem reapply_wf (n : BasinIx) (s : State) (h : memsWf s.mems) :
    memsWf (reapply n s).mems := by
  simp [reapply, h]

/-- What ROLE writes of memory is a basin's retained data again. -/
theorem roleState_wf (g : BargeIx) (run : Bool) (s : State) (h : memsWf s.mems) :
    memsWf (hmWrite (0x20070000 + 4 * (3 + g.val / 36)) 0 (writeHold g (!run)) (if run then reapply (basinOf g) s else s)).mems := by
  rw [hmWrite_mems _ _ _ _ fun s => writeHold_mems _ _ s]
  split
  · exact reapply_wf _ _ h
  · exact h

@[simp] theorem roleReply_wf (k : Fin 4) (c : FwCmd) (s : State) (h : memsWf s.mems) : memsWf (roleReply k c s).2.mems := by
  unfold roleReply
  split
  · exact h
  · extract_lets n run image s1
    have h1 : memsWf s1.mems := roleState_wf _ run s h
    clear_value s1
    split
    · exact h
    · refine withEpoch_wf _ _ _ _ _ h ?_
      split
      · exact h
      · split
        · exact h
        · split
          · simpa using h
          · split
            · simpa using h
            · split
              · exact h
              · exact h1

@[simp] theorem keeperReply_mems (word : Nat) (v : Word) (mismatch : Bool) (refused : State → Bool) (data : Bool) (s : State) :
    (keeperReply word v mismatch refused data s).2.mems = s.mems := by
  unfold keeperReply
  extract_lets s1
  repeat' split
  all_goals simp [s1]

@[simp] theorem loadEntry_mems (differ : List Nat) (k : Nat) (t : Fin 256) (ws : List Word) (s : State) :
    (loadEntry differ k t ws s).mems = s.mems := by
  simp [loadEntry]

@[simp] theorem reloadTask_mems (differ : List Nat) (t : Fin 256) (n : BasinIx) (s : State) :
    (reloadTask differ t n s).mems = s.mems := by
  simp [reloadTask]

@[simp] theorem taskReply_mems (k : Fin 4) (c : FwCmd) (s : State) (go : Fin 256 → BasinIx → Reply)
    (ready : Fin 256 → BasinIx → Option Nat) (hgo : ∀ t n, (go t n).2.mems = s.mems) :
    (taskReply k c s go ready).2.mems = s.mems := by
  unfold taskReply
  split
  · simp
  · split
    · refine withEpoch_mems _ _ _ _ _ ?_
      split
      · simp
      · split
        · simp
        · split
          · simp
          · exact hgo _ _
    · simp

@[simp] theorem taskStartReply_mems (k : Fin 4) (differ : List Nat) (c : FwCmd) (s : State) :
    (taskStartReply k differ c s).2.mems = s.mems :=
  taskReply_mems _ _ _ _ _ fun t n => by
    repeat' split
    all_goals simp

@[simp] theorem taskStopReply_mems (k : Fin 4) (mismatch : Bool) (c : FwCmd) (s : State) :
    (taskStopReply k mismatch c s).2.mems = s.mems :=
  taskReply_mems _ _ _ _ _ fun t n => by simp

@[simp] theorem keeperCmdReply_mems (k : Fin 4) (mismatch : Bool) (c : FwCmd) (s : State) :
    (keeperCmdReply k mismatch c s).2.mems = s.mems := by
  unfold keeperCmdReply
  extract_lets
  repeat' split
  all_goals simp

@[simp] theorem latTolReply_mems (k : Fin 4) (c : FwCmd) (s : State) : (latTolReply k c s).2.mems = s.mems := by
  unfold latTolReply
  extract_lets d t set
  have hset : ∀ s, (set s).mems = s.mems := fun s => by simp [set]
  clear_value set
  split
  · simp
  · split
    · split <;> simp [hset]
    · split <;> simp +zetaDelta [hset]

@[simp] theorem resetResource_mems (kind i : Nat) (s : State) :
    (resetResource kind i s).mems = s.mems := by
  unfold resetResource
  split <;> simp

@[simp] theorem resetReply_wf (k : Fin 4) (c : FwCmd) (s : State) (h : memsWf s.mems) :
    memsWf (resetReply k c s).2.mems := by
  unfold resetReply
  dsimp only
  repeat' split
  all_goals simp [h]

@[simp] theorem eventRouteReply_mems (c : FwCmd) (s : State) :
    (eventRouteReply c s).2.mems = s.mems := by
  unfold eventRouteReply
  dsimp only
  split <;> simp

@[simp] theorem setTimeReply_wf (c : FwCmd) (s : State) (h : memsWf s.mems) : memsWf (setTimeReply c s).2.mems := by
  unfold setTimeReply
  extract_lets set trimmed t put s1
  have hput : ∀ off v s, memsWf s.mems → memsWf (put off v s).mems := fun off v s h =>
    hmWrite_wf _ _ _ _ (fun s h => getD_wf _ s h (crpWrite_wf off v s h)) h
  have h1 : memsWf s1.mems := by
    simp only [s1]
    split
    · exact hput _ _ _ (hput _ _ _ h)
    · exact h
  clear_value put s1
  repeat' split
  all_goals simp [h, h1, hput]

@[simp] theorem resetHostReply_wf (c : FwCmd) (s : State) (h : memsWf s.mems) : memsWf (resetHostReply c s).2.mems :=
  hostScopeReset_wf s h

/-! ### The functions of Machine/Claims -/

@[simp] theorem writeClaim_wf (kind i : Nat) (n : BasinIx) (world : Bool) (ws : List Word) (s : State) (h : memsWf s.mems) :
    memsWf (writeClaim kind i n world ws s).mems :=
  foldl_wf _ (fun s e h => cfgWrite_wf _ _ _ _ _ (by simpa using h)) _ _ (setEn_wf _ _ _ _ h)

theorem enableAll_wf (l : List (Nat × Nat)) (s : State) (h : memsWf s.mems) : ∀ t ∈ enableAll l s, memsWf t.mems := by
  induction l generalizing s with
  | nil => simpa [enableAll] using h
  | cons x rest ih =>
    obtain ⟨kind, i⟩ := x
    unfold enableAll
    split
    · exact ih _ (setEn_wf _ _ _ _ h)
    · simp

@[simp] theorem ballChange_mems (i : Nat) (f : State → State) (s : State) (h : (f s).mems = s.mems) :
    (ballChange i f s).mems = s.mems := by
  unfold ballChange
  split <;> simp [h]

@[simp] theorem noteOwner_mems (kind i : Nat) (o : Option (BasinIx × Bool)) (fo : Bool) (s : State) :
    (noteOwner kind i o fo s).mems = s.mems := by
  unfold noteOwner
  split <;> simp

@[simp] theorem configured_wf (kind i : Nat) (n : BasinIx) (world : Bool) (ws : List Word) (s : State) (h : memsWf s.mems) :
    memsWf (configured kind i n world ws s).mems := by
  unfold configured
  dsimp only
  repeat' split
  all_goals simp [h]

@[simp] theorem grantClaim_mems (kind i : Nat) (n : BasinIx) (s : State) :
    (grantClaim kind i n s).mems = s.mems := by
  simp [grantClaim]

@[simp] theorem claimReply_wf (k : Fin 4) (c : FwCmd) (s : State) (h : memsWf s.mems) : memsWf (claimReply k c s).2.mems := by
  unfold claimReply
  dsimp only
  repeat' split
  all_goals simp [h]
  rename_i s2 hs2 _
  exact enableAll_wf _ _ (configured_wf _ _ _ _ _ _ h) s2 hs2

@[simp] theorem disown_wf (kind i : Nat) (s : State) (h : memsWf s.mems) : memsWf (disown kind i s).mems := by
  unfold disown
  rw [noteOwner_mems]
  refine foldl_wf _ (fun s k h => ?_) _ _ (setEn_wf _ _ _ _ h)
  split <;> simp [h]

@[simp] theorem releaseReply_wf (c : FwCmd) (s : State) (h : memsWf s.mems) : memsWf (releaseReply c s).2.mems := by
  unfold releaseReply
  extract_lets id kind i
  split
  · exact h
  · refine withEpoch_wf _ _ _ _ _ h ?_
    repeat' split
    all_goals simp [h]
    exact foldl_wf _ (fun s r hs => by simp [hs]) _ _ h

/-! ### The functions of Machine/Load -/

@[simp] theorem useKey_mems (j : LoadJob) (s : State) :
    (useKey j s).mems = s.mems := by
  simp [useKey]

@[simp] theorem putLine_mems (n : BasinIx) (key : Nat) (l : Option CodeLine) (s : State) :
    (putLine n key l s).mems = s.mems := by
  simp [putLine]

theorem nvpTx_mems (c : Fin 4) (j : Nat) (v : Word) (f : State → State) (s : State) (hf : ∀ s, (f s).mems = s.mems) :
    (nvpTx c j v f s).mems = s.mems := by
  unfold nvpTx hmWrite hmTx
  extract_lets t q s1 s2
  rw [takeResponse_mems]
  simp only [s2]
  split <;> simp [s1, hf]

@[simp] theorem nvpDone_mems (c : Fin 4) (n : BasinIx) (l : Nat × LineBits) (s : State) :
    (nvpDone c n l s).mems = s.mems := by
  simp [nvpDone]

@[simp] theorem programLine_mems (c : Fin 4) (n : BasinIx) (s : State) (l : Nat × LineBits) :
    (programLine c n s l).mems = s.mems := by
  unfold programLine
  extract_lets place put s1
  have hput : ∀ j v s, (put j v s).mems = s.mems := fun j v s =>
    nvpTx_mems _ _ _ _ _ fun t => getD_mems _ t (nvpWrite_mems _ v t)
  rw [nvpTx_mems _ _ _ _ _ (fun t => nvpDone_mems c n l t), hput]
  simp [s1, hput]

@[simp] theorem cutProgram_mems (n : BasinIx) (l : Nat × LineBits) (s : State) :
    (cutProgram n l s).mems = s.mems := by
  simp [cutProgram]

@[simp] theorem setImage_mems (n : BasinIx) (f : FwImage → FwImage) (s : State) :
    (setImage n f s).mems = s.mems := by
  simp [setImage]

@[simp] theorem writeSome_wf (ch : Fin 4) (j : LoadJob) (m : Nat) (s : State) (h : memsWf s.mems) :
    memsWf (writeSome ch j m s).mems := by
  unfold writeSome
  extract_lets c s1 s2
  have h2 : memsWf s2.mems := by
    simp only [s2]
    split <;> simp [s1, h]
  exact writeRows_wf _ _ _ h2

@[simp] theorem loadTask_mems (j : LoadJob) (usable : Bool) (r : Nat × State) (e : Nat × List Word) :
    (loadTask j usable r e).2.mems = r.2.mems := by
  unfold loadTask
  split <;> simp

@[simp] theorem writeAll_wf (ch : Fin 4) (j : LoadJob) (usable : Bool) (s : State) (h : memsWf s.mems) :
    memsWf (writeAll ch j usable s).mems := by
  have tasks : ∀ (l : List (Nat × List Word)) (r : Nat × State), (l.foldl (loadTask j usable) r).2.mems = r.2.mems := by
    intro l
    induction l with
    | nil => exact fun _ => rfl
    | cons e l ih => exact fun r => by rw [List.foldl_cons, ih, loadTask_mems]
  unfold writeAll
  extract_lets c s1 s2
  have h1 : memsWf s1.mems := by simpa [s1] using h
  have h2 : memsWf s2.mems := applyManifest_wf _ _ _ _ (writeRows_wf _ _ _ h1)
  split
  · exact h2
  · rw [tasks]
    simpa using h2

@[simp] theorem retainImage_mems (j : LoadJob) (s : State) :
    (retainImage j s).mems = s.mems := by
  simp [retainImage]

@[simp] theorem failLoad_mems (n : BasinIx) (a : Answer) (s : State) :
    (failLoad n a s).2.mems = s.mems := by
  simp [failLoad]

@[simp] theorem writingPass_wf (ch : Fin 4) (j : LoadJob) (writes : Option Nat) (how : HostEnd) (c : FwCmd) (s : State) (h : memsWf s.mems) :
    memsWf (writingPass ch j writes how c s).2.mems := by
  unfold writingPass
  dsimp only
  repeat' split
  all_goals simp [h]

@[simp] theorem loadRun_wf (j : LoadJob) (writes : Option Nat) (how : HostEnd) (c : FwCmd) (s0 : State) (h : memsWf s0.mems) :
    memsWf (loadRun j writes how c s0).2.mems := by
  unfold loadRun
  dsimp only
  repeat' split
  all_goals simp [h]

@[simp] theorem startLoad_mems (k : Fin 4) (j : LoadJob) (c : FwCmd) (s : State) :
    (startLoad k j c s).mems = s.mems := by
  simp [startLoad]

@[simp] theorem loadReply_wf (k : Fin 4) (bindings first second key : List Byte) (writes : Option Nat) (how : HostEnd) (differ : List Nat) (c : FwCmd) (s : State) (h : memsWf s.mems) :
    memsWf (loadReply k bindings first second key writes how differ c s).2.mems := by
  unfold loadReply
  dsimp only
  repeat' split
  all_goals simp [h]

end Sys2Proof.Machine
end

section
/-! Every memory keeps its canonical form over every step (O57). -/

namespace Sys2Proof.Machine
/-- Every next state of an outcome has its memories in their canonical form. -/
def Out.canonical (o : Out) : Prop := ∀ t, o = .next t → memsWf t.mems

section
variable {s : State} {dt : Nat} {f : State → State} (h : memsWf s.mems) (hf : ∀ s, memsWf s.mems → memsWf (f s).mems)
include h hf

theorem actPins_canonical : (actPins s dt f).canonical := by
  rintro t ⟨⟩
  exact hf _ (by simpa using h)

theorem act_canonical : (act s dt f).canonical := by
  intro t ht
  obtain ⟨-, rfl | rfl⟩ := act_cases s t dt f ht
  · simpa using h
  · exact hf _ (by simpa using h)

theorem bargeAct_canonical : (bargeAct s dt f).canonical :=
  act_canonical h fun s h => by simpa using hf s h

theorem keeperAct_canonical : (keeperAct s dt f).canonical :=
  act_canonical h fun s h => by simpa using hf s h

theorem crpAct_canonical : (crpAct s dt f).canonical :=
  act_canonical h fun s h => by simpa using hf s h

theorem registerAct_canonical : (registerAct s dt f).canonical :=
  act_canonical h fun s h => watchTrips_wf _ _ (fun s h => by simpa using hf s h) h

end

theorem gated_wf {c : State → Bool} {f : State → State} {s : State} (hf : ∀ s, memsWf s.mems → memsWf (f s).mems)
    (h : memsWf s.mems) : memsWf (gated c f s).mems := by
  unfold gated
  split
  · exact hf s h
  · exact h

theorem mailboxAct_canonical {s : State} {dt : Nat} {k : Fin 4} {op : BitVec 16} {reply : FwCmd → State → Reply}
    (h : memsWf s.mems) (hr : ∀ c s, memsWf s.mems → memsWf (reply c s).2.mems) :
    (registerAct s dt (runCommand k op reply)).canonical :=
  registerAct_canonical h fun s h => runCommand_wf k op reply s hr h

@[simp] theorem execWeirGroupEnable_canonical (dt : Nat) (g : Fin 48) (en : Bool) (s : State) (h : memsWf s.mems) :
    (execWeirGroupEnable dt g en s).canonical :=
  act_canonical h fun s h => by simp [h]

@[simp] theorem execWeirChannelEnable_canonical (dt : Nat) (n : Fin 384) (en : Bool) (s : State) (h : memsWf s.mems) :
    (execWeirChannelEnable dt n en s).canonical :=
  act_canonical h fun s h => watchTrips_wf _ _ (fun s h => weirSetEnable_wf n en s h) h

@[simp] theorem execMainSampleReady_canonical (dt : Nat) (n : Fin 384) (bits : List (Bool × Bool)) (upset : Bool) (s : State) (h : memsWf s.mems) :
    (execMainSampleReady dt n bits upset s).canonical :=
  act_canonical h fun s h => by simp [h]

@[simp] theorem execFastSample_canonical (dt : Nat) (n : Fin 384) (bits : List Bool) (s : State) (h : memsWf s.mems) :
    (execFastSample dt n bits s).canonical :=
  act_canonical h fun s h => by simp [h]

@[simp] theorem execDemodOutput_canonical (dt : Nat) (n : Fin 384) (upset : Bool) (s : State) (h : memsWf s.mems) :
    (execDemodOutput dt n upset s).canonical :=
  act_canonical h fun s h => by simp [h]

@[simp] theorem execRecordAccept_canonical (dt : Nat) (n : Fin 384) (s : State) (h : memsWf s.mems) :
    (execRecordAccept dt n s).canonical :=
  act_canonical h fun s h => by simp [h]

@[simp] theorem execWeirFreeze_canonical (dt : Nat) (task : Fin 256) (s : State) (h : memsWf s.mems) :
    (execWeirFreeze dt task s).canonical :=
  act_canonical h fun s h => by simp [h]

@[simp] theorem execHeaderWrite_canonical (dt : Nat) (n : Fin 384) (s : State) (h : memsWf s.mems) :
    (execHeaderWrite dt n s).canonical :=
  act_canonical h fun s h => by simp [h]

@[simp] theorem execStuckStream_canonical (dt : Nat) (n : Fin 384) (bits : List Bool) (s : State) (h : memsWf s.mems) :
    (execStuckStream dt n bits s).canonical :=
  act_canonical h fun s h => by simp [h]

@[simp] theorem execClockLoss_canonical (dt : Nat) (g : Fin 48) (s : State) (h : memsWf s.mems) :
    (execClockLoss dt g s).canonical :=
  act_canonical h fun s h => by simp [h]

@[simp] theorem execGrst_canonical (dt : Nat) (g : Fin 48) (s : State) (h : memsWf s.mems) :
    (execGrst dt g s).canonical :=
  act_canonical h fun s h => by simp [h]

@[simp] theorem execFthrWrite_canonical (dt : Nat) (n : Fin 384) (src : Writer) (value : Word) (s : State) (h : memsWf s.mems) :
    (execFthrWrite dt n src value s).canonical :=
  act_canonical h fun s h => by
    repeat' split
    all_goals simp [h]

@[simp] theorem execHrpwmStgWrite_canonical (dt : Nat) (n : Fin 192) (src : StgWriter) (value : Word) (s : State) (h : memsWf s.mems) :
    (execHrpwmStgWrite dt n src value s).canonical :=
  act_canonical h fun s h => by
    repeat' split
    all_goals simp [h]

@[simp] theorem execHrpwmCommit_canonical (dt : Nat) (disagree : List (Fin 192)) (s : State) (h : memsWf s.mems) :
    (execHrpwmCommit dt disagree s).canonical :=
  act_canonical h fun s h => by
    repeat' split
    all_goals simp [h]

@[simp] theorem execTimebaseEnable_canonical (dt : Nat) (m : Fin 16) (en : Bool) (s : State) (h : memsWf s.mems) :
    (execTimebaseEnable dt m en s).canonical :=
  act_canonical h fun s h => by simp [h]

@[simp] theorem execPeriodBoundary_canonical (dt : Nat) (m : Fin 16) (s : State) (h : memsWf s.mems) :
    (execPeriodBoundary dt m s).canonical :=
  act_canonical h fun s h => by simp [h]

@[simp] theorem execZxmissExpiry_canonical (dt : Nat) (m : Fin 16) (s : State) (h : memsWf s.mems) :
    (execZxmissExpiry dt m s).canonical :=
  act_canonical h fun s h => by simp [h]

@[simp] theorem execHrpwmChannelEnable_canonical (dt : Nat) (n : Fin 192) (en : Bool) (s : State) (h : memsWf s.mems) :
    (execHrpwmChannelEnable dt n en s).canonical :=
  act_canonical h fun s h => by simp [h]

@[simp] theorem execTripZoneChange_canonical (dt : Nat) (z : Fin 32) (s : State) (h : memsWf s.mems) :
    (execTripZoneChange dt z s).canonical :=
  act_canonical h fun s h => by simp [h]

@[simp] theorem execTripclr_canonical (dt : Nat) (n : Fin 192) (src : Writer) (s : State) (h : memsWf s.mems) :
    (execTripclr dt n src s).canonical :=
  act_canonical h fun s h => by
    repeat' split
    all_goals simp [h]

@[simp] theorem execHrpwmReadbackSample_canonical (dt : Nat) (n : Fin 192) (level : Bool) (s : State) (h : memsWf s.mems) :
    (execHrpwmReadbackSample dt n level s).canonical :=
  act_canonical h fun s h => by simp [h]

@[simp] theorem execHrpwmCrst_canonical (dt : Nat) (n : Fin 192) (s : State) (h : memsWf s.mems) :
    (execHrpwmCrst dt n s).canonical :=
  act_canonical h fun s h => by simp [h]

@[simp] theorem execResWrite_canonical (dt : Nat) (value : Bool) (s : State) (h : memsWf s.mems) :
    (execResWrite dt value s).canonical :=
  act_canonical h fun s h => by simp [h]

@[simp] theorem execCalibrationLock_canonical (dt : Nat) (s : State) (h : memsWf s.mems) :
    (execCalibrationLock dt s).canonical :=
  act_canonical h fun s h => by simp [h]

@[simp] theorem execFoStgWrite_canonical (dt : Nat) (n : Fin 128) (src : StgWriter) (value : Word) (s : State) (h : memsWf s.mems) :
    (execFoStgWrite dt n src value s).canonical :=
  act_canonical h fun s h => by
    repeat' split
    all_goals simp [h]

@[simp] theorem execFoCommit_canonical (dt : Nat) (disagree : List (Fin 128)) (s : State) (h : memsWf s.mems) :
    (execFoCommit dt disagree s).canonical :=
  act_canonical h fun s h => by
    repeat' split
    all_goals simp [h]

@[simp] theorem execFiRawChange_canonical (dt : Nat) (n : Fin 128) (pad : Bool) (s : State) (h : memsWf s.mems) :
    (execFiRawChange dt n pad s).canonical :=
  act_canonical h fun s h => by simp [h]

@[simp] theorem execFiAccept_canonical (dt : Nat) (n : Fin 128) (s : State) (h : memsWf s.mems) :
    (execFiAccept dt n s).canonical :=
  act_canonical h fun s h => by simp [h]

@[simp] theorem execFiFreeze_canonical (dt : Nat) (task : Fin 256) (s : State) (h : memsWf s.mems) :
    (execFiFreeze dt task s).canonical :=
  act_canonical h fun s h => by simp [h]

@[simp] theorem execPairDiscrepancy_canonical (dt : Nat) (m : Fin 64) (s : State) (h : memsWf s.mems) :
    (execPairDiscrepancy dt m s).canonical :=
  act_canonical h fun s h => by simp [h]

@[simp] theorem execFret_canonical (dt : Nat) (n : Fin 128) (s : State) (h : memsWf s.mems) :
    (execFret dt n s).canonical :=
  act_canonical h fun s h => by simp [h]

@[simp] theorem execFiCrst_canonical (dt : Nat) (n : Fin 128) (s : State) (h : memsWf s.mems) :
    (execFiCrst dt n s).canonical :=
  act_canonical h fun s h => by simp [h]

@[simp] theorem execFiEnable_canonical (dt : Nat) (n : Fin 128) (en : Bool) (s : State) (h : memsWf s.mems) :
    (execFiEnable dt n en s).canonical :=
  act_canonical h fun s h => by simp [h]

@[simp] theorem execFoEnable_canonical (dt : Nat) (n : Fin 128) (en : Bool) (s : State) (h : memsWf s.mems) :
    (execFoEnable dt n en s).canonical :=
  act_canonical h fun s h => by simp [h]

@[simp] theorem execFoReadbackSample_canonical (dt : Nat) (n : Fin 128) (level : Bool) (s : State) (h : memsWf s.mems) :
    (execFoReadbackSample dt n level s).canonical :=
  act_canonical h fun s h => by simp [h]

@[simp] theorem execOffTestStart_canonical (dt : Nat) (n : Fin 64) (s : State) (h : memsWf s.mems) :
    (execOffTestStart dt n s).canonical :=
  act_canonical h fun s h => by simp [h]

@[simp] theorem execOffTestEnd_canonical (dt : Nat) (n : Fin 64) (level : Bool) (s : State) (h : memsWf s.mems) :
    (execOffTestEnd dt n level s).canonical :=
  act_canonical h fun s h => by simp [h]

@[simp] theorem execFoCrst_canonical (dt : Nat) (n : Fin 128) (s : State) (h : memsWf s.mems) :
    (execFoCrst dt n s).canonical :=
  act_canonical h fun s h => by simp [h]

@[simp] theorem execScrubAccess_canonical (dt : Nat) (bank : ScrubBank) (rivals : List Rival) (s : State) (h : memsWf s.mems) :
    (execScrubAccess dt bank rivals s).canonical :=
  act_canonical h fun s h => by
    repeat' split
    all_goals simp [h]

@[simp] theorem execNvpProgram_canonical (dt : Nat) (c : Fin 4) (s : State) (h : memsWf s.mems) :
    (execNvpProgram dt c s).canonical :=
  act_canonical h fun s h => by simp [h]

@[simp] theorem execNvpBlank_canonical (dt : Nat) (c : Fin 4) (s : State) (h : memsWf s.mems) :
    (execNvpBlank dt c s).canonical :=
  act_canonical h fun s h => by simp [h]

@[simp] theorem execNvpComplete_canonical (dt : Nat) (c : Fin 4) (verified : Bool) (s : State) (h : memsWf s.mems) :
    (execNvpComplete dt c verified s).canonical :=
  act_canonical h fun s h => by simp [h]

@[simp] theorem execWharfAccept_canonical (dt : Nat) (init : Fin 16) (tx : Tx) (s : State) (h : memsWf s.mems) :
    (execWharfAccept dt init tx s).canonical :=
  act_canonical h fun s h => by simp [h]

@[simp] theorem execWharfCntclr_canonical (dt : Nat) (s : State) (h : memsWf s.mems) :
    (execWharfCntclr dt s).canonical :=
  act_canonical h fun s h => by simp [h]

@[simp] theorem execTlStgWrite_canonical (dt : Nat) (l : Fin 16) (slot : Fin 64) (src : StgWriter) (value : Word) (s : State) (h : memsWf s.mems) :
    (execTlStgWrite dt l slot src value s).canonical :=
  act_canonical h fun s h => by
    repeat' split
    all_goals simp [h]

@[simp] theorem execTlCommit_canonical (dt : Nat) (l : Fin 16) (disagree : Bool) (s : State) (h : memsWf s.mems) :
    (execTlCommit dt l disagree s).canonical :=
  act_canonical h fun s h => by
    repeat' split
    all_goals simp [h]

@[simp] theorem execRecordWrite_canonical (dt : Nat) (basin : BasinIx) (bank : Bool) (s : State) (h : memsWf s.mems) :
    (execRecordWrite dt basin bank s).canonical :=
  act_canonical h fun s h => by simp [h]

@[simp] theorem execTlLinkEnable_canonical (dt : Nat) (l : Fin 16) (en : Bool) (s : State) (h : memsWf s.mems) :
    (execTlLinkEnable dt l en s).canonical :=
  act_canonical h fun s h => by simp [h]

@[simp] theorem execRxLock_canonical (dt : Nat) (l : Fin 16) (chars : List Bool) (s : State) (h : memsWf s.mems) :
    (execRxLock dt l chars s).canonical :=
  act_canonical h fun s h => by simp [h]

@[simp] theorem execLockLoss_canonical (dt : Nat) (l : Fin 16) (chars : List Bool) (s : State) (h : memsWf s.mems) :
    (execLockLoss dt l chars s).canonical :=
  act_canonical h fun s h => by simp [h]

@[simp] theorem execCapResend_canonical (dt : Nat) (l : Fin 16) (s : State) (h : memsWf s.mems) :
    (execCapResend dt l s).canonical :=
  act_canonical h fun s h => by simp [h]

@[simp] theorem execFrameReceive_canonical (dt : Nat) (l : Fin 16) (units : List Word) (aborted : Bool) (s : State) (h : memsWf s.mems) :
    (execFrameReceive dt l units aborted s).canonical :=
  act_canonical h fun s h => by simp [h]

@[simp] theorem execAckTimeout_canonical (dt : Nat) (l : Fin 16) (s : State) (h : memsWf s.mems) :
    (execAckTimeout dt l s).canonical :=
  act_canonical h fun s h => by simp [h]

@[simp] theorem execRxtoExpiry_canonical (dt : Nat) (l : Fin 16) (s : State) (h : memsWf s.mems) :
    (execRxtoExpiry dt l s).canonical :=
  act_canonical h fun s h => by simp [h]

@[simp] theorem execOutFrameSend_canonical (dt : Nat) (l : Fin 16) (s : State) (h : memsWf s.mems) :
    (execOutFrameSend dt l s).canonical :=
  act_canonical h fun s h => by simp [h]

@[simp] theorem execSafeFrameSend_canonical (dt : Nat) (l : Fin 16) (s : State) (h : memsWf s.mems) :
    (execSafeFrameSend dt l s).canonical :=
  act_canonical h fun s h => by simp [h]

@[simp] theorem execPoisonRecord_canonical (dt : Nat) (l : Fin 16) (s : State) (h : memsWf s.mems) :
    (execPoisonRecord dt l s).canonical :=
  act_canonical h fun s h => by simp [h]

@[simp] theorem execTlFreeze_canonical (dt : Nat) (task : Fin 256) (s : State) (h : memsWf s.mems) :
    (execTlFreeze dt task s).canonical :=
  act_canonical h fun s h => by simp [h]

@[simp] theorem execTlMtxGo_canonical (dt : Nat) (l : Fin 16) (s : State) (h : memsWf s.mems) :
    (execTlMtxGo dt l s).canonical :=
  act_canonical h fun s h => by simp [h]

@[simp] theorem execLrst_canonical (dt : Nat) (l : Fin 16) (s : State) (h : memsWf s.mems) :
    (execLrst dt l s).canonical :=
  act_canonical h fun s h => by simp [h]

@[simp] theorem execTargetResponse_canonical (dt : Nat) (init : Fin 16) (id : BitVec 5) (s : State) (h : memsWf s.mems) :
    (execTargetResponse dt init id s).canonical :=
  act_canonical h fun s h => by split <;> simp [h]

@[simp] theorem execGroupSafeOrder_canonical (dt : Nat) (block : OutBlock) (s : State) (h : memsWf s.mems) :
    (execGroupSafeOrder dt block s).canonical :=
  act_canonical h fun s h => by
    repeat' split
    all_goals simp [h]

@[simp] theorem execKeeperCycleStart_canonical (dt : Nat) (task : Fin 256) (s : State) (h : memsWf s.mems) :
    (execKeeperCycleStart dt task s).canonical :=
  keeperAct_canonical h fun s h => by simp [h]

@[simp] theorem execSealArrival_canonical (dt : Nat) (g : BargeIx) (crcOk disagree : Bool) (s : State) (h : memsWf s.mems) :
    (execSealArrival dt g crcOk disagree s).canonical :=
  keeperAct_canonical h fun s h => by simp [h]

@[simp] theorem execFaultReportArrival_canonical (dt : Nat) (g : BargeIx) (crcOk : Bool) (s : State) (h : memsWf s.mems) :
    (execFaultReportArrival dt g crcOk s).canonical :=
  keeperAct_canonical h fun s h => by simp [h]

@[simp] theorem execResetReportArrival_canonical (dt : Nat) (g : BargeIx) (crcOk : Bool) (s : State) (h : memsWf s.mems) :
    (execResetReportArrival dt g crcOk s).canonical :=
  keeperAct_canonical h fun s h => by simp [h]

@[simp] theorem execDecision_canonical (dt : Nat) (task : Fin 256) (s : State) (h : memsWf s.mems) :
    (execDecision dt task s).canonical :=
  keeperAct_canonical h fun s h => by simp [h]

@[simp] theorem execWindowClose_canonical (dt : Nat) (task : Fin 256) (s : State) (h : memsWf s.mems) :
    (execWindowClose dt task s).canonical :=
  keeperAct_canonical h fun s h => by simp [h]

@[simp] theorem execRetryRequest_canonical (dt : Nat) (task : Fin 256) (s : State) (h : memsWf s.mems) :
    (execRetryRequest dt task s).canonical :=
  keeperAct_canonical h fun s h => by simp [h]

@[simp] theorem execLockGateOpen_canonical (dt : Nat) (task : Fin 256) (s : State) (h : memsWf s.mems) :
    (execLockGateOpen dt task s).canonical :=
  keeperAct_canonical h fun s h => by simp [h]

@[simp] theorem execChannelRetirementReport_canonical (dt : Nat) (s : State) (h : memsWf s.mems) :
    (execChannelRetirementReport dt s).canonical :=
  keeperAct_canonical h fun s h => by simp [h]

@[simp] theorem execKeeperSelfTest_canonical (dt : Nat) (pass : Bool) (s : State) (h : memsWf s.mems) :
    (execKeeperSelfTest dt pass s).canonical :=
  keeperAct_canonical h fun s h => by simp [h]

@[simp] theorem execKclkMonitorWindow_canonical (dt : Nat) (count : Nat) (s : State) (h : memsWf s.mems) :
    (execKclkMonitorWindow dt count s).canonical :=
  keeperAct_canonical h fun s h => by simp [h]

@[simp] theorem execNoCrystalEdge_canonical (dt : Nat) (s : State) (h : memsWf s.mems) :
    (execNoCrystalEdge dt s).canonical :=
  keeperAct_canonical h fun s h => by simp [h]

@[simp] theorem execSafeHalfPeriod_canonical (dt : Nat) (padA padB : Bool) (s : State) (h : memsWf s.mems) :
    (execSafeHalfPeriod dt padA padB s).canonical :=
  keeperAct_canonical h fun s h => by simp [h]

@[simp] theorem execArm_canonical (dt : Nat) (arg : BitVec 8) (hm1 : LoadWrite) (s : State) (h : memsWf s.mems) :
    (execArm dt arg hm1 s).canonical :=
  keeperAct_canonical h fun s h => by simp [h]

@[simp] theorem execRun_canonical (dt : Nat) (arg : BitVec 8) (hm1 : LoadWrite) (s : State) (h : memsWf s.mems) :
    (execRun dt arg hm1 s).canonical :=
  keeperAct_canonical h fun s h => by simp [h]

@[simp] theorem execStartTask_canonical (dt : Nat) (arg : BitVec 8) (hm1 : LoadWrite) (s : State) (h : memsWf s.mems) :
    (execStartTask dt arg hm1 s).canonical :=
  keeperAct_canonical h fun s h => by simp [h]

@[simp] theorem execStopTask_canonical (dt : Nat) (arg : BitVec 8) (hm1 : LoadWrite) (s : State) (h : memsWf s.mems) :
    (execStopTask dt arg hm1 s).canonical :=
  keeperAct_canonical h fun s h => by simp [h]

@[simp] theorem execRetireBarge_canonical (dt : Nat) (arg : BitVec 8) (hm1 : LoadWrite) (s : State) (h : memsWf s.mems) :
    (execRetireBarge dt arg hm1 s).canonical :=
  keeperAct_canonical h fun s h => by simp [h]

@[simp] theorem execForceSafe_canonical (dt : Nat) (arg : BitVec 8) (hm1 : LoadWrite) (s : State) (h : memsWf s.mems) :
    (execForceSafe dt arg hm1 s).canonical :=
  keeperAct_canonical h fun s h => by simp [h]

@[simp] theorem execClearFc_canonical (dt : Nat) (arg : BitVec 8) (hm1 : LoadWrite) (s : State) (h : memsWf s.mems) :
    (execClearFc dt arg hm1 s).canonical :=
  keeperAct_canonical h fun s h => by simp [h]

@[simp] theorem execRestoreBarge_canonical (dt : Nat) (arg : BitVec 8) (hm1 : LoadWrite) (s : State) (h : memsWf s.mems) :
    (execRestoreBarge dt arg hm1 s).canonical :=
  keeperAct_canonical h fun s h => by simp [h]

@[simp] theorem execClearDegraded_canonical (dt : Nat) (arg : BitVec 8) (hm1 : LoadWrite) (s : State) (h : memsWf s.mems) :
    (execClearDegraded dt arg hm1 s).canonical :=
  keeperAct_canonical h fun s h => by simp [h]

@[simp] theorem execKpDseedWrite_canonical (dt : Nat) (hm0 : Word) (hm1 : LoadWrite) (s : State) (h : memsWf s.mems) :
    (execKpDseedWrite dt hm0 hm1 s).canonical :=
  keeperAct_canonical h fun s h => by simp [h]

@[simp] theorem execKpCfgWrite_canonical (dt : Nat) (hm0 : Word) (hm1 : LoadWrite) (s : State) (h : memsWf s.mems) :
    (execKpCfgWrite dt hm0 hm1 s).canonical :=
  keeperAct_canonical h fun s h => by simp [h]

@[simp] theorem execTaskEntryWrite_canonical (dt : Nat) (task : Fin 256) (word : Fin 16) (hm0 : Word) (hm1 : LoadWrite) (s : State) (h : memsWf s.mems) :
    (execTaskEntryWrite dt task word hm0 hm1 s).canonical :=
  keeperAct_canonical h fun s h => by simp [h]

@[simp] theorem execKpLogRead_canonical (dt : Nat) (s : State) (h : memsWf s.mems) :
    (execKpLogRead dt s).canonical :=
  act_canonical h fun s h => by simp [h]

@[simp] theorem execInstructionIssue_canonical (dt : Nat) (g : BargeIx) (rivals : List Rival) (s : State) (h : memsWf s.mems) :
    (execInstructionIssue dt g rivals s).canonical :=
  bargeAct_canonical h fun s h => by simp [h]

@[simp] theorem execIdleCount_canonical (dt : Nat) (g : BargeIx) (s : State) (h : memsWf s.mems) :
    (execIdleCount dt g s).canonical :=
  bargeAct_canonical h fun s h => by simp [h]

@[simp] theorem execResultDelivery_canonical (dt : Nat) (g : BargeIx) (split : Bool) (s : State) (h : memsWf s.mems) :
    (execResultDelivery dt g split s).canonical :=
  bargeAct_canonical h fun s h => by simp [h]

@[simp] theorem execStoreBufferDrain_canonical (dt : Nat) (g : BargeIx) (rivals : List Rival) (s : State) (h : memsWf s.mems) :
    (execStoreBufferDrain dt g rivals s).canonical :=
  act_canonical h fun s h => gated_wf (fun s h => drainStore_wf g rivals s h) h

@[simp] theorem execXluDepart_canonical (dt : Nat) (g : BargeIx) (s : State) (h : memsWf s.mems) :
    (execXluDepart dt g s).canonical :=
  act_canonical h fun s h => by simp [h]

@[simp] theorem execXluResponse_canonical (dt : Nat) (g : BargeIx) (s : State) (h : memsWf s.mems) :
    (execXluResponse dt g s).canonical :=
  act_canonical h fun s h => by simp [h]

@[simp] theorem execRptElement_canonical (dt : Nat) (g : BargeIx) (rivals : List Rival) (s : State) (h : memsWf s.mems) :
    (execRptElement dt g rivals s).canonical :=
  bargeAct_canonical h fun s h => by simp [h]

@[simp] theorem execIouComplete_canonical (dt : Nat) (g : BargeIx) (s : State) (h : memsWf s.mems) :
    (execIouComplete dt g s).canonical :=
  act_canonical h fun s h => gated_wf (fun s h => completeIou_wf g s h) h

@[simp] theorem execCntWaitEnd_canonical (dt : Nat) (g : BargeIx) (s : State) (h : memsWf s.mems) :
    (execCntWaitEnd dt g s).canonical :=
  act_canonical h fun s h => by simp [h]

@[simp] theorem execGateEntry_canonical (dt : Nat) (g : BargeIx) (s : State) (h : memsWf s.mems) :
    (execGateEntry dt g s).canonical :=
  bargeAct_canonical h fun s h => by simp [h]

@[simp] theorem execGateReturn_canonical (dt : Nat) (g : BargeIx) (s : State) (h : memsWf s.mems) :
    (execGateReturn dt g s).canonical :=
  bargeAct_canonical h fun s h => by simp [h]

@[simp] theorem execSyncEffect_canonical (dt : Nat) (g : BargeIx) (s : State) (h : memsWf s.mems) :
    (execSyncEffect dt g s).canonical :=
  bargeAct_canonical h fun s h => by simp [h]

@[simp] theorem execSealDepart_canonical (dt : Nat) (g : BargeIx) (s : State) (h : memsWf s.mems) :
    (execSealDepart dt g s).canonical :=
  act_canonical h fun s h => by simp [h]

@[simp] theorem execLineReadDeliver_canonical (dt : Nat) (n : BasinIx) (k way : Fin 4) (s : State) (h : memsWf s.mems) :
    (execLineReadDeliver dt n k way s).canonical :=
  act_canonical h fun s h => by simp [h]

@[simp] theorem execPatrolRead_canonical (dt : Nat) (n : BasinIx) (k way : Fin 4) (s : State) (h : memsWf s.mems) :
    (execPatrolRead dt n k way s).canonical :=
  act_canonical h fun s h => by simp [h]

@[simp] theorem execCodeWindowRead_canonical (dt : Nat) (g : BargeIx) (s : State) (h : memsWf s.mems) :
    (execCodeWindowRead dt g s).canonical :=
  act_canonical h fun s h => by simp [h]

@[simp] theorem execInterruptEntry_canonical (dt : Nat) (g : BargeIx) (s : State) (h : memsWf s.mems) :
    (execInterruptEntry dt g s).canonical :=
  bargeAct_canonical h fun s h => by simp [h]

@[simp] theorem execTcmpWrite_canonical (dt : Nat) (g : BargeIx) (k : Fin 4) (value : Word) (s : State) (h : memsWf s.mems) :
    (execTcmpWrite dt g k value s).canonical :=
  bargeAct_canonical h fun s h => by simp [h]

@[simp] theorem execTcmpReached_canonical (dt : Nat) (g : BargeIx) (k : Fin 4) (s : State) (h : memsWf s.mems) :
    (execTcmpReached dt g k s).canonical :=
  act_canonical h fun s h => by simp [h]

@[simp] theorem execIntcSwiWrite_canonical (dt : Nat) (g : BargeIx) (value : Word) (s : State) (h : memsWf s.mems) :
    (execIntcSwiWrite dt g value s).canonical :=
  bargeAct_canonical h fun s h => by simp [h]

@[simp] theorem execBasinDbellWrite_canonical (dt : Nat) (n : BasinIx) (src : Writer) (value : Word) (s : State) (h : memsWf s.mems) :
    (execBasinDbellWrite dt n src value s).canonical :=
  bargeAct_canonical h fun s h => by
    repeat' split
    all_goals simp [h]

@[simp] theorem execBankOwnWrite_canonical (dt : Nat) (n : BasinIx) (b : BankIx) (src : Writer) (value : Word) (s : State) (h : memsWf s.mems) :
    (execBankOwnWrite dt n b src value s).canonical :=
  bargeAct_canonical h fun s h => by
    repeat' split
    all_goals simp [h]

@[simp] theorem execCodemapWrite_canonical (dt : Nat) (n : BasinIx) (p : Fin 4) (src : Writer) (value : Word) (s : State) (h : memsWf s.mems) :
    (execCodemapWrite dt n p src value s).canonical :=
  bargeAct_canonical h fun s h => by
    repeat' split
    all_goals simp [h]

@[simp] theorem execBcPswWrite_canonical (dt : Nat) (g : BargeIx) (value : Word) (s : State) (h : memsWf s.mems) :
    (execBcPswWrite dt g value s).canonical :=
  bargeAct_canonical h fun s h => by simp [h]

@[simp] theorem execUnitContextWrite_canonical (dt : Nat) (g : BargeIx) (word : BitVec 5) (value : Word) (s : State) (h : memsWf s.mems) :
    (execUnitContextWrite dt g word value s).canonical :=
  bargeAct_canonical h fun s h => by simp [h]

@[simp] theorem execDateArrival_canonical (dt : Nat) (g : BargeIx) (s : State) (h : memsWf s.mems) :
    (execDateArrival dt g s).canonical :=
  act_canonical h fun s h => by simp [h]

@[simp] theorem execRetryRequestArrival_canonical (dt : Nat) (g : BargeIx) (s : State) (h : memsWf s.mems) :
    (execRetryRequestArrival dt g s).canonical :=
  act_canonical h fun s h => by simp [h]

@[simp] theorem execDecisionNoticeArrival_canonical (dt : Nat) (g : BargeIx) (s : State) (h : memsWf s.mems) :
    (execDecisionNoticeArrival dt g s).canonical :=
  act_canonical h fun s h => by simp [h]

@[simp] theorem execHaltEntry_canonical (dt : Nat) (g : BargeIx) (s : State) (h : memsWf s.mems) :
    (execHaltEntry dt g s).canonical :=
  bargeAct_canonical h fun s h => by simp [h]

@[simp] theorem execDbgHalt_canonical (dt : Nat) (g : BargeIx) (s : State) (h : memsWf s.mems) :
    (execDbgHalt dt g s).canonical :=
  act_canonical h fun s h => by simp [h]

@[simp] theorem execDbgResume_canonical (dt : Nat) (g : BargeIx) (s : State) (h : memsWf s.mems) :
    (execDbgResume dt g s).canonical :=
  act_canonical h fun s h => by simp [h]

@[simp] theorem execDbgStep_canonical (dt : Nat) (g : BargeIx) (rivals : List Rival) (s : State) (h : memsWf s.mems) :
    (execDbgStep dt g rivals s).canonical :=
  bargeAct_canonical h fun s h => by simp [h]

@[simp] theorem execDbgPcWrite_canonical (dt : Nat) (g : BargeIx) (value : Word) (s : State) (h : memsWf s.mems) :
    (execDbgPcWrite dt g value s).canonical :=
  act_canonical h fun s h => by simp [h]

@[simp] theorem execDbgRegdataWrite_canonical (dt : Nat) (g : BargeIx) (value : Word) (s : State) (h : memsWf s.mems) :
    (execDbgRegdataWrite dt g value s).canonical :=
  act_canonical h fun s h => by simp [h]

@[simp] theorem execPllLock_canonical (dt : Nat) (p : PllIx) (s : State) (h : memsWf s.mems) :
    (execPllLock dt p s).canonical :=
  crpAct_canonical h fun s h => by simp [h]

@[simp] theorem execPllLockLoss_canonical (dt : Nat) (p : PllIx) (s : State) (h : memsWf s.mems) :
    (execPllLockLoss dt p s).canonical :=
  crpAct_canonical h fun s h => by simp [h]

@[simp] theorem execClockMonitorWindow_canonical (dt : Nat) (clk : Clk) (count : Nat) (s : State) (h : memsWf s.mems) :
    (execClockMonitorWindow dt clk count s).canonical :=
  crpAct_canonical h fun s h => by simp [h]

@[simp] theorem execSupplyFault_canonical (dt : Nat) (rail : Rail) (inRange : Bool) (s : State) (h : memsWf s.mems) :
    (execSupplyFault dt rail inRange s).canonical :=
  crpAct_canonical h fun s h => by split <;> simp [h]

@[simp] theorem execKeeperPowerOn_canonical (dt : Nat) (s : State) (h : memsWf s.mems) :
    (execKeeperPowerOn dt s).canonical :=
  actPins_canonical h fun s h => by simp [h]

@[simp] theorem execKeeperPowerOnReset_canonical (dt : Nat) (s : State) (h : memsWf s.mems) :
    (execKeeperPowerOnReset dt s).canonical :=
  actPins_canonical h fun s h => by simp [h]

@[simp] theorem execColdReset_canonical (dt : Nat) (pins : Pins) (levels : BitVec 12) (s : State) (h : memsWf s.mems) :
    (execColdReset dt pins levels s).canonical :=
  actPins_canonical h fun s h => by simp [h]

@[simp] theorem execColdResetAssert_canonical (dt : Nat) (rail : Rail) (s : State) (h : memsWf s.mems) :
    (execColdResetAssert dt rail s).canonical :=
  actPins_canonical h fun s h => by simp [h]

@[simp] theorem execResetNPulse_canonical (dt : Nat) (width : Nat) (pins : Pins) (s : State) (h : memsWf s.mems) :
    (execResetNPulse dt width pins s).canonical :=
  actPins_canonical h fun s h => by simp [h]

@[simp] theorem execRstcmdWarm_canonical (dt : Nat) (value : Word) (pins : Pins) (s : State) (h : memsWf s.mems) :
    (execRstcmdWarm dt value pins s).canonical :=
  crpAct_canonical h fun s h => by simp [h]

@[simp] theorem execLockstepMismatch_canonical (dt : Nat) (pins : Pins) (s : State) (h : memsWf s.mems) :
    (execLockstepMismatch dt pins s).canonical :=
  crpAct_canonical h fun s h => by simp [h]

@[simp] theorem execBasinReset_canonical (dt : Nat) (n : BasinIx) (s : State) (h : memsWf s.mems) :
    (execBasinReset dt n s).canonical :=
  act_canonical h fun s h => watchTrips_wf _ _ (fun s h => by simp [h]) h

@[simp] theorem execBargeResetCmd_canonical (dt : Nat) (g : BargeIx) (s : State) (h : memsWf s.mems) :
    (execBargeResetCmd dt g s).canonical :=
  act_canonical h fun s h => by simp [h]

@[simp] theorem execBholdWrite_canonical (dt : Nat) (high : Bool) (value : Word) (s : State) (h : memsWf s.mems) :
    (execBholdWrite dt high value s).canonical :=
  act_canonical h fun s h => by simp [h]

@[simp] theorem execStsetWrite_canonical (dt : Nat) (value : Word) (s : State) (h : memsWf s.mems) :
    (execStsetWrite dt value s).canonical :=
  act_canonical h fun s h => by simp [h]

@[simp] theorem execStationTimeTrim_canonical (dt : Nat) (s : State) (h : memsWf s.mems) :
    (execStationTimeTrim dt s).canonical :=
  act_canonical h fun s h => by simp [h]

@[simp] theorem execBpwrReqWrite_canonical (dt : Nat) (n : BasinIx) (value : Word) (s : State) (h : memsWf s.mems) :
    (execBpwrReqWrite dt n value s).canonical :=
  act_canonical h fun s h => by simp [h]

@[simp] theorem execB1Entry_canonical (dt : Nat) (n : BasinIx) (s : State) (h : memsWf s.mems) :
    (execB1Entry dt n s).canonical :=
  act_canonical h fun s h => by simp [h]

@[simp] theorem execB1Wake_canonical (dt : Nat) (n : BasinIx) (s : State) (h : memsWf s.mems) :
    (execB1Wake dt n s).canonical :=
  act_canonical h fun s h => by simp [h]

@[simp] theorem execPowerTransitionComplete_canonical (dt : Nat) (n : BasinIx) (s : State) (h : memsWf s.mems) :
    (execPowerTransitionComplete dt n s).canonical :=
  crpAct_canonical h fun s h => by simp [h]

@[simp] theorem execThermalConversion_canonical (dt : Nat) (readings : List (BitVec 12 × Bool)) (s : State) (h : memsWf s.mems) :
    (execThermalConversion dt readings s).canonical :=
  crpAct_canonical h fun s h => by simp [h]

@[simp] theorem execBootVerify_canonical (dt : Nat) (firmware sig : List Byte) (s : State) (h : memsWf s.mems) :
    (execBootVerify dt firmware sig s).canonical :=
  crpAct_canonical h fun s h => by simp [h]

@[simp] theorem execMuartRecovery_canonical (dt : Nat) (firmware sig : List Byte) (s : State) (h : memsWf s.mems) :
    (execMuartRecovery dt firmware sig s).canonical :=
  crpAct_canonical h fun s h => by simp [h]

@[simp] theorem execBasinSelfTestComplete_canonical (dt : Nat) (n : BasinIx) (defects : List (Fin 16 × Fin 348)) (s : State) (h : memsWf s.mems) :
    (execBasinSelfTestComplete dt n defects s).canonical :=
  crpAct_canonical h fun s h => by simp [h]

@[simp] theorem execReservoirSelfTestComplete_canonical (dt : Nat) (p : Fin 4) (defects : List (Fin 4 × Fin 348)) (s : State) (h : memsWf s.mems) :
    (execReservoirSelfTestComplete dt p defects s).canonical :=
  crpAct_canonical h fun s h => by simp [h]

@[simp] theorem execHifDbellWrite_canonical (dt : Nat) (value : Dword) (tlp : HostFlags) (s : State) (h : memsWf s.mems) :
    (execHifDbellWrite dt value tlp s).canonical :=
  act_canonical h fun s h => by simp [h]

@[simp] theorem execMailboxWrite_canonical (dt : Nat) (k : Fin 4) (data : HostBytes) (s : State) (h : memsWf s.mems) :
    (execMailboxWrite dt k data s).canonical :=
  act_canonical h fun s h => by simp [h]

@[simp] theorem execHifRciWrite_canonical (dt : Nat) (r : Fin 4) (value : Dword) (tlp : HostFlags) (s : State) (h : memsWf s.mems) :
    (execHifRciWrite dt r value tlp s).canonical :=
  act_canonical h fun s h => by simp [h]

@[simp] theorem execHifRcfgWrite_canonical (dt : Nat) (r : Fin 4) (value : Dword) (tlp : HostFlags) (s : State) (h : memsWf s.mems) :
    (execHifRcfgWrite dt r value tlp s).canonical :=
  act_canonical h fun s h => by simp [h]

@[simp] theorem execBar2Access_canonical (dt : Nat) (write : Bool) (data : HostBytes) (s : State) (h : memsWf s.mems) :
    (execBar2Access dt write data s).canonical :=
  act_canonical h fun s h => by simp [h]

@[simp] theorem execBar4Access_canonical (dt : Nat) (write : Bool) (data : HostBytes) (s : State) (h : memsWf s.mems) :
    (execBar4Access dt write data s).canonical :=
  act_canonical h fun s h => by simp [h]

@[simp] theorem execFlr_canonical (dt : Nat) (s : State) (h : memsWf s.mems) :
    (execFlr dt s).canonical :=
  act_canonical h fun s h => by simp [h]

@[simp] theorem execPerst_canonical (dt : Nat) (s : State) (h : memsWf s.mems) :
    (execPerst dt s).canonical :=
  act_canonical h fun s h => by simp [h]

@[simp] theorem execPcioAccess_canonical (dt : Nat) (data : List Word) (s : State) (h : memsWf s.mems) :
    (execPcioAccess dt data s).canonical :=
  act_canonical h fun s h => by simp [h]

@[simp] theorem execPcioFailure_canonical (dt : Nat) (kind : HostEnd) (s : State) (h : memsWf s.mems) :
    (execPcioFailure dt kind s).canonical :=
  act_canonical h fun s h => by simp [h]

@[simp] theorem execIngressGo_canonical (dt : Nat) (e : Fin 4) (s : State) (h : memsWf s.mems) :
    (execIngressGo dt e s).canonical :=
  act_canonical h fun s h => by simp [h]

@[simp] theorem execIngressDone_canonical (dt : Nat) (e : Fin 4) (data : List Byte) (how : HostEnd) (s : State) (h : memsWf s.mems) :
    (execIngressDone dt e data how s).canonical :=
  act_canonical h fun s h => by simp [h]

@[simp] theorem execEqPush_canonical (dt : Nat) (q : Fin 14) (s : State) (h : memsWf s.mems) :
    (execEqPush dt q s).canonical :=
  act_canonical h fun s h => by simp [h]

@[simp] theorem execFerryStrmWrite_canonical (dt : Nat) (value : Word) (s : State) (h : memsWf s.mems) :
    (execFerryStrmWrite dt value s).canonical :=
  act_canonical h fun s h => by simp [h]

@[simp] theorem execEgressDraw_canonical (dt : Nat) (s : State) (h : memsWf s.mems) :
    (execEgressDraw dt s).canonical :=
  act_canonical h fun s h => by simp [h]

@[simp] theorem execEgressWrite_canonical (dt : Nat) (s : State) (h : memsWf s.mems) :
    (execEgressWrite dt s).canonical :=
  act_canonical h fun s h => by simp [h]

@[simp] theorem execCreditRefill_canonical (dt : Nat) (s : State) (h : memsWf s.mems) :
    (execCreditRefill dt s).canonical :=
  act_canonical h fun s h => by simp [h]

@[simp] theorem execErst_canonical (dt : Nat) (s : State) (h : memsWf s.mems) :
    (execErst dt s).canonical :=
  act_canonical h fun s h => by simp [h]

@[simp] theorem execL1Entry_canonical (dt : Nat) (s : State) (h : memsWf s.mems) :
    (execL1Entry dt s).canonical :=
  act_canonical h fun s h => by simp [h]

@[simp] theorem execLtrSend_canonical (dt : Nat) (s : State) (h : memsWf s.mems) :
    (execLtrSend dt s).canonical :=
  act_canonical h fun s h => by simp [h]

@[simp] theorem execRingEntryWrite_canonical (dt : Nat) (r : Fin 4) (s : State) (h : memsWf s.mems) :
    (execRingEntryWrite dt r s).canonical :=
  act_canonical h fun s h => by simp [h]

@[simp] theorem execConfigSpaceWrite_canonical (dt : Nat) (cfg : ConfigWrite) (s : State) (h : memsWf s.mems) :
    (execConfigSpaceWrite dt cfg s).canonical :=
  act_canonical h fun s h => by simp [h]

@[simp] theorem execDrst_canonical (dt : Nat) (s : State) (h : memsWf s.mems) :
    (execDrst dt s).canonical :=
  act_canonical h fun s h => by simp [h]

@[simp] theorem execNewchal_canonical (dt : Nat) (random : BitVec 256) (s : State) (h : memsWf s.mems) :
    (execNewchal dt random s).canonical :=
  act_canonical h fun s h => by simp [h]

@[simp] theorem execVerify_canonical (dt : Nat) (slot : Fin 4) (s : State) (h : memsWf s.mems) :
    (execVerify dt slot s).canonical :=
  act_canonical h fun s h => by simp [h]

@[simp] theorem execVerifyComplete_canonical (dt : Nat) (key : List Byte) (s : State) (h : memsWf s.mems) :
    (execVerifyComplete dt key s).canonical :=
  act_canonical h fun s h => by simp [h]

@[simp] theorem execRelock_canonical (dt : Nat) (s : State) (h : memsWf s.mems) :
    (execRelock dt s).canonical :=
  act_canonical h fun s h => by simp [h]

@[simp] theorem execFuseLifeAdvance_canonical (dt : Nat) (value : Word) (s : State) (h : memsWf s.mems) :
    (execFuseLifeAdvance dt value s).canonical :=
  act_canonical h fun s h => by simp [h]

@[simp] theorem execFuseKeyProgram_canonical (dt : Nat) (value : Word) (s : State) (h : memsWf s.mems) :
    (execFuseKeyProgram dt value s).canonical :=
  act_canonical h fun s h => by simp [h]

@[simp] theorem execFuseDbgSet_canonical (dt : Nat) (value : Word) (s : State) (h : memsWf s.mems) :
    (execFuseDbgSet dt value s).canonical :=
  act_canonical h fun s h => by simp [h]

@[simp] theorem execFuseRevoke_canonical (dt : Nat) (value : Word) (s : State) (h : memsWf s.mems) :
    (execFuseRevoke dt value s).canonical :=
  act_canonical h fun s h => by simp [h]

@[simp] theorem execFuseArbAdvance_canonical (dt : Nat) (value : Word) (s : State) (h : memsWf s.mems) :
    (execFuseArbAdvance dt value s).canonical :=
  act_canonical h fun s h => by simp [h]

@[simp] theorem execFuseFwcntAdvance_canonical (dt : Nat) (value : Word) (s : State) (h : memsWf s.mems) :
    (execFuseFwcntAdvance dt value s).canonical :=
  act_canonical h fun s h => by simp [h]

@[simp] theorem execFusePfuseBlow_canonical (dt : Nat) (value : Word) (s : State) (h : memsWf s.mems) :
    (execFusePfuseBlow dt value s).canonical :=
  act_canonical h fun s h => by simp [h]

@[simp] theorem execFusePlockBlow_canonical (dt : Nat) (value : Word) (s : State) (h : memsWf s.mems) :
    (execFusePlockBlow dt value s).canonical :=
  act_canonical h fun s h => by simp [h]

@[simp] theorem execFuseOpComplete_canonical (dt : Nat) (s : State) (h : memsWf s.mems) :
    (execFuseOpComplete dt s).canonical :=
  act_canonical h fun s h => by simp [h]

@[simp] theorem execJtagUpdateDr_canonical (dt : Nat) (dr : BitVec 72) (s : State) (h : memsWf s.mems) :
    (execJtagUpdateDr dt dr s).canonical :=
  act_canonical h fun s h => by simp [h]

@[simp] theorem execTapReset_canonical (dt : Nat) (s : State) (h : memsWf s.mems) :
    (execTapReset dt s).canonical :=
  act_canonical h fun s h => by simp [h]

@[simp] theorem execJtagUpdateIr_canonical (dt : Nat) (ir : JtagIr) (s : State) (h : memsWf s.mems) :
    (execJtagUpdateIr dt ir s).canonical :=
  act_canonical h fun s h => by simp [h]

@[simp] theorem execBankOwnHandoverComplete_canonical (dt : Nat) (n : BasinIx) (b : BankIx) (s : State) (h : memsWf s.mems) :
    (execBankOwnHandoverComplete dt n b s).canonical :=
  act_canonical h fun s h => by simp [h]

@[simp] theorem execTargetGrant_canonical (dt : Nat) (target : Fin 20) (rivals : List Rival) (s : State) (h : memsWf s.mems) :
    (execTargetGrant dt target rivals s).canonical :=
  registerAct_canonical h fun s h => by simp [h]

@[simp] theorem execRegisterWrite_canonical (dt : Nat) (path : RegPath) (value : Word) (s : State) (h : memsWf s.mems) :
    (execRegisterWrite dt path value s).canonical :=
  registerAct_canonical h fun s h => by simp [h]

@[simp] theorem execMailboxTake_canonical (dt : Nat) (k : Fin 4) (s : State) (h : memsWf s.mems) :
    (execMailboxTake dt k s).canonical :=
  registerAct_canonical h fun s h => by simp [h]

@[simp] theorem execDeadlineExpiry_canonical (dt : Nat) (k : Fin 4) (s : State) (h : memsWf s.mems) :
    (execDeadlineExpiry dt k s).canonical :=
  registerAct_canonical h fun s h => by simp [h]

@[simp] theorem execEventPost_canonical (dt : Nat) (s : State) (h : memsWf s.mems) :
    (execEventPost dt s).canonical :=
  registerAct_canonical h fun s h => by simp [h]

@[simp] theorem execHello_canonical (dt : Nat) (k : Fin 4) (s : State) (h : memsWf s.mems) :
    (execHello dt k s).canonical :=
  registerAct_canonical h fun s h => by simp [h]

@[simp] theorem execInfo_canonical (dt : Nat) (k : Fin 4) (s : State) (h : memsWf s.mems) :
    (execInfo dt k s).canonical :=
  registerAct_canonical h fun s h => by simp [h]

@[simp] theorem execResetHost_canonical (dt : Nat) (k : Fin 4) (s : State) (h : memsWf s.mems) :
    (execResetHost dt k s).canonical :=
  mailboxAct_canonical h fun c s h => resetHostReply_wf c s h

@[simp] theorem execImageStat_canonical (dt : Nat) (k : Fin 4) (s : State) (h : memsWf s.mems) :
    (execImageStat dt k s).canonical :=
  registerAct_canonical h fun s h => by simp [h]

@[simp] theorem execRole_canonical (dt : Nat) (k : Fin 4) (s : State) (h : memsWf s.mems) :
    (execRole dt k s).canonical :=
  mailboxAct_canonical h fun c s h => roleReply_wf k c s h

@[simp] theorem execTaskStart_canonical (dt : Nat) (k : Fin 4) (differ : List Nat) (s : State) (h : memsWf s.mems) :
    (execTaskStart dt k differ s).canonical :=
  registerAct_canonical h fun s h => by simp [h]

@[simp] theorem execTaskStop_canonical (dt : Nat) (k : Fin 4) (mismatch : Bool) (s : State) (h : memsWf s.mems) :
    (execTaskStop dt k mismatch s).canonical :=
  registerAct_canonical h fun s h => by simp [h]

@[simp] theorem execKeeper_canonical (dt : Nat) (k : Fin 4) (mismatch : Bool) (s : State) (h : memsWf s.mems) :
    (execKeeper dt k mismatch s).canonical :=
  registerAct_canonical h fun s h => by simp [h]

@[simp] theorem execLatTol_canonical (dt : Nat) (k : Fin 4) (s : State) (h : memsWf s.mems) :
    (execLatTol dt k s).canonical :=
  registerAct_canonical h fun s h => by simp [h]

@[simp] theorem execCounters_canonical (dt : Nat) (k : Fin 4) (s : State) (h : memsWf s.mems) :
    (execCounters dt k s).canonical :=
  registerAct_canonical h fun s h => by simp [h]

@[simp] theorem execReset_canonical (dt : Nat) (k : Fin 4) (s : State) (h : memsWf s.mems) :
    (execReset dt k s).canonical :=
  mailboxAct_canonical h fun c s h => resetReply_wf k c s h

@[simp] theorem execEventRoute_canonical (dt : Nat) (k : Fin 4) (s : State) (h : memsWf s.mems) :
    (execEventRoute dt k s).canonical :=
  registerAct_canonical h fun s h => by simp [h]

@[simp] theorem execSetTime_canonical (dt : Nat) (k : Fin 4) (s : State) (h : memsWf s.mems) :
    (execSetTime dt k s).canonical :=
  mailboxAct_canonical h fun c s h => setTimeReply_wf c s h

@[simp] theorem execClaim_canonical (dt : Nat) (k : Fin 4) (s : State) (h : memsWf s.mems) :
    (execClaim dt k s).canonical :=
  mailboxAct_canonical h fun c s h => claimReply_wf k c s h

@[simp] theorem execRelease_canonical (dt : Nat) (k : Fin 4) (s : State) (h : memsWf s.mems) :
    (execRelease dt k s).canonical :=
  mailboxAct_canonical h fun c s h => releaseReply_wf c s h

@[simp] theorem execLoadImage_canonical (dt : Nat) (k : Fin 4) (bindings first second key : List Byte) (writes : Option Nat) (how : HostEnd)
    (differ : List Nat) (s : State) (h : memsWf s.mems) :
    (execLoadImage dt k bindings first second key writes how differ s).canonical :=
  mailboxAct_canonical h fun c s h => loadReply_wf k bindings first second key writes how differ c s h

/-- Every command leaves canonical memories canonical. -/
theorem exec_canonical (i : Instr) (s : State) (h : memsWf s.mems) : Out.canonical (exec i s) := by
  unfold exec
  split <;> simp [h]

theorem step_canonical (s : State) (h : memsWf s.mems) : Out.canonical (step s) := by
  unfold step
  split
  · rintro t ⟨⟩
    exact h
  · exact exec_canonical _ _ (by simpa using h)

/-- Settles O57: no command leaves a memory but through `Mem.write`, `Mem.heal`, `Mem.zeroed`, `Mem.zeroBlock` or a fresh memory, and
each of them keeps the canonical form. -/
theorem memoriesStayCanonical : Obligations.MemoriesStayCanonical := by
  intro s t h hstep
  rw [memoriesCanonical_iff] at h ⊢
  exact step_canonical s h t hstep

end Sys2Proof.Machine
end

section
/-! The drain of the store buffer and the admission by BANK_OWN (O6). -/

namespace Sys2Proof.Machine

/-! ### What a code bank's read starts leave -/

/-- `t` is `s` with another basin `n`, whose memory is unchanged. -/
def SameButBasin (n : BasinIx) (s t : State) : Prop :=
  t = { s with basins := t.basins } ∧ (∀ m, m ≠ n → t.basins.get m = s.basins.get m) ∧
    (t.basins.get n).mem = (s.basins.get n).mem

theorem SameButBasin.refl (n : BasinIx) (s : State) : SameButBasin n s s := ⟨rfl, fun _ _ => rfl, rfl⟩

theorem SameButBasin.trans {n : BasinIx} {s t u : State} (h : SameButBasin n s t) (k : SameButBasin n t u) :
    SameButBasin n s u := by
  obtain ⟨ht, hother, hmem⟩ := h
  obtain ⟨hu, kother, kmem⟩ := k
  refine ⟨?_, fun m hm => (kother m hm).trans (hother m hm), kmem.trans hmem⟩
  rw [hu, ht]

theorem SameButBasin.modBasin (n : BasinIx) (s : State) (f : Basin → Basin) (hf : ∀ x, (f x).mem = x.mem) :
    SameButBasin n s (s.modBasin n f) := by
  refine ⟨rfl, fun m hm => ?_, ?_⟩
  · rw [State.modBasin_basins, vmod_get_ne _ _ _ _ hm]
  · rw [State.modBasin_basins, vmod_get_self, hf]

theorem SameButBasin.foldl {α : Type} {n : BasinIx} (f : State → α → State) (h : ∀ s a, SameButBasin n s (f s a)) (l : List α) :
    ∀ s, SameButBasin n s (l.foldl f s) := by
  induction l with
  | nil => exact SameButBasin.refl n
  | cons a l ih => exact fun s => (h s a).trans (ih _)

theorem kickWay_sameButBasin (n : BasinIx) (k : Fin 4) (s : State) (w : Fin 4) : SameButBasin n s (kickWay n k s w) := by
  unfold kickWay
  extract_lets c clk
  split
  · split
    · exact SameButBasin.modBasin n s _ fun _ => rfl
    · exact .refl n s
  · exact .refl n s

theorem kickBasin_sameButBasin (n : BasinIx) (s : State) : SameButBasin n s (kickBasin n s) :=
  .foldl _ (fun s _ => .foldl _ (fun s w => kickWay_sameButBasin n _ s w) _ s) _ s

/-! ### A bank that nobody else asks for, and a port A that port B leaves alone (R211, R216) -/

/-- A quiet bank grants whoever asks without rivals. -/
theorem askBank_of_quiet (s : State) (n : BasinIx) (b : BankIx) (who : Fin 6) (h : bankQuiet s n b = true) :
    (askBank s n b who []).1 = true := by
  simp only [bankQuiet, Bool.and_eq_true, Option.isNone_iff_eq_none, Bool.not_eq_true', List.any_eq_false] at h
  obtain ⟨hturn, hwait⟩ := h
  have hnone : ((((s.basins.get n).banks.get b).inTurn (bclkCount s n)).waiters.filter
      fun r => r != who && stillWants s n b r) = [] :=
    List.filter_eq_nil_iff.2 fun r hr => by simp [hwait r hr]
  simp [askBank, Bank.ask, hturn, hnone, bankWinner]

theorem portOld_of_other (p : Option PortWrite) (c : Nat) (h : ∀ w, p = some w → w.bclk ≠ c) : portOld p c = [] := by
  cases p with
  | none => rfl
  | some w => simp [portOld, h w rfl]

theorem portMarks_of_other (p : Option PortWrite) (c : Nat) (h : ∀ w, p = some w → w.bclk ≠ c) : portMarks p c = [] := by
  cases p with
  | none => rfl
  | some w => simp [portMarks, h w rfl]

/-- Where port B writes nothing in the BCLK, port A sees the memory as it is. -/
theorem portAMem_of_free (s : State) (n : BasinIx) (h : ∀ w, (s.basins.get n).portB = some w → w.bclk ≠ bclkCount s n) :
    portAMem s n = (s.basins.get n).mem := by
  simp [portAMem, Basin.seenBy, portOld_of_other _ _ h, portMarks_of_other _ _ h, Mem.setAll]

/-- Where port B writes nothing in the BCLK, all that port A writes stands. -/
theorem Basin.writeBy_mem_of_free (x : Basin) (c : Nat) (ws : List (Nat × Nonet)) (h : ∀ w, x.portB = some w → w.bclk ≠ c) :
    (x.writeBy false c ws).mem = x.mem.write ws := by
  unfold Basin.writeBy
  split
  · rfl
  · simp [portOld_of_other _ _ h]

/-! ### Unmarked words raise no error -/

theorem Mem.isUe_of_unmarked {m : Mem} {i : Nat} (h : m.mark i = none) : m.isUe i = false := by simp [Mem.isUe, h]

theorem noteErrorsIn_of_unmarked (n : BasinIx) (src : Nat) (m : Mem) (s : State) (l : List Nat) (h : ∀ i ∈ l, m.mark i = none) :
    noteErrorsIn n src m s l = s := by
  induction l with
  | nil => rfl
  | cons i l ih =>
    have hi : m.mark i = none := h i (by simp)
    have hnote : noteErrorIn n src m s i = s := by simp [noteErrorIn, Mem.isUe, Mem.isCe, hi]
    show noteErrorsIn n src m (noteErrorIn n src m s i) l = s
    rw [hnote, ih fun j hj => h j (by simp [hj])]

/-- The words written in part are among those that the access touches. -/
theorem partialWords_nonetsOf (a v n : Nat) : ∀ i ∈ partialWords (nonetsOf a v n), i ∈ wordsOf a n := by
  intro i hi
  simp only [partialWords, List.mem_filter, List.mem_dedup, List.mem_map] at hi
  obtain ⟨⟨w, hw, rfl⟩, -⟩ := hi
  have := mem_nonetsOf hw
  unfold wordsOf
  rw [if_neg (by omega), List.mem_map]
  exact ⟨w.1 / 4 - a / 4, List.mem_range.2 (by omega), by omega⟩

/-! ### The drain -/

/-- The basin's memory after a store drains, where port B leaves it alone and its words are unmarked. -/
theorem drainStore_granted (s : State) (g : BargeIx) (e : StoreEntry) (rest : List StoreEntry)
    (hst : (s.barges.get g).stores = e :: rest) (hsince : e.since < bclkCount s (basinOf g))
    (hdrain : (s.barges.get g).drainAt ≠ some (bclkCount s (basinOf g)))
    (hy : ¬ (inHandover (s.basins.get (basinOf g)) (bankOf e.addr) = false ∧
      storeYields (s.barges.get g) (posOf g) (bankOf e.addr) (bclkCount s (basinOf g)) [] = true))
    (hfree : PortsFree s (basinOf g)) (hmark : ∀ w ∈ wordsOf e.addr e.size, (s.basins.get (basinOf g)).mem.mark w = none) :
    drainStore g [] s = kickBasin (basinOf g)
      (((askBank s (basinOf g) (bankOf e.addr) (whoBarge (posOf g)) []).2.modBasin (basinOf g)
        fun x => x.writeBy false (bclkCount s (basinOf g)) (nonetsOf e.addr e.data.toNat e.size)).modBarge g
          fun b => { b with stores := rest, drainAt := some (bclkCount s (basinOf g)) }) := by
  obtain ⟨hquiet, hB⟩ := hfree
  have hpart : ∀ i ∈ partialWords (nonetsOf e.addr e.data.toNat e.size), (portAMem s (basinOf g)).mark i = none := fun i hi => by
    rw [portAMem_of_free _ _ hB]
    exact hmark i (partialWords_nonetsOf _ _ _ i hi)
  have hbad : (partialWords (nonetsOf e.addr e.data.toNat e.size)).any (portAMem s (basinOf g)).isUe = false :=
    List.any_eq_false.2 fun i hi => by simp [Mem.isUe_of_unmarked (hpart i hi)]
  have hask := askBank_of_quiet s (basinOf g) (bankOf e.addr) (whoBarge (posOf g)) (hquiet _)
  unfold drainStore
  simp only [hst]
  rw [if_neg (by rintro (h | h); omega; exact hdrain h), if_neg (by simpa using hy), if_neg (by simp [hask]),
    noteErrorsIn_of_unmarked _ _ _ _ _ hpart, if_neg (by simp [hbad])]

/-- A drain that the bank grants: the entry leaves, its nonets are written, and nothing else but the barge and its basin changes. -/
theorem drainStore_effect (s : State) (g : BargeIx) (e : StoreEntry) (rest : List StoreEntry)
    (hst : (s.barges.get g).stores = e :: rest) (hsince : e.since < bclkCount s (basinOf g))
    (hdrain : (s.barges.get g).drainAt ≠ some (bclkCount s (basinOf g)))
    (hy : ¬ (inHandover (s.basins.get (basinOf g)) (bankOf e.addr) = false ∧
      storeYields (s.barges.get g) (posOf g) (bankOf e.addr) (bclkCount s (basinOf g)) [] = true))
    (hfree : PortsFree s (basinOf g)) (hmark : ∀ w ∈ wordsOf e.addr e.size, (s.basins.get (basinOf g)).mem.mark w = none) :
    ((drainStore g [] s).barges = vmod s.barges g fun b =>
      { b with stores := rest, drainAt := some (bclkCount s (basinOf g)) }) ∧
    ((drainStore g [] s).basins.get (basinOf g)).mem =
      (s.basins.get (basinOf g)).mem.write (nonetsOf e.addr e.data.toNat e.size) ∧
    (∀ n, n ≠ basinOf g → (drainStore g [] s).basins.get n = s.basins.get n) ∧ (drainStore g [] s).rv = s.rv ∧
    (drainStore g [] s).hms = s.hms := by
  rw [drainStore_granted s g e rest hst hsince hdrain hy hfree hmark]
  obtain ⟨hkick, hother, hmem⟩ := kickBasin_sameButBasin (basinOf g)
    (((askBank s (basinOf g) (bankOf e.addr) (whoBarge (posOf g)) []).2.modBasin (basinOf g)
        fun x => x.writeBy false (bclkCount s (basinOf g)) (nonetsOf e.addr e.data.toNat e.size)).modBarge g
          fun b => { b with stores := rest, drainAt := some (bclkCount s (basinOf g)) })
  refine ⟨?_, ?_, fun n hn => ?_, ?_, ?_⟩
  · rw [hkick]
    rfl
  · rw [hmem]
    simp only [State.modBarge_basins, State.modBasin_basins, vmod_get_self, askBank, State.modBank]
    exact Basin.writeBy_mem_of_free _ _ _ hfree.2
  · rw [hother n hn]
    simp [askBank, State.modBank, vmod_get_ne _ _ _ _ hn]
  · rw [hkick]
    rfl
  · rw [hkick]
    rfl

/-- A store that gives way, or whose turn has not come, stays. -/
theorem drainStore_yields (s : State) (g : BargeIx) (e : StoreEntry) (rest : List StoreEntry)
    (hst : (s.barges.get g).stores = e :: rest)
    (hy : inHandover (s.basins.get (basinOf g)) (bankOf e.addr) = false ∧
      storeYields (s.barges.get g) (posOf g) (bankOf e.addr) (bclkCount s (basinOf g)) [] = true) :
    drainStore g [] s = s := by
  obtain ⟨hho, hyield⟩ := hy
  unfold drainStore
  simp only [hst]
  split
  · rfl
  · rw [if_pos (by simp [hho, hyield])]

/-! ### Admission by BANK_OWN (R125, R212) -/

theorem bargeAdmitted_iff (o : BitVec 7) (p : Fin 4) (w sup : Bool) :
    bargeAdmitted o p w sup = true ↔
      (bitsN o 0 3 = p.val ∨ bitsN o 0 3 = 4) ∧ bit o 3 = w ∧ (bit o 4 = true → sup = true) := by
  cases sup <;> simp [bargeAdmitted, ownOwner, ownWorld, ownSup, and_assoc]

theorem admits_outside_emergency (x : Basin) (p : Fin 4) (w sup : Bool) (a n : Nat) (ha : a + n ≤ 0xFFC00) (hn : 0 < n) :
    admits x p w sup a n = bargeAdmitted (x.banks.get (bankOf a)).own p w sup := by
  rw [admits, if_neg]
  simp [inEmergency]
  omega

theorem admits_in_emergency (x : Basin) (p : Fin 4) (w sup : Bool) (a n : Nat) (ha : 0xFFC00 ≤ a) (hn : a + n ≤ 0x100000)
    (h0 : 0 < n) : admits x p w sup a n = (sup && slotBase p w ≤ a && a + n ≤ slotBase p w + 128) := by
  rw [admits, if_pos]
  simp [inEmergency]
  omega

/-- Settles O6: a quiet bank grants the drain, the words are unmarked, and port B leaves the nonets alone, so what stands after it is
`Mem.write` of the entry; the admission rules are `admits` outside and inside the emergency area. -/
theorem ownedStoresWriteTheirNonets : Obligations.OwnedStoresWriteTheirNonets := by
  refine ⟨?_, fun x p w sup a n ha hn => ?_, fun x p w sup a n ha hn h0 => ?_, fun o write => ?_⟩
  · intro s dt g e rest hav hwf hrun hst _ _ hfree hsince hdrain hmark
    obtain ⟨hfac, hcold⟩ := hav
    have hexec : exec (.storeBufferDrain dt g []) s = .next (drainStore g [] (s.elapse dt)) := by
      show act s dt _ = _
      rw [act_next s dt _ hfac hcold, gated_of _ _ _ (by simpa [basinRuns] using hrun)]
    rw [hexec]
    split
    next hy => rw [drainStore_yields (s.elapse dt) g e rest hst hy]
    next hy =>
      obtain ⟨hb, hmem, hother, hrv, hhms⟩ := drainStore_effect (s.elapse dt) g e rest hst hsince hdrain hy hfree hmark
      have hcan : (s.basins.get (basinOf g)).mem.wf = true := hwf.1 _
      obtain ⟨-, -, hnew, hold⟩ := memoryReadsWhatWasWritten _ e.addr e.size e.data.toNat hcan
      refine ⟨_, rfl, ?_, fun k hk => ?_, fun a ha => ?_, hother, hrv, hhms, fun k hk => ?_⟩
      · rw [hb, vmod_get_self]
      · rw [hmem]
        exact hnew k hk
      · rw [hmem]
        exact hold a (by omega)
      · rw [hb, vmod_get_ne _ _ _ _ hk]
        rfl
  · rw [admits_outside_emergency x p w sup a n ha hn, bargeAdmitted_iff]
  · rw [admits_in_emergency x p w sup a n ha hn h0]
    rw [Bool.and_eq_true, Bool.and_eq_true, decide_eq_true_iff, decide_eq_true_iff, and_assoc]
    rfl
  · rw [targetAdmitted, Bool.and_eq_true, decide_eq_true_iff]
    cases write
    · exact and_congr_right fun _ => decide_eq_true_iff
    · exact and_congr_right fun _ => beq_iff_eq

end Sys2Proof.Machine
end

section
/-! The Wharf's ports and the plain registers (O19). -/

namespace Sys2Proof.Machine

/-! ### What the frame of a register write adds to it (R285, R346, R348, R374) -/

theorem sameMemory_of_mems {s t : State} (h : t.mems = s.mems) : SameMemory s t := by
  obtain ⟨hb, hr, hh⟩ := (mems_eq_iff t _ _ _).1 h
  refine ⟨fun n a => ?_, fun a => by rw [hr], fun a => by rw [hh]⟩
  have hn : (t.basins.map Basin.mem).get n = (s.basins.map Basin.mem).get n := by rw [hb]
  rw [basinMem_get, basinMem_get] at hn
  rw [hn]

/-- `t` is `s` with other trip zones and PWM channels, and interrupt requests that they raised. -/
structure ZonesMoved (s t : State) : Prop where
  state : t = { s with barges := t.barges, pwm := t.pwm, events := t.events }
  requests : OnlyRequests s t

theorem onlyRequests_refl (s : State) : OnlyRequests s s := fun _ => rfl

theorem onlyRequests_trans {s t u : State} (h : OnlyRequests s t) (k : OnlyRequests t u) : OnlyRequests s u := fun g => by
  rw [k g, h g]

theorem onlyRequests_of_barges {s t : State} (h : t.barges = s.barges) : OnlyRequests s t := fun g => by rw [h]

theorem ZonesMoved.refl (s : State) : ZonesMoved s s := ⟨rfl, onlyRequests_refl s⟩

theorem ZonesMoved.trans {s t u : State} (h : ZonesMoved s t) (k : ZonesMoved t u) : ZonesMoved s u := by
  refine ⟨?_, onlyRequests_trans h.requests k.requests⟩
  rw [k.state, h.state]

theorem ZonesMoved.foldl {α : Type} (f : State → α → State) (h : ∀ s a, ZonesMoved s (f s a)) (l : List α) :
    ∀ s, ZonesMoved s (l.foldl f s) := by
  induction l with
  | nil => exact ZonesMoved.refl
  | cons a l ih => exact fun s => (h s a).trans (ih _)

theorem ZonesMoved.of_pwm {s t : State} (h : t = { s with pwm := t.pwm }) : ZonesMoved s t := by
  refine ⟨?_, onlyRequests_of_barges ?_⟩ <;> rw [h]

theorem pend_requests (s : State) (g : BargeIx) (n : Fin 64) : OnlyRequests s (s.pend g n) := by
  intro k
  simp only [State.pend, State.mark_barges, State.modBarge_barges, vmod_get]
  split
  · subst k
    rfl
  · rfl

theorem pend_zonesMoved (s : State) (g : BargeIx) (n : Fin 64) : ZonesMoved s (s.pend g n) := ⟨rfl, pend_requests s g n⟩

theorem pendBasin_zonesMoved (s : State) (n : BasinIx) (src : Fin 64) : ZonesMoved s (s.pendBasin n src) :=
  (((pend_zonesMoved _ _ _).trans (pend_zonesMoved _ _ _)).trans (pend_zonesMoved _ _ _)).trans (pend_zonesMoved _ _ _)

theorem pwmEvent_zonesMoved (n : Fin 192) (s : State) : ZonesMoved s (pwmEvent n s) := by
  unfold pwmEvent
  extract_lets c _ s1
  have h1 : ZonesMoved s s1 := ⟨rfl, onlyRequests_of_barges rfl⟩
  clear_value s1
  split
  · exact .refl s
  · split
    · exact h1.trans (pendBasin_zonesMoved _ _ _)
    · exact h1

theorem pwmTripOne_zonesMoved (n : Fin 192) (s : State) : ZonesMoved s (pwmTripOne n s) := by
  unfold pwmTripOne
  extract_lets c
  split
  · exact (ZonesMoved.of_pwm rfl).trans (pwmEvent_zonesMoved n _)
  · exact .refl s

theorem tripZoneEval_zonesMoved (z : Fin 32) (s : State) : ZonesMoved s (tripZoneEval z s) := by
  unfold tripZoneEval
  extract_lets old new s1
  have h1 : ZonesMoved s s1 := .of_pwm rfl
  clear_value s1
  split
  · exact h1.trans (.foldl _ (fun s n => pwmTripOne_zonesMoved n s) _ _)
  · exact h1

theorem followZones_zonesMoved (s : State) : ZonesMoved s (followZones s) :=
  .foldl _ (fun s z => tripZoneEval_zonesMoved z s) _ s

/-- `t` is `s` with other basins and power states: the dividers and the state that a basin is on its way to. -/
def PowerMoved (s t : State) : Prop := t = { s with basins := t.basins, crp := { s.crp with bpwr := t.crp.bpwr } }

theorem PowerMoved.refl (s : State) : PowerMoved s s := rfl

theorem PowerMoved.trans {s t u : State} (h : PowerMoved s t) (k : PowerMoved t u) : PowerMoved s u := by
  unfold PowerMoved at *
  rw [k, h]

theorem PowerMoved.foldl {α : Type} (f : State → α → State) (h : ∀ s a, PowerMoved s (f s a)) (l : List α) :
    ∀ s, PowerMoved s (l.foldl f s) := by
  induction l with
  | nil => exact PowerMoved.refl
  | cons a l ih => exact fun s => (h s a).trans (ih _)

theorem modBpwr_powerMoved (s : State) (n : BasinIx) (f : Bpwr → Bpwr) : PowerMoved s (s.modBpwr n f) := rfl

theorem modBasin_powerMoved (s : State) (n : BasinIx) (f : Basin → Basin) : PowerMoved s (s.modBasin n f) := rfl

theorem beginPower_powerMoved (n : BasinIx) (goal : BitVec 2) (s : State) : PowerMoved s (beginPower n goal s) := by
  unfold beginPower
  extract_lets p s1
  have h1 : PowerMoved s s1 := modBpwr_powerMoved _ _ _
  clear_value s1
  split
  · exact .refl s
  · split
    · exact .refl s
    · split
      · exact h1.trans (modBasin_powerMoved _ _ _)
      · exact h1

theorem holdAwake_powerMoved (s : State) (n : BasinIx) : PowerMoved s (holdAwake s n) := by
  unfold holdAwake
  extract_lets p
  split
  · exact .refl s
  · split
    · exact modBpwr_powerMoved _ _ _
    · split
      · exact modBpwr_powerMoved _ _ _
      · exact (modBpwr_powerMoved _ _ _).trans (beginPower_powerMoved _ _ _)

theorem setDivider_powerMoved (s : State) (n : BasinIx) : PowerMoved s (setDivider s n) := by
  unfold setDivider
  extract_lets b period old new c edge
  split
  · exact .refl s
  · exact (modBasin_powerMoved _ _ _).trans (modBpwr_powerMoved _ _ _)

theorem settle_powerMoved (s : State) : PowerMoved s (settle s) :=
  .foldl _ (fun s n => (holdAwake_powerMoved s n).trans (setDivider_powerMoved _ n)) _ s

theorem powerInputs_congr {s t : State} (hhold : t.crp.bhold = s.crp.bhold) (htol : t.fw.latTol = s.fw.latTol)
    (htasks : t.kp.tasks = s.kp.tasks) : powerInputs t = powerInputs s := by
  simp [powerInputs, vheld, hhold, htol, htasks]

/-- `t` is `s` but for the firmware's notices and the vectors sent. -/
theorem watchReady_eq (f : State → State) (s : State) :
    ∃ notices hif, watchReady f s = { f s with fw := { (f s).fw with notices := notices }, hif := hif } := by
  unfold watchReady State.msix
  extract_lets s1
  split
  · exact ⟨s1.fw.notices, s1.hif, rfl⟩
  · split
    · exact ⟨_, _, rfl⟩
    · exact ⟨_, _, rfl⟩

theorem watchLine_eq (q : Fin 14) (f : State → State) (s : State) : ∃ eq, watchLine q f s = { f s with ferry := { (f s).ferry with eq := eq } } := by
  unfold watchLine
  extract_lets s1 k
  split
  · exact ⟨s1.ferry.eq, rfl⟩
  · exact ⟨_, rfl⟩

/-- What a change that is watched for HIF_READY, the power states and the Harbourmaster's line leaves beside its own effect. -/
theorem watched_effect (f : State → State) (s : State) :
    (watchLine 12 (fun s => settle (watchReady f s)) s).barges = (f s).barges ∧
    (watchLine 12 (fun s => settle (watchReady f s)) s).wharf = (f s).wharf ∧
    powerInputs (watchLine 12 (fun s => settle (watchReady f s)) s) = powerInputs (f s) := by
  obtain ⟨notices, hif, hready⟩ := watchReady_eq f s
  have hsettle := settle_powerMoved (watchReady f s)
  obtain ⟨eq, hline⟩ := watchLine_eq 12 (fun s => settle (watchReady f s)) s
  refine ⟨?_, ?_, powerInputs_congr ?_ ?_ ?_⟩ <;> rw [hline, hsettle, hready]

/-- The frame of a register write around a change that leaves holds, tolerances and tasks as they were: the zones follow before it, and
after it only interrupt requests and what no register, transaction or memory shows. -/
theorem registerAct_effect (s : State) (dt : Nat) (f : State → State) (hav : Available s)
    (hf : ∀ s0, ZonesMoved (s.elapse dt) s0 → powerInputs (f s0) = powerInputs s0) :
    ∃ s0 t, ZonesMoved (s.elapse dt) s0 ∧ registerAct s dt f = .next t ∧ OnlyRequests (f s0) t ∧ t.wharf = (f s0).wharf ∧
      t.mems = (f s0).mems := by
  obtain ⟨hfac, hcold⟩ := hav
  have h0 := followZones_zonesMoved (s.elapse dt)
  obtain ⟨hb, hw, hin⟩ := watched_effect f (followZones (s.elapse dt))
  have hpow := powersFollow_same _ _ (hin.trans (hf _ h0))
  refine ⟨followZones (s.elapse dt), _, h0, registerAct_next s dt f hfac hcold, ?_⟩
  have hz := followZones_zonesMoved (watchLine 12 (fun s => settle (watchReady f s)) (followZones (s.elapse dt)))
  rw [watchTrips, hpow]
  refine ⟨onlyRequests_trans (onlyRequests_of_barges hb) hz.requests, ?_, by simp⟩
  rw [hz.state, hw]

/-! ### REGISTER_WRITE (R6, R7, R102, R248) -/

/-- A write of BC_GATECNT by its barge's vital code at the privileged level (R102). -/
theorem regWriteBy_gateCnt (s : State) (g : BargeIx) (v : Word) (hL : pswL (s.barges.get g).psw = true)
    (hW : pswW (s.barges.get g).psw = true) :
    regWriteBy g 8 v s = s.modBarge g fun b => { b with gateCnt := v.setWidth 9 } := by
  have hread : (winRead s g true 8).isNone = false := by simp [winRead, readControl]
  have hfault : winWriteFaults s g true true 8 v = false := by simp [winWriteFaults, hread]
  simp [regWriteBy, hL, hW, hfault, winWrite, writeControl, low]

theorem execRegisterWrite_gateCnt (s : State) (dt : Nat) (g : BargeIx) (v : Word) (hav : Available s)
    (hL : pswL (s.barges.get g).psw = true) (hW : pswW (s.barges.get g).psw = true) :
    ∃ t, exec (.registerWrite dt (.window g 8) v) s = .next t ∧
      t.barges.get g = { s.barges.get g with gateCnt := v.setWidth 9, intc := (t.barges.get g).intc } ∧
      (∀ k, k ≠ g → t.barges.get k = { s.barges.get k with intc := (t.barges.get k).intc }) ∧ SameMemory s t := by
  have hwrite : ∀ s0, ZonesMoved (s.elapse dt) s0 →
      writeRegister (.window g 8) v s0 = s0.modBarge g fun b => { b with gateCnt := v.setWidth 9 } := fun s0 h0 =>
    regWriteBy_gateCnt s0 g v (by rw [h0.requests g]; exact hL) (by rw [h0.requests g]; exact hW)
  obtain ⟨s0, t, h0, ht, hreq, -, hmems⟩ := registerAct_effect s dt (writeRegister (.window g 8) v) hav fun s0 h0 => by
    rw [hwrite s0 h0]
    rfl
  rw [hwrite s0 h0] at hreq hmems
  have hm0 : s0.mems = s.mems := by rw [h0.state]; simp
  refine ⟨t, ht, ?_, fun k hk => ?_, sameMemory_of_mems (by rw [hmems]; simpa using hm0)⟩
  · rw [hreq g, State.modBarge_barges, vmod_get_self, h0.requests g]
    rfl
  · rw [hreq k, State.modBarge_barges, vmod_get_ne _ _ _ _ hk, h0.requests k]
    rfl

/-! ### Acceptance at an initiator port (R237, R241, R243, R248) -/

/-- `w'` is `w` but for the counters of R248. -/
def CountersMoved (w w' : Wharf) : Prop :=
  ∃ tgrant twait tmaxw maxOut recent istall stallSince, w' = { w with
    tgrant := tgrant, twait := twait, tmaxw := tmaxw, maxOut := maxOut, recent := recent, istall := istall, stallSince := stallSince }

theorem CountersMoved.refl (w : Wharf) : CountersMoved w w := ⟨_, _, _, _, _, _, _, rfl⟩

theorem CountersMoved.trans {w x y : Wharf} (h : CountersMoved w x) (k : CountersMoved x y) : CountersMoved w y := by
  obtain ⟨_, _, _, _, _, _, _, rfl⟩ := h
  obtain ⟨_, _, _, _, _, _, _, rfl⟩ := k
  exact ⟨_, _, _, _, _, _, _, rfl⟩

theorem Wharf.count_countersMoved (w : Wharf) (e : CountEvent) : CountersMoved w (w.count e) := by
  cases e with
  | grant g wait => exact ⟨_, _, _, _, _, _, _, rfl⟩
  | outstanding i cur =>
    unfold Wharf.count
    dsimp only
    split
    · exact ⟨_, _, _, _, _, _, _, rfl⟩
    · exact .refl w

theorem Wharf.countAt_countersMoved (w : Wharf) (k : Nat) (e : CountEvent) : CountersMoved w (w.countAt k e) := by
  unfold Wharf.countAt
  split
  · exact (w.count_countersMoved e).trans ⟨_, _, _, _, _, _, _, rfl⟩
  · exact .refl w

/-- The transaction as its target finds it. -/
def acceptedReq (s : State) (init : Fin 16) (t : Tx) (load since : Nat) (g : Fin 20) : WharfReq :=
  { init := init, target := g, tx := t, qos := qosOf s init t.world, since := since, seq := s.wharf.seq, load := load
    irq := intenReg s, win := s.ferry.win.get (pcioWindow t.addr.toNat) }

/-- An initiator's port takes one more transaction: its place, its number, and the hold that ends (R241, R248). -/
def portTakes (s : State) (init : Fin 16) : Wharf :=
  { s.wharf with
    cur := vput s.wharf.cur init (s.wharf.cur.get init + 1)
    istall := vmod s.wharf.istall init fun c => c + BitVec.ofNat 36 (stallDue s.wharf (xclk s) init)
    stallSince := vput s.wharf.stallSince init none
    seq := s.wharf.seq + 1 }

theorem acceptTx_eq (s : State) (init : Fin 16) (t : Tx) (load since : Nat) :
    acceptTx init t load since s =
      match decodeTx s init t with
      | .inl reason => respondDecerr (acceptedReq s init t load since 0) reason
        { s with wharf := (portTakes s init).countAt (xclk s) (.outstanding init (s.wharf.cur.get init + 1)) }
      | .inr g => { s with wharf := { (portTakes s init).countAt (xclk s) (.outstanding init (s.wharf.cur.get init + 1)) with
          reqs := ((portTakes s init).countAt (xclk s) (.outstanding init (s.wharf.cur.get init + 1))).reqs ++
            [acceptedReq s init t load since g] } } := by
  unfold acceptTx
  cases decodeTx s init t <;> rfl

theorem portTakes_counted (s : State) (init : Fin 16) (e : CountEvent) :
    ∃ w, CountersMoved s.wharf w ∧ (portTakes s init).countAt (xclk s) e =
      { w with cur := vput s.wharf.cur init (s.wharf.cur.get init + 1), seq := s.wharf.seq + 1 } := by
  obtain ⟨tg, tw, tm, mo, re, is, ss, hw⟩ := (portTakes s init).countAt_countersMoved (xclk s) e
  exact ⟨_, ⟨tg, tw, tm, mo, re, is, ss, rfl⟩, hw⟩

/-- A transaction whose address decodes waits at its target. -/
theorem acceptTx_of_decoded (s : State) (init : Fin 16) (t : Tx) (load since : Nat) (g : Fin 20) (h : decodeTx s init t = .inr g) :
    ∃ w, CountersMoved s.wharf w ∧ acceptTx init t load since s = { s with
      wharf := { w with
        cur := vput s.wharf.cur init (s.wharf.cur.get init + 1), seq := s.wharf.seq + 1
        reqs := s.wharf.reqs ++ [acceptedReq s init t load since g] } } := by
  obtain ⟨w, hw, htakes⟩ := portTakes_counted s init (.outstanding init (s.wharf.cur.get init + 1))
  refine ⟨w, hw, ?_⟩
  obtain ⟨_, _, _, _, _, _, _, rfl⟩ := hw
  rw [acceptTx_eq, h, htakes]

@[simp] theorem xclk_elapse_wharf (s : State) (w : Wharf) : xclk { s with wharf := w } = xclk s := rfl

/-- WHARF_ACCEPT at a port without a tender, which has a place (R237). -/
theorem portAccept_presented (s : State) (init : Fin 16) (t : Tx) (hi : 12 ≤ init.val) (hcur : s.wharf.cur.get init < 32) :
    portAccept init t s = acceptTx init t 0 (xclk s + 1) s := by
  rw [portAccept, dif_neg (by omega), if_neg (by simp [portFull, hcur])]

/-- WHARF_ACCEPT at a basin's port, of the transaction that its tender presents (R241). -/
theorem portAccept_tender (s : State) (init : Fin 16) (t : Tx) (h : init.val < 12) (p : Fin 4) (o : XluOp)
    (hpick : tenderPick s ⟨init.val, h⟩ = some (p, o)) (hcur : s.wharf.cur.get init < 32)
    (hat : (s.basins.get ⟨init.val, h⟩).tenderAt ≠ some (xclk s)) :
    portAccept init t s = acceptTx init (tenderTx p o) o.load (xclk s + 1) (s.modBasin ⟨init.val, h⟩ fun x =>
      { x with tender := dropFirst (fun q => q.1 == p) x.tender, tenderRr := p, tenderAt := some (xclk s) }) := by
  rw [portAccept, dif_pos h]
  dsimp only
  rw [hpick]
  dsimp only
  rw [if_neg (by simp [portFull, hcur]), if_neg hat]

theorem execWharfAccept_next (s : State) (dt : Nat) (init : Fin 16) (t : Tx) (hav : Available s) :
    exec (.wharfAccept dt init t) s = .next (portAccept init t (s.elapse dt)) :=
  act_next s dt _ hav.1 hav.2

theorem execWharfAccept_presented (s : State) (dt : Nat) (init : Fin 16) (t : Tx) (g : Fin 20) (hav : Available s)
    (hi : 12 ≤ init.val) (hcur : s.wharf.cur.get init < 32) (hdec : decodeTx s init t = .inr g) :
    ∃ u, exec (.wharfAccept dt init t) s = .next u ∧ u = { s.elapse dt with wharf := u.wharf } ∧
      u.wharf.reqs = s.wharf.reqs ++
        [{ init := init, target := g, tx := t, qos := qosOf (s.elapse dt) init t.world
           since := xclk (s.elapse dt) + 1, seq := s.wharf.seq, irq := intenReg (s.elapse dt)
           win := s.ferry.win.get (pcioWindow t.addr.toNat) }] ∧
      u.wharf.cur.get init = s.wharf.cur.get init + 1 ∧ u.wharf.resps = s.wharf.resps := by
  obtain ⟨w, ⟨_, _, _, _, _, _, _, rfl⟩, hacc⟩ :=
    acceptTx_of_decoded (s.elapse dt) init t 0 (xclk (s.elapse dt) + 1) g hdec
  rw [execWharfAccept_next s dt init t hav, portAccept_presented (s.elapse dt) init t hi hcur, hacc]
  exact ⟨_, rfl, rfl, rfl, vput_get_self _ _ _, rfl⟩

theorem execWharfAccept_tender (s : State) (dt : Nat) (init : Fin 16) (t : Tx) (h : init.val < 12) (p : Fin 4) (o : XluOp) (g : Fin 20)
    (hav : Available s) (hcur : s.wharf.cur.get init < 32) (hpick : tenderPick (s.elapse dt) ⟨init.val, h⟩ = some (p, o))
    (hat : (s.basins.get ⟨init.val, h⟩).tenderAt ≠ some (xclk (s.elapse dt))) (hdec : decodeTx s init (tenderTx p o) = .inr g) :
    ∃ u, exec (.wharfAccept dt init t) s = .next u ∧
      u.wharf.reqs = s.wharf.reqs ++
        [{ init := init, target := g, tx := tenderTx p o, qos := qosOf (s.elapse dt) init o.world
           since := xclk (s.elapse dt) + 1, seq := s.wharf.seq, load := o.load, irq := intenReg (s.elapse dt)
           win := s.ferry.win.get (pcioWindow o.addr.toNat) }] ∧
      (u.basins.get ⟨init.val, h⟩).tender = dropFirst (fun q => q.1 == p) (s.basins.get ⟨init.val, h⟩).tender ∧
      (u.basins.get ⟨init.val, h⟩).tenderRr = p ∧
      u.wharf.cur.get init = s.wharf.cur.get init + 1 ∧ u.wharf.resps = s.wharf.resps ∧ u.barges = s.barges ∧
      SameMemory s u := by
  obtain ⟨w, ⟨_, _, _, _, _, _, _, rfl⟩, hacc⟩ :=
    acceptTx_of_decoded ((s.elapse dt).modBasin ⟨init.val, h⟩ fun x => { x with
      tender := dropFirst (fun q => q.1 == p) x.tender, tenderRr := p, tenderAt := some (xclk (s.elapse dt)) })
      init (tenderTx p o) o.load (xclk (s.elapse dt) + 1) g hdec
  rw [execWharfAccept_next s dt init t hav, portAccept_tender (s.elapse dt) init t h p o hpick hcur hat, hacc]
  refine ⟨_, rfl, rfl, ?_, ?_, vput_get_self _ _ _, rfl, rfl, ?_⟩
  · simp
  · simp
  · exact sameMemory_of_mems (by simp)

/-- A decode error is counted while CNTEN = 1, and recorded unless the XCLK already has a record (R243, R248). -/
theorem noteDecerr_effect (irq : Bool) (init : Fin 16) (t : Tx) (reason : Nat) (s : State) :
    (noteDecerr irq init t reason s).wharf.reqs = s.wharf.reqs ∧ (noteDecerr irq init t reason s).wharf.resps = s.wharf.resps ∧
    (noteDecerr irq init t reason s).wharf.decCnt = (if s.wharf.cnten then s.wharf.decCnt + 1 else s.wharf.decCnt) ∧
    (noteDecerr irq init t reason s).wharf.intDecerr = true ∧
    (s.wharf.decAt ≠ some (xclk s) → (noteDecerr irq init t reason s).wharf.decAddr = t.addr) ∧
    (noteDecerr irq init t reason s).barges = s.barges := by
  unfold noteDecerr
  extract_lets w later w1 w2 s1
  have hw1 : w1.reqs = s.wharf.reqs ∧ w1.resps = s.wharf.resps ∧
      w1.decCnt = (if s.wharf.cnten then s.wharf.decCnt + 1 else s.wharf.decCnt) ∧ w1.intDecerr = true := ⟨rfl, rfl, rfl, rfl⟩
  have hw2 : w2.reqs = w1.reqs ∧ w2.resps = w1.resps ∧ w2.decCnt = w1.decCnt ∧ w2.intDecerr = w1.intDecerr := by
    simp only [w2]
    split <;> exact ⟨rfl, rfl, rfl, rfl⟩
  have haddr : s.wharf.decAt ≠ some (xclk s) → w2.decAddr = t.addr := fun h => by
    simp only [w2]
    rw [if_neg (by simp [later, w, h])]
  have hwharf : (if irq then s1.notify (.decerr t.addr (decerrInfo init t reason)) else s1).wharf = w2 := by split <;> rfl
  have hbarges : (if irq then s1.notify (.decerr t.addr (decerrInfo init t reason)) else s1).barges = s.barges := by split <;> rfl
  obtain ⟨hreqs1, hresps1, hcnt1, hint1⟩ := hw1
  obtain ⟨hreqs2, hresps2, hcnt2, hint2⟩ := hw2
  rw [hwharf, hbarges]
  exact ⟨hreqs2.trans hreqs1, hresps2.trans hresps1, hcnt2.trans hcnt1, hint2.trans hint1, haddr, rfl⟩

/-- One that does not decode is answered by the Wharf itself. -/
theorem acceptTx_of_undecoded (s : State) (init : Fin 16) (t : Tx) (load since reason : Nat) (h : decodeTx s init t = .inl reason) :
    ∃ w, CountersMoved s.wharf w ∧ acceptTx init t load since s = respondDecerr (acceptedReq s init t load since 0) reason { s with
      wharf := { w with cur := vput s.wharf.cur init (s.wharf.cur.get init + 1), seq := s.wharf.seq + 1 } } := by
  obtain ⟨w, hw, htakes⟩ := portTakes_counted s init (.outstanding init (s.wharf.cur.get init + 1))
  refine ⟨w, hw, ?_⟩
  rw [acceptTx_eq, h, htakes]

/-- An answer other than REFUSED, whose initiator was not reset. -/
theorem respond_of_kept (r : WharfReq) (status : TxStatus) (data : List Word) (s : State) (hr : r.drop = false)
    (hs : status ≠ .refused) :
    respond r status data s = { s with wharf := { s.wharf with resps := s.wharf.resps ++
      [{ init := r.init, id := r.tx.id, write := r.tx.write, status := status, data := data, seq := r.seq, load := r.load }] } } := by
  cases status with
  | ok => simp [respond, hr]
  | decerr => simp [respond, hr]
  | refused => exact absurd rfl hs

/-- A decode error is answered to its initiator (R242, R243). -/
theorem respondDecerr_effect (r : WharfReq) (reason : Nat) (s : State) (hr : r.drop = false) :
    (respondDecerr r reason s).wharf.reqs = s.wharf.reqs ∧
    (∃ q, (respondDecerr r reason s).wharf.resps = s.wharf.resps ++ [q] ∧ q.init = r.init ∧ q.id = r.tx.id ∧ q.status = .decerr ∧
      q.data = []) ∧
    (respondDecerr r reason s).wharf.decCnt = (if s.wharf.cnten then s.wharf.decCnt + 1 else s.wharf.decCnt) ∧
    (respondDecerr r reason s).wharf.intDecerr = true ∧
    (s.wharf.decAt ≠ some (xclk s) → (respondDecerr r reason s).wharf.decAddr = r.tx.addr) ∧
    (respondDecerr r reason s).barges = s.barges := by
  obtain ⟨hreqs, hresps, hcnt, hint, haddr, hbarges⟩ := noteDecerr_effect r.irq.1 r.init r.tx reason s
  rw [respondDecerr, respond_of_kept r .decerr [] _ hr nofun]
  exact ⟨hreqs, ⟨_, congrArg (· ++ _) hresps, rfl, rfl, rfl, rfl⟩, hcnt, hint, haddr, hbarges⟩

theorem execWharfAccept_undecoded (s : State) (dt : Nat) (init : Fin 16) (t : Tx) (reason : Nat) (hav : Available s)
    (hi : 12 ≤ init.val) (hcur : s.wharf.cur.get init < 32) (hdec : decodeTx s init t = .inl reason) :
    ∃ u, exec (.wharfAccept dt init t) s = .next u ∧ u.wharf.reqs = s.wharf.reqs ∧
      (∃ r, u.wharf.resps = s.wharf.resps ++ [r] ∧ r.init = init ∧ r.id = t.id ∧ r.status = .decerr ∧ r.data = []) ∧
      u.wharf.decCnt = (if s.wharf.cnten then s.wharf.decCnt + 1 else s.wharf.decCnt) ∧ u.wharf.intDecerr = true ∧
      (s.wharf.decAt ≠ some (xclk (s.elapse dt)) → u.wharf.decAddr = t.addr) ∧
      u.barges = s.barges ∧ SameMemory s u := by
  have hmems : (portAccept init t (s.elapse dt)).mems = s.mems := by simp
  obtain ⟨w, ⟨_, _, _, _, _, _, _, rfl⟩, hacc⟩ :=
    acceptTx_of_undecoded (s.elapse dt) init t 0 (xclk (s.elapse dt) + 1) reason hdec
  obtain ⟨hreqs, hresps, hcnt, hint, haddr, hbarges⟩ := respondDecerr_effect
    (acceptedReq (s.elapse dt) init t 0 (xclk (s.elapse dt) + 1) 0) reason { s.elapse dt with wharf := _ } rfl
  rw [← hacc, ← portAccept_presented (s.elapse dt) init t hi hcur] at hreqs hresps hcnt hint haddr hbarges
  exact ⟨_, execWharfAccept_next s dt init t hav, hreqs, hresps, hcnt, hint, haddr, hbarges, sameMemory_of_mems hmems⟩

/-! ### WHARF_CNTCLR (R248) -/

/-- The Wharf whose counters are cleared, but for the events of the XCLK. -/
def countersCleared (s : State) : Wharf :=
  { s.wharf with
    tgrant := Vector.replicate 20 0, twait := Vector.replicate 20 0, tmaxw := Vector.replicate 20 0
    istall := Vector.replicate 16 0, maxOut := Vector.replicate 16 0
    stallSince := s.wharf.stallSince.map fun a => a.map fun _ => xclk s }

theorem foldl_count_countersMoved (l : List (Nat × CountEvent)) (w : Wharf) :
    CountersMoved w (l.foldl (fun w x => w.count x.2) w) := by
  induction l generalizing w with
  | nil => exact .refl w
  | cons x l ih => exact (w.count_countersMoved x.2).trans (ih _)

theorem clearCounters_eq (s : State) :
    clearCounters s = { s with
      wharf := (s.wharf.recent.filter fun x => x.1 == xclk s).foldl (fun w x => w.count x.2) (countersCleared s) } := rfl

theorem clearCounters_countersMoved (s : State) : CountersMoved s.wharf (clearCounters s).wharf := by
  rw [clearCounters_eq]
  exact CountersMoved.trans ⟨_, _, _, _, _, _, _, rfl⟩ (foldl_count_countersMoved _ (countersCleared s))

theorem vreplicate_get {α : Type} (n : Nat) (x : α) (i : Fin n) : (Vector.replicate n x).get i = x := by simp [vget_eq]

theorem execWharfCntclr_effect (s : State) (dt : Nat) (hav : Available s) :
    ∃ u, exec (.wharfCntclr dt) s = .next u ∧ u = { s.elapse dt with wharf := u.wharf } ∧
      ((∀ e ∈ s.wharf.recent, e.1 ≠ xclk (s.elapse dt)) →
        (∀ g, u.wharf.tgrant.get g = 0 ∧ u.wharf.twait.get g = 0 ∧ u.wharf.tmaxw.get g = 0) ∧
        ∀ i, u.wharf.istall.get i = 0 ∧ u.wharf.maxOut.get i = 0) ∧
      (∀ g w, s.wharf.recent = [(xclk (s.elapse dt), .grant g w)] →
        u.wharf.tgrant.get g = 1 ∧ u.wharf.twait.get g = BitVec.ofNat 36 w) ∧
      u.wharf.cur = s.wharf.cur ∧
      u.wharf.decCnt = s.wharf.decCnt ∧ u.wharf.refCnt = s.wharf.refCnt ∧ u.wharf.qos = s.wharf.qos ∧
      u.wharf.reqs = s.wharf.reqs ∧ u.wharf.resps = s.wharf.resps := by
  refine ⟨clearCounters (s.elapse dt), act_next s dt _ hav.1 hav.2, rfl, fun hold => ?_, fun g w hnow => ?_, ?_⟩
  · have hnone : ((s.elapse dt).wharf.recent.filter fun x => x.1 == xclk (s.elapse dt)) = [] :=
      List.filter_eq_nil_iff.2 fun e he => by simpa using hold e he
    rw [clearCounters_eq, hnone]
    exact ⟨fun g => ⟨vreplicate_get _ _ _, vreplicate_get _ _ _, vreplicate_get _ _ _⟩, fun i => ⟨vreplicate_get _ _ _, vreplicate_get _ _ _⟩⟩
  · have hone : ((s.elapse dt).wharf.recent.filter fun x => x.1 == xclk (s.elapse dt)) = [(xclk (s.elapse dt), .grant g w)] := by
      rw [State.elapse_wharf, hnow]
      simp
    rw [clearCounters_eq, hone]
    simp [Wharf.count, countersCleared]
  · obtain ⟨_, _, _, _, _, _, _, hw⟩ := clearCounters_countersMoved (s.elapse dt)
    rw [hw]
    exact ⟨rfl, rfl, rfl, rfl, rfl, rfl⟩

/-! ### TARGET_RESPONSE (R242) -/

/-- A response leaves those on their way, and its initiator's place is free. -/
def delivered (s : State) (init : Fin 16) (id : BitVec 5) : State :=
  { s with wharf := { s.wharf with
    resps := dropFirst (fun r => r.init == init && r.id == id) s.wharf.resps, cur := vmod s.wharf.cur init (· - 1) } }

theorem portResponse_barge (s : State) (init : Fin 16) (id : BitVec 5) (r : WharfResp) (h : init.val < 12)
    (hr : s.wharf.resps.find? (fun x => x.init == init && x.id == id) = some r) :
    portResponse init id s =
      (delivered s init id).modBarge (bargeOf ⟨init.val, h⟩ ⟨id.toNat % 4, Nat.mod_lt _ (by decide)⟩) fun b =>
        { b with xluResps := b.xluResps ++ [{ write := r.write, load := r.load, data := r.data.headD 0, ok := r.status == .ok }] } := by
  rw [portResponse, hr]
  dsimp only
  rw [dif_pos h]
  rfl

theorem execTargetResponse_next (s : State) (dt : Nat) (init : Fin 16) (id : BitVec 5) (hav : Available s) :
    exec (.targetResponse dt init id) s = .next ((if init = 14 then tlResponse id else portResponse init id) (s.elapse dt)) :=
  act_next s dt _ hav.1 hav.2

theorem execTargetResponse_barge (s : State) (dt : Nat) (init : Fin 16) (id : BitVec 5) (r : WharfResp) (h : init.val < 12)
    (hav : Available s) (hr : s.wharf.resps.find? (fun x => x.init == init && x.id == id) = some r) :
    let g := bargeOf ⟨init.val, h⟩ ⟨id.toNat % 4, Nat.mod_lt _ (by decide)⟩
    ∃ u, exec (.targetResponse dt init id) s = .next u ∧
      u.barges.get g = { s.barges.get g with xluResps := (s.barges.get g).xluResps ++
        [{ write := r.write, load := r.load, data := r.data.headD 0, ok := r.status == .ok }] } ∧
      (∀ k, k ≠ g → u.barges.get k = s.barges.get k) ∧ u.wharf.cur.get init = s.wharf.cur.get init - 1 ∧
      u.wharf.resps = dropFirst (fun x => x.init == init && x.id == id) s.wharf.resps ∧ SameMemory s u := by
  intro g
  have hne : init ≠ 14 := fun e => by subst e; exact absurd h (by decide)
  rw [execTargetResponse_next s dt init id hav, if_neg hne, portResponse_barge (s.elapse dt) init id r h hr]
  refine ⟨_, rfl, vmod_get_self _ _ _, fun k hk => vmod_get_ne _ _ _ _ hk, vmod_get_self _ _ _, rfl, sameMemory_of_mems ?_⟩
  simp [delivered]

theorem portResponse_other (s : State) (init : Fin 16) (id : BitVec 5) (r : WharfResp) (hi : 12 ≤ init.val) (hne : init ≠ 15)
    (hr : s.wharf.resps.find? (fun x => x.init == init && x.id == id) = some r) :
    portResponse init id s = delivered s init id := by
  rw [portResponse, hr]
  dsimp only
  rw [dif_neg (by omega), if_neg hne]
  rfl

/-- The status of a response as the JTAG access register shows it (R409). -/
def jtagStatusOf : TxStatus → BitVec 2
  | .ok => 0
  | .decerr => 1
  | .refused => 2

theorem portResponse_debug (s : State) (id : BitVec 5) (r : WharfResp)
    (hr : s.wharf.resps.find? (fun x => x.init == 15 && x.id == id) = some r) :
    portResponse 15 id s = debugPresent (if s.sec.dbgWait.isSome then delivered s 15 id
      else { delivered s 15 id with sec := { s.sec with
        jtagStatus := jtagStatusOf r.status, jtagData := if r.write then s.sec.jtagData else r.data.headD 0 } }) := by
  rw [portResponse, hr]
  dsimp only
  rw [dif_neg (by decide), if_pos rfl]
  cases r.status <;> rfl

/-- A link presents no transaction of its own to the Wharf. -/
def Link.noTx (l : Link) : Prop := l.mtxTxs = [] ∧ ∀ f ∈ l.mrxFrames, f.txs = []

theorem Link.nextTx_of_noTx (l : Link) (h : l.noTx) : l.nextTx = none := by
  obtain ⟨hmtx, hmrx⟩ := h
  unfold Link.nextTx
  rw [hmtx]
  cases hf : l.mrxFrames with
  | nil => rfl
  | cons f fs =>
    have : f.txs = [] := hmrx f (by simp [hf])
    simp [this]

theorem Link.wrote_noTx (l : Link) (h : l.noTx) : l.wrote.noTx := by
  obtain ⟨hmtx, hmrx⟩ := h
  unfold Link.wrote
  split
  next f fs hf =>
    split
    · exact ⟨hmtx, fun x hx => hmrx x (by simp [hf, hx])⟩
    · refine ⟨hmtx, fun x hx => ?_⟩
      rcases List.mem_cons.1 hx with rfl | hx
      · exact hmrx f (by simp [hf])
      · exact hmrx x (by simp [hf, hx])
  next => exact ⟨hmtx, hmrx⟩

theorem tlPresent_of_noTx (s : State) (h : ∀ k, (s.tl.link.get k).noTx) : tlPresent s = s := by
  have hone : tlPresentOne s = s := by
    have hnone : ((List.finRange 16).find? fun n => (s.tl.link.get n).nextTx.isSome) = none :=
      List.find?_eq_none.2 fun n _ => by simp [Link.nextTx_of_noTx _ (h n)]
    rw [tlPresentOne, hnone]
  have hfold : ∀ l : List Nat, l.foldl (fun s _ => tlPresentOne s) s = s := fun l => by
    induction l with
    | nil => rfl
    | cons a l ih => rw [List.foldl_cons, hone, ih]
  exact hfold _

theorem modLink_noTx (s : State) (n : Fin 16) (f : Link → Link) (hf : ∀ l : Link, l.noTx → (f l).noTx)
    (h : ∀ k, (s.tl.link.get k).noTx) : ∀ k, ((s.modLink n f).tl.link.get k).noTx := fun k => by
  rw [State.modLink_tl, vmod_get]
  split
  · exact hf _ (h _)
  · exact h k

theorem tlSendMaint_noTx (n : Fin 16) (s : State) (h : ∀ k, (s.tl.link.get k).noTx) :
    (∀ k, ((tlSendMaint n s).tl.link.get k).noTx) ∧ ∃ tl, tlSendMaint n s = { s with tl := tl } := by
  unfold tlSendMaint
  extract_lets l
  split
  · exact ⟨modLink_noTx s n _ (fun l hl => hl) h, _, rfl⟩
  · exact ⟨h, s.tl, rfl⟩

/-- A response reaches TOWLINE while no link has a transaction to present: nothing but its links changes beside the delivery. -/
theorem tlResponse_of_noTx (s : State) (id : BitVec 5) (r : WharfResp) (h : ∀ k, (s.tl.link.get k).noTx)
    (hr : s.wharf.resps.find? (fun x => x.init == 14 && x.id == id) = some r) :
    ∃ tl, tlResponse id s = { delivered s 14 id with tl := tl } := by
  rw [tlResponse, hr]
  dsimp only
  rw [portResponse_other s 14 id r (by decide) (by decide) hr]
  obtain ⟨hno, tl, htl⟩ := tlSendMaint_noTx ⟨id.toNat % 16, Nat.mod_lt _ (by decide)⟩ _
    (modLink_noTx (delivered s 14 id) ⟨id.toNat % 16, Nat.mod_lt _ (by decide)⟩
      (fun l => if r.write then l.wrote else l.gotWord (r.data.headD 0)) (fun l hl => by split; exacts [l.wrote_noTx hl, hl]) h)
  exact ⟨tl, (tlPresent_of_noTx _ hno).trans htl⟩

theorem execTargetResponse_other (s : State) (dt : Nat) (init : Fin 16) (id : BitVec 5) (r : WharfResp) (hav : Available s)
    (hi : 12 ≤ init.val) (hr : s.wharf.resps.find? (fun x => x.init == init && x.id == id) = some r)
    (hwait : init = 15 → s.sec.dbgWait = none)
    (hlinks : init = 14 → ∀ k, (s.tl.link.get k).mtxTxs = [] ∧ ∀ f ∈ (s.tl.link.get k).mrxFrames, f.txs = []) :
    ∃ u, exec (.targetResponse dt init id) s = .next u ∧ u.barges = s.barges ∧
      u.wharf.cur.get init = s.wharf.cur.get init - 1 ∧
      u.wharf.resps = dropFirst (fun x => x.init == init && x.id == id) s.wharf.resps ∧
      (init = 15 → u.sec.jtagStatus.toNat = (if r.status = .ok then 0 else if r.status = .decerr then 1 else 2) ∧
        u.sec.jtagData = if r.write then s.sec.jtagData else r.data.headD 0) ∧
      (init ≠ 15 → u.sec = s.sec) ∧ SameMemory s u := by
  rw [execTargetResponse_next s dt init id hav]
  by_cases h14 : init = 14
  · subst h14
    obtain ⟨tl, htl⟩ := tlResponse_of_noTx (s.elapse dt) id r (hlinks rfl) hr
    rw [if_pos rfl, htl]
    exact ⟨_, rfl, rfl, vmod_get_self _ _ _, rfl, fun h => absurd h (by decide), fun _ => rfl,
      sameMemory_of_mems (by simp [delivered])⟩
  · rw [if_neg h14]
    by_cases h15 : init = 15
    · subst h15
      have hnone : (s.elapse dt).sec.dbgWait = none := hwait rfl
      rw [portResponse_debug (s.elapse dt) id r hr, if_neg (by simp [hwait rfl]), debugPresent]
      dsimp only
      rw [hnone]
      refine ⟨_, rfl, rfl, vmod_get_self _ _ _, rfl, fun _ => ⟨?_, rfl⟩, fun h => absurd rfl h, sameMemory_of_mems (by simp [delivered])⟩
      cases r.status <;> rfl
    · rw [portResponse_other (s.elapse dt) init id r hi h15 hr]
      exact ⟨_, rfl, rfl, vmod_get_self _ _ _, rfl, fun h => absurd h h15, fun _ => rfl, sameMemory_of_mems (by simp [delivered])⟩

theorem execTargetResponse_debugWaits (s : State) (dt : Nat) (id : BitVec 5) (r : WharfResp) (t : Tx) (g : Fin 20) (hav : Available s)
    (hr : s.wharf.resps.find? (fun x => x.init == 15 && x.id == id) = some r) (hwait : s.sec.dbgWait = some t)
    (hcur : s.wharf.cur.get 15 = 32) (hdec : decodeTx s 15 t = .inr g) :
    ∃ u, exec (.targetResponse dt 15 id) s = .next u ∧ u.barges = s.barges ∧ u.sec = { s.sec with dbgWait := none } ∧
      u.wharf.cur.get 15 = 32 ∧ u.wharf.resps = dropFirst (fun x => x.init == 15 && x.id == id) s.wharf.resps ∧
      (∃ q, u.wharf.reqs = s.wharf.reqs ++ [q] ∧ q.tx = t ∧ q.init = 15 ∧ q.target = g ∧ q.since = xclk (s.elapse dt) + 1) ∧
      SameMemory s u := by
  have hmems : (portResponse 15 id (s.elapse dt)).mems = s.mems := by simp
  have hplace : (delivered (s.elapse dt) 15 id).wharf.cur.get 15 = 31 := by
    simp [delivered, hcur]
  obtain ⟨w, ⟨_, _, _, _, _, _, _, rfl⟩, hacc⟩ := acceptTx_of_decoded
    { delivered (s.elapse dt) 15 id with sec := { s.sec with dbgWait := none } } 15 t 0 (xclk (s.elapse dt) + 1) g hdec
  have hpresent : portResponse 15 id (s.elapse dt) = acceptTx 15 t 0 (xclk (s.elapse dt) + 1)
      { delivered (s.elapse dt) 15 id with sec := { s.sec with dbgWait := none } } := by
    rw [portResponse_debug (s.elapse dt) id r hr, if_pos (by simp [hwait]), debugPresent]
    have hw : (delivered (s.elapse dt) 15 id).sec.dbgWait = some t := hwait
    rw [hw]
    dsimp only
    rw [if_neg (by simp [portFull, hplace])]
    exact portAccept_presented _ 15 t (by decide) (by rw [hplace]; decide)
  rw [execTargetResponse_next s dt 15 id hav, if_neg (by decide)]
  refine ⟨_, rfl, ?_⟩
  rw [hpresent, hacc] at hmems ⊢
  refine ⟨rfl, rfl, ?_, rfl, ⟨_, rfl, rfl, rfl, rfl, rfl⟩, sameMemory_of_mems hmems⟩
  rw [vput_get_self]
  exact congrArg (· + 1) hplace

/-! ### A write of the Wharf's interrupt enables through the bridge (R235, R239, R248) -/

/-- A target considers a transaction in XCLK k (R239, R240). -/
def considers (s : State) (g : Fin 20) (k : Nat) (r : WharfReq) : Bool :=
  r.target == g && decide (r.since ≤ k) && placeFree s r && !(s.wharf.reqs.any fun q => sameOrder q r && decide (q.seq < r.seq)) &&
    !(decide (17 ≤ r.target.val) && behindTaken s r) && !rvTaken s r k

theorem considered_eq (s : State) (g : Fin 20) (k : Nat) : considered s g k = s.wharf.reqs.filter (considers s g k) := rfl

theorem considers_of_target_ne (s : State) (g : Fin 20) (k : Nat) (r : WharfReq) (h : r.target ≠ g) : considers s g k r = false := by
  simp [considers, h]

/-- At PER no earlier handover holds a transaction back where none goes on. -/
theorem behindTaken_per (s : State) (r : WharfReq) (hr : r.target = 17) (hacks : ∀ n, (s.basins.get n).hoAcks = []) :
    behindTaken s r = false := by
  rw [behindTaken, dif_neg (by simp [hr]), if_pos hr]
  refine List.any_eq_false.2 fun x hx => ?_
  obtain ⟨n, hn, rfl⟩ := Vector.getElem_of_mem (Vector.mem_toList_iff.1 hx)
  have hnone : (s.basins[n]'hn).hoAcks = [] := hacks ⟨n, hn⟩
  simp [hnone]

/-- PER considers no transaction but the one that arrives last, where none waits at it and no handover goes on. -/
theorem considered_last (s : State) (r : WharfReq) (reqs : List WharfReq) (k : Nat) (hreqs : s.wharf.reqs = reqs ++ [r])
    (hr : r.target = 17) (hsince : r.since ≤ k) (hothers : ∀ q ∈ reqs, q.target ≠ 17) (hacks : ∀ n, (s.basins.get n).hoAcks = []) :
    considered s 17 k = [r] := by
  have hfirst : s.wharf.reqs.any (fun q => sameOrder q r && decide (q.seq < r.seq)) = false := by
    rw [hreqs, List.any_append, Bool.or_eq_false_iff]
    exact ⟨List.any_eq_false.2 fun q hq => by simp [sameOrder, hr, hothers q hq], by simp⟩
  have hlast : considers s 17 k r = true := by
    simp [considers, placeFree, rvTaken, hr, hsince, hfirst, behindTaken_per s r hr hacks]
  have hnone : reqs.filter (considers s 17 k) = [] :=
    List.filter_eq_nil_iff.2 fun q hq => by simp [considers_of_target_ne s 17 k q (hothers q hq)]
  rw [considered_eq, hreqs, List.filter_append, hnone, List.nil_append]
  simp [hlast]

theorem grantPick_last (s : State) (r : WharfReq) (reqs : List WharfReq) (k : Nat) (hreqs : s.wharf.reqs = reqs ++ [r])
    (hr : r.target = 17) (hsince : r.since ≤ k) (hothers : ∀ q ∈ reqs, q.target ≠ 17) (hacks : ∀ n, (s.basins.get n).hoAcks = [])
    (hbusy : s.wharf.busyTill.get 17 ≤ k) : grantPick s 17 k = some r := by
  rw [grantPick, if_neg (by omega), considered_last s r reqs k hreqs hr hsince hothers hacks]
  rfl

/-- A word's write that the Harbourmaster makes through the bridge. -/
def bridgeWrite (a : BitVec 32) (v : Word) : Tx :=
  { addr := a, write := true, size := .word, id := 0, world := false, data := [v] }

theorem decodeTx_wharfInten (s : State) (v : Word) : decodeTx s 12 (bridgeWrite 0x2000000C v) = .inr 17 := by
  simp [decodeTx, decodeTarget, permitted, sizeAccepted, bridgeWrite, txLo, txLen]

/-- What a transaction that PER grants at once leaves beside its own effect: its acceptance and its grant. -/
theorem directTx_per (perform : WharfReq → State → State) (t : Tx) (s : State) (hfull : s.wharf.cur.get 12 < 32)
    (hdec : decodeTx s 12 t = .inr 17) (hreqs : ∀ r ∈ s.wharf.reqs, r.seq ≠ s.wharf.seq ∧ r.target ≠ 17)
    (hbusy : s.wharf.busyTill.get 17 ≤ xclk s) (hdirect : (s.wharf.directAt.get 12).all (fun k => k ≤ xclk s) = true)
    (hacks : ∀ n, (s.basins.get n).hoAcks = []) :
    (directTx perform 12 t 0 s) =
      takeResponse 12 s.wharf.seq (perform (acceptedReq s 12 t 0 ((s.wharf.directAt.get 12).getD (xclk s)) 17)
        (noteGrant (acceptedReq s 12 t 0 ((s.wharf.directAt.get 12).getD (xclk s)) 17) (xclk s)
          (acceptTx 12 t 0 ((s.wharf.directAt.get 12).getD (xclk s))
            { s with wharf := { s.wharf with directAt := vput s.wharf.directAt 12 none } }))) := by
  have hsince : (s.wharf.directAt.get 12).getD (xclk s) ≤ xclk s := by
    cases h : s.wharf.directAt.get 12 with
    | none => exact Nat.le_refl _
    | some k => simpa [h] using hdirect
  have hfind : ∀ since, (acceptTx 12 t 0 since s).wharf.reqs.find? (fun r => r.seq == s.wharf.seq) =
      some (acceptedReq s 12 t 0 since 17) := fun since => by
    obtain ⟨w, ⟨_, _, _, _, _, _, _, rfl⟩, hacc⟩ := acceptTx_of_decoded s 12 t 0 since 17 hdec
    rw [hacc]
    have hnone : s.wharf.reqs.find? (fun r => r.seq == s.wharf.seq) = none :=
      List.find?_eq_none.2 fun r hr => by simp [(hreqs r hr).1]
    simp [List.find?_append, hnone, acceptedReq]
  have hgrant : ∀ since ≤ xclk s, grantPick (acceptTx 12 t 0 since s) 17 (xclk s) = some (acceptedReq s 12 t 0 since 17) :=
    fun since hsince => by
      obtain ⟨w, ⟨_, _, _, _, _, _, _, rfl⟩, hacc⟩ := acceptTx_of_decoded s 12 t 0 since 17 hdec
      rw [hacc]
      exact grantPick_last _ _ s.wharf.reqs _ rfl rfl hsince (fun q hq => (hreqs q hq).2) hacks hbusy
  rw [directTx]
  simp only [if_true, Nat.add_zero]
  rw [if_neg (by simp [portFull, hfull]), hfind]
  dsimp only
  rw [show (acceptedReq s 12 t 0 ((s.wharf.directAt.get 12).getD (xclk s)) 17).target = 17 from rfl, hgrant _ hsince]
  simp [portReady, acceptedReq]

/-- `t` is `s` but for the Wharf, whose counts of errors and QoS are as they were. -/
def ErrorsKept (s t : State) : Prop :=
  t = { s with wharf := t.wharf } ∧ t.wharf.decCnt = s.wharf.decCnt ∧ t.wharf.refCnt = s.wharf.refCnt ∧ t.wharf.qos = s.wharf.qos

theorem ErrorsKept.trans {s t u : State} (h : ErrorsKept s t) (k : ErrorsKept t u) : ErrorsKept s u := by
  obtain ⟨ht, hdc, hrc, hq⟩ := h
  obtain ⟨hu, kdc, krc, kq⟩ := k
  refine ⟨?_, kdc.trans hdc, krc.trans hrc, kq.trans hq⟩
  rw [hu, ht]

/-- The Wharf's interrupt enables are those of a value. -/
def EnablesAre (v : Word) (s : State) : Prop := s.wharf.enDecerr = bit v 0 ∧ s.wharf.enRefuse = bit v 1

theorem wharfWrite_inten (v : Word) (s : State) :
    wharfWrite 3 v s = some { s with wharf := { s.wharf with
      enDecerr := bit v 0, enRefuse := bit v 1, enWas := some (xclk s, intenReg s) } } := by
  simp [wharfWrite, wharfRead]

theorem perWrite_inten (v : Word) (s : State) : perWrite 0x2000000C v s = wharfWrite 3 v s := by
  simp [perWrite]

theorem respond_errorsKept (r : WharfReq) (data : List Word) (s : State) (hr : r.drop = false) :
    ErrorsKept s (respond r .ok data s) := by
  rw [respond_of_kept r .ok data s hr nofun]
  exact ⟨rfl, rfl, rfl, rfl⟩

/-- PER performs the write of WHARF_INTEN. -/
theorem performPer_inten (r : WharfReq) (v : Word) (s : State) (hr : r.tx = bridgeWrite 0x2000000C v) (hdrop : r.drop = false) :
    ErrorsKept s (performPer r s) ∧ EnablesAre v (performPer r s) := by
  have haddr : r.tx.addr.toNat = 0x2000000C := by rw [hr]; rfl
  have hdata : r.tx.data.headD 0 = v := by rw [hr]; rfl
  have hper : performPer r s = performRegister perRead perWrite 0x2000000C r s := by
    rw [performPer]
    dsimp only
    rw [dif_neg (by omega), haddr]
  rw [hper, performRegister, if_pos (by rw [hr]; rfl), hdata, perWrite_inten, wharfWrite_inten]
  dsimp only [Option.elim]
  refine ⟨ErrorsKept.trans ⟨rfl, rfl, rfl, rfl⟩ (respond_errorsKept r [] _ hdrop), ?_⟩
  rw [respond_of_kept r .ok [] _ hdrop nofun]
  exact ⟨rfl, rfl⟩

theorem noteGrant_eq (r : WharfReq) (k : Nat) (s : State) :
    ∃ w, CountersMoved s.wharf w ∧ noteGrant r k s = { s with wharf := { w with
      rr := vput s.wharf.rr r.target r.init, busyTill := vput s.wharf.busyTill r.target (k + txBeats r.tx)
      reqs := s.wharf.reqs.filter fun q => q.seq != r.seq } } := by
  rw [noteGrant]
  obtain ⟨tg, tw, tm, mo, re, is, ss, hw⟩ := Wharf.countAt_countersMoved { s.wharf with
    rr := vput s.wharf.rr r.target r.init, busyTill := vput s.wharf.busyTill r.target (k + txBeats r.tx)
    reqs := s.wharf.reqs.filter fun q => q.seq != r.seq } k (.grant r.target (k - r.since))
  exact ⟨_, ⟨tg, tw, tm, mo, re, is, ss, rfl⟩, by rw [hw]⟩

theorem acceptTx_errorsKept (s : State) (init : Fin 16) (t : Tx) (load since : Nat) (g : Fin 20) (h : decodeTx s init t = .inr g) :
    ErrorsKept s (acceptTx init t load since s) := by
  obtain ⟨w, ⟨_, _, _, _, _, _, _, rfl⟩, hacc⟩ := acceptTx_of_decoded s init t load since g h
  rw [hacc]
  exact ⟨rfl, rfl, rfl, rfl⟩

theorem noteGrant_errorsKept (r : WharfReq) (k : Nat) (s : State) : ErrorsKept s (noteGrant r k s) := by
  obtain ⟨w, ⟨_, _, _, _, _, _, _, rfl⟩, hgrant⟩ := noteGrant_eq r k s
  rw [hgrant]
  exact ⟨rfl, rfl, rfl, rfl⟩

theorem takeResponse_errorsKept (init : Fin 16) (q : Nat) (s : State) : ErrorsKept s (takeResponse init q s).2 := by
  unfold takeResponse
  split <;> exact ⟨rfl, rfl, rfl, rfl⟩

theorem takeResponse_enables (v : Word) (init : Fin 16) (q : Nat) (s : State) (h : EnablesAre v s) :
    EnablesAre v (takeResponse init q s).2 := by
  unfold takeResponse
  split <;> exact h

/-- The write of WHARF_INTEN, where port and bridge are free. -/
theorem busWrite_inten (v : Word) (s : State) (hfull : s.wharf.cur.get 12 < 32)
    (hreqs : ∀ r ∈ s.wharf.reqs, r.seq ≠ s.wharf.seq ∧ r.target ≠ 17) (hbusy : s.wharf.busyTill.get 17 ≤ xclk s)
    (hdirect : (s.wharf.directAt.get 12).all (fun k => k ≤ xclk s) = true) (hacks : ∀ n, (s.basins.get n).hoAcks = []) :
    ErrorsKept s (busWrite 12 0x2000000C v s) ∧ EnablesAre v (busWrite 12 0x2000000C v s) := by
  have hdirectTx := directTx_per (fun r s => if r.target.val < 17 then performMemory r s else serve r s) _ s hfull
    (decodeTx_wharfInten s v) hreqs hbusy hdirect hacks
  have hbus : busWrite 12 0x2000000C v s = _ := congrArg Prod.snd hdirectTx
  rw [hbus]
  generalize (s.wharf.directAt.get 12).getD (xclk s) = since
  have hfree : ErrorsKept s { s with wharf := { s.wharf with directAt := vput s.wharf.directAt 12 none } } := ⟨rfl, rfl, rfl, rfl⟩
  have hgranted := (hfree.trans (acceptTx_errorsKept _ 12 (bridgeWrite 0x2000000C v) 0 since 17 (decodeTx_wharfInten _ v))).trans
    (noteGrant_errorsKept (acceptedReq s 12 (bridgeWrite 0x2000000C v) 0 since 17) (xclk s) _)
  generalize noteGrant _ _ _ = s1 at hgranted ⊢
  have hserve : (if (acceptedReq s 12 (bridgeWrite 0x2000000C v) 0 since 17).target.val < 17
      then performMemory (acceptedReq s 12 (bridgeWrite 0x2000000C v) 0 since 17) s1
      else serve (acceptedReq s 12 (bridgeWrite 0x2000000C v) 0 since 17) s1) =
        performPer (acceptedReq s 12 (bridgeWrite 0x2000000C v) 0 since 17) s1 := by
    simp [acceptedReq, serve]
  rw [hserve]
  obtain ⟨hper, hen⟩ := performPer_inten (acceptedReq s 12 (bridgeWrite 0x2000000C v) 0 since 17) v s1 rfl rfl
  have htake := takeResponse_errorsKept 12 s.wharf.seq (performPer (acceptedReq s 12 (bridgeWrite 0x2000000C v) 0 since 17) s1)
  exact ⟨(hgranted.trans hper).trans htake, takeResponse_enables v _ _ _ hen⟩

theorem execRegisterWrite_inten (s : State) (dt : Nat) (v : Word) (hav : Available s)
    (hreqs : ∀ r ∈ s.wharf.reqs, r.seq ≠ s.wharf.seq ∧ r.target ≠ 17) (hfull : s.wharf.cur.get 12 < 32)
    (hbusy : s.wharf.busyTill.get 17 ≤ xclk (s.elapse dt))
    (hdirect : (s.wharf.directAt.get 12).all (fun k => k ≤ xclk (s.elapse dt)) = true) (hacks : ∀ n, (s.basins.get n).hoAcks = []) :
    ∃ t, exec (.registerWrite dt (.per false 0x2000000C) v) s = .next t ∧
      t.wharf.enDecerr = bit v 0 ∧ t.wharf.enRefuse = bit v 1 ∧ t.wharf.decCnt = s.wharf.decCnt ∧
      t.wharf.refCnt = s.wharf.refCnt ∧ t.wharf.qos = s.wharf.qos ∧ OnlyRequests s t ∧ SameMemory s t := by
  have hbus : ∀ s0, ZonesMoved (s.elapse dt) s0 →
      ErrorsKept s0 (busWrite 12 0x2000000C v s0) ∧ EnablesAre v (busWrite 12 0x2000000C v s0) := fun s0 h0 => by
    have hw : s0.wharf = s.wharf := by rw [h0.state]; rfl
    have hx : xclk s0 = xclk (s.elapse dt) := by rw [h0.state]; rfl
    have hb : s0.basins = s.basins := by rw [h0.state]; rfl
    exact busWrite_inten v s0 (by rw [hw]; exact hfull) (by rw [hw]; exact hreqs) (by rw [hw, hx]; exact hbusy)
      (by rw [hw, hx]; exact hdirect) (by rw [hb]; exact hacks)
  obtain ⟨s0, t, h0, ht, hreq, hwharf, hmems⟩ := registerAct_effect s dt (busWrite 12 0x2000000C v) hav fun s0 h0 => by
    rw [(hbus s0 h0).1.1]
    rfl
  obtain ⟨⟨hkept, hdc, hrc, hq⟩, hd, hr⟩ := hbus s0 h0
  have hw : s0.wharf = s.wharf := by rw [h0.state]; rfl
  have hbarges : (busWrite 12 0x2000000C v s0).barges = s0.barges := by rw [hkept]
  have hmems' : t.mems = s.mems := by
    rw [hmems, hkept, State.mems_mk, State.mems_eta, h0.state]
    simp
  refine ⟨t, ht, ?_, ?_, ?_, ?_, ?_, ?_, sameMemory_of_mems hmems'⟩
  · rw [hwharf, hd]
  · rw [hwharf, hr]
  · rw [hwharf, hdc, hw]
  · rw [hwharf, hrc, hw]
  · rw [hwharf, hq, hw]
  · exact onlyRequests_trans (onlyRequests_trans h0.requests (onlyRequests_of_barges hbarges)) hreq

/-- Settles O19, clause by clause: the two register writes, the acceptance at an initiator port, the responses, and the clear. -/
theorem wharfAnswersAndRegistersKeepFields : Obligations.WharfAnswersAndRegistersKeepFields := by
  refine ⟨⟨?_, ?_⟩, ?_, ?_, ?_, ?_, ?_, ?_, execWharfCntclr_effect⟩
  · exact fun s dt g v hav hL hW => execRegisterWrite_gateCnt s dt g v hav hL hW
  · exact fun s dt v hav hreqs hfull hbusy hdirect hacks => execRegisterWrite_inten s dt v hav hreqs hfull hbusy hdirect hacks
  · exact fun s dt init t g hav hi hcur hdec => execWharfAccept_presented s dt init t g hav hi hcur hdec
  · exact fun s dt init t h p o g hav hcur hpick hat hdec => execWharfAccept_tender s dt init t h p o g hav hcur hpick hat hdec
  · exact fun s dt init t reason hav hi hcur hdec => execWharfAccept_undecoded s dt init t reason hav hi hcur hdec
  · exact fun s dt init id r h hav hr => execTargetResponse_barge s dt init id r h hav hr
  · exact fun s dt init id r hav hi hr hwait hlinks => execTargetResponse_other s dt init id r hav hi hr hwait hlinks
  · exact fun s dt id r t g hav hr hwait hcur hdec => execTargetResponse_debugWaits s dt id r t g hav hr hwait hcur hdec

end Sys2Proof.Machine
end

section
/-! The host's accesses and resets (O46). -/

namespace Sys2Proof.Machine

/-! ### Bits of words, bytes and sums of powers -/

theorem bit_ofNat (w x i : Nat) : bit (BitVec.ofNat w x) i = (decide (i < w) && x.testBit i) := by
  simp [bit, BitVec.getLsbD_ofNat]

/-- A sum of distinct powers of two has exactly their bits. -/
theorem testBit_sum_two_pow (l : List Nat) (hl : l.SortedLT) (i : Nat) : ((l.map (2 ^ ·)).sum).testBit i = decide (i ∈ l) := by
  rw [Bool.eq_iff_iff, ← Nat.mem_bitIndices, Nat.bitIndices_sum_map_two_pow hl, decide_eq_true_iff]

/-- A sum over a range of the powers that a condition picks. -/
theorem sum_picked (n : Nat) (p : Nat → Bool) (f : Nat → Nat) :
    ((List.range n).map fun b => if p b then 2 ^ f b else 0).sum = ((((List.range n).filter p).map f).map (2 ^ ·)).sum := by
  induction n with
  | zero => rfl
  | succ n ih =>
    rw [List.range_succ, List.map_append, List.sum_append, ih, List.filter_append, List.map_append, List.map_append, List.sum_append]
    by_cases h : p n <;> simp [h]

/-- The powers that a condition picks, of exponents that rise, set exactly the bits picked. -/
theorem testBit_sum_picked (n : Nat) (p : Nat → Bool) (f : Nat → Nat)
    (hf : ∀ a b, a < b → b < n → p a = true → p b = true → f a < f b) (i : Nat) :
    (((List.range n).map fun b => if p b then 2 ^ f b else 0).sum).testBit i = decide (∃ b, b < n ∧ p b = true ∧ f b = i) := by
  have hs : (((List.range n).filter p).map f).SortedLT := by
    rw [List.sortedLT_iff_pairwise, List.pairwise_map]
    have hlt : ((List.range n).filter p).Pairwise (· < ·) := List.pairwise_lt_range.filter p
    refine hlt.imp_of_mem fun {a b} ha hb hab => ?_
    obtain ⟨-, hpa⟩ := List.mem_filter.1 ha
    obtain ⟨hb, hpb⟩ := List.mem_filter.1 hb
    exact hf a b hab (List.mem_range.1 hb) hpa hpb
  rw [sum_picked, testBit_sum_two_pow _ hs]
  simp [and_assoc]

/-- The value of n nonets has their bits in order (R2). -/
theorem testBit_read (m : Mem) (n : Nat) : ∀ a i, i < 9 * n → (m.read a n).testBit i = bit (m.nonet (a + i / 9)) (i % 9) := by
  induction n with
  | zero => intro a i hi; omega
  | succ n ih =>
    intro a i hi
    have hlow : (m.nonet a).toNat < 2 ^ 9 := (m.nonet a).isLt
    rw [Mem.read, Nat.add_comm, show (512 : Nat) = 2 ^ 9 from rfl, Nat.testBit_two_pow_mul_add _ hlow]
    split
    next h => rw [Nat.div_eq_of_lt h, Nat.mod_eq_of_lt h]; rfl
    next h => rw [ih (a + 1) (i - 9) (by omega), show a + 1 + (i - 9) / 9 = a + i / 9 by omega, show (i - 9) % 9 = i % 9 by omega]

theorem bit_word (m : Mem) (w i : Nat) (hi : i < 36) : bit (m.word w) i = bit (m.nonet (4 * w + i / 9)) (i % 9) := by
  rw [Mem.word, bit_ofNat, testBit_read m 4 _ _ (by omega)]
  simp [hi]

/-- Bytes as a number have their bits in order. -/
theorem testBit_bytesNat (bs : List Byte) : ∀ i, (bytesNat bs).testBit i = bit (bs.getD (i / 8) 0) (i % 8) := by
  induction bs with
  | nil => intro i; simp [bytesNat, bit]
  | cons b bs ih =>
    intro i
    have hlow : b.toNat < 2 ^ 8 := b.isLt
    rw [bytesNat, Nat.add_comm, show (256 : Nat) = 2 ^ 8 from rfl, Nat.testBit_two_pow_mul_add _ hlow]
    split
    next h => rw [Nat.div_eq_of_lt h, Nat.mod_eq_of_lt h]; rfl
    next h => rw [ih (i - 8), show i / 8 = (i - 8) / 8 + 1 by omega, show (i - 8) % 8 = i % 8 by omega, List.getD_cons_succ]

/-- Bits of a word in slot form (R362). -/
theorem bit_slotWord (bs : List Byte) (i : Nat) (hi : i < 36) : bit (slotWord bs) i = bit (bs.getD (i / 8) 0) (i % 8) := by
  rw [slotWord, bit_ofNat, testBit_bytesNat]
  have h5 : i / 8 < 5 := by omega
  simp [hi, List.getD_eq_getElem?_getD, h5]

theorem bit_slotByte (w : Word) (i b : Nat) (hb : b < 8) : bit (slotByte w i) b = (decide (8 * i + b < 36) && bit w (8 * i + b)) := by
  unfold slotByte
  split
  next h =>
    simp [fld, bit, hb]
    omega
  next h =>
    split
    next h4 =>
      subst h4
      simp [fld, bit, hb]
      congr 1
      exact decide_eq_decide.2 (by omega)
    next h4 =>
      have : ¬ 8 * i + b < 36 := by omega
      simp [bit, this]

/-- Two words with the same bits are the same. -/
theorem word_ext {x y : Word} (h : ∀ i, i < 36 → bit x i = bit y i) : x = y :=
  BitVec.eq_of_getLsbD_eq fun i hi => h i hi

/-! ### A view's transaction (R237, R365) -/

/-- The nonets of a word that a condition picks, lowest first. -/
def nonetsWhere (p : Nat → Bool) : List Nat := (List.range 4).filter p

theorem mem_nonetsWhere {p : Nat → Bool} {j : Nat} : j ∈ nonetsWhere p ↔ j < 4 ∧ p j = true := by simp [nonetsWhere]

/-- The places of a word's nonets in its row. -/
def rowPlaces (w : Nat) (p : Nat → Bool) : List Nat := (nonetsWhere p).map fun j => 4 * (w % 8) + j

theorem mem_rowPlaces {w : Nat} {p : Nat → Bool} {i : Nat} :
    i ∈ rowPlaces w p ↔ ∃ j, (j < 4 ∧ p j = true) ∧ 4 * (w % 8) + j = i := by
  simp [rowPlaces, mem_nonetsWhere]

theorem rowPlaces_sorted (w : Nat) (p : Nat → Bool) : (rowPlaces w p).SortedLT := by
  rw [List.sortedLT_iff_pairwise, rowPlaces, List.pairwise_map]
  exact (List.pairwise_lt_range.filter p).imp fun h => by omega

theorem foldl_add_two_pow (c : Nat) (l : List Nat) (m : Nat) :
    l.foldl (fun m j => m + 2 ^ (c + j)) m = m + ((l.map fun j => c + j).map (2 ^ ·)).sum := by
  induction l generalizing m with
  | nil => rfl
  | cons a l ih => rw [List.foldl_cons, ih]; simp [Nat.add_assoc]

theorem viewTx_enabled (w : Nat) (write : Bool) (p : Nat → Bool) (v : Word) (i : Nat) (hi : i < 32) :
    txEnabled (viewTx w write (nonetsWhere p) v) i = decide (i ∈ rowPlaces w p) := by
  show bit (BitVec.ofNat 32 _) i = _
  rw [bit_ofNat, foldl_add_two_pow, Nat.zero_add]
  rw [← rowPlaces, testBit_sum_two_pow _ (rowPlaces_sorted w p)]
  simp [hi]

theorem viewTx_places (w : Nat) (write : Bool) (p : Nat → Bool) (v : Word) :
    txPlaces (viewTx w write (nonetsWhere p) v) = rowPlaces w p := by
  refine List.SortedLT.eq_of_mem_iff ?_ (rowPlaces_sorted w p) fun i => ?_
  · exact List.sortedLT_iff_pairwise.2 (List.pairwise_lt_range.filter _)
  · rw [txPlaces, List.mem_filter, List.mem_range]
    constructor
    · rintro ⟨hi, he⟩
      rw [viewTx_enabled w write p v i hi] at he
      simpa using he
    · intro h
      have hi : i < 32 := by
        obtain ⟨j, ⟨hj, -⟩, rfl⟩ := mem_rowPlaces.1 h
        omega
      exact ⟨hi, by rw [viewTx_enabled w write p v i hi]; simpa using h⟩

theorem viewTx_addr (w : Nat) (write : Bool) (l : List Nat) (v : Word) (hw : w < 1048576) :
    (viewTx w write l v).addr.toNat = 0x10000000 + 4 * w := by
  simp only [viewTx, BitVec.toNat_ofNat]
  omega

/-- The Reservoir port of a word, as a target (R230, R234). -/
def rvTarget (w : Nat) : Fin 20 := ⟨(12 + w / 262144) % 20, Nat.mod_lt _ (by decide)⟩

theorem rvTarget_val (w : Nat) (hw : w < 1048576) : (rvTarget w).val = 12 + w / 262144 := by
  simp only [rvTarget]
  omega

theorem viewTx_lo (w : Nat) (write : Bool) (l : List Nat) (v : Word) (hw : w < 1048576) :
    txLo (viewTx w write l v) = 0x10000000 + 32 * (w / 8) := by
  show (viewTx w write l v).addr.toNat / 32 * 32 = _
  rw [viewTx_addr w write l v hw]
  omega

theorem decodeTx_view (s : State) (w : Nat) (write : Bool) (l : List Nat) (v : Word) (hw : w < 1048576) :
    decodeTx s 13 (viewTx w write l v) = .inr (rvTarget w) := by
  have ha := viewTx_addr w write l v hw
  have htarget : decodeTarget (0x10000000 + 4 * w) =
      some (rvTarget w, 0x10000000 + w / 262144 * 0x100000, 0x10100000 + w / 262144 * 0x100000) := by
    have hp : (0x10000000 + 4 * w - 0x10000000) / 0x100000 = w / 262144 := by omega
    rw [decodeTarget, dif_neg (by omega), if_pos (by omega)]
    simp only [hp]
    rfl
  have hlow := viewTx_lo w write l v hw
  have hlen : txLen (viewTx w write l v) = 32 := rfl
  have hg := rvTarget_val w hw
  rw [decodeTx, ha, htarget]
  dsimp only
  rw [if_neg (by simp [permitted]; omega), if_neg (by omega), if_neg (by simp [sizeAccepted, viewTx]; omega)]

/-- Some nonets of a word written. -/
def wordWrites (w : Nat) (p : Nat → Bool) (v : Word) : List (Nat × Nonet) :=
  (nonetsWhere p).map fun j => (4 * w + j, fld v (9 * j) 9)

/-- The writes of a view's transaction to a word's nonets (R2, R237). -/
theorem viewTx_writes (w : Nat) (p : Nat → Bool) (v : Word) :
    txWrites (viewTx w true (nonetsWhere p) v) (32 * (w / 8)) = wordWrites w p v := by
  rw [txWrites, viewTx_places, rowPlaces, List.map_map, wordWrites]
  refine List.map_congr_left fun j hj => ?_
  have hj4 : j < 4 := (mem_nonetsWhere.1 hj).1
  have hrow : (4 * (w % 8) + j) / 4 = w % 8 := by omega
  have hnonet : (4 * (w % 8) + j) % 4 = j := by omega
  have hw8 : w % 8 < 8 := Nat.mod_lt _ (by decide)
  have hdata : (viewTx w true (nonetsWhere p) v).data.getD (w % 8) 0 = v := by
    simp [viewTx, List.getD_eq_getElem?_getD, hw8]
  simp only [Function.comp_apply, hrow, hnonet, hdata, Prod.mk.injEq, and_true]
  omega

theorem mem_wordWrites {w : Nat} {p : Nat → Bool} {v : Word} {x : Nat × Nonet} (h : x ∈ wordWrites w p v) :
    4 * w ≤ x.1 ∧ x.1 < 4 * w + 4 := by
  obtain ⟨j, hj, rfl⟩ := List.mem_map.1 h
  have := (mem_nonetsWhere.1 hj).1
  constructor <;> dsimp only <;> omega

theorem Mem.nonet_setAll_word (w : Nat) (g : Nat → Nonet) (l : List Nat) : ∀ (m : Mem), m.wf = true → ∀ k,
    (m.setAll (l.map fun j => (4 * w + j, g j))).nonet (4 * w + k) = if k ∈ l then g k else m.nonet (4 * w + k) := by
  induction l with
  | nil => intro m _ k; rfl
  | cons a l ih =>
    intro m h k
    show ((m.setNonet (4 * w + a) (g a)).setAll (l.map fun j => (4 * w + j, g j))).nonet (4 * w + k) = _
    rw [ih _ (Mem.setNonet_wf m _ _ h), Mem.nonet_setNonet m _ _ _ h]
    by_cases hk : k = a
    · subst hk; simp
    · simp [hk]

/-- After a write of some nonets of a word, the word has their bits from the value written. -/
theorem Mem.bit_word_write (m : Mem) (h : m.wf = true) (w : Nat) (p : Nat → Bool) (v : Word) (i : Nat) (hi : i < 36) :
    bit ((m.write (wordWrites w p v)).word w) i = if p (i / 9) then bit v i else bit (m.word w) i := by
  have h4 : i / 9 < 4 := by omega
  have h9 : i % 9 < 9 := Nat.mod_lt _ (by decide)
  rw [bit_word _ w i hi, bit_word m w i hi, Mem.write_nonet, wordWrites, Mem.nonet_setAll_word w _ _ m h]
  by_cases hp : p (i / 9) = true
  · have hsum : 9 * (i / 9) + i % 9 = i := Nat.div_add_mod i 9
    simp [mem_nonetsWhere, h4, hp, fld, bit, h9, hsum]
  · simp [mem_nonetsWhere, hp]

theorem Mem.nonet_write_word_other (m : Mem) (h : m.wf = true) (w : Nat) (p : Nat → Bool) (v : Word) (a : Nat)
    (ha : a < 4 * w ∨ 4 * w + 4 ≤ a) : (m.write (wordWrites w p v)).nonet a = m.nonet a :=
  Mem.write_other m _ a h fun x hx e => by have := mem_wordWrites hx; omega

/-- Re-encoding a word leaves no new mark. -/
theorem Mem.mark_heal (m : Mem) (h : m.wf = true) (i j : Nat) : (m.heal i).mark j = none ∨ (m.heal i).mark j = m.mark j := by
  unfold Mem.heal
  split
  · exact .inr rfl
  · rw [Mem.mark, kget_kset _ _ _ _ ((Mem.wf_iff m).1 h).2.2]
    split
    · exact .inl rfl
    · exact .inr rfl

theorem Mem.isUe_heals (l : List Nat) (j : Nat) : ∀ (m : Mem), m.wf = true → m.isUe j = false →
    (l.foldl Mem.heal m).isUe j = false := by
  induction l with
  | nil => exact fun m _ h => h
  | cons i l ih =>
    intro m hm h
    refine ih (m.heal i) (Mem.heal_wf m i hm) ?_
    rcases m.mark_heal hm i j with hj | hj
    · simp [Mem.isUe, hj]
    · rw [Mem.isUe, hj]
      exact h

theorem Mem.isUe_write (m : Mem) (ws : List (Nat × Nonet)) (j : Nat) (hm : m.wf = true) (h : m.isUe j = false) :
    (m.write ws).isUe j = false :=
  Mem.isUe_heals _ j _ (Mem.setAll_wf ws m hm) (by rw [Mem.isUe, Mem.mark, Mem.setAll_marks]; exact h)

/-- A word is written in part at most once in its own writes. -/
theorem partialWords_wordWrites (w : Nat) (p : Nat → Bool) (v : Word) : ∀ i ∈ partialWords (wordWrites w p v), i = w := by
  intro i hi
  simp only [partialWords, List.mem_filter, List.mem_dedup, List.mem_map] at hi
  obtain ⟨⟨x, hx, rfl⟩, -⟩ := hi
  have := mem_wordWrites hx
  omega

/-- A word written whole is not read first (R210). -/
theorem partialWords_whole (w : Nat) (v : Word) : partialWords (wordWrites w (fun _ => true) v) = [] := by
  have hmap : (wordWrites w (fun _ => true) v).map (fun x => x.1 / 4) = [w, w, w, w] := by
    have h1 : (4 * w + 1) / 4 = w := by omega
    have h2 : (4 * w + 2) / 4 = w := by omega
    have h3 : (4 * w + 3) / 4 = w := by omega
    simp [wordWrites, nonetsWhere, List.range_succ, h1, h2, h3]
  have hall : ∀ x ∈ wordWrites w (fun _ => true) v, (x.1 / 4 == w) = true := fun x hx => by
    have := mem_wordWrites hx
    simp
    omega
  have hlen : (wordWrites w (fun _ => true) v).length = 4 := rfl
  rw [partialWords, hmap]
  simp [List.filter_eq_self.2 hall, hlen]

theorem nonetsWhere_all : nonetsWhere (fun _ => true) = [0, 1, 2, 3] := rfl

/-- A view's read of a word (R365). -/
def viewReadTx (w : Nat) : Tx := viewTx w false [0, 1, 2, 3] 0

theorem viewReadTx_places (w : Nat) : txPlaces (viewReadTx w) = rowPlaces w fun _ => true :=
  viewTx_places w false (fun _ => true) 0

/-- A read of a word touches it alone. -/
theorem viewReadTx_touched (w : Nat) : touched ((txPlaces (viewReadTx w)).map (32 * (w / 8) + ·)) = [w] := by
  have h : ∀ j, j < 4 → (32 * (w / 8) + (4 * (w % 8) + j)) / 4 = w := fun j hj => by omega
  rw [viewReadTx_places, touched, rowPlaces, nonetsWhere_all]
  simp only [List.map_cons, List.map_nil, h 0 (by decide), h 1 (by decide), h 2 (by decide), h 3 (by decide)]
  simp

theorem toNat_word (m : Mem) (w : Nat) : m.word w = BitVec.ofNat 36 ((m.nonet (4 * w)).toNat + 512 * (m.nonet (4 * w + 1)).toNat +
    262144 * (m.nonet (4 * w + 2)).toNat + 134217728 * (m.nonet (4 * w + 3)).toNat) := by
  rw [Mem.word]
  congr 1
  simp only [Mem.read, Nat.mul_zero, Nat.add_zero]
  ring

/-- What a read of a word returns of the memory (R242). -/
theorem readWords_view (m : Mem) (w : Nat) :
    (readWords (viewReadTx w) fun i => m.nonet (32 * (w / 8) + i)).getD (w % 8) 0 = m.word w := by
  have hw8 : w % 8 < 8 := Nat.mod_lt _ (by decide)
  have hplace : ∀ j, j < 4 → (if 4 * (w % 8) + j < txLen (viewReadTx w) ∧ txEnabled (viewReadTx w) (4 * (w % 8) + j) then
      (m.nonet (32 * (w / 8) + (4 * (w % 8) + j))).toNat else 0) = (m.nonet (4 * w + j)).toNat := fun j hj => by
    have hlen : 4 * (w % 8) + j < 32 := by omega
    have hen : txEnabled (viewReadTx w) (4 * (w % 8) + j) = true := by
      refine (viewTx_enabled w false (fun _ => true) 0 _ hlen).trans (decide_eq_true ?_)
      exact mem_rowPlaces.2 ⟨j, ⟨hj, rfl⟩, rfl⟩
    rw [if_pos ⟨hlen, hen⟩, show 32 * (w / 8) + (4 * (w % 8) + j) = 4 * w + j by omega]
  have hrow : ∀ j, j < 8 → (List.range ((txLen (viewReadTx w) + 3) / 4))[j]? = some j := fun j hj => by
    have hlen : txLen (viewReadTx w) = 32 := rfl
    rw [hlen]
    simp [hj]
  rw [readWords, List.getD_eq_getElem?_getD, List.getElem?_map, hrow _ hw8]
  simp only [Option.map_some, Option.getD_some]
  rw [toNat_word]
  have h0 := hplace 0 (by decide)
  simp only [Nat.add_zero] at h0
  rw [h0, hplace 1 (by decide), hplace 2 (by decide), hplace 3 (by decide)]

/-! ### Transactions of FERRY at the Reservoir (R230, R239, R241) -/

/-- In XCLK k port FERRY has a place, nothing waits at the Wharf, and the Reservoir's ports and banks are free. -/
structure FerryReady (k : Nat) (s : State) : Prop where
  reqs : s.wharf.reqs = []
  place : s.wharf.cur.get 13 < 32
  resps : ∀ r ∈ s.wharf.resps, r.seq < s.wharf.seq
  ports : ∀ g : Fin 20, 12 ≤ g.val → g.val < 16 → s.wharf.busyTill.get g ≤ k
  banks : ∀ b x, (s.rv.banks.get b).portBAt = some x → x < k

/-- `t` is `s` but for the Wharf, the Reservoir and the events noted. -/
def RvMoved (s t : State) : Prop := t = { s with wharf := t.wharf, rv := t.rv, events := t.events }

theorem RvMoved.refl (s : State) : RvMoved s s := rfl

theorem RvMoved.trans {s t u : State} (h : RvMoved s t) (k : RvMoved t u) : RvMoved s u := by
  unfold RvMoved at *
  rw [k, h]

/-- The one transaction that waits at the Wharf is the one that its Reservoir port grants. -/
theorem grantPick_only (s : State) (r : WharfReq) (k : Nat) (hreqs : s.wharf.reqs = [r]) (hlo : 12 ≤ r.target.val)
    (hhi : r.target.val < 16) (hsince : r.since ≤ k) (hbusy : s.wharf.busyTill.get r.target ≤ k)
    (hbanks : ∀ b x, (s.rv.banks.get b).portBAt = some x → x < k) : grantPick s r.target k = some r := by
  have hplace : placeFree s r = true := by
    have hne : r.target ≠ 19 := fun e => by rw [e] at hhi; exact absurd hhi (by decide)
    rw [placeFree, dif_neg (by omega)]
    simp [hne]
  have htaken : rvTaken s r k = false := by
    simp only [rvTaken, Bool.and_eq_false_iff]
    refine .inr (beq_eq_false_iff_ne.2 fun e => ?_)
    exact absurd (hbanks _ _ e) (Nat.lt_irrefl k)
  have hmine : considers s r.target k r = true := by
    have hhi17 : r.target.val < 17 := by omega
    simp [considers, hsince, hplace, htaken, hreqs, hhi17]
  have hcons : considered s r.target k = [r] := by
    rw [considered_eq, hreqs]
    simp [hmine]
  rw [grantPick, if_neg (by omega), hcons]
  rfl

/-- The XCLK from which a transaction made within a command is presented. -/
def directSince (s : State) (j : Nat) : Nat := if j = 0 then (s.wharf.directAt.get 13).getD (xclk s + j) else xclk s + j

theorem directSince_le (s : State) (j : Nat)
    (h : j = 0 → (s.wharf.directAt.get 13).all (fun k => decide (k ≤ xclk s)) = true) : directSince s j ≤ xclk s + j := by
  unfold directSince
  split
  next hj =>
    cases hat : s.wharf.directAt.get 13 with
    | none => exact Nat.le_refl _
    | some k =>
      have := h hj
      simp only [hat, Option.all_some, decide_eq_true_eq] at this
      simp only [Option.getD_some]
      omega
  next => exact Nat.le_refl _

/-- What acceptance of a transaction that decodes leaves in the Wharf, and nothing elsewhere. -/
theorem acceptTx_fields (s : State) (init : Fin 16) (t : Tx) (load since : Nat) (g : Fin 20) (h : decodeTx s init t = .inr g) :
    acceptTx init t load since s = { s with wharf := (acceptTx init t load since s).wharf } ∧
    (acceptTx init t load since s).wharf.reqs = s.wharf.reqs ++ [acceptedReq s init t load since g] ∧
    (acceptTx init t load since s).wharf.cur = vput s.wharf.cur init (s.wharf.cur.get init + 1) ∧
    (acceptTx init t load since s).wharf.resps = s.wharf.resps ∧
    (acceptTx init t load since s).wharf.seq = s.wharf.seq + 1 ∧
    (acceptTx init t load since s).wharf.busyTill = s.wharf.busyTill := by
  obtain ⟨w, ⟨_, _, _, _, _, _, _, rfl⟩, hacc⟩ := acceptTx_of_decoded s init t load since g h
  rw [hacc]
  exact ⟨rfl, rfl, rfl, rfl, rfl, rfl⟩

/-- What a grant leaves in the Wharf, and nothing elsewhere. -/
theorem noteGrant_fields (r : WharfReq) (k : Nat) (s : State) :
    noteGrant r k s = { s with wharf := (noteGrant r k s).wharf } ∧
    (noteGrant r k s).wharf.reqs = (s.wharf.reqs.filter fun q => q.seq != r.seq) ∧
    (noteGrant r k s).wharf.cur = s.wharf.cur ∧ (noteGrant r k s).wharf.resps = s.wharf.resps ∧
    (noteGrant r k s).wharf.seq = s.wharf.seq ∧
    (noteGrant r k s).wharf.busyTill = vput s.wharf.busyTill r.target (k + txBeats r.tx) := by
  obtain ⟨w, ⟨_, _, _, _, _, _, _, rfl⟩, hgrant⟩ := noteGrant_eq r k s
  rw [hgrant]
  exact ⟨rfl, rfl, rfl, rfl, rfl, rfl⟩

/-- FERRY's accepted transaction is the one that its Reservoir port grants. -/
theorem directTx_picks (t : Tx) (j since : Nat) (g : Fin 20) (s : State) (hready : FerryReady (xclk s + j) s)
    (hsince : since ≤ xclk s + j) (hdec : decodeTx s 13 t = .inr g) (hlo : 12 ≤ g.val) (hhi : g.val < 16) :
    (acceptTx 13 t 0 since s).wharf.reqs.find? (fun r => r.seq == s.wharf.seq) = some (acceptedReq s 13 t 0 since g) ∧
    grantPick (acceptTx 13 t 0 since s) g (xclk s + j) = some (acceptedReq s 13 t 0 since g) := by
  obtain ⟨hstate, hreqs, -, -, -, hbusy⟩ := acceptTx_fields s 13 t 0 since g hdec
  rw [hready.reqs, List.nil_append] at hreqs
  have hrv : (acceptTx 13 t 0 since s).rv = s.rv := by rw [hstate]
  refine ⟨by rw [hreqs]; simp [acceptedReq], ?_⟩
  refine grantPick_only (acceptTx 13 t 0 since s) (acceptedReq s 13 t 0 since g) _ hreqs hlo hhi hsince ?_ ?_
  · rw [hbusy]
    exact hready.ports g hlo hhi
  · rw [hrv]
    exact hready.banks

/-- A transaction of FERRY that is accepted and granted in its XCLK. -/
theorem directTx_granted (perform : WharfReq → State → State) (t : Tx) (j : Nat) (g : Fin 20) (s : State)
    (hready : FerryReady (xclk s + j) s) (hdirect : j = 0 → (s.wharf.directAt.get 13).all (fun k => decide (k ≤ xclk s)) = true)
    (hdec : decodeTx s 13 t = .inr g) (hlo : 12 ≤ g.val) (hhi : g.val < 16) :
    directTx perform 13 t j s = takeResponse 13 s.wharf.seq (perform (acceptedReq s 13 t 0 (directSince s j) g)
      (noteGrant (acceptedReq s 13 t 0 (directSince s j) g) (xclk s + j) (acceptTx 13 t 0 (directSince s j)
        { s with wharf := { s.wharf with directAt := vput s.wharf.directAt 13 none } }))) := by
  obtain ⟨hfind, hgrant⟩ := directTx_picks t j (directSince s j) g s hready (directSince_le s j hdirect) hdec hlo hhi
  have hbeyond : ¬ (acceptedReq s 13 t 0 (directSince s j) g).target.val < 12 := Nat.not_lt.2 hlo
  have hport : portReady (j == 0) (acceptedReq s 13 t 0 (directSince s j) g) s = (true, s) := by
    rw [portReady, dif_neg hbeyond]
  rw [directTx]
  dsimp only
  rw [← directSince, if_neg (by simp [portFull, hready.place]), hfind]
  dsimp only
  rw [show (acceptedReq s 13 t 0 (directSince s j) g).target = g from rfl, hgrant, hport, if_neg (by simp [acceptedReq]), if_pos rfl]

/-! ### What the Reservoir does for a transaction (R210, R239) -/

/-- `t` is `s` with `m` as the Reservoir's memory, only the Reservoir's own state moved, and its banks free by XCLK k where they
were free by then. -/
structure RvTouched (k : Nat) (m : Mem) (s t : State) : Prop where
  moved : t = { s with rv := t.rv }
  mem : t.rv.mem = m
  banks : ∀ b x, (t.rv.banks.get b).portBAt = some x → (s.rv.banks.get b).portBAt = some x ∨ x < k

theorem RvTouched.refl (k : Nat) (s : State) : RvTouched k s.rv.mem s s := ⟨rfl, rfl, fun _ _ h => .inl h⟩

theorem RvTouched.trans {k : Nat} {m n : Mem} {s t u : State} (h : RvTouched k m s t) (i : RvTouched k n t u) : RvTouched k n s u where
  moved := by rw [i.moved, h.moved]
  mem := i.mem
  banks b x hx := (i.banks b x hx).elim (h.banks b x) .inr

theorem vmodN_get_of {α β : Type} {n : Nat} (v : Vector α n) (i : Nat) (f : α → α) (g : α → β) (j : Fin n) :
    g ((vmodN v i f).get j) = g (v.get j) ∨ g ((vmodN v i f).get j) = g (f (v.get j)) := by
  unfold vmodN
  split
  next h =>
    rw [vmod_get]
    split
    next e => exact .inr (by rw [e])
    · exact .inl rfl
  · exact .inl rfl

theorem vmodN_portBAt {n : Nat} (v : Vector Bank n) (i y : Nat) (b : Fin n) (x : Nat)
    (h : ((vmodN v i fun b => { b with portBAt := some y }).get b).portBAt = some x) : (v.get b).portBAt = some x ∨ x = y := by
  rcases vmodN_get_of v i (fun b => { b with portBAt := some y }) Bank.portBAt b with hsame | hnew
  · exact .inl (hsame.symm.trans h)
  · exact .inr (Option.some.inj (h.symm.trans hnew))

theorem rv_mem_of_banks (s : State) (banks : Vector Bank 16) : ({ s with rv := { s.rv with banks := banks } } : State).rv.mem = s.rv.mem :=
  rfl

theorem takeRvBank_touched (k : Nat) (r : WharfReq) (s : State) (h : xclk s + txBeats r.tx ≤ k) (hb : 0 < txBeats r.tx) :
    RvTouched k s.rv.mem s (takeRvBank r s) where
  moved := rfl
  mem := rv_mem_of_banks s _
  banks b x hx := (vmodN_portBAt s.rv.banks _ _ b x hx).imp_right fun e => by omega

theorem noteRvError_touched (k : Nat) (s : State) (w : Nat) : RvTouched k s.rv.mem s (noteRvError s w) := by
  unfold noteRvError
  dsimp only
  split
  · exact ⟨rfl, rfl, fun _ _ h => .inl h⟩
  · split
    · refine ⟨rfl, rfl, fun b x hx => .inl ?_⟩
      refine (Or.elim (vmodN_get_of s.rv.banks (w / 65536) (fun b =>
        if b.scrubFront.contains (w / 8 % 8192) then b else { b with scrubFront := w / 8 % 8192 :: b.scrubFront })
        Bank.portBAt b) (fun h => h) fun h => ?_).symm.trans hx
      rw [h]
      split <;> rfl
    · exact .refl k s

theorem noteRvErrors_touched (k : Nat) (l : List Nat) : ∀ s : State, RvTouched k s.rv.mem s (l.foldl noteRvError s) := by
  induction l with
  | nil => exact .refl k
  | cons w l ih =>
    intro s
    have h := noteRvError_touched k s w
    have := ih (noteRvError s w)
    rw [h.mem] at this
    exact h.trans this

theorem cancelBack_portBAt {n : Nat} (rows : Nat) (ws : List (Nat × Nonet)) (b : Fin n) :
    ∀ banks : Vector Bank n, ((cancelBack rows banks ws).get b).portBAt = (banks.get b).portBAt := by
  induction ws with
  | nil => intro _; rfl
  | cons w ws ih =>
    intro banks
    refine (ih _).trans (Or.elim (vmodN_get_of banks (w.1 / (32 * rows)) _ Bank.portBAt b) (fun h => h) fun h => h.trans ?_)
    split <;> rfl

theorem rvWriteNonets_touched (k : Nat) (ws : List (Nat × Nonet)) (s : State) :
    RvTouched k (s.rv.mem.write ws) s (rvWriteNonets ws s) :=
  ⟨rfl, rfl, fun b _ h => .inl ((cancelBack_portBAt 8192 ws b s.rv.banks).symm.trans h)⟩

/-- A write of a Reservoir whose words written in part have no error that the code cannot mend. -/
theorem performRv_write (k : Nat) (r : WharfReq) (s : State) (hk : xclk s + txBeats r.tx ≤ k) (hb : 0 < txBeats r.tx)
    (hw : r.tx.write = true) (hue : (partialWords (txWrites r.tx (rvBase r))).any s.rv.mem.isUe = false) :
    ∃ t, RvTouched k (s.rv.mem.write (txWrites r.tx (rvBase r))) s t ∧ performRv r s = respond r .ok [] t := by
  have htake := takeRvBank_touched k r s hk hb
  have herr := noteRvErrors_touched k (partialWords (txWrites r.tx (rvBase r))) (takeRvBank r s)
  have hput := rvWriteNonets_touched k (txWrites r.tx (rvBase r))
    ((partialWords (txWrites r.tx (rvBase r))).foldl noteRvError (takeRvBank r s))
  rw [herr.mem, htake.mem] at hput
  refine ⟨_, (htake.trans herr).trans hput, ?_⟩
  rw [performRv, if_pos hw]
  dsimp only
  rw [htake.mem, if_neg (by simp [hue])]

/-- A read of a Reservoir: its words, or a refusal where one has an error that the code cannot mend. -/
theorem performRv_read (k : Nat) (r : WharfReq) (s : State) (hk : xclk s + txBeats r.tx ≤ k) (hb : 0 < txBeats r.tx)
    (hw : r.tx.write = false) :
    ∃ t, RvTouched k s.rv.mem s t ∧ performRv r s =
      if (touched ((txPlaces r.tx).map (rvBase r + ·))).any s.rv.mem.isUe then respond r .refused [] t
      else respond r .ok (readWords r.tx fun i => s.rv.mem.nonet (rvBase r + i)) t := by
  have htake := takeRvBank_touched k r s hk hb
  have herr := noteRvErrors_touched k (touched ((txPlaces r.tx).map (rvBase r + ·))) (takeRvBank r s)
  have hboth := htake.trans herr
  rw [htake.mem] at hboth
  refine ⟨_, hboth, ?_⟩
  rw [performRv, if_neg (by simp [hw])]
  dsimp only
  rw [htake.mem]

theorem RvMoved.xclk {s t : State} (h : RvMoved s t) : xclk t = xclk s := by rw [h]; rfl

/-- What the answer to a transaction does not change. -/
theorem noteRefused_fields (irq : Bool) (s : State) :
    noteRefused irq s = { s with wharf := (noteRefused irq s).wharf, events := (noteRefused irq s).events } ∧
    (noteRefused irq s).wharf.reqs = s.wharf.reqs ∧ (noteRefused irq s).wharf.cur = s.wharf.cur ∧
    (noteRefused irq s).wharf.resps = s.wharf.resps ∧ (noteRefused irq s).wharf.seq = s.wharf.seq ∧
    (noteRefused irq s).wharf.busyTill = s.wharf.busyTill := ⟨rfl, rfl, rfl, rfl, rfl, rfl⟩

/-- The response to a transaction. -/
def answerTo (r : WharfReq) (status : TxStatus) (data : List Word) : WharfResp :=
  { init := r.init, id := r.tx.id, write := r.tx.write, status := status, data := data, seq := r.seq, load := r.load }

theorem respond_fields (r : WharfReq) (status : TxStatus) (data : List Word) (s : State) (hr : r.drop = false) :
    respond r status data s = { s with wharf := (respond r status data s).wharf, events := (respond r status data s).events } ∧
    (respond r status data s).wharf.reqs = s.wharf.reqs ∧ (respond r status data s).wharf.cur = s.wharf.cur ∧
    (respond r status data s).wharf.resps = s.wharf.resps ++ [answerTo r status data] ∧
    (respond r status data s).wharf.seq = s.wharf.seq ∧ (respond r status data s).wharf.busyTill = s.wharf.busyTill := by
  cases status with
  | ok => rw [respond_of_kept r .ok data s hr nofun]; exact ⟨rfl, rfl, rfl, rfl, rfl, rfl⟩
  | decerr => rw [respond_of_kept r .decerr data s hr nofun]; exact ⟨rfl, rfl, rfl, rfl, rfl, rfl⟩
  | refused =>
    obtain ⟨hstate, hreqs, hcur, hresps, hseq, hbusy⟩ := noteRefused_fields r.irq.2 s
    rw [respond, if_neg (by simp [hr])]
    refine ⟨?_, hreqs, hcur, ?_, hseq, hbusy⟩
    · dsimp only
      rw [hstate]
    · dsimp only
      rw [hresps]
      rfl

/-- The response that has just come is the one taken. -/
theorem takeResponse_last (init : Fin 16) (q : Nat) (s : State) (old : List WharfResp) (x : WharfResp)
    (hresps : s.wharf.resps = old ++ [x]) (hx : x.seq = q) (hold : ∀ r ∈ old, r.seq < q) :
    takeResponse init q s = (some x, { s with wharf := { s.wharf with
      resps := old, cur := vmod s.wharf.cur init (· - 1) } }) := by
  have hnone : old.find? (fun r => r.seq == q) = none := by
    refine List.find?_eq_none.2 fun r hr e => ?_
    exact Nat.ne_of_lt (hold r hr) (by simpa using e)
  have hkept : old.filter (fun r => r.seq != q) = old := by
    refine List.filter_eq_self.2 fun r hr => ?_
    simpa using Nat.ne_of_lt (hold r hr)
  rw [takeResponse, hresps, List.find?_append, hnone, List.filter_append, hkept]
  simp [hx]

/-- A transaction of FERRY that a Reservoir port grants and performs in its XCLK: it is answered, and the next one finds all free. -/
theorem directTx_answered (t : Tx) (j : Nat) (g : Fin 20) (s : State) (m : Mem) (status : TxStatus) (data : List Word)
    (hready : FerryReady (xclk s + j) s) (hdirect : j = 0 → (s.wharf.directAt.get 13).all (fun k => decide (k ≤ xclk s)) = true)
    (hdec : decodeTx s 13 t = .inr g) (hlo : 12 ≤ g.val) (hhi : g.val < 16) (hbeats : txBeats t = 1)
    (hperf : ∀ s1, s1.rv = s.rv → xclk s1 = xclk s → ∃ u, RvTouched (xclk s + j + 1) m s1 u ∧
      performMemory (acceptedReq s 13 t 0 (directSince s j) g) s1 =
        respond (acceptedReq s 13 t 0 (directSince s j) g) status data u) :
    ∃ x u, directTx performMemory 13 t j s = (some x, u) ∧ x.status = status ∧ x.data = data ∧ RvMoved s u ∧ u.rv.mem = m ∧
      FerryReady (xclk s + (j + 1)) u := by
  obtain ⟨hacc, hareqs, hacur, haresps, haseq, habusy⟩ :=
    acceptTx_fields { s with wharf := { s.wharf with directAt := vput s.wharf.directAt 13 none } } 13 t 0 (directSince s j) g hdec
  obtain ⟨hgrant, hgreqs, hgcur, hgresps, hgseq, hgbusy⟩ := noteGrant_fields (acceptedReq s 13 t 0 (directSince s j) g) (xclk s + j)
    (acceptTx 13 t 0 (directSince s j) { s with wharf := { s.wharf with directAt := vput s.wharf.directAt 13 none } })
  have hdirectTx := directTx_granted performMemory t j g s hready hdirect hdec hlo hhi
  generalize hs0 : acceptTx 13 t 0 (directSince s j) { s with wharf := { s.wharf with directAt := vput s.wharf.directAt 13 none } } = s0
    at *
  generalize hs1 : noteGrant (acceptedReq s 13 t 0 (directSince s j) g) (xclk s + j) s0 = s1 at *
  have hmoved : s1 = { s with wharf := s1.wharf } := by
    rw [hgrant, hacc]
  obtain ⟨u, htouch, hdone⟩ := hperf s1 (by rw [hmoved]) (by rw [hmoved]; rfl)
  obtain ⟨hresp, hrreqs, hrcur, hrresps, hrseq, hrbusy⟩ :=
    respond_fields (acceptedReq s 13 t 0 (directSince s j) g) status data u rfl
  have huw : u.wharf = s1.wharf := by rw [htouch.moved]
  rw [huw] at hrreqs hrcur hrresps hrseq hrbusy
  have hresps : s1.wharf.resps = s.wharf.resps := hgresps.trans haresps
  rw [hdone, takeResponse_last 13 s.wharf.seq _ s.wharf.resps _ (hrresps.trans (by rw [hresps])) rfl hready.resps] at hdirectTx
  refine ⟨_, _, hdirectTx, rfl, rfl, ?_, ?_, ?_⟩
  · rw [RvMoved, hresp, htouch.moved, hmoved]
  · dsimp only
    rw [hresp]
    exact htouch.mem
  · exact {
      reqs := by
        dsimp only
        rw [hrreqs, hgreqs, hareqs, hready.reqs]
        simp [acceptedReq]
      place := by
        dsimp only
        rw [vmod_get_self, hrcur, hgcur, hacur, vput_get_self]
        exact hready.place
      resps := fun r hr => by
        dsimp only
        rw [hrseq, hgseq, haseq]
        exact Nat.lt_succ_of_lt (hready.resps r hr)
      ports := fun h hl hh => by
        dsimp only
        rw [hrbusy, hgbusy, habusy]
        by_cases e : h = g
        · subst e
          exact (vput_get_self _ _ _).trans_le (by rw [show (acceptedReq s 13 t 0 (directSince s j) h).tx = t from rfl, hbeats]; omega)
        · rw [show (acceptedReq s 13 t 0 (directSince s j) g).target = g from rfl, vput_get_ne _ _ _ _ e]
          exact (hready.ports h hl hh).trans (by omega)
      banks := fun b x hx => by
        dsimp only at hx
        rw [hresp] at hx
        have := htouch.banks b x hx
        rw [hmoved] at this
        exact this.elim (fun h => (hready.banks b x h).trans (by omega)) fun h => h.trans_le (by omega) }

/-- A run of FERRY's transactions that began in `s0` goes on, and `m` is the Reservoir's memory. -/
def FerryAt (s0 : State) (r : FerryRun) (m : Mem) : Prop :=
  ∃ j s, r = some (j, s) ∧ RvMoved s0 s ∧ s.rv.mem = m ∧ FerryReady (xclk s + j) s ∧
    (j = 0 → (s.wharf.directAt.get 13).all (fun k => decide (k ≤ xclk s)) = true)

theorem rvBase_view (r : WharfReq) (w : Nat) (write : Bool) (l : List Nat) (v : Word) (hw : w < 1048576) (hr : r.tx = viewTx w write l v) :
    rvBase r = 32 * (w / 8) := by
  have hlow := viewTx_lo w write l v hw
  rw [← hr] at hlow
  unfold rvBase
  omega

theorem performMemory_rv (r : WharfReq) (s : State) (hlo : 12 ≤ r.target.val) (hhi : r.target.val < 16) :
    performMemory r s = performRv r s := by
  rw [performMemory, dif_neg (by omega), if_pos hhi]

/-- A view's transaction goes on with the run, answered as its Reservoir port answers it. -/
theorem directTx_view (s : State) (w : Nat) (write : Bool) (l : List Nat) (v : Word) (j : Nat) (m : Mem) (status : TxStatus)
    (data : List Word) (hw : w < 1048576) (hready : FerryReady (xclk s + j) s)
    (hdirect : j = 0 → (s.wharf.directAt.get 13).all (fun k => decide (k ≤ xclk s)) = true)
    (hperf : ∀ r : WharfReq, ∀ s1 : State, r.tx = viewTx w write l v → r.drop = false → s1.rv = s.rv →
      xclk s1 + txBeats r.tx ≤ xclk s + j + 1 →
      ∃ u, RvTouched (xclk s + j + 1) m s1 u ∧ performRv r s1 = respond r status data u) :
    ∃ x u, directTx performMemory 13 (viewTx w write l v) j s = (some x, u) ∧ x.status = status ∧ x.data = data ∧
      RvMoved s u ∧ u.rv.mem = m ∧ FerryReady (xclk u + (j + 1)) u := by
  have hg := rvTarget_val w hw
  obtain ⟨x, u, hx, hstatus, hdata, hmoved, hmem, hnext⟩ := directTx_answered (viewTx w write l v) j (rvTarget w) s m status data
    hready hdirect (decodeTx_view s w write l v hw) (by omega) (by omega) rfl fun s1 hrv hxclk => by
      rw [performMemory_rv _ _ (show 12 ≤ (rvTarget w).val by omega) (show (rvTarget w).val < 16 by omega)]
      exact hperf _ s1 rfl rfl hrv (by rw [hxclk]; exact Nat.add_le_add_right (Nat.le_add_right _ _) 1)
  exact ⟨x, u, hx, hstatus, hdata, hmoved, hmem, by rw [hmoved.xclk]; exact hnext⟩

theorem viewAccess_run (t : Tx) (j : Nat) (s u : State) (x : WharfResp) (h : directTx performMemory 13 t j s = (some x, u)) :
    viewAccess t (some (j, s)) = (x.data, if x.status = .ok then some (j + 1, u) else some (j + 1, hostErr u)) := by
  simp only [viewAccess, FerryRun.access, h]
  rfl

theorem nonetsWhere_congr {p q : Nat → Bool} (h : ∀ j, j < 4 → p j = q j) : nonetsWhere p = nonetsWhere q :=
  List.filter_congr fun j hj => h j (List.mem_range.1 hj)

/-- A write of some nonets of a word whose old value can be read, or that is written whole, meets no error. -/
theorem wordWrites_readable (m : Mem) (w : Nat) (p : Nat → Bool) (v : Word) (h : (∀ j, j < 4 → p j = true) ∨ m.isUe w = false) :
    (partialWords (wordWrites w p v)).any m.isUe = false := by
  rcases h with hall | hue
  · have hwhole : wordWrites w p v = wordWrites w (fun _ => true) v := by
      rw [wordWrites, nonetsWhere_congr (q := fun _ => true) hall, ← wordWrites]
    rw [hwhole, partialWords_whole]
    rfl
  · rw [List.any_eq_false]
    intro i hi
    rw [partialWords_wordWrites w p v i hi, hue]
    nofun

/-- A view's write of some nonets of a word (R364). -/
theorem FerryAt.write {s0 : State} {r : FerryRun} {m : Mem} (h : FerryAt s0 r m) (w : Nat) (p : Nat → Bool) (v : Word)
    (hw : w < 1048576) (hue : (∀ j, j < 4 → p j = true) ∨ m.isUe w = false) :
    FerryAt s0 (viewAccess (viewTx w true (nonetsWhere p) v) r).2 (m.write (wordWrites w p v)) := by
  obtain ⟨j, s, rfl, hmoved, rfl, hready, hdirect⟩ := h
  obtain ⟨x, u, hx, hstatus, -, hmu, hmem, hnext⟩ := directTx_view s w true (nonetsWhere p) v j
    (s.rv.mem.write (wordWrites w p v)) .ok [] hw hready hdirect fun r s1 hr hdrop hrv hk => by
      have hws : txWrites r.tx (rvBase r) = wordWrites w p v := by
        rw [rvBase_view r w true _ v hw hr, hr, viewTx_writes]
      obtain ⟨u, htouch, hu⟩ := performRv_write (xclk s + j + 1) r s1 hk (by rw [hr]; exact Nat.one_pos) (by rw [hr]; rfl)
        (by rw [hws, hrv]; exact wordWrites_readable _ w p v hue)
      rw [hws, hrv] at htouch
      exact ⟨u, htouch, hu⟩
  rw [viewAccess_run _ j s u x hx, if_pos hstatus]
  exact ⟨j + 1, u, rfl, hmoved.trans hmu, hmem, hnext, nofun⟩

/-- The read of a word by a view, as the Reservoir answers it (R365). -/
theorem directTx_viewRead (s : State) (w j : Nat) (hw : w < 1048576) (hready : FerryReady (xclk s + j) s)
    (hdirect : j = 0 → (s.wharf.directAt.get 13).all (fun k => decide (k ≤ xclk s)) = true) :
    ∃ x u, directTx performMemory 13 (viewReadTx w) j s = (some x, u) ∧ RvMoved s u ∧ u.rv.mem = s.rv.mem ∧
      FerryReady (xclk u + (j + 1)) u ∧ (s.rv.mem.isUe w = false → x.status = .ok ∧ x.data.getD (w % 8) 0 = s.rv.mem.word w) ∧
      (s.rv.mem.isUe w = true → x.status = .refused ∧ x.data.getD (w % 8) 0 = 0) := by
  have hperf : ∀ r : WharfReq, ∀ s1 : State, r.tx = viewReadTx w → s1.rv = s.rv → xclk s1 + txBeats r.tx ≤ xclk s + j + 1 →
      ∃ u, RvTouched (xclk s + j + 1) s.rv.mem s1 u ∧ performRv r s1 = if s.rv.mem.isUe w then respond r .refused [] u
        else respond r .ok (readWords (viewReadTx w) fun i => s.rv.mem.nonet (32 * (w / 8) + i)) u := fun r s1 hr hrv hk => by
    obtain ⟨u, htouch, hu⟩ := performRv_read (xclk s + j + 1) r s1 hk (by rw [hr]; exact Nat.one_pos) (by rw [hr]; rfl)
    rw [rvBase_view r w false _ 0 hw hr, hr, viewReadTx_touched, hrv] at hu
    rw [hrv] at htouch
    refine ⟨u, htouch, hu.trans ?_⟩
    simp
  by_cases hue : s.rv.mem.isUe w = true
  · obtain ⟨x, u, hx, hstatus, hdata, hmu, hmem, hnext⟩ := directTx_view s w false [0, 1, 2, 3] 0 j
      s.rv.mem .refused [] hw hready hdirect
      fun r s1 hr hdrop hrv hk => by simpa [hue] using hperf r s1 hr hrv hk
    exact ⟨x, u, hx, hmu, hmem, hnext, fun h => absurd (hue.symm.trans h) nofun, fun _ => ⟨hstatus, by rw [hdata]; rfl⟩⟩
  · obtain ⟨x, u, hx, hstatus, hdata, hmu, hmem, hnext⟩ := directTx_view s w false [0, 1, 2, 3] 0 j s.rv.mem .ok
      (readWords (viewReadTx w) fun i => s.rv.mem.nonet (32 * (w / 8) + i)) hw hready hdirect
      fun r s1 hr hdrop hrv hk => by simpa [hue] using hperf r s1 hr hrv hk
    exact ⟨x, u, hx, hmu, hmem, hnext, fun _ => ⟨hstatus, by rw [hdata, readWords_view]⟩, fun h => absurd h hue⟩

/-- A view's read of a word without an error that the code cannot mend. -/
theorem FerryAt.read {s0 : State} {r : FerryRun} {m : Mem} (h : FerryAt s0 r m) (w : Nat) (hw : w < 1048576) (hue : m.isUe w = false) :
    FerryAt s0 (viewAccess (viewReadTx w) r).2 m ∧ (viewAccess (viewReadTx w) r).1.getD (w % 8) 0 = m.word w := by
  obtain ⟨j, s, rfl, hmoved, rfl, hready, hdirect⟩ := h
  obtain ⟨x, u, hx, hmu, hmem, hnext, hok, -⟩ := directTx_viewRead s w j hw hready hdirect
  obtain ⟨hstatus, hdata⟩ := hok hue
  rw [viewAccess_run _ j s u x hx, if_pos hstatus]
  exact ⟨⟨j + 1, u, rfl, hmoved.trans hmu, hmem, hnext, nofun⟩, hdata⟩

/-! ### A host write to a word of a view (R362 to R364) -/

/-- A host write carries every bit of a word's nonet. -/
def wholeNonet (packed : Bool) (x : HostBytes) (w j : Nat) : Bool :=
  ((List.range 9).map fun b => carried packed x w (9 * j + b)).all Option.isSome

/-- A host write carries some bits of a word's nonet and not all. -/
def partNonet (packed : Bool) (x : HostBytes) (w j : Nat) : Bool :=
  ((List.range 9).map fun b => carried packed x w (9 * j + b)).any Option.isSome && !wholeNonet packed x w j

/-- The bits that a host write carries, over an old word. -/
def mergedWord (packed : Bool) (x : HostBytes) (w : Nat) (old : Word) : Word :=
  BitVec.ofNat 36 (((List.range 36).map fun b => if (carried packed x w b).getD (bit old b) then 2 ^ b else 0).foldl (· + ·) 0)

theorem viewWriteWord_eq (packed : Bool) (x : HostBytes) (r : FerryRun) (w : Nat) :
    viewWriteWord packed x r w =
      let r1 := if (nonetsWhere (wholeNonet packed x w)).isEmpty then r
        else (viewAccess (viewTx w true (nonetsWhere (wholeNonet packed x w)) (mergedWord packed x w 0)) r).2
      if (nonetsWhere (partNonet packed x w)).isEmpty then r1
      else (viewAccess (viewTx w true (nonetsWhere (partNonet packed x w))
        (mergedWord packed x w ((viewAccess (viewReadTx w) r1).1.getD (w % 8) 0))) (viewAccess (viewReadTx w) r1).2).2 := rfl

theorem bit_mergedWord (packed : Bool) (x : HostBytes) (w : Nat) (old : Word) (i : Nat) (hi : i < 36) :
    bit (mergedWord packed x w old) i = (carried packed x w i).getD (bit old i) := by
  rw [mergedWord, bit_ofNat, ← List.sum_eq_foldl, testBit_sum_picked 36 (fun b => (carried packed x w b).getD (bit old b)) (fun b => b)
    (fun _ _ h _ _ _ => h)]
  simp [hi]

theorem carried_of_whole {packed : Bool} {x : HostBytes} {w i : Nat} (h : wholeNonet packed x w (i / 9) = true) :
    (carried packed x w i).isSome = true := by
  have hbit : i % 9 < 9 := Nat.mod_lt _ (by decide)
  have := List.all_eq_true.1 h (carried packed x w (9 * (i / 9) + i % 9)) (List.mem_map.2 ⟨i % 9, List.mem_range.2 hbit, rfl⟩)
  rwa [Nat.div_add_mod] at this

theorem carried_of_none {packed : Bool} {x : HostBytes} {w i : Nat} (hw : wholeNonet packed x w (i / 9) = false)
    (hp : partNonet packed x w (i / 9) = false) : carried packed x w i = none := by
  have hbit : i % 9 < 9 := Nat.mod_lt _ (by decide)
  rw [partNonet, hw, Bool.not_false, Bool.and_true] at hp
  have := List.any_eq_false.1 hp (carried packed x w (9 * (i / 9) + i % 9)) (List.mem_map.2 ⟨i % 9, List.mem_range.2 hbit, rfl⟩)
  rw [Nat.div_add_mod] at this
  simpa using this

/-- `n` is `m` after a write of the nonets that `p` picks of word w. -/
structure WordWritten (w : Nat) (p : Nat → Bool) (v : Word) (m n : Mem) : Prop where
  wf : n.wf = true
  bits : ∀ i, i < 36 → bit (n.word w) i = if p (i / 9) then bit v i else bit (m.word w) i
  other : ∀ a, a < 4 * w ∨ 4 * w + 4 ≤ a → n.nonet a = m.nonet a
  ue : m.isUe w = false → n.isUe w = false

theorem nonetsWhere_empty {p : Nat → Bool} (h : (nonetsWhere p).isEmpty = true) (j : Nat) (hj : j < 4) : p j = false := by
  rw [List.isEmpty_iff] at h
  have hmem : j ∉ nonetsWhere p := by rw [h]; exact List.not_mem_nil
  rw [mem_nonetsWhere] at hmem
  exact Bool.eq_false_iff.2 fun hp => hmem ⟨hj, hp⟩

/-- A view's write of the nonets that `p` picks, none where it picks none. -/
theorem FerryAt.writeSome {s0 : State} {r : FerryRun} {m : Mem} (h : FerryAt s0 r m) (hm : m.wf = true) (w : Nat) (p : Nat → Bool)
    (v : Word) (hw : w < 1048576) (hue : (∀ j, j < 4 → p j = true) ∨ m.isUe w = false) :
    ∃ n, WordWritten w p v m n ∧
      FerryAt s0 (if (nonetsWhere p).isEmpty then r else (viewAccess (viewTx w true (nonetsWhere p) v) r).2) n := by
  by_cases he : (nonetsWhere p).isEmpty = true
  · have hnone := nonetsWhere_empty he
    rw [if_pos he]
    refine ⟨m, ⟨hm, fun i hi => ?_, fun _ _ => rfl, fun h => h⟩, h⟩
    rw [hnone (i / 9) (by omega)]
    rfl
  · rw [if_neg he]
    exact ⟨_, ⟨Mem.write_wf m _ hm, m.bit_word_write hm w p v, m.nonet_write_word_other hm w p v, m.isUe_write _ w hm⟩,
      h.write w p v hw hue⟩

/-- `n` is `m` with what a host write carries of word w. -/
structure WordMerged (packed : Bool) (x : HostBytes) (w : Nat) (m n : Mem) : Prop where
  wf : n.wf = true
  bits : ∀ i, i < 36 → bit (n.word w) i = (carried packed x w i).getD (bit (m.word w) i)
  other : ∀ a, a < 4 * w ∨ 4 * w + 4 ≤ a → n.nonet a = m.nonet a

/-- A host write's part of one word (R364): written whole, or over an old value without an error that the code cannot mend. -/
theorem FerryAt.writeWord {s0 : State} {r : FerryRun} {m : Mem} (h : FerryAt s0 r m) (hm : m.wf = true) (packed : Bool) (x : HostBytes)
    (w : Nat) (hw : w < 1048576) (hue : (∀ j, j < 4 → wholeNonet packed x w j = true) ∨ m.isUe w = false) :
    ∃ n, WordMerged packed x w m n ∧ FerryAt s0 (viewWriteWord packed x r w) n := by
  obtain ⟨n, hn, hrun⟩ := h.writeSome hm w (wholeNonet packed x w) (mergedWord packed x w 0) hw hue
  have hbits : ∀ i, i < 36 → wholeNonet packed x w (i / 9) = true →
      bit (n.word w) i = (carried packed x w i).getD (bit (m.word w) i) := fun i hi hwhole => by
    obtain ⟨y, hy⟩ := Option.isSome_iff_exists.1 (carried_of_whole hwhole)
    rw [hn.bits i hi, if_pos hwhole, bit_mergedWord _ _ _ _ i hi, hy]
    rfl
  rw [viewWriteWord_eq]
  dsimp only
  split
  next he =>
    refine ⟨n, ⟨hn.wf, fun i hi => ?_, hn.other⟩, hrun⟩
    by_cases hwhole : wholeNonet packed x w (i / 9) = true
    · exact hbits i hi hwhole
    · have hwhole := Bool.eq_false_iff.2 hwhole
      rw [hn.bits i hi, hwhole, carried_of_none hwhole (nonetsWhere_empty he (i / 9) (by omega))]
      rfl
  next he =>
    have hnue : n.isUe w = false := by
      refine hue.elim (fun hall => absurd ?_ he) hn.ue
      rw [nonetsWhere_congr (q := fun _ => false) fun j hj => by rw [partNonet, hall j hj]; simp]
      rfl
    obtain ⟨hread, hdata⟩ := hrun.read w hw hnue
    obtain ⟨o, ho, hlast⟩ := hread.writeSome hn.wf w (partNonet packed x w) (mergedWord packed x w (n.word w)) hw (.inr hnue)
    rw [if_neg he] at hlast
    rw [hdata]
    refine ⟨o, ⟨ho.wf, fun i hi => ?_, fun a ha => (ho.other a ha).trans (hn.other a ha)⟩, hlast⟩
    rw [ho.bits i hi]
    by_cases hwhole : wholeNonet packed x w (i / 9) = true
    · rw [partNonet, hwhole, if_neg (by simp), hbits i hi hwhole]
    · have hold : bit (n.word w) i = bit (m.word w) i := by rw [hn.bits i hi, if_neg hwhole]
      split
      · rw [bit_mergedWord _ _ _ _ i hi, hold]
      next hpart => rw [hold, carried_of_none (Bool.eq_false_iff.2 hwhole) (Bool.eq_false_iff.2 hpart)]; rfl

/-! ### Host writes to the views (R362 to R364) -/

theorem wholeNonet_of {packed : Bool} {x : HostBytes} {w j : Nat}
    (h : ∀ i, 9 * j ≤ i → i < 9 * j + 9 → (carried packed x w i).isSome = true) :
    wholeNonet packed x w j = true := by
  refine List.all_eq_true.2 fun o ho => ?_
  obtain ⟨b, hb, rfl⟩ := List.mem_map.1 ho
  have := List.mem_range.1 hb
  exact h _ (by omega) (by omega)

theorem FerryAt.start {s : State} (h : ReservoirFree s) : FerryAt s (some (0, s)) s.rv.mem := by
  obtain ⟨hreqs, hdirect, hplace, hresps, hports, hbanks⟩ := h
  refine ⟨0, s, rfl, .refl s, rfl, ⟨hreqs, hplace, hresps, hports, fun b x hx => ?_⟩, fun _ => hdirect⟩
  have := hbanks b
  rw [hx] at this
  simpa using this

/-- What a run that has ended leaves of the rest of the device. -/
theorem FerryAt.over {s : State} {r : FerryRun} {m : Mem} (h : FerryAt s r m) (f : State → State) :
    ∃ u, FerryRun.over s r f = f u ∧ RvMoved s u ∧ u.rv.mem = m := by
  obtain ⟨j, u, rfl, hmoved, hmem, -⟩ := h
  exact ⟨u, rfl, hmoved, hmem⟩

/-- A host write of a view leaves the memory that its run of transactions reaches. -/
theorem viewHost_write (packed : Bool) (x : HostBytes) (s : State) (m : Mem)
    (hrun : FerryAt s ((viewWords packed x).foldl (viewWriteWord packed x) (some (0, s))) m) (hready : reservoirReady s = true)
    (hp : x.poisoned = false) (he : x.ecrc = false) (hin : packed = true → x.offset < 0x480000) :
    RvMoved s (viewHost packed true x s) ∧ (viewHost packed true x s).rv.mem = m := by
  obtain ⟨u, hu, hmoved, hmem⟩ := hrun.over id
  have hgo : viewHost packed true x s = u := by
    rw [viewHost, if_neg (by simp [he]), if_neg (by simp [hp]), if_neg (by
      rintro (⟨h, hoff⟩ | h)
      · exact absurd (hin h) (by omega)
      · simp [hready] at h), if_pos rfl, viewWrite, hu]
    rfl
  rw [hgo]
  exact ⟨hmoved, hmem⟩

/-- The words of a range of bytes of one slot of BAR2. -/
theorem viewWords_slot (w o : Nat) (bytes : List (Option Byte)) (h : o + bytes.length ≤ 8) (p e : Bool) :
    viewWords false { offset := 8 * w + o, bytes := bytes, poisoned := p, ecrc := e } = if bytes = [] then [] else [w] := by
  cases bytes with
  | nil => rfl
  | cons b bs =>
    have hlo : (8 * w + o) / 8 = w := by
      simp only [List.length_cons] at h
      omega
    have hhi : (8 * w + o + (b :: bs).length - 1) / 8 = w := by
      simp only [List.length_cons] at h ⊢
      omega
    have hone : w + 1 - w = 1 := by omega
    simp only [viewWords, List.isEmpty_cons, Bool.false_eq_true, if_false, hlo, hhi, hone]
    simp

/-- Bit i of a word comes from the byte of its slot (R362). -/
theorem carried_slot (w o i : Nat) (bytes : List (Option Byte)) (p e : Bool) :
    carried false { offset := 8 * w + o, bytes := bytes, poisoned := p, ecrc := e } w i =
      if o ≤ i / 8 then ((bytes[i / 8 - o]?).join).map fun y => bit y (i % 8) else none := by
  simp only [carried, viewBit, Bool.false_eq_true, if_false]
  by_cases h : o ≤ i / 8
  · rw [if_neg (by omega), if_pos h, show 8 * w + i / 8 - (8 * w + o) = i / 8 - o by omega]
  · rw [if_pos (by omega), if_neg h]

/-- BAR2 writes of one word (R362, R364). -/
theorem bar2_write (s : State) (w o : Nat) (bytes : List (Option Byte)) (hw : w < 1048576) (ho : o + bytes.length ≤ 8)
    (hm : s.rv.mem.wf = true) (hfree : ReservoirFree s) (hready : reservoirReady s = true)
    (hue : (∀ j, j < 4 → wholeNonet false { offset := 8 * w + o, bytes := bytes } w j = true) ∨ s.rv.mem.isUe w = false) :
    RvMoved s (viewHost false true { offset := 8 * w + o, bytes := bytes } s) ∧
    WordMerged false { offset := 8 * w + o, bytes := bytes } w s.rv.mem
      (viewHost false true { offset := 8 * w + o, bytes := bytes } s).rv.mem := by
  have hwords := viewWords_slot w o bytes ho false false
  by_cases hb : bytes = []
  · rw [if_pos hb] at hwords
    obtain ⟨hmoved, hmem⟩ := viewHost_write false { offset := 8 * w + o, bytes := bytes } s s.rv.mem
      (by rw [hwords]; exact .start hfree) hready rfl rfl nofun
    rw [hmem]
    refine ⟨hmoved, hm, fun i _ => ?_, fun _ _ => rfl⟩
    rw [carried_slot, hb]
    simp
  · rw [if_neg hb] at hwords
    obtain ⟨n, hn, hrun⟩ := (FerryAt.start hfree).writeWord hm false { offset := 8 * w + o, bytes := bytes } w hw hue
    obtain ⟨hmoved, hmem⟩ := viewHost_write false { offset := 8 * w + o, bytes := bytes } s n
      (by rw [hwords]; exact hrun) hready rfl rfl nofun
    rw [hmem]
    exact ⟨hmoved, hn⟩

/-! ### BAR4: eight words packed in 36 bytes (R363) -/

theorem word_of_nonets {m n : Mem} {w : Nat} (h : ∀ a, 4 * w ≤ a → a < 4 * w + 4 → n.nonet a = m.nonet a) : n.word w = m.word w :=
  word_ext fun i hi => by rw [bit_word n w i hi, bit_word m w i hi, h _ (by omega) (by omega)]

/-- Words written whole, one after the other. -/
theorem FerryAt.writeWords {s0 : State} (packed : Bool) (x : HostBytes) (ws : List Nat) : ∀ {r : FerryRun} {m : Mem}, FerryAt s0 r m →
    m.wf = true → ws.Nodup → (∀ w ∈ ws, w < 1048576 ∧ ∀ j, j < 4 → wholeNonet packed x w j = true) →
    ∃ n, FerryAt s0 (ws.foldl (viewWriteWord packed x) r) n ∧
      (∀ w ∈ ws, ∀ i, i < 36 → bit (n.word w) i = (carried packed x w i).getD (bit (m.word w) i)) ∧
      ∀ a, (∀ w ∈ ws, a < 4 * w ∨ 4 * w + 4 ≤ a) → n.nonet a = m.nonet a := by
  induction ws with
  | nil => exact fun {r m} h _ _ _ => ⟨m, h, nofun, fun _ _ => rfl⟩
  | cons w ws ih =>
    intro r m h hm hnd hall
    obtain ⟨hw, hwhole⟩ := hall w List.mem_cons_self
    obtain ⟨hnotin, hnd⟩ := List.nodup_cons.1 hnd
    obtain ⟨m1, hmerged, hrun⟩ := h.writeWord hm packed x w hw (.inl hwhole)
    obtain ⟨n, hlast, hbits, hother⟩ := ih hrun hmerged.wf hnd fun v hv => hall v (List.mem_cons_of_mem _ hv)
    refine ⟨n, hlast, fun v hv i hi => ?_, fun a ha => ?_⟩
    · rcases List.mem_cons.1 hv with rfl | hv
      · rw [word_of_nonets fun a hlo hhi => hother a fun u hu => ?_, hmerged.bits i hi]
        have : u ≠ v := fun e => hnotin (e ▸ hu)
        omega
      · have hne : v ≠ w := fun e => hnotin (e ▸ hv)
        rw [hbits v hv i hi, word_of_nonets fun a hlo hhi => hmerged.other a (by omega)]
    · rw [hother a fun u hu => ha u (List.mem_cons_of_mem _ hu), hmerged.other a (ha w List.mem_cons_self)]

/-- A group of BAR4 is eight words. -/
theorem viewWords_group (g : Nat) (bytes : List (Option Byte)) (hb : bytes.length = 36) :
    viewWords true { offset := 36 * g, bytes := bytes } = (List.range 8).map (· + 8 * g) := by
  have hne : bytes.isEmpty = false := by
    cases bytes with
    | nil => exact absurd hb nofun
    | cons b bs => rfl
  have hlo : 36 * g / 36 * 8 + 8 * (36 * g % 36) / 36 = 8 * g := by omega
  have hhi : (36 * g + 36 - 1) / 36 * 8 + min 7 ((8 * ((36 * g + 36 - 1) % 36) + 7) / 36) = 8 * g + 7 := by omega
  have hlen : 8 * g + 7 + 1 - 8 * g = 8 := by omega
  simp only [viewWords, hne, hb, Bool.false_eq_true, if_false, if_true, hlo, hhi, hlen]

/-- Bit i of a group's word j comes from its byte of the packed group (R363). -/
theorem carried_group (g j i : Nat) (b : Fin 36 → Byte) (hj : j < 8) (hi : i < 36) :
    carried true { offset := 36 * g, bytes := (List.finRange 36).map fun i => some (b i) } (8 * g + j) i =
      some (bit (b ⟨(36 * j + i) / 8, by omega⟩) ((36 * j + i) % 8)) := by
  have hrow : (8 * g + j) % 8 = j := by omega
  have hgroup : (8 * g + j) / 8 = g := by omega
  have hbyte : (36 * j + i) / 8 < 36 := by omega
  simp only [carried, viewBit, if_true, hrow, hgroup]
  rw [if_neg (by omega), Nat.add_sub_cancel_left]
  simp [hbyte]

/-- A BAR4 write of one group (R363, R364). -/
theorem bar4_write (s : State) (g : Nat) (b : Fin 36 → Byte) (hg : g < 131072) (hm : s.rv.mem.wf = true) (hfree : ReservoirFree s)
    (hready : reservoirReady s = true) :
    let t := viewHost true true { offset := 36 * g, bytes := (List.finRange 36).map fun i => some (b i) } s
    RvMoved s t ∧ (∀ j i, (hj : j < 8) → (hi : i < 36) →
      bit (t.rv.mem.word (8 * g + j)) i = bit (b ⟨(36 * j + i) / 8, by omega⟩) ((36 * j + i) % 8)) ∧
    ∀ a, a < 32 * g ∨ 32 * g + 32 ≤ a → t.rv.mem.nonet a = s.rv.mem.nonet a := by
  have hwords := viewWords_group g ((List.finRange 36).map fun i => some (b i)) (by simp)
  obtain ⟨n, hrun, hbits, hother⟩ := (FerryAt.start hfree).writeWords true
    { offset := 36 * g, bytes := (List.finRange 36).map fun i => some (b i) } ((List.range 8).map (· + 8 * g)) hm
    (List.nodup_range.map fun x y h => by simpa using h) fun w hw => by
      obtain ⟨j, hj, rfl⟩ := List.mem_map.1 hw
      have hj := List.mem_range.1 hj
      refine ⟨by omega, fun k hk => wholeNonet_of fun i _ _ => ?_⟩
      rw [Nat.add_comm j, carried_group g j i b hj (by omega)]
      rfl
  rw [← hwords] at hrun
  obtain ⟨hmoved, hmem⟩ := viewHost_write true _ s n hrun hready rfl rfl fun _ => by dsimp only; omega
  refine ⟨hmoved, fun j i hj hi => ?_, fun a ha => ?_⟩
  · rw [hmem, hbits (8 * g + j) (List.mem_map.2 ⟨j, List.mem_range.2 hj, Nat.add_comm _ _⟩) i hi, carried_group g j i b hj hi]
    rfl
  · rw [hmem]
    refine hother a fun w hw => ?_
    obtain ⟨j, hj, rfl⟩ := List.mem_map.1 hw
    have := List.mem_range.1 hj
    omega

/-! ### Host reads of the views (R362, R363, R365) -/

/-- A read of one more word of a view. -/
def viewReadStep (r : List (Nat × Word) × FerryRun) (w : Nat) : List (Nat × Word) × FerryRun :=
  (r.1 ++ [(w, (viewAccess (viewReadTx w) r.2).1.getD (w % 8) 0)], (viewAccess (viewReadTx w) r.2).2)

theorem viewRead_eq (packed : Bool) (x : HostBytes) (s : State) :
    viewRead packed x s = FerryRun.over s ((viewWords packed x).foldl viewReadStep ([], some (0, s))).2
      (returnBytes packed x ((viewWords packed x).foldl viewReadStep ([], some (0, s))).1) := rfl

theorem viewHost_read (packed : Bool) (x : HostBytes) (s : State) (hready : reservoirReady s = true) (he : x.ecrc = false)
    (hin : packed = true → x.offset < 0x480000) : viewHost packed false x s = viewRead packed x s := by
  rw [viewHost, if_neg (by simp [he]), if_neg (by simp), if_neg, if_neg (by simp)]
  rintro (⟨h, hoff⟩ | h)
  · exact absurd (hin h) (by omega)
  · simp [hready] at h

/-- The byte i of a view that a word carries. -/
def carriesByte (packed : Bool) (i : Nat) (p : Nat × Word) : Byte :=
  BitVec.ofNat 8 ((List.range 36).map fun b => if (viewBit packed p.1 b).1 = i ∧ bit p.2 b then 2 ^ (viewBit packed p.1 b).2 else 0).sum

theorem returnBytes_eq (packed : Bool) (x : HostBytes) (ws : List (Nat × Word)) (s : State) :
    returnBytes packed x ws s = { s with hif := { s.hif with
      hostRead := (List.range x.bytes.length).map fun i => ws.foldl (fun y p => y ||| carriesByte packed (x.offset + i) p) 0 } } := rfl

/-- Of one byte of a view, later bits of a word stand higher. -/
theorem viewBit_rises (packed : Bool) (w a b : Nat) (h : a < b) (hsame : (viewBit packed w a).1 = (viewBit packed w b).1) :
    (viewBit packed w a).2 < (viewBit packed w b).2 := by
  cases packed with
  | false =>
    simp only [viewBit, Bool.false_eq_true, if_false] at hsame ⊢
    omega
  | true =>
    simp only [viewBit, if_true] at hsame ⊢
    omega

theorem bit_carriesByte (packed : Bool) (i : Nat) (p : Nat × Word) (k : Nat) (hk : k < 8) :
    bit (carriesByte packed i p) k = true ↔
      ∃ b, b < 36 ∧ ((viewBit packed p.1 b).1 = i ∧ bit p.2 b = true) ∧ (viewBit packed p.1 b).2 = k := by
  have hsum := testBit_sum_picked 36 (fun b => decide ((viewBit packed p.1 b).1 = i ∧ bit p.2 b = true))
    (fun b => (viewBit packed p.1 b).2)
    (fun a b hab _ ha hb => viewBit_rises packed p.1 a b hab
      ((of_decide_eq_true ha).1.trans (of_decide_eq_true hb).1.symm)) k
  simp only [decide_eq_true_eq] at hsum
  rw [carriesByte, bit_ofNat, hsum]
  simp [hk]

/-- The byte of a slot that its own word carries (R362). -/
theorem carriesByte_slot (w i : Nat) (v : Word) : carriesByte false (8 * w + i) (w, v) = slotByte v i := by
  refine BitVec.eq_of_getLsbD_eq fun k hk => ?_
  show bit _ k = bit _ k
  rw [bit_slotByte v i k hk, Bool.eq_iff_iff, bit_carriesByte _ _ _ k hk, Bool.and_eq_true, decide_eq_true_iff]
  simp only [viewBit, Bool.false_eq_true, if_false]
  constructor
  · rintro ⟨b, hb, ⟨hbyte, hbit⟩, hpos⟩
    have : 8 * i + k = b := by omega
    rw [this]
    exact ⟨hb, hbit⟩
  · rintro ⟨hb, hbit⟩
    exact ⟨8 * i + k, hb, ⟨by omega, hbit⟩, by omega⟩

/-- A read of one word of BAR2, and a count of FERRY_HOSTERR where the Reservoir refuses it (R362, R365). -/
theorem bar2_read (s : State) (w : Nat) (hw : w < 1048576) (hfree : ReservoirFree s) (hready : reservoirReady s = true) :
    ∃ u, RvMoved s u ∧ u.rv.mem = s.rv.mem ∧ viewHost false false { offset := 8 * w, bytes := List.replicate 8 none } s =
      if s.rv.mem.isUe w then { hostErr u with hif := { u.hif with hostRead := List.replicate 8 0 } }
      else { u with hif := { u.hif with hostRead := (List.range 8).map (slotByte (s.rv.mem.word w)) } } := by
  have hwords : viewWords false { offset := 8 * w, bytes := List.replicate 8 none } = [w] :=
    viewWords_slot w 0 (List.replicate 8 none) (by decide) false false
  have hbytes : ∀ v : Word, (fun i => List.foldl (fun y p => y ||| carriesByte false (8 * w + i) p) 0 [(w, v)]) = slotByte v :=
    fun v => funext fun i => by
      rw [List.foldl_cons, List.foldl_nil, carriesByte_slot]
      exact BitVec.zero_or
  obtain ⟨hready', hdirect⟩ : FerryReady (xclk s + 0) s ∧ (s.wharf.directAt.get 13).all (fun k => decide (k ≤ xclk s)) = true := by
    obtain ⟨j, t, hj, -, -, h, hd⟩ := FerryAt.start hfree
    obtain ⟨rfl, rfl⟩ := Prod.mk.inj (Option.some.inj hj)
    exact ⟨h, hd rfl⟩
  obtain ⟨x, u, hx, hmoved, hmem, -, hok, hbad⟩ := directTx_viewRead s w 0 hw hready' fun _ => hdirect
  refine ⟨u, hmoved, hmem, ?_⟩
  rw [viewHost_read false _ s hready rfl (fun h => absurd h Bool.false_ne_true), viewRead_eq, hwords, List.foldl_cons,
    List.foldl_nil, viewReadStep,
    viewAccess_run _ 0 s u x hx]
  by_cases hue : s.rv.mem.isUe w = true
  · obtain ⟨hstatus, hdata⟩ := hbad hue
    rw [if_neg (by simp [hstatus]), if_pos hue]
    dsimp only
    rw [hdata, FerryRun.over, Option.elim_some, returnBytes_eq]
    dsimp only [List.nil_append]
    rw [hbytes]
    rfl
  · obtain ⟨hstatus, hdata⟩ := hok (Bool.eq_false_iff.2 hue)
    rw [if_pos hstatus, if_neg hue]
    dsimp only
    rw [hdata, FerryRun.over, Option.elim_some, returnBytes_eq]
    dsimp only [List.nil_append]
    rw [hbytes]
    rfl

theorem FerryAt.readWords {s0 : State} (ws : List Nat) : ∀ {r : FerryRun} {m : Mem} (l : List (Nat × Word)), FerryAt s0 r m →
    (∀ w ∈ ws, w < 1048576 ∧ m.isUe w = false) → FerryAt s0 (ws.foldl viewReadStep (l, r)).2 m ∧
      (ws.foldl viewReadStep (l, r)).1 = l ++ ws.map fun w => (w, m.word w) := by
  induction ws with
  | nil => exact fun l h _ => ⟨h, (List.append_nil l).symm⟩
  | cons w ws ih =>
    intro r m l h hall
    obtain ⟨hw, hue⟩ := hall w List.mem_cons_self
    obtain ⟨hrun, hdata⟩ := h.read w hw hue
    obtain ⟨hlast, hlist⟩ := ih (l ++ [(w, m.word w)]) hrun fun v hv => hall v (List.mem_cons_of_mem _ hv)
    rw [List.foldl_cons, viewReadStep, hdata]
    refine ⟨hlast, hlist.trans ?_⟩
    rw [List.append_assoc]
    rfl

/-- A bit of bytes put together is a bit of one of them. -/
theorem bit_foldl_or {α : Type} (f : α → Byte) (l : List α) (k : Nat) : ∀ y : Byte,
    bit (l.foldl (fun y p => y ||| f p) y) k = (bit y k || l.any fun p => bit (f p) k) := by
  induction l with
  | nil => intro y; simp
  | cons p l ih =>
    intro y
    rw [List.foldl_cons, ih, List.any_cons, ← Bool.or_assoc]
    simp [bit]

/-- The bit of a group's byte that its word j carries (R363). -/
theorem bit_carriesByte_group (g j l i : Nat) (v : Word) (hj : j < 8) (hl : l < 8) (hi : i < 36) :
    bit (carriesByte true (36 * g + (36 * j + i) / 8) (8 * g + l, v)) ((36 * j + i) % 8) = (decide (l = j) && bit v i) := by
  have hrow : (8 * g + l) % 8 = l := by omega
  have hgroup : (8 * g + l) / 8 = g := by omega
  rw [Bool.eq_iff_iff, bit_carriesByte _ _ _ _ (Nat.mod_lt _ (by decide)), Bool.and_eq_true, decide_eq_true_iff]
  simp only [viewBit, if_true, hrow, hgroup]
  constructor
  · rintro ⟨b, hb, ⟨hbyte, hbit⟩, hpos⟩
    have hplace : 36 * l + b = 36 * j + i := by omega
    have hword : l = j := by omega
    have : b = i := by omega
    exact ⟨hword, this ▸ hbit⟩
  · rintro ⟨rfl, hbit⟩
    exact ⟨i, hi, ⟨rfl, hbit⟩, rfl⟩

/-- The packed bytes of a group's eight words. -/
def groupBytes (m : Mem) (g : Nat) : List Byte :=
  (List.range 36).map fun i =>
    (((List.range 8).map (· + 8 * g)).map fun w => (w, m.word w)).foldl (fun y p => y ||| carriesByte true (36 * g + i) p) 0

theorem bit_groupBytes (m : Mem) (g j i : Nat) (hj : j < 8) (hi : i < 36) :
    bit ((groupBytes m g).getD ((36 * j + i) / 8) 0) ((36 * j + i) % 8) = bit (m.word (8 * g + j)) i := by
  have hbyte : (36 * j + i) / 8 < 36 := by omega
  have hzero : bit (0 : Byte) ((36 * j + i) % 8) = false := by simp [bit]
  have hword : ∀ l, l < 8 → bit (carriesByte true (36 * g + (36 * j + i) / 8) (l + 8 * g, m.word (l + 8 * g)))
      ((36 * j + i) % 8) = (decide (l = j) && bit (m.word (8 * g + j)) i) := fun l hl => by
    rw [Nat.add_comm l, bit_carriesByte_group g j l i _ hj hl hi]
    by_cases e : l = j <;> simp [e]
  rw [groupBytes, List.getD_eq_getElem?_getD, List.getElem?_map, List.getElem?_range hbyte]
  simp only [Option.map_some, Option.getD_some]
  rw [bit_foldl_or, List.any_map, List.any_map, Bool.eq_iff_iff]
  simp only [hzero, Bool.false_or, List.any_eq_true, List.mem_range, Function.comp_apply]
  constructor
  · rintro ⟨l, hl, h⟩
    rw [hword l hl, Bool.and_eq_true] at h
    exact h.2
  · intro h
    exact ⟨j, hj, by rw [hword j hj]; simpa using h⟩

/-- A BAR4 read of one group whose words can be read (R363, R365). -/
theorem bar4_read (s : State) (g : Nat) (hg : g < 131072) (hue : ∀ j, j < 8 → s.rv.mem.isUe (8 * g + j) = false)
    (hfree : ReservoirFree s) (hready : reservoirReady s = true) :
    ∃ u, RvMoved s u ∧ u.rv.mem = s.rv.mem ∧ viewHost true false { offset := 36 * g, bytes := List.replicate 36 none } s =
      { u with hif := { u.hif with hostRead := groupBytes s.rv.mem g } } := by
  have hwords := viewWords_group g (List.replicate 36 none) List.length_replicate
  obtain ⟨hrun, hlist⟩ := FerryAt.readWords ((List.range 8).map (· + 8 * g)) [] (.start hfree) fun w hw => by
    obtain ⟨j, hj, rfl⟩ := List.mem_map.1 hw
    have hj := List.mem_range.1 hj
    exact ⟨by omega, by rw [Nat.add_comm]; exact hue j hj⟩
  obtain ⟨u, hu, hmoved, hmem⟩ := hrun.over (returnBytes true { offset := 36 * g, bytes := List.replicate 36 none }
    ([] ++ ((List.range 8).map (· + 8 * g)).map fun w => (w, s.rv.mem.word w)))
  refine ⟨u, hmoved, hmem, ?_⟩
  rw [viewHost_read _ _ s hready rfl (fun _ => by dsimp only; omega), viewRead_eq, hwords, hlist, hu, returnBytes_eq,
    List.length_replicate, List.nil_append, groupBytes]

/-! ### Host accesses to the Reservoir views as commands -/

theorem exec_bar2Access (s : State) (dt : Nat) (h : Available s) (write : Bool) (x : HostBytes) :
    exec (.bar2Access dt write x) s = .next (viewHost false write x (s.elapse dt)) := act_next s dt _ h.1 h.2

theorem exec_bar4Access (s : State) (dt : Nat) (h : Available s) (write : Bool) (x : HostBytes) :
    exec (.bar4Access dt write x) s = .next (viewHost true write x (s.elapse dt)) := act_next s dt _ h.1 h.2

/-- What transactions at the Reservoir leave of the device. -/
theorem RvMoved.kept {s t : State} {dt : Nat} (h : RvMoved (s.elapse dt) t) :
    t.basins = s.basins ∧ t.barges = s.barges ∧ t.kp = (s.elapse dt).kp ∧ t.ferry = s.ferry := by
  rw [h]
  exact ⟨rfl, rfl, rfl, rfl⟩

/-- A BAR2 write of a whole slot puts its word, whatever marks the word had (R362, R364). -/
theorem bar2Access_slot (s : State) (dt : Nat) (hav : Available s) (hm : s.rv.mem.wf = true) (hfree : ReservoirFree (s.elapse dt))
    (hready : reservoirReady s = true) (w : Nat) (b : Fin 8 → Byte) (hw : w < 1048576) :
    ∃ t, exec (.bar2Access dt true { offset := 8 * w, bytes := (List.finRange 8).map fun i => some (b i) }) s = .next t ∧
      t.rv.mem.word w = slotWord ((List.finRange 8).map b) ∧
      (∀ a, a < 4 * w ∨ 4 * w + 4 ≤ a → t.rv.mem.nonet a = s.rv.mem.nonet a) ∧
      t.basins = s.basins ∧ t.barges = s.barges ∧ t.kp = (s.elapse dt).kp ∧ t.ferry = s.ferry := by
  have hcarried : ∀ i, i < 36 → carried false { offset := 8 * w + 0, bytes := (List.finRange 8).map fun i => some (b i) } w i =
      some (bit (((List.finRange 8).map b).getD (i / 8) 0) (i % 8)) := fun i hi => by
    have hbyte : i / 8 < 8 := by omega
    rw [carried_slot, if_pos (Nat.zero_le _)]
    simp [hbyte]
  have hwhole : ∀ j, j < 4 → wholeNonet false { offset := 8 * w + 0, bytes := (List.finRange 8).map fun i => some (b i) } w j = true :=
    fun j hj => wholeNonet_of fun i _ _ => by rw [hcarried i (by omega)]; rfl
  obtain ⟨hmoved, hmerged⟩ := bar2_write (s.elapse dt) w 0 ((List.finRange 8).map fun i => some (b i)) hw (by simp) hm hfree hready
    (.inl hwhole)
  refine ⟨_, exec_bar2Access s dt hav _ _, word_ext fun i hi => (hmerged.bits i hi).trans ?_, hmerged.other, hmoved.kept⟩
  rw [hcarried i hi, bit_slotWord _ i hi]
  rfl

/-- A BAR2 write within a slot puts the bits that it carries into a word that can be read (R362, R364). -/
theorem bar2Access_merges (s : State) (dt : Nat) (hav : Available s) (hm : s.rv.mem.wf = true) (hfree : ReservoirFree (s.elapse dt))
    (hready : reservoirReady s = true) (w o : Nat) (bytes : List (Option Byte)) (hw : w < 1048576) (ho : o + bytes.length ≤ 8)
    (hue : s.rv.mem.isUe w = false) :
    ∃ t, exec (.bar2Access dt true { offset := 8 * w + o, bytes := bytes }) s = .next t ∧
      (∀ i, i < 36 → bit (t.rv.mem.word w) i = match if o ≤ i / 8 then bytes[i / 8 - o]? else none with
        | some (some y) => bit y (i % 8)
        | _ => bit (s.rv.mem.word w) i) ∧
      (∀ a, a < 4 * w ∨ 4 * w + 4 ≤ a → t.rv.mem.nonet a = s.rv.mem.nonet a) ∧
      t.basins = s.basins ∧ t.barges = s.barges ∧ t.kp = (s.elapse dt).kp ∧ t.ferry = s.ferry := by
  obtain ⟨hmoved, hmerged⟩ := bar2_write (s.elapse dt) w o bytes hw ho hm hfree hready (.inr hue)
  refine ⟨_, exec_bar2Access s dt hav _ _, fun i hi => ?_, hmerged.other, hmoved.kept⟩
  rw [hmerged.bits i hi, carried_slot]
  by_cases h : o ≤ i / 8
  · rw [if_pos h, if_pos h]
    rcases bytes[i / 8 - o]? with _ | _ | y <;> rfl
  · rw [if_neg h, if_neg h]
    rfl

/-- A BAR2 read of a slot gives its word, or zeros and a count where the word cannot be read (R362, R365). -/
theorem bar2Access_reads (s : State) (dt : Nat) (hav : Available s) (hfree : ReservoirFree (s.elapse dt))
    (hready : reservoirReady s = true) (w : Nat) (hw : w < 1048576) :
    ∃ t, exec (.bar2Access dt false { offset := 8 * w, bytes := List.replicate 8 none }) s = .next t ∧
      t.rv.mem = s.rv.mem ∧ t.basins = s.basins ∧ t.barges = s.barges ∧ t.kp = (s.elapse dt).kp ∧
      (s.rv.mem.isUe w = false → t.hif.hostRead = (List.range 8).map (slotByte (s.rv.mem.word w)) ∧ t.ferry = s.ferry) ∧
      (s.rv.mem.isUe w = true → t.hif.hostRead = List.replicate 8 0 ∧
        t.ferry = { s.ferry with hosterr := s.ferry.hosterr + 1 }) := by
  obtain ⟨u, hmoved, hmem, hread⟩ := bar2_read (s.elapse dt) w hw hfree hready
  obtain ⟨hbasins, hbarges, hkp, hferry⟩ := hmoved.kept
  refine ⟨_, exec_bar2Access s dt hav _ _, ?_⟩
  by_cases hue : (s.elapse dt).rv.mem.isUe w = true
  · rw [hread, if_pos hue]
    refine ⟨hmem, hbasins, hbarges, hkp, fun h => absurd (hue.symm.trans h) nofun, fun _ => ⟨rfl, ?_⟩⟩
    rw [← hferry]
    rfl
  · rw [hread, if_neg hue]
    exact ⟨hmem, hbasins, hbarges, hkp, fun _ => ⟨rfl, hferry⟩, fun h => absurd h hue⟩

/-- A BAR4 write of a group puts its eight words (R363, R364). -/
theorem bar4Access_writes (s : State) (dt : Nat) (hav : Available s) (hm : s.rv.mem.wf = true) (hfree : ReservoirFree (s.elapse dt))
    (hready : reservoirReady s = true) (g : Nat) (b : Fin 36 → Byte) (hg : g < 131072) :
    ∃ t, exec (.bar4Access dt true { offset := 36 * g, bytes := (List.finRange 36).map fun i => some (b i) }) s = .next t ∧
      (∀ j i, (hj : j < 8) → (hi : i < 36) →
        bit (t.rv.mem.word (8 * g + j)) i = bit (b ⟨(36 * j + i) / 8, by omega⟩) ((36 * j + i) % 8)) ∧
      (∀ a, a < 32 * g ∨ 32 * g + 32 ≤ a → t.rv.mem.nonet a = s.rv.mem.nonet a) ∧
      t.basins = s.basins ∧ t.barges = s.barges ∧ t.kp = (s.elapse dt).kp ∧ t.ferry = s.ferry := by
  obtain ⟨hmoved, hbits, hother⟩ := bar4_write (s.elapse dt) g b hg hm hfree hready
  exact ⟨_, exec_bar4Access s dt hav _ _, hbits, hother, hmoved.kept⟩

/-- A BAR4 read of a group gives its eight words (R363, R365). -/
theorem bar4Access_reads (s : State) (dt : Nat) (hav : Available s) (hfree : ReservoirFree (s.elapse dt))
    (hready : reservoirReady s = true) (g : Nat) (hg : g < 131072) (hue : ∀ j, j < 8 → s.rv.mem.isUe (8 * g + j) = false) :
    ∃ t, exec (.bar4Access dt false { offset := 36 * g, bytes := List.replicate 36 none }) s = .next t ∧
      t.hif.hostRead.length = 36 ∧
      (∀ j i, j < 8 → i < 36 → bit (t.hif.hostRead.getD ((36 * j + i) / 8) 0) ((36 * j + i) % 8) =
        bit (s.rv.mem.word (8 * g + j)) i) ∧ t.rv.mem = s.rv.mem ∧
      t.basins = s.basins ∧ t.barges = s.barges ∧ t.kp = (s.elapse dt).kp ∧ t.ferry = s.ferry := by
  obtain ⟨u, hmoved, hmem, hread⟩ := bar4_read (s.elapse dt) g hg hue hfree hready
  refine ⟨_, exec_bar4Access s dt hav _ _, ?_⟩
  rw [hread]
  exact ⟨by simp [groupBytes], fun j i hj hi => bit_groupBytes _ g j i hj hi, hmem, hmoved.kept⟩

/-! ### Host accesses that reach no word (R356, R363, R365) -/

theorem viewHost_ecrc (packed write : Bool) (x : HostBytes) (s : State) (h : x.ecrc = true) : viewHost packed write x s = dropTlp s := by
  rw [viewHost, if_pos h]

theorem viewHost_poisoned (packed : Bool) (x : HostBytes) (s : State) (he : x.ecrc = false) (h : x.poisoned = true) :
    viewHost packed true x s = poisonedWrite s := by
  rw [viewHost, if_neg (by simp [he]), if_pos ⟨rfl, h⟩]

/-- A write beyond the Reservoir, or before it is ready, counts. -/
theorem viewHost_write_beyond (packed : Bool) (x : HostBytes) (s : State) (he : x.ecrc = false) (hp : x.poisoned = false)
    (h : (packed = true ∧ 0x480000 ≤ x.offset) ∨ reservoirReady s = false) : viewHost packed true x s = hostErr s := by
  rw [viewHost, if_neg (by simp [he]), if_neg (by simp [hp]), if_pos (by simpa using h), if_pos rfl]

/-- A read beyond the Reservoir, or before it is ready, counts and reads 0. -/
theorem viewHost_read_beyond (packed : Bool) (x : HostBytes) (s : State) (he : x.ecrc = false)
    (h : (packed = true ∧ 0x480000 ≤ x.offset) ∨ reservoirReady s = false) :
    viewHost packed false x s = hostErr { s with hif := { s.hif with hostRead := List.replicate x.bytes.length 0 } } := by
  have hzeros : (List.range x.bytes.length).map (fun _ => (0 : Byte)) = List.replicate x.bytes.length 0 := by simp
  rw [viewHost, if_neg (by simp [he]), if_neg (by simp), if_pos (by simpa using h), if_neg (by simp), returnBytes_eq]
  simp only [List.foldl_nil]
  rw [hzeros]

/-! ### Outbound accesses at the host (R366, R367) -/

/-- A value put in a keyed list, in whatever order its keys stand. -/
theorem kget_kset_some {α : Type} (l : List (Nat × α)) (k i : Nat) (v : α) :
    kget (kset l k (some v)) i = if i = k then some v else kget l i := by
  induction l with
  | nil =>
    by_cases h : i = k
    · simp [kset, kget, h]
    · simp [kset, kget, h, Ne.symm h]
  | cons x l ih =>
    obtain ⟨j, y⟩ := x
    rw [kset]
    by_cases hlt : j < k
    · rw [if_pos hlt, kget, kget, ih]
      by_cases hj : j = i
      · rw [if_pos hj, if_pos hj, if_neg (by omega)]
      · rw [if_neg hj, if_neg hj]
    · rw [if_neg hlt]
      dsimp only
      rw [kget]
      by_cases hi : i = k
      · rw [if_pos hi, if_pos hi.symm]
      · rw [if_neg hi, if_neg (Ne.symm hi)]
        by_cases hj : j = k
        · rw [if_pos hj, kget, if_neg (by omega)]
        · rw [if_neg hj]

theorem kget_hostBytes (a : Nat) (bs : List Byte) : ∀ (n : Nat) (m : List (Nat × Byte)) (x : Nat),
    kget ((bs.zipIdx n).foldl (fun m b => kset m (a + b.2) (some b.1)) m) x =
      if a + n ≤ x ∧ x < a + n + bs.length then bs[x - (a + n)]? else kget m x := by
  induction bs with
  | nil =>
    intro n m x
    rw [if_neg (by simp only [List.length_nil]; omega)]
    rfl
  | cons b bs ih =>
    intro n m x
    rw [List.zipIdx_cons, List.foldl_cons, ih, kget_kset_some, List.length_cons]
    dsimp only
    by_cases hx : x = a + n
    · rw [if_neg (by omega), if_pos hx, if_pos (by omega), hx, Nat.sub_self]
      rfl
    · by_cases hin : a + (n + 1) ≤ x ∧ x < a + (n + 1) + bs.length
      · rw [if_pos hin, if_pos (by omega), show x - (a + n) = x - (a + (n + 1)) + 1 by omega]
        rfl
      · rw [if_neg hin, if_neg hx, if_neg (by omega)]

theorem kget_hostWrite (a : Nat) (bs : List Byte) (s : State) (x : Nat) :
    kget (hostWrite a bs s).hif.hostMem x = if a ≤ x ∧ x < a + bs.length then bs[x - a]? else kget s.hif.hostMem x :=
  kget_hostBytes a bs 0 s.hif.hostMem x

/-- The slots of a PCIO write at the host, in turn (R366). -/
def hostSlots (h : Nat) (d : Nat → Word) (ws : List Nat) (s : State) : State :=
  ws.foldl (fun s j => hostWrite (h + 8 * j) ((List.range 8).map (slotByte (d j))) s) s

/-- Slots at the host move its memory alone. -/
theorem hostSlots_moved (h : Nat) (d : Nat → Word) (ws : List Nat) : ∀ s : State,
    hostSlots h d ws s = { s with hif := { s.hif with hostMem := (hostSlots h d ws s).hif.hostMem } } := by
  induction ws with
  | nil => intro s; rfl
  | cons j ws ih => exact fun s => ih (hostWrite (h + 8 * j) ((List.range 8).map (slotByte (d j))) s)

theorem hostSlots_other (h : Nat) (d : Nat → Word) (ws : List Nat) (a : Nat) (ha : ∀ j ∈ ws, a < h + 8 * j ∨ h + 8 * j + 8 ≤ a) :
    ∀ s : State, kget (hostSlots h d ws s).hif.hostMem a = kget s.hif.hostMem a := by
  induction ws with
  | nil => intro s; rfl
  | cons j ws ih =>
    intro s
    have := ha j List.mem_cons_self
    refine (ih (fun k hk => ha k (List.mem_cons_of_mem _ hk)) _).trans ?_
    rw [kget_hostWrite, if_neg (by simp only [List.length_map, List.length_range]; omega)]

theorem hostSlots_slot (h : Nat) (d : Nat → Word) (ws : List Nat) (hnd : ws.Nodup) (j i : Nat) (hj : j ∈ ws) (hi : i < 8) :
    ∀ s : State, kget (hostSlots h d ws s).hif.hostMem (h + 8 * j + i) = some (slotByte (d j) i) := by
  induction ws with
  | nil => exact absurd hj List.not_mem_nil
  | cons k ws ih =>
    intro s
    obtain ⟨hnotin, hnd⟩ := List.nodup_cons.1 hnd
    rcases List.mem_cons.1 hj with rfl | hj
    · refine (hostSlots_other h d ws _ (fun l hl => ?_) _).trans ?_
      · have : l ≠ j := fun e => hnotin (e ▸ hl)
        omega
      · rw [kget_hostWrite, if_pos (by simp only [List.length_map, List.length_range]; omega), Nat.add_sub_cancel_left]
        simp [hi]
    · exact ih hnd hj _

theorem pcioGo_write (p : PcioReq) (rest : List PcioReq) (data : List Word) (s : State) (hq : s.wharf.pcio = p :: rest)
    (hup : hostUp s = true) (hw : p.req.tx.write = true) :
    pcioGo data s = touchLink (hostSlots p.haddr.toNat (fun j => p.req.tx.data.getD j 0)
      ((List.range p.words).filter fun j => (List.range 4).all fun i => txEnabled p.req.tx (4 * j + i))
      { s with wharf := { s.wharf with pcio := rest } }) := by
  rw [pcioGo, if_neg (by simp [hup]), hq]
  dsimp only
  rw [if_pos hw, hostSlots]

theorem pcioGo_read (p : PcioReq) (rest : List PcioReq) (data : List Word) (s : State) (hq : s.wharf.pcio = p :: rest)
    (hup : hostUp s = true) (hw : p.req.tx.write = false) :
    pcioGo data s = touchLink (respond p.req .ok ((List.range p.words).map fun j => data.getD j 0)
      { s with wharf := { s.wharf with pcio := rest } }) := by
  rw [pcioGo, if_neg (by simp [hup]), hq]
  dsimp only
  rw [if_neg (by simp [hw])]

/-- A PCIO write moves its slots at the host (R366). -/
theorem pcioGo_write_effect (p : PcioReq) (rest : List PcioReq) (data : List Word) (s : State) (hq : s.wharf.pcio = p :: rest)
    (hup : hostUp s = true) (hw : p.req.tx.write = true) :
    let t := pcioGo data s
    t.wharf = { s.wharf with pcio := rest } ∧ t.barges = s.barges ∧
    (∀ a, a < p.haddr.toNat ∨ p.haddr.toNat + 8 * p.words ≤ a → kget t.hif.hostMem a = kget s.hif.hostMem a) ∧
    ∀ j i, j < p.words → i < 8 → (∀ k, k < 4 → txEnabled p.req.tx (4 * j + k) = true) →
      kget t.hif.hostMem (p.haddr.toNat + 8 * j + i) = some (slotByte (p.req.tx.data.getD j 0) i) := by
  rw [pcioGo_write p rest data s hq hup hw]
  refine ⟨?_, ?_, fun a ha => ?_, fun j i hj hi hall => ?_⟩
  · show (hostSlots _ _ _ _).wharf = _
    rw [hostSlots_moved]
  · show (hostSlots _ _ _ _).barges = _
    rw [hostSlots_moved]
  · refine hostSlots_other _ _ _ a (fun j hj => ?_) _
    have := List.mem_range.1 (List.mem_filter.1 hj).1
    omega
  · refine hostSlots_slot _ _ _ (List.nodup_range.filter _) j i (List.mem_filter.2 ⟨List.mem_range.2 hj, ?_⟩) hi _
    exact List.all_eq_true.2 fun k hk => hall k (List.mem_range.1 hk)

/-- A PCIO read answers its initiator (R366). -/
theorem pcioGo_read_effect (p : PcioReq) (rest : List PcioReq) (data : List Word) (s : State) (hq : s.wharf.pcio = p :: rest)
    (hup : hostUp s = true) (hw : p.req.tx.write = false) :
    let t := pcioGo data s
    t.wharf.pcio = rest ∧ t.barges = s.barges ∧ t.hif.hostMem = s.hif.hostMem ∧ (p.req.drop = false →
      ∃ r, t.wharf.resps = s.wharf.resps ++ [r] ∧ r.init = p.req.init ∧ r.id = p.req.tx.id ∧ r.status = .ok ∧
        r.data = (List.range p.words).map fun j => data.getD j 0) := by
  rw [pcioGo_read p rest data s hq hup hw]
  cases hdrop : p.req.drop with
  | true =>
    unfold respond
    rw [if_pos hdrop]
    exact ⟨rfl, rfl, rfl, nofun⟩
  | false =>
    rw [respond_of_kept p.req .ok _ _ hdrop nofun]
    exact ⟨rfl, rfl, rfl, fun _ => ⟨_, rfl, rfl, rfl, rfl, rfl⟩⟩

/-! ### Outbound reads that fail (R352, R354, R367) -/

theorem oldestRead_of (before : List PcioReq) (p : PcioReq) (rest : List PcioReq) (h : ∀ q ∈ before, q.req.tx.write = true)
    (hp : p.req.tx.write = false) : oldestRead (before ++ p :: rest) = some (before, p, rest) := by
  induction before with
  | nil => rw [List.nil_append, oldestRead, if_pos (by simp [hp])]
  | cons q before ih =>
    rw [List.cons_append, oldestRead, if_neg (by simp [h q List.mem_cons_self]),
      ih fun r hr => h r (List.mem_cons_of_mem _ hr)]
    rfl

theorem oldestRead_none (l : List PcioReq) (h : ∀ q ∈ l, q.req.tx.write = true) : oldestRead l = none := by
  induction l with
  | nil => rfl
  | cons q l ih =>
    rw [oldestRead, if_neg (by simp [h q List.mem_cons_self]), ih fun r hr => h r (List.mem_cons_of_mem _ hr)]
    rfl

/-- The oldest read of a queue of outbound accesses has failed: it left the queue, was recorded and reported, and is answered REFUSED. -/
def PcioFailed (s t : State) (before rest : List PcioReq) (p : PcioReq) (kind : Nat) : Prop :=
  t.wharf.pcio = before ++ rest ∧
    t.wharf.refCnt = (if s.wharf.cnten then s.wharf.refCnt + 1 else s.wharf.refCnt) ∧
    t.ferry.errInit.toNat = p.req.init.val ∧ t.ferry.errWr = false ∧ t.ferry.errCnt = s.ferry.errCnt + 1 ∧
    t.ferry.errKind.toNat = kind ∧ (p.req.drop = false → ∃ r, t.wharf.resps = s.wharf.resps ++ [r] ∧ r.init = p.req.init ∧
      r.id = p.req.tx.id ∧ r.status = .refused ∧ r.data = []) ∧
    (if s.vectorOpen 15 then t.hif.sent.get 15 = s.hif.sent.get 15 + 1 else t.hif.pba = s.hif.pba ||| 0x8000) ∧
    SameMemory s t ∧ t.barges = s.barges

/-- A message of a vector, sent or left pending (R361). -/
theorem State.msix_signals (s : State) (v : Fin 64) :
    s.msix v = { s with hif := (s.msix v).hif } ∧ (s.msix v).hif.aer = s.hif.aer ∧
    if s.vectorOpen v then (s.msix v).hif.sent.get v = s.hif.sent.get v + 1
      else (s.msix v).hif.pba = s.hif.pba ||| BitVec.ofNat 64 (2 ^ v.val) := by
  unfold State.msix
  split
  · exact ⟨rfl, rfl, vmod_get_self _ _ _⟩
  · exact ⟨rfl, rfl, rfl⟩

/-- What FERRY records and reports of a failed access (R367). -/
theorem notePcioError_signals (r : WharfReq) (kind : BitVec 2) (s : State) :
    notePcioError r kind s = { s with
      hif := (notePcioError r kind s).hif
      ferry := { s.ferry with
        errInit := BitVec.ofNat 4 r.init.val, errWr := r.tx.write, errKind := kind, errCnt := s.ferry.errCnt + 1 } } ∧
    (notePcioError r kind s).hif.aer = s.hif.aer ∧
    if s.vectorOpen 15 then (notePcioError r kind s).hif.sent.get 15 = s.hif.sent.get 15 + 1
      else (notePcioError r kind s).hif.pba = s.hif.pba ||| 0x8000 := by
  obtain ⟨hmoved, haer, hvec⟩ := State.msix_signals { s with ferry := { s.ferry with
    errInit := BitVec.ofNat 4 r.init.val, errWr := r.tx.write, errKind := kind, errCnt := s.ferry.errCnt + 1 } } 15
  exact ⟨hmoved, haer, hvec⟩

theorem respond_refused_wharf (r : WharfReq) (s : State) :
    (respond r .refused [] s).wharf.pcio = s.wharf.pcio ∧ (respond r .refused [] s).wharf.refCnt =
      (if s.wharf.cnten then s.wharf.refCnt + 1 else s.wharf.refCnt) ∧ (respond r .refused [] s).ferry = s.ferry ∧
    (respond r .refused [] s).hif = s.hif ∧ (respond r .refused [] s).barges = s.barges ∧
    (r.drop = false → (respond r .refused [] s).wharf.resps = s.wharf.resps ++ [answerTo r .refused []]) := by
  cases h : r.drop with
  | true =>
    rw [respond, if_pos h]
    exact ⟨rfl, rfl, rfl, rfl, rfl, nofun⟩
  | false =>
    rw [respond, if_neg (by simp [h])]
    exact ⟨rfl, rfl, rfl, rfl, rfl, fun _ => rfl⟩

theorem failRead_effect (before : List PcioReq) (p : PcioReq) (rest : List PcioReq) (kind : BitVec 2) (s : State)
    (hq : s.wharf.pcio = before ++ p :: rest) (hb : ∀ q ∈ before, q.req.tx.write = true) (hp : p.req.tx.write = false) :
    PcioFailed s (failRead kind s) before rest p kind.toNat ∧ (failRead kind s).hif.aer = s.hif.aer := by
  have hmems := failRead_mems kind s
  have hgo : failRead kind s = pcioFail p kind { s with wharf := { s.wharf with pcio := before ++ rest } } := by
    rw [failRead, hq, oldestRead_of before p rest hb hp]
  rw [hgo] at hmems ⊢
  obtain ⟨hmoved, haer, hvec⟩ := notePcioError_signals p.req kind { s with wharf := { s.wharf with pcio := before ++ rest } }
  obtain ⟨hpcio, hcnt, hferry, hhif, hbarges, hresps⟩ :=
    respond_refused_wharf p.req (notePcioError p.req kind { s with wharf := { s.wharf with pcio := before ++ rest } })
  rw [← pcioFail] at hpcio hcnt hferry hhif hbarges hresps
  rw [hmoved] at hpcio hcnt hferry hbarges hresps
  refine ⟨⟨hpcio, hcnt, ?_, ?_, ?_, ?_, fun h => ⟨_, hresps h, rfl, rfl, rfl, rfl⟩, ?_, sameMemory_of_mems hmems, hbarges⟩, ?_⟩
  · rw [hferry]
    show (BitVec.ofNat 4 p.req.init.val).toNat = _
    rw [BitVec.toNat_ofNat]
    exact Nat.mod_eq_of_lt p.req.init.isLt
  · rw [hferry]
    exact hp
  · rw [hferry]
  · rw [hferry]
  · rw [hhif]
    exact hvec
  · rw [hhif]
    exact haer

/-! ### What the Wharf's accesses to memory leave of the units -/

/-- The host interface, FERRY, the Keeper and the units of outputs and inputs. -/
def State.units (s : State) : Hif × Ferry × Keeper × Hrpwm × Weir × Fio × Towline :=
  (s.hif, s.ferry, s.kp, s.pwm, s.weir, s.fio, s.tl)

@[simp] theorem State.units_mk (now freeCtr : Nat) (barges : Vector Barge 48) (basins : Vector Basin 12) (rv : Reservoir)
    (hms : Mem) (nvp : Vector NvpChan 4) (wharf : Wharf) (kp : Keeper) (pwm : Hrpwm) (weir : Weir) (fio : Fio) (tl : Towline)
    (crp : Crp) (hif : Hif) (ferry : Ferry) (fw : Firmware) (sec : Sec) (events : List W1cEvent) (pending : List Instr) :
    State.units ⟨now, freeCtr, barges, basins, rv, hms, nvp, wharf, kp, pwm, weir, fio, tl, crp, hif, ferry, fw, sec, events,
      pending⟩ = (hif, ferry, kp, pwm, weir, fio, tl) := rfl

@[simp] theorem State.units_eta (s : State) : (s.hif, s.ferry, s.kp, s.pwm, s.weir, s.fio, s.tl) = s.units := rfl

@[simp] theorem State.units_ite (c : Prop) [Decidable c] (s t : State) :
    (if c then s else t).units = if c then s.units else t.units := apply_ite State.units c s t

theorem State.units_rv (s : State) (rv : Reservoir) : ({ s with rv := rv } : State).units = s.units := rfl

@[simp] theorem foldl_units {α : Type} (f : State → α → State) (h : ∀ s a, (f s a).units = s.units) (l : List α) (s : State) :
    (l.foldl f s).units = s.units := by
  induction l generalizing s with
  | nil => rfl
  | cons a l ih => rw [List.foldl_cons, ih, h]

@[simp] theorem State.mark_units (r : W1cReg) (i : Nat) (s : State) : (s.mark r i).units = s.units := rfl

@[simp] theorem State.pend_units (s : State) (g : BargeIx) (n : Fin 64) : (s.pend g n).units = s.units := rfl

@[simp] theorem State.pendBasin_units (s : State) (n : BasinIx) (src : Fin 64) : (s.pendBasin n src).units = s.units := rfl

@[simp] theorem State.notify_units (s : State) (x : FwNotice) : (s.notify x).units = s.units := rfl

@[simp] theorem State.modBasin_units (s : State) (n : BasinIx) (f : Basin → Basin) : (s.modBasin n f).units = s.units := rfl

@[simp] theorem State.modBank_units (s : State) (n : BasinIx) (b : BankIx) (f : Bank → Bank) : (s.modBank n b f).units = s.units := rfl

@[simp] theorem State.modBpwr_units (s : State) (n : BasinIx) (f : Bpwr → Bpwr) : (s.modBpwr n f).units = s.units := rfl

@[simp] theorem noteRefused_units (irq : Bool) (s : State) : (noteRefused irq s).units = s.units := rfl

@[simp] theorem respond_units (r : WharfReq) (status : TxStatus) (data : List Word) (s : State) :
    (respond r status data s).units = s.units := by
  unfold respond
  split <;> simp

@[simp] theorem noteDecerr_units (irq : Bool) (init : Fin 16) (t : Tx) (reason : Nat) (s : State) :
    (noteDecerr irq init t reason s).units = s.units := by
  simp [noteDecerr]

@[simp] theorem acceptTx_units (init : Fin 16) (t : Tx) (load since : Nat) (s : State) :
    (acceptTx init t load since s).units = s.units := by
  unfold acceptTx
  split <;> simp [respondDecerr]

@[simp] theorem noteGrant_units (r : WharfReq) (k : Nat) (s : State) : (noteGrant r k s).units = s.units := rfl

@[simp] theorem holdDirect_units (init : Fin 16) (s : State) : (holdDirect init s).units = s.units := by
  simp [holdDirect, noteStall]

@[simp] theorem takeResponse_units (init : Fin 16) (q : Nat) (s : State) : (takeResponse init q s).2.units = s.units := by
  unfold takeResponse
  split <;> simp

@[simp] theorem noteErrorIn_units (n : BasinIx) (src : Nat) (m : Mem) (s : State) (i : Nat) :
    (noteErrorIn n src m s i).units = s.units := by
  simp [noteErrorIn]

@[simp] theorem noteErrorsIn_units (n : BasinIx) (src : Nat) (m : Mem) (s : State) (words : List Nat) :
    (noteErrorsIn n src m s words).units = s.units := by
  simp [noteErrorsIn]

@[simp] theorem beatBasin_units (n : BasinIx) (r : WharfReq) (s : State) : (beatBasin n r s).2.units = s.units := by
  unfold beatBasin
  extract_lets
  split
  · split <;> simp +zetaDelta
  · simp +zetaDelta

@[simp] theorem refuseBasin_units (n : BasinIx) (r : WharfReq) (s : State) : (refuseBasin n r s).units = s.units := by
  simp [refuseBasin]

@[simp] theorem endBasin_units (n : BasinIx) (r : WharfReq) (s : State) : (endBasin n r s).units = s.units := by
  simp [endBasin]

@[simp] theorem finishBasin_units (n : BasinIx) (s : State) (r : WharfReq) : (finishBasin n s r).units = s.units := by
  have step : ∀ (l : List Nat) (x : WharfReq × State), (l.foldl (fun x _ => beatBasin n x.1 x.2) x).2.units = x.2.units := by
    intro l
    induction l with
    | nil => exact fun _ => rfl
    | cons _ l ih => exact fun x => (ih _).trans (beatBasin_units n x.1 x.2)
  rw [finishBasin, endBasin_units, step]

@[simp] theorem noteRvError_units (s : State) (w : Nat) : (noteRvError s w).units = s.units := by
  simp [noteRvError]

@[simp] theorem takeRvBank_units (r : WharfReq) (s : State) : (takeRvBank r s).units = s.units := State.units_rv s _

@[simp] theorem performRv_units (r : WharfReq) (s : State) : (performRv r s).units = s.units := by
  unfold performRv
  extract_lets
  split
  · split <;> simp +zetaDelta [rvWriteNonets]
  · split <;> simp +zetaDelta

@[simp] theorem performMemory_units (r : WharfReq) (s : State) : (performMemory r s).units = s.units := by
  unfold performMemory
  split
  · simp
  · simp [performHms]

@[simp] theorem askTarget_units (s : State) (n : BasinIx) (b : BankIx) (rivals : List Rival) :
    (askTarget s n b rivals).2.units = s.units := by
  unfold askTarget
  split
  · simp [askBank]
  · unfold askPortB
    extract_lets
    split <;> simp

@[simp] theorem portReady_units (first : Bool) (r : WharfReq) (s : State) : (portReady first r s).2.units = s.units := by
  unfold portReady
  dsimp only
  repeat' split
  all_goals simp

theorem directTx_units (perform : WharfReq → State → State) (init : Fin 16) (t : Tx) (j : Nat) (s : State)
    (hp : ∀ r s, (perform r s).units = s.units) : (directTx perform init t j s).2.units = s.units := by
  unfold directTx
  extract_lets
  split
  · simp
  · split
    · simp +zetaDelta
    · split
      · simp
      · extract_lets
        split
        · simp +zetaDelta [hp]
        · simp +zetaDelta

/-! ### The choice of power states (R348) -/

theorem quietBarges_of_requests {s t : State} (h : OnlyRequests s t) : QuietBarges s t := fun g => by rw [h g]

theorem quietBarges_refl (s : State) : QuietBarges s s := fun _ => rfl

theorem quietBarges_trans {s t u : State} (h : QuietBarges s t) (k : QuietBarges t u) : QuietBarges s u := fun g => by
  rw [k g, h g]

/-- `t` is `s` with other power states and ownerships of banks, and what barges hear of them. -/
structure PowersChosen (s t : State) : Prop where
  state : t = { s with barges := t.barges, basins := t.basins, crp := t.crp, events := t.events }
  quiet : QuietBarges s t

theorem PowersChosen.refl (s : State) : PowersChosen s s := ⟨rfl, quietBarges_refl s⟩

theorem PowersChosen.trans {s t u : State} (h : PowersChosen s t) (k : PowersChosen t u) : PowersChosen s u := by
  refine ⟨?_, quietBarges_trans h.quiet k.quiet⟩
  rw [k.state, h.state]

theorem PowersChosen.foldl {α : Type} (f : State → α → State) (h : ∀ s a, PowersChosen s (f s a)) (l : List α) :
    ∀ s, PowersChosen s (l.foldl f s) := by
  induction l with
  | nil => exact PowersChosen.refl
  | cons a l ih => exact fun s => (h s a).trans (ih _)

theorem PowersChosen.of_powerMoved {s t : State} (h : PowerMoved s t) : PowersChosen s t := by
  refine ⟨?_, quietBarges_of_requests (onlyRequests_of_barges ?_)⟩ <;> rw [h]

theorem pend_powersChosen (s : State) (g : BargeIx) (n : Fin 64) : PowersChosen s (s.pend g n) :=
  ⟨rfl, quietBarges_of_requests (pend_requests s g n)⟩

theorem pendBasin_powersChosen (s : State) (n : BasinIx) (src : Fin 64) : PowersChosen s (s.pendBasin n src) :=
  (((pend_powersChosen _ _ _).trans (pend_powersChosen _ _ _)).trans (pend_powersChosen _ _ _)).trans (pend_powersChosen _ _ _)

theorem modBank_powersChosen (s : State) (n : BasinIx) (b : BankIx) (f : Bank → Bank) : PowersChosen s (s.modBank n b f) :=
  .of_powerMoved (modBasin_powerMoved s n _)

/-- A barge hears of a handover, or no longer. -/
theorem modFault_powersChosen (s : State) (g : BargeIx) (f : Barge → Barge) (h : ∀ b, f b = { b with hoFault := (f b).hoFault }) :
    PowersChosen s (s.modBarge g f) := by
  refine ⟨rfl, fun k => ?_⟩
  rw [State.modBarge_barges, vmod_get]
  split
  next e =>
    subst e
    rw [h]
  next => rfl

theorem runWaiting_powersChosen (n : BasinIx) (b : BankIx) (l : List WaitingHo) : ∀ s : State, PowersChosen s (runWaiting n b l s) := by
  induction l with
  | nil => exact fun s => modBank_powersChosen _ _ _ _
  | cons w rest ih =>
    intro s
    unfold runWaiting
    extract_lets bank
    split
    · exact modBank_powersChosen _ _ _ _
    · split
      · exact (modBank_powersChosen _ _ _ _).trans (ih _)
      · split
        · exact (modFault_powersChosen _ _ _ fun _ => rfl).trans (ih _)
        · exact (modBank_powersChosen _ _ _ _).trans (ih _)

theorem handover_powersChosen (n : BasinIx) (b : BankIx) (value : BitVec 7) (writer : Option (Fin 4)) (world : Bool) (s : State) :
    PowersChosen s (handover n b value writer world s) := by
  unfold handover
  extract_lets bank c fresh turn list s1 s2
  have h1 : PowersChosen s s1 := modBank_powersChosen _ _ _ _
  have h2 : PowersChosen s1 s2 := .foldl _ (fun s w => by
    cases w.writer with
    | none => exact .refl s
    | some p => exact modFault_powersChosen _ _ _ fun x => by split <;> rfl) _ _
  exact (h1.trans h2).trans (runWaiting_powersChosen n b _ _)

theorem closeBanks_powersChosen (n : BasinIx) (s : State) : PowersChosen s (closeBanks n s) :=
  .foldl _ (fun s b => handover_powersChosen n b _ none false s) _ s

theorem writeBpwr_powersChosen (n : BasinIx) (v : Word) (s : State) : PowersChosen s (writeBpwr n v s) := by
  unfold writeBpwr
  extract_lets r s1 p
  have h1 : PowerMoved s s1 := modBpwr_powerMoved _ _ _
  split
  · exact .of_powerMoved h1
  · split
    · exact .of_powerMoved (h1.trans (modBpwr_powerMoved _ _ _))
    · exact .of_powerMoved ((h1.trans (modBpwr_powerMoved _ _ _)).trans (beginPower_powerMoved _ _ _))

theorem choosePower_powersChosen (n : BasinIx) (s : State) : PowersChosen s (choosePower n s) := by
  unfold choosePower
  extract_lets p goal auto aim v s1 s2
  have h1 : PowersChosen s s1 := by
    simp only [s1]
    split
    · exact .refl s
    · split
      · exact (pendBasin_powersChosen _ _ _).trans (closeBanks_powersChosen _ _)
      · exact closeBanks_powersChosen _ _
  have h2 : PowersChosen s s2 := h1.trans (writeBpwr_powersChosen _ _ _)
  split
  · exact .refl s
  · split
    · exact h2.trans (.of_powerMoved (modBpwr_powerMoved _ _ _))
    · exact h2

theorem powersFollow_powersChosen (f : State → State) (s : State) : PowersChosen (f s) (powersFollow f s) := by
  unfold powersFollow
  extract_lets s1
  split
  · exact .foldl _ (fun s n => choosePower_powersChosen n s) _ _
  · exact .refl _

/-! ### Ingress engines that stop (R357) -/

theorem mayWrite_units (e : Fin 4) (waddr : BitVec 32) (s : State) (j : Nat) : (mayWrite e waddr s j).units = s.units := by
  unfold mayWrite
  split
  · have h := directTx_units performMemory 13 (ferryTx (1 + e.val) (waddr.toNat + 4 * j) (some (Config.freeWord s.freeCtr))) j s.free
      performMemory_units
    unfold FerryRun.access
    dsimp only
    split
    next heq =>
      rw [heq] at h
      exact h
    next => rfl
  · rfl

/-- An ingress engine as a host-scope reset leaves it. -/
def stoppedEngines (v : Vector Ingress 4) (e : Fin 4) : Vector Ingress 4 := vmod v e fun x => { x with busy := false, run := none }

/-- An ingress engine that stops leaves the other units as they are. -/
theorem stopIngress_units (s : State) (e : Fin 4) : (stopIngress s e).units =
    { s with ferry := { s.ferry with ig := stoppedEngines s.ferry.ig e } }.units := by
  have hkept : ∀ u : State, u.units = s.units → { u with ferry := { u.ferry with ig := stoppedEngines u.ferry.ig e } }.units =
      { s with ferry := { s.ferry with ig := stoppedEngines s.ferry.ig e } }.units := fun u h => by
    obtain ⟨hhif, hferry, hkp, hpwm, hweir, hfio, htl⟩ := by simpa only [State.units, Prod.mk.injEq] using h
    simp only [State.units_mk, hhif, hferry, hkp, hpwm, hweir, hfio, htl]
  unfold stopIngress
  split
  · exact hkept _ (foldl_units _ (fun s j => mayWrite_units e _ s j) _ s)
  · rfl

theorem stopIngress_idle (s : State) (e : Fin 4) (h : (s.ferry.ig.get e).run = none) :
    stopIngress s e = { s with ferry := { s.ferry with ig := stoppedEngines s.ferry.ig e } } := by
  unfold stopIngress
  rw [h]
  rfl

/-- The engines after those of a list have stopped. -/
theorem stopIngress_list (l : List (Fin 4)) : ∀ s : State,
    (l.foldl stopIngress s).units = { s with ferry := { s.ferry with ig := l.foldl stoppedEngines s.ferry.ig } }.units := by
  induction l with
  | nil => exact fun s => rfl
  | cons e l ih =>
    intro s
    have hone := stopIngress_units s e
    obtain ⟨hhif, hferry, hkp, hpwm, hweir, hfio, htl⟩ := by simpa only [State.units, Prod.mk.injEq] using hone
    rw [List.foldl_cons, ih]
    simp only [State.units_mk, hhif, hferry, hkp, hpwm, hweir, hfio, htl, List.foldl_cons]

/-- All four engines have stopped. -/
theorem stoppedEngines_all (v : Vector Ingress 4) (e : Fin 4) :
    ((((List.finRange 4).foldl stoppedEngines v).get e).busy = false ∧
      (((List.finRange 4).foldl stoppedEngines v).get e).run = none) := by
  have hall : (List.finRange 4).foldl stoppedEngines v =
      stoppedEngines (stoppedEngines (stoppedEngines (stoppedEngines v 0) 1) 2) 3 := rfl
  rw [hall]
  simp only [stoppedEngines, vmod_get]
  match e with
  | 0 => exact ⟨rfl, rfl⟩
  | 1 => exact ⟨rfl, rfl⟩
  | 2 => exact ⟨rfl, rfl⟩
  | 3 => exact ⟨rfl, rfl⟩

/-- Engines that run nothing stop without an access. -/
theorem stopIngress_list_idle (l : List (Fin 4)) : ∀ s : State, (∀ e, (s.ferry.ig.get e).run = none) →
    (l.foldl stopIngress s).mems = s.mems ∧ (l.foldl stopIngress s).barges = s.barges := by
  induction l with
  | nil => exact fun s _ => ⟨rfl, rfl⟩
  | cons e l ih =>
    intro s h
    rw [List.foldl_cons, stopIngress_idle s e (h e)]
    refine ih { s with ferry := { s.ferry with ig := stoppedEngines s.ferry.ig e } } fun k => ?_
    dsimp only [stoppedEngines]
    rw [vmod_get]
    split
    · rfl
    · exact h k

theorem State.dropTx_units (init : Fin 16) (ids : BitVec 5 → Bool) (s : State) : (s.dropTx init ids).units = s.units := rfl

theorem State.dropTx_barges (init : Fin 16) (ids : BitVec 5 → Bool) (s : State) : (s.dropTx init ids).barges = s.barges := rfl

/-! ### Host-scope resets (R343, R357, R387, R395, R405) -/

/-- What a host-scope reset clears of the host interface. -/
structure HifCleared (h : Hif) : Prop where
  busy : h.busy = 0
  ovr : h.ovr = 0
  pba : h.pba = 0
  ring : h.ring = Vector.replicate 4 {}
  bar : h.bar = Vector.replicate 3 0
  msixEn : h.msixEn = false
  msixMask : h.msixMask = false
  mrrs : h.mrrs = 2
  ctoDis : h.ctoDis = false

/-- What a host-scope reset clears of FERRY, and what it leaves as it was in `f`. -/
structure FerryCleared (f g : Ferry) : Prop where
  credMode : g.credMode = true
  grant : g.grant = false
  entry : g.entry = none
  win : ∀ v, (g.win.get v).en = false
  engines : ∀ e, (g.ig.get e).busy = false ∧ (g.ig.get e).run = none
  requesters : ∀ q, let x := f.eq.get q
    let y := g.eq.get q
    y.queue = [] ∧ y.bonus = 0 ∧ y.credit = 0 ∧ y.tickets = x.tickets ∧ y.share = x.share ∧ y.grants = x.grants ∧
      y.fails = x.fails ∧ y.done = x.done
  lfsr : g.lfsr = f.lfsr
  egprog : g.egprog = f.egprog
  hosterr : g.hosterr = f.hosterr

/-- What a host-scope reset clears in `t`, and what it leaves as it was in `s`. -/
structure HostCleared (s t : State) : Prop where
  hif : HifCleared t.hif
  ferry : FerryCleared s.ferry t.ferry
  session : t.fw.session = none
  latTol : ∀ n, t.fw.latTol.get n = 0
  kp : t.kp = s.kp
  pwm : t.pwm = s.pwm
  weir : t.weir = s.weir
  fio : t.fio = s.fio
  tl : t.tl = s.tl
  quiet : (∀ e, (s.ferry.ig.get e).run = none) → SameMemory s t ∧ QuietBarges s t

theorem sameMemory_trans {s t u : State} (h : SameMemory s t) (k : SameMemory t u) : SameMemory s u := by
  obtain ⟨hbasins, hrv, hhms⟩ := h
  obtain ⟨kbasins, krv, khms⟩ := k
  exact ⟨fun n a => (kbasins n a).trans (hbasins n a), fun a => (krv a).trans (hrv a), fun a => (khms a).trans (hhms a)⟩

/-- The choice of power states that follows leaves what the reset cleared. -/
theorem HostCleared.chosen {s t u : State} (h : HostCleared s t) (hu : PowersChosen t u) (hm : u.mems = t.mems) : HostCleared s u where
  hif := by rw [hu.state]; exact h.hif
  ferry := by rw [hu.state]; exact h.ferry
  session := by rw [hu.state]; exact h.session
  latTol := by rw [hu.state]; exact h.latTol
  kp := by rw [hu.state]; exact h.kp
  pwm := by rw [hu.state]; exact h.pwm
  weir := by rw [hu.state]; exact h.weir
  fio := by rw [hu.state]; exact h.fio
  tl := by rw [hu.state]; exact h.tl
  quiet hrun := by
    obtain ⟨hmem, hquiet⟩ := h.quiet hrun
    exact ⟨sameMemory_trans hmem (sameMemory_of_mems hm), quietBarges_trans hquiet hu.quiet⟩

theorem vget_map {α β : Type} {n : Nat} (v : Vector α n) (f : α → β) (i : Fin n) : (v.map f).get i = f (v.get i) := by
  rw [vget_eq, vget_eq, Vector.getElem_map]

theorem vget_replicate {α : Type} {n : Nat} (x : α) (i : Fin n) : (Vector.replicate n x).get i = x := by
  rw [vget_eq, Vector.getElem_replicate]

/-- What a host-scope reset leaves of the units before it clears its own registers. -/
theorem hostScopeReset_units (s : State) :
    let u := ((List.finRange 4).foldl stopIngress s).dropTx 13 fun _ => true
    u.hif = s.hif ∧ u.ferry = { s.ferry with ig := (List.finRange 4).foldl stoppedEngines s.ferry.ig } ∧ u.kp = s.kp ∧ u.pwm = s.pwm ∧
      u.weir = s.weir ∧ u.fio = s.fio ∧ u.tl = s.tl := by
  have h := (State.dropTx_units 13 (fun _ => true) ((List.finRange 4).foldl stopIngress s)).trans (stopIngress_list (List.finRange 4) s)
  simpa only [State.units, Prod.mk.injEq] using h

/-- Where no engine runs, a host-scope reset touches no memory and no barge. -/
theorem hostScopeReset_idle (s : State) (h : ∀ e, (s.ferry.ig.get e).run = none) :
    (((List.finRange 4).foldl stopIngress s).dropTx 13 fun _ => true).mems = s.mems ∧
    (((List.finRange 4).foldl stopIngress s).dropTx 13 fun _ => true).barges = s.barges := by
  obtain ⟨hmems, hbarges⟩ := stopIngress_list_idle (List.finRange 4) s h
  exact ⟨(State.dropTx_mems _ _ _).trans hmems, (State.dropTx_barges _ _ _).trans hbarges⟩

theorem flrReset_cleared (s : State) : HostCleared s (flrReset s) := by
  obtain ⟨-, hferry, hkp, hpwm, hweir, hfio, htl⟩ := hostScopeReset_units s
  have hidle := hostScopeReset_idle s
  unfold flrReset hostScopeReset
  generalize ((List.finRange 4).foldl stopIngress s).dropTx 13 (fun _ => true) = u at *
  dsimp only at *
  rw [hferry]
  exact {
    hif := ⟨rfl, rfl, rfl, rfl, rfl, rfl, rfl, rfl, rfl⟩
    ferry := {
      credMode := rfl
      grant := rfl
      entry := rfl
      win := fun v => by dsimp only; rw [vget_map]
      engines := stoppedEngines_all _
      requesters := fun q => by dsimp only; rw [vget_map]; exact ⟨rfl, rfl, rfl, rfl, rfl, rfl, rfl, rfl⟩
      lfsr := rfl
      egprog := rfl
      hosterr := rfl }
    session := rfl
    latTol := vget_replicate 0
    kp := hkp
    pwm := hpwm
    weir := hweir
    fio := hfio
    tl := htl
    quiet := fun hrun => by
      obtain ⟨hmems, hbarges⟩ := hidle hrun
      exact ⟨sameMemory_of_mems hmems, quietBarges_of_requests (onlyRequests_of_barges hbarges)⟩ }

/-- A reset of the link adds nothing to what is cleared elsewhere. -/
theorem HostCleared.withHif {s t : State} (h : HostCleared s t) (f : Hif) (hf : HifCleared f) : HostCleared s { t with hif := f } where
  hif := hf
  ferry := h.ferry
  session := h.session
  latTol := h.latTol
  kp := h.kp
  pwm := h.pwm
  weir := h.weir
  fio := h.fio
  tl := h.tl
  quiet := h.quiet

/-- PERST_N resets more of the link, and no more of what a host-scope reset clears. -/
theorem perstReset_cleared (s : State) : HostCleared s (perstReset s) := by
  have h := flrReset_cleared s
  unfold perstReset
  generalize flrReset s = u at *
  obtain ⟨busy, ovr, pba, ring, bar, msixEn, msixMask, mrrs, ctoDis⟩ := h.hif
  exact h.withHif _ ⟨busy, ovr, pba, ring, bar, msixEn, msixMask, mrrs, ctoDis⟩

theorem powersFollow_cleared (f : State → State) (s : State) (h : HostCleared s (f s)) : HostCleared s (powersFollow f s) :=
  h.chosen (powersFollow_powersChosen f s) (powersFollow_mems f s)

/-- What FLR leaves of configuration space and the link (R357). -/
theorem flrReset_hif (s : State) : (flrReset s).hif.bme = false ∧ (flrReset s).hif.l1En = s.hif.l1En ∧
    (flrReset s).hif.mps = s.hif.mps ∧ (flrReset s).hif.aer = s.hif.aer ∧ (flrReset s).hif.subsysStore = s.hif.subsysStore := by
  obtain ⟨hhif, -⟩ := hostScopeReset_units s
  unfold flrReset hostScopeReset
  dsimp only
  rw [hhif]
  exact ⟨rfl, rfl, rfl, rfl, rfl⟩

/-! ### Outbound accesses and host-scope resets as commands -/

theorem exec_pcioAccess (s : State) (dt : Nat) (h : Available s) (data : List Word) :
    exec (.pcioAccess dt data) s = .next (pcioGo data (s.elapse dt)) := act_next s dt _ h.1 h.2

theorem exec_pcioFailure (s : State) (dt : Nat) (h : Available s) (kind : HostEnd) :
    exec (.pcioFailure dt kind) s = .next (pcioEndFail kind (s.elapse dt)) := act_next s dt _ h.1 h.2

theorem exec_flr (s : State) (dt : Nat) (h : Available s) : exec (.flr dt) s = .next (powersFollow flrReset (s.elapse dt)) :=
  act_next s dt _ h.1 h.2

theorem exec_perst (s : State) (dt : Nat) (h : Available s) : exec (.perst dt) s = .next (powersFollow perstReset (s.elapse dt)) :=
  act_next s dt _ h.1 h.2

/-- The oldest outbound access is made at the host (R366). -/
theorem pcioAccess_made (s : State) (dt : Nat) (hav : Available s) (p : PcioReq) (rest : List PcioReq) (data : List Word)
    (hq : s.wharf.pcio = p :: rest) (hup : hostUp s = true) :
    ∃ t, exec (.pcioAccess dt data) s = .next t ∧ t.wharf.pcio = rest ∧ SameMemory s t ∧ t.barges = s.barges ∧
      (p.req.tx.write = true → t.wharf.resps = s.wharf.resps ∧
        (∀ a, a < p.haddr.toNat ∨ p.haddr.toNat + 8 * p.words ≤ a → kget t.hif.hostMem a = kget s.hif.hostMem a) ∧
        ∀ j i, j < p.words → i < 8 → (∀ k, k < 4 → txEnabled p.req.tx (4 * j + k) = true) →
          kget t.hif.hostMem (p.haddr.toNat + 8 * j + i) = some (slotByte (p.req.tx.data.getD j 0) i)) ∧
      (p.req.tx.write = false → t.hif.hostMem = s.hif.hostMem ∧ (p.req.drop = false →
        ∃ r, t.wharf.resps = s.wharf.resps ++ [r] ∧ r.init = p.req.init ∧ r.id = p.req.tx.id ∧ r.status = .ok ∧
          r.data = (List.range p.words).map fun j => data.getD j 0)) := by
  have hmem : SameMemory s (pcioGo data (s.elapse dt)) := sameMemory_of_mems (pcioGo_mems data (s.elapse dt))
  refine ⟨_, exec_pcioAccess s dt hav data, ?_⟩
  cases hw : p.req.tx.write with
  | true =>
    obtain ⟨hwharf, hbarges, hother, hslots⟩ := pcioGo_write_effect p rest data (s.elapse dt) hq hup hw
    exact ⟨by rw [hwharf], hmem, hbarges, fun _ => ⟨by rw [hwharf]; rfl, hother, hslots⟩, nofun⟩
  | false =>
    obtain ⟨hpcio, hbarges, hhost, hresps⟩ := pcioGo_read_effect p rest data (s.elapse dt) hq hup hw
    exact ⟨hpcio, hmem, hbarges, nofun, fun _ => ⟨hhost, hresps⟩⟩

/-- The number by which FERRY records how an outbound read failed (R367). -/
def failureKind : HostEnd → Nat
  | .timeout => 1
  | .urca => 2
  | _ => 3

theorem PcioFailed.noteAer {s t : State} {before rest : List PcioReq} {p : PcioReq} {k : Nat} (h : PcioFailed s t before rest p k)
    (how : HostEnd) : PcioFailed s (noteAer how t) before rest p k := h

/-- The oldest outbound read fails at the host (R367). -/
theorem pcioFailure_fails (s : State) (dt : Nat) (hav : Available s) (before : List PcioReq) (p : PcioReq) (rest : List PcioReq)
    (hq : s.wharf.pcio = before ++ p :: rest) (hb : ∀ q ∈ before, q.req.tx.write = true) (hp : p.req.tx.write = false)
    (kind : HostEnd) (hkind : kind ≠ .ok) (hcto : kind = .timeout → s.hif.ctoDis = false) :
    ∃ t, exec (.pcioFailure dt kind) s = .next t ∧ PcioFailed s t before rest p (failureKind kind) ∧
      (kind = .timeout → t.hif.aer = s.hif.aer ||| 0x4000) ∧ (kind = .poisoned → t.hif.aer = s.hif.aer ||| 0x1000) := by
  have hgo : pcioEndFail kind (s.elapse dt) = noteAer kind (failRead (pcioKind kind) (s.elapse dt)) := by
    rw [pcioEndFail, if_neg]
    rintro (h | h | h)
    · exact hkind h
    · have hmay : mayEnd (s.elapse dt) kind = mayEnd s kind := rfl
      rw [hmay] at h
      cases kind with
      | timeout => simp [mayEnd, hcto rfl] at h
      | _ => simp [mayEnd] at h
    · have hold : oldestRead (s.elapse dt).wharf.pcio = some (before, p, rest) := by
        rw [← oldestRead_of before p rest hb hp, ← hq]
        rfl
      rw [hold] at h
      simp at h
  obtain ⟨hfail, haer⟩ := failRead_effect before p rest (pcioKind kind) (s.elapse dt) hq hb hp
  have hnum : (pcioKind kind).toNat = failureKind kind := by
    cases kind with
    | ok => exact absurd rfl hkind
    | timeout => rfl
    | urca => rfl
    | poisoned => rfl
  rw [hnum] at hfail
  refine ⟨_, exec_pcioFailure s dt hav kind, ?_, fun h => ?_, fun h => ?_⟩
  · rw [hgo]
    exact hfail.noteAer kind
  · rw [hgo]
    show (failRead (pcioKind kind) (s.elapse dt)).hif.aer ||| aerOf kind = _
    rw [haer, h]
    rfl
  · rw [hgo]
    show (failRead (pcioKind kind) (s.elapse dt)).hif.aer ||| aerOf kind = _
    rw [haer, h]
    rfl

/-- The oldest outbound read finds the host out of reach (R354, R367). -/
theorem pcioAccess_unreachable (s : State) (dt : Nat) (hav : Available s) (before : List PcioReq) (p : PcioReq) (rest : List PcioReq)
    (hq : s.wharf.pcio = before ++ p :: rest) (hb : ∀ q ∈ before, q.req.tx.write = true) (hp : p.req.tx.write = false)
    (hdown : hostUp s = false) (data : List Word) :
    ∃ t, exec (.pcioAccess dt data) s = .next t ∧ PcioFailed s t before rest p 0 := by
  have hgo : pcioGo data (s.elapse dt) = failRead 0 (s.elapse dt) := by
    have hlate : hostUp (s.elapse dt) = false := hdown
    rw [pcioGo, if_pos (by simp [hlate])]
  refine ⟨_, exec_pcioAccess s dt hav data, ?_⟩
  rw [hgo]
  exact (failRead_effect before p rest 0 (s.elapse dt) hq hb hp).1

theorem pcioFailure_none (s : State) (dt : Nat) (hav : Available s) (kind : HostEnd)
    (h : kind = .ok ∨ mayEnd s kind = false ∨ oldestRead s.wharf.pcio = none) :
    exec (.pcioFailure dt kind) s = .next (s.elapse dt) := by
  rw [exec_pcioFailure s dt hav, pcioEndFail, if_pos]
  rcases h with h | h | h
  · exact .inl h
  · exact .inr (.inl (by rw [show mayEnd (s.elapse dt) kind = mayEnd s kind from rfl, h]; rfl))
  · exact .inr (.inr (by rw [show (s.elapse dt).wharf.pcio = s.wharf.pcio from rfl, h]; rfl))

/-- Writes wait while the host is out of reach, and nothing is made where nothing waits. -/
theorem pcioAccess_none (s : State) (dt : Nat) (hav : Available s) (data : List Word) (hw : ∀ q ∈ s.wharf.pcio, q.req.tx.write = true)
    (h : hostUp s = false ∨ s.wharf.pcio = []) : exec (.pcioAccess dt data) s = .next (s.elapse dt) := by
  have hnone : failRead 0 (s.elapse dt) = s.elapse dt := by
    rw [failRead, show (s.elapse dt).wharf.pcio = s.wharf.pcio from rfl, oldestRead_none _ hw]
  rw [exec_pcioAccess s dt hav, pcioGo]
  split
  · rw [hnone]
  next hup =>
    have hempty : (s.elapse dt).wharf.pcio = [] := h.resolve_left fun e => hup (by
      rw [show hostUp (s.elapse dt) = hostUp s from rfl, e]; rfl)
    rw [hempty]

/-- A host-scope reset by FLR (R357). -/
theorem flr_resets (s : State) (dt : Nat) (hav : Available s) :
    ∃ t, exec (.flr dt) s = .next t ∧ HostCleared (s.elapse dt) t ∧ t.hif.bme = false ∧ t.hif.l1En = s.hif.l1En ∧
      t.hif.mps = s.hif.mps ∧ t.hif.aer = s.hif.aer := by
  obtain ⟨hbme, hl1, hmps, haer, -⟩ := flrReset_hif (s.elapse dt)
  have hhif : (powersFollow flrReset (s.elapse dt)).hif = (flrReset (s.elapse dt)).hif := by
    rw [(powersFollow_powersChosen flrReset (s.elapse dt)).state]
  refine ⟨_, exec_flr s dt hav, powersFollow_cleared _ _ (flrReset_cleared _), ?_⟩
  rw [hhif]
  exact ⟨hbme, hl1, hmps, haer⟩

/-- A host-scope reset by PERST_N (R343, R353). -/
theorem perst_resets (s : State) (dt : Nat) (hav : Available s) :
    ∃ t, exec (.perst dt) s = .next t ∧ HostCleared (s.elapse dt) t ∧ t.hif.bme = false ∧ t.hif.l1En = false ∧ t.hif.inL1 = false ∧
      t.hif.mps = 0 ∧ t.hif.aer = 0 ∧ t.hif.subsys = s.hif.subsysStore.getD (0x1F5C, 0x7240) := by
  obtain ⟨hbme, -, -, -, hstore⟩ := flrReset_hif (s.elapse dt)
  have hhif : (powersFollow perstReset (s.elapse dt)).hif = (perstReset (s.elapse dt)).hif := by
    rw [(powersFollow_powersChosen perstReset (s.elapse dt)).state]
  refine ⟨_, exec_perst s dt hav, powersFollow_cleared _ _ (perstReset_cleared _), ?_⟩
  rw [hhif]
  refine ⟨hbme, rfl, rfl, rfl, rfl, ?_⟩
  show (flrReset (s.elapse dt)).hif.subsysStore.getD (0x1F5C, 0x7240) = _
  rw [hstore]
  rfl

/-- What a host-scope reset clears, as the statement of O46 lists it. -/
theorem HostCleared.list {s t : State} (h : HostCleared s t) :
    t.hif.busy = 0 ∧ t.hif.ovr = 0 ∧ t.hif.pba = 0 ∧ t.hif.ring = Vector.replicate 4 {} ∧
      t.hif.bar = Vector.replicate 3 0 ∧ t.hif.msixEn = false ∧ t.hif.msixMask = false ∧ t.hif.mrrs = 2 ∧ t.hif.ctoDis = false ∧
      t.ferry.credMode = true ∧ t.ferry.grant = false ∧ t.ferry.entry = none ∧ (∀ v, (t.ferry.win.get v).en = false) ∧
      (∀ e, (t.ferry.ig.get e).busy = false ∧ (t.ferry.ig.get e).run = none) ∧
      (∀ q, let x := s.ferry.eq.get q
        let y := t.ferry.eq.get q
        y.queue = [] ∧ y.bonus = 0 ∧ y.credit = 0 ∧ y.tickets = x.tickets ∧ y.share = x.share ∧ y.grants = x.grants ∧
          y.fails = x.fails ∧ y.done = x.done) ∧
      t.ferry.lfsr = s.ferry.lfsr ∧ t.ferry.egprog = s.ferry.egprog ∧ t.ferry.hosterr = s.ferry.hosterr ∧
      t.fw.session = none ∧ (∀ n, t.fw.latTol.get n = 0) ∧ t.kp = s.kp ∧ t.pwm = s.pwm ∧ t.weir = s.weir ∧ t.fio = s.fio ∧
      t.tl = s.tl ∧ ((∀ e, (s.ferry.ig.get e).run = none) → SameMemory s t ∧ QuietBarges s t) := by
  obtain ⟨⟨busy, ovr, pba, ring, bar, msixEn, msixMask, mrrs, ctoDis⟩,
    ⟨credMode, grant, entry, win, engines, requesters, lfsr, egprog, hosterr⟩, session, latTol, kp, pwm, weir, fio, tl, quiet⟩ := h
  exact ⟨busy, ovr, pba, ring, bar, msixEn, msixMask, mrrs, ctoDis, credMode, grant, entry, win, engines, requesters, lfsr, egprog,
    hosterr, session, latTol, kp, pwm, weir, fio, tl, quiet⟩

/-- Accesses to either view that fail their ECRC change nothing but AER, whatever they are. -/
theorem views_ecrc (s : State) (dt : Nat) (hav : Available s) (write : Bool) (x : HostBytes) (hx : x.ecrc = true) :
    ∀ c ∈ [Instr.bar2Access dt write x, .bar4Access dt write x],
      exec c s = .next { s.elapse dt with hif := { s.hif with aer := s.hif.aer ||| 0x80000 } } := by
  rw [List.forall_mem_cons, List.forall_mem_singleton, exec_bar2Access s dt hav, exec_bar4Access s dt hav,
    viewHost_ecrc false _ _ _ hx, viewHost_ecrc true _ _ _ hx]
  exact ⟨rfl, rfl⟩

/-- Poisoned writes of either view are discarded, counted and reported. -/
theorem views_poisoned (s : State) (dt : Nat) (hav : Available s) (x : HostBytes) (he : x.ecrc = false) (hp : x.poisoned = true) :
    ∀ c ∈ [Instr.bar2Access dt true x, .bar4Access dt true x],
      exec c s = .next { s.elapse dt with
        hif := { s.hif with aer := s.hif.aer ||| 0x1000 }, ferry := { s.ferry with hosterr := s.ferry.hosterr + 1 } } := by
  rw [List.forall_mem_cons, List.forall_mem_singleton, exec_bar2Access s dt hav, exec_bar4Access s dt hav,
    viewHost_poisoned false _ _ he hp, viewHost_poisoned true _ _ he hp]
  exact ⟨rfl, rfl⟩

/-- Accesses to the views before the Reservoir is ready, or beyond it, count, and reads give zeros. -/
theorem views_beyond (s : State) (dt : Nat) (hav : Available s) (x : HostBytes) (he : x.ecrc = false) :
    let late := s.elapse dt
    let errs := { s.ferry with hosterr := s.ferry.hosterr + 1 }
    let zeros := { s.hif with hostRead := List.replicate x.bytes.length 0 }
    (reservoirReady s = false → x.poisoned = false → ∀ c ∈ [Instr.bar2Access dt true x, .bar4Access dt true x],
      exec c s = .next { late with ferry := errs }) ∧
    (reservoirReady s = false → ∀ c ∈ [Instr.bar2Access dt false x, .bar4Access dt false x],
      exec c s = .next { late with ferry := errs, hif := zeros }) ∧
    (0x480000 ≤ x.offset → x.poisoned = false → exec (.bar4Access dt true x) s = .next { late with ferry := errs }) ∧
    (0x480000 ≤ x.offset → exec (.bar4Access dt false x) s = .next { late with ferry := errs, hif := zeros }) := by
  refine ⟨fun hr hp => ?_, fun hr => ?_, fun hoff hp => ?_, fun hoff => ?_⟩
  · rw [List.forall_mem_cons, List.forall_mem_singleton, exec_bar2Access s dt hav, exec_bar4Access s dt hav,
      viewHost_write_beyond false x (s.elapse dt) he hp (.inr hr), viewHost_write_beyond true x (s.elapse dt) he hp (.inr hr)]
    exact ⟨rfl, rfl⟩
  · rw [List.forall_mem_cons, List.forall_mem_singleton, exec_bar2Access s dt hav, exec_bar4Access s dt hav,
      viewHost_read_beyond false x (s.elapse dt) he (.inr hr), viewHost_read_beyond true x (s.elapse dt) he (.inr hr)]
    exact ⟨rfl, rfl⟩
  · rw [exec_bar4Access s dt hav, viewHost_write_beyond true x (s.elapse dt) he hp (.inl ⟨rfl, hoff⟩)]
    rfl
  · rw [exec_bar4Access s dt hav, viewHost_read_beyond true x (s.elapse dt) he (.inl ⟨rfl, hoff⟩)]
    rfl

/-- Settles O46: each command's own lemma, the accesses to the views by the run of Wharf transactions that they make. -/
theorem hostReachesTheReservoirAndResets : Obligations.HostReachesTheReservoirAndResets := by
  unfold Obligations.HostReachesTheReservoirAndResets
  intro s dt hav hcan
  obtain ⟨-, hm, -⟩ := hcan
  refine ⟨fun hfree hready => ⟨?_, ?_, ?_, ?_, ?_⟩, views_ecrc s dt hav, views_poisoned s dt hav, views_beyond s dt hav,
    pcioAccess_made s dt hav, fun before p rest hq hb hp => ⟨fun kind hkind hcto => ?_, ?_⟩, fun kind h => ?_, fun hw => ⟨?_, ?_⟩,
    ?_, ?_⟩
  · exact fun w b => bar2Access_slot s dt hav hm hfree hready w b
  · exact fun w o bytes => bar2Access_merges s dt hav hm hfree hready w o bytes
  · exact fun w => bar2Access_reads s dt hav hfree hready w
  · exact fun g b => bar4Access_writes s dt hav hm hfree hready g b
  · exact fun g => bar4Access_reads s dt hav hfree hready g
  · obtain ⟨t, ht, hfail, htimeout, hpoisoned⟩ := pcioFailure_fails s dt hav before p rest hq hb hp kind hkind hcto
    refine ⟨t, ht, ⟨?_, htimeout, hpoisoned⟩⟩
    cases kind <;> exact hfail
  · exact pcioAccess_unreachable s dt hav before p rest hq hb hp
  · refine pcioFailure_none s dt hav kind (h.imp_right fun ⟨hkind, hcto⟩ => .inl ?_)
    simp [hkind, mayEnd, hcto]
  · exact fun kind => pcioFailure_none s dt hav kind (.inr (.inr (oldestRead_none _ hw)))
  · exact fun h data => pcioAccess_none s dt hav data hw h
  · obtain ⟨t, ht, hcleared, hrest⟩ := flr_resets s dt hav
    exact ⟨t, ht, hcleared.list, hrest⟩
  · obtain ⟨t, ht, hcleared, hrest⟩ := perst_resets s dt hav
    exact ⟨t, ht, hcleared.list, hrest⟩

end Sys2Proof.Machine
end

section
/-! A barge at a boundary where nothing is due (R44, R100, R111, R122), and where a command lets it go on. -/

namespace Sys2Proof.Machine

/-! ### Parts that a step leaves as they are -/

theorem State.modBarge_same (s : State) (g : BargeIx) (f : Barge → Barge) (h : f (s.barges.get g) = s.barges.get g) :
    s.modBarge g f = s := by
  rw [State.modBarge, vmod_same _ _ _ h]

/-- Where no barge has been held or let go, no power state is chosen anew (R126, R348). -/
theorem holdsFollow_same (f : State → State) (s : State) (h : (f s).crp.bhold = s.crp.bhold) : holdsFollow f s = f s := by
  simp [holdsFollow, h]

theorem stepped_running (g : BargeIx) (f : State → State) (s : State) (h : (s.barges.get g).dbg.stepping = false) :
    stepped g f s = f s := by
  simp [stepped, h]

/-- What a BCLK count rests on (R338). -/
theorem bclkCount_congr {s t : State} {n : BasinIx} (hnow : t.now = s.now) (hcrp : t.crp = s.crp)
    (hacc : (t.basins.get n).bclkAcc = (s.basins.get n).bclkAcc)
    (hsince : (t.basins.get n).bclkSince = (s.basins.get n).bclkSince) : bclkCount t n = bclkCount s n := by
  simp only [bclkCount, bclkAt, bclkPeriod, hnow, hcrp, hacc, hsince]

@[simp] theorem State.modBarge_bclkCount (s : State) (g : BargeIx) (f : Barge → Barge) (n : BasinIx) :
    bclkCount (s.modBarge g f) n = bclkCount s n := rfl

@[simp] theorem State.modBank_bclkCount (s : State) (m : BasinIx) (b : BankIx) (f : Bank → Bank) (n : BasinIx) :
    bclkCount (s.modBank m b f) n = bclkCount s n := by
  refine bclkCount_congr rfl rfl ?_ ?_ <;> rw [State.modBank, State.modBasin_basins, vmod_get] <;> split <;> rfl

/-- The BCLK count does not fall while time passes (R338). -/
theorem bclkCount_elapse_le (s : State) (dt : Nat) (n : BasinIx) : bclkCount s n ≤ bclkCount (s.elapse dt) n :=
  Nat.add_le_add_left (Nat.div_le_div_right (by simp only [State.elapse_now, State.elapse_basins]; omega)) _

/-! ### The boundary -/

theorem finishLoad_whole (g : BargeIx) (rivals : List Rival) (s : State) (h : (s.barges.get g).second = none) :
    finishLoad g rivals s = (true, false, s) := by
  simp [finishLoad, h]

theorem afterLoad_whole (g : BargeIx) (rivals : List Rival) (f : Bool → State → State) (s : State)
    (h : (s.barges.get g).second = none) : afterLoad g rivals f s = f false s := by
  simp [afterLoad, finishLoad_whole g rivals s h]

/-- With no result in flight nothing is delivered. -/
theorem boundary_landed (g : BargeIx) (split : Bool) (s : State) (h : (s.barges.get g).flights = []) :
    boundary g split s = (s, true) := by
  have hdue : (s.barges.get g).deliverDue split = (none, s.barges.get g) := by
    simp only [Barge.deliverDue, h, List.filter_nil, List.map_nil, List.find?_nil, List.foldl_nil, Prod.mk.injEq, true_and]
    rw [← h]
  simp only [boundary, hdue]
  rw [State.modBarge_same _ _ _ rfl]

theorem selectInterrupt_none (b : Barge) (now : Nat) (h : ∀ n, (b.intc.get n).en = false) : selectInterrupt b now = none := by
  have hl : ∀ l : List (Fin 64), l.foldl (fun acc n =>
      if eligible b now (b.intc.get n) then
        match acc with
        | some m => if outranks (b.intc.get n) (b.intc.get m) then some n else some m
        | none => some n
      else acc) none = none := by
    intro l
    induction l with
    | nil => rfl
    | cons n l ih => rw [List.foldl_cons, if_neg (by simp [eligible, h]), ih]
  exact hl _

theorem interruptDue_disabled (s : State) (g : BargeIx) (h : NoInterrupts s g) : interruptDue s g = false := by
  simp [interruptDue, selectInterrupt_none _ _ h]

/-- What holds of a barge that no operation of an earlier instruction keeps from its boundary. -/
theorem busyBoundary_eq_false {s : State} {g : BargeIx} (hreq : (s.barges.get g).dbg.haltReq = none) :
    busyBoundary s g = false ↔
      (s.barges.get g).dbg.halted = false ∧ (s.barges.get g).rpt = none ∧ (s.barges.get g).wait = none ∧
        (s.barges.get g).gate = none ∧ (s.barges.get g).sync = false ∧ (s.barges.get g).rfeDue = none ∧
        (s.barges.get g).frameRun = none ∧ (s.barges.get g).issueFrom ≤ bclkCount s (basinOf g) ∧ ownHandover s g = false := by
  simp [busyBoundary, hreq, and_assoc]

theorem atBoundary_running {s : State} {g : BargeIx} (h : AtBoundary s g) : (s.barges.get g).dbg.stepping = false := by
  obtain ⟨-, -, -, -, hstep, -⟩ := h
  exact hstep

/-- A barge at its boundary is there at any later time until a command moves it. -/
theorem atBoundary_elapse {s : State} {g : BargeIx} (h : AtBoundary s g) (dt : Nat) : AtBoundary (s.elapse dt) g := by
  obtain ⟨hruns, hbusy, htrap, hho, hstep, hreq, hsecond, hfrom⟩ := h
  have hlate := hfrom.trans (bclkCount_elapse_le s dt (basinOf g))
  refine ⟨hruns, ?_, htrap, hho, hstep, hreq, hsecond, hlate⟩
  obtain ⟨hhalt, hrpt, hwait, hgate, hsync, hrfe, hframe, -, hown⟩ := (busyBoundary_eq_false hreq).1 hbusy
  exact (busyBoundary_eq_false (s := s.elapse dt) hreq).2 ⟨hhalt, hrpt, hwait, hgate, hsync, hrfe, hframe, hlate, hown⟩

/-! ### Idle runs and waits (R24, R87) -/

/-- An instruction of an idle run counts (R24). -/
def Barge.idled (b : Barge) : Barge :=
  { b with
    count := b.count + 1, irun := b.irun - 1, pc := if b.irun = 1 then b.pc + 1 else b.pc, entry := none
    dbg := { b.dbg with skipBp := false } }

theorem idleStep_atBoundary (s : State) (g : BargeIx) (h : AtBoundary s g) (hi : NoInterrupts s g)
    (hrun : 0 < (s.barges.get g).irun) (hfl : (s.barges.get g).flights = []) :
    idleStep g s = s.modBarge g Barge.idled := by
  obtain ⟨hruns, hbusy, htrap, hho, -, -, hsecond, -⟩ := h
  unfold idleStep
  rw [if_neg (by simp [hruns, hbusy, htrap]; omega), afterLoad_whole _ _ _ _ hsecond]
  simp only [boundary_landed g false s hfl, hho, interruptDue_disabled s g hi]
  rw [if_neg (by simp), if_neg (by simp)]
  rfl

theorem exec_idleCount (s : State) (dt : Nat) (g : BargeIx) (hav : Available s) (h : AtBoundary s g) (hi : NoInterrupts s g)
    (hrun : 0 < (s.barges.get g).irun) (hfl : (s.barges.get g).flights = []) :
    exec (.idleCount dt g) s = .next ((s.elapse dt).modBarge g Barge.idled) := by
  have hstep : stepped g (idleStep g) (s.elapse dt) = (s.elapse dt).modBarge g Barge.idled := by
    rw [stepped_running g _ (s.elapse dt) (atBoundary_running (atBoundary_elapse h dt)), idleStep_atBoundary _ _ (atBoundary_elapse h dt) hi hrun hfl]
  show act s dt _ = _
  rw [act_next s dt _ hav.1 hav.2, holdsFollow_same _ _ (by rw [hstep]; rfl), hstep]

theorem exec_cntWaitEnd (s : State) (dt : Nat) (g : BargeIx) (hav : Available s) (hruns : bargeRuns s g = true) :
    exec (.cntWaitEnd dt g) s = .next (endWait g (s.elapse dt)) := by
  show act s dt _ = _
  rw [act_next s dt _ hav.1 hav.2, gated_of _ _ _ hruns]

/-- A counted wait ends in the first BCLK that it does not hold. -/
theorem endWait_count (s : State) (g : BargeIx) (last : Nat) (h : (s.barges.get g).wait = some (.count last))
    (hlast : last ≤ bclkCount s (basinOf g)) :
    endWait g s = s.modBarge g fun b => { b with wait := none, u := { b.u with cntr := 0 } } := by
  simp only [endWait, h, if_pos hlast]

/-- A wait for a station time ends at the first sample that reaches it. -/
theorem endWait_time (s : State) (g : BargeIx) (v : Word) (h : (s.barges.get g).wait = some (.time v))
    (hreached : reached (sampleTime g s).1 v = true) :
    endWait g s = (sampleTime g s).2.modBarge g fun b => { b with wait := none, u := { b.u with cntr := 0 } } := by
  simp only [endWait, h, if_pos hreached]

/-! ### The end of a bank handover (R214 step 4) -/

theorem barge_eq_bargeOf (g : BargeIx) (n : BasinIx) (p : Fin 4) : g = bargeOf n p ↔ basinOf g = n ∧ p = posOf g := by
  simp only [bargeOf, basinOf, posOf, Fin.ext_iff]
  omega

/-- The barge that wrote a handover which ends, if one did, issues its next instruction 2 BCLK later. -/
def releaseWriter (n : BasinIx) (h : Handover) (s : State) : State :=
  h.writer.elim s fun p => s.modBarge (bargeOf n p) fun x => x.from (bclkCount s n + 2)

theorem releaseWriter_barges (n : BasinIx) (h : Handover) (s : State) (g : BargeIx) :
    (releaseWriter n h s).barges.get g = if basinOf g = n ∧ h.writer = some (posOf g) then
      (s.barges.get g).from (bclkCount s n + 2) else s.barges.get g := by
  unfold releaseWriter
  cases h.writer with
  | none => simp
  | some p =>
    simp only [Option.elim_some, State.modBarge_barges, vmod_get, barge_eq_bargeOf g n p, Option.some.injEq]

theorem releaseWriter_frame (n : BasinIx) (h : Handover) (s : State) :
    releaseWriter n h s = { s with barges := (releaseWriter n h s).barges } := by
  unfold releaseWriter
  cases h.writer <;> rfl

theorem State.modBank_same (s : State) (n : BasinIx) (b : BankIx) (f : Bank → Bank)
    (h : f ((s.basins.get n).banks.get b) = (s.basins.get n).banks.get b) : s.modBank n b f = s := by
  rw [State.modBank, State.modBasin, vmod_same _ _ _ (by rw [vmod_same _ _ _ h])]

/-- A bank whose handover has ended. -/
def Bank.settled (x : Bank) : Bank := { x with ho := none, hoTurn := none }

/-- The state after the handover of a bank, behind which none waits. -/
def handedOver (n : BasinIx) (b : BankIx) (h : Handover) (s : State) : State := releaseWriter n h (s.modBank n b Bank.settled)

theorem handedOver_frame (n : BasinIx) (b : BankIx) (h : Handover) (s : State) :
    handedOver n b h s = { s with barges := (handedOver n b h s).barges, basins := (s.modBank n b Bank.settled).basins } := by
  unfold handedOver
  rw [releaseWriter_frame]
  rfl

theorem handedOver_barges (n : BasinIx) (b : BankIx) (h : Handover) (s : State) (g : BargeIx) :
    (handedOver n b h s).barges.get g = if basinOf g = n ∧ h.writer = some (posOf g) then
      (s.barges.get g).from (bclkCount s n + 2) else s.barges.get g := by
  rw [handedOver, releaseWriter_barges, State.modBank_bclkCount, State.modBank_barges]

theorem handedOver_basins (n : BasinIx) (b : BankIx) (h : Handover) (s : State) :
    (handedOver n b h s).basins = (s.modBank n b Bank.settled).basins := by
  rw [handedOver_frame]

theorem handedOver_bank (n : BasinIx) (b : BankIx) (h : Handover) (s : State) :
    ((handedOver n b h s).basins.get n).banks.get b = ((s.basins.get n).banks.get b).settled := by
  rw [handedOver_basins]
  simp [State.modBank]

/-- A handover whose earlier accesses have finished and behind which none waits ends (R214 step 4). -/
theorem completeHandover_drained (s : State) (n : BasinIx) (b : BankIx) (h : Handover)
    (hho : ((s.basins.get n).banks.get b).ho = some h) (hwait : ((s.basins.get n).banks.get b).hoWait = [])
    (hd : handoverDrained s n h = true) : completeHandover n b s = handedOver n b h s := by
  have hempty : (((handedOver n b h s).basins.get n).banks.get b).hoWait = [] := by
    rw [handedOver_bank]
    exact hwait
  have hwriter : (h.writer.elim (s.modBank n b Bank.settled) fun p =>
      (s.modBank n b Bank.settled).modBarge (bargeOf n p) fun x => x.from (bclkCount s n + 2)) = handedOver n b h s := by
    rw [handedOver, releaseWriter, State.modBank_bclkCount]
  have hrun : completeHandover n b s =
      runWaiting n b (((handedOver n b h s).basins.get n).banks.get b).hoWait (handedOver n b h s) := by
    unfold completeHandover
    simp only [hho, if_pos hd]
    rw [← hwriter]
    rfl
  rw [hrun, hempty, runWaiting, State.modBank_same _ _ _ _ (by simp only [← hempty])]

/-- A response whose status is OK changes the Wharf alone. -/
theorem respond_ok_frame (r : WharfReq) (data : List Word) (s : State) :
    respond r .ok data s = { s with wharf := (respond r .ok data s).wharf } := by
  cases hr : r.drop <;> simp [respond, hr]

/-- The writes of a list are acknowledged, one after the other. -/
def acknowledge (l : List (BankIx × WharfReq)) (s : State) : State := l.foldl (fun s a => respond a.2 .ok [] s) s

theorem acknowledge_cons (a : BankIx × WharfReq) (l : List (BankIx × WharfReq)) (s : State) :
    acknowledge (a :: l) s = acknowledge l (respond a.2 .ok [] s) := rfl

theorem acknowledge_frame (l : List (BankIx × WharfReq)) (s : State) :
    acknowledge l s = { s with wharf := (acknowledge l s).wharf } := by
  induction l generalizing s with
  | nil => rfl
  | cons a l ih =>
    rw [acknowledge_cons, ih, respond_ok_frame]

/-- The Harbourmaster's writes of bank b that wait for their acknowledgement. -/
def Basin.acksOf (x : Basin) (b : BankIx) : List (BankIx × WharfReq) := x.hoAcks.filter fun a => a.1 == b

/-- The basin without those writes, and without any that has their places in the order of acceptance. -/
def Basin.answered (x : Basin) (b : BankIx) : Basin :=
  { x with hoAcks := x.hoAcks.filter fun a => (x.acksOf b).all fun d => d.2.seq != a.2.seq }

theorem vmod_congr {α : Type} {n : Nat} (v : Vector α n) (i : Fin n) (f f' : α → α) (h : f (v.get i) = f' (v.get i)) :
    vmod v i f = vmod v i f' := by
  rw [vmod, h, vmod]

/-- Where no handover of the bank is left, each of its writes is acknowledged (R214 step 4). -/
theorem ackHandovers_settled (s : State) (n : BasinIx) (b : BankIx) (hho : ((s.basins.get n).banks.get b).ho = none)
    (hwait : ((s.basins.get n).banks.get b).hoWait = []) :
    ackHandovers n b s = acknowledge ((s.basins.get n).acksOf b) (s.modBasin n fun x => x.answered b) := by
  have hdone : ((s.basins.get n).acksOf b).take
      (((s.basins.get n).acksOf b).length - bridgeHandovers ((s.basins.get n).banks.get b)) = (s.basins.get n).acksOf b := by
    simp [bridgeHandovers, hho, hwait]
  unfold ackHandovers
  dsimp only
  rw [← Basin.acksOf, hdone, acknowledge]
  congr 1

/-- BANK_OWN_HANDOVER_COMPLETE of a handover that has drained and behind which none waits. -/
theorem exec_bankOwnHandoverComplete (s : State) (dt : Nat) (n : BasinIx) (b : BankIx) (h : Handover) (hav : Available s)
    (hho : ((s.basins.get n).banks.get b).ho = some h) (hwait : ((s.basins.get n).banks.get b).hoWait = [])
    (hd : handoverDrained s n h = true) :
    exec (.bankOwnHandoverComplete dt n b) s = .next (acknowledge ((s.basins.get n).acksOf b)
      ((handedOver n b h (s.elapse dt)).modBasin n fun x => x.answered b)) := by
  have hbank := handedOver_bank n b h (s.elapse dt)
  have hacks : ((handedOver n b h (s.elapse dt)).basins.get n).acksOf b = (s.basins.get n).acksOf b := by
    rw [handedOver_basins]
    simp [State.modBank, Basin.acksOf]
  show act s dt (fun s => ackHandovers n b (completeHandover n b s)) = _
  rw [act_next s dt _ hav.1 hav.2, completeHandover_drained (s.elapse dt) n b h hho hwait hd,
    ackHandovers_settled _ n b (by rw [hbank]; rfl) (by rw [hbank]; exact hwait), hacks]

/-- What a handover's end leaves, as the statement of O5 lists it. -/
theorem bankOwnHandoverComplete_ends (s : State) (dt : Nat) (n : BasinIx) (b : BankIx) (h : Handover) (hav : Available s)
    (hho : ((s.basins.get n).banks.get b).ho = some h) (hwait : ((s.basins.get n).banks.get b).hoWait = [])
    (hd : handoverDrained s n h = true) :
    ∃ t, exec (.bankOwnHandoverComplete dt n b) s = .next t ∧
      (t.basins.get n).banks = vmod (s.basins.get n).banks b (fun x => { x with ho := none, hoTurn := none }) ∧
      (t.basins.get n).mem = (s.basins.get n).mem ∧ (∀ m, m ≠ n → t.basins.get m = s.basins.get m) ∧
      (∀ g, t.barges.get g = if basinOf g = n ∧ h.writer = some (posOf g) then
          { s.barges.get g with issueFrom := max (s.barges.get g).issueFrom (bclkCount (s.elapse dt) n + 2) }
        else s.barges.get g) ∧
      ((∀ a ∈ (s.basins.get n).hoAcks, a.1 ≠ b) → t.wharf = s.wharf ∧ (t.basins.get n).hoAcks = (s.basins.get n).hoAcks) ∧
      (∀ r, (s.basins.get n).hoAcks = [(b, r)] → r.drop = false →
        (t.basins.get n).hoAcks = [] ∧ ∃ q, t.wharf.resps = s.wharf.resps ++ [q] ∧ q.init = r.init ∧ q.id = r.tx.id ∧
          q.status = .ok) := by
  refine ⟨_, exec_bankOwnHandoverComplete s dt n b h hav hho hwait hd, ?_⟩
  generalize hfin : (handedOver n b h (s.elapse dt)).modBasin n (fun x => x.answered b) = fin
  have hbarges : ∀ g, fin.barges.get g = if basinOf g = n ∧ h.writer = some (posOf g) then
      (s.barges.get g).from (bclkCount (s.elapse dt) n + 2) else s.barges.get g := fun g => by
    rw [← hfin, State.modBasin_barges, handedOver_barges, State.elapse_barges]
  have hother : ∀ m, m ≠ n → fin.basins.get m = s.basins.get m := fun m hm => by
    rw [← hfin, State.modBasin_basins, vmod_get_ne _ _ _ _ hm, handedOver_basins]
    exact vmod_get_ne _ _ _ _ hm
  have hbasin : fin.basins.get n = ({ s.basins.get n with banks := vmod (s.basins.get n).banks b Bank.settled } : Basin).answered b := by
    rw [← hfin, State.modBasin_basins, vmod_get_self, handedOver_basins, State.modBank, State.modBasin_basins, vmod_get_self,
      State.elapse_basins]
  have hwharf : fin.wharf = s.wharf := by
    rw [← hfin, handedOver_frame]
    rfl
  rw [acknowledge_frame]
  dsimp only
  rw [hbasin]
  refine ⟨rfl, rfl, hother, hbarges, fun hnone => ?_, fun r hr hdrop => ?_⟩
  · have hacks : (s.basins.get n).acksOf b = [] := List.filter_eq_nil_iff.2 fun a ha => by simpa using hnone a ha
    refine ⟨by rw [hacks]; exact hwharf, List.filter_eq_self.2 fun a _ => ?_⟩
    rw [show Basin.acksOf { s.basins.get n with banks := vmod (s.basins.get n).banks b Bank.settled } b = [] from hacks]
    rfl
  · have hacks : (s.basins.get n).acksOf b = [(b, r)] := by simp [Basin.acksOf, hr]
    refine ⟨?_, ?_⟩
    · show List.filter _ (s.basins.get n).hoAcks = []
      rw [show Basin.acksOf { s.basins.get n with banks := vmod (s.basins.get n).banks b Bank.settled } b = _ from hacks, hr]
      simp
    · rw [hacks, acknowledge_cons, respond_of_kept _ _ _ _ hdrop (by decide), ← hwharf]
      exact ⟨_, rfl, rfl, rfl, rfl⟩

/-! ### The departure of a seal (R163, R164) -/

theorem departSeal_captured (s : State) (g : BargeIx) (m : SealMsg) (h : (s.barges.get g).sig.captured = some (m, false)) :
    departSeal g s =
      (s.modBarge g fun b => { b with sig := { b.sig with captured := none, seals := b.sig.seals + 1 } }).linkSend g m := by
  simp only [departSeal, h]

/-- Settles O5, clause by clause: what the barge and the bank hold lets each command take its one branch. -/
theorem idleRunsWaitsAndHandoversEnd : Obligations.IdleRunsWaitsAndHandoversEnd := by
  refine ⟨⟨fun s dt g hav h hi hrun hfl => exec_idleCount s dt g hav h hi hrun hfl, fun s dt g last hav hruns hw hlast => ?_,
    fun s dt g v hav hruns hw hreached => ?_⟩, bankOwnHandoverComplete_ends, fun s dt g m hav hcap => ?_⟩
  · rw [exec_cntWaitEnd s dt g hav hruns, endWait_count (s.elapse dt) g last hw hlast]
  · refine ⟨_, by rw [exec_cntWaitEnd s dt g hav hruns, endWait_time (s.elapse dt) g v hw hreached], ⟨rfl, fun k hk => ?_⟩, ?_⟩
    · simp [sampleTime, State.free, vmod_get_ne _ _ _ _ hk]
    · simp [sampleTime, State.free]
  · refine ⟨_, (act_next s dt _ hav.1 hav.2).trans (by rw [departSeal_captured (s.elapse dt) g m hcap]), ?_, ?_, fun k hk => ?_,
      fun k hk => ?_, ?_⟩
    · simp [State.linkSend]
    · simp [State.linkSend]
      rfl
    · simp [State.linkSend, vmod_get_ne _ _ _ _ hk]
      rfl
    · simp [State.linkSend, vmod_get_ne _ _ _ _ hk]
    · exact sameMemory_of_mems (by simp)

end Sys2Proof.Machine
end

section
/-! A double fault whose barge resets itself (O14). -/

namespace Sys2Proof.Machine

/-- With no setting written and not yet synchronised, an instruction sees its barge as it is (R46). -/
theorem effView_synced (s : State) (g : BargeIx) (h : (s.barges.get g).syPend = []) : effView g s = s.barges.get g := by
  simp [effView, h]

/-- A held line whose instruction fails a check of R45 makes the fault of that check. -/
theorem plan_decodeFault (s : State) (g : BargeIx) (l : HeldLine) (c : BitVec 8) (hsy : (s.barges.get g).syPend = [])
    (hmust : (s.barges.get g).mustRead = false)
    (hline : (s.barges.get g).heldLine (fld (s.barges.get g).pc 2 12) = some l) (hbad : l.bad = false)
    (hdec : decodeFault (lineInsn l.data (bitsN (s.barges.get g).pc 0 2)) (pswW (s.barges.get g).psw)
      (pswL (s.barges.get g).psw) = some c) :
    plan g s = .fault c ((s.barges.get g).pc.setWidth 36) := by
  simp [plan, effView_synced s g hsy, hmust, hline, hbad, hdec]

/-- The line of an instruction with a reserved bit set, which fails the first check of R45. -/
def reservedLine : HeldLine := { line := 0, data := 8, bad := false }

/-- The part as its reset leaves it, with barge 0 alone released, in a double fault's handler (DFA = 1) before such an instruction,
without a place for a frame. In the present BCLK a handover of bank 0 of its basin by barge 2 became effective and was refused
(R215); barge 2 has been reset and held since, and with it the note of its I/O access fault has gone. The firmware serves, and the
basin's tolerance is 3 ms (R348). -/
def dfaAlone : State :=
  let s := (State.reset.modBarge 0 fun b => { b with psw := 0x2003, lineBuf := [reservedLine] }).modBank 0 0 fun x =>
    { x with
      own := 0
      hoTurn := some
        { bclk := 0, own := 0, ho := none, hoWait := [], list := [{ value := 0, writer := some 2, world := true }] } }
  { s with
    crp := { s.crp with bhold := ~~~1 }
    fw := { s.fw with up := true, latTol := vput s.fw.latTol 0 3000000 } }

theorem dfaAlone_available : Available dfaAlone := by
  unfold Available
  decide +kernel

theorem dfaAlone_faultsAtOnce : FaultsAtOnce dfaAlone 0 := by
  unfold FaultsAtOnce AtBoundary NoInterrupts
  decide +kernel

theorem dfaAlone_plan : plan 0 (dfaAlone.elapse 0) = .fault 1 0 :=
  plan_decodeFault (dfaAlone.elapse 0) 0 reservedLine 1 (by decide +kernel) (by decide +kernel) (by decide +kernel) (by decide +kernel)
    (by decide +kernel)

/-- The fault that a held barge has noted of a handover, after a command. -/
def Out.hoFault (r : Out) (g : BargeIx) : Option Word :=
  match r with
  | .next t => (t.barges.get g).hoFault
  | _ => none

/-- The reset of barge 0 leaves no barge of the basin running, so that the firmware sends it to a deeper power state and writes
BANK_OWN.WH = 0 (R348); the handovers of the BCLK run again behind that write (R215), and barge 2's is refused again. -/
theorem dfaAlone_hoFault :
    (dfaAlone.barges.get 2).hoFault = none ∧ Out.hoFault (exec (.instructionIssue 0 0 []) dfaAlone) 2 = some 0x400 := by
  decide +kernel

/-- Refutes O14: its clause of the double fault lets the other barges' interrupt requests change alone, but where the barge resets itself
(R126) its hold may end the last one of its basin; the power state that is chosen then (R348) closes the banks, and the handovers of
the same BCLK run again (R215) and note an I/O access fault at another barge. -/
theorem not_faultsTrapsAndReturns : ¬ Obligations.FaultsTrapsAndReturns := by
  unfold Obligations.FaultsTrapsAndReturns
  rintro ⟨-, -, -, hdouble, -⟩
  have hnoPlace : ¬ (0xE0060 ≤ ((dfaAlone.barges.get 0).fp (pswW (dfaAlone.barges.get 0).psw) (pswL (dfaAlone.barges.get 0).psw)).toNat) := by
    decide +kernel
  obtain ⟨t, ht, -, hothers, -⟩ := hdouble dfaAlone 0 0 [] 1 0 dfaAlone_available dfaAlone_faultsAtOnce dfaAlone_plan
    fun ⟨⟨hlow, _⟩, _⟩ => hnoPlace hlow
  obtain ⟨hbefore, hafter⟩ := dfaAlone_hoFault
  have hkept : (t.barges.get 2).hoFault = (dfaAlone.barges.get 2).hoFault := by rw [hothers 2 (by decide)]
  rw [ht] at hafter
  exact absurd (hafter.symm.trans (hkept.trans hbefore)) (by decide)

end Sys2Proof.Machine
end

section
/-! The issue of an instruction that makes no access of its own (R38 to R45, R122): what its checks let through, and what its bookkeeping
and its end leave. -/

namespace Sys2Proof.Machine

/-! ### Reads of code lines leave all but the code banks -/

/-- `t` is `s` with other reads in the code banks' ways. -/
structure SameButCode (s t : State) : Prop where
  state : t = { s with basins := t.basins }
  basin : ∀ n, t.basins.get n = { s.basins.get n with code := (t.basins.get n).code }

theorem SameButCode.refl (s : State) : SameButCode s s := ⟨rfl, fun _ => rfl⟩

theorem SameButCode.trans {s t u : State} (h : SameButCode s t) (k : SameButCode t u) : SameButCode s u := by
  refine ⟨?_, fun n => ?_⟩
  · rw [k.state, h.state]
  · rw [k.basin n, h.basin n]

theorem SameButCode.modCode (s : State) (n : BasinIx) (k : Fin 4) (f : CodeBank → CodeBank) : SameButCode s (s.modCode n k f) := by
  refine ⟨rfl, fun m => ?_⟩
  rw [State.modCode, State.modBasin_basins, vmod_get]
  split <;> rfl

theorem SameButCode.foldl {α : Type} (f : State → α → State) (h : ∀ s a, SameButCode s (f s a)) (l : List α) :
    ∀ s, SameButCode s (l.foldl f s) := by
  induction l with
  | nil => exact SameButCode.refl
  | cons a l ih => exact fun s => (h s a).trans (ih _)

theorem SameButCode.barges {s t : State} (h : SameButCode s t) : t.barges = s.barges := by rw [h.state]

theorem SameButCode.crp {s t : State} (h : SameButCode s t) : t.crp = s.crp := by rw [h.state]

theorem SameButCode.freeCtr {s t : State} (h : SameButCode s t) : t.freeCtr = s.freeCtr := by rw [h.state]

theorem SameButCode.bclkCount {s t : State} (h : SameButCode s t) (n : BasinIx) : bclkCount t n = bclkCount s n :=
  bclkCount_congr (by rw [h.state]) h.crp (by rw [h.basin n]) (by rw [h.basin n])

theorem kickBank_sameButCode (n : BasinIx) (k : Fin 4) (s : State) : SameButCode s (kickBank n k s) := by
  refine .foldl _ (fun s w => ?_) _ s
  unfold kickWay
  extract_lets c clk
  split
  · split
    · exact .modCode s n k _
    · exact .refl s
  · exact .refl s

theorem kickBasin_sameButCode (n : BasinIx) (s : State) : SameButCode s (kickBasin n s) :=
  .foldl _ (fun s k => kickBank_sameButCode n k s) _ s

theorem readAhead_sameButCode (g : BargeIx) (want : CodeBank → List (BitVec 12)) (s : State) : SameButCode s (readAhead g want s) :=
  (SameButCode.modCode s _ _ _).trans (kickBank_sameButCode _ _ _)

theorem cancelReads_sameButCode (g : BargeIx) (s : State) : SameButCode s (cancelReads g s) := by
  refine SameButCode.trans ⟨rfl, fun n => ?_⟩ (kickBasin_sameButCode _ _)
  rw [State.modBasin_basins, vmod_get]
  split <;> rfl

/-! ### What a step leaves of the barges -/

/-- From `s` to `t` barge g becomes `y`, the records of its debug module, its interrupt requests and the begin of a hold apart; the other
barges, the memories and the clock and reset block stay. -/
structure Leaves (g : BargeIx) (y : Barge) (s t : State) : Prop where
  own : t.barges.get g = { y with
    dbg := (t.barges.get g).dbg, intc := (t.barges.get g).intc, holdSince := (t.barges.get g).holdSince }
  others : ∀ k, k ≠ g → t.barges.get k = s.barges.get k
  mems : t.mems = s.mems
  crp : t.crp = s.crp

/-- Barge g's program and units are as they were. -/
abbrev Stays (g : BargeIx) (s t : State) : Prop := Leaves g (s.barges.get g) s t

theorem Stays.refl (g : BargeIx) (s : State) : Stays g s s := ⟨rfl, fun _ _ => rfl, rfl, rfl⟩

theorem Leaves.trans {g : BargeIx} {y : Barge} {s t u : State} (h : Leaves g y s t) (k : Stays g t u) : Leaves g y s u where
  own := by rw [k.own, h.own]
  others i hi := (k.others i hi).trans (h.others i hi)
  mems := k.mems.trans h.mems
  crp := k.crp.trans h.crp

theorem Leaves.bank {g : BargeIx} {y : Barge} {s t : State} (h : Leaves g y s t) (w : Bool) : (t.barges.get g).bank w = y.bank w :=
  congrArg (fun b => b.bank w) h.own

theorem Leaves.modBarge (g : BargeIx) (f : Barge → Barge) (s : State) : Leaves g (f (s.barges.get g)) s (s.modBarge g f) where
  own := by rw [State.modBarge_barges, vmod_get_self]
  others k hk := by rw [State.modBarge_barges, vmod_get_ne _ _ _ _ hk]
  mems := by simp
  crp := rfl

theorem Stays.modBarge {g : BargeIx} {f : Barge → Barge} (s : State)
    (h : ∀ b, f b = { b with dbg := (f b).dbg, intc := (f b).intc, holdSince := (f b).holdSince }) : Stays g s (s.modBarge g f) where
  own := by
    rw [State.modBarge_barges, vmod_get_self]
    exact h _
  others k hk := by rw [State.modBarge_barges, vmod_get_ne _ _ _ _ hk]
  mems := by simp
  crp := rfl

theorem SameButCode.stays {s t : State} (h : SameButCode s t) (g : BargeIx) (hm : t.mems = s.mems) : Stays g s t where
  own := by rw [h.barges]
  others _ _ := by rw [h.barges]
  mems := hm
  crp := h.crp

theorem Stays.foldl {α : Type} {g : BargeIx} (f : State → α → State) (h : ∀ s a, Stays g s (f s a)) (l : List α) :
    ∀ s, Stays g s (l.foldl f s) := by
  induction l with
  | nil => exact Stays.refl g
  | cons a l ih => exact fun s => (h s a).trans (ih _)

theorem pend_stays (g : BargeIx) (n : Fin 64) (s : State) : Stays g s (s.pend g n) :=
  (Stays.modBarge s fun _ => rfl).trans ⟨rfl, fun _ _ => rfl, rfl, rfl⟩

theorem latchSig_stays (g : BargeIx) (s : State) : Stays g s (latchSig g s) := by
  unfold latchSig
  extract_lets x s1
  have h1 : Stays g s s1 := by
    simp only [s1]
    split
    · exact pend_stays g 0 s
    · exact .refl g s
  split
  · exact h1.trans (pend_stays g 1 s1)
  · exact h1

theorem requestHalt_stays (g : BargeIx) (cause hit : BitVec 3) (s : State) : Stays g s (requestHalt g cause hit s) := by
  unfold requestHalt
  split
  · exact .refl g s
  · split
    · exact .modBarge s fun _ => rfl
    · exact (Stays.modBarge s fun _ => rfl).trans ⟨rfl, fun _ _ => rfl, rfl, rfl⟩

theorem bpHits_stays (g : BargeIx) (mode : Nat) (p : BitVec 14 → Bool) (s : State) : Stays g s (bpHits g mode p s) := by
  refine .foldl _ (fun s j => ?_) _ s
  unfold bpHit
  extract_lets b x s1
  split
  · have h1 : Stays g s s1 := .modBarge s fun _ => rfl
    split
    · exact h1.trans (requestHalt_stays g 2 _ s1)
    · exact h1.trans (pend_stays g 60 s1)
    · exact h1
  · exact .refl g s

/-- A word for the trace stream changes the Ferry alone. -/
theorem traceWord_ferry (g : BargeIx) (kind : Nat) (s : State) : ∃ f, traceWord g kind s = { s with ferry := f } := by
  unfold traceWord
  extract_lets b tail w f ovf
  split
  · exact ⟨s.ferry, rfl⟩
  · split
    · exact ⟨_, rfl⟩
    · exact ⟨_, rfl⟩

theorem traceWord_stays (g : BargeIx) (kind : Nat) (s : State) : Stays g s (traceWord g kind s) := by
  obtain ⟨f, hf⟩ := traceWord_ferry g kind s
  rw [hf]
  exact ⟨rfl, fun _ _ => rfl, rfl, rfl⟩

theorem kickBasin_stays (g : BargeIx) (n : BasinIx) (s : State) : Stays g s (kickBasin n s) :=
  (kickBasin_sameButCode n s).stays g (by simp)

theorem wrongWay_stays (c : Ctx) (before : Barge) (s : State) : Stays c.g s (c.wrongWay before s) := by
  unfold Ctx.wrongWay
  split
  · extract_lets stored
    split
    · exact .refl c.g s
    · split
      · exact bpHits_stays c.g 1 _ s
      · exact (readAhead_sameButCode c.g _ s).stays c.g (by simp)
  · exact .refl c.g s

/-! ### A barge that is ready for its next instruction -/

/-- Barge g's next instruction is i, which passes the checks of R45 and waits for nothing (R44, R100, R111, R122, R414). -/
structure Ready (s : State) (g : BargeIx) (i : Insn) : Prop where
  boundary : AtBoundary s g
  interrupts : NoInterrupts s g
  irun : (s.barges.get g).irun = 0
  flights : (s.barges.get g).flights = []
  syPend : (s.barges.get g).syPend = []
  mustRead : (s.barges.get g).mustRead = false
  breakpoints : ∀ j, bitsN ((s.barges.get g).dbg.bps.get j).bpa 14 2 ≠ 2
  issues : fmtOf i ≠ 3
  line : ∃ h, (s.barges.get g).heldLine (fld (s.barges.get g).pc 2 12) = some h ∧ h.bad = false ∧
    i = lineInsn h.data (bitsN (s.barges.get g).pc 0 2)
  decodes : decodeFault i (pswW (s.barges.get g).psw) (pswL (s.barges.get g).psw) = none

theorem Ready.elapse {s : State} {g : BargeIx} {i : Insn} (h : Ready s g i) (dt : Nat) : Ready (s.elapse dt) g i :=
  { h with boundary := atBoundary_elapse h.boundary dt }

theorem nextInsn_ready {s : State} {g : BargeIx} {i : Insn} (h : NextInsn s g i) (hi : NoInterrupts s g) : Ready s g i := by
  obtain ⟨hb, hirun, hfl, -, hsy, hmust, hbp, hfmt, hdec, hline⟩ := h
  exact ⟨hb, hi, hirun, hfl, hsy, hmust, hbp, hfmt, hline, hdec⟩

/-- Breakpoints of another mode do not match. -/
theorem bpHits_unset (g : BargeIx) (mode : Nat) (p : BitVec 14 → Bool) (s : State)
    (h : ∀ j, bitsN ((s.barges.get g).dbg.bps.get j).bpa 14 2 ≠ mode) : bpHits g mode p s = s := by
  have hl : ∀ l : List (Fin 8), l.foldl (bpHit g mode p) s = s := by
    intro l
    induction l with
    | nil => rfl
    | cons j l ih =>
      have hj : bpHit g mode p s j = s := by simp [bpHit, bpMatches, h j]
      rw [List.foldl_cons, hj, ih]
  exact hl _

theorem bpStops_unset (s : State) (g : BargeIx) (h : ∀ j, bitsN ((s.barges.get g).dbg.bps.get j).bpa 14 2 ≠ 2) :
    bpStops s g = false := by
  have hany : ((s.barges.get g).dbg.bps.toList.any fun x =>
      bpMatches (s.barges.get g) x 2 (fun a => a == (s.barges.get g).pc) && bitsN x.bpa 16 2 == 1) = false := by
    refine List.any_eq_false.2 fun x hx => ?_
    obtain ⟨j, hj, rfl⟩ := Vector.getElem_of_mem (Vector.mem_toList_iff.1 hx)
    have := h ⟨j, hj⟩
    rw [vget_eq] at this
    simp [bpMatches, this]
  simp [bpStops, hany]

theorem viewed_synced (s : State) (g : BargeIx) (h : (s.barges.get g).syPend = []) : s.viewed g = s := by
  simp [State.viewed, h]

/-- The checks of a ready instruction that neither faults at its trigger nor holds (R43, R44, R443). -/
theorem plan_ready {s : State} {g : BargeIx} {i : Insn} (h : Ready s g i)
    (hlock : interlocked (s.barges.get g) ((movesOf i).filter fun m => guardHolds (s.barges.get g).flags m.guard) = false)
    (hwaits : (mkCtx g i (s.barges.get g)).returnWaits (s.barges.get g) = false)
    (hfault : (mkCtx g i (s.barges.get g)).trigFault s = none) (hsoft : (mkCtx g i (s.barges.get g)).softHold s = false)
    (hhard : (mkCtx g i (s.barges.get g)).hardHold s = false) (hwide : (mkCtx g i (s.barges.get g)).wideHold s = false) :
    plan g s = .go (mkCtx g i (s.barges.get g)) := by
  obtain ⟨l, hl, hbad, rfl⟩ := h.line
  unfold plan
  simp only [effView_synced s g h.syPend, h.mustRead, hl, hbad, h.decodes, hlock, hwaits, hfault, hsoft, hhard, hwide, if_false,
    Bool.false_eq_true]

/-- The attempt to issue a ready instruction that makes no access. -/
theorem issueAt_ready {s : State} {g : BargeIx} {i : Insn} (h : Ready s g i) (rivals : List Rival) (c : Ctx) (hplan : plan g s = .go c)
    (hacc : c.accesses (s.barges.get g) = []) :
    issueAt g rivals false false s = finishTrap g (c.effect (c.bookkeep s)) := by
  obtain ⟨-, -, -, hho, -⟩ := h.boundary
  unfold issueAt
  simp only [hho, hplan, interruptDue_disabled s g h.interrupts, bpStops_unset s g h.breakpoints, hacc, fetchAll,
    bpHits_unset g 2 _ s h.breakpoints, viewed_synced s g h.syPend, ite_self]
  simp

theorem issueOne_ready {s : State} {g : BargeIx} {i : Insn} (h : Ready s g i) (rivals : List Rival) (masked : Bool) :
    issueOne g rivals masked s = issueAt g rivals masked false s := by
  obtain ⟨hruns, hbusy, htrap, -, -, hreq, hsecond, -⟩ := h.boundary
  obtain ⟨-, -, -, -, -, hrfe, hframe, -, -⟩ := (busyBoundary_eq_false hreq).1 hbusy
  unfold issueOne
  simp [hruns, hframe, hrfe, hbusy, h.irun, htrap, afterLoad_whole _ _ _ _ hsecond, boundary_landed g false s h.flights]

/-- INSTRUCTION_ISSUE of a ready instruction. -/
theorem exec_instructionIssue {s : State} {g : BargeIx} {i : Insn} (dt : Nat) (rivals : List Rival) (hav : Available s)
    (h : Ready s g i) : exec (.instructionIssue dt g rivals) s =
      .next (holdsFollow (fun _ => issueAt g rivals false false (s.elapse dt)) (s.elapse dt)) := by
  have hstep := atBoundary_running (h.elapse dt).boundary
  have hone : stepped g (issueOne g rivals (masked ((s.elapse dt).barges.get g))) (s.elapse dt) =
      issueAt g rivals false false (s.elapse dt) := by
    rw [stepped_running g _ _ hstep, issueOne_ready (h.elapse dt), masked, hstep, Bool.false_and]
  show act s dt (holdsFollow fun s => stepped g (issueOne g rivals (masked (s.barges.get g))) s) = _
  rw [act_next s dt _ hav.1 hav.2, holdsFollow, hone, holdsFollow]

/-! ### The effect of an instruction (R38 to R41, R89) -/

/-- The barge after the bookkeeping of an instruction that issues in BCLK clk, where `traced` tells that the debug module is allowed. -/
def Ctx.kept (c : Ctx) (clk : Nat) (traced : Bool) (b : Barge) : Barge :=
  let b1 := (b.useLine (fld c.v.pc 2 12)).unstall clk
  { b1 with
    lastLine := some (fld c.v.pc 2 12), entry := none, arb := false, arbAt := [], wide := none
    dbg := { (if traced then b1.dbg.record c.v.pc c.world (fmtOf c.i == 3) else b1.dbg) with skipBp := false } }

theorem bookkeep_sameButCode (c : Ctx) (s : State) :
    SameButCode (s.modBarge c.g (c.kept (bclkCount s (basinOf c.g)) (debugAllowed s))) (c.bookkeep s) := by
  unfold Ctx.bookkeep
  extract_lets line first clk s1
  split
  · exact readAhead_sameButCode c.g _ s1
  · exact .refl s1

/-- The barge at the end of its instruction, as the next one finds it but for a branch (R41). -/
def Ctx.advance (c : Ctx) (b : Barge) : Barge :=
  { b with
    count := b.count + 1
    sync := b.sync || syncBit c.i
    pc := if fmtOf c.i = 3 ∧ 1 < runOf c.i then b.pc else b.pc + 1
    irun := if fmtOf c.i = 3 then runOf c.i - 1 else 0
    done := [] }

/-- The moves to registers, to FLAGS and to ports, and the signature after the instruction's folds. -/
def Ctx.moves (c : Ctx) (sg : Sig) (b : Barge) : Barge :=
  let b1 := c.acts.foldl (regMove c.world) b
  { b1 with
    sig := sg
    flights := if c.writes .flags then b1.flights.map fun f => if f.due = b1.count + 1 then { f with g := none } else f
      else b1.flights }

/-- The operations of an instruction in their order (R159), before its branch. -/
def Ctx.operate (c : Ctx) (s : State) : State :=
  let b := s.barges.get c.g
  let clk := bclkCount s (basinOf c.g)
  let s1 := s.modBarge c.g (c.moves ((c.sigAfter s b.sig).getD b.sig))
  let s2 := (c.lsu s1).modBarge c.g fun b => c.mac (c.mul b)
  let s3 := s2.modBarge c.g fun b =>
    c.vchk (c.vmul clk (c.alu .alu1 c.v.u.alu1o (c.trig .alu1) (c.alu .alu0 c.v.u.alu0o (c.trig .alu0) b)))
  ((c.cnt s3).modBarge c.g fun x => c.rpt clk (c.iou b.storeSeq (c.xlu b.storeSeq x))).modBarge c.g c.advance

/-- An operation of the instruction's own holds its barge from the next BCLK on (R44, R86). -/
def holdFrom (clk : Nat) (b : Barge) : Barge :=
  if b.wait.isSome ∨ b.rpt.isSome ∨ b.gate.isSome ∨ b.sync then { b with holdSince := some (clk + 1) } else b

theorem effect_eq (c : Ctx) (s : State) :
    c.effect s = (latchSig c.g (kickBasin (basinOf c.g) (c.wrongWay (s.barges.get c.g) (c.bru (c.operate s))))).modBarge c.g
      (holdFrom (bclkCount s (basinOf c.g))) := by
  rfl

/-- After its branch an instruction changes nothing of its barge's program. -/
theorem effect_leaves (c : Ctx) (s : State) : Stays c.g (c.bru (c.operate s)) (c.effect s) := by
  rw [effect_eq]
  generalize c.operate s = s5
  have hway := wrongWay_stays c (s.barges.get c.g) (c.bru s5)
  have hlatch := (hway.trans (kickBasin_stays c.g (basinOf c.g) _)).trans (latchSig_stays c.g _)
  exact hlatch.trans (Stays.modBarge _ fun b => by unfold holdFrom; split <;> rfl)

/-- What a ready instruction that makes no access leaves, when its operations and its branch leave y of its barge and no trap. -/
theorem exec_leaves {s : State} {g : BargeIx} {i : Insn} {c : Ctx} {y : Barge} (dt : Nat) (rivals : List Rival) (hav : Available s)
    (h : Ready s g i) (hplan : plan g (s.elapse dt) = .go c) (hg : c.g = g) (hacc : c.accesses (s.barges.get g) = [])
    (hl : Leaves g y (s.elapse dt) (c.bru (c.operate (c.bookkeep (s.elapse dt))))) (htrap : y.trapDue = none) :
    ∃ t, exec (.instructionIssue dt g rivals) s = .next t ∧ Leaves g y (s.elapse dt) t := by
  subst hg
  have ht := hl.trans (effect_leaves c (c.bookkeep (s.elapse dt)))
  refine ⟨c.effect (c.bookkeep (s.elapse dt)), ?_, ht⟩
  have hend : issueAt c.g rivals false false (s.elapse dt) = c.effect (c.bookkeep (s.elapse dt)) := by
    rw [issueAt_ready (h.elapse dt) rivals c hplan hacc, finishTrap, ht.own]
    simp only [htrap]
  rw [exec_instructionIssue dt rivals hav h, hend, holdsFollow_same _ _ (by rw [ht.crp])]

/-- What changes barge g alone after the bookkeeping leaves of it what it makes of the barge. -/
theorem leaves_after_bookkeep {c : Ctx} {s t : State} (f : Barge → Barge)
    (hb : t.barges = vmod (c.bookkeep s).barges c.g f) (hm : t.mems = (c.bookkeep s).mems) (hc : t.crp = (c.bookkeep s).crp) :
    Leaves c.g (f (c.kept (bclkCount s (basinOf c.g)) (debugAllowed s) (s.barges.get c.g))) s t := by
  have hkept := bookkeep_sameButCode c s
  refine ⟨?_, fun k hk => ?_, hm.trans (by simp), hc.trans (by rw [hkept.crp]; rfl)⟩
  · rw [hb, vmod_get_self, hkept.barges, State.modBarge_barges, vmod_get_self]
  · rw [hb, vmod_get_ne _ _ _ _ hk, hkept.barges, State.modBarge_barges, vmod_get_ne _ _ _ _ hk]

end Sys2Proof.Machine
end

section
/-! Register moves (O3). -/

namespace Sys2Proof.Machine

/-! ### Instructions that neither access memory nor fold -/

/-- An instruction triggers neither the units that make accesses nor SIG. -/
structure Ctx.Inward (c : Ctx) : Prop where
  lsu : c.trig .lsu = none
  mac : c.trig .mac = none
  xlu : c.trig .xlu = none
  iou : c.trig .iou = none
  sig : c.trig .sig = none

namespace Ctx.Inward

theorem lsuAccess {c : Ctx} (h : c.Inward) : c.lsuAccess = none := by simp [Ctx.lsuAccess, h.lsu]

theorem macFetches {c : Ctx} (h : c.Inward) : c.macFetches = false := by simp [Ctx.macFetches, h.mac]

theorem accesses {c : Ctx} (h : c.Inward) (b : Barge) : c.accesses b = [] := by
  simp [Ctx.accesses, Ctx.memLoad, h.lsuAccess, h.macFetches]

theorem xluAccess {c : Ctx} (h : c.Inward) : c.xluAccess = none := by simp [Ctx.xluAccess, h.xlu]

theorem iouAccess {c : Ctx} (h : c.Inward) : c.iouAccess = none := by simp [Ctx.iouAccess, h.iou]

/-- Of the folds only the check of an RPT operation is left (R165). -/
theorem sigAfter {c : Ctx} (h : c.Inward) (s : State) (x : Sig) : c.sigAfter s x = c.rptFold x := by
  simp [Ctx.sigAfter, Ctx.lsuFold, Ctx.xluFold, Ctx.iouFold, Ctx.sigFold, h.lsu, h.xlu, h.iouAccess, h.sig]

theorem sigAfter_getD {c : Ctx} (h : c.Inward) (s : State) (x : Sig) : (c.sigAfter s x).getD x = x := by
  rw [h.sigAfter, Ctx.rptFold]
  split
  · split <;> rfl
  · rfl

theorem trigFault {c : Ctx} (h : c.Inward) (s : State) (htag : c.tagFault = false) (hret : c.returnFault s = none)
    (hfold : (c.rptFold (s.barges.get c.g).sig).isSome = true) : c.trigFault s = none := by
  rw [Option.isSome_iff_ne_none] at hfold
  simp [Ctx.trigFault, htag, Ctx.accessFaults, h.lsuAccess, h.macFetches, Ctx.alignFault, h.xluAccess, Ctx.iouFault, h.iouAccess, hret,
    h.sigAfter, hfold]

/-- Only a gate or gate return waits for what went before it (R107, R108). -/
theorem softHold {c : Ctx} (h : c.Inward) (s : State) : c.softHold s = (c.gates && !drained (s.barges.get c.g)) := by
  simp [Ctx.softHold, h.xlu, h.iou]

/-- Only VMUL's interval holds it (R41). -/
theorem hardHold {c : Ctx} (h : c.Inward) (s : State) :
    c.hardHold s = ((c.trig .vmul).isSome && decide (bclkCount s (basinOf c.g) < (s.barges.get c.g).vmulReady)) := by
  simp [Ctx.hardHold, h.lsuAccess, Ctx.memLoad, h.macFetches]

end Ctx.Inward

/-- The barge after the moves and the operations of its units but CNT, in BCLK clk. -/
def Ctx.results (c : Ctx) (clk : Nat) (b : Barge) : Barge :=
  c.rpt clk (c.vchk (c.vmul clk (c.alu .alu1 c.v.u.alu1o (c.trig .alu1) (c.alu .alu0 c.v.u.alu0o (c.trig .alu0)
    (c.mul (c.moves b.sig b))))))

theorem State.modBarge_modBarge (s : State) (g : BargeIx) (f f' : Barge → Barge) :
    (s.modBarge g f).modBarge g f' = s.modBarge g fun b => f' (f b) := by
  simp only [State.modBarge, vmod_vmod]

theorem operate_inward {c : Ctx} (h : c.Inward) (s : State) :
    c.operate s = ((c.cnt (s.modBarge c.g fun b => c.vchk (c.vmul (bclkCount s (basinOf c.g)) (c.alu .alu1 c.v.u.alu1o (c.trig .alu1)
      (c.alu .alu0 c.v.u.alu0o (c.trig .alu0) (c.mul (c.moves b.sig b))))))).modBarge c.g
        (c.rpt (bclkCount s (basinOf c.g)))).modBarge c.g c.advance := by
  have hlsu : ∀ s, c.lsu s = s := fun s => by simp [Ctx.lsu, h.lsu]
  have hmac : ∀ b, c.mac b = b := fun b => by simp [Ctx.mac, h.mac]
  have hxlu : ∀ n b, c.xlu n b = b := fun n b => by simp [Ctx.xlu, h.xluAccess]
  have hiou : ∀ n b, c.iou n b = b := fun n b => by simp [Ctx.iou, h.iouAccess]
  have hmoves : s.modBarge c.g (c.moves (s.barges.get c.g).sig) = s.modBarge c.g fun b => c.moves b.sig b := rfl
  unfold Ctx.operate
  simp only [h.sigAfter_getD, hlsu, hmac, hxlu, hiou, hmoves, State.modBarge_modBarge]

/-- Without CNT the operations change the barge alone. -/
theorem operate_results {c : Ctx} (h : c.Inward) (hcnt : c.trig .cnt = none) (s : State) :
    c.operate s = s.modBarge c.g fun b => c.advance (c.results (bclkCount s (basinOf c.g)) b) := by
  have hnone : ∀ s, c.cnt s = s := fun s => by simp [Ctx.cnt, hcnt]
  simp only [operate_inward h, hnone, State.modBarge_modBarge, Ctx.results]

/-- What an instruction leaves that triggers neither an access, nor SIG, CNT or the BRU. -/
theorem exec_results {s : State} {g : BargeIx} {i : Insn} {c : Ctx} (dt : Nat) (rivals : List Rival) (hav : Available s)
    (hr : Ready s g i) (hplan : plan g (s.elapse dt) = .go c) (hg : c.g = g) (h : c.Inward) (hcnt : c.trig .cnt = none)
    (hbru : c.trig .bru = none) :
    let clk := bclkCount (s.elapse dt) (basinOf g)
    let y := c.advance (c.results clk (c.kept clk (debugAllowed s) (s.barges.get g)))
    y.trapDue = none → ∃ t, exec (.instructionIssue dt g rivals) s = .next t ∧ Leaves g y (s.elapse dt) t := by
  intro clk y htrap
  have hnone : ∀ s, c.bru s = s := fun s => by simp [Ctx.bru, hbru]
  refine exec_leaves dt rivals hav hr hplan hg (h.accesses _) ?_ htrap
  subst hg
  rw [hnone, operate_results h hcnt, (bookkeep_sameButCode c (s.elapse dt)).bclkCount]
  exact leaves_after_bookkeep (c := c) (s := s.elapse dt) (fun b => c.advance (c.results clk b)) (State.modBarge_barges ..) (by simp) rfl

/-! ### Moves to registers -/

/-- A destination is a register. -/
def isReg (d : Dst) : Prop := ∃ k, d = .reg k

theorem regMove_reg (w : Bool) (b : Barge) (a : Move × Word) (k : Fin 64) (h : a.1.dst = .reg k) :
    regMove w b a = b.setBank w { b.bank w with w := vput (b.bank w).w k a.2 } := by
  simp [regMove, h]

@[simp] theorem Barge.bank_setBank (b : Barge) (w : Bool) (r : WorldRegs) : (b.setBank w r).bank w = r := by
  cases w <;> rfl

@[simp] theorem Barge.setBank_setBank (b : Barge) (w : Bool) (r r' : WorldRegs) : (b.setBank w r).setBank w r' = b.setBank w r' := by
  cases w <;> rfl

@[simp] theorem Barge.setBank_bank (b : Barge) (w : Bool) : b.setBank w (b.bank w) = b := by
  cases w <;> rfl

/-- Moves to registers change the registers of their world's bank alone. -/
theorem regMoves_frame (w : Bool) (acts : List (Move × Word)) (h : ∀ a ∈ acts, isReg a.1.dst) (b : Barge) :
    acts.foldl (regMove w) b = b.setBank w { b.bank w with w := ((acts.foldl (regMove w) b).bank w).w } := by
  induction acts generalizing b with
  | nil => exact (Barge.setBank_bank b w).symm
  | cons a l ih =>
    obtain ⟨⟨k, hk⟩, hl⟩ := List.forall_mem_cons.1 h
    rw [List.foldl_cons, ih hl, regMove_reg w b a k hk]
    simp

/-- A register that no move names keeps its value. -/
theorem regMoves_kept (w : Bool) (acts : List (Move × Word)) (h : ∀ a ∈ acts, isReg a.1.dst) (k : Fin 64)
    (hk : ∀ a ∈ acts, a.1.dst ≠ .reg k) (b : Barge) :
    ((acts.foldl (regMove w) b).bank w).w.get k = (b.bank w).w.get k := by
  induction acts generalizing b with
  | nil => rfl
  | cons a l ih =>
    obtain ⟨⟨j, hj⟩, hl⟩ := List.forall_mem_cons.1 h
    obtain ⟨ha, hkl⟩ := List.forall_mem_cons.1 hk
    have hne : k ≠ j := fun e => ha (by rw [hj, e])
    rw [List.foldl_cons, ih hl hkl, regMove_reg w b a j hj, Barge.bank_setBank, vput_get_ne _ _ _ _ hne]

/-- A register that one move names takes that move's value. -/
theorem regMoves_moved (w : Bool) (acts : List (Move × Word)) (h : ∀ a ∈ acts, isReg a.1.dst)
    (hd : (acts.map fun a => a.1.dst).Nodup) (a : Move × Word) (ha : a ∈ acts) (k : Fin 64) (hk : a.1.dst = .reg k) (b : Barge) :
    ((acts.foldl (regMove w) b).bank w).w.get k = a.2 := by
  induction acts generalizing b with
  | nil => exact absurd ha List.not_mem_nil
  | cons x l ih =>
    obtain ⟨hx, hl⟩ := List.forall_mem_cons.1 h
    obtain ⟨hnot, hdl⟩ := List.nodup_cons.1 hd
    rw [List.foldl_cons]
    rcases List.mem_cons.1 ha with rfl | hal
    · have hother : ∀ y ∈ l, y.1.dst ≠ .reg k := fun y hy e => hnot (List.mem_map.2 ⟨y, hy, e.trans hk.symm⟩)
      rw [regMoves_kept w l hl k hother, regMove_reg w b a k hk, Barge.bank_setBank, vput_get_self]
    · exact ih hl hdl hal _

/-- An instruction that passes the checks of R45 names no destination twice. -/
theorem movesOf_nodup {i : Insn} {vital sup : Bool} (h : decodeFault i vital sup = none) : ((movesOf i).map fun m => m.dst).Nodup := by
  have hds : dstsDistinct ((slotsOf i).filterMap fun s => dstPort s.dst) = true := by
    unfold decodeFault at h
    extract_lets slots ds at h
    by_contra hne
    rw [Bool.not_eq_true] at hne
    have hne' : dstsDistinct ds = false := hne
    simp only [hne', Bool.not_false, if_true] at h
    split_ifs at h
  simp only [dstsDistinct, Bool.and_eq_true, decide_eq_true_eq] at hds
  have hnodup := hds.1.of_map
  refine List.Sublist.nodup ?_ hnodup
  unfold movesOf
  rw [List.map_filterMap]
  induction slotsOf i with
  | nil => exact .slnil
  | cons s l ih =>
    rw [List.filterMap_cons, List.filterMap_cons]
    cases hd : dstPort s.dst with
    | none => simpa [hd] using ih
    | some d =>
      cases hs : srcPort s.src with
      | none => simpa [hd, hs] using ih.cons d
      | some a => simpa [hd, hs] using ih

/-! ### Instructions of register moves (O3) -/

/-- Every move of the instruction writes a register. -/
def Ctx.RegOnly (c : Ctx) : Prop := ∀ a ∈ c.acts, isReg a.1.dst

namespace Ctx.RegOnly

theorem trig {c : Ctx} (h : c.RegOnly) (u : TrigUnit) : c.trig u = none := by
  refine List.findSome?_eq_none_iff.2 fun a ha => ?_
  obtain ⟨k, hk⟩ := h a ha
  simp [hk]

theorem writes_flags {c : Ctx} (h : c.RegOnly) : c.writes .flags = false := by
  refine List.any_eq_false.2 fun a ha => ?_
  obtain ⟨k, hk⟩ := h a ha
  simp [hk]

theorem inward {c : Ctx} (h : c.RegOnly) : c.Inward := ⟨h.trig _, h.trig _, h.trig _, h.trig _, h.trig _⟩

/-- The units have nothing to do. -/
theorem results {c : Ctx} (h : c.RegOnly) (clk : Nat) (b : Barge) : c.results clk b = c.acts.foldl (regMove c.world) b := by
  have hframe := regMoves_frame c.world c.acts h b
  have hmoves : c.moves b.sig b = c.acts.foldl (regMove c.world) b := by
    simp only [Ctx.moves, h.writes_flags, Bool.false_eq_true, if_false]
    rw [hframe]
    cases c.world <;> rfl
  simp only [Ctx.results, Ctx.rpt, Ctx.vchk, Ctx.vmul, Ctx.alu, Ctx.mul, h.trig, hmoves]

end Ctx.RegOnly

theorem mem_acts {g : BargeIx} {i : Insn} {b : Barge} {a : Move × Word} :
    a ∈ (mkCtx g i b).acts ↔ ∃ m ∈ movesOf i, guardHolds b.flags m.guard = true ∧ (m, srcValue b i m) = a := by
  simp only [mkCtx, List.mem_map, List.mem_filter, and_assoc]

@[simp] theorem mkCtx_g (g : BargeIx) (i : Insn) (b : Barge) : (mkCtx g i b).g = g := rfl

theorem mkCtx_v (g : BargeIx) (i : Insn) (b : Barge) :
    (mkCtx g i b).v = { b with u := (mkCtx g i b).acts.foldl (fun u m => u.operand m.1.dst m.2) b.u } := rfl

theorem operands_registers {acts : List (Move × Word)} (h : ∀ a ∈ acts, isReg a.1.dst) (u : Units) :
    acts.foldl (fun u m => u.operand m.1.dst m.2) u = u := by
  induction acts with
  | nil => rfl
  | cons a l ih =>
    obtain ⟨⟨k, hk⟩, hl⟩ := List.forall_mem_cons.1 h
    rw [List.foldl_cons, hk]
    exact ih hl

theorem mkCtx_regOnly {g : BargeIx} {i : Insn} {b : Barge} (h : ∀ m ∈ movesOf i, isReg m.dst) : (mkCtx g i b).RegOnly := fun a ha => by
  obtain ⟨m, hm, -, rfl⟩ := mem_acts.1 ha
  exact h m hm

/-- Moves to registers leave the operand ports. -/
theorem Ctx.RegOnly.view {g : BargeIx} {i : Insn} {b : Barge} (h : (mkCtx g i b).RegOnly) : (mkCtx g i b).v = b := by
  rw [mkCtx_v, operands_registers h b.u]

/-- The executing moves of an instruction that passes its checks name no destination twice. -/
theorem acts_nodup {g : BargeIx} {i : Insn} {b : Barge} {vital sup : Bool} (h : decodeFault i vital sup = none) :
    ((mkCtx g i b).acts.map fun a => a.1.dst).Nodup := by
  have hsub : ((mkCtx g i b).acts.map fun a => a.1.dst) = ((movesOf i).filter fun m => guardHolds b.flags m.guard).map fun m => m.dst := by
    simp [mkCtx]
  rw [hsub]
  exact (List.filter_sublist.map _).nodup (movesOf_nodup h)

/-- No source of the instruction waits for its result (R43). -/
theorem interlocked_eq_false {b : Barge} {ms : List Move}
    (h : ∀ m ∈ ms, (m.src = .xlu → b.xluSeen = b.xluIssued) ∧ (m.src = .iou → b.iou = none)) : interlocked b ms = false := by
  refine List.any_eq_false.2 fun m hm => ?_
  obtain ⟨hx, hi⟩ := h m hm
  split
  · next e => simp [hx e]
  · next e => simp [hi e]
  · simp

theorem wideWrites_eq_false {c : Ctx} (h : c.acts.length ≤ 4) : c.wideWrites = false :=
  decide_eq_false (Nat.not_lt.2 ((List.length_filter_le _ _).trans h))

/-- An instruction of up to four moves, or one that was held, waits for no further group of register writes (R44). -/
theorem wideHold_eq_false {c : Ctx} {s : State} (h : c.acts.length ≤ 4 ∨
    (s.barges.get c.g).wide.any (fun w => w < bclkCount s (basinOf c.g)) = true) : c.wideHold s = false := by
  rcases h with hlen | hheld
  · rw [Ctx.wideHold, wideWrites_eq_false hlen, Bool.false_and]
  · obtain ⟨w, hw, hlt⟩ := (Option.any_eq_true _ _).1 hheld
    have hnot : ¬ bclkCount s (basinOf c.g) ≤ w := Nat.not_le.2 (of_decide_eq_true hlt)
    simp [Ctx.wideHold, hw, hnot]

/-- A barge issues an instruction of register moves, unless it writes more than four and has not been held for it (R44). -/
theorem plan_registerMoves {s : State} {g : BargeIx} {i : Insn} (h : Ready s g i) (hregs : ∀ m ∈ movesOf i, isReg m.dst)
    (hsrc : ∀ m ∈ movesOf i, (m.src = .xlu → (s.barges.get g).xluSeen = (s.barges.get g).xluIssued) ∧
      (m.src = .iou → (s.barges.get g).iou = none))
    (hwide : ((movesOf i).filter fun m => guardHolds (s.barges.get g).flags m.guard).length ≤ 4 ∨
      (s.barges.get g).wide.any (fun c => c < bclkCount s (basinOf g)) = true) :
    plan g s = .go (mkCtx g i (s.barges.get g)) := by
  have hr := mkCtx_regOnly (g := g) (b := s.barges.get g) hregs
  have hgates : (mkCtx g i (s.barges.get g)).gates = false := by simp [Ctx.gates, hr.trig]
  refine plan_ready h (interlocked_eq_false fun m hm => hsrc m (List.mem_filter.1 hm).1) ?_ ?_ ?_ ?_ ?_
  · simp [Ctx.returnWaits, hr.trig]
  · refine hr.inward.trigFault s ?_ ?_ ?_
    · simp [Ctx.tagFault, Ctx.lsuTagFault, hr.trig]
    · simp [Ctx.returnFault, hr.trig]
    · simp [Ctx.rptFold, hr.trig]
  · simp [hr.inward.softHold, hgates]
  · simp [hr.inward.hardHold, hr.trig]
  · exact wideHold_eq_false (hwide.imp_left fun hlen => by simpa [mkCtx] using hlen)

/-- The barge with other records of its line buffer, of its holds and of its debug module. -/
def Barge.noted (b : Barge) (lines : List HeldLine) (n : Nat) (line : Option (BitVec 12)) (d : Dbg) : Barge :=
  { b with
    lineBuf := lines, stalled := n, holdSince := none, lastLine := line, entry := none, arb := false, arbAt := [], wide := none, dbg := d }

/-- The bookkeeping changes those records alone. -/
theorem Ctx.kept_eq (c : Ctx) (clk : Nat) (traced : Bool) (b : Barge) : ∃ lines n line d, c.kept clk traced b = b.noted lines n line d :=
  ⟨_, _, _, _, rfl⟩

/-- What an instruction of register moves leaves of its barge. -/
theorem registerMoves_leave {c : Ctx} (h : c.RegOnly) (hfmt : fmtOf c.i ≠ 3) (clk : Nat) (traced : Bool) (b : Barge) :
    let y := c.advance (c.results clk (c.kept clk traced b))
    y.bank c.world = { b.bank c.world with w := ((c.acts.foldl (regMove c.world) (c.kept clk traced b)).bank c.world).w } ∧
      y.bank (!c.world) = b.bank (!c.world) ∧ y.pc = b.pc + 1 ∧
      y.count = b.count + 1 ∧ y.flags = b.flags ∧ y.psw = b.psw ∧ y.u = b.u ∧ y.trapDue = b.trapDue := by
  rw [h.results, regMoves_frame c.world c.acts h]
  generalize ((c.acts.foldl (regMove c.world) (c.kept clk traced b)).bank c.world).w = regs
  obtain ⟨lines, n, line, d, hk⟩ := c.kept_eq clk traced b
  rw [hk]
  simp only [Ctx.advance, hfmt, false_and, if_false]
  cases c.world <;> exact ⟨rfl, rfl, rfl, rfl, rfl, rfl, rfl, rfl⟩

/-- Settles O3: the moves are folded over the registers with the values they read before the instruction, and no destination is named
twice. -/
theorem registerMovesExchange : Obligations.RegisterMovesExchange := by
  unfold Obligations.RegisterMovesExchange
  intro s dt g rivals l b i w hav hbound hints hirun hfl hsy hmust hbp hline hbad hfmt hdec hmoves hwide
  have hready : Ready s g i := ⟨hbound, hints, hirun, hfl, hsy, hmust, hbp, hfmt, ⟨l, hline, hbad, rfl⟩, hdec⟩
  obtain ⟨-, -, htrap, -⟩ := hbound
  have hr := mkCtx_regOnly (g := g) (b := b) fun m hm => (hmoves m hm).1
  have hplan : plan g (s.elapse dt) = .go (mkCtx g i b) :=
    plan_registerMoves (hready.elapse dt) (fun m hm => (hmoves m hm).1) (fun m hm => (hmoves m hm).2) hwide
  have hworld : (mkCtx g i b).world = w := by rw [Ctx.world, hr.view]
  obtain ⟨hbank, hother, hpc, hcount, hflags, hpsw, hu, hdue⟩ :=
    registerMoves_leave hr hfmt (bclkCount (s.elapse dt) (basinOf g)) (debugAllowed s) b
  obtain ⟨t, ht, hleaves⟩ := exec_results dt rivals hav hready hplan rfl hr.inward (hr.trig .cnt) (hr.trig .bru) (hdue.trans htrap)
  have hbanks := hleaves.bank
  rw [hworld] at hbank hother
  have hregs := (hbanks w).trans hbank
  refine ⟨t, ht, fun m hm hguard k hk => ?_, fun k hk => ?_, congrArg (·.lnk) hregs, (hbanks _).trans hother,
    (congrArg (·.pc) hleaves.own).trans hpc, (congrArg (·.count) hleaves.own).trans hcount,
    (congrArg (·.flags) hleaves.own).trans hflags, (congrArg (·.psw) hleaves.own).trans hpsw,
    (congrArg (·.u) hleaves.own).trans hu, hleaves.others, sameMemory_of_mems hleaves.mems⟩
  · refine (congrArg (·.w.get k) hregs).trans ?_
    exact regMoves_moved w _ hr (acts_nodup hdec) (m, srcValue b i m) (mem_acts.2 ⟨m, hm, hguard, rfl⟩) k hk _
  · refine (congrArg (·.w.get k) hregs).trans ((regMoves_kept w _ hr k (fun a ha => ?_) _).trans ?_)
    · obtain ⟨m, hm, hguard, rfl⟩ := mem_acts.1 ha
      exact hk m hm hguard
    · cases w <;> rfl

end Sys2Proof.Machine
end

section
/-! One trigger of a unit that makes no access (O15). -/

namespace Sys2Proof.Machine

/-! ### Instructions of one trigger -/

/-- The instruction's only move triggers op of unit u with operand v, seen with the units of b. -/
structure Ctx.Fires (c : Ctx) (b : Barge) (u : TrigUnit) (op : Nat) (v : Word) : Prop where
  view : c.v = b
  acts : ∃ m, m.dst = .trig u op ∧ c.acts = [(m, v)]

theorem triggers_fires {s : State} {g : BargeIx} {i : Insn} {u : TrigUnit} {op : Nat} {v : Word} (h : Triggers s g i u op v) :
    (mkCtx g i (s.barges.get g)).Fires (s.barges.get g) u op v := by
  obtain ⟨m, hmoves, hdst, hguard, rfl, -, -⟩ := h
  have hacts : (mkCtx g i (s.barges.get g)).acts = [(m, srcValue (s.barges.get g) i m)] := by
    simp [mkCtx, hmoves, hguard]
  refine ⟨?_, m, hdst, hacts⟩
  rw [mkCtx_v, hacts, List.foldl_cons, List.foldl_nil, hdst]
  rfl

namespace Ctx.Fires

variable {c : Ctx} {b : Barge} {u : TrigUnit} {op : Nat} {v : Word}

theorem trig (h : c.Fires b u op v) : c.trig u = some (op, v) := by
  obtain ⟨m, hdst, hacts⟩ := h.acts
  simp [Ctx.trig, hacts, hdst]

theorem trig_ne (h : c.Fires b u op v) {x : TrigUnit} (hx : u ≠ x) : c.trig x = none := by
  obtain ⟨m, hdst, hacts⟩ := h.acts
  simp [Ctx.trig, hacts, hdst, hx]

theorem writes_flags (h : c.Fires b u op v) : c.writes .flags = false := by
  obtain ⟨m, hdst, hacts⟩ := h.acts
  simp [Ctx.writes, hacts, hdst]

theorem moves (h : c.Fires b u op v) (k : Barge) : c.moves k.sig k = k := by
  obtain ⟨m, hdst, hacts⟩ := h.acts
  simp only [Ctx.moves, h.writes_flags, Bool.false_eq_true, if_false, hacts, List.foldl_cons, List.foldl_nil, regMove, hdst]
  rfl

theorem acts_length (h : c.Fires b u op v) : c.acts.length = 1 := by
  obtain ⟨m, -, hacts⟩ := h.acts
  rw [hacts, List.length_singleton]

/-- Of the units that make no access, SIG apart. -/
theorem inward (h : c.Fires b u op v) (hu : u ∉ [TrigUnit.lsu, .mac, .xlu, .iou, .sig]) : c.Inward := by
  simp only [List.mem_cons, List.not_mem_nil, or_false, not_or] at hu
  obtain ⟨hlsu, hmac, hxlu, hiou, hsig⟩ := hu
  exact ⟨h.trig_ne hlsu, h.trig_ne hmac, h.trig_ne hxlu, h.trig_ne hiou, h.trig_ne hsig⟩

end Ctx.Fires

/-! ### Their issue -/

/-- The trigger faults at nothing and waits for nothing (R41, R107, R118, R165). -/
structure Unhindered (s : State) (g : BargeIx) (c : Ctx) (u : TrigUnit) (op : Nat) : Prop where
  unit : u ∉ [TrigUnit.lsu, .mac, .xlu, .iou, .sig]
  untagged : pswT (s.barges.get g).psw = false
  noReturn : u = .bru → op ≠ 7
  gates : c.gates = true → drained (s.barges.get g) = true
  vmul : u = .vmul → (s.barges.get g).vmulReady ≤ bclkCount s (basinOf g)
  fold : (c.rptFold (s.barges.get g).sig).isSome = true

namespace Unhindered

variable {s : State} {g : BargeIx} {c : Ctx} {u : TrigUnit} {op : Nat} {v : Word}

/-- No rfe is triggered. -/
theorem bru_ne (hfree : Unhindered s g c u op) (h : c.Fires (s.barges.get g) u op v) {op' : Nat} {v' : Word}
    (hop : c.trig .bru = some (op', v')) : op' ≠ 7 := by
  by_cases hu : u = .bru
  · subst hu
    obtain ⟨rfl, -⟩ := Prod.mk.inj (Option.some.inj (h.trig.symm.trans hop))
    exact hfree.noReturn rfl
  · rw [h.trig_ne hu] at hop
    cases hop

theorem returnWaits (hfree : Unhindered s g c u op) (h : c.Fires (s.barges.get g) u op v) :
    c.returnWaits (s.barges.get g) = false := by
  refine (Option.any_eq_false _ _).2 fun x hx => ?_
  simp [hfree.bru_ne h hx]

theorem trigFault (hfree : Unhindered s g c u op) (h : c.Fires (s.barges.get g) u op v) (hg : c.g = g) : c.trigFault s = none := by
  subst hg
  refine (h.inward hfree.unit).trigFault s ?_ ?_ hfree.fold
  · simp [Ctx.tagFault, Ctx.tagMode, h.view, hfree.untagged]
  · unfold Ctx.returnFault
    split
    · next hop => exact absurd rfl (hfree.bru_ne h hop)
    · rfl

theorem softHold (hfree : Unhindered s g c u op) (h : c.Fires (s.barges.get g) u op v) (hg : c.g = g) : c.softHold s = false := by
  subst hg
  rw [(h.inward hfree.unit).softHold]
  by_cases hgates : c.gates = true
  · simp [hfree.gates hgates]
  · simp [hgates]

theorem hardHold (hfree : Unhindered s g c u op) (h : c.Fires (s.barges.get g) u op v) (hg : c.g = g) : c.hardHold s = false := by
  subst hg
  rw [(h.inward hfree.unit).hardHold]
  by_cases hu : u = .vmul
  · simp [Nat.not_lt.2 (hfree.vmul hu)]
  · simp [h.trig_ne hu]

end Unhindered

theorem plan_trigger {s : State} {g : BargeIx} {i : Insn} {u : TrigUnit} {op : Nat} {v : Word} (hr : Ready s g i)
    (ht : Triggers s g i u op v) (hfree : Unhindered s g (mkCtx g i (s.barges.get g)) u op) :
    plan g s = .go (mkCtx g i (s.barges.get g)) := by
  have h := triggers_fires ht
  obtain ⟨m, hmoves, -, -, -, hxlu, hiou⟩ := ht
  refine plan_ready hr (interlocked_eq_false fun m' hm' => ?_) (hfree.returnWaits h) (hfree.trigFault h rfl) (hfree.softHold h rfl)
    (hfree.hardHold h rfl) (wideHold_eq_false (.inl (h.acts_length.trans_le (by decide))))
  rw [hmoves] at hm'
  obtain rfl := List.mem_singleton.1 (List.mem_filter.1 hm').1
  exact ⟨hxlu, hiou⟩

/-- What a trigger leaves whose operation and branch do f to its barge. -/
theorem trigger_leaves {s : State} {dt : Nat} {g : BargeIx} {rivals : List Rival} {i : Insn} {u : TrigUnit} {op : Nat} {v : Word}
    {f : Barge → Barge} (hav : Available s) (hr : Ready s g i) (ht : Triggers s g i u op v)
    (hfree : Unhindered (s.elapse dt) g (mkCtx g i (s.barges.get g)) u op)
    (hstays : let c := mkCtx g i (s.barges.get g); let s1 := c.bookkeep (s.elapse dt); Stays g (s1.modBarge g f) (c.bru (c.operate s1)))
    (htrap : ∀ lines n line d, (f ((s.barges.get g).noted lines n line d)).trapDue = none) :
    ∃ t lines n line d, exec (.instructionIssue dt g rivals) s = .next t ∧
      Leaves g (f ((s.barges.get g).noted lines n line d)) (s.elapse dt) t := by
  have hplan := plan_trigger (hr.elapse dt) ht hfree
  obtain ⟨lines, n, line, d, hk⟩ :=
    (mkCtx g i (s.barges.get g)).kept_eq (bclkCount (s.elapse dt) (basinOf g)) (debugAllowed s) (s.barges.get g)
  have hmod := leaves_after_bookkeep (c := mkCtx g i (s.barges.get g)) (s := s.elapse dt) f (State.modBarge_barges ..) (by simp) rfl
  have hl := hmod.trans hstays
  have hk' : (mkCtx g i (s.barges.get g)).kept (bclkCount (s.elapse dt) (basinOf g)) (debugAllowed (s.elapse dt))
    ((s.elapse dt).barges.get g) = (s.barges.get g).noted lines n line d := hk
  rw [mkCtx_g, hk'] at hl
  obtain ⟨t, hexec, hleaves⟩ := exec_leaves dt rivals hav hr hplan rfl
    (((triggers_fires ht).inward hfree.unit).accesses _) hl (htrap lines n line d)
  exact ⟨t, lines, n, line, d, hexec, hleaves⟩

/-- The barge `y` goes on at pc as the program of `b` did one instruction ago. -/
structure Issued (b : Barge) (pc : BitVec 14) (y : Barge) : Prop where
  pc : y.pc = pc
  count : y.count = b.count + 1
  vital : y.vital = b.vital
  ordinary : y.ordinary = b.ordinary
  psw : y.psw = b.psw
  flags : y.flags = b.flags
  trapDue : y.trapDue = b.trapDue

/-- Once its operation is done, the barge is at the next address. -/
theorem issued_advance {b : Barge} {c : Ctx} (h : fmtOf c.i ≠ 3) (lines : List HeldLine) (n : Nat) (line : Option (BitVec 12)) (d : Dbg) :
    Issued b (b.pc + 1) (c.advance (b.noted lines n line d)) :=
  ⟨if_neg fun e => h e.1, rfl, rfl, rfl, rfl, rfl, rfl⟩

/-- A trigger issues whose operation and branch do f to its barge. -/
theorem trigger_issuesTo {s : State} {dt : Nat} {g : BargeIx} {rivals : List Rival} {i : Insn} {u : TrigUnit} {op : Nat} {v : Word}
    {f : Barge → Barge} {pc : BitVec 14} {P : Barge → Prop} (hav : Available s) (hr : Ready s g i) (ht : Triggers s g i u op v)
    (hfree : Unhindered (s.elapse dt) g (mkCtx g i (s.barges.get g)) u op)
    (hstays : let c := mkCtx g i (s.barges.get g); let s1 := c.bookkeep (s.elapse dt); Stays g (s1.modBarge g f) (c.bru (c.operate s1)))
    (hissued : ∀ lines n line d, Issued (s.barges.get g) pc (f ((s.barges.get g).noted lines n line d)))
    (hP : ∀ lines n line d d' q h, P { f ((s.barges.get g).noted lines n line d) with dbg := d', intc := q, holdSince := h }) :
    IssuesTo s dt g rivals pc P := by
  obtain ⟨-, -, htrap, -⟩ := hr.boundary
  obtain ⟨t, lines, n, line, d, hexec, hl⟩ := trigger_leaves hav hr ht hfree hstays fun lines n line d =>
    (hissued lines n line d).trapDue.trans htrap
  have hi := hissued lines n line d
  refine ⟨t, hexec, ⟨?_, ?_, ?_, ?_, ?_, ?_, ?_⟩, fun k hk => ?_, sameMemory_of_mems hl.mems⟩
  · exact (congrArg (·.pc) hl.own).trans hi.pc
  · exact (congrArg (·.count) hl.own).trans hi.count
  · exact (congrArg (·.vital) hl.own).trans hi.vital
  · exact (congrArg (·.ordinary) hl.own).trans hi.ordinary
  · exact (congrArg (·.psw) hl.own).trans hi.psw
  · exact (congrArg (·.flags) hl.own).trans hi.flags
  · exact hl.own.symm ▸ hP lines n line d _ _ _
  · rw [hl.others k hk]
    rfl

/-! ### Units whose operation delivers, waits or runs -/

/-- The barge with results on their way, units, and operations begun. -/
def Barge.begun (b : Barge) (fl : List Flight) (u : Units) (ready : Nat) (p : Option RptRun) (wt : Option CntWait) (last : BitVec 64) :
    Barge :=
  { b with flights := fl, u := u, vmulReady := ready, rpt := p, wait := wt, lastSample := last }

/-- A trigger issues to the next address that begins an operation; its result may tell how long the barge was held. -/
theorem begun_issuesTo {s : State} {dt : Nat} {g : BargeIx} {rivals : List Rival} {i : Insn} {u : TrigUnit} {op : Nat} {v : Word}
    {f : Barge → Barge} {P : Barge → Prop} {fl : Nat → List Flight} {us : Units} {ready : Nat} {p : Option RptRun} {wt : Option CntWait}
    {last : BitVec 64} (hav : Available s) (hr : Ready s g i) (ht : Triggers s g i u op v)
    (hfree : Unhindered (s.elapse dt) g (mkCtx g i (s.barges.get g)) u op)
    (hstays : let c := mkCtx g i (s.barges.get g); let s1 := c.bookkeep (s.elapse dt)
      Stays g (s1.modBarge g fun b => c.advance (f b)) (c.bru (c.operate s1)))
    (hf : ∀ lines n line d, let k := (s.barges.get g).noted lines n line d; f k = k.begun (fl n) us ready p wt last)
    (hP : ∀ y : Barge, y.flights = fl y.stalled → y.u = us → y.vmulReady = ready → y.rpt = p → y.wait = wt → P y) :
    IssuesTo s dt g rivals ((s.barges.get g).pc + 1) P := by
  have hfmt : fmtOf (mkCtx g i (s.barges.get g)).i ≠ 3 := hr.issues
  refine trigger_issuesTo hav hr ht hfree hstays (fun lines n line d => ?_) fun lines n line d _ _ _ => ?_
  · rw [hf]
    exact ⟨if_neg fun h => hfmt h.1, rfl, rfl, rfl, rfl, rfl, rfl⟩
  · rw [hf]
    exact hP _ rfl rfl rfl rfl rfl

theorem bclkCount_bookkeep (c : Ctx) (s : State) (n : BasinIx) : bclkCount (c.bookkeep s) n = bclkCount s n :=
  ((bookkeep_sameButCode c s).bclkCount n).trans (State.modBarge_bclkCount ..)

/-- The operations of a trigger of neither CNT nor the BRU. -/
theorem results_stays {c : Ctx} {s : State} (h : c.Inward) (hcnt : c.trig .cnt = none) (hbru : c.trig .bru = none) :
    Stays c.g ((c.bookkeep s).modBarge c.g fun b => c.advance (c.results (bclkCount s (basinOf c.g)) b))
      (c.bru (c.operate (c.bookkeep s))) := by
  have hnone : ∀ s, c.bru s = s := fun s => by simp [Ctx.bru, hbru]
  rw [hnone, operate_results h hcnt, bclkCount_bookkeep]
  exact Stays.refl _ _

end Sys2Proof.Machine
end

section
/-! Triggers of the ALUs, MUL, VMUL, VCHK, RPT and CNT (O15). -/

namespace Sys2Proof.Machine

/-! ### ALUs, MUL, VMUL and VCHK (R55 to R58, R148 to R152) -/

/-- An ALU op's result on its way in untagged mode, or the fault of its overflow. -/
def aluFlight (b : Barge) (p : ResultPort) (op : Nat) (o v : Word) : Flight :=
  let r := aluOut op o v b.flags.c
  if pswV b.psw ∧ (op ≤ 7 ∨ op = 0x10 ∨ op = 0x11) ∧ r.ovf then
    { port := p, due := b.count + 1, value := none, fault := some 0x0D, faddr := b.pc.setWidth 36 }
  else { port := p, due := b.count + 1, value := if op = 0x18 ∨ op = 0x19 then none else some r.v
         flags := if aluSetsFlags op then some (r.v == 0, r.v.msb, r.c, r.ovf) else none }

theorem aluOverflowFaults_iff (op : Nat) : aluOverflowFaults op = true ↔ op ≤ 7 ∨ op = 0x10 ∨ op = 0x11 := by
  simp [aluOverflowFaults, or_assoc]

theorem aluDelivers_iff (op : Nat) : aluDelivers op = true ↔ ¬ (op = 0x18 ∨ op = 0x19) := by
  simp [aluDelivers]

theorem alu_untagged {c : Ctx} {k : Barge} (htag : c.tagMode = false) (hk : k.count = c.v.count) (p : ResultPort) (op : Nat) (o v : Word) :
    c.alu p o (some (op, v)) k = k.start (aluFlight c.v p op o v) := by
  simp only [Ctx.alu, aluFlight, aluCompute, htag, Ctx.vitalMode, aluOverflowFaults_iff, aluDelivers_iff, Ctx.pc36, hk, ite_not,
    Bool.false_eq_true, if_false]
  split <;> rfl

/-- MUL's result on its way in untagged mode, or the fault of its overflow. -/
def mulFlight (b : Barge) (op : Nat) (v : Word) : Flight :=
  let o := b.u.mulo
  let p : BitVec 72 := if op % 2 = 0 then BitVec.ofInt 72 (o.toInt * v.toInt) else BitVec.ofNat 72 (o.toNat * v.toNat)
  if op = 0 ∧ pswV b.psw ∧ ¬ (-34359738368 ≤ o.toInt * v.toInt ∧ o.toInt * v.toInt ≤ 34359738367) then
    { port := .mul, due := b.count + 3, value := none, fault := some 0x0D, faddr := b.pc.setWidth 36 }
  else { port := .mul, due := b.count + 3, value := some (fld p (if op < 2 then 0 else 36) 36) }

theorem mulOverflows_iff (o t : Word) :
    mulOverflows o t = true ↔ ¬ (-34359738368 ≤ o.toInt * t.toInt ∧ o.toInt * t.toInt ≤ 34359738367) := by
  rw [mulOverflows, decide_eq_true_eq, not_and_or, Int.not_le, Int.not_le]

theorem mul_untagged {c : Ctx} {k : Barge} {op : Nat} {v : Word} (htrig : c.trig .mul = some (op, v)) (htag : c.tagMode = false)
    (hk : k.count = c.v.count) : c.mul k = k.start (mulFlight c.v op v) := by
  have hvalue : mulCompute false op c.v.u.mulo v = fld (if op % 2 = 0 then BitVec.ofInt 72 (c.v.u.mulo.toInt * v.toInt)
      else BitVec.ofNat 72 (c.v.u.mulo.toNat * v.toNat) : BitVec 72) (if op < 2 then 0 else 36) 36 := by
    simp only [mulCompute, Bool.false_eq_true, if_false]
    split <;> rfl
  simp only [Ctx.mul, htrig, mulFlight, htag, hvalue, Ctx.vitalMode, mulOverflows_iff, Ctx.pc36, hk]
  split <;> rfl

/-- What unit u makes of the barge in BCLK clk; LSU, MAC, XLU, IOU, SIG, CNT and BRU act elsewhere. -/
def Ctx.unit (c : Ctx) (clk : Nat) (k : Barge) : TrigUnit → Barge
  | .alu0 => c.alu .alu0 c.v.u.alu0o (c.trig .alu0) k
  | .alu1 => c.alu .alu1 c.v.u.alu1o (c.trig .alu1) k
  | .mul => c.mul k
  | .vmul => c.vmul clk k
  | .vchk => c.vchk k
  | .rpt => c.rpt clk k
  | _ => k

/-- The unit that is triggered acts alone. -/
theorem Ctx.Fires.results {c : Ctx} {b : Barge} {u : TrigUnit} {op : Nat} {v : Word} (h : c.Fires b u op v) (clk : Nat) (k : Barge) :
    c.results clk k = c.unit clk k u := by
  have halu : ∀ p o b, c.alu p o none b = b := fun _ _ _ => rfl
  have hmul : u ≠ .mul → ∀ b, c.mul b = b := fun hu b => by simp [Ctx.mul, h.trig_ne hu]
  have hvmul : u ≠ .vmul → ∀ n b, c.vmul n b = b := fun hu n b => by simp [Ctx.vmul, h.trig_ne hu]
  have hvchk : u ≠ .vchk → ∀ b, c.vchk b = b := fun hu b => by simp [Ctx.vchk, h.trig_ne hu]
  have hrpt : u ≠ .rpt → ∀ n b, c.rpt n b = b := fun hu n b => by simp [Ctx.rpt, h.trig_ne hu]
  unfold Ctx.results Ctx.unit
  rw [h.moves]
  cases u <;> simp only [halu, hmul, hvmul, hvchk, hrpt, h.trig_ne, ne_eq, reduceCtorEq, not_false_eq_true]

theorem Ctx.Fires.tagMode {c : Ctx} {b : Barge} {u : TrigUnit} {op : Nat} {v : Word} (h : c.Fires b u op v)
    (htag : pswT b.psw = false) : c.tagMode = false := by
  rw [Ctx.tagMode, h.view, htag]

section
variable {s : State} {dt : Nat} {g : BargeIx} {rivals : List Rival} {i : Insn} {v : Word}

/-- A trigger of ALU0, ALU1, MUL, VCHK or CNT waits for nothing. -/
theorem unhindered_plain {u : TrigUnit} {op : Nat} (htag : pswT (s.barges.get g).psw = false) (ht : Triggers s g i u op v)
    (hu : u ∈ [TrigUnit.alu0, .alu1, .mul, .vchk, .cnt]) : Unhindered (s.elapse dt) g (mkCtx g i (s.barges.get g)) u op := by
  have h := triggers_fires ht
  have hne : ∀ x ∈ [TrigUnit.bru, .vmul, .rpt, .lsu, .mac, .xlu, .iou, .sig], u ≠ x := by
    rintro x hx rfl
    revert hu hx
    cases u <;> decide
  refine ⟨?_, htag, fun e => absurd e (hne _ (by decide)), fun hg => ?_, fun e => absurd e (hne _ (by decide)), ?_⟩
  · revert hu
    cases u <;> decide
  · simp [Ctx.gates, h.trig_ne (hne .bru (by decide))] at hg
  · simp [Ctx.rptFold, h.trig_ne (hne .rpt (by decide))]

/-- A trigger issues whose unit delivers x after its latency. -/
theorem delivers_issuesTo {u : TrigUnit} {op : Nat} {x : Flight} {ready : Nat} {P : Barge → Prop} (hav : Available s) (hr : Ready s g i)
    (ht : Triggers s g i u op v) (hfree : Unhindered (s.elapse dt) g (mkCtx g i (s.barges.get g)) u op) (hu : u ∉ [TrigUnit.cnt, .bru])
    (hunit : ∀ k : Barge, k.count = (s.barges.get g).count → k.vmulReady = (s.barges.get g).vmulReady →
      (mkCtx g i (s.barges.get g)).unit (bclkCount (s.elapse dt) (basinOf g)) k u = { k.start x with vmulReady := ready })
    (hP : ∀ y : Barge, y.flights = [x] → y.u = (s.barges.get g).u → y.vmulReady = ready → P y) :
    IssuesTo s dt g rivals ((s.barges.get g).pc + 1) P := by
  have h := triggers_fires ht
  simp only [List.mem_cons, List.not_mem_nil, or_false, not_or] at hu
  obtain ⟨hcnt, hbru⟩ := hu
  refine begun_issuesTo hav hr ht hfree (results_stays (h.inward hfree.unit) (h.trig_ne hcnt) (h.trig_ne hbru))
    (fl := fun _ => [x]) (us := (s.barges.get g).u) (ready := ready) (p := (s.barges.get g).rpt) (wt := (s.barges.get g).wait)
    (last := (s.barges.get g).lastSample) (fun lines n line d => ?_) fun y hfl hu hready _ _ => hP y hfl hu hready
  refine (h.results _ _).trans ((hunit ((s.barges.get g).noted lines n line d) rfl rfl).trans ?_)
  simp only [Barge.start, Barge.begun, Barge.noted, hr.flights, List.nil_append]

/-- A trigger of ALU0, ALU1, MUL or VCHK issues; its result or its fault is on its way. -/
theorem plain_issuesTo {u : TrigUnit} {op : Nat} {x : Flight} {P : Barge → Prop} (hav : Available s) (hr : Ready s g i)
    (htag : pswT (s.barges.get g).psw = false) (ht : Triggers s g i u op v) (hu : u ∈ [TrigUnit.alu0, .alu1, .mul, .vchk])
    (hunit : ∀ k : Barge, k.count = (mkCtx g i (s.barges.get g)).v.count →
      (mkCtx g i (s.barges.get g)).unit (bclkCount (s.elapse dt) (basinOf g)) k u = k.start x)
    (hP : ∀ y : Barge, y.flights = [x] → y.u = (s.barges.get g).u → P y) :
    IssuesTo s dt g rivals ((s.barges.get g).pc + 1) P := by
  have hview := congrArg (·.count) (triggers_fires ht).view.symm
  refine delivers_issuesTo (ready := (s.barges.get g).vmulReady) hav hr ht (unhindered_plain htag ht ?_) ?_
    (fun k hk hready => (hunit k (hk.trans hview)).trans (by rw [← hready]; rfl)) fun y hfl hu _ => hP y hfl hu
  · revert hu
    cases u <;> decide
  · revert hu
    cases u <;> decide

theorem alu0_issuesTo {op : Nat} (hav : Available s) (hr : Ready s g i) (htag : pswT (s.barges.get g).psw = false)
    (ht : Triggers s g i .alu0 op v) : IssuesTo s dt g rivals ((s.barges.get g).pc + 1) fun y =>
      y.flights = [aluFlight (s.barges.get g) .alu0 op (s.barges.get g).u.alu0o v] ∧ y.u = (s.barges.get g).u := by
  have h := triggers_fires ht
  refine plain_issuesTo hav hr htag ht (by decide) (fun k hk => ?_) fun y hfl hu => ⟨hfl, hu⟩
  rw [Ctx.unit, h.trig, alu_untagged (h.tagMode htag) hk, h.view]

theorem alu1_issuesTo {op : Nat} (hav : Available s) (hr : Ready s g i) (htag : pswT (s.barges.get g).psw = false)
    (ht : Triggers s g i .alu1 op v) : IssuesTo s dt g rivals ((s.barges.get g).pc + 1) fun y =>
      y.flights = [aluFlight (s.barges.get g) .alu1 op (s.barges.get g).u.alu1o v] ∧ y.u = (s.barges.get g).u := by
  have h := triggers_fires ht
  refine plain_issuesTo hav hr htag ht (by decide) (fun k hk => ?_) fun y hfl hu => ⟨hfl, hu⟩
  rw [Ctx.unit, h.trig, alu_untagged (h.tagMode htag) hk, h.view]

theorem mul_issuesTo {op : Nat} (hav : Available s) (hr : Ready s g i) (htag : pswT (s.barges.get g).psw = false)
    (ht : Triggers s g i .mul op v) : IssuesTo s dt g rivals ((s.barges.get g).pc + 1) fun y =>
      y.u = (s.barges.get g).u ∧ y.flights = [mulFlight (s.barges.get g) op v] := by
  have h := triggers_fires ht
  refine plain_issuesTo hav hr htag ht (by decide) (fun k hk => ?_) fun y hfl hu => ⟨hu, hfl⟩
  rw [Ctx.unit, mul_untagged h.trig (h.tagMode htag) hk, h.view]

/-- VCHK's result and G, and the fault of a code check, on their way. -/
def vchkFlight (b : Barge) (op : Nat) (v : Word) : Flight :=
  let r := vchkResult (vchkOps op) b.u.vchko b.u.vchkh v b.u.vchks
  { port := .vchk, due := b.count + 2, value := some r.2.1, g := some r.2.2, fault := r.1.cause, faddr := b.pc.setWidth 36 }

theorem vchk_issuesTo {op : Nat} (hav : Available s) (hr : Ready s g i) (htag : pswT (s.barges.get g).psw = false)
    (ht : Triggers s g i .vchk op v) : IssuesTo s dt g rivals ((s.barges.get g).pc + 1) fun y =>
      y.u = (s.barges.get g).u ∧ y.flights = [vchkFlight (s.barges.get g) op v] := by
  have h := triggers_fires ht
  refine plain_issuesTo hav hr htag ht (by decide) (fun k hk => ?_) fun y hfl hu => ⟨hu, hfl⟩
  simp only [Ctx.unit, Ctx.vchk, h.trig, vchkFlight, Ctx.pc36, hk, h.view]

/-- VMUL's result, and the fault of a code check, on their way. -/
def vmulFlight (b : Barge) (v : Word) : Flight :=
  let r := vmulResult b.u.vmulo v b.u.vmuls (bitsN b.u.vmulk 0 5)
  { port := .vmul, due := b.count + 5, value := some r.2, fault := r.1.cause, faddr := b.pc.setWidth 36 }

/-- A trigger of VMUL waits for the end of its interval (R41). -/
theorem unhindered_vmul {op : Nat} (htag : pswT (s.barges.get g).psw = false) (ht : Triggers s g i .vmul op v)
    (hready : (s.barges.get g).vmulReady ≤ bclkCount (s.elapse dt) (basinOf g)) :
    Unhindered (s.elapse dt) g (mkCtx g i (s.barges.get g)) .vmul op := by
  have h := triggers_fires ht
  refine ⟨by decide, htag, nofun, fun hg => ?_, fun _ => hready, ?_⟩
  · simp [Ctx.gates, h.trig_ne] at hg
  · simp [Ctx.rptFold, h.trig_ne]

theorem vmul_issuesTo {op : Nat} (hav : Available s) (hr : Ready s g i) (htag : pswT (s.barges.get g).psw = false)
    (ht : Triggers s g i .vmul op v) (hready : (s.barges.get g).vmulReady ≤ bclkCount (s.elapse dt) (basinOf g)) :
    IssuesTo s dt g rivals ((s.barges.get g).pc + 1) fun y => y.u = (s.barges.get g).u ∧
      y.vmulReady = bclkCount (s.elapse dt) (basinOf g) + 5 ∧ y.flights = [vmulFlight (s.barges.get g) v] := by
  have h := triggers_fires ht
  refine delivers_issuesTo hav hr ht (unhindered_vmul htag ht hready) (by decide) (fun k hk _ => ?_) fun y hfl hu hy => ⟨hu, hy, hfl⟩
  simp only [Ctx.unit, Ctx.vmul, h.trig, vmulFlight, Ctx.pc36, hk, h.view]

/-! ### RPT (R77 to R79) -/

/-- A trigger of RPT waits for nothing and folds where it may (R165). -/
theorem unhindered_rpt {op : Nat} (htag : pswT (s.barges.get g).psw = false) (ht : Triggers s g i .rpt op v)
    (hfold : op ≤ 1 → pswW (s.barges.get g).psw = true → pswV (s.barges.get g).psw = true → (s.barges.get g).u.rc ≠ 0 →
      (s.barges.get g).sig.isOpen = true ∧ (s.barges.get g).sig.n.toNat + (s.barges.get g).u.rc.toNat ≤ 65535) :
    Unhindered (s.elapse dt) g (mkCtx g i (s.barges.get g)) .rpt op := by
  have h := triggers_fires ht
  refine ⟨by decide, htag, nofun, fun hg => ?_, nofun, ?_⟩
  · simp [Ctx.gates, h.trig_ne] at hg
  · show ((mkCtx g i (s.barges.get g)).rptFold (s.barges.get g).sig).isSome = true
    simp only [Ctx.rptFold, h.trig, Ctx.folds, Ctx.world, Ctx.vitalMode, h.view]
    rw [if_neg]
    · rfl
    · rintro ⟨hop, hwv, hrc, hbad⟩
      obtain ⟨hw, hv⟩ := Bool.and_eq_true_iff.1 hwv
      obtain ⟨hopen, hroom⟩ := hfold hop hw hv hrc
      rcases hbad with hclosed | hfull
      · simp [hopen] at hclosed
      · exact absurd hroom (Nat.not_le.2 hfull)

/-- The value of RPT.r at once (R78): with RC = 0 a count is 0, and a scan's address is RD. -/
theorem rptValue_rc_zero {u : Units} (h : u.rc = 0) (op : Nat) : rptValue u op = if op = 4 then u.rd else 0 := by
  unfold rptValue
  split
  · rfl
  · rfl
  · rfl
  · next h4 => rw [if_neg h4, h]

theorem rpt_issuesTo {op : Nat} (hav : Available s) (hr : Ready s g i) (htag : pswT (s.barges.get g).psw = false)
    (ht : Triggers s g i .rpt op v)
    (hfold : op ≤ 1 → pswW (s.barges.get g).psw = true → pswV (s.barges.get g).psw = true → (s.barges.get g).u.rc ≠ 0 →
      (s.barges.get g).sig.isOpen = true ∧ (s.barges.get g).sig.n.toNat + (s.barges.get g).u.rc.toNat ≤ 65535) :
    IssuesTo s dt g rivals ((s.barges.get g).pc + 1) fun y =>
      let b := s.barges.get g
      if b.u.rc = 0 then y.rpt = none ∧ y.u = { b.u with rmode := rmodeRun b.u.rmode op false, rptr := if op = 4 then b.u.rd else 0 }
      else y.rpt = some { pc := b.pc, world := pswW b.psw, vital := pswW b.psw && pswV b.psw
                          next := bclkCount (s.elapse dt) (basinOf g) + 3 } ∧
        y.u = { b.u with rmode := rmodeRun b.u.rmode op true } := by
  have h := triggers_fires ht
  have hfree := unhindered_rpt (dt := dt) htag ht hfold
  obtain ⟨-, hbusy, -, -, -, hreq, -⟩ := hr.boundary
  obtain ⟨-, hrpt, -⟩ := (busyBoundary_eq_false hreq).1 hbusy
  have hstays := results_stays (s := s.elapse dt) (h.inward hfree.unit) (h.trig_ne nofun) (h.trig_ne nofun)
  by_cases hrc : (s.barges.get g).u.rc = 0
  · simp only [hrc, if_true]
    refine begun_issuesTo hav hr ht hfree hstays (fl := fun _ => (s.barges.get g).flights) (ready := (s.barges.get g).vmulReady)
      (wt := (s.barges.get g).wait) (last := (s.barges.get g).lastSample) (fun lines n line d => ?_) fun y _ hu _ hrun _ => ⟨hrun, hu⟩
    refine (h.results _ _).trans ?_
    simp only [Ctx.unit, Ctx.rpt, h.trig, h.view, hrc, if_true, rptValue_rc_zero hrc, Barge.begun, Barge.noted, hrpt]
  · simp only [hrc, if_false]
    refine begun_issuesTo hav hr ht hfree hstays (fl := fun _ => (s.barges.get g).flights) (ready := (s.barges.get g).vmulReady)
      (wt := (s.barges.get g).wait) (last := (s.barges.get g).lastSample) (fun lines n line d => ?_) fun y _ hu _ hrun _ => ⟨hrun, hu⟩
    refine (h.results _ _).trans ?_
    simp only [Ctx.unit, Ctx.rpt, h.trig, h.view, hrc, if_false, Ctx.world, Ctx.folds, Ctx.vitalMode, Barge.begun, Barge.noted]
    rfl

/-! ### CNT (R86, R87) -/

/-- The instruction's units but CNT have nothing to do. -/
theorem operate_cnt {c : Ctx} {b : Barge} {op : Nat} (h : c.Fires b .cnt op v) (s : State) :
    c.operate s = (c.cnt s).modBarge c.g c.advance := by
  have hrpt : ∀ n b, c.rpt n b = b := fun n b => by simp [Ctx.rpt, h.trig_ne]
  have hid : ∀ clk k, c.vchk (c.vmul clk (c.alu .alu1 c.v.u.alu1o (c.trig .alu1) (c.alu .alu0 c.v.u.alu0o (c.trig .alu0)
      (c.mul (c.moves k.sig k))))) = k := fun clk k => (hrpt clk _).symm.trans (h.results clk k)
  rw [operate_inward (h.inward (by decide))]
  simp only [hid, hrpt, State.modBarge_same]

/-- What CNT does to its barge, the draw of a sample apart, the instruction leaves of it. -/
theorem cnt_stays {c : Ctx} {b : Barge} {op : Nat} {f : Barge → Barge} (h : c.Fires b .cnt op v)
    (hcnt : ∃ n, c.cnt (c.bookkeep s) = { (c.bookkeep s).modBarge c.g f with freeCtr := n }) :
    Stays c.g ((c.bookkeep s).modBarge c.g fun b => c.advance (f b)) (c.bru (c.operate (c.bookkeep s))) := by
  obtain ⟨n, hn⟩ := hcnt
  have hbru : ∀ s, c.bru s = s := fun s => by simp [Ctx.bru, h.trig_ne]
  have hstate : c.bru (c.operate (c.bookkeep s)) = { (c.bookkeep s).modBarge c.g fun b => c.advance (f b) with freeCtr := n } := by
    rw [hbru, operate_cnt h, hn, ← State.modBarge_modBarge _ c.g f c.advance]
    rfl
  rw [hstate]
  exact ⟨rfl, fun _ _ => rfl, rfl, rfl⟩

theorem sampleTime_congr {g : BargeIx} {s t : State} (hcrp : t.crp = s.crp) (hfree : t.freeCtr = s.freeCtr)
    (hlast : (t.barges.get g).lastSample = (s.barges.get g).lastSample) : (sampleTime g t).1 = (sampleTime g s).1 := by
  unfold sampleTime bclkPeriod
  rw [hcrp, hfree, hlast]

/-- A sample is kept by its barge, and one choice of the device is drawn. -/
theorem sampleTime_snd (g : BargeIx) (s : State) :
    (sampleTime g s).2 = { s.modBarge g (fun b => { b with lastSample := (sampleTime g s).1 }) with freeCtr := s.freeCtr + 1 } := rfl

/-- The bookkeeping of an instruction changes no sample of the station time (R87). -/
theorem sampleTime_bookkeep (c : Ctx) (s : State) : (sampleTime c.g (c.bookkeep s)).1 = (sampleTime c.g s).1 := by
  have hkept := bookkeep_sameButCode c s
  have hlast : ((c.bookkeep s).barges.get c.g).lastSample = (s.barges.get c.g).lastSample := by
    rw [hkept.barges, State.modBarge_barges, vmod_get_self]
    rfl
  exact sampleTime_congr hkept.crp hkept.freeCtr hlast

/-- A trigger of CNT issues. -/
theorem cnt_issuesTo {op : Nat} {f : Barge → Barge} {P : Barge → Prop} {fl : Nat → List Flight} {us : Units} {wt : Option CntWait}
    {last : BitVec 64} (hav : Available s) (hr : Ready s g i) (htag : pswT (s.barges.get g).psw = false)
    (ht : Triggers s g i .cnt op v)
    (hcnt : let c := mkCtx g i (s.barges.get g); let s1 := c.bookkeep (s.elapse dt)
      ∃ n, c.cnt s1 = { s1.modBarge g f with freeCtr := n })
    (hf : ∀ lines n line d, let b := s.barges.get g; let k := b.noted lines n line d
      f k = k.begun (fl n) us b.vmulReady b.rpt wt last)
    (hP : ∀ y : Barge, y.flights = fl y.stalled → y.u = us → y.wait = wt → P y) :
    IssuesTo s dt g rivals ((s.barges.get g).pc + 1) P :=
  begun_issuesTo hav hr ht (unhindered_plain htag ht (by decide)) (cnt_stays (triggers_fires ht) hcnt) hf
    fun y hfl hu _ _ hw => hP y hfl hu hw

/-- A value that CNT delivers. -/
def cntFlight (b : Barge) (x : Word) : Flight := { port := .cnt, due := b.count + 1, value := some x }

/-- CNT samples the station time x and delivers its low word (R87). -/
def Barge.sampled (b : Barge) (x : BitVec 64) : Barge :=
  { b with lastSample := x, u := { b.u with cntLatch := fld x 36 28 }, flights := b.flights ++ [cntFlight b (x.setWidth 36)] }

theorem cnt_sample {c : Ctx} (h : c.trig .cnt = some (0, v)) (s : State) :
    c.cnt s = { s.modBarge c.g (fun b => b.sampled (sampleTime c.g s).1) with freeCtr := s.freeCtr + 1 } := by
  simp only [Ctx.cnt, h, sampleTime_snd, State.modBarge, vmod_vmod]
  rfl

theorem cntSample_issuesTo (hav : Available s) (hr : Ready s g i) (htag : pswT (s.barges.get g).psw = false)
    (ht : Triggers s g i .cnt 0 v) : IssuesTo s dt g rivals ((s.barges.get g).pc + 1) fun y =>
      let b := s.barges.get g
      let x := (sampleTime g (s.elapse dt)).1
      y.flights = [cntFlight b (x.setWidth 36)] ∧ y.u = { b.u with cntLatch := fld x 36 28 } := by
  have h := triggers_fires ht
  have hcnt := cnt_sample h.trig ((mkCtx g i (s.barges.get g)).bookkeep (s.elapse dt))
  rw [sampleTime_bookkeep] at hcnt
  refine cnt_issuesTo hav hr htag ht (last := (sampleTime g (s.elapse dt)).1) (wt := (s.barges.get g).wait)
    (fl := fun _ => [cntFlight (s.barges.get g) ((sampleTime g (s.elapse dt)).1.setWidth 36)]) ⟨_, hcnt⟩ (fun lines n line d => ?_)
    fun y hfl hu _ => ⟨hfl, hu⟩
  simp only [Barge.sampled, Barge.begun, Barge.noted, hr.flights, List.nil_append, cntFlight, mkCtx_g]

/-- A trigger of CNT issues that delivers a value at once. -/
theorem cntValue_issuesTo {op : Nat} {z : Barge → Word} {x : Nat → Word} {P : Barge → Prop} (hav : Available s) (hr : Ready s g i)
    (htag : pswT (s.barges.get g).psw = false) (ht : Triggers s g i .cnt op v)
    (hcnt : let c := mkCtx g i (s.barges.get g); let s1 := c.bookkeep (s.elapse dt)
      c.cnt s1 = s1.modBarge g fun b => b.start (cntFlight b (z b)))
    (hz : ∀ lines n line d, z ((s.barges.get g).noted lines n line d) = x n)
    (hP : ∀ y : Barge, y.flights = [cntFlight (s.barges.get g) (x y.stalled)] → y.u = (s.barges.get g).u → y.wait = none → P y) :
    IssuesTo s dt g rivals ((s.barges.get g).pc + 1) P := by
  obtain ⟨-, hbusy, -, -, -, hreq, -⟩ := hr.boundary
  obtain ⟨-, -, hwait, -⟩ := (busyBoundary_eq_false hreq).1 hbusy
  refine cnt_issuesTo hav hr htag ht (f := fun b => b.start (cntFlight b (z b))) (fl := fun n => [cntFlight (s.barges.get g) (x n)])
    (us := (s.barges.get g).u) (wt := none) (last := (s.barges.get g).lastSample) ⟨_, hcnt.trans rfl⟩ (fun lines n line d => ?_) hP
  simp only [hz, Barge.start, cntFlight]
  simp only [Barge.begun, Barge.noted, hr.flights, List.nil_append, hwait]

theorem cntLatch_issuesTo (hav : Available s) (hr : Ready s g i) (htag : pswT (s.barges.get g).psw = false)
    (ht : Triggers s g i .cnt 1 v) : IssuesTo s dt g rivals ((s.barges.get g).pc + 1) fun y =>
      let b := s.barges.get g
      y.flights = [cntFlight b (b.u.cntLatch.setWidth 36)] ∧ y.u = b.u := by
  have h := triggers_fires ht
  refine cntValue_issuesTo hav hr htag ht (z := fun _ => (s.barges.get g).u.cntLatch.setWidth 36)
    (x := fun _ => (s.barges.get g).u.cntLatch.setWidth 36) ?_ (fun _ _ _ _ => rfl) fun y hfl hu _ => ⟨hfl, hu⟩
  simp only [Ctx.cnt, h.trig, h.view]
  rfl

/-- Counter k of the barge in BCLK clk (R86). -/
def Barge.counter (b : Barge) (clk k : Nat) : Word :=
  match k with
  | 0 => BitVec.ofNat 36 (clk - b.bclkBase)
  | 1 => BitVec.ofNat 36 b.count
  | 2 => BitVec.ofNat 36 b.stalled
  | _ => b.wrongPath

theorem cnt_counter {c : Ctx} (h : c.trig .cnt = some (2, v)) (s : State) :
    c.cnt s = s.modBarge c.g fun b => b.start (cntFlight b (b.counter (bclkCount s (basinOf c.g)) (bitsN v 0 2))) := by
  simp only [Ctx.cnt, h]
  exact congrArg (fun bs => { s with barges := bs }) (vmod_congr _ _ _ _ rfl)

theorem cntCounter_issuesTo (hav : Available s) (hr : Ready s g i) (htag : pswT (s.barges.get g).psw = false)
    (ht : Triggers s g i .cnt 2 v) : IssuesTo s dt g rivals ((s.barges.get g).pc + 1) fun y =>
      let b := s.barges.get g
      y.u = b.u ∧ (bitsN v 0 2 = 0 → y.flights = [cntFlight b (BitVec.ofNat 36 (bclkCount (s.elapse dt) (basinOf g) - b.bclkBase))]) ∧
        (bitsN v 0 2 = 1 → y.flights = [cntFlight b (BitVec.ofNat 36 b.count)]) ∧
        (bitsN v 0 2 = 2 → y.flights = [cntFlight b (BitVec.ofNat 36 y.stalled)]) ∧
        (bitsN v 0 2 = 3 → y.flights = [cntFlight b b.wrongPath]) := by
  have hcnt := cnt_counter (triggers_fires ht).trig ((mkCtx g i (s.barges.get g)).bookkeep (s.elapse dt))
  rw [bclkCount_bookkeep] at hcnt
  refine cntValue_issuesTo hav hr htag ht (x := fun n => { s.barges.get g with stalled := n }.counter
    (bclkCount (s.elapse dt) (basinOf g)) (bitsN v 0 2)) hcnt (fun lines n line d => rfl) fun y hfl hu _ => ⟨hu, ?_, ?_, ?_, ?_⟩
  all_goals
    intro hk
    rw [hfl, hk]
    rfl

/-- CNT delivers 0 when what it waits for has come, and holds the barge for w otherwise (R87). -/
def Barge.awaits (b : Barge) (come : Bool) (w : CntWait) : Barge :=
  if come then b.start (cntFlight b 0) else { b with wait := some w }

/-- A trigger of CNT issues that delivers 0 or waits, with the sample `last` of the station time or the one its barge has. -/
theorem cntAwaits_issuesTo {op : Nat} {come : Bool} {w : CntWait} {last : Barge → BitVec 64} {x : BitVec 64}
    (hav : Available s) (hr : Ready s g i) (htag : pswT (s.barges.get g).psw = false) (ht : Triggers s g i .cnt op v)
    (hcnt : let c := mkCtx g i (s.barges.get g); let s1 := c.bookkeep (s.elapse dt)
      ∃ n, c.cnt s1 = { s1.modBarge g (fun b => { b with lastSample := last b }.awaits come w) with freeCtr := n })
    (hlast : ∀ lines n line d, last ((s.barges.get g).noted lines n line d) = x) :
    IssuesTo s dt g rivals ((s.barges.get g).pc + 1) fun y =>
      let b := s.barges.get g
      y.u = b.u ∧ if come = true then y.flights = [cntFlight b 0] ∧ y.wait = none else y.flights = [] ∧ y.wait = some w := by
  obtain ⟨-, hbusy, -, -, -, hreq, -⟩ := hr.boundary
  obtain ⟨-, -, hwait, -⟩ := (busyBoundary_eq_false hreq).1 hbusy
  refine cnt_issuesTo hav hr htag ht (fl := fun _ => if come then [cntFlight (s.barges.get g) 0] else []) (us := (s.barges.get g).u)
    (wt := if come then none else some w) (last := x) hcnt (fun lines n line d => ?_) fun y hfl hu hw => ⟨hu, ?_⟩
  · simp only [hlast]
    cases come <;> simp only [Barge.awaits, Barge.start, cntFlight, Barge.begun, Barge.noted, hr.flights, List.nil_append, hwait, if_true,
      if_false, Bool.false_eq_true]
  · split_ifs at hfl hw ⊢
    · exact ⟨hfl, hw⟩
    · exact ⟨hfl, hw⟩

theorem cnt_time {c : Ctx} (h : c.trig .cnt = some (3, v)) (s : State) :
    c.cnt s = { s.modBarge c.g (fun b => { b with lastSample := (sampleTime c.g s).1 }.awaits (reached (sampleTime c.g s).1 v) (.time v)) with
      freeCtr := s.freeCtr + 1 } := by
  simp only [Ctx.cnt, h, sampleTime_snd, Barge.awaits]
  split
  · simp only [State.modBarge, vmod_vmod]
    rfl
  · simp only [State.modBarge, vmod_vmod]

theorem cntTime_issuesTo (hav : Available s) (hr : Ready s g i) (htag : pswT (s.barges.get g).psw = false)
    (ht : Triggers s g i .cnt 3 v) : IssuesTo s dt g rivals ((s.barges.get g).pc + 1) fun y =>
      let b := s.barges.get g
      y.u = b.u ∧ if reached (sampleTime g (s.elapse dt)).1 v = true then y.flights = [cntFlight b 0] ∧ y.wait = none
        else y.flights = [] ∧ y.wait = some (.time v) := by
  have hcnt := cnt_time (triggers_fires ht).trig ((mkCtx g i (s.barges.get g)).bookkeep (s.elapse dt))
  rw [sampleTime_bookkeep] at hcnt
  exact cntAwaits_issuesTo hav hr htag ht ⟨_, hcnt⟩ fun _ _ _ _ => rfl

theorem cnt_count {c : Ctx} (h : c.trig .cnt = some (4, v)) (s : State) :
    c.cnt s = s.modBarge c.g fun b => b.awaits (bitsN v 0 32 == 0) (.count (bclkCount s (basinOf c.g) + bitsN v 0 32 + 1)) := by
  simp only [Ctx.cnt, h, Barge.awaits, beq_iff_eq]
  split
  · rfl
  · rfl

theorem cntCount_issuesTo (hav : Available s) (hr : Ready s g i) (htag : pswT (s.barges.get g).psw = false)
    (ht : Triggers s g i .cnt 4 v) : IssuesTo s dt g rivals ((s.barges.get g).pc + 1) fun y =>
      let b := s.barges.get g
      y.u = b.u ∧ if bitsN v 0 32 = 0 then y.flights = [cntFlight b 0] ∧ y.wait = none
        else y.flights = [] ∧ y.wait = some (.count (bclkCount (s.elapse dt) (basinOf g) + bitsN v 0 32 + 1)) := by
  have hcnt := cnt_count (triggers_fires ht).trig ((mkCtx g i (s.barges.get g)).bookkeep (s.elapse dt))
  rw [bclkCount_bookkeep] at hcnt
  have hissues := cntAwaits_issuesTo (rivals := rivals) hav hr htag ht (last := fun b => b.lastSample) ⟨_, hcnt.trans rfl⟩ fun _ _ _ _ => rfl
  simpa only [beq_iff_eq, mkCtx_g] using hissues
end

end Sys2Proof.Machine
end

section
/-! One trigger of the BRU (O15). -/

namespace Sys2Proof.Machine

/-! ### BRU (R37, R39, R98, R107, R108) -/

/-- The barge after a taken branch to tgt, with the line of the branch's own BTB entry (R93). -/
def Ctx.branched (c : Ctx) (tgt : BitVec 14) (b : Barge) : Barge :=
  let stored := if pswP c.v.psw then none else ((b.btbEntry c.v.pc).filter fun e => e.tgt == tgt).bind fun e => e.line
  let b1 := if pswP c.v.psw then { b with mustRead := true } else if nbtbBit c.i then b else b.allocate c.v.pc tgt
  { b1 with pc := tgt, btbLine := stored }

theorem branched_eq (c : Ctx) (tgt : BitVec 14) (b : Barge) :
    ∃ must btb line, c.branched tgt b = { b with mustRead := must, btb := btb, pc := tgt, btbLine := line } := by
  unfold Ctx.branched
  split_ifs
  · exact ⟨_, _, _, rfl⟩
  · exact ⟨_, _, _, rfl⟩
  · exact ⟨_, _, _, rfl⟩

theorem branch_stays (c : Ctx) (tgt : BitVec 14) (s : State) : Stays c.g (s.modBarge c.g (c.branched tgt)) (c.branch tgt s) := by
  unfold Ctx.branch
  extract_lets b src barred stored s1
  have hs1 : s1 = s.modBarge c.g (c.branched tgt) := congrArg (fun bs => { s with barges := bs }) (vmod_congr _ _ _ _ rfl)
  have hhits : Stays c.g s1 (if stored.isSome then bpHits c.g 1 (fun a => fld a 2 12 == fld tgt 2 12) s1 else s1) := by
    split
    · exact bpHits_stays c.g 1 _ s1
    · exact .refl c.g s1
  rw [← hs1]
  exact hhits.trans (traceWord_stays c.g 0 _)

/-- The instruction's units but the BRU have nothing to do. -/
theorem operate_bru {c : Ctx} {b : Barge} {op : Nat} {v : Word} (h : c.Fires b .bru op v) (s : State) :
    c.operate s = s.modBarge c.g c.advance := by
  rw [operate_results (h.inward (by decide)) (h.trig_ne nofun)]
  simp only [h.results]
  rfl

/-- With nothing in flight nothing is delivered. -/
theorem deliverAll_idle {b : Barge} (h : b.flights = []) : b.deliverAll = b := by
  unfold Barge.deliverAll
  rw [h]
  exact congrArg (fun fl => { b with flights := fl }) h.symm

/-- The barge held at a gate (R107, R108, R444). -/
def Barge.gated (b : Barge) (h : GateHold) : Barge := { b.deliverAll with gate := some h }

/-- LNK of world w's bank holds an instruction's address. -/
def Barge.linked (b : Barge) (w : Bool) (a : BitVec 14) : Barge := b.setBank w { b.bank w with lnk := a.setWidth 36 }

/-- What a call to tgt leaves of the barge, its line and its BTB apart (R37, R39). -/
theorem call_branched (c : Ctx) (tgt a : BitVec 14) (w : Bool) (b : Barge) :
    let y := c.branched tgt (b.linked w a)
    y.pc = tgt ∧ y.bank w = { b.bank w with lnk := a.setWidth 36 } ∧ y.bank (!w) = b.bank (!w) ∧ y.count = b.count ∧ y.psw = b.psw ∧
      y.flags = b.flags ∧ y.u = b.u ∧ y.trapDue = b.trapDue := by
  obtain ⟨must, btb, line, hk⟩ := branched_eq c tgt (b.linked w a)
  rw [hk]
  cases w <;> exact ⟨rfl, rfl, rfl, rfl, rfl, rfl, rfl, rfl⟩

theorem call_stays {c : Ctx} {b : Barge} {v : Word} (h : c.Fires b .bru 1 v) (s : State) :
    Stays c.g (s.modBarge c.g fun k => c.branched (v.setWidth 14) (k.linked (pswW b.psw) (b.pc + 1))) (c.bru s) := by
  have hlinked := branch_stays c (v.setWidth 14) (s.modBarge c.g fun k => k.linked (pswW b.psw) (b.pc + 1))
  rw [State.modBarge_modBarge] at hlinked
  simp only [Ctx.bru, h.trig, Ctx.world, h.view]
  exact hlinked

/-- The barge after a flush of its line buffer and BTB (R94, R95). -/
def Barge.flushed (b : Barge) : Barge :=
  { b with
    wrongPath := b.wrongPath + BitVec.ofNat 36 (b.lineBuf.filter fun h => !h.used).length
    lineBuf := [], btb := [], btbLine := none, wantLine := none, mustRead := false, lastLine := none }

theorem flush_stays (g : BargeIx) (s : State) : Stays g (s.modBarge g Barge.flushed) (flush g s) :=
  (cancelReads_sameButCode g _).stays g (by simp)

section
variable {s : State} {dt : Nat} {g : BargeIx} {rivals : List Rival} {i : Insn} {v : Word}

/-- A trigger of the BRU that is no rfe waits for nothing, a gate or gate return apart (R107, R108). -/
theorem unhindered_bru {op : Nat} (htag : pswT (s.barges.get g).psw = false) (ht : Triggers s g i .bru op v) (hop : op ≠ 7)
    (hgate : op = 3 ∨ op = 2 ∧ pswW (s.barges.get g).psw = true ∧ bit v 35 = true → drained (s.barges.get g) = true) :
    Unhindered (s.elapse dt) g (mkCtx g i (s.barges.get g)) .bru op := by
  have h := triggers_fires ht
  refine ⟨by decide, htag, fun _ => hop, fun hg => hgate ?_, nofun, by simp [Ctx.rptFold, h.trig_ne]⟩
  simp only [Ctx.gates, h.trig, Ctx.world, h.view] at hg
  split at hg
  · next heq =>
    obtain ⟨rfl, -⟩ := Prod.mk.inj (Option.some.inj heq)
    exact .inl rfl
  · next heq =>
    obtain ⟨rfl, rfl⟩ := Prod.mk.inj (Option.some.inj heq)
    exact .inr ⟨rfl, Bool.and_eq_true_iff.1 hg⟩
  · cases hg

/-- A trigger of the BRU issues that does f to the barge at the end of its instruction. -/
theorem bru_issuesTo {op : Nat} {f : Barge → Barge} {pc : BitVec 14} {P : Barge → Prop} (hav : Available s) (hr : Ready s g i)
    (htag : pswT (s.barges.get g).psw = false) (ht : Triggers s g i .bru op v) (hop : op ≠ 7)
    (hgate : op = 3 ∨ op = 2 ∧ pswW (s.barges.get g).psw = true ∧ bit v 35 = true → drained (s.barges.get g) = true)
    (hbru : let c := mkCtx g i (s.barges.get g); ∀ s, Stays g (s.modBarge g f) (c.bru s))
    (hf : ∀ k, Issued (s.barges.get g) ((s.barges.get g).pc + 1) k → k.flights = [] → k.u = (s.barges.get g).u →
      Issued (s.barges.get g) pc (f k) ∧ ∀ d q h, P { f k with dbg := d, intc := q, holdSince := h }) :
    IssuesTo s dt g rivals pc P := by
  have h := triggers_fires ht
  have hfmt : fmtOf (mkCtx g i (s.barges.get g)).i ≠ 3 := hr.issues
  have hnext := fun lines n line d =>
    hf ((mkCtx g i (s.barges.get g)).advance ((s.barges.get g).noted lines n line d)) (issued_advance hfmt lines n line d) hr.flights rfl
  refine trigger_issuesTo hav hr ht (unhindered_bru htag ht hop hgate) (f := fun b => f ((mkCtx g i (s.barges.get g)).advance b)) ?_
    (fun lines n line d => (hnext lines n line d).1) fun lines n line d => (hnext lines n line d).2
  intro c s1
  rw [operate_bru h, ← State.modBarge_modBarge]
  exact hbru _

/-- A trigger of the BRU issues that branches to v (R39, R88). -/
theorem jump_issuesTo {op : Nat} (hav : Available s) (hr : Ready s g i) (htag : pswT (s.barges.get g).psw = false)
    (ht : Triggers s g i .bru op v) (hop : op = 0 ∨ op = 2 ∧ ¬ (pswW (s.barges.get g).psw = true ∧ bit v 35 = true)) :
    IssuesTo s dt g rivals (v.setWidth 14) fun y => y.u = (s.barges.get g).u ∧ y.flights = [] := by
  have h := triggers_fires ht
  refine bru_issuesTo hav hr htag ht (f := (mkCtx g i (s.barges.get g)).branched (v.setWidth 14)) ?_ ?_ (fun s' => ?_)
    fun k hk hfl hu => ?_
  · omega
  · rintro (rfl | ⟨rfl, hret⟩)
    · omega
    · exact absurd hret (by tauto)
  · have hbranch : (mkCtx g i (s.barges.get g)).bru s' = (mkCtx g i (s.barges.get g)).branch (v.setWidth 14) s' := by
      rcases hop with rfl | ⟨rfl, hret⟩
      · simp only [Ctx.bru, h.trig]
        rfl
      · simp only [Ctx.bru, h.trig, Ctx.world, h.view, if_neg hret]
        rfl
    rw [hbranch]
    exact branch_stays (mkCtx g i (s.barges.get g)) _ _
  · obtain ⟨must, btb, line, hk'⟩ := branched_eq (mkCtx g i (s.barges.get g)) (v.setWidth 14) k
    rw [hk']
    exact ⟨⟨rfl, hk.count, hk.vital, hk.ordinary, hk.psw, hk.flags, hk.trapDue⟩, fun _ _ _ => ⟨hu, hfl⟩⟩

/-- What a call leaves: LNK of its world holds the next address (R37, R39). -/
theorem call_issues (hav : Available s) (hr : Ready s g i) (htag : pswT (s.barges.get g).psw = false) (ht : Triggers s g i .bru 1 v) :
    let b := s.barges.get g
    let w := pswW b.psw
    ∃ t, exec (.instructionIssue dt g rivals) s = .next t ∧
      (let y := t.barges.get g
       y.pc = v.setWidth 14 ∧ y.bank w = { b.bank w with lnk := (b.pc + 1).setWidth 36 } ∧ y.bank (!w) = b.bank (!w) ∧
       y.count = b.count + 1 ∧ y.psw = b.psw ∧ y.flags = b.flags ∧ y.u = b.u) ∧
      (∀ k, k ≠ g → t.barges.get k = { s.barges.get k with intc := (t.barges.get k).intc }) ∧ SameMemory s t := by
  intro b w
  have h : (mkCtx g i b).Fires b .bru 1 v := triggers_fires ht
  obtain ⟨-, -, htrap, -⟩ := hr.boundary
  have hfmt : fmtOf (mkCtx g i b).i ≠ 3 := hr.issues
  have hfree := unhindered_bru (dt := dt) htag ht (by decide) (by omega)
  have hcall := fun lines n line d => call_branched (mkCtx g i b) (v.setWidth 14) (b.pc + 1) w ((mkCtx g i b).advance (b.noted lines n line d))
  obtain ⟨t, lines, n, line, d, hexec, hl⟩ := trigger_leaves (rivals := rivals) (dt := dt) hav hr ht hfree
    (f := fun k => (mkCtx g i b).branched (v.setWidth 14) (((mkCtx g i b).advance k).linked w (b.pc + 1))) (by
      intro c s1
      rw [operate_bru h, ← State.modBarge_modBarge _ g (mkCtx g i b).advance fun k =>
        (mkCtx g i b).branched (v.setWidth 14) (k.linked w (b.pc + 1))]
      exact call_stays h _) (fun lines n line d => by
      obtain ⟨-, -, -, -, -, -, -, hdue⟩ := hcall lines n line d
      exact hdue.trans htrap)
  obtain ⟨hpc, hbank, hother, hcount, hpsw, hflags, hu, -⟩ := hcall lines n line d
  refine ⟨t, hexec, ⟨?_, ?_, ?_, ?_, ?_, ?_, ?_⟩, fun k hk => ?_, sameMemory_of_mems hl.mems⟩
  · exact (congrArg (·.pc) hl.own).trans hpc
  · exact (hl.bank w).trans hbank
  · exact (hl.bank (!w)).trans hother
  · exact (congrArg (·.count) hl.own).trans hcount
  · exact (congrArg (·.psw) hl.own).trans hpsw
  · exact (congrArg (·.flags) hl.own).trans hflags
  · exact (congrArg (·.u) hl.own).trans hu
  · rw [hl.others k hk]
    rfl

theorem gate_issuesTo {op : Nat} (hav : Available s) (hr : Ready s g i) (htag : pswT (s.barges.get g).psw = false)
    (ht : Triggers s g i .bru op v) (hop : op = 3 ∨ op = 2 ∧ pswW (s.barges.get g).psw = true ∧ bit v 35 = true)
    (hdrained : drained (s.barges.get g) = true) :
    IssuesTo s dt g rivals ((s.barges.get g).pc + 1) fun y =>
      let b := s.barges.get g
      y.gate = some { isReturn := op == 2, world := pswW b.psw, t := v, pc := b.pc, next := b.pc + 1 } ∧ y.u = b.u := by
  have h := triggers_fires ht
  refine bru_issuesTo hav hr htag ht (f := fun k => k.gated
    { isReturn := op == 2, world := pswW (s.barges.get g).psw, t := v, pc := (s.barges.get g).pc, next := (s.barges.get g).pc + 1 })
    (by omega) (fun _ => hdrained) (fun s' => ?_) fun k hk hfl hu => ?_
  · rcases hop with rfl | ⟨rfl, hret⟩
    · simp only [Ctx.bru, h.trig, h.writes_flags, Bool.false_eq_true, if_false, Ctx.world, h.view]
      exact Stays.refl _ _
    · simp only [Ctx.bru, h.trig, h.writes_flags, Bool.false_eq_true, if_false, Ctx.world, h.view, hret, and_self, if_true]
      exact Stays.refl _ _
  · rw [Barge.gated, deliverAll_idle hfl]
    exact ⟨⟨hk.pc, hk.count, hk.vital, hk.ordinary, hk.psw, hk.flags, hk.trapDue⟩, fun _ _ _ => ⟨rfl, hu⟩⟩

theorem sync_issuesTo (hav : Available s) (hr : Ready s g i) (htag : pswT (s.barges.get g).psw = false)
    (ht : Triggers s g i .bru 5 v) :
    IssuesTo s dt g rivals ((s.barges.get g).pc + 1) fun y => y.sync = true ∧ y.u = (s.barges.get g).u := by
  have h := triggers_fires ht
  refine bru_issuesTo hav hr htag ht (f := fun b => { b with sync := true }) (by decide) (by omega) (fun s' => ?_) fun k hk _ hu => ?_
  · simp only [Ctx.bru, h.trig]
    exact Stays.refl _ _
  · exact ⟨⟨hk.pc, hk.count, hk.vital, hk.ordinary, hk.psw, hk.flags, hk.trapDue⟩, fun _ _ _ => ⟨rfl, hu⟩⟩

theorem flush_issuesTo (hav : Available s) (hr : Ready s g i) (htag : pswT (s.barges.get g).psw = false)
    (ht : Triggers s g i .bru 6 v) :
    IssuesTo s dt g rivals ((s.barges.get g).pc + 1) fun y => y.lineBuf = [] ∧ y.btb = [] ∧ y.u = (s.barges.get g).u := by
  have h := triggers_fires ht
  refine bru_issuesTo hav hr htag ht (f := Barge.flushed) (by decide) (by omega) (fun s' => ?_) fun k hk _ hu => ?_
  · simp only [Ctx.bru, h.trig]
    exact flush_stays _ _
  · exact ⟨⟨hk.pc, hk.count, hk.vital, hk.ordinary, hk.psw, hk.flags, hk.trapDue⟩, fun _ _ _ => ⟨rfl, rfl, hu⟩⟩
end

/-- Settles O15: each unit acts alone, on the barge that its instruction's bookkeeping leaves. -/
theorem triggersStartTheirOperations : Obligations.TriggersStartTheirOperations := by
  unfold Obligations.TriggersStartTheirOperations
  intro s dt g rivals i v b u w clk next at36 alu gives hav hn hints htag
  have hr := nextInsn_ready hn hints
  refine ⟨fun op ht => alu0_issuesTo hav hr htag ht, fun op ht => alu1_issuesTo hav hr htag ht,
    fun op ht => mul_issuesTo hav hr htag ht, fun op ht hready => vmul_issuesTo hav hr htag ht hready,
    fun op ht => vchk_issuesTo hav hr htag ht, fun ht => cntSample_issuesTo hav hr htag ht,
    fun ht => cntLatch_issuesTo hav hr htag ht, fun ht => cntCounter_issuesTo hav hr htag ht,
    fun ht => cntTime_issuesTo hav hr htag ht, fun ht => cntCount_issuesTo hav hr htag ht,
    fun ht => jump_issuesTo hav hr htag ht (.inl rfl), fun ht => call_issues hav hr htag ht, fun ht hret => ?_,
    fun ht hw hret hdrained => gate_issuesTo hav hr htag ht (.inr ⟨rfl, hw, hret⟩) hdrained,
    fun ht hdrained => gate_issuesTo hav hr htag ht (.inl rfl) hdrained, fun ht => sync_issuesTo hav hr htag ht,
    fun ht => flush_issuesTo hav hr htag ht, fun op ht hfold => rpt_issuesTo hav hr htag ht hfold⟩
  refine jump_issuesTo hav hr htag ht (.inr ⟨rfl, ?_⟩)
  rintro ⟨hworld, hbit⟩
  rcases hret with hno | hno
  · exact absurd (hno.symm.trans hworld) nofun
  · exact absurd (hno.symm.trans hbit) nofun

end Sys2Proof.Machine
end

section
/-! The sums and differences of an ALU, and the delivery of its result (O4). -/

namespace Sys2Proof.Machine

/-! ### Sums and differences (R55, R56) -/

/-- A word as the signed number that its bits and its sign bit spell. -/
theorem word_toInt (x : Word) : x.toInt = if x.msb = true then (x.toNat : Int) - 2 ^ 36 else (x.toNat : Int) := by
  rw [BitVec.toInt_eq_msb_cond]
  rfl

theorem word_msb (x : Word) : x.msb = true ↔ 2 ^ 35 ≤ x.toNat := by
  rw [BitVec.msb_eq_decide, decide_eq_true_eq]

theorem addOut_toNat (o t : Word) (c : Bool) : (addOut o t c).v.toNat = (o.toNat + t.toNat + c.toNat) % 2 ^ 36 := by
  cases c <;> simp [addOut, BitVec.toNat_add]

theorem addOut_c (o t : Word) (c : Bool) : (addOut o t c).c = true ↔ 2 ^ 36 ≤ o.toNat + t.toNat + c.toNat :=
  decide_eq_true_iff

/-- V of a sum: its operands have one sign and it has the other, which is where the signed sum does not fit. -/
theorem addOut_ovf (o t : Word) (c : Bool) :
    (addOut o t c).ovf = true ↔ (addOut o t c).v.toInt ≠ o.toInt + t.toInt + c.toNat := by
  have hv := addOut_toNat o t c
  have hovf : (addOut o t c).ovf = true ↔ (o.msb = true ↔ t.msb = true) ∧ ¬ ((addOut o t c).v.msb = true ↔ o.msb = true) := by
    rw [← Bool.eq_iff_iff, ← Bool.eq_iff_iff, ← beq_iff_eq (a := o.msb), ← ne_eq, ← bne_iff_ne, ← Bool.and_eq_true]
    rfl
  generalize (addOut o t c).v = v at hv hovf
  have hc : c.toNat ≤ 1 := Bool.toNat_le c
  rw [hovf]
  simp only [word_toInt, word_msb]
  have := o.isLt
  have := t.isLt
  omega

theorem subOut_toNat (o t : Word) (b : Bool) :
    (subOut o t b).v.toNat = (2 ^ 37 + o.toNat - t.toNat - b.toNat) % 2 ^ 36 := by
  have := o.isLt
  have := t.isLt
  cases b <;> simp [subOut, BitVec.toNat_sub] <;> omega

theorem subOut_c (o t : Word) (b : Bool) : (subOut o t b).c = true ↔ t.toNat + b.toNat ≤ o.toNat :=
  decide_eq_true_iff

/-- V of a difference: its operands' signs differ and it has that of the subtrahend. -/
theorem subOut_ovf (o t : Word) (b : Bool) :
    (subOut o t b).ovf = true ↔ (subOut o t b).v.toInt ≠ o.toInt - t.toInt - b.toNat := by
  have hv := subOut_toNat o t b
  have hovf : (subOut o t b).ovf = true ↔ ¬ (o.msb = true ↔ t.msb = true) ∧ ((subOut o t b).v.msb = true ↔ t.msb = true) := by
    rw [← Bool.eq_iff_iff, ← Bool.eq_iff_iff, ← ne_eq, ← bne_iff_ne, ← beq_iff_eq (b := t.msb), ← Bool.and_eq_true]
    rfl
  generalize (subOut o t b).v = v at hv hovf
  have hb : b.toNat ≤ 1 := Bool.toNat_le b
  rw [hovf]
  simp only [word_toInt, word_msb]
  have := o.isLt
  have := t.isLt
  omega

/-! ### The delivery of an ALU's result (R41, R42) -/

/-- The only result on its way, due and without a fault, is delivered at the boundary. -/
theorem boundary_delivers {g : BargeIx} {s : State} {f : Flight} (hfl : (s.barges.get g).flights = [f])
    (hdue : f.due ≤ (s.barges.get g).count) (hok : f.fault = none) :
    (boundary g false s).1 = s.modBarge g fun b => { b.deliver f with flights := [] } := by
  have hd : (s.barges.get g).deliverDue false = (none, { (s.barges.get g).deliver f with flights := [] }) := by
    simp [Barge.deliverDue, hfl, hdue, hok]
  simp only [boundary, hd]
  rfl

/-- RESULT_DELIVERY at a boundary where nothing holds the barge. -/
theorem exec_resultDelivery {s : State} {g : BargeIx} (dt : Nat) (hav : Available s) (hb : AtBoundary s g)
    (hcrp : (boundary g false (s.elapse dt)).1.crp.bhold = (s.elapse dt).crp.bhold) :
    exec (.resultDelivery dt g false) s = .next (boundary g false (s.elapse dt)).1 := by
  have hbound := atBoundary_elapse hb dt
  obtain ⟨hruns, hbusy, htrap, -, -, hreq, -⟩ := hbound
  obtain ⟨hhalt, -, -, hgate, -, hrfe, hframe, -⟩ := (busyBoundary_eq_false hreq).1 hbusy
  have hgo : ¬ (!bargeRuns (s.elapse dt) g ∨ ((s.elapse dt).barges.get g).dbg.halted ∨ ((s.elapse dt).barges.get g).gate.isSome ∨
      ((s.elapse dt).barges.get g).trapDue.isSome ∨ ((s.elapse dt).barges.get g).frameRun.isSome ∨
      ((s.elapse dt).barges.get g).rfeDue.isSome) := by
    simp only [hruns, hhalt, hgate, htrap, hframe, hrfe]
    decide
  have hstep := stepped_running g (fun s => (boundary g false s).1) _ (atBoundary_running (atBoundary_elapse hb dt))
  refine (act_next s dt _ hav.1 hav.2).trans ?_
  rw [holdsFollow_same]
  · exact congrArg Host.Outcome.next ((if_neg hgo).trans hstep)
  · exact (congrArg (fun t => t.crp.bhold) ((if_neg hgo).trans hstep)).trans hcrp

/-- Settles O4: the sums and differences are compared with the signed ones by their sign bits, the issue is that of O15, and the result
is the only one due at the boundary. -/
theorem aluResultsAreExactAndOneLater : Obligations.AluResultsAreExactAndOneLater := by
  unfold Obligations.AluResultsAreExactAndOneLater
  refine ⟨fun o t c => ⟨⟨?_, ?_, ?_⟩, ⟨addOut_toNat o t c, addOut_c o t c, addOut_ovf o t c⟩, ⟨?_, ?_, ?_⟩, ⟨?_, ?_, ?_⟩⟩, ?_, ?_⟩
  · exact addOut_toNat o t false
  · exact addOut_c o t false
  · exact (addOut_ovf o t false).trans (by simp [aluOut])
  · simp [aluOut, subOut]
  · exact subOut_c o t false
  · exact (subOut_ovf o t false).trans (by simp [aluOut])
  · cases c <;> rfl
  · refine (subOut_c o t (!c)).trans ?_
    cases c <;> simp
  · refine (subOut_ovf o t (!c)).trans ?_
    cases c <;> simp [aluOut]
  · intro s dt g rivals l m op b i r hav hb hints hirun hfl hsy hmust htag hv hbp hline hbad hfmt hdec hmoves hdst hguard hx hi
    have hready : Ready s g i := ⟨hb, hints, hirun, hfl, hsy, hmust, hbp, hfmt, ⟨l, hline, hbad, rfl⟩, hdec⟩
    obtain ⟨t, hexec, ⟨hpc, hcount, -, -, -, hflags, hflights, hu⟩, -, hmem⟩ :=
      alu0_issuesTo (dt := dt) (rivals := rivals) hav hready htag ⟨m, hmoves, hdst, hguard, rfl, hx, hi⟩
    refine ⟨t, hexec, hflights.trans ?_, hu, hflags, hpc, hcount, hmem⟩
    rw [aluFlight, if_neg fun h => Bool.eq_false_iff.1 hv h.1]
  · intro s dt g v f n b hav hb hn hfl
    have hbound : (boundary g false (s.elapse dt)).1 = _ := boundary_delivers (s := s.elapse dt) hfl hn rfl
    rw [exec_resultDelivery dt hav hb (by rw [hbound]; rfl), hbound]
    rfl

end Sys2Proof.Machine
end

section
/-! The sizes of the machine's queues and the owners of its output groups: what a state shows of them, and their bounds (O58). -/

namespace Sys2Proof.Machine

/-! ### The queues of a state -/

/-- The sizes of a barge's queues: its store buffer, its XLU transactions and its date queue. -/
structure BargeQueues where
  stores : Nat
  credits : Nat
  dates : Nat

def Barge.queues (b : Barge) : BargeQueues := ⟨b.stores.length, b.xluCredits, b.sig.queue.length⟩

def EgReq.size (q : EgReq) : Nat := q.queue.length

/-- What a group's ownership asks of a task: its state, and the words that name its groups. -/
def KTask.binding (t : KTask) : BitVec 2 × Vector Word 13 := (t.tstate, t.words)

/-- The sizes of the part's queues, and what the ownership of the output groups rests on. -/
structure Queues where
  barges : Vector BargeQueues 48
  log : Nat
  egress : Vector Nat 14
  owners : Vector (Option (BitVec 8)) 64
  tasks : Vector (BitVec 2 × Vector Word 13) 256

def State.queues (s : State) : Queues :=
  ⟨s.barges.map Barge.queues, s.kp.log.length, s.ferry.eq.map EgReq.size, s.kp.groups.map KGroup.owner, s.kp.tasks.map KTask.binding⟩

@[simp] theorem Barge.queues_mk (
    pc irun psw ctxid vital ordinary flags u count flights stores storeSeq xluq xluResps xluCredits xluIssued xluSeen iou rpt
    rptFrames issueFrom second done wide drainAt wait gate vmulReady sync syPend trapDue rfeDue frameRun entry dbl lastSample
    hoFault lineBuf btb btbLine wantLine mustRead lastLine wrongPath intc tcmp tcmpArmed vctl octl gateBase gateCnt rstinfo sig
    dbg bclkBase holdSince stalled arb arbAt) :
    Barge.queues ⟨
      pc, irun, psw, ctxid, vital, ordinary, flags, u, count, flights, stores, storeSeq, xluq, xluResps, xluCredits, xluIssued,
      xluSeen, iou, rpt, rptFrames, issueFrom, second, done, wide, drainAt, wait, gate, vmulReady, sync, syPend, trapDue,
      rfeDue, frameRun, entry, dbl, lastSample, hoFault, lineBuf, btb, btbLine, wantLine, mustRead, lastLine, wrongPath, intc,
      tcmp, tcmpArmed, vctl, octl, gateBase, gateCnt, rstinfo, sig, dbg, bclkBase, holdSince, stalled, arb, arbAt⟩ =
      ⟨stores.length, xluCredits, sig.queue.length⟩ := by
  simp only [Barge.queues]

@[simp] theorem Barge.queues_eta (b : Barge) : (⟨b.stores.length, b.xluCredits, b.sig.queue.length⟩ : BargeQueues) = b.queues := rfl

@[simp] theorem Barge.queues_ite (c : Prop) [Decidable c] (b b' : Barge) :
    (if c then b else b').queues = if c then b.queues else b'.queues := apply_ite Barge.queues c b b'

@[simp] theorem KTask.binding_mk (words tstate last rpend failrun onbarge date fails retries cycles openAt notBefore lastStart
    outstanding stale) :
    KTask.binding ⟨words, tstate, last, rpend, failrun, onbarge, date, fails, retries, cycles, openAt, notBefore, lastStart,
      outstanding, stale⟩ = (tstate, words) := by
  simp only [KTask.binding]

@[simp] theorem KTask.binding_eta (t : KTask) : (t.tstate, t.words) = t.binding := rfl

@[simp] theorem EgReq.size_mk (haddr waddr len fmt stream queue full failf done tickets share bonus credit grants waitN lwait fails askAt
    edges) :
    EgReq.size ⟨haddr, waddr, len, fmt, stream, queue, full, failf, done, tickets, share, bonus, credit, grants, waitN, lwait,
      fails, askAt, edges⟩ = queue.length := by
  simp only [EgReq.size]

@[simp] theorem EgReq.size_eta (q : EgReq) : q.queue.length = q.size := rfl

@[simp] theorem State.queues_mk (now freeCtr : Nat) (barges : Vector Barge 48) (basins : Vector Basin 12) (rv : Reservoir)
    (hms : Mem) (nvp : Vector NvpChan 4) (wharf : Wharf) (kp : Keeper) (pwm : Hrpwm) (weir : Weir) (fio : Fio) (tl : Towline)
    (crp : Crp) (hif : Hif) (ferry : Ferry) (fw : Firmware) (sec : Sec) (events : List W1cEvent) (pending : List Instr) :
    State.queues ⟨now, freeCtr, barges, basins, rv, hms, nvp, wharf, kp, pwm, weir, fio, tl, crp, hif, ferry, fw, sec, events,
      pending⟩ = ⟨barges.map Barge.queues, kp.log.length, ferry.eq.map EgReq.size, kp.groups.map KGroup.owner,
        kp.tasks.map KTask.binding⟩ := by
  simp only [State.queues]

@[simp] theorem State.queues_eta (s : State) : (⟨s.barges.map Barge.queues, s.kp.log.length, s.ferry.eq.map EgReq.size,
    s.kp.groups.map KGroup.owner, s.kp.tasks.map KTask.binding⟩ : Queues) = s.queues := rfl

@[simp] theorem State.queues_ite (c : Prop) [Decidable c] (s t : State) :
    (if c then s else t).queues = if c then s.queues else t.queues := apply_ite State.queues c s t

@[simp] theorem State.queues_dite (c : Prop) [Decidable c] (s : c → State) (t : ¬c → State) :
    (if h : c then s h else t h).queues = if h : c then (s h).queues else (t h).queues := apply_dite State.queues c s t

@[simp] theorem foldl_queues {α : Type} (f : State → α → State) (h : ∀ s a, (f s a).queues = s.queues) (l : List α) (s : State) :
    (l.foldl f s).queues = s.queues := by
  induction l generalizing s with
  | nil => rfl
  | cons a l ih => rw [List.foldl_cons, ih, h]

@[simp] theorem elim_queues {α : Type} (o : Option α) (s : State) (f : α → State) (h : ∀ a, (f a).queues = s.queues) :
    (o.elim s f).queues = s.queues := by
  cases o <;> simp [h]

theorem queues_of_some {s t : State} (h : t.queues = s.queues) : ∀ u ∈ some t, u.queues = s.queues := by simpa using h

theorem getD_queues (o : Option State) (s : State) (h : ∀ t ∈ o, t.queues = s.queues) : (o.getD s).queues = s.queues := by
  cases o with
  | none => rfl
  | some t => exact h t rfl

/-- A change of one element that keeps what `p` sees of it. -/
@[simp] theorem vmod_map {α β : Type} {n : Nat} (p : α → β) (v : Vector α n) (i : Fin n) (f : α → α) (h : ∀ x, p (f x) = p x) :
    (vmod v i f).map p = v.map p := by
  refine vget_ext fun j => ?_
  rw [vget_eq, vget_eq, Vector.getElem_map, Vector.getElem_map, ← vget_eq, ← vget_eq, vmod_get]
  split
  · exact h _
  · rfl

@[simp] theorem map_comp_same {α β : Type} {n : Nat} (p : α → β) (v : Vector α n) (f : α → α) (h : ∀ x, p (f x) = p x) :
    v.map (p ∘ f) = v.map p := congrArg (v.map ·) (funext h)

/-! ### Their bounds -/

/-- The output groups that a task's words name (R179 GROUPS). -/
def groupsOf (w : Vector Word 13) : List (Fin 64) :=
  ixs 64 fun r => if r.val < 32 then bit (w.get 11) r.val else bit (w.get 12) (r.val - 32)

/-- A barge's queues within their sizes (R64, R69, R155). -/
structure BargeQueues.Ok (b : BargeQueues) : Prop where
  stores : b.stores ≤ 4
  credits : b.credits ≤ 8
  dates : b.dates ≤ 4

/-- The XLU transactions of a basin (R69). -/
def basinCredits (v : Vector BargeQueues 48) (n : BasinIx) : Nat := ((List.finRange 4).map fun p => (v.get (bargeOf n p)).credits).sum

/-- Every owner of a group is an active task that names it (R192). -/
def OwnersActive (owners : Vector (Option (BitVec 8)) 64) (tasks : Vector (BitVec 2 × Vector Word 13) 256) : Prop :=
  ∀ r o, owners.get r = some o → (tasks.get o.toFin).1 = 1 ∧ r ∈ groupsOf (tasks.get o.toFin).2

/-- The queues within their sizes, and the groups with their owners. -/
structure Queues.Ok (q : Queues) : Prop where
  barges : ∀ g, (q.barges.get g).Ok
  basins : ∀ n, basinCredits q.barges n ≤ 32
  log : q.log ≤ 64
  egress : ∀ i, q.egress.get i ≤ 8
  owners : OwnersActive q.owners q.tasks

theorem vmap_get {α β : Type} {n : Nat} (v : Vector α n) (p : α → β) (i : Fin n) : (v.map p).get i = p (v.get i) := by
  rw [vget_eq, vget_eq, Vector.getElem_map]

theorem queuesBounded_iff (s : State) : QueuesBounded s ↔ s.queues.Ok := by
  constructor
  · rintro ⟨hb, hx, hl, he, ho⟩
    refine ⟨fun g => ?_, fun n => ?_, hl, fun i => ?_, fun r o h => ?_⟩
    · obtain ⟨h1, h2, h3⟩ := hb g
      simp only [State.queues, vmap_get]
      exact ⟨h1, h2, h3⟩
    · simp only [basinCredits, State.queues, vmap_get]
      exact hx n
    · simp only [State.queues, vmap_get]
      exact he i
    · simp only [State.queues, vmap_get] at h ⊢
      exact ho r o h
  · rintro ⟨hb, hx, hl, he, ho⟩
    simp only [basinCredits, OwnersActive, State.queues, vmap_get] at hb hx hl he ho
    exact ⟨fun g => ⟨(hb g).stores, (hb g).credits, (hb g).dates⟩, hx, hl, he, ho⟩

@[simp] theorem queuesOk_ite (c : Prop) [Decidable c] (a b : Queues) :
    (if c then a else b).Ok = if c then a.Ok else b.Ok := apply_ite Queues.Ok c a b

@[simp] theorem queuesOk_dite (c : Prop) [Decidable c] (a : c → Queues) (b : ¬c → Queues) :
    (if h : c then a h else b h).Ok = if h : c then (a h).Ok else (b h).Ok := apply_dite Queues.Ok c a b

theorem foldl_ok {α : Type} (f : State → α → State) (h : ∀ s a, s.queues.Ok → (f s a).queues.Ok) (l : List α) (s : State)
    (hs : s.queues.Ok) : (l.foldl f s).queues.Ok := by
  induction l generalizing s with
  | nil => exact hs
  | cons a l ih => exact ih _ (h s a hs)

theorem ok_of_some {t : State} (h : t.queues.Ok) : ∀ u ∈ some t, u.queues.Ok := by simpa using h

theorem getD_ok (o : Option State) (s : State) (hs : s.queues.Ok) (h : ∀ t ∈ o, t.queues.Ok) : (o.getD s).queues.Ok := by
  cases o with
  | none => exact hs
  | some t => exact h t rfl

/-- No queue of the one is longer than the other's. -/
structure BargeQueues.Within (a b : BargeQueues) : Prop where
  stores : a.stores ≤ b.stores
  credits : a.credits ≤ b.credits
  dates : a.dates ≤ b.dates

theorem BargeQueues.Within.ok {a b : BargeQueues} (h : a.Within b) (hb : b.Ok) : a.Ok :=
  ⟨h.stores.trans hb.stores, h.credits.trans hb.credits, h.dates.trans hb.dates⟩

/-- Barges whose queues have only shrunk. -/
theorem Queues.Ok.barges_within {q : Queues} (h : q.Ok) (v : Vector BargeQueues 48) (hv : ∀ g, (v.get g).Within (q.barges.get g)) :
    Queues.Ok { q with barges := v } :=
  ⟨fun g => (hv g).ok (h.barges g), fun n => (List.sum_le_sum fun p _ => (hv (bargeOf n p)).credits).trans (h.basins n), h.log,
    h.egress, h.owners⟩

theorem State.modBarge_ok (s : State) (g : BargeIx) (f : Barge → Barge) (h : s.queues.Ok)
    (hf : (f (s.barges.get g)).queues.Within (s.barges.get g).queues) : (s.modBarge g f).queues.Ok := by
  refine h.barges_within _ fun k => ?_
  simp only [State.queues, vmap_get, State.modBarge_barges, vmod_get]
  split
  · next e =>
    subst e
    exact hf
  · exact ⟨le_rfl, le_rfl, le_rfl⟩

/-- A change of one task's binding alone. -/
theorem State.modTask_binding (s : State) (t : Fin 256) (f : KTask → KTask) (k : BitVec 2 × Vector Word 13 → BitVec 2 × Vector Word 13)
    (h : ∀ x, (f x).binding = k x.binding) : (s.modTask t f).queues = { s.queues with tasks := vmod s.queues.tasks t k } := by
  have hmap : (vmod s.kp.tasks t f).map KTask.binding = vmod (s.kp.tasks.map KTask.binding) t k := by
    refine vget_ext fun j => ?_
    rw [vmap_get, vmod_get, vmod_get, vmap_get]
    split
    · exact h _
    · rfl
  simp only [State.modTask, State.queues_mk, hmap]
  rfl

/-- A change of the owners and of one task: what is left of the owners names other tasks. -/
theorem Queues.Ok.rebind {q : Queues} (h : q.Ok) (v : Vector (Option (BitVec 8)) 64) (t : Fin 256)
    (f : BitVec 2 × Vector Word 13 → BitVec 2 × Vector Word 13)
    (hv : ∀ r o, v.get r = some o → q.owners.get r = some o ∧ ¬(o.toFin = t ∧ r ∈ groupsOf (q.tasks.get t).2)) :
    Queues.Ok { q with owners := v, tasks := vmod q.tasks t f } := by
  refine ⟨h.barges, h.basins, h.log, h.egress, fun r o ho => ?_⟩
  obtain ⟨howned, hnot⟩ := hv r o ho
  obtain ⟨hact, hmem⟩ := h.owners r o howned
  have hne : o.toFin ≠ t := by
    rintro rfl
    exact hnot ⟨rfl, hmem⟩
  show ((vmod q.tasks t f).get o.toFin).1 = 1 ∧ r ∈ groupsOf ((vmod q.tasks t f).get o.toFin).2
  rw [vmod_get, if_neg hne]
  exact ⟨hact, hmem⟩

/-- A change of a task that is not active: it owns no group. -/
theorem Queues.Ok.retask {q : Queues} (h : q.Ok) (t : Fin 256) (f : BitVec 2 × Vector Word 13 → BitVec 2 × Vector Word 13)
    (ht : (q.tasks.get t).1 ≠ 1) : Queues.Ok { q with tasks := vmod q.tasks t f } := by
  refine h.rebind q.owners t f fun r o ho => ⟨ho, ?_⟩
  rintro ⟨rfl, -⟩
  exact ht (h.owners r o ho).1

end Sys2Proof.Machine
end

section
/-! What the operations on the state, a barge's entries and the field blocks leave of the queues: `f_queues` where a function leaves them as
they are, `f_ok` where it keeps their bounds. -/

namespace Sys2Proof.Machine

/-! ### What the operations of a barge leave of its queues -/

@[simp] theorem Barge.setBank_queues (b : Barge) (w : Bool) (r : WorldRegs) : (b.setBank w r).queues = b.queues := by
  cases w <;> rfl

@[simp] theorem Barge.setCtl_queues (b : Barge) (w : Bool) (c : WorldCtl) : (b.setCtl w c).queues = b.queues := by
  cases w <;> rfl

@[simp] theorem Barge.setFp_queues (b : Barge) (w sup : Bool) (v : BitVec 20) : (b.setFp w sup v).queues = b.queues := by
  simp [Barge.setFp]

@[simp] theorem Barge.enterLine_queues (b : Barge) (h : HeldLine) : (b.enterLine h).queues = b.queues := by
  unfold Barge.enterLine
  split
  · split <;> simp
  · simp

@[simp] theorem Barge.setting_queues (b : Barge) (kv : SyKey × Word) : (b.setting kv).queues = b.queues := by
  unfold Barge.setting
  split <;> simp

@[simp] theorem Barge.settings_queues (l : List (SyKey × Word)) (b : Barge) : (l.foldl Barge.setting b).queues = b.queues := by
  induction l generalizing b with
  | nil => rfl
  | cons kv l ih => rw [List.foldl_cons, ih, Barge.setting_queues]

@[simp] theorem Barge.restore_queues (b : Barge) (ws : List Word) : (b.restore ws).queues = b.queues := by
  simp [Barge.restore]

@[simp] theorem Barge.resumeRpt_queues (b : Barge) (pc : Option (BitVec 14)) (c : Nat) : (b.resumeRpt pc c).queues = b.queues := by
  unfold Barge.resumeRpt
  split <;> simp

@[simp] theorem Barge.from_queues (b : Barge) (c : Nat) : (b.from c).queues = b.queues := by simp [Barge.from]
@[simp] theorem Barge.stall_queues (b : Barge) (clk : Nat) : (b.stall clk).queues = b.queues := by simp [Barge.stall]
@[simp] theorem Barge.unstall_queues (b : Barge) (clk : Nat) : (b.unstall clk).queues = b.queues := by simp [Barge.unstall]
@[simp] theorem Barge.captured_queues (b : Barge) : b.captured.queues = b.queues := by simp [Barge.captured]
@[simp] theorem Barge.deliver_queues (b : Barge) (f : Flight) : (b.deliver f).queues = b.queues := by simp [Barge.deliver]

@[simp] theorem Barge.delivers_queues (l : List Flight) (b : Barge) : (l.foldl Barge.deliver b).queues = b.queues := by
  induction l generalizing b with
  | nil => rfl
  | cons f l ih => rw [List.foldl_cons, ih, Barge.deliver_queues]

@[simp] theorem Barge.deliverDue_queues (b : Barge) (split : Bool) : (b.deliverDue split).2.queues = b.queues := by
  simp [Barge.deliverDue]

@[simp] theorem Barge.deliverAll_queues (b : Barge) : b.deliverAll.queues = b.queues := by simp [Barge.deliverAll]

/-- An entry takes at most one date from its queue (R155). -/
theorem Sig.atEntry_queue_le (x : Sig) (n : Fin 64) : (x.atEntry n).queue.length ≤ x.queue.length := by
  unfold Sig.atEntry
  split
  · split
    · next h => simp [h]
    · exact le_rfl
  · split
    · split <;> exact le_rfl
    · exact le_rfl

/-! ### The functions of Machine/Ops -/

@[simp] theorem State.elapse_queues (s : State) (dt : Nat) :
    (State.elapse s dt).queues = s.queues := by
  simp [State.elapse]

@[simp] theorem gated_queues (c : State → Bool) (f : State → State) (s : State) (h : (f s).queues = s.queues) :
    (gated c f s).queues = s.queues := by
  simp [gated, h]

theorem State.modBarge_queues_at (s : State) (g : BargeIx) (f : Barge → Barge)
    (h : (f (s.barges.get g)).queues = (s.barges.get g).queues) : (s.modBarge g f).queues = s.queues := by
  have hmap : (vmod s.barges g f).map Barge.queues = s.barges.map Barge.queues := by
    refine vget_ext fun k => ?_
    rw [vmap_get, vmap_get, vmod_get]
    split
    · next e => rw [e, h]
    · rfl
  simp only [State.modBarge, State.queues_mk, hmap, State.queues_eta]

@[simp] theorem State.modBarge_queues (s : State) (g : BargeIx) (f : Barge → Barge) (h : ∀ b, (f b).queues = b.queues) :
    (s.modBarge g f).queues = s.queues :=
  s.modBarge_queues_at g f (h _)

/-- A barge is put in the place of one with the same queues. -/
@[simp] theorem State.putBarge_queues (s : State) (g : BargeIx) (b : Barge) (h : b.queues = (s.barges.get g).queues) :
    (s.modBarge g fun _ => b).queues = s.queues :=
  s.modBarge_queues_at g _ h

@[simp] theorem State.modBasin_queues (s : State) (n : BasinIx) (f : Basin → Basin) : (s.modBasin n f).queues = s.queues := by
  simp [State.modBasin]

@[simp] theorem State.modBank_queues (s : State) (n : BasinIx) (b : BankIx) (f : Bank → Bank) :
    (s.modBank n b f).queues = s.queues := by
  simp [State.modBank]

@[simp] theorem State.modCode_queues (s : State) (n : BasinIx) (k : Fin 4) (f : CodeBank → CodeBank) :
    (s.modCode n k f).queues = s.queues := by
  simp [State.modCode]

@[simp] theorem State.modTask_queues (s : State) (t : Fin 256) (f : KTask → KTask) (h : ∀ x, (f x).binding = x.binding) :
    (State.modTask s t f).queues = s.queues := by
  simp only [State.modTask, State.queues_mk, vmod_map KTask.binding _ _ _ h, State.queues_eta]

@[simp] theorem State.modGroup_queues (s : State) (r : Fin 64) (f : KGroup → KGroup) (h : ∀ x, (f x).owner = x.owner) :
    (State.modGroup s r f).queues = s.queues := by
  simp [State.modGroup, h]

@[simp] theorem State.modPwm_queues (s : State) (n : Fin 192) (f : PwmChan → PwmChan) :
    (State.modPwm s n f).queues = s.queues := by
  simp [State.modPwm]

@[simp] theorem State.modTb_queues (s : State) (m : Fin 16) (f : Timebase → Timebase) :
    (State.modTb s m f).queues = s.queues := by
  simp [State.modTb]

@[simp] theorem State.modTz_queues (s : State) (z : Fin 32) (f : TripZone → TripZone) :
    (State.modTz s z f).queues = s.queues := by
  simp [State.modTz]

@[simp] theorem State.modWeir_queues (s : State) (n : Fin 384) (f : WeirChan → WeirChan) :
    (State.modWeir s n f).queues = s.queues := by
  simp [State.modWeir]

@[simp] theorem State.modWeirGroup_queues (s : State) (g : Fin 48) (f : WeirGroup → WeirGroup) :
    (State.modWeirGroup s g f).queues = s.queues := by
  simp [State.modWeirGroup]

@[simp] theorem State.modFi_queues (s : State) (n : Fin 128) (f : FieldIn → FieldIn) :
    (State.modFi s n f).queues = s.queues := by
  simp [State.modFi]

@[simp] theorem State.modFo_queues (s : State) (n : Fin 128) (f : FieldOut → FieldOut) :
    (State.modFo s n f).queues = s.queues := by
  simp [State.modFo]

@[simp] theorem State.modLink_queues (s : State) (l : Fin 16) (f : Link → Link) :
    (State.modLink s l f).queues = s.queues := by
  simp [State.modLink]

@[simp] theorem State.modBpwr_queues (s : State) (n : BasinIx) (f : Bpwr → Bpwr) :
    (State.modBpwr s n f).queues = s.queues := by
  simp [State.modBpwr]

@[simp] theorem State.free_queues (s : State) :
    (State.free s).queues = s.queues := by
  simp [State.free]

@[simp] theorem State.msix_queues (s : State) (v : Fin 64) :
    (State.msix s v).queues = s.queues := by
  simp [State.msix]

@[simp] theorem watchReady_queues (f : State → State) (s : State) : (watchReady f s).queues = (f s).queues := by
  simp [watchReady]

@[simp] theorem State.mark_queues (r : W1cReg) (i : Nat) (s : State) :
    (State.mark r i s).queues = s.queues := by
  simp [State.mark]

/-! ### The functions of Machine/Memory -/

@[simp] theorem State.pend_queues (s : State) (g : BargeIx) (n : Fin 64) :
    (State.pend s g n).queues = s.queues := by
  simp [State.pend]

@[simp] theorem State.pendBasin_queues (s : State) (n : BasinIx) (src : Fin 64) :
    (State.pendBasin s n src).queues = s.queues := by
  simp [State.pendBasin]

@[simp] theorem State.bump_queues (s : State) (kind i : Nat) :
    (State.bump s kind i).queues = s.queues := by
  simp [State.bump]

@[simp] theorem State.notify_queues (s : State) (x : FwNotice) :
    (State.notify s x).queues = s.queues := by
  simp [State.notify]

@[simp] theorem State.reportRetired_queues (s : State) (kind index : Nat) (cause : BitVec 8) (vital : Bool) :
    (State.reportRetired s kind index cause vital).queues = s.queues := by
  simp [State.reportRetired]

@[simp] theorem noteErrorIn_queues (n : BasinIx) (src : Nat) (m : Mem) (s : State) (i : Nat) :
    (noteErrorIn n src m s i).queues = s.queues := by
  simp [noteErrorIn]

@[simp] theorem noteErrorsIn_queues (n : BasinIx) (src : Nat) (m : Mem) (s : State) (words : List Nat) :
    (noteErrorsIn n src m s words).queues = s.queues := by
  simp [noteErrorsIn]

@[simp] theorem noteErrors_queues (n : BasinIx) (src : Nat) (s : State) (words : List Nat) :
    (noteErrors n src s words).queues = s.queues := by
  simp [noteErrors]

@[simp] theorem noteRvError_queues (s : State) (w : Nat) :
    (noteRvError s w).queues = s.queues := by
  simp [noteRvError]

@[simp] theorem rvWriteNonets_queues (ws : List (Nat × Nonet)) (s : State) : (rvWriteNonets ws s).queues = s.queues := by
  simp [rvWriteNonets]

@[simp] theorem askBank_queues (s : State) (n : BasinIx) (b : BankIx) (who : Fin 6) (rivals : List Rival) :
    (askBank s n b who rivals).2.queues = s.queues := by
  simp [askBank]

@[simp] theorem askPortB_queues (s : State) (n : BasinIx) (b : BankIx) (who : PortB) :
    (askPortB s n b who).2.queues = s.queues := by
  unfold askPortB
  dsimp only
  repeat' split
  all_goals simp

/-! ### The functions of Machine/BargeOps -/

@[simp] theorem latchSig_queues (g : BargeIx) (s : State) :
    (latchSig g s).queues = s.queues := by
  simp [latchSig]

@[simp] theorem State.linkSend_queues (g : BargeIx) (m : SealMsg) (s : State) :
    (State.linkSend g m s).queues = s.queues := by
  simp [State.linkSend]

@[simp] theorem departSeal_queues (g : BargeIx) (s : State) :
    (departSeal g s).queues = s.queues := by
  unfold departSeal
  split <;> simp

@[simp] theorem requestHalt_queues (g : BargeIx) (cause : BitVec 3) (hit : BitVec 3) (s : State) :
    (requestHalt g cause hit s).queues = s.queues := by
  simp [requestHalt]

@[simp] theorem bpHit_queues (g : BargeIx) (mode : Nat) (p : BitVec 14 → Bool) (s : State) (j : Fin 8) :
    (bpHit g mode p s j).queues = s.queues := by
  unfold bpHit
  dsimp only
  repeat' split
  all_goals simp

@[simp] theorem bpHits_queues (g : BargeIx) (mode : Nat) (p : BitVec 14 → Bool) (s : State) :
    (bpHits g mode p s).queues = s.queues := by
  simp [bpHits]

@[simp] theorem traceWord_queues (g : BargeIx) (kind : Nat) (s : State) :
    (traceWord g kind s).queues = s.queues := by
  simp [traceWord]

@[simp] theorem kickWay_queues (n : BasinIx) (k : Fin 4) (s : State) (w : Fin 4) :
    (kickWay n k s w).queues = s.queues := by
  unfold kickWay
  split <;> simp

@[simp] theorem kickBank_queues (n : BasinIx) (k : Fin 4) (s : State) :
    (kickBank n k s).queues = s.queues := by
  simp [kickBank]

@[simp] theorem kickBasin_queues (n : BasinIx) (s : State) :
    (kickBasin n s).queues = s.queues := by
  simp [kickBasin]

@[simp] theorem demandLine_queues (g : BargeIx) (l : BitVec 12) (s : State) :
    (demandLine g l s).queues = s.queues := by
  simp [demandLine]

@[simp] theorem readAhead_queues (g : BargeIx) (want : CodeBank → List (BitVec 12)) (s : State) :
    (readAhead g want s).queues = s.queues := by
  simp [readAhead]

@[simp] theorem prefetch_queues (g : BargeIx) (l : BitVec 12) (s : State) :
    (prefetch g l s).queues = s.queues := by
  simp [prefetch]

@[simp] theorem cancelReads_queues (g : BargeIx) (s : State) :
    (cancelReads g s).queues = s.queues := by
  simp [cancelReads]

@[simp] theorem flush_queues (g : BargeIx) (s : State) :
    (flush g s).queues = s.queues := by
  simp [flush]

@[simp] theorem deliverLine_queues (g : BargeIx) (demand : Bool) (h : HeldLine) (s : State) :
    (deliverLine g demand h s).queues = s.queues := by
  simp [deliverLine]

@[simp] theorem State.dropTx_queues (init : Fin 16) (ids : BitVec 5 → Bool) (s : State) : (s.dropTx init ids).queues = s.queues := by
  simp [State.dropTx]

@[simp] theorem dropXlu_queues (g : BargeIx) (s : State) :
    (dropXlu g s).queues = s.queues := by
  simp [dropXlu]

@[simp] theorem resetBarge_ok (g : BargeIx) (info : Word) (s : State) (h : s.queues.Ok) : (resetBarge g info s).queues.Ok := by
  unfold resetBarge
  simp only [State.queues_mk, State.queues_eta]
  exact State.modBarge_ok _ _ _ (by simpa using h) ⟨Nat.zero_le _, Nat.zero_le _, Nat.zero_le _⟩

/-! ### The functions of Machine/Entry -/

@[simp] theorem beginHandover_queues (n : BasinIx) (b : BankIx) (value : BitVec 7) (writer : Option (Fin 4)) (s : State) :
    (beginHandover n b value writer s).queues = s.queues := by
  simp [beginHandover]

@[simp] theorem runWaiting_queues (n : BasinIx) (b : BankIx) (l : List WaitingHo) (s : State) :
    (runWaiting n b l s).queues = s.queues := by
  induction l generalizing s with
  | nil => simp [runWaiting]
  | cons w rest ih =>
    unfold runWaiting
    dsimp only
    split
    · simp
    · split
      · simp [ih]
      · split <;> simp [ih]

@[simp] theorem handover_queues (n : BasinIx) (b : BankIx) (value : BitVec 7) (writer : Option (Fin 4)) (world : Bool) (s : State) :
    (handover n b value writer world s).queues = s.queues := by
  unfold handover
  dsimp only
  rw [runWaiting_queues, foldl_queues, State.modBank_queues]
  intro s w
  cases w.writer <;> simp

@[simp] theorem completeHandover_queues (n : BasinIx) (b : BankIx) (s : State) : (completeHandover n b s).queues = s.queues := by
  unfold completeHandover
  split
  · next h _ =>
    split
    · rw [runWaiting_queues]
      cases h.writer <;> simp
    · rfl
  · rfl

@[simp] theorem basinSetting_queues (g : BargeIx) (s : State) (kv : SyKey × Word) :
    (basinSetting g s kv).queues = s.queues := by
  unfold basinSetting
  split <;> simp

@[simp] theorem applySync_queues (g : BargeIx) (s : State) :
    (applySync g s).queues = s.queues := by
  simp [applySync]

@[simp] theorem reportFault_queues (g : BargeIx) (vital : Bool) (cause : BitVec 8) (pc : BitVec 14) (s : State) :
    (reportFault g vital cause pc s).queues = s.queues := by
  simp [reportFault]

@[simp] theorem escalate_ok (g : BargeIx) (code : BitVec 8) (pc : BitVec 14) (world : Bool) (orig : BitVec 8) (s : State) (h : s.queues.Ok) :
    (escalate g code pc world orig s).queues.Ok := by
  simp [h, escalate]

@[simp] theorem doubleFault_ok (g : BargeIx) (e : EntryRec) (dfa : Bool) (code : BitVec 8) (addr : Word) (next : Nat) (s : State) (h : s.queues.Ok) :
    (doubleFault g e dfa code addr next s).queues.Ok := by
  simp [h, doubleFault]

@[simp] theorem enter_ok (g : BargeIx) (x : EntryFor) (s : State) (h : s.queues.Ok) :
    (enter g x s).queues.Ok := by
  simp [h, enter]

@[simp] theorem frameFails_ok (g : BargeIx) (e : EntryRec) (code : BitVec 8) (addr : Word) (s : State) (h : s.queues.Ok) :
    (frameFails g e code addr s).queues.Ok := by
  simp [h, frameFails]

@[simp] theorem frameStep_ok (g : BargeIx) (rivals : List Rival) (s : State) (h : s.queues.Ok) :
    (frameStep g rivals s).queues.Ok := by
  unfold frameStep
  dsimp only
  repeat' split
  all_goals simp [h]

@[simp] theorem takeFault_ok (g : BargeIx) (world : Bool) (cause : BitVec 8) (faddr : Word) (pc : BitVec 14) (irun : Nat) (s : State) (h : s.queues.Ok) :
    (takeFault g world cause faddr pc irun s).queues.Ok := by
  unfold takeFault
  dsimp only
  split <;> simp [h]

@[simp] theorem vectorFault_ok (g : BargeIx) (e : EntryRec) (s : State) (h : s.queues.Ok) :
    (vectorFault g e s).queues.Ok := by
  simp [h, vectorFault]

@[simp] theorem enterInterrupt_ok (g : BargeIx) (n : Fin 64) (s : State) (h : s.queues.Ok) :
    (enterInterrupt g n s).queues.Ok := by
  unfold enterInterrupt
  dsimp only
  rw [latchSig_queues]
  refine enter_ok _ _ _ (s.modBarge_ok g _ h ?_)
  have hq := Barge.setCtl_queues (s.barges.get g) ((s.barges.get g).intc.get n).world
    { (s.barges.get g).ctl ((s.barges.get g).intc.get n).world with last := some (BitVec.ofNat 6 n.val) }
  simp only [Barge.queues, BargeQueues.mk.injEq] at hq ⊢
  obtain ⟨hst, hcr, hda⟩ := hq
  exact ⟨hst.le, hcr.le, (Sig.atEntry_queue_le _ n).trans hda.le⟩

@[simp] theorem noteReturnRead_queues (g : BargeIx) (cause : BitVec 8) (faddr : Word) (s : State) :
    (noteReturnRead g cause faddr s).queues = s.queues := by
  simp [noteReturnRead]

@[simp] theorem returnFails_ok (g : BargeIx) (r : RfeRun) (faddr : Word) (s : State) (h : s.queues.Ok) :
    (returnFails g r faddr s).queues.Ok := by
  simp [h, returnFails]

@[simp] theorem rfeSync_ok (g : BargeIx) (s : State) (h : s.queues.Ok) :
    (rfeSync g s).queues.Ok := by
  unfold rfeSync
  dsimp only
  repeat' split
  all_goals simp [h]

@[simp] theorem rfeReturn_ok (g : BargeIx) (r : RfeRun) (a : Nat) (ws : List Word) (s : State) (h : s.queues.Ok) :
    (rfeReturn g r a ws s).queues.Ok := by
  simp [h, rfeReturn]

@[simp] theorem rfeStep_ok (g : BargeIx) (rivals : List Rival) (s : State) (h : s.queues.Ok) :
    (rfeStep g rivals s).queues.Ok := by
  unfold rfeStep
  dsimp only
  repeat' split
  all_goals simp [h]

@[simp] theorem gateDelivery_ok (g : BargeIx) (h : GateHold) (k : State → State) (s : State) (hs : s.queues.Ok)
    (hk : (k s).queues.Ok) : (gateDelivery g h k s).queues.Ok := by
  unfold gateDelivery
  dsimp only
  split <;> simp [hk, hs]

@[simp] theorem gateFails_ok (g : BargeIx) (h : GateHold) (s : State) (hs : s.queues.Ok) : (gateFails g h s).queues.Ok := by
  simp [hs, gateFails]

@[simp] theorem passGate_ok (g : BargeIx) (h : GateHold) (s : State) (hs : s.queues.Ok) : (passGate g h s).queues.Ok := by
  simp [hs, passGate]

@[simp] theorem passGateReturn_ok (g : BargeIx) (h : GateHold) (s : State) (hs : s.queues.Ok) :
    (passGateReturn g h s).queues.Ok := by
  simp [hs, passGateReturn]

@[simp] theorem readGate_ok (g : BargeIx) (h : GateHold) (s : State) (hs : s.queues.Ok) : (readGate g h s).queues.Ok := by
  simp [hs, readGate]

/-! ### The functions of Machine/Waveform -/

@[simp] theorem pwmRecord_queues (n : Fin 192) (p : Drive × Nat) (s : State) :
    (pwmRecord n p s).queues = s.queues := by
  simp [pwmRecord]

@[simp] theorem pwmWatch_queues (n : Fin 192) (f : State → State) (s : State) : (pwmWatch n f s).queues = (f s).queues := by
  simp [pwmWatch]

@[simp] theorem pwmEvent_queues (n : Fin 192) (s : State) :
    (pwmEvent n s).queues = s.queues := by
  unfold pwmEvent
  dsimp only
  repeat' split
  all_goals simp

@[simp] theorem pwmTripOne_queues (n : Fin 192) (s : State) :
    (pwmTripOne n s).queues = s.queues := by
  simp [pwmTripOne]

@[simp] theorem tripZoneEval_queues (z : Fin 32) (s : State) :
    (tripZoneEval z s).queues = s.queues := by
  simp [tripZoneEval]

@[simp] theorem followZones_queues (s : State) :
    (followZones s).queues = s.queues := by
  simp [followZones]

@[simp] theorem watchTrips_queues (f : State → State) (s : State) (h : ∀ s, (f s).queues = s.queues) : (watchTrips f s).queues = s.queues := by
  simp [watchTrips, h]

theorem watchTrips_ok (f : State → State) (s : State) (h : ∀ s, s.queues.Ok → (f s).queues.Ok) (hs : s.queues.Ok) :
    (watchTrips f s).queues.Ok := by
  simpa [watchTrips] using h _ (by simpa using hs)

@[simp] theorem pwmTripClear_queues (n : Fin 192) (s : State) :
    (pwmTripClear n s).queues = s.queues := by
  simp [pwmTripClear]

/-! ### The functions of Machine/Weir -/

@[simp] theorem mapFresh_queues (n : Fin 384) (f : Record → Record) (s : State) :
    (mapFresh n f s).queues = s.queues := by
  simp [mapFresh]

@[simp] theorem weirRetire_queues (n : Fin 384) (cause : Nat) (s : State) :
    (weirRetire n cause s).queues = s.queues := by
  simp [weirRetire]

@[simp] theorem countSample_queues (n : Fin 384) (bad : Bool) (s : State) :
    (countSample n bad s).queues = s.queues := by
  simp [countSample]

@[simp] theorem weirSample_queues (n : Fin 384) (glitched : Bool) (ws : List Word) (ff : Bool) (s : State) :
    (weirSample n glitched ws ff s).queues = s.queues := by
  simp [weirSample]

@[simp] theorem mainSample_queues (n : Fin 384) (bits : List (Bool × Bool)) (upset : Bool) (s : State) :
    (mainSample n bits upset s).queues = s.queues := by
  simp [mainSample]

@[simp] theorem demodSample_queues (n : Fin 384) (upset : Bool) (s : State) :
    (demodSample n upset s).queues = s.queues := by
  simp [demodSample]

@[simp] theorem fastStep_queues (n : Fin 384) (bits : List Bool) (s : State) :
    (fastStep n bits s).queues = s.queues := by
  simp [fastStep]

@[simp] theorem portBWrite_queues (n : BasinIx) (ws : List (Nat × Nonet)) (s : State) : (portBWrite n ws s).queues = s.queues := by
  simp [portBWrite]

@[simp] theorem acceptRecord_queues (n : Fin 384) (s : State) :
    (acceptRecord n s).queues = s.queues := by
  unfold acceptRecord
  dsimp only
  split <;> simp

@[simp] theorem weirEvent_queues (c : WeirChan) (b : BasinIx) (s : State) :
    (weirEvent c b s).queues = s.queues := by
  simp [weirEvent]

@[simp] theorem writeWeirRecord_queues (b : BasinIx) (r : Record) (s : State) :
    (writeWeirRecord b r s).queues = s.queues := by
  simp [writeWeirRecord]

@[simp] theorem weirFreezeOne_queues (n : Fin 384) (s : State) :
    (weirFreezeOne n s).queues = s.queues := by
  simp [weirFreezeOne]

@[simp] theorem weirFreezeAll_queues (t : BitVec 8) (s : State) :
    (weirFreezeAll t s).queues = s.queues := by
  simp [weirFreezeAll]

@[simp] theorem writeHeader_queues (n : Fin 384) (s : State) :
    (writeHeader n s).queues = s.queues := by
  unfold writeHeader
  split <;> simp

@[simp] theorem weirRefuse_queues (n : Fin 384) (s : State) :
    (weirRefuse n s).queues = s.queues := by
  simp [weirRefuse]

@[simp] theorem weirSetEnable_queues (n : Fin 384) (en : Bool) (s : State) :
    (weirSetEnable n en s).queues = s.queues := by
  simp [weirSetEnable]

@[simp] theorem eachMember_queues (g : Fin 48) (f : Fin 384 → State → State) (s : State) (h : ∀ n s, (f n s).queues = s.queues) :
    (eachMember g f s).queues = s.queues := by
  simp [eachMember, h]

@[simp] theorem weirSetGroup_queues (g : Fin 48) (en : Bool) (s : State) :
    (weirSetGroup g en s).queues = s.queues := by
  simp [weirSetGroup]

@[simp] theorem weirGroupReset_queues (g : Fin 48) (s : State) :
    (weirGroupReset g s).queues = s.queues := by
  simp [weirGroupReset]

@[simp] theorem weirClockLoss_queues (g : Fin 48) (s : State) :
    (weirClockLoss g s).queues = s.queues := by
  simp [weirClockLoss]

@[simp] theorem weirStuck_queues (n : Fin 384) (bits : List Bool) (s : State) :
    (weirStuck n bits s).queues = s.queues := by
  simp [weirStuck]

@[simp] theorem weirWriteChan_queues (n : Fin 384) (k : Nat) (v : Word) (s : State) :
    (weirWriteChan n k v s).queues = s.queues := by
  simp [weirWriteChan]

@[simp] theorem weirWriteGroup_queues (g : Fin 48) (v : Word) (s : State) :
    (weirWriteGroup g v s).queues = s.queues := by
  simp [weirWriteGroup]

theorem weirWrite_queues (off : Nat) (v : Word) (s : State) :
    ∀ t ∈ weirWrite off v s, t.queues = s.queues := by
  unfold weirWrite
  repeat' (first | extract_lets | split | refine queues_of_some ?_)
  all_goals simp +zetaDelta

/-! ### The functions of Machine/Hrpwm -/

@[simp] theorem pwmRetire_queues (n : Fin 192) (cause : Nat) (s : State) :
    (pwmRetire n cause s).queues = s.queues := by
  simp [pwmRetire]

@[simp] theorem pwmRefuse_queues (n : Fin 192) (s : State) :
    (pwmRefuse n s).queues = s.queues := by
  simp [pwmRefuse]

@[simp] theorem pwmOutOfRange_queues (n : Fin 192) (s : State) :
    (pwmOutOfRange n s).queues = s.queues := by
  simp [pwmOutOfRange]

@[simp] theorem pwmStage_queues (n : Fin 192) (src : StgWriter) (v : Word) (s : State) :
    (pwmStage n src v s).queues = s.queues := by
  unfold pwmStage
  split <;> simp

@[simp] theorem pwmReleaseOne_queues (since : Nat) (n : Fin 192) (s : State) :
    (pwmReleaseOne since n s).queues = s.queues := by
  simp [pwmReleaseOne]

@[simp] theorem pwmCommitOne_queues (d : BitVec 32) (a : Bool) (since : Nat) (disagree : List (Fin 192)) (n : Fin 192) (s : State) :
    (pwmCommitOne d a since disagree n s).queues = s.queues := by
  unfold pwmCommitOne
  dsimp only
  repeat' split
  all_goals simp

@[simp] theorem pwmCommit_queues (g : BitVec 6) (d : BitVec 32) (a : Bool) (since : Nat) (disagree : List (Fin 192)) (s : State) :
    (pwmCommit g d a since disagree s).queues = s.queues := by
  simp [pwmCommit]

@[simp] theorem pwmDiscard_queues (g : BitVec 6) (gen : Option (BitVec 32 × Bool)) (s : State) :
    (pwmDiscard g gen s).queues = s.queues := by
  simp [pwmDiscard]

@[simp] theorem pwmSafe_queues (g : Option (BitVec 6)) (s : State) :
    (pwmSafe g s).queues = s.queues := by
  simp [pwmSafe]

@[simp] theorem boundaryAt_queues (m : Fin 16) (b : Nat) (s : State) :
    (boundaryAt m b s).queues = s.queues := by
  simp [boundaryAt]

@[simp] theorem atBoundary_queues (m : Fin 16) (s : State) :
    (atBoundary m s).queues = s.queues := by
  unfold atBoundary
  dsimp only
  split <;> simp

@[simp] theorem zxExpire_queues (m : Fin 16) (s : State) :
    (zxExpire m s).queues = s.queues := by
  unfold zxExpire
  dsimp only
  split <;> simp

@[simp] theorem zeroCross_queues (n : Nat) (s : State) :
    (zeroCross n s).queues = s.queues := by
  simp [zeroCross]

@[simp] theorem tbRefuse_queues (m : Fin 16) (s : State) :
    (tbRefuse m s).queues = s.queues := by
  simp [tbRefuse]

@[simp] theorem tbSetEnable_queues (m : Fin 16) (en : Bool) (s : State) :
    (tbSetEnable m en s).queues = s.queues := by
  simp [tbSetEnable]

@[simp] theorem pwmSetEnable_queues (n : Fin 192) (en : Bool) (s : State) :
    (pwmSetEnable n en s).queues = s.queues := by
  simp [pwmSetEnable]

@[simp] theorem pwmReset_queues (n : Fin 192) (s : State) :
    (pwmReset n s).queues = s.queues := by
  simp [pwmReset]

@[simp] theorem pwmCompare_queues (n : Fin 192) (driven level : Bool) (s : State) :
    (pwmCompare n driven level s).queues = s.queues := by
  simp [pwmCompare]

@[simp] theorem pwmReadback_queues (n : Fin 192) (level : Bool) (s : State) :
    (pwmReadback n level s).queues = s.queues := by
  unfold pwmReadback
  split <;> simp

@[simp] theorem pwmWriteCfg_queues (n : Fin 192) (v : Word) (s : State) :
    (pwmWriteCfg n v s).queues = s.queues := by
  simp [pwmWriteCfg]

theorem pwmWriteChan_queues (n : Fin 192) (k : Nat) (v : Word) (s : State) :
    ∀ t ∈ pwmWriteChan n k v s, t.queues = s.queues := by
  unfold pwmWriteChan
  repeat' (first | extract_lets | split | refine queues_of_some ?_)
  all_goals simp +zetaDelta

@[simp] theorem tbWrite_queues (m : Fin 16) (k : Nat) (v : Word) (s : State) :
    (tbWrite m k v s).queues = s.queues := by
  unfold tbWrite
  split <;> simp

@[simp] theorem tzStore_queues (z : Fin 32) (k : Nat) (v : Word) (s : State) :
    (tzStore z k v s).queues = s.queues := by
  unfold tzStore
  split <;> simp

@[simp] theorem tzWrite_queues (z : Fin 32) (k : Nat) (v : Word) (s : State) :
    (tzWrite z k v s).queues = s.queues := by
  simp [tzWrite]

@[simp] theorem pwmSetRes_queues (v : Bool) (s : State) :
    (pwmSetRes v s).queues = s.queues := by
  simp [pwmSetRes]

theorem pwmWrite_queues (off : Nat) (v : Word) (s : State) : ∀ t ∈ pwmWrite off v s, t.queues = s.queues := by
  unfold pwmWrite
  split
  · simp
  · split
    · simp
    · split
      · simp
      · split
        · simp
        · split
          · exact pwmWriteChan_queues _ _ _ _
          · simp

/-! ### The functions of Machine/FieldIo -/

@[simp] theorem fiEvent_queues (n : Fin 128) (s : State) :
    (fiEvent n s).queues = s.queues := by
  unfold fiEvent
  dsimp only
  repeat' split
  all_goals simp

@[simp] theorem fiPairWatch_queues (n : Fin 128) (s : State) :
    (fiPairWatch n s).queues = s.queues := by
  simp [fiPairWatch]

@[simp] theorem fiChange_queues (n : Fin 128) (f : FieldIn → FieldIn) (s : State) :
    (fiChange n f s).queues = s.queues := by
  simp [fiChange]

@[simp] theorem fiAcceptLevel_queues (n : Fin 128) (s : State) :
    (fiAcceptLevel n s).queues = s.queues := by
  simp [fiAcceptLevel]

@[simp] theorem fiRaw_queues (n : Fin 128) (pad : Bool) (s : State) :
    (fiRaw n pad s).queues = s.queues := by
  simp [fiRaw]

@[simp] theorem fiFreezeAll_queues (t : BitVec 8) (s : State) :
    (fiFreezeAll t s).queues = s.queues := by
  simp [fiFreezeAll]

@[simp] theorem fiRetire_queues (n : Fin 128) (cause : Nat) (s : State) :
    (fiRetire n cause s).queues = s.queues := by
  simp [fiRetire]

@[simp] theorem fiDiscrepancy_queues (m : Fin 64) (s : State) :
    (fiDiscrepancy m s).queues = s.queues := by
  unfold fiDiscrepancy
  dsimp only
  split <;> simp

@[simp] theorem fiReset_queues (n : Fin 128) (s : State) :
    (fiReset n s).queues = s.queues := by
  simp [fiReset]

@[simp] theorem fiRefuse_queues (n : Fin 128) (s : State) :
    (fiRefuse n s).queues = s.queues := by
  simp [fiRefuse]

@[simp] theorem fiSetEnable_queues (n : Fin 128) (en : Bool) (s : State) :
    (fiSetEnable n en s).queues = s.queues := by
  simp [fiSetEnable]

@[simp] theorem foWatch_queues (n : Fin 128) (f : State → State) (s : State) : (foWatch n f s).queues = (f s).queues := by
  simp [foWatch]

@[simp] theorem foChange_queues (n : Fin 128) (f : FieldOut → FieldOut) (s : State) :
    (foChange n f s).queues = s.queues := by
  simp [foChange]

@[simp] theorem foRetire_queues (n : Fin 128) (cause : Nat) (s : State) :
    (foRetire n cause s).queues = s.queues := by
  simp [foRetire]

@[simp] theorem foApply_queues (n : Fin 128) (x : Bool) (s : State) :
    (foApply n x s).queues = s.queues := by
  simp [foApply]

@[simp] theorem foRefuse_queues (n : Fin 128) (s : State) :
    (foRefuse n s).queues = s.queues := by
  simp [foRefuse]

@[simp] theorem foStage_queues (n : Fin 128) (src : StgWriter) (v : Word) (s : State) :
    (foStage n src v s).queues = s.queues := by
  unfold foStage
  split <;> simp

@[simp] theorem foReleaseOne_queues (n : Fin 128) (s : State) :
    (foReleaseOne n s).queues = s.queues := by
  unfold foReleaseOne
  dsimp only
  split <;> simp

@[simp] theorem foCommitOne_queues (d : BitVec 32) (a : Bool) (disagree : List (Fin 128)) (n : Fin 128) (s : State) :
    (foCommitOne d a disagree n s).queues = s.queues := by
  unfold foCommitOne
  dsimp only
  repeat' split
  all_goals simp

@[simp] theorem foCommit_queues (g : BitVec 6) (d : BitVec 32) (a : Bool) (disagree : List (Fin 128)) (s : State) :
    (foCommit g d a disagree s).queues = s.queues := by
  simp [foCommit]

@[simp] theorem foDiscard_queues (g : BitVec 6) (gen : Option (BitVec 32 × Bool)) (s : State) :
    (foDiscard g gen s).queues = s.queues := by
  simp [foDiscard]

@[simp] theorem foSafe_queues (g : Option (BitVec 6)) (s : State) :
    (foSafe g s).queues = s.queues := by
  simp [foSafe]

@[simp] theorem foReadback_queues (n : Fin 128) (level : Bool) (s : State) :
    (foReadback n level s).queues = s.queues := by
  unfold foReadback
  split <;> simp

@[simp] theorem foTestStart_queues (n : Fin 128) (s : State) :
    (foTestStart n s).queues = s.queues := by
  simp [foTestStart]

@[simp] theorem foTestEnd_queues (n : Fin 128) (level : Bool) (s : State) :
    (foTestEnd n level s).queues = s.queues := by
  unfold foTestEnd
  dsimp only
  split <;> simp

@[simp] theorem foReset_queues (n : Fin 128) (s : State) :
    (foReset n s).queues = s.queues := by
  simp [foReset]

@[simp] theorem foSetEnable_queues (n : Fin 128) (en : Bool) (s : State) :
    (foSetEnable n en s).queues = s.queues := by
  simp [foSetEnable]

theorem fiWriteChan_queues (n : Fin 128) (k : Nat) (v : Word) (s : State) :
    ∀ t ∈ fiWriteChan n k v s, t.queues = s.queues := by
  unfold fiWriteChan
  repeat' (first | extract_lets | split | refine queues_of_some ?_)
  all_goals simp +zetaDelta

@[simp] theorem foWriteChan_queues (n : Fin 128) (k : Nat) (v : Word) (s : State) :
    (foWriteChan n k v s).queues = s.queues := by
  unfold foWriteChan
  split <;> simp

theorem fioWrite_queues (off : Nat) (v : Word) (s : State) : ∀ t ∈ fioWrite off v s, t.queues = s.queues := by
  unfold fioWrite
  split
  · simp
  · split
    · exact fiWriteChan_queues _ _ _ _
    · split <;> simp

/-! ### The functions of Machine/Wharf -/

@[simp] theorem noteDecerr_queues (irq : Bool) (init : Fin 16) (t : Tx) (reason : Nat) (s : State) :
    (noteDecerr irq init t reason s).queues = s.queues := by
  simp [noteDecerr]

@[simp] theorem noteRefused_queues (irq : Bool) (s : State) :
    (noteRefused irq s).queues = s.queues := by
  simp [noteRefused]

@[simp] theorem respond_queues (r : WharfReq) (status : TxStatus) (data : List Word) (s : State) :
    (respond r status data s).queues = s.queues := by
  unfold respond
  split <;> simp

@[simp] theorem respondDecerr_queues (r : WharfReq) (reason : Nat) (s : State) :
    (respondDecerr r reason s).queues = s.queues := by
  simp [respondDecerr]

@[simp] theorem acceptTx_queues (init : Fin 16) (t : Tx) (load since : Nat) (s : State) :
    (acceptTx init t load since s).queues = s.queues := by
  unfold acceptTx
  split <;> simp

@[simp] theorem noteStall_queues (init : Fin 16) (s : State) :
    (noteStall init s).queues = s.queues := by
  simp [noteStall]

@[simp] theorem portAccept_queues (init : Fin 16) (t : Tx) (s : State) :
    (portAccept init t s).queues = s.queues := by
  unfold portAccept
  dsimp only
  repeat' split
  all_goals simp

@[simp] theorem debugPresent_queues (s : State) :
    (debugPresent s).queues = s.queues := by
  unfold debugPresent
  split <;> simp

@[simp] theorem portResponse_queues (init : Fin 16) (id : BitVec 5) (s : State) :
    (portResponse init id s).queues = s.queues := by
  unfold portResponse
  split <;> simp

@[simp] theorem noteGrant_queues (r : WharfReq) (k : Nat) (s : State) :
    (noteGrant r k s).queues = s.queues := by
  simp [noteGrant]

@[simp] theorem refuseBasin_queues (n : BasinIx) (r : WharfReq) (s : State) :
    (refuseBasin n r s).queues = s.queues := by
  simp [refuseBasin]

@[simp] theorem beatBasin_queues (n : BasinIx) (r : WharfReq) (s : State) : (beatBasin n r s).2.queues = s.queues := by
  unfold beatBasin
  extract_lets _ _ _ _ _
  split
  · split <;> simp +zetaDelta
  · simp +zetaDelta

@[simp] theorem endBasin_queues (n : BasinIx) (r : WharfReq) (s : State) :
    (endBasin n r s).queues = s.queues := by
  simp [endBasin]

@[simp] theorem askTarget_queues (s : State) (n : BasinIx) (b : BankIx) (rivals : List Rival) :
    (askTarget s n b rivals).2.queues = s.queues := by
  unfold askTarget
  split <;> simp

@[simp] theorem tryHeld_queues (n : BasinIx) (rivals : List Rival) (s : State) (r : WharfReq) :
    (tryHeld n rivals s r).queues = s.queues := by
  simp [tryHeld]

@[simp] theorem tryAllHeld_queues (n : BasinIx) (rivals : List Rival) (s : State) : (tryAllHeld n rivals s).queues = s.queues := by
  simp [tryAllHeld]

@[simp] theorem grantBasin_queues (n : BasinIx) (r : WharfReq) (s : State) :
    (grantBasin n r s).queues = s.queues := by
  simp [grantBasin]

@[simp] theorem takeRvBank_queues (r : WharfReq) (s : State) :
    (takeRvBank r s).queues = s.queues := by
  simp [takeRvBank]

@[simp] theorem performRv_queues (r : WharfReq) (s : State) : (performRv r s).queues = s.queues := by
  unfold performRv
  extract_lets
  repeat' split
  all_goals simp +zetaDelta

@[simp] theorem performHms_queues (r : WharfReq) (s : State) : (performHms r s).queues = s.queues := by
  unfold performHms
  split <;> simp

@[simp] theorem finishBasin_queues (n : BasinIx) (s : State) (r : WharfReq) : (finishBasin n s r).queues = s.queues := by
  have beats : ∀ (l : List Nat) (x : WharfReq × State), (l.foldl (fun x _ => beatBasin n x.1 x.2) x).2.queues = x.2.queues := by
    intro l
    induction l with
    | nil => exact fun _ => rfl
    | cons _ l ih => exact fun x => (ih _).trans (beatBasin_queues n x.1 x.2)
  simp [finishBasin, beats]

@[simp] theorem performMemory_queues (r : WharfReq) (s : State) :
    (performMemory r s).queues = s.queues := by
  simp [performMemory]

@[simp] theorem portReady_queues (first : Bool) (r : WharfReq) (s : State) :
    (portReady first r s).2.queues = s.queues := by
  unfold portReady
  dsimp only
  repeat' split
  all_goals simp

@[simp] theorem takeResponse_queues (init : Fin 16) (q : Nat) (s : State) :
    (takeResponse init q s).2.queues = s.queues := by
  unfold takeResponse
  split <;> simp

@[simp] theorem holdDirect_queues (init : Fin 16) (s : State) :
    (holdDirect init s).queues = s.queues := by
  simp [holdDirect]

theorem directTx_queues (perform : WharfReq → State → State) (init : Fin 16) (t : Tx) (j : Nat) (s : State)
    (hp : ∀ r s, (perform r s).queues = s.queues) : (directTx perform init t j s).2.queues = s.queues := by
  unfold directTx
  extract_lets
  split
  · simp
  · split
    · simp +zetaDelta
    · split
      · simp
      · extract_lets
        split
        · simp +zetaDelta [hp]
        · simp +zetaDelta

theorem directTx_ok (perform : WharfReq → State → State) (init : Fin 16) (t : Tx) (j : Nat) (s : State) (h : s.queues.Ok)
    (hp : ∀ r s, s.queues.Ok → (perform r s).queues.Ok) : (directTx perform init t j s).2.queues.Ok := by
  unfold directTx
  extract_lets
  split
  · simpa using h
  · split
    · simpa +zetaDelta using h
    · split
      · simpa using h
      · extract_lets
        split
        · rw [takeResponse_queues]
          exact hp _ _ (by simpa +zetaDelta using h)
        · simpa +zetaDelta using h

@[simp] theorem notePcioError_queues (r : WharfReq) (kind : BitVec 2) (s : State) :
    (notePcioError r kind s).queues = s.queues := by
  simp [notePcioError]

@[simp] theorem grantPcio_queues (r : WharfReq) (s : State) :
    (grantPcio r s).queues = s.queues := by
  simp [grantPcio]

@[simp] theorem nvpStart_queues (c : Fin 4) (blank : Bool) (s : State) :
    (nvpStart c blank s).queues = s.queues := by
  simp [nvpStart]

@[simp] theorem reprogrammed_queues (n : BasinIx) (k : Fin 4) (l : BitVec 12) (s : State) (p : Fin 4) :
    (reprogrammed n k l s p).queues = s.queues := by
  simp [reprogrammed]

@[simp] theorem nvpEnd_queues (c : Fin 4) (verified : Bool) (s : State) :
    (nvpEnd c verified s).queues = s.queues := by
  unfold nvpEnd
  split <;> simp

theorem nvpWrite_queues (w : Nat) (v : Word) (s : State) :
    ∀ t ∈ nvpWrite w v s, t.queues = s.queues := by
  unfold nvpWrite
  repeat' (first | extract_lets | split | refine queues_of_some ?_)
  all_goals simp +zetaDelta

@[simp] theorem scrubBasin_queues (n : BasinIx) (b : BankIx) (rivals : List Rival) (s : State) :
    (scrubBasin n b rivals s).queues = s.queues := by
  unfold scrubBasin
  dsimp only
  repeat' split
  all_goals simp

@[simp] theorem scrubRv_queues (b : BankIx) (s : State) : (scrubRv b s).queues = s.queues := by
  unfold scrubRv
  extract_lets bank k put
  have hput : ∀ f t, (put f t).queues = t.queues := fun f t => by simp [put]
  split
  · rfl
  · split <;> simp [hput]

@[simp] theorem clearCounters_queues (s : State) :
    (clearCounters s).queues = s.queues := by
  simp [clearCounters]

@[simp] theorem setCounting_queues (en : Bool) (s : State) :
    (setCounting en s).queues = s.queues := by
  simp [setCounting]

theorem wharfWrite_queues (off : Nat) (v : Word) (s : State) : ∀ t ∈ wharfWrite off v s, t.queues = s.queues := by
  unfold wharfWrite
  extract_lets
  split
  · simp
  · split
    · simp
    · refine queues_of_some ?_
      repeat' split
      all_goals simp +zetaDelta

/-! ### The functions of Machine/Towline -/

@[simp] theorem tlRefuse_queues (n : Fin 16) (s : State) :
    (tlRefuse n s).queues = s.queues := by
  simp [tlRefuse]

@[simp] theorem tlEvent_queues (l : Link) (s : State) :
    (tlEvent l s).queues = s.queues := by
  unfold tlEvent
  repeat' (first | extract_lets | split)
  all_goals simp +zetaDelta

@[simp] theorem tlGiveUp_queues (n : Fin 16) (f : Link → Link) (s : State) :
    (tlGiveUp n f s).queues = s.queues := by
  simp [tlGiveUp]

@[simp] theorem tlRetire_queues (n : Fin 16) (cause : Nat) (s : State) :
    (tlRetire n cause s).queues = s.queues := by
  simp [tlRetire]

@[simp] theorem tlDown_queues (n : Fin 16) (cause : Nat) (s : State) :
    (tlDown n cause s).queues = s.queues := by
  simp [tlDown]

@[simp] theorem tlSendMaint_queues (n : Fin 16) (s : State) :
    (tlSendMaint n s).queues = s.queues := by
  simp [tlSendMaint]

@[simp] theorem tlRetry_queues (n : Fin 16) (s : State) :
    (tlRetry n s).queues = s.queues := by
  unfold tlRetry
  dsimp only
  split <;> simp

@[simp] theorem tlNegotiate_queues (n : Fin 16) (s : State) :
    (tlNegotiate n s).queues = s.queues := by
  simp [tlNegotiate]

@[simp] theorem tlAccept_queues (n : Fin 16) (half : Bool) (pay : List Word) (ret : Bool) (info echo : Word) (s : State) :
    (tlAccept n half pay ret info echo s).queues = s.queues := by
  simp [tlAccept]

@[simp] theorem tlPoison_queues (n : Fin 16) (half : Bool) (s : State) :
    (tlPoison n half s).queues = s.queues := by
  simp [tlPoison]

@[simp] theorem tlPresentOne_queues (s : State) :
    (tlPresentOne s).queues = s.queues := by
  unfold tlPresentOne
  repeat' (first | extract_lets | split)
  all_goals simp +zetaDelta

@[simp] theorem tlPresent_queues (s : State) :
    (tlPresent s).queues = s.queues := by
  simp [tlPresent]

@[simp] theorem tlMaint_queues (n : Fin 16) (h : Word) (pay : List Word) (s : State) :
    (tlMaint n h pay s).queues = s.queues := by
  simp [tlMaint]

@[simp] theorem tlResponse_queues (id : BitVec 5) (s : State) :
    (tlResponse id s).queues = s.queues := by
  unfold tlResponse
  split <;> simp

@[simp] theorem tlUse_queues (n : Fin 16) (us : List Word) (s : State) :
    (tlUse n us s).queues = s.queues := by
  simp [tlUse]

@[simp] theorem tlAcked_queues (n : Fin 16) (seq : BitVec 8) (s : State) :
    (tlAcked n seq s).queues = s.queues := by
  unfold tlAcked
  dsimp only
  split <;> simp

@[simp] theorem tlDuplicate_queues (n : Fin 16) (ty : Nat) (seq : BitVec 8) (s : State) :
    (tlDuplicate n ty seq s).queues = s.queues := by
  simp [tlDuplicate]

@[simp] theorem tlReceive_queues (n : Fin 16) (us : List Word) (s : State) :
    (tlReceive n us s).queues = s.queues := by
  simp [tlReceive]

@[simp] theorem tlStage_queues (n : Fin 16) (slot : Fin 64) (src : StgWriter) (v : Word) (s : State) :
    (tlStage n slot src v s).queues = s.queues := by
  unfold tlStage
  split <;> simp

@[simp] theorem tlCommit_queues (n : Fin 16) (g : BitVec 6) (d : BitVec 32) (a : Bool) (disagree : Bool) (s : State) :
    (tlCommit n g d a disagree s).queues = s.queues := by
  simp [tlCommit]

@[simp] theorem tlDiscard_queues (g : BitVec 6) (gen : Option (BitVec 32 × Bool)) (s : State) :
    (tlDiscard g gen s).queues = s.queues := by
  simp [tlDiscard]

@[simp] theorem tlSafe_queues (n : Fin 16) (s : State) :
    (tlSafe n s).queues = s.queues := by
  simp [tlSafe]

@[simp] theorem tlSendOut_queues (n : Fin 16) (s : State) :
    (tlSendOut n s).queues = s.queues := by
  simp [tlSendOut]

@[simp] theorem tlSendSafe_queues (n : Fin 16) (s : State) :
    (tlSendSafe n s).queues = s.queues := by
  simp [tlSendSafe]

@[simp] theorem tlHeader_queues (n : Fin 16) (s : State) :
    (tlHeader n s).queues = s.queues := by
  unfold tlHeader
  dsimp only
  split <;> simp

@[simp] theorem tlSetEnable_queues (n : Fin 16) (en : Bool) (s : State) :
    (tlSetEnable n en s).queues = s.queues := by
  simp [tlSetEnable]

@[simp] theorem tlLock_queues (n : Fin 16) (s : State) :
    (tlLock n s).queues = s.queues := by
  simp [tlLock]

@[simp] theorem tlLoseLock_queues (n : Fin 16) (s : State) :
    (tlLoseLock n s).queues = s.queues := by
  simp [tlLoseLock]

@[simp] theorem tlChar_queues (n : Fin 16) (s : State) (valid : Bool) :
    (tlChar n s valid).queues = s.queues := by
  simp [tlChar]

@[simp] theorem tlChars_queues (n : Fin 16) (chars : List Bool) (s : State) :
    (tlChars n chars s).queues = s.queues := by
  simp [tlChars]

@[simp] theorem tlResendCap_queues (n : Fin 16) (s : State) :
    (tlResendCap n s).queues = s.queues := by
  simp [tlResendCap]

@[simp] theorem tlFreezeOne_queues (n : Fin 16) (s : State) :
    (tlFreezeOne n s).queues = s.queues := by
  simp [tlFreezeOne]

@[simp] theorem tlFreezeAll_queues (t : BitVec 8) (s : State) :
    (tlFreezeAll t s).queues = s.queues := by
  simp [tlFreezeAll]

@[simp] theorem tlPoisonDue_queues (n : Fin 16) (s : State) :
    (tlPoisonDue n s).queues = s.queues := by
  simp [tlPoisonDue]

@[simp] theorem tlRxto_queues (n : Fin 16) (s : State) :
    (tlRxto n s).queues = s.queues := by
  simp [tlRxto]

@[simp] theorem tlMtxStart_queues (n : Fin 16) (s : State) :
    (tlMtxStart n s).queues = s.queues := by
  simp [tlMtxStart]

@[simp] theorem tlReset_queues (n : Fin 16) (s : State) :
    (tlReset n s).queues = s.queues := by
  simp [tlReset]

@[simp] theorem writeLinkRecord_queues (n : Fin 16) (b : BasinIx) (r : Record) (s : State) :
    (writeLinkRecord n b r s).queues = s.queues := by
  simp [writeLinkRecord]

@[simp] theorem recordWriteAny_queues (b : BasinIx) (bank : Bool) (s : State) :
    (recordWriteAny b bank s).queues = s.queues := by
  unfold recordWriteAny
  dsimp only
  repeat' split
  all_goals simp

theorem tlWriteLink_queues (n : Fin 16) (k : Nat) (v : Word) (s : State) :
    ∀ t ∈ tlWriteLink n k v s, t.queues = s.queues := by
  unfold tlWriteLink
  repeat' (first | extract_lets | split | refine queues_of_some ?_)
  all_goals simp +zetaDelta

theorem tlWrite_queues (off : Nat) (v : Word) (s : State) : ∀ t ∈ tlWrite off v s, t.queues = s.queues := by
  unfold tlWrite
  split
  · exact tlWriteLink_queues _ _ _ _
  · split
    · cases tlRead s off <;> simp
    · cases tlRead s off <;> simp

/-! ### The functions of Machine/Windows -/

@[simp] theorem pendSetting_queues (g : BargeIx) (k : SyKey) (v : Word) (s : State) :
    (pendSetting g k v s).queues = s.queues := by
  simp [pendSetting]

@[simp] theorem writeTcmp_queues (g : BargeIx) (k : Fin 4) (v : Word) (s : State) :
    (writeTcmp g k v s).queues = s.queues := by
  simp [writeTcmp]

@[simp] theorem writeIntSrc_queues (g : BargeIx) (n : Fin 64) (v : Word) (s : State) :
    (writeIntSrc g n v s).queues = s.queues := by
  simp [writeIntSrc]

@[simp] theorem writeSwi_queues (g : BargeIx) (v : Word) (s : State) :
    (writeSwi g v s).queues = s.queues := by
  simp [writeSwi]

@[simp] theorem writeDbell_queues (g : BargeIx) (v : Word) (s : State) :
    (writeDbell g v s).queues = s.queues := by
  simp [writeDbell]

@[simp] theorem writeControl_queues (g : BargeIx) (world : Bool) (a : Nat) (v : Word) (s : State) :
    (writeControl g world a v s).queues = s.queues := by
  unfold writeControl
  split <;> simp

@[simp] theorem winWrite_queues (g : BargeIx) (world : Bool) (date : BitVec 32) (att : Bool) (a : Nat) (v : Word) (s : State) :
    (winWrite g world date att a v s).queues = s.queues := by
  have hfi : ∀ n k, ((fiWriteChan n k v s).getD s).queues = s.queues := fun n k => getD_queues _ s (fiWriteChan_queues n k v s)
  simp [winWrite, hfi]

@[simp] theorem writeFault_ok (g : BargeIx) (cause : BitVec 8) (faddr : Word) (s : State) (h : s.queues.Ok) :
    (writeFault g cause faddr s).queues.Ok := by
  simp [h, writeFault]

@[simp] theorem regWriteBy_ok (g : BargeIx) (a : Nat) (v : Word) (s : State) (h : s.queues.Ok) :
    (regWriteBy g a v s).queues.Ok := by
  simp [h, regWriteBy]

end Sys2Proof.Machine
end

section
/-! What an instruction adds to its barge's store buffer and transactions, for which its holds have found room. -/

namespace Sys2Proof.Machine

/-! ### The functions of Machine/Issue -/

@[simp] theorem State.viewed_queues (g : BargeIx) (s : State) :
    (State.viewed g s).queues = s.queues := by
  simp [State.viewed]

@[simp] theorem fetchAccess_queues (g : BargeIx) (src : Nat) (rivals : List Rival) (x : Nat × Nat × Nat) (s : State) :
    (fetchAccess g src rivals x s).2.queues = s.queues := by
  unfold fetchAccess
  dsimp only
  split <;> simp

@[simp] theorem fetchAll_queues (g : BargeIx) (src : Nat → Nat) (rivals : List Rival) (l : List (Nat × Nat × Nat)) (s : State) :
    (fetchAll g src rivals l s).2.queues = s.queues := by
  induction l generalizing s with
  | nil => rfl
  | cons x rest ih =>
    unfold fetchAll
    split <;> simp [ih]

@[simp] theorem Barge.giveWay_queues (b : Barge) (bank : BankIx) : (b.giveWay bank).queues = b.queues := by
  unfold Barge.giveWay
  split
  · next h =>
    split
    · simp [Barge.queues, h]
    · rfl
  · rfl

@[simp] theorem Barge.start_queues (b : Barge) (f : Flight) : (b.start f).queues = b.queues := by simp [Barge.start]

@[simp] theorem Barge.allocate_queues (b : Barge) (src tgt : BitVec 14) : (b.allocate src tgt).queues = b.queues := by
  simp [Barge.allocate]

@[simp] theorem Barge.useLine_queues (b : Barge) (l : BitVec 12) : (b.useLine l).queues = b.queues := by simp [Barge.useLine]

@[simp] theorem regMove_queues (w : Bool) (b : Barge) (m : Move × Word) : (regMove w b m).queues = b.queues := by
  unfold regMove
  split <;> simp

@[simp] theorem regMoves_queues (w : Bool) (l : List (Move × Word)) (b : Barge) : (l.foldl (regMove w) b).queues = b.queues := by
  induction l generalizing b with
  | nil => rfl
  | cons m l ih => rw [List.foldl_cons, ih, regMove_queues]

@[simp] theorem Ctx.alu_queues (c : Ctx) (p : ResultPort) (o : Word) (x : Option (Nat × Word)) (b : Barge) :
    (c.alu p o x b).queues = b.queues := by
  unfold Ctx.alu
  split
  · rfl
  · dsimp only
    split <;> simp

@[simp] theorem Ctx.mul_queues (c : Ctx) (b : Barge) : (c.mul b).queues = b.queues := by
  unfold Ctx.mul
  split
  · rfl
  · dsimp only
    split <;> simp

@[simp] theorem Ctx.vmul_queues (c : Ctx) (now : Nat) (b : Barge) : (c.vmul now b).queues = b.queues := by
  unfold Ctx.vmul
  split <;> simp

@[simp] theorem Ctx.vchk_queues (c : Ctx) (b : Barge) : (c.vchk b).queues = b.queues := by
  unfold Ctx.vchk
  split <;> simp

@[simp] theorem Ctx.iou_queues (c : Ctx) (after : Nat) (b : Barge) : (c.iou after b).queues = b.queues := by
  unfold Ctx.iou
  split <;> simp

@[simp] theorem Ctx.mac_queues (c : Ctx) (b : Barge) : (c.mac b).queues = b.queues := by
  unfold Ctx.mac
  split
  · rfl
  · dsimp only
    split
    · split <;> simp
    · split
      · split <;> simp
      · split <;> simp

@[simp] theorem Ctx.rpt_queues (c : Ctx) (clk : Nat) (b : Barge) : (c.rpt clk b).queues = b.queues := by
  unfold Ctx.rpt
  split
  · rfl
  · dsimp only
    split <;> simp

@[simp] theorem Ctx.load_queues (c : Ctx) (op : Nat) (a : Int) (n : Nat) (s : State) :
    (Ctx.load c op a n s).queues = s.queues := by
  unfold Ctx.load
  refine State.modBarge_queues _ _ _ fun b => ?_
  dsimp only
  split
  · simp
  · split <;> simp

@[simp] theorem sampleTime_queues (g : BargeIx) (s : State) :
    (sampleTime g s).2.queues = s.queues := by
  simp [sampleTime]

@[simp] theorem Ctx.cnt_queues (c : Ctx) (s : State) :
    (Ctx.cnt c s).queues = s.queues := by
  unfold Ctx.cnt
  dsimp only
  repeat' split
  all_goals simp

@[simp] theorem Ctx.branch_queues (c : Ctx) (tgt : BitVec 14) (s : State) :
    (Ctx.branch c tgt s).queues = s.queues := by
  simp [Ctx.branch]

@[simp] theorem Ctx.wrongWay_queues (c : Ctx) (before : Barge) (s : State) :
    (Ctx.wrongWay c before s).queues = s.queues := by
  unfold Ctx.wrongWay
  split <;> simp

@[simp] theorem Ctx.bru_ok (c : Ctx) (s : State) (h : s.queues.Ok) : (Ctx.bru c s).queues.Ok := by
  unfold Ctx.bru
  dsimp only
  repeat' split
  all_goals simp [h]

@[simp] theorem Ctx.bookkeep_queues (c : Ctx) (s : State) :
    (Ctx.bookkeep c s).queues = s.queues := by
  simp [Ctx.bookkeep]

/-! ### The operations that lengthen a barge's queues (R64, R69) -/

theorem Sig.fold_queue (x : Sig) (r c : Nat) : (x.fold r c).queue = x.queue := rfl

theorem foldIf_queue {x y : Sig} {r c : Nat} (h : foldIf x r c = some y) : y.queue = x.queue := by
  unfold foldIf at h
  split at h
  · exact Option.some.inj h ▸ rfl
  · cases h

theorem Ctx.lsuFold_queue {c : Ctx} {x y : Sig} (h : c.lsuFold x = some y) : y.queue = x.queue := by
  unfold Ctx.lsuFold at h
  split at h
  · split at h
    · exact foldIf_queue h
    · exact Option.some.inj h ▸ rfl
  · exact Option.some.inj h ▸ rfl

theorem Ctx.xluFold_queue {c : Ctx} {x y : Sig} (h : c.xluFold x = some y) : y.queue = x.queue := by
  unfold Ctx.xluFold at h
  split at h
  · split at h
    · exact foldIf_queue h
    · exact Option.some.inj h ▸ rfl
  · exact Option.some.inj h ▸ rfl

theorem Ctx.iouFold_queue {c : Ctx} {s : State} {x y : Sig} (h : c.iouFold s x = some y) : y.queue = x.queue := by
  unfold Ctx.iouFold at h
  split at h
  · split at h
    · split at h
      · exact foldIf_queue h
      · cases h
    · exact Option.some.inj h ▸ rfl
  · exact Option.some.inj h ▸ rfl

theorem Ctx.sigFold_queue {c : Ctx} {x y : Sig} (h : c.sigFold x = some y) : y.queue = x.queue := by
  unfold Ctx.sigFold at h
  split at h
  · exact Option.some.inj h ▸ rfl
  · split at h
    · cases h
    · dsimp only at h
      split at h
      · split at h
        · exact foldIf_queue h
        · exact Option.some.inj h ▸ rfl
      · split at h
        · cases h
        · split at h
          · exact foldIf_queue h
          · exact Option.some.inj h ▸ rfl
      · split at h
        · cases h
        · exact Option.some.inj h ▸ rfl

theorem Ctx.rptFold_queue {c : Ctx} {x y : Sig} (h : c.rptFold x = some y) : y.queue = x.queue := by
  unfold Ctx.rptFold at h
  split at h
  · split at h
    · cases h
    · exact Option.some.inj h ▸ rfl
  · exact Option.some.inj h ▸ rfl

/-- An instruction's folds leave the dates that wait. -/
theorem Ctx.sigAfter_queue (c : Ctx) (s : State) (x : Sig) : ((c.sigAfter s x).getD x).queue = x.queue := by
  cases h : c.sigAfter s x with
  | none => rfl
  | some y =>
    simp only [Ctx.sigAfter, Option.bind_eq_some_iff] at h
    obtain ⟨x3, ⟨x2, ⟨x1, h1, h2⟩, h3⟩, x4, h4, h5⟩ := h
    exact (c.rptFold_queue h5).trans ((c.sigFold_queue h4).trans ((c.iouFold_queue h3).trans
      ((c.xluFold_queue h2).trans (c.lsuFold_queue h1))))

/-- The store-buffer entries that an instruction adds (R63). -/
def Ctx.newStores (c : Ctx) : Nat :=
  match c.lsuAccess with
  | some (op, a, n) => if lsuStore op then (partsOf a n).length else 0
  | none => 0

/-- The XLU transactions that an instruction adds (R68). -/
def Ctx.newCredits (c : Ctx) : Nat := if (c.trig .xlu).isSome then 1 else 0

/-- What an instruction adds to the queues of its barge. -/
def Ctx.grow (c : Ctx) (q : BargeQueues) : BargeQueues := ⟨q.stores + c.newStores, q.credits + c.newCredits, q.dates⟩

/-- A change of one barge's queues alone. -/
theorem State.modBarge_grows (s : State) (g : BargeIx) (f : Barge → Barge) (k : BargeQueues → BargeQueues)
    (h : ∀ b, (f b).queues = k b.queues) : (s.modBarge g f).queues = { s.queues with barges := vmod s.queues.barges g k } := by
  have hmap : (vmod s.barges g f).map Barge.queues = vmod (s.barges.map Barge.queues) g k := by
    refine vget_ext fun j => ?_
    rw [vmap_get, vmod_get, vmod_get, vmap_get]
    split
    · exact h _
    · rfl
  simp only [State.modBarge, State.queues_mk, hmap]
  rfl

theorem Ctx.xlu_queues (c : Ctx) (after : Nat) (b : Barge) :
    (c.xlu after b).queues = ⟨b.queues.stores, b.queues.credits + c.newCredits, b.queues.dates⟩ := by
  unfold Ctx.xlu Ctx.xluAccess Ctx.newCredits
  cases c.trig .xlu <;> rfl

theorem Ctx.lsu_queues (c : Ctx) (s : State) : (c.lsu s).queues =
    { s.queues with barges := vmod s.queues.barges c.g fun q => ⟨q.stores + c.newStores, q.credits, q.dates⟩ } := by
  have hsame : vmod s.queues.barges c.g (fun q => ⟨q.stores + 0, q.credits, q.dates⟩) = s.queues.barges := vmod_same _ _ _ rfl
  unfold Ctx.lsu Ctx.newStores
  cases hacc : c.lsuAccess with
  | none =>
    simp only [hsame]
    split
    · next h => cases h
    · rfl
  | some x =>
    obtain ⟨op', a, n⟩ := x
    cases htrig : c.trig .lsu with
    | none => simp [Ctx.lsuAccess, htrig] at hacc
    | some y =>
      obtain ⟨op, t⟩ := y
      have hop : op' = op := by
        simp only [Ctx.lsuAccess, htrig, Option.map_eq_some_iff] at hacc
        obtain ⟨_, -, h⟩ := hacc
        exact (Prod.mk.inj h).1.symm
      subst hop
      dsimp only
      have hstep : ∀ s1 : State, ∀ f : Barge → Barge, (∀ b, (f b).queues = b.queues) →
          (if lsuMode op' = 1 ∨ lsuMode op' = 2 then s1.modBarge c.g f else s1).queues = s1.queues := fun s1 f hf => by simp [hf]
      rw [hstep _ _ fun b => by simp]
      split
      · refine State.modBarge_grows _ _ _ _ fun b => ?_
        simp [storeEntries, Barge.queues, -Barge.queues_eta]
      · rw [Ctx.load_queues, hsame]

@[simp] theorem Ctx.moves_queues (c : Ctx) (sg : Sig) (b : Barge) (h : sg.queue = b.sig.queue) : (c.moves sg b).queues = b.queues := by
  have hr := regMoves_queues c.world c.acts b
  simp only [Barge.queues, BargeQueues.mk.injEq] at hr
  simp [Ctx.moves, hr, h]

@[simp] theorem Ctx.advance_queues (c : Ctx) (b : Barge) : (c.advance b).queues = b.queues := by simp [Ctx.advance]

@[simp] theorem holdFrom_queues (clk : Nat) (b : Barge) : (holdFrom clk b).queues = b.queues := by simp [holdFrom]

theorem Ctx.operate_queues (c : Ctx) (s : State) :
    (c.operate s).queues = { s.queues with barges := vmod s.queues.barges c.g c.grow } := by
  unfold Ctx.operate
  extract_lets b clk s1 s2 s3
  have h1 : s1.queues = s.queues := State.modBarge_queues_at _ _ _ (c.moves_queues _ _ (c.sigAfter_queue s b.sig))
  have h3 : (c.cnt s3).queues = (c.lsu s1).queues := by simp [s3, s2]
  rw [State.modBarge_queues _ _ _ c.advance_queues]
  rw [State.modBarge_grows _ _ _ (fun q => ⟨q.stores, q.credits + c.newCredits, q.dates⟩) fun x => by simp [Ctx.xlu_queues], h3,
    c.lsu_queues, h1, vmod_vmod]
  rfl

/-- The queues of its barge and of its basin have room for what the instruction adds. -/
structure Ctx.Fits (c : Ctx) (q : Queues) : Prop where
  stores : (q.barges.get c.g).stores + c.newStores ≤ 4
  credits : (q.barges.get c.g).credits + c.newCredits ≤ 8
  basin : basinCredits q.barges (basinOf c.g) + c.newCredits ≤ 32

theorem basinCredits_vmod (v : Vector BargeQueues 48) (g : BargeIx) (k : BargeQueues → BargeQueues) (d : Nat)
    (h : ∀ q, (k q).credits = q.credits + d) (n : BasinIx) :
    basinCredits (vmod v g k) n = basinCredits v n + if n = basinOf g then d else 0 := by
  have hp : ∀ p, ((vmod v g k).get (bargeOf n p)).credits =
      (v.get (bargeOf n p)).credits + if basinOf g = n ∧ p = posOf g then d else 0 := fun p => by
    rw [vmod_get]
    by_cases hg : bargeOf n p = g
    · rw [if_pos hg, if_pos ((barge_eq_bargeOf g n p).1 hg.symm), h]
    · rw [if_neg hg, if_neg fun e => hg ((barge_eq_bargeOf g n p).2 e).symm, Nat.add_zero]
  have hfin : List.finRange 4 = [0, 1, 2, 3] := rfl
  simp only [basinCredits, hp, hfin, List.map_cons, List.map_nil, List.sum_cons, List.sum_nil]
  by_cases hn : basinOf g = n
  · subst hn
    have hpos : posOf g = 0 ∨ posOf g = 1 ∨ posOf g = 2 ∨ posOf g = 3 := by
      generalize posOf g = p
      revert p
      decide
    rcases hpos with e | e | e | e <;> simp [e] <;> omega
  · simp [hn, Ne.symm hn]

theorem Queues.Ok.grow {q : Queues} (h : q.Ok) (c : Ctx) (hf : c.Fits q) :
    Queues.Ok { q with barges := vmod q.barges c.g c.grow } := by
  refine ⟨fun k => ?_, fun n => ?_, h.log, h.egress, h.owners⟩
  · show BargeQueues.Ok ((vmod q.barges c.g c.grow).get k)
    rw [vmod_get]
    split
    · next e =>
      subst e
      exact ⟨hf.stores, hf.credits, (h.barges _).dates⟩
    · exact h.barges k
  · show basinCredits (vmod q.barges c.g c.grow) n ≤ 32
    rw [basinCredits_vmod _ _ c.grow c.newCredits fun _ => rfl]
    split
    · next e =>
      subst e
      exact hf.basin
    · exact h.basins n

/-- What a checked instruction adds has its room: it would hold otherwise (R44). -/
theorem Ctx.fits {c : Ctx} {s : State} (h : s.queues.Ok) (hsoft : c.softHold s = false) (hhard : c.hardHold s = false) :
    c.Fits s.queues := by
  have hstores : (s.barges.get c.g).stores.length + c.newStores ≤ 4 := by
    have hb : (s.barges.get c.g).stores.length ≤ 4 := (((queuesBounded_iff s).2 h).1 c.g).1
    simp only [Ctx.hardHold, Bool.or_eq_false_iff] at hhard
    obtain ⟨⟨⟨hlsu, -⟩, -⟩, -⟩ := hhard
    unfold Ctx.newStores
    split
    · next hacc =>
      split
      · next hst =>
        simp only [hacc, hst, if_true, Bool.or_eq_false_iff, decide_eq_false_iff_not, Nat.not_lt] at hlsu
        exact hlsu.1
      · exact hb
    · exact hb
  have hxlu : (s.barges.get c.g).xluCredits + c.newCredits ≤ 8 ∧ basinCredits s.queues.barges (basinOf c.g) + c.newCredits ≤ 32 := by
    unfold Ctx.newCredits
    split
    · next ht =>
      simp only [Ctx.softHold, ht, Bool.true_and, Bool.or_eq_false_iff, decide_eq_false_iff_not, Nat.not_le] at hsoft
      obtain ⟨⟨⟨h8, h32⟩, -⟩, -⟩ := hsoft
      refine ⟨h8, ?_⟩
      simp only [basinCredits, State.queues, vmap_get]
      exact h32
    · exact ⟨(((queuesBounded_iff s).2 h).1 c.g).2.1, h.basins _⟩
  refine ⟨?_, ?_, hxlu.2⟩ <;> simp only [State.queues, vmap_get]
  · exact hstores
  · exact hxlu.1

theorem Ctx.effect_ok (c : Ctx) (s : State) (h : s.queues.Ok) (hf : c.Fits s.queues) : (c.effect s).queues.Ok := by
  have hop : (c.operate s).queues.Ok := by
    rw [c.operate_queues]
    exact h.grow c hf
  rw [effect_eq]
  simp [hop]

/-- What the checks before an instruction's moves have established when it issues. -/
theorem plan_go {g : BargeIx} {s : State} {c : Ctx} (h : plan g s = .go c) :
    c.g = g ∧ c.softHold s = false ∧ c.hardHold s = false := by
  unfold plan at h
  dsimp only at h
  split at h
  · cases h
  · split at h
    · cases h
    · split at h
      · cases h
      · split at h
        · cases h
        · split at h
          · cases h
          · split at h
            · cases h
            · split at h
              · cases h
              · next hsoft =>
                split at h
                · cases h
                · next hhard =>
                  split at h
                  · cases h
                  · cases h
                    exact ⟨mkCtx_g _ _ _, Bool.eq_false_iff.2 hsoft, Bool.eq_false_iff.2 hhard⟩

@[simp] theorem finishTrap_ok (g : BargeIx) (s : State) (h : s.queues.Ok) : (finishTrap g s).queues.Ok := by
  unfold finishTrap
  dsimp only
  repeat' split
  all_goals simp [h]

@[simp] theorem noteHold_queues (g : BargeIx) (banks : List BankIx) (s : State) :
    (noteHold g banks s).queues = s.queues := by
  simp [noteHold]

@[simp] theorem boundary_ok (g : BargeIx) (split : Bool) (s : State) (h : s.queues.Ok) : (boundary g split s).1.queues.Ok := by
  unfold boundary
  dsimp only
  repeat' split
  all_goals simp [h]

@[simp] theorem finishLoad_queues (g : BargeIx) (rivals : List Rival) (s : State) :
    (finishLoad g rivals s).2.2.queues = s.queues := by
  unfold finishLoad
  dsimp only
  repeat' split
  all_goals simp

theorem afterLoad_ok (g : BargeIx) (rivals : List Rival) (f : Bool → State → State) (s : State)
    (hf : ∀ b s, s.queues.Ok → (f b s).queues.Ok) (h : s.queues.Ok) : (afterLoad g rivals f s).queues.Ok := by
  unfold afterLoad
  extract_lets r
  have hr : r.2.2.queues.Ok := by simpa [r] using h
  split
  · exact hf _ _ hr
  · exact hr

@[simp] theorem issueAt_ok (g : BargeIx) (rivals : List Rival) (masked read : Bool) (s : State) (h : s.queues.Ok) :
    (issueAt g rivals masked read s).queues.Ok := by
  unfold issueAt
  extract_lets b world meet halts
  have hmeet : ∀ s, (meet s).queues = s.queues := fun s => by simp [meet]
  clear_value meet
  split
  · split <;> simp [h]
  · split
    · simp [h]
    · simp [h]
    · simp [h]
    · repeat' split
      all_goals simp [h, hmeet]
    · repeat' split
      all_goals simp [h, hmeet]
    · next c hplan =>
      obtain ⟨-, hsoft, hhard⟩ := plan_go hplan
      have hfits := Ctx.fits h hsoft hhard
      split
      · exact h
      · split
        · simp [h, hmeet]
        · split
          · simp [h]
          · extract_lets a
            have ha : a.2.queues = s.queues := by simp [a]
            split
            · simp [h, ha]
            · refine finishTrap_ok _ _ (c.effect_ok _ ?_ ?_) <;> simpa [hmeet, ha]

@[simp] theorem issueOne_ok (g : BargeIx) (rivals : List Rival) (masked : Bool) (s : State) (h : s.queues.Ok) :
    (issueOne g rivals masked s).queues.Ok := by
  unfold issueOne
  dsimp only
  split
  · exact h
  · split
    · simp [h]
    · split
      · exact afterLoad_ok _ _ _ _ (fun b s h => by simp [h]) h
      · split
        · exact h
        · refine afterLoad_ok _ _ _ _ (fun read s h => ?_) h
          repeat' split
          all_goals simp [h]

end Sys2Proof.Machine
end

section
/-! The Keeper's log and the output groups: a task that leaves its active state releases what it owns. -/

namespace Sys2Proof.Machine

/-! ### The functions of Machine/Keeper -/

@[simp] theorem watchKstat_queues (f : State → State) (s : State) : (watchKstat f s).queues = (f s).queues := by
  simp [watchKstat]

@[simp] theorem State.addLog_ok (s : State) (w : Word) (h : s.queues.Ok) : (s.addLog w).queues.Ok := by
  unfold State.addLog
  split
  · next hlen => exact ⟨h.barges, h.basins, by simpa using hlen, h.egress, h.owners⟩
  · simpa using h

@[simp] theorem State.kpLog_ok (s : State) (kind cause : Nat) (task : BitVec 8) (barge : Nat) (h : s.queues.Ok) :
    (State.kpLog s kind cause task barge).queues.Ok := by
  simp [h, State.kpLog]

@[simp] theorem setMode_queues (m : KMode) (cause : BitVec 8) (s : State) :
    (setMode m cause s).queues = s.queues := by
  simp [setMode]

@[simp] theorem degrade_queues (s : State) :
    (degrade s).queues = s.queues := by
  simp [degrade]

@[simp] theorem sendGate_queues (m : GateMsg) (grp : Option (BitVec 6)) (s : State) :
    (sendGate m grp s).queues = s.queues := by
  simp [sendGate]

@[simp] theorem openGroup_queues (d : BitVec 32) (a : Bool) (s : State) (r : Fin 64) :
    (openGroup d a s r).queues = s.queues := by
  simp [openGroup]

@[simp] theorem safeGroup_queues (s : State) (r : Fin 64) :
    (safeGroup s r).queues = s.queues := by
  simp [safeGroup]

@[simp] theorem openTask_queues (t : Fin 256) (s : State) :
    (openTask t s).queues = s.queues := by
  unfold openTask
  split <;> simp

/-- The groups of a list get one owner, or none. -/
theorem setOwners_queues (f : State → Fin 64 → State) (o : Option (BitVec 8))
    (hf : ∀ s r, (f s r).queues = { s.queues with owners := vmod s.queues.owners r fun _ => o }) (l : List (Fin 64)) (s : State) :
    ∃ v, (l.foldl f s).queues = { s.queues with owners := v } ∧ ∀ r, v.get r = if r ∈ l then o else s.queues.owners.get r := by
  induction l generalizing s with
  | nil => exact ⟨s.queues.owners, rfl, fun r => by simp⟩
  | cons a l ih =>
    obtain ⟨v, hv, hget⟩ := ih (f s a)
    refine ⟨v, by rw [List.foldl_cons, hv, hf], fun r => ?_⟩
    simp only [hget, hf, vmod_get, List.mem_cons]
    by_cases hr : r ∈ l <;> by_cases ha : r = a <;> simp [hr, ha]

/-- A change of one group's owner alone. -/
theorem State.modGroup_owner (s : State) (r : Fin 64) (f : KGroup → KGroup) (o : Option (BitVec 8)) (h : ∀ g, (f g).owner = o) :
    (s.modGroup r f).queues = { s.queues with owners := vmod s.queues.owners r fun _ => o } := by
  have hmap : (vmod s.kp.groups r f).map KGroup.owner = vmod (s.kp.groups.map KGroup.owner) r fun _ => o := by
    refine vget_ext fun j => ?_
    rw [vmap_get, vmod_get, vmod_get, vmap_get]
    split
    · exact h _
    · rfl
  simp only [State.modGroup, State.queues_mk, hmap]
  rfl

theorem KTask.groups_eq (t : KTask) : t.groups = groupsOf t.binding.2 := rfl

theorem mem_ownGroups (s : State) (t : Fin 256) (r : Fin 64) :
    r ∈ ownGroups s t ↔ r ∈ groupsOf (s.queues.tasks.get t).2 ∧ s.queues.owners.get r = some (BitVec.ofNat 8 t.val) := by
  simp only [ownGroups, State.queues, vmap_get, KTask.groups_eq, List.mem_filter, beq_iff_eq]

@[simp] theorem clearStaged_queues (gen : Option (BitVec 32 × Bool)) (s : State) (r : Fin 64) :
    (clearStaged gen s r).queues = s.queues := by
  simp [clearStaged]

/-- A released task owns no group that it names, and the other owners are as they were (R190, R196). -/
theorem releaseGroups_owners (t : Fin 256) (s : State) : ∃ v, (releaseGroups t s).queues = { s.queues with owners := v } ∧
    ∀ r o, v.get r = some o → s.queues.owners.get r = some o ∧ ¬(o.toFin = t ∧ r ∈ groupsOf (s.queues.tasks.get t).2) := by
  obtain ⟨v, hv, hget⟩ := setOwners_queues (fun s r => (safeGroup s r).modGroup r fun g => { g with owner := none }) none
    (fun s r => by rw [State.modGroup_owner _ _ _ none fun _ => rfl, safeGroup_queues]) (ownGroups (openTask t s) t) (openTask t s)
  rw [openTask_queues] at hv
  refine ⟨v, hv, fun r o ho => ?_⟩
  simp only [hget, mem_ownGroups, openTask_queues] at ho
  split at ho
  · cases ho
  · next hnot =>
    refine ⟨ho, ?_⟩
    rintro ⟨rfl, hr⟩
    exact hnot ⟨hr, by simpa using ho⟩

/-- A task releases its groups and is then bound otherwise. -/
theorem releaseGroups_modTask_ok (t : Fin 256) (s : State) (f : KTask → KTask) (k : BitVec 2 × Vector Word 13 → BitVec 2 × Vector Word 13)
    (hf : ∀ x, (f x).binding = k x.binding) (h : s.queues.Ok) : ((releaseGroups t s).modTask t f).queues.Ok := by
  obtain ⟨v, hq, hv⟩ := releaseGroups_owners t s
  rw [State.modTask_binding _ _ _ k hf, hq]
  exact h.rebind v t k hv

/-- A task that has left its active state releases its groups. -/
theorem modTask_releaseGroups_ok (t : Fin 256) (s : State) (f : KTask → KTask) (st : BitVec 2)
    (hf : ∀ x, (f x).binding = (st, x.binding.2)) (h : s.queues.Ok) : (releaseGroups t (s.modTask t f)).queues.Ok := by
  obtain ⟨v, hq, hv⟩ := releaseGroups_owners t (s.modTask t f)
  rw [State.modTask_binding _ _ _ (fun b => (st, b.2)) hf] at hq hv
  simp only [vmod_get_self] at hv
  rw [hq]
  exact h.rebind v t (fun b => (st, b.2)) hv

@[simp] theorem dropGates_queues (p : GateMsg → Bool) (s : State) :
    (dropGates p s).queues = s.queues := by
  simp [dropGates]

@[simp] theorem enterSafe_ok (cause : BitVec 8) (s : State) (h : s.queues.Ok) :
    (enterSafe cause s).queues.Ok := by
  simp [h, enterSafe]

@[simp] theorem faultEvent_queues (b : BargeIx) (s : State) :
    (faultEvent b s).queues = s.queues := by
  simp [faultEvent]

@[simp] theorem moveTask_ok (b : BargeIx) (s : State) (t : Fin 256) (h : s.queues.Ok) : (moveTask b s t).queues.Ok := by
  unfold moveTask
  extract_lets x
  split
  · exact h
  · split
    · simp [h]
    · split
      · exact enterSafe_ok _ _ (modTask_releaseGroups_ok _ _ _ 2 (fun _ => rfl) h)
      · exact releaseGroups_modTask_ok _ _ _ (fun b => (2, b.2)) (fun _ => rfl) h

@[simp] theorem retireBarge_ok (b : BargeIx) (cause : Nat) (s : State) (h : s.queues.Ok) : (retireBarge b cause s).queues.Ok := by
  unfold retireBarge
  split
  · exact h
  · extract_lets _ s1 s2 s3 s4
    have h1 : s1.queues.Ok := h
    clear_value s1
    have h2 : s2.queues.Ok := foldl_ok _ (moveTask_ok b) _ _ (State.kpLog_ok s1 4 cause 0 b.val h1)
    clear_value s2
    have h4 : s4.queues.Ok := by simpa only [s4, s3, State.notify_queues, degrade_queues] using h2
    clear_value s4
    split
    · exact h4
    · exact resetBarge_ok _ _ _ h4

@[simp] theorem State.toBarge_queues (s : State) (b : BargeIx) (m : KMsg) :
    (State.toBarge s b m).queues = s.queues := by
  simp [State.toBarge]

@[simp] theorem startCycle_queues (t : Fin 256) (s : State) :
    (startCycle t s).queues = s.queues := by
  unfold startCycle
  split <;> simp

@[simp] theorem unexpectedSeal_ok (b : BargeIx) (t : Fin 256) (s : State) (h : s.queues.Ok) :
    (unexpectedSeal b t s).queues.Ok := by
  unfold unexpectedSeal
  split <;> simp [h]

@[simp] theorem countSeal_queues (b : BargeIx) (t : Fin 256) (s : State) :
    (countSeal b t s).queues = s.queues :=
  State.modTask_queues _ _ _ fun x => by split <;> simp

@[simp] theorem judge_ok (b : BargeIx) (v : BitVec 61) (task : BitVec 8) (n : BitVec 16) (disagree : Bool) (s : State) (h : s.queues.Ok) :
    (judge b v task n disagree s).queues.Ok := by
  unfold judge
  dsimp only
  repeat' split
  all_goals simp [h]

@[simp] theorem dropLink_queues (b : BargeIx) (s : State) :
    (dropLink b s).queues = s.queues := by
  simp [dropLink]

@[simp] theorem sealArrives_ok (b : BargeIx) (crcOk disagree : Bool) (s : State) (h : s.queues.Ok) :
    (sealArrives b crcOk disagree s).queues.Ok := by
  unfold sealArrives
  split <;> simp [h]

@[simp] theorem faultArrives_ok (b : BargeIx) (crcOk : Bool) (s : State) (h : s.queues.Ok) :
    (faultArrives b crcOk s).queues.Ok := by
  unfold faultArrives
  split <;> simp [h]

@[simp] theorem resetArrives_ok (b : BargeIx) (crcOk : Bool) (s : State) (h : s.queues.Ok) :
    (resetArrives b crcOk s).queues.Ok := by
  unfold resetArrives
  split <;> simp [h]

@[simp] theorem classify_ok (c : Cycle) (code : Nat) (s : State) (h : s.queues.Ok) :
    (classify c code s).queues.Ok := by
  simp [h, classify]

@[simp] theorem failDecision_ok (t : Fin 256) (c : Cycle) (code : Nat) (s : State) (h : s.queues.Ok) :
    (failDecision t c code s).queues.Ok := by
  simp [h, failDecision]

@[simp] theorem endFailed_ok (t : Fin 256) (c : Cycle) (code : Nat) (s : State) (h : s.queues.Ok) :
    (endFailed t c code s).queues.Ok := by
  unfold endFailed
  extract_lets s1 own s2 x s3
  have h2 : s2.queues = s1.queues := foldl_queues _ (fun s r => State.modGroup_queues _ _ _ fun g => by split <;> rfl) _ _
  have h3 : s3.queues = s2.queues := by
    simp only [s3]
    split <;> simp
  refine classify_ok _ _ _ ?_
  rw [h3, h2]
  simpa [s1] using h

@[simp] theorem endMatched_ok (t : Fin 256) (c : Cycle) (s : State) (h : s.queues.Ok) :
    (endMatched t c s).queues.Ok := by
  simp [h, endMatched]

@[simp] theorem decide'_ok (t : Fin 256) (s : State) (h : s.queues.Ok) :
    (decide' t s).queues.Ok := by
  unfold decide'
  dsimp only
  repeat' split
  all_goals simp [h]

@[simp] theorem closeWindow_ok (t : Fin 256) (s : State) (h : s.queues.Ok) :
    (closeWindow t s).queues.Ok := by
  unfold closeWindow
  dsimp only
  split <;> simp [h]

@[simp] theorem sendRetry_queues (t : Fin 256) (s : State) :
    (sendRetry t s).queues = s.queues := by
  unfold sendRetry
  dsimp only
  repeat' split
  all_goals simp

@[simp] theorem openGates_queues (t : Fin 256) (s : State) :
    (openGates t s).queues = s.queues := by
  unfold openGates
  split <;> simp

@[simp] theorem retirementReport_ok (s : State) (h : s.queues.Ok) :
    (retirementReport s).queues.Ok := by
  unfold retirementReport
  split <;> simp [h]

@[simp] theorem selfTest_ok (pass : Bool) (s : State) (h : s.queues.Ok) :
    (selfTest pass s).queues.Ok := by
  simp [h, selfTest]

@[simp] theorem halfPeriod_ok (padA padB : Bool) (s : State) (h : s.queues.Ok) :
    (halfPeriod padA padB s).queues.Ok := by
  unfold halfPeriod
  split <;> simp [h]

@[simp] theorem startTask_ok (t : Fin 256) (s : State) (h : s.queues.Ok) : (startTask t s).queues.Ok := by
  unfold startTask
  extract_lets x s1
  have h1 : s1.queues = { s.queues with tasks := vmod s.queues.tasks t fun b => (1, b.2) } := State.modTask_binding _ _ _ _ fun _ => rfl
  obtain ⟨v, hv, hget⟩ := setOwners_queues (fun s r => s.modGroup r fun _ => { owner := some (BitVec.ofNat 8 t.val), gstate := 0 })
    (some (BitVec.ofNat 8 t.val)) (fun s r => State.modGroup_owner _ _ _ _ fun _ => rfl) x.groups s1
  rw [hv, h1]
  refine ⟨h.barges, h.basins, h.log, h.egress, fun r o ho => ?_⟩
  simp only [h1] at hget
  simp only [hget] at ho
  show ((vmod s.queues.tasks t _).get o.toFin).1 = 1 ∧ r ∈ groupsOf ((vmod s.queues.tasks t _).get o.toFin).2
  rw [vmod_get]
  split at ho
  · next hr =>
    obtain rfl := Option.some.inj ho
    have ht : (BitVec.ofNat 8 t.val).toFin = t := Fin.ext (by simp)
    rw [if_pos ht, ht]
    refine ⟨rfl, ?_⟩
    simp only [State.queues, vmap_get]
    exact hr
  · obtain ⟨hact, hmem⟩ := h.owners r o ho
    split
    · exact ⟨rfl, hmem⟩
    · exact ⟨hact, hmem⟩

@[simp] theorem stopTask_ok (t : Fin 256) (s : State) (h : s.queues.Ok) : (stopTask t s).queues.Ok :=
  releaseGroups_modTask_ok t s _ (fun b => (0, b.2)) (fun _ => rfl) h

@[simp] theorem startSafePins_queues (s : State) :
    (startSafePins s).queues = s.queues := by
  simp [startSafePins, State.free]

@[simp] theorem commandEffect_ok (op : Nat) (arg : BitVec 8) (s : State) (h : s.queues.Ok) :
    (commandEffect op arg s).queues.Ok := by
  unfold commandEffect
  dsimp only
  repeat' split
  all_goals simp [h]

@[simp] theorem keeperCommand_ok (op : Nat) (arg : BitVec 8) (s : State) (h : s.queues.Ok) :
    (keeperCommand op arg s).queues.Ok := by
  simp [h, keeperCommand]

@[simp] theorem loadError_queues (s : State) :
    (loadError s).queues = s.queues := by
  simp [loadError]

@[simp] theorem keeperWrite_ok (w : Nat) (v : Word) (s : State) (h : s.queues.Ok) : (keeperWrite w v s).queues.Ok := by
  unfold keeperWrite
  split
  · simp [h]
  · split
    · extract_lets t k
      split
      · exact h
      · split
        · simp [h]
        · next hidle =>
          rw [State.modTask_binding _ _ _ (fun b => (b.1, vmodN b.2 k fun _ => v &&& entryMask k)) fun _ => rfl]
          refine h.retask t _ ?_
          simp only [State.queues, vmap_get]
          exact hidle
    · split
      all_goals (try split)
      all_goals simp [h]

@[simp] theorem loadPort_ok (w : Nat) (v : Word) (same : Bool) (s : State) (h : s.queues.Ok) :
    (loadPort w v same s).queues.Ok := by
  simp [h, loadPort]

@[simp] theorem commandPort_ok (op : Nat) (arg : BitVec 8) (hm1 : LoadWrite) (s : State) (h : s.queues.Ok) :
    (commandPort op arg hm1 s).queues.Ok := by
  simp [h, commandPort]

@[simp] theorem popLog_ok (s : State) (h : s.queues.Ok) : (popLog s).queues.Ok := by
  unfold popLog
  split
  · exact h
  · refine ⟨h.barges, h.basins, ?_, h.egress, h.owners⟩
    have hlog : s.kp.log.length ≤ 64 := h.log
    show s.kp.log.tail.length ≤ 64
    rw [List.length_tail]
    omega

@[simp] theorem stopTasksOn_ok (p : Nat → Bool) (s : State) (h : s.queues.Ok) : (stopTasksOn p s).queues.Ok := by
  refine foldl_ok _ (fun s t h => ?_) _ _ h
  dsimp only
  split <;> simp [h]

@[simp] theorem keeperReset_ok (s : State) (h : s.queues.Ok) : (keeperReset s).queues.Ok := by
  refine ⟨h.barges, h.basins, Nat.zero_le _, h.egress, fun r o ho => ?_⟩
  simp [keeperReset, State.queues, vget_eq] at ho

/-! ### The functions of Machine/Power -/

@[simp] theorem beginPower_queues (n : BasinIx) (goal : BitVec 2) (s : State) :
    (beginPower n goal s).queues = s.queues := by
  simp [beginPower]

@[simp] theorem setDivider_queues (s : State) (n : BasinIx) :
    (setDivider s n).queues = s.queues := by
  simp [setDivider]

@[simp] theorem holdAwake_queues (s : State) (n : BasinIx) :
    (holdAwake s n).queues = s.queues := by
  simp [holdAwake]

@[simp] theorem settle_queues (s : State) :
    (settle s).queues = s.queues := by
  simp [settle]

@[simp] theorem writeBpwr_queues (n : BasinIx) (v : Word) (s : State) :
    (writeBpwr n v s).queues = s.queues := by
  simp [writeBpwr]

@[simp] theorem closeBanks_queues (n : BasinIx) (s : State) :
    (closeBanks n s).queues = s.queues := by
  simp [closeBanks]

@[simp] theorem leaveB1_queues (n : BasinIx) (s : State) :
    (leaveB1 n s).queues = s.queues := by
  simp [leaveB1]

@[simp] theorem choosePower_queues (n : BasinIx) (s : State) :
    (choosePower n s).queues = s.queues := by
  simp [choosePower]

@[simp] theorem choosePowers_queues (s : State) :
    (choosePowers s).queues = s.queues := by
  simp [choosePowers]

@[simp] theorem powersFollow_queues (f : State → State) (s : State) : (powersFollow f s).queues = (f s).queues := by
  simp [powersFollow]

@[simp] theorem holdsFollow_queues (f : State → State) (s : State) : (holdsFollow f s).queues = (f s).queues := by
  simp [holdsFollow]

@[simp] theorem enterStage_queues (k : Nat) (s : State) :
    (enterStage k s).queues = s.queues := by
  simp [enterStage]

@[simp] theorem staged_queues (k : Nat) (f : State → State) (s : State) (h : ∀ s, (f s).queues = s.queues) :
    (staged k f s).queues = s.queues := by
  simp [staged, h]

@[simp] theorem staged_ok (k : Nat) (f : State → State) (s : State) (h : s.queues.Ok) (hf : ∀ s, s.queues.Ok → (f s).queues.Ok) :
    (staged k f s).queues.Ok := by
  unfold staged
  split <;> simp [hf, h]

end Sys2Proof.Machine
end

section
/-! What the barge's other steps, the resets and the Ferry leave of the queues. -/

namespace Sys2Proof.Machine

/-! ### The functions of Machine/BargeRun -/

@[simp] theorem stepped_ok (g : BargeIx) (f : State → State) (s : State) (h : (f s).queues.Ok) : (stepped g f s).queues.Ok := by
  simpa [stepped] using h

@[simp] theorem idleStep_ok (g : BargeIx) (s : State) (h : s.queues.Ok) : (idleStep g s).queues.Ok := by
  unfold idleStep
  extract_lets
  split
  · exact h
  · refine afterLoad_ok _ _ _ _ (fun _ t ht => ?_) h
    repeat' (first | extract_lets | split)
    all_goals simp +zetaDelta [ht]

theorem barge_queues_of {s t : State} (h : t.queues = s.queues) (g : BargeIx) : (t.barges.get g).queues = (s.barges.get g).queues := by
  have hb : t.queues.barges.get g = s.queues.barges.get g := by rw [h]
  simpa only [State.queues, vmap_get] using hb

/-- A barge's queues come to be within their sizes, with no more transactions than before. -/
theorem State.modBarge_fits (s : State) (g : BargeIx) (f : Barge → Barge) (h : s.queues.Ok) (hok : (f (s.barges.get g)).queues.Ok)
    (hc : (f (s.barges.get g)).queues.credits ≤ (s.barges.get g).queues.credits) : (s.modBarge g f).queues.Ok := by
  have hget : ∀ k, ((s.modBarge g f).queues.barges.get k) = if k = g then (f (s.barges.get g)).queues else s.queues.barges.get k := by
    intro k
    simp only [State.queues, vmap_get, State.modBarge_barges, vmod_get]
    split
    · next e => rw [e]
    · rfl
  refine ⟨fun k => ?_, fun n => ?_, h.log, h.egress, h.owners⟩
  · rw [hget]
    split
    · exact hok
    · exact h.barges k
  · refine (List.sum_le_sum fun p _ => ?_).trans (h.basins n)
    rw [hget]
    split
    · next e =>
      rw [e]
      simpa only [State.queues, vmap_get] using hc
    · exact le_rfl

@[simp] theorem drainStore_ok (g : BargeIx) (rivals : List Rival) (s : State) (h : s.queues.Ok) :
    (drainStore g rivals s).queues.Ok := by
  unfold drainStore
  split
  · exact h
  · next e rest he =>
    extract_lets n clk bank a ws part m bad s1 s2
    have h2 : s2.queues = s.queues := by
      simp only [s2, s1, a]
      split <;> simp
    clear_value s2
    split
    · exact h
    · split
      · exact h
      · split
        · simpa [a] using h
        · rw [kickBasin_queues]
          refine State.modBarge_ok _ _ _ (h2 ▸ h) ?_
          have hb := barge_queues_of h2 g
          have hlen : rest.length ≤ (s2.barges.get g).queues.stores := by
            rw [hb]
            show rest.length ≤ (s.barges.get g).stores.length
            rw [he]
            exact Nat.le_succ _
          exact ⟨hlen, le_rfl, le_rfl⟩

@[simp] theorem departXlu_queues (g : BargeIx) (s : State) :
    (departXlu g s).queues = s.queues := by
  unfold departXlu
  dsimp only
  split <;> simp

@[simp] theorem takeXluResp_ok (g : BargeIx) (s : State) (h : s.queues.Ok) : (takeXluResp g s).queues.Ok := by
  unfold takeXluResp
  split
  · next r rest _ =>
    extract_lets s1
    have h1 : s1.queues.Ok := by
      refine State.modBarge_ok _ _ _ h ?_
      dsimp only
      split <;> exact ⟨le_rfl, Nat.sub_le _ _, le_rfl⟩
    clear_value s1
    split <;> simp [h1]
  · exact h

@[simp] theorem completeIou_queues (g : BargeIx) (s : State) :
    (completeIou g s).queues = s.queues := by
  unfold completeIou
  dsimp only
  split <;> simp

@[simp] theorem rptAskWrites_queues (g : BargeIx) (rivals : List Rival) (l : List (Nat × Nat × Nat)) (s : State) :
    (rptAskWrites g rivals l s).2.queues = s.queues := by
  induction l generalizing s with
  | nil => rfl
  | cons x rest ih =>
    unfold rptAskWrites
    split <;> simp [ih]

@[simp] theorem rptComplete_queues (clk : Nat) (b : Barge) : (rptComplete clk b).queues = b.queues := by simp [rptComplete]

@[simp] theorem rptProcess_ok (g : BargeIx) (r : RptRun) (s : State) (h : s.queues.Ok) :
    (rptProcess g r s).queues.Ok := by
  unfold rptProcess
  extract_lets bn b u op n clk fail src next eq sum big v m
  have hfail : ∀ c a, (fail c a).queues.Ok := fun c a => by
    simp only [fail]
    split <;> simp [h]
  have hnext : ∀ s, (next s).queues = s.queues := fun s => State.modBarge_queues _ _ _ fun b => by
    dsimp only
    split <;> simp
  clear_value fail next op
  split
  · exact hfail _ _
  · split
    · split <;> simp [h, hnext]
    · split <;> simp [h, hnext]
    · split
      · exact hfail _ _
      · simp [h, hnext]
    · extract_lets raw ws part s1 s2
      have h2 : s2.queues.Ok := by
        simp only [s2, s1]
        split <;> simp [h]
      clear_value s2
      rw [hnext]
      split <;> simp [h2, Sig.fold_queue]

@[simp] theorem rptElement_ok (g : BargeIx) (rivals : List Rival) (s : State) (h : s.queues.Ok) :
    (rptElement g rivals s).queues.Ok := by
  unfold rptElement
  extract_lets
  split
  · exact h
  · split
    · exact h
    · refine afterLoad_ok _ _ _ _ (fun _ t ht => ?_) h
      extract_lets d
      have hd : d.1.queues.Ok := by
        simp only [d]
        split <;> simp [ht]
      clear_value d
      repeat' (first | extract_lets | split)
      all_goals simp +zetaDelta [hd]

@[simp] theorem endWait_queues (g : BargeIx) (s : State) :
    (endWait g s).queues = s.queues := by
  unfold endWait
  split <;> simp

@[simp] theorem endGate_ok (g : BargeIx) (ret : Bool) (s : State) (h : s.queues.Ok) : (endGate g ret s).queues.Ok := by
  unfold endGate
  extract_lets b
  split
  · exact h
  · next hold _ =>
    split
    · exact h
    · extract_lets h1 s1
      have hs1 : s1.queues.Ok := by
        simp only [s1]
        split <;> simp [h]
      clear_value s1
      exact gateDelivery_ok _ _ _ _ hs1 (by split <;> simp [hs1])

@[simp] theorem syncStep_ok (g : BargeIx) (s : State) (h : s.queues.Ok) : (syncStep g s).queues.Ok := by
  unfold syncStep
  dsimp only
  split
  · exact h
  · split
    · exact afterLoad_ok _ _ _ _ (fun _ t ht => by simp [ht]) h
    · split <;> simp [h]

@[simp] theorem endRead_queues (n : BasinIx) (k w : Fin 4) (l : BitVec 12) (s : State) :
    (endRead n k w l s).queues = s.queues := by
  simp [endRead]

@[simp] theorem deliverRead_queues (n : BasinIx) (k w : Fin 4) (s : State) :
    (deliverRead n k w s).queues = s.queues := by
  unfold deliverRead
  dsimp only
  repeat' split
  all_goals simp

@[simp] theorem endPatrol_queues (n : BasinIx) (k w : Fin 4) (r : WayRead) (s : State) :
    (endPatrol n k w r s).queues = s.queues := by
  simp [endPatrol]

@[simp] theorem patrolStep_queues (n : BasinIx) (k w : Fin 4) (s : State) :
    (patrolStep n k w s).queues = s.queues := by
  unfold patrolStep
  dsimp only
  repeat' split
  all_goals simp

@[simp] theorem windowRead_queues (g : BargeIx) (s : State) :
    (windowRead g s).queues = s.queues := by
  unfold windowRead
  extract_lets n p note
  have hnote : ∀ i hit s, (note i hit s).queues = s.queues := fun i hit s =>
    elim_queues _ _ _ fun o => by split <;> simp
  clear_value note
  split
  · rfl
  · extract_lets c ue crc
    rw [kickBank_queues, State.modBarge_queues _ _ _ fun b => by split <;> simp]
    simp [hnote]

@[simp] theorem interruptAt_ok (g : BargeIx) (s : State) (h : s.queues.Ok) :
    (interruptAt g s).queues.Ok := by
  unfold interruptAt
  dsimp only
  repeat' split
  all_goals simp [h]

@[simp] theorem takeInterrupt_ok (g : BargeIx) (s : State) (h : s.queues.Ok) : (takeInterrupt g s).queues.Ok := by
  unfold takeInterrupt
  split
  · exact afterLoad_ok _ _ _ _ (fun _ t ht => by simp [ht]) h
  · exact h

@[simp] theorem dropMsg_queues (g : BargeIx) (s : State) :
    (dropMsg g s).queues = s.queues := by
  simp [dropMsg]

@[simp] theorem dateArrives_ok (g : BargeIx) (s : State) (h : s.queues.Ok) : (dateArrives g s).queues.Ok := by
  unfold dateArrives
  split
  · next d t _ =>
    extract_lets s1 s2
    have h1 : s1.queues = s.queues := dropMsg_queues g s
    have h2 : s2.queues = s.queues := by
      simp only [s2]
      split <;> simp [h1]
    clear_value s2
    split
    · rw [h1]
      exact h
    · rw [latchSig_queues]
      have ho : (s2.barges.get g).queues.Ok := by
        simpa only [State.queues, vmap_get] using (h2 ▸ h : s2.queues.Ok).barges g
      refine State.modBarge_fits _ _ _ (h2 ▸ h) ?_ ?_
      · split
        · next hlen => exact ⟨ho.stores, ho.credits, by simpa using hlen⟩
        · exact ho
      · split <;> exact le_rfl
  · exact h

@[simp] theorem retryArrives_queues (g : BargeIx) (s : State) :
    (retryArrives g s).queues = s.queues := by
  unfold retryArrives
  split <;> simp

@[simp] theorem noticeArrives_queues (g : BargeIx) (s : State) :
    (noticeArrives g s).queues = s.queues := by
  unfold noticeArrives
  split <;> simp

@[simp] theorem compareReached_queues (g : BargeIx) (k : Fin 4) (s : State) :
    (compareReached g k s).queues = s.queues := by
  simp [compareReached]

@[simp] theorem haltStep_ok (g : BargeIx) (s : State) (h : s.queues.Ok) : (haltStep g s).queues.Ok := by
  unfold haltStep
  extract_lets
  split
  · exact h
  · split
    · exact h
    · refine afterLoad_ok _ _ _ _ (fun _ t ht => ?_) h
      dsimp only
      split <;> simp [ht]

@[simp] theorem unhalt_queues (g : BargeIx) (step : Bool) (s : State) :
    (unhalt g step s).queues = s.queues := by
  simp [unhalt]

@[simp] theorem runOnce_ok (g : BargeIx) (rivals : List Rival) (s : State) (h : s.queues.Ok) :
    (runOnce g rivals s).queues.Ok := by
  simp [h, runOnce]

@[simp] theorem stepBarge_ok (g : BargeIx) (rivals : List Rival) (s : State) (h : s.queues.Ok) :
    (stepBarge g rivals s).queues.Ok := by
  unfold stepBarge
  split
  · extract_lets s1 s2
    have h2 : s2.queues.Ok := stepped_ok _ _ _ (takeInterrupt_ok _ _ (by simpa [s1] using h))
    clear_value s2
    split <;> simp [h2]
  · exact h

@[simp] theorem writeDbgPc_queues (g : BargeIx) (v : Word) (s : State) :
    (writeDbgPc g v s).queues = s.queues := by
  simp [writeDbgPc]

theorem Barge.queues_dite (c : Prop) [Decidable c] (b : c → Barge) (b' : ¬c → Barge) :
    (if h : c then b h else b' h).queues = if h : c then (b h).queues else (b' h).queues := apply_dite Barge.queues c b b'

@[simp] theorem writeDbgReg_queues (g : BargeIx) (v : Word) (s : State) :
    (writeDbgReg g v s).queues = s.queues := by
  unfold writeDbgReg
  rw [State.queues_ite, State.modBarge_queues _ _ _ fun b => ?_, ite_self]
  simp only [Barge.queues_dite, Barge.queues_ite, Barge.setBank_queues, Barge.queues_mk, Barge.queues_eta, dite_eq_ite, ite_self]

/-! ### The functions of Machine/Crp -/

@[simp] theorem armMonitors_queues (s : State) :
    (armMonitors s).queues = s.queues := by
  simp [armMonitors]

@[simp] theorem lockPll_queues (p : PllIx) (s : State) :
    (lockPll p s).queues = s.queues := by
  simp [lockPll]

@[simp] theorem losePll_queues (p : PllIx) (s : State) :
    (losePll p s).queues = s.queues := by
  simp [losePll]

@[simp] theorem clockFault_ok (c : Clk) (s : State) (h : s.queues.Ok) :
    (clockFault c s).queues.Ok := by
  unfold clockFault
  split <;> simp [h]

@[simp] theorem clockWindow_ok (c : Clk) (count : Nat) (s : State) (h : s.queues.Ok) :
    (clockWindow c count s).queues.Ok := by
  simp [h, clockWindow]

@[simp] theorem supplyFault_ok (r : Rail) (s : State) (h : s.queues.Ok) :
    (supplyFault r s).queues.Ok := by
  unfold supplyFault
  dsimp only
  repeat' split
  all_goals simp [h]

@[simp] theorem supplyBack_queues (r : Rail) (s : State) :
    (supplyBack r s).queues = s.queues := by
  unfold supplyBack
  dsimp only
  repeat' split
  all_goals simp

@[simp] theorem cutNvp_queues (s : State) (c : Fin 4) :
    (cutNvp s c).queues = s.queues := by
  unfold cutNvp
  split <;> simp

@[simp] theorem cutAllNvp_queues (s : State) :
    (cutAllNvp s).queues = s.queues := by
  simp [cutAllNvp]

@[simp] theorem performWrite_queues (r : WharfReq) (s : State) : (performWrite r s).queues = s.queues := by
  unfold performWrite
  extract_lets
  split
  · simp
  · split <;> simp

@[simp] theorem endWrite_queues (s : State) (r : WharfReq) :
    (endWrite s r).queues = s.queues := by
  simp [endWrite]

@[simp] theorem staleImage_queues (n : BasinIx) (s : State) :
    (staleImage n s).queues = s.queues := by
  simp [staleImage]

/-- The queues after a reset of the device. -/
def Queues.fresh : Queues :=
  ⟨Vector.replicate 48 ⟨0, 0, 0⟩, 0, Vector.replicate 14 0, Vector.replicate 64 none, Vector.replicate 256 ({} : KTask).binding⟩

theorem Queues.fresh_ok : Queues.fresh.Ok := by
  refine ⟨fun g => ?_, fun n => ?_, Nat.zero_le _, fun i => ?_, fun r o ho => ?_⟩
  · rw [Queues.fresh, vget_eq, Vector.getElem_replicate]
    exact ⟨Nat.zero_le _, Nat.zero_le _, Nat.zero_le _⟩
  · simp [Queues.fresh, basinCredits, vget_eq]
  · simp [Queues.fresh, vget_eq]
  · simp [Queues.fresh, vget_eq] at ho

theorem map_of_forall {α β : Type} {n : Nat} (p : α → β) (v : Vector α n) (y : β) (h : ∀ i, p (v.get i) = y) :
    v.map p = Vector.replicate n y := by
  refine vget_ext fun i => ?_
  rw [vmap_get, h, vget_eq, Vector.getElem_replicate]

theorem deviceReset_queues (crp : Crp) (rv : Reservoir) (loaded : Fuses) (s : State) :
    (deviceReset crp rv loaded s).queues = Queues.fresh := by
  unfold deviceReset
  extract_lets count s0
  have hb : s0.barges.map Barge.queues = Vector.replicate 48 ⟨0, 0, 0⟩ :=
    map_of_forall _ _ _ fun g => by simp [s0, vget_eq, Barge.afterReset, Barge.restored]
  simp only [keeperReset, State.queues_mk, hb, Queues.fresh, Vector.map_replicate, s0]
  rfl

@[simp] theorem deviceReset_ok (crp : Crp) (rv : Reservoir) (loaded : Fuses) (s : State) :
    (deviceReset crp rv loaded s).queues.Ok := deviceReset_queues crp rv loaded s ▸ Queues.fresh_ok

@[simp] theorem beginWarm_ok (src : BitVec 2) (pins : Pins) (s : State) : (beginWarm src pins s).queues.Ok := by
  unfold beginWarm
  rw [watchKstat_queues]
  exact deviceReset_ok _ _ _ _

@[simp] theorem warmReset_ok (src : BitVec 2) (pins : Pins) (s : State) (h : s.queues.Ok) :
    (warmReset src pins s).queues.Ok := by
  simp [h, warmReset]

@[simp] theorem assertCold_ok (r : Rail) (s : State) (h : s.queues.Ok) : (assertCold r s).queues.Ok := by
  unfold assertCold
  split
  · exact deviceReset_ok _ _ _ _
  · exact h

theorem coldBarge_reset_queues (x : BitVec 61) (g : BargeIx) : (coldBarge x (State.reset.barges.get g)).queues = ⟨0, 0, 0⟩ := by
  simp [coldBarge, State.reset, vget_eq]

@[simp] theorem releaseCold_ok (pins : Pins) (levels : BitVec 12) (s : State) (h : s.queues.Ok) :
    (releaseCold pins levels s).queues.Ok := by
  unfold releaseCold
  split
  · exact h
  · extract_lets rv _ crp s1
    have h1 : s1.queues = Queues.fresh := deviceReset_queues _ _ _ _
    have hb : (State.reset.barges.map (coldBarge (Config.freeSignature s.freeCtr))).map Barge.queues = Vector.replicate 48 ⟨0, 0, 0⟩ :=
      map_of_forall _ _ _ fun g => by rw [vmap_get, coldBarge_reset_queues]
    have he : s1.ferry.eq.map EgReq.size = Vector.replicate 14 0 := congrArg Queues.egress h1
    rw [State.queues_mk, hb, he, Vector.map_replicate, Vector.map_replicate]
    exact Queues.fresh_ok

@[simp] theorem resetPulse_ok (width : Nat) (pins : Pins) (s : State) (h : s.queues.Ok) :
    (resetPulse width pins s).queues.Ok := by
  simp [h, resetPulse]

@[simp] theorem resetTender_queues (n : BasinIx) (s : State) :
    (resetTender n s).queues = s.queues := by
  simp [resetTender]

@[simp] theorem resetPosition_ok (n : BasinIx) (s : State) (p : Fin 4) (h : s.queues.Ok) :
    (resetPosition n s p).queues.Ok := by
  simp [resetPosition, h]

@[simp] theorem completePort_queues (n : BasinIx) (s : State) : (completePort n s).queues = s.queues := by
  refine (foldl_queues _ (fun s r => ?_) _ _).trans (State.modBasin_queues _ _ _)
  split <;> simp

@[simp] theorem restoreBasin_queues (n : BasinIx) (s : State) : (restoreBasin n s).queues = s.queues := by
  simp [restoreBasin]

theorem setRetired_queues (s : State) (x : BitVec 48) : ({ s with kp := { s.kp with retired := x } } : State).queues = s.queues := by
  simp

theorem staleImage_kp (n : BasinIx) (s : State) : (staleImage n s).kp = s.kp := by
  unfold staleImage
  rfl

@[simp] theorem resetBasin_ok (n : BasinIx) (s : State) (h : s.queues.Ok) : (resetBasin n s).queues.Ok := by
  unfold resetBasin
  split
  · exact h
  · extract_lets s1 s2 kept told _ s3 src k
    have h1 : s1.queues.Ok := stopTasksOn_ok _ _ h
    clear_value s1
    have h2 : s2.queues.Ok := foldl_ok _ (resetPosition_ok n) _ (resetTender n s1) (by simpa using h1)
    clear_value s2 kept
    have htold : ∀ t, (told t).queues = t.queues := fun t => by simp [told]
    clear_value told
    have h3 : s3.queues.Ok := by simpa only [s3, State.queues_mk, State.queues_eta] using h2
    clear_value s3
    rw [settle_queues, watchReady_queues, htold, restoreBasin_queues]
    have h4 : src.queues = s3.queues := staleImage_queues _ _
    have hk : k = src.kp := (staleImage_kp _ _).symm
    clear_value k src
    subst hk
    rw [setRetired_queues, h4]
    exact h3

@[simp] theorem endBasinTest_queues (n : BasinIx) (defects : List (Fin 16 × Fin 348)) (s : State) :
    (endBasinTest n defects s).queues = s.queues := by
  unfold endBasinTest
  split <;> simp

@[simp] theorem endReservoirTest_queues (p : Fin 4) (defects : List (Fin 4 × Fin 348)) (s : State) :
    (endReservoirTest p defects s).queues = s.queues := by
  unfold endReservoirTest
  split <;> simp

@[simp] theorem commandReset_ok (g : BargeIx) (s : State) (h : s.queues.Ok) :
    (commandReset g s).queues.Ok := by
  simp [h, commandReset]

@[simp] theorem writeHold_ok (g : BargeIx) (hold : Bool) (s : State) (h : s.queues.Ok) :
    (writeHold g hold s).queues.Ok := by
  simp [h, writeHold]

@[simp] theorem writeHolds_ok (high : Bool) (v : Word) (s : State) (h : s.queues.Ok) : (writeHolds high v s).queues.Ok :=
  foldl_ok _ (fun s g h => writeHold_ok g _ s h) _ _ h

@[simp] theorem loadStationTime_queues (v : Word) (s : State) :
    (loadStationTime v s).queues = s.queues := by
  simp [loadStationTime]

@[simp] theorem trim_queues (before : BitVec 64) (s : State) :
    (trim before s).queues = s.queues := by
  simp [trim]

@[simp] theorem setCur_queues (n : BasinIx) (c : BitVec 2) (s : State) :
    (setCur n c s).queues = s.queues := by
  simp [setCur]

@[simp] theorem enterB1_queues (n : BasinIx) (s : State) :
    (enterB1 n s).queues = s.queues := by
  simp [enterB1]

@[simp] theorem wakeB1_queues (n : BasinIx) (s : State) :
    (wakeB1 n s).queues = s.queues := by
  simp [wakeB1]

@[simp] theorem powerOff_ok (n : BasinIx) (s : State) (h : s.queues.Ok) : (powerOff n s).queues.Ok := by
  unfold powerOff
  extract_lets s1
  rw [State.modBasin_queues]
  refine foldl_ok _ (fun s q h => State.modBarge_ok _ _ _ (resetPosition_ok n s q h) ?_) _ _ (by simpa using h)
  have hf := coldBarge_reset_queues (Config.freeSignature s.freeCtr) (bargeOf n q)
  simp only [← Barge.queues_eta, BargeQueues.mk.injEq] at hf
  obtain ⟨hs, hx, hd⟩ := hf
  exact ⟨hs.le.trans (Nat.zero_le _), hx.le.trans (Nat.zero_le _), hd.le.trans (Nat.zero_le _)⟩

@[simp] theorem holdAll_ok (n : BasinIx) (s : State) (h : s.queues.Ok) : (holdAll n s).queues.Ok :=
  foldl_ok _ (fun s q h => writeHold_ok (bargeOf n q) true s h) _ _ h

@[simp] theorem endPower_ok (n : BasinIx) (s : State) (h : s.queues.Ok) :
    (endPower n s).queues.Ok := by
  unfold endPower
  dsimp only
  repeat' split
  all_goals simp [h]

@[simp] theorem convert_queues (rs : List (BitVec 12 × Bool)) (s : State) (k : Fin 8) :
    (convert rs s k).queues = s.queues := by
  unfold convert
  split <;> simp

@[simp] theorem setLevel_queues (l : BitVec 2) (s : State) :
    (setLevel l s).queues = s.queues := by
  simp [setLevel]

@[simp] theorem throttle_queues (s : State) :
    (throttle s).queues = s.queues := by
  simp [throttle]

@[simp] theorem conversion_ok (rs : List (BitVec 12 × Bool)) (s : State) (h : s.queues.Ok) : (conversion rs s).queues.Ok := by
  unfold conversion
  extract_lets s1 _ s2 hot _ s3
  have h2 : s2.queues = s.queues := by simp [s2, s1]
  have h3 : s3.queues.Ok := by
    simp only [s3]
    split <;> simp [h2, h]
  rw [throttle_queues]
  exact h3

@[simp] theorem bootWith_queues (firmware sig : List Byte) (s : State) :
    (bootWith firmware sig s).queues = s.queues := by
  simp [bootWith]

@[simp] theorem bootStore_queues (firmware sig : List Byte) (s : State) :
    (bootStore firmware sig s).queues = s.queues := by
  simp [bootStore]

@[simp] theorem bootReceived_queues (firmware sig : List Byte) (s : State) :
    (bootReceived firmware sig s).queues = s.queues := by
  simp [bootReceived]

@[simp] theorem writeRstcmd_ok (v : Word) (pins : Pins) (s : State) (h : s.queues.Ok) : (writeRstcmd v pins s).queues.Ok := by
  unfold writeRstcmd
  split
  · exact warmReset_ok _ _ _ h
  · exact foldl_ok _ (fun s n h => resetBasin_ok n s h) _ _ h

@[simp] theorem writeBrst_ok (high : Bool) (v : Word) (s : State) (h : s.queues.Ok) : (writeBrst high v s).queues.Ok :=
  foldl_ok _ (fun s g h => commandReset_ok g s h) _ _ h

@[simp] theorem crpReadEffect_queues (off : Nat) (s : State) :
    (crpReadEffect off s).queues = s.queues := by
  simp [crpReadEffect]

theorem crpWrite_ok (off : Nat) (v : Word) (s : State) (h : s.queues.Ok) :
    ∀ t ∈ crpWrite off v s, t.queues.Ok := by
  unfold crpWrite
  repeat' (first | extract_lets | split | refine ok_of_some ?_)
  all_goals simp +zetaDelta [h]

/-! ### The functions of Machine/Ferry -/

@[simp] theorem hostWrite_queues (a : Nat) (bs : List Byte) (s : State) :
    (hostWrite a bs s).queues = s.queues := by
  simp [hostWrite]

@[simp] theorem touchLink_queues (s : State) :
    (touchLink s).queues = s.queues := by
  simp [touchLink]

@[simp] theorem enterL1_queues (s : State) :
    (enterL1 s).queues = s.queues := by
  simp [enterL1]

@[simp] theorem sendLtr_queues (s : State) :
    (sendLtr s).queues = s.queues := by
  simp [sendLtr]

@[simp] theorem flushVector_queues (s : State) (v : Fin 64) :
    (flushVector s v).queues = s.queues := by
  simp [flushVector]

@[simp] theorem flushVectors_queues (s : State) :
    (flushVectors s).queues = s.queues := by
  simp [flushVectors]

@[simp] theorem writeConfig_queues (c : ConfigWrite) (s : State) :
    (writeConfig c s).queues = s.queues := by
  simp [writeConfig]

@[simp] theorem noteOvr_queues (k : Fin 4) (s : State) :
    (noteOvr k s).queues = s.queues := by
  simp [noteOvr]

@[simp] theorem ringDoorbell_queues (s : State) (k : Fin 4) :
    (ringDoorbell s k).queues = s.queues := by
  simp [ringDoorbell]

@[simp] theorem ringDoorbells_queues (v : BitVec 4) (s : State) :
    (ringDoorbells v s).queues = s.queues := by
  simp [ringDoorbells]

@[simp] theorem hostErr_queues (s : State) :
    (hostErr s).queues = s.queues := by
  simp [hostErr]

@[simp] theorem poisonedWrite_queues (s : State) :
    (poisonedWrite s).queues = s.queues := by
  simp [poisonedWrite]

@[simp] theorem dropTlp_queues (s : State) :
    (dropTlp s).queues = s.queues := by
  simp [dropTlp]

@[simp] theorem hostRegister_queues (x : HostFlags) (f : State → State) (s : State) (h : ∀ s, (f s).queues = s.queues) :
    (hostRegister x f s).queues = s.queues := by
  simp [hostRegister, h]

@[simp] theorem writeMailbox_queues (k : Fin 4) (x : HostBytes) (s : State) :
    (writeMailbox k x s).queues = s.queues := by
  simp [writeMailbox]

@[simp] theorem writeRci_queues (i : Fin 4) (v : Dword) (s : State) :
    (writeRci i v s).queues = s.queues := by
  simp [writeRci]

@[simp] theorem writeRcfg_queues (i : Fin 4) (v : Dword) (s : State) :
    (writeRcfg i v s).queues = s.queues := by
  simp [writeRcfg]

@[simp] theorem State.modEq_queues (s : State) (q : Fin 14) (f : EgReq → EgReq) (h : ∀ x, (f x).size = x.size) :
    (State.modEq s q f).queues = s.queues := by
  simp [State.modEq, h]

/-- An egress queue comes to be within its size. -/
theorem State.modEq_ok (s : State) (q : Fin 14) (f : EgReq → EgReq) (h : s.queues.Ok) (hf : (f (s.ferry.eq.get q)).size ≤ 8) :
    (s.modEq q f).queues.Ok := by
  refine ⟨h.barges, h.basins, h.log, fun i => ?_, h.owners⟩
  simp only [State.queues, vmap_get, State.modEq, vmod_get]
  split
  · next e =>
    subst e
    exact hf
  · simpa only [State.queues, vmap_get] using h.egress i

theorem egress_size_le {s : State} (h : s.queues.Ok) (q : Fin 14) : (s.ferry.eq.get q).queue.length ≤ 8 := by
  simpa only [State.queues, vmap_get, EgReq.size] using h.egress q

@[simp] theorem EgReq.size_ite (c : Prop) [Decidable c] (x y : EgReq) : (if c then x else y).size = if c then x.size else y.size :=
  apply_ite EgReq.size c x y

@[simp] theorem watchLine_queues (q : Fin 14) (f : State → State) (s : State) : (watchLine q f s).queues = (f s).queues := by
  simp [watchLine]

@[simp] theorem endGrant_queues (s : State) :
    (endGrant s).queues = s.queues := by
  simp [endGrant]

@[simp] theorem settleBonus_queues (s : State) :
    (settleBonus s).queues = s.queues := by
  unfold settleBonus
  split
  · rfl
  · next set _ =>
    extract_lets f
    have he : (Vector.ofFn fun q =>
        let x := f.eq.get q
        if q = f.owner then { x with bonus := 0 }
        else if bit set q.val ∧ x.tickets ≠ 0 then { x with bonus := satInc x.bonus } else x).map EgReq.size = f.eq.map EgReq.size := by
      refine vget_ext fun q => ?_
      rw [vmap_get, vmap_get, vget_eq, Vector.getElem_ofFn]
      dsimp only
      split
      · rfl
      · split <;> rfl
    simp only [State.queues_mk, he, f, State.queues_eta]

@[simp] theorem sendData_queues (a : Nat) (bs : List Byte) (s : State) :
    (sendData a bs s).queues = s.queues := by
  simp [sendData]

@[simp] theorem entryWritten_queues (i : Fin 4) (e : List Byte) (rest : List (List Byte)) (s : State) :
    (entryWritten i e rest s).queues = s.queues := by
  simp [entryWritten]

@[simp] theorem writeEntry_queues (i : Fin 4) (s : State) :
    (writeEntry i s).queues = s.queues := by
  unfold writeEntry
  split <;> simp

@[simp] theorem bar0Register_queues (off : Nat) (v : Dword) (s : State) :
    (bar0Register off v s).queues = s.queues := by
  unfold bar0Register
  repeat' (first | extract_lets | split | refine queues_of_some ?_)
  all_goals simp +zetaDelta

@[simp] theorem bar0Write_queues (off : Nat) (x : HostFlags) (v : Dword) (s : State) :
    (bar0Write off x v s).queues = s.queues := by
  simp [bar0Write]

/-- The queues of the state that a run of transactions has reached are these. -/
def FerryRun.Has (r : FerryRun) (q : Queues) : Prop := ∀ x ∈ r, x.2.queues = q

theorem FerryRun.has_start (n : Nat) (s : State) : FerryRun.Has (some (n, s)) s.queues := fun _ hx => by cases hx; rfl

theorem FerryRun.over_queues (s : State) (r : FerryRun) (f : State → State) (hr : r.Has s.queues)
    (hf : ∀ s, (f s).queues = s.queues) : (FerryRun.over s r f).queues = s.queues := by
  cases r with
  | none => simp [FerryRun.over]
  | some x => exact (hf _).trans (hr x rfl)

theorem FerryRun.access_queues (t : Tx) (r : FerryRun) {q : Queues} (h : r.Has q) : (r.access t).2.Has q := by
  cases r with
  | none => simp [FerryRun.access, FerryRun.Has]
  | some x =>
    obtain ⟨j, s⟩ := x
    have hd := (directTx_queues performMemory 13 t j s fun r s => performMemory_queues r s).trans (h _ rfl)
    unfold FerryRun.access
    dsimp only
    split
    next heq =>
      rw [heq] at hd
      simpa [FerryRun.Has] using hd
    next => simp [FerryRun.Has]

theorem viewAccess_queues (t : Tx) (r : FerryRun) {q : Queues} (h : r.Has q) : (viewAccess t r).2.Has q := by
  have ha := FerryRun.access_queues t r h
  unfold viewAccess
  split
  next x r1 heq =>
    rw [heq] at ha
    dsimp only
    split
    · exact ha
    · intro y hy
      obtain ⟨z, hz, rfl⟩ := Option.mem_map.1 hy
      simpa using ha z hz
  next r1 heq =>
    rw [heq] at ha
    exact ha

theorem viewWriteWord_queues (packed : Bool) (x : HostBytes) (r : FerryRun) (w : Nat) {q : Queues} (h : r.Has q) :
    (viewWriteWord packed x r w).Has q := by
  unfold viewWriteWord
  extract_lets bitsOf full part value r1 r2
  have h1 : r1.Has q := by
    simp only [r1]
    split
    · exact h
    · exact viewAccess_queues _ _ h
  split
  · exact h1
  · exact viewAccess_queues _ _ (viewAccess_queues _ _ h1)

@[simp] theorem returnBytes_queues (packed : Bool) (x : HostBytes) (ws : List (Nat × Word)) (s : State) :
    (returnBytes packed x ws s).queues = s.queues := by
  simp [returnBytes]

@[simp] theorem viewWrite_queues (packed : Bool) (x : HostBytes) (s : State) :
    (viewWrite packed x s).queues = s.queues := by
  have step : ∀ (l : List Nat) (r : FerryRun), r.Has s.queues → (l.foldl (viewWriteWord packed x) r).Has s.queues := by
    intro l
    induction l with
    | nil => exact fun _ hr => hr
    | cons w l ih => exact fun r hr => ih _ (viewWriteWord_queues packed x r w hr)
  exact FerryRun.over_queues s _ id (step _ _ (FerryRun.has_start 0 s)) fun _ => rfl

@[simp] theorem viewRead_queues (packed : Bool) (x : HostBytes) (s : State) :
    (viewRead packed x s).queues = s.queues := by
  unfold viewRead
  extract_lets step r
  have hstep : ∀ (l : List Nat) (r : List (Nat × Word) × FerryRun), r.2.Has s.queues → (l.foldl step r).2.Has s.queues := by
    intro l
    induction l with
    | nil => exact fun _ hr => hr
    | cons w l ih => exact fun r hr => ih _ (viewAccess_queues _ r.2 hr)
  exact FerryRun.over_queues s _ _ (hstep _ ([], some (0, s)) (FerryRun.has_start 0 s)) fun t => returnBytes_queues _ _ _ t

@[simp] theorem viewHost_queues (packed write : Bool) (x : HostBytes) (s : State) :
    (viewHost packed write x s).queues = s.queues := by
  simp [viewHost]

@[simp] theorem noteAer_queues (how : HostEnd) (s : State) :
    (noteAer how s).queues = s.queues := by
  simp [noteAer]

@[simp] theorem pcioFail_queues (p : PcioReq) (kind : BitVec 2) (s : State) :
    (pcioFail p kind s).queues = s.queues := by
  simp [pcioFail]

@[simp] theorem failRead_queues (kind : BitVec 2) (s : State) :
    (failRead kind s).queues = s.queues := by
  unfold failRead
  split <;> simp

@[simp] theorem pcioGo_queues (data : List Word) (s : State) :
    (pcioGo data s).queues = s.queues := by
  unfold pcioGo
  dsimp only
  repeat' split
  all_goals simp

@[simp] theorem pcioEndFail_queues (kind : HostEnd) (s : State) :
    (pcioEndFail kind s).queues = s.queues := by
  simp [pcioEndFail]

@[simp] theorem igSignal_queues (e : Fin 4) (barge : BitVec 6) (ben men : Bool) (s : State) :
    (igSignal e barge ben men s).queues = s.queues := by
  unfold igSignal
  split <;> simp

@[simp] theorem igStart_queues (e : Fin 4) (s : State) :
    (igStart e s).queues = s.queues := by
  simp [igStart]

@[simp] theorem igFinish_queues (e : Fin 4) (ok : Bool) (s : State) :
    (igFinish e ok s).queues = s.queues := by
  simp [igFinish]

theorem writeRun_queues (id addr : Nat) (ws : List Word) (r : FerryRun) {q : Queues} (h : r.Has q) :
    (writeRun id addr ws r).2.Has q := by
  induction ws generalizing addr r with
  | nil => exact h
  | cons w rest ih =>
    have ha := FerryRun.access_queues (ferryTx id addr (some w)) r h
    unfold writeRun
    split
    next heq =>
      rw [heq] at ha
      split
      · exact ih _ _ ha
      · exact ha
    next heq =>
      rw [heq] at ha
      exact ha

@[simp] theorem igEnd_queues (e : Fin 4) (data : List Byte) (how : HostEnd) (s : State) :
    (igEnd e data how s).queues = s.queues := by
  unfold igEnd
  split
  · extract_lets
    split
    · rfl
    · exact FerryRun.over_queues s _ _ (writeRun_queues _ _ _ _ (FerryRun.has_start 0 s)) fun t => by simp
  · rfl

@[simp] theorem eqPushDesc_ok (q : Fin 14) (s : State) (h : s.queues.Ok) : (eqPushDesc q s).queues.Ok := by
  unfold eqPushDesc
  extract_lets x
  split
  · simp [h]
  · split
    · simp [h]
    · next hlen =>
      rw [watchLine_queues]
      refine State.modEq_ok _ _ _ h ?_
      rw [EgReq.size_mk, List.length_append]
      exact Nat.not_le.1 hlen

@[simp] theorem grantTo_queues (q : Fin 14) (drawn : Option (BitVec 14)) (s : State) :
    (grantTo q drawn s).queues = s.queues := by
  simp [grantTo]

@[simp] theorem voidTo_queues (q : Fin 14) (s : State) :
    (voidTo q s).queues = s.queues := by
  simp [voidTo]

@[simp] theorem draw_queues (s0 : State) :
    (draw s0).queues = s0.queues := by
  unfold draw
  dsimp only
  split <;> simp

@[simp] theorem egressArbitrate_queues (s : State) :
    (egressArbitrate s).queues = s.queues := by
  unfold egressArbitrate
  dsimp only
  split <;> simp

@[simp] theorem setStream_queues (q : Fin 14) (ws : List Word) (s : State) :
    (setStream q ws s).queues = s.queues := by
  unfold setStream
  split <;> simp

@[simp] theorem noteEnd_queues (d : EgDesc) (ok : Bool) (s : State) :
    (noteEnd d ok s).queues = s.queues := by
  unfold noteEnd
  split <;> simp

@[simp] theorem failFront_ok (q : Fin 14) (s : State) (h : s.queues.Ok) : (failFront q s).queues.Ok := by
  unfold failFront
  split
  · next d rest hq =>
    rw [State.mark_queues, noteEnd_queues, watchLine_queues]
    refine State.modEq_ok _ _ _ h ?_
    have hlen := egress_size_le h q
    rw [hq, List.length_cons] at hlen
    rw [EgReq.size_mk]
    omega
  · exact h

@[simp] theorem sendBytes_ok (q : Fin 14) (d : EgDesc) (bs : List Byte) (held : List Word) (s : State) (h : s.queues.Ok) :
    (sendBytes q d bs held s).queues.Ok := by
  unfold sendBytes
  extract_lets s1 sent s2 f
  have h1 : s1.queues.Ok := by simpa [s1] using h
  clear_value s1
  have hlen := egress_size_le h1 q
  split
  · refine State.modEq_ok _ _ _ h1 ?_
    rw [EgReq.size_mk, List.length_cons, List.length_tail]
    omega
  · have h2 : s2.queues.Ok := by
      simp only [s2, watchLine_queues]
      refine State.modEq_ok _ _ _ h1 ?_
      rw [EgReq.size_mk, List.length_tail]
      omega
    simpa [f] using h2

theorem readRun_queues (addr n : Nat) (r : FerryRun) {q : Queues} (h : r.Has q) : (readRun addr n r).2.Has q := by
  induction n generalizing addr r with
  | zero => exact h
  | succ n ih =>
    have ha := FerryRun.access_queues (ferryTx 5 addr none) r h
    unfold readRun
    split
    next heq =>
      rw [heq] at ha
      split
      · exact ih _ _ ha
      · exact ha
    next heq =>
      rw [heq] at ha
      exact ha

@[simp] theorem egressSend_ok (s : State) (h : s.queues.Ok) : (egressSend s).queues.Ok := by
  have hr : ∀ a n, (readRun a n (some (0, s))).2.Has s.queues := fun a n => readRun_queues a n _ (FerryRun.has_start 0 s)
  unfold egressSend
  extract_lets q
  split
  next d rest hq =>
    extract_lets n f first count cut bytes
    split
    · exact h
    · split
      · simp [h]
      · split
        · simp [h]
        · have hx := hr (d.waddr.toNat + 4 * (first + d.held.length)) (count - d.held.length)
          split
          · simp [h]
          next got _ s1 heq =>
            rw [heq] at hx
            have h1 : s1.queues.Ok := by
              rw [show s1.queues = s.queues from hx _ rfl]
              exact h
            simp [h1]
          next _ s1 heq =>
            rw [heq] at hx
            have h1 : s1.queues.Ok := by
              rw [show s1.queues = s.queues from hx _ rfl]
              exact h
            simp [h1]
  next => split <;> simp [h]

@[simp] theorem refill_queues (s : State) :
    (refill s).queues = s.queues := by
  simp [refill]

@[simp] theorem egressReset_ok (s : State) (h : s.queues.Ok) : (egressReset s).queues.Ok := by
  unfold egressReset
  extract_lets q s2 s3 waits s1 f
  have h2 : s2.queues.Ok := by
    simp only [s2]
    split <;> simp [h]
  have h3 : s3.queues.Ok := by
    simp only [s3]
    split <;> simp [h2]
  have h1 : s1.queues.Ok := by
    simp only [s1]
    split <;> simp [h3, h]
  simpa [f] using h1

@[simp] theorem strmWrite_queues (v : Word) (s : State) :
    (strmWrite v s).queues = s.queues := by
  simp [strmWrite]

@[simp] theorem mayWrite_queues (e : Fin 4) (waddr : BitVec 32) (s : State) (j : Nat) :
    (mayWrite e waddr s j).queues = s.queues := by
  unfold mayWrite
  split
  · have ha := FerryRun.access_queues (ferryTx (1 + e.val) (waddr.toNat + 4 * j) (some (Config.freeWord s.freeCtr)))
      (some (j, s.free)) (FerryRun.has_start j s.free)
    revert ha
    generalize (FerryRun.access _ _).2 = r
    intro ha
    cases r with
    | none => simp
    | some x => simpa using ha x rfl
  · simp

@[simp] theorem stopIngress_queues (s : State) (e : Fin 4) : (stopIngress s e).queues = s.queues := by
  unfold stopIngress
  extract_lets s1 f
  have h1 : s1.queues = s.queues := by
    simp only [s1]
    split
    · exact foldl_queues _ (fun s j => mayWrite_queues e _ s j) _ _
    · rfl
  simpa [f] using h1

@[simp] theorem hostScopeReset_ok (s : State) (h : s.queues.Ok) : (hostScopeReset s).queues.Ok := by
  unfold hostScopeReset
  extract_lets s1 f
  have h1 : s1.queues.Ok := by simpa [s1] using h
  clear_value s1
  refine ⟨h1.barges, h1.basins, h1.log, fun i => ?_, h1.owners⟩
  simp only [State.queues_mk, vmap_get, EgReq.size_mk, List.length_nil, Nat.zero_le]

@[simp] theorem flrReset_ok (s : State) (h : s.queues.Ok) : (flrReset s).queues.Ok := by
  simp [flrReset, h]

@[simp] theorem perstReset_ok (s : State) (h : s.queues.Ok) : (perstReset s).queues.Ok := by
  simp [perstReset, h]

@[simp] theorem eqWrite_ok (q : Fin 14) (k : Nat) (v : Word) (s : State) (h : s.queues.Ok) : (eqWrite q k v s).queues.Ok := by
  unfold eqWrite
  dsimp only
  split
  case h_4 => split <;> simp [h]
  all_goals simp [h]

@[simp] theorem igWrite_queues (e : Fin 4) (k : Nat) (v : Word) (s : State) :
    (igWrite e k v s).queues = s.queues := by
  unfold igWrite
  split <;> simp

theorem ferryWrite_ok (off : Nat) (v : Word) (s : State) (h : s.queues.Ok) :
    ∀ t ∈ ferryWrite off v s, t.queues.Ok := by
  unfold ferryWrite
  repeat' (first | extract_lets | split | refine ok_of_some ?_)
  all_goals simp +zetaDelta [h]

end Sys2Proof.Machine
end

section
/-! What the security unit, the bridge and the Harbourmaster's commands leave of the queues. -/

namespace Sys2Proof.Machine

/-! ### The functions of Machine/Sec -/

@[simp] theorem newChallenge_queues (random : BitVec 256) (s : State) :
    (newChallenge random s).queues = s.queues := by
  simp [newChallenge]

@[simp] theorem startVerify_queues (slot : Fin 4) (s : State) :
    (startVerify slot s).queues = s.queues := by
  simp [startVerify]

@[simp] theorem noteKey_queues (slot : Fin 4) (given : List Byte) (s : State) :
    (noteKey slot given s).queues = s.queues := by
  simp [noteKey]

@[simp] theorem endVerify_queues (given : List Byte) (s0 : State) :
    (endVerify given s0).queues = s0.queues := by
  unfold endVerify
  dsimp only
  split <;> simp

@[simp] theorem relock_queues (s : State) :
    (relock s).queues = s.queues := by
  simp [relock]

@[simp] theorem fuseStart_queues (op : Nat) (v : Word) (s : State) :
    (fuseStart op v s).queues = s.queues := by
  simp [fuseStart]

@[simp] theorem fuseEnd_queues (s : State) :
    (fuseEnd s).queues = s.queues := by
  unfold fuseEnd
  split <;> simp

@[simp] theorem resetDbg_queues (s : State) (g : BargeIx) :
    (resetDbg s g).queues = s.queues := by
  simp [resetDbg]

@[simp] theorem debugReset_queues (s : State) :
    (debugReset s).queues = s.queues := by
  simp [debugReset]

@[simp] theorem writeDbgCtl_ok (g : BargeIx) (v : Word) (s : State) (h : s.queues.Ok) : (writeDbgCtl g v s).queues.Ok := by
  unfold writeDbgCtl
  extract_lets s1 s2 s3
  have h2 : s2.queues.Ok := by
    simp only [s2]
    split <;> simp [s1, h]
  have h3 : s3.queues.Ok := by
    simp only [s3]
    split <;> simp [h2]
  split <;> simp [h3]

@[simp] theorem dbgWrite_ok (g : BargeIx) (k : Nat) (v : Word) (s : State) (h : s.queues.Ok) :
    (dbgWrite g k v s).queues.Ok := by
  unfold dbgWrite
  split <;> simp [h]

@[simp] theorem writeSecCtl_ok (v : Word) (s : State) (h : s.queues.Ok) :
    (writeSecCtl v s).queues.Ok := by
  simp [h, writeSecCtl]

theorem secWrite_ok (off : Nat) (v : Word) (s : State) (h : s.queues.Ok) :
    ∀ t ∈ secWrite off v s, t.queues.Ok := by
  unfold secWrite
  repeat' (first | extract_lets | split | refine ok_of_some ?_)
  all_goals simp +zetaDelta [h]

@[simp] theorem updateIr_queues (ir : JtagIr) (s : State) :
    (updateIr ir s).queues = s.queues := by
  simp [updateIr]

@[simp] theorem secAccess_ok (off : Nat) (write : Bool) (v : Word) (s : State) (h : s.queues.Ok) :
    (secAccess off write v s).queues.Ok := by
  have hw := getD_ok (secWrite off v s) s h (secWrite_ok off v s h)
  unfold secAccess
  split
  · simp [h]
  · split <;> simp [hw, h]

@[simp] theorem updateDr_ok (dr : BitVec 72) (s : State) (h : s.queues.Ok) :
    (updateDr dr s).queues.Ok := by
  unfold updateDr
  split <;> simp [h]

@[simp] theorem testLogicReset_queues (s : State) :
    (testLogicReset s).queues = s.queues := by
  simp [testLogicReset]

/-! ### The functions of Machine/Bridge -/

theorem basinWrite_queues (n : BasinIx) (off : Nat) (v : Word) (s : State) :
    ∀ t ∈ basinWrite n off v s, t.queues = s.queues := by
  unfold basinWrite
  repeat' (first | extract_lets | split | refine queues_of_some ?_)
  all_goals simp +zetaDelta

theorem perRead_queues (a : Nat) (s : State) : ∀ x ∈ perRead a s, x.2.queues = s.queues := by
  have plain (w : Option Word) : ∀ x ∈ w.map fun v => (v, s), x.2.queues = s.queues := by
    cases w <;> simp
  unfold perRead
  extract_lets off plain'
  split
  · exact plain _
  · split
    any_goals exact plain _
    · split
      · exact plain _
      · simp
    · cases crpRead s off <;> simp
    · simp

theorem perWrite_ok (a : Nat) (v : Word) (s : State) (h : s.queues.Ok) : ∀ t ∈ perWrite a v s, t.queues.Ok := by
  have kept {o : Option State} (ho : ∀ t ∈ o, t.queues = s.queues) : ∀ t ∈ o, t.queues.Ok := fun t ht => by
    rw [ho t ht]; exact h
  unfold perWrite
  extract_lets off
  split
  · exact kept (basinWrite_queues _ _ _ _)
  · split
    · exact kept (wharfWrite_queues _ _ _)
    · split
      · cases rvPortRead _ _ <;> simp [h]
      · simp
    · exact kept (weirWrite_queues _ _ _)
    · exact kept (pwmWrite_queues _ _ _)
    · exact kept (fioWrite_queues _ _ _)
    · exact kept (tlWrite_queues _ _ _)
    · exact crpWrite_ok _ _ _ h
    · exact ferryWrite_ok _ _ _ h
    · exact secWrite_ok _ _ _ h
    · simp

theorem performRegister_ok (read : Nat → State → Option (Word × State)) (write : Nat → Word → State → Option State) (a : Nat)
    (r : WharfReq) (s : State) (hr : ∀ a s, s.queues.Ok → ∀ x ∈ read a s, x.2.queues.Ok)
    (hw : ∀ a v s, s.queues.Ok → ∀ t ∈ write a v s, t.queues.Ok) (h : s.queues.Ok) :
    (performRegister read write a r s).queues.Ok := by
  unfold performRegister
  split
  · split
    next s1 heq =>
      have h1 : s1.queues.Ok := hw _ _ _ (by simpa using h) s1 heq
      extract_lets w s2
      have h2 : s2.queues.Ok := by simpa [s2, w] using h1
      cases s1.wharf.serving <;> simpa using h2
    · simpa using h
  · split
    next v s1 heq => simpa using hr _ _ h _ heq
    · simpa using h

@[simp] theorem ackHandovers_queues (n : BasinIx) (b : BankIx) (s : State) :
    (ackHandovers n b s).queues = s.queues := by
  simp [ackHandovers]

@[simp] theorem performPer_ok (r : WharfReq) (s : State) (h : s.queues.Ok) : (performPer r s).queues.Ok := by
  unfold performPer
  extract_lets a
  split
  · simpa using h
  · exact performRegister_ok _ _ _ _ _ (fun a s h x hx => by rw [perRead_queues a s x hx]; exact h)
      (fun a v s h => perWrite_ok a v s h) h

@[simp] theorem performNvp_ok (r : WharfReq) (s : State) (h : s.queues.Ok) : (performNvp r s).queues.Ok := by
  refine performRegister_ok _ _ _ _ _ (fun a s h => ?_) (fun a v s h => ?_) h
  · simpa using h
  · simpa [getD_queues _ s (nvpWrite_queues a v s)] using h

@[simp] theorem serveBasin_queues (n : BasinIx) (rivals : List Rival) (pick : Option WharfReq) (s : State) :
    (serveBasin n rivals pick s).queues = s.queues := by
  unfold serveBasin
  dsimp only
  repeat' split
  all_goals simp

@[simp] theorem serve_ok (r : WharfReq) (s : State) (h : s.queues.Ok) :
    (serve r s).queues.Ok := by
  simp [h, serve]

@[simp] theorem grantAt_ok (g : Fin 20) (rivals : List Rival) (s : State) (h : s.queues.Ok) :
    (grantAt g rivals s).queues.Ok := by
  unfold grantAt
  dsimp only
  repeat' split
  all_goals simp [h]

@[simp] theorem busWrite_ok (init : Fin 16) (a : BitVec 32) (v : Word) (s : State) (h : s.queues.Ok) :
    (busWrite init a v s).queues.Ok := by
  refine directTx_ok _ _ _ _ _ h fun r s h => ?_
  split <;> simp [h]

@[simp] theorem writeRegister_ok (p : RegPath) (v : Word) (s : State) (h : s.queues.Ok) : (writeRegister p v s).queues.Ok := by
  unfold writeRegister
  split
  case h_4 => exact staged_ok _ _ _ h fun s h => by simp [h]
  all_goals simp [h]

/-! ### The functions of Machine/Mailbox -/

@[simp] theorem answer_queues (status : Nat) (data : List Byte) (s : State) :
    (answer status data s).2.queues = s.queues := by
  simp [answer]

@[simp] theorem putEntry_queues (r : Fin 4) (mk : Nat → List Byte) (s : State) :
    (putEntry r mk s).queues = s.queues := by
  simp [putEntry]

@[simp] theorem putEvent_queues (r : Fin 4) (code : Nat) (stamp : BitVec 32) (data : List Byte) (s : State) :
    (putEvent r code stamp data s).queues = s.queues := by
  simp [putEvent]

@[simp] theorem postEvent_queues (code : Nat) (stamp : BitVec 32) (data : List Byte) (s : State) :
    (postEvent code stamp data s).queues = s.queues := by
  simp [postEvent]

@[simp] theorem withEpoch_queues (s : State) (kind i ep : Nat) (go : Reply) (h : go.2.queues = s.queues) :
    (withEpoch s kind i ep go).2.queues = s.queues := by
  unfold withEpoch
  split <;> simp [h]

@[simp] theorem withEpoch_ok (s : State) (kind i ep : Nat) (go : Reply) (hs : s.queues.Ok) (h : go.2.queues.Ok) :
    (withEpoch s kind i ep go).2.queues.Ok := by
  unfold withEpoch
  split <;> simp [h, hs]

@[simp] theorem ringOwner_queues (n : Nat) (src : Fin 64) (s : State) :
    (ringOwner n src s).queues = s.queues := by
  unfold ringOwner
  split <;> simp

@[simp] theorem ringFor_queues (kind i : Nat) (s : State) :
    (ringFor kind i s).queues = s.queues := by
  unfold ringFor
  split <;> simp

@[simp] theorem complete_queues (k : Fin 4) (c : FwCmd) (a : Answer) (s : State) :
    (complete k c a s).queues = s.queues := by
  simp [complete]

@[simp] theorem busyLoading_queues (n : BasinIx) (s : State) :
    (busyLoading n s).2.queues = s.queues := by
  simp [busyLoading]

@[simp] theorem runCommand_queues (k : Fin 4) (op : BitVec 16) (h : FwCmd → State → Reply) (s : State)
    (hh : ∀ c s, (h c s).2.queues = s.queues) : (runCommand k op h s).queues = s.queues := by
  unfold runCommand
  repeat' (first | extract_lets | split)
  all_goals simp +zetaDelta [hh]

theorem runCommand_ok (k : Fin 4) (op : BitVec 16) (h : FwCmd → State → Reply) (s : State)
    (hh : ∀ c s, s.queues.Ok → (h c s).2.queues.Ok) (hs : s.queues.Ok) : (runCommand k op h s).queues.Ok := by
  unfold runCommand
  repeat' (first | extract_lets | split)
  all_goals simp +zetaDelta [hs, hh]

@[simp] theorem takeMailbox_queues (k : Fin 4) (s : State) :
    (takeMailbox k s).queues = s.queues := by
  simp [takeMailbox]

@[simp] theorem expireDeadline_queues (k : Fin 4) (s : State) :
    (expireDeadline k s).queues = s.queues := by
  unfold expireDeadline
  split <;> simp

@[simp] theorem noticeBell_queues (x : FwNotice) (s : State) :
    (noticeBell x s).queues = s.queues := by
  unfold noticeBell
  split <;> simp

@[simp] theorem nextEvent_ok (s : State) (h : s.queues.Ok) : (nextEvent s).queues.Ok := by
  unfold nextEvent
  dsimp only
  repeat' split
  all_goals simp [h]

/-! ### The functions of Machine/Firmware -/

@[simp] theorem wakeBasin_queues (n : BasinIx) (s : State) :
    (wakeBasin n s).queues = s.queues := by
  simp [wakeBasin]

@[simp] theorem helloReply_queues (c : FwCmd) (s : State) :
    (helloReply c s).2.queues = s.queues := by
  unfold helloReply
  dsimp only
  repeat' split
  all_goals simp

@[simp] theorem setSlot_queues (k : Fin 4) (c : FwCmd) (s : State) :
    (setSlot k c s).queues = s.queues := by
  simp [setSlot]

theorem giveTransfer_ok (haddr : Nat) (bs : List Byte) (s : State) (h : s.queues.Ok)
    (hfull : (s.ferry.eq.get 12).queue.length < 8) : (giveTransfer haddr bs s).queues.Ok := by
  unfold giveTransfer
  rw [watchLine_queues]
  refine State.modEq_ok _ _ _ (by simpa using h) ?_
  rw [EgReq.size_mk, List.length_append]
  exact hfull

@[simp] theorem sendWords_ok (k : Fin 4) (haddr buffer : Nat) (ws : List Word) (c : FwCmd) (s : State) (h : s.queues.Ok) :
    (sendWords k haddr buffer ws c s).2.queues.Ok := by
  unfold sendWords
  extract_lets bs
  split
  · simpa using h
  · split
    · exact h
    · next hfull => exact giveTransfer_ok _ _ _ (by simpa using h) (Nat.not_le.1 hfull)

@[simp] theorem transferEnd_queues (q : Nat) (s : State) :
    (transferEnd q s).2.queues = s.queues := by
  unfold transferEnd
  split <;> simp

@[simp] theorem infoReply_ok (k : Fin 4) (c : FwCmd) (s : State) (h : s.queues.Ok) :
    (infoReply k c s).2.queues.Ok := by
  unfold infoReply
  repeat' (first | extract_lets | split)
  all_goals simp +zetaDelta [h]

theorem hmTx_queues (addr : Nat) (size : TxSize) (write : Bool) (data : List Word) (f : State → State) (s : State)
    (hf : ∀ s, (f s).queues = s.queues) : (hmTx addr size write data f s).queues = s.queues := by
  unfold hmTx
  extract_lets t q s1 s2
  rw [takeResponse_queues]
  simp only [s2]
  split <;> simp [s1, hf]

@[simp] theorem hmTx_ok (addr : Nat) (size : TxSize) (write : Bool) (data : List Word) (f : State → State) (s : State)
    (hf : ∀ s, s.queues.Ok → (f s).queues.Ok) (h : s.queues.Ok) : (hmTx addr size write data f s).queues.Ok := by
  unfold hmTx
  extract_lets t q s1 s2
  rw [takeResponse_queues]
  simp only [s2]
  split
  · rw [respond_queues]
    exact hf _ (by simpa [s1] using h)
  · simpa [s1] using h

@[simp] theorem hmWrite_queues (addr : Nat) (v : Word) (f : State → State) (s : State) (hf : ∀ s, (f s).queues = s.queues) :
    (hmWrite addr v f s).queues = s.queues := hmTx_queues _ _ _ _ f s hf

theorem hmWrite_ok (addr : Nat) (v : Word) (f : State → State) (s : State)
    (hf : ∀ s, s.queues.Ok → (f s).queues.Ok) (h : s.queues.Ok) : (hmWrite addr v f s).queues.Ok :=
  hmTx_ok _ _ _ _ f s hf h

@[simp] theorem hmRead_queues (addr : Nat) (s : State) : (hmRead addr s).queues = s.queues :=
  hmTx_queues _ _ _ _ id s fun _ => rfl

@[simp] theorem counterWord_queues (base : Option Nat) (r : List Word × State) (w : Nat) :
    (counterWord base r w).2.queues = r.2.queues := by
  unfold counterWord
  split
  · rfl
  · split
    next heq => simpa using perRead_queues _ _ _ heq
    · rfl

@[simp] theorem counterWords_queues (base : Option Nat) (l : List Nat) (r : List Word × State) :
    (l.foldl (counterWord base) r).2.queues = r.2.queues := by
  induction l generalizing r with
  | nil => rfl
  | cons w l ih => rw [List.foldl_cons, ih, counterWord_queues]

@[simp] theorem countersReply_ok (k : Fin 4) (c : FwCmd) (s : State) (h : s.queues.Ok) : (countersReply k c s).2.queues.Ok := by
  unfold countersReply
  repeat' (first | extract_lets | split)
  all_goals simp +zetaDelta [h]

@[simp] theorem imageStatReply_queues (k : Fin 4) (c : FwCmd) (s : State) :
    (imageStatReply k c s).2.queues = s.queues := by
  unfold imageStatReply
  dsimp only
  repeat' split
  all_goals simp

@[simp] theorem cfgWrite_ok (kind i k : Nat) (v : Word) (s : State) (h : s.queues.Ok) :
    (cfgWrite kind i k v s).queues.Ok :=
  hmWrite_ok _ _ _ _ (fun s h => getD_ok _ s h (perWrite_ok _ v s h)) h

@[simp] theorem blockEn_ok (kind i : Nat) (en : Bool) (s : State) (h : s.queues.Ok) :
    (blockEn kind i en s).queues.Ok := by
  unfold blockEn
  split <;> simp [h]

@[simp] theorem setEn_ok (kind i : Nat) (en : Bool) (s : State) (h : s.queues.Ok) : (setEn kind i en s).queues.Ok :=
  hmWrite_ok _ _ _ _ (fun s h => blockEn_ok kind i en s h) h

@[simp] theorem setCfgField_ok (kind i k lo width v : Nat) (s : State) (h : s.queues.Ok) :
    (setCfgField kind i k lo width v s).queues.Ok := by
  simp [setCfgField, h]

@[simp] theorem applyEntry_ok (n : BasinIx) (bs : List Binding) (s : State) (e : ManEntry) (h : s.queues.Ok) :
    (applyEntry n bs s e).queues.Ok := by
  unfold applyEntry
  extract_lets reg
  have hreg : ∀ off, (reg off).queues.Ok := fun off => hmWrite_ok _ _ _ _
    (fun s h => by rw [getD_queues _ s (basinWrite_queues n off _ s)]; exact h) h
  repeat' split
  all_goals simp [h, hreg]

@[simp] theorem enableVital_ok (bs : List Binding) (man : List ManEntry) (s : State) (h : s.queues.Ok) :
    (enableVital bs man s).queues.Ok := by
  refine foldl_ok _ (fun s i h => foldl_ok _ (fun s r h => ?_) _ _ h) _ _ (foldl_ok _ (fun s m h => setEn_ok _ _ _ _ h) _ _ h)
  split <;> simp [h]

@[simp] theorem writeRow_ok (n : BasinIx) (s : State) (row : Nat × List (Nat × Word)) (h : s.queues.Ok) :
    (writeRow n s row).queues.Ok :=
  hmTx_ok _ _ _ _ _ _ (fun s h => by simpa using h) h

@[simp] theorem writeRows_ok (n : BasinIx) (rows : List (Nat × List (Nat × Word))) (s : State) (h : s.queues.Ok) :
    (writeRows n rows s).queues.Ok :=
  foldl_ok _ (fun s row h => writeRow_ok n s row h) _ _ h

@[simp] theorem applyManifest_ok (n : BasinIx) (bs : List Binding) (man : List ManEntry) (s : State) (h : s.queues.Ok) :
    (applyManifest n bs man s).queues.Ok :=
  enableVital_ok bs man _ (foldl_ok _ (fun s e h => applyEntry_ok n bs s e h) _ _ h)

@[simp] theorem reapply_ok (n : BasinIx) (s : State) (h : s.queues.Ok) :
    (reapply n s).queues.Ok := by
  simp [reapply, h]

theorem roleState_ok (g : BargeIx) (run : Bool) (s : State) (h : s.queues.Ok) :
    (hmWrite (0x20070000 + 4 * (3 + g.val / 36)) 0 (writeHold g (!run)) (if run then reapply (basinOf g) s else s)).queues.Ok := by
  refine hmWrite_ok _ _ _ _ (fun s h => writeHold_ok _ _ s h) ?_
  split
  · exact reapply_ok _ _ h
  · exact h

@[simp] theorem roleReply_ok (k : Fin 4) (c : FwCmd) (s : State) (h : s.queues.Ok) : (roleReply k c s).2.queues.Ok := by
  unfold roleReply
  split
  · exact h
  · extract_lets n run image s1
    have h1 : s1.queues.Ok := roleState_ok _ run s h
    clear_value s1
    split
    · exact h
    · refine withEpoch_ok _ _ _ _ _ h ?_
      split
      · exact h
      · split
        · exact h
        · split
          · simpa using h
          · split
            · simpa using h
            · split
              · exact h
              · exact h1

@[simp] theorem keeperReply_ok (word : Nat) (v : Word) (mismatch : Bool) (refused : State → Bool) (data : Bool) (s : State) (h : s.queues.Ok) :
    (keeperReply word v mismatch refused data s).2.queues.Ok := by
  unfold keeperReply
  extract_lets s1
  repeat' split
  all_goals simp [h, s1]

@[simp] theorem loadEntry_ok (differ : List Nat) (k : Nat) (t : Fin 256) (ws : List Word) (s : State) (h : s.queues.Ok) :
    (loadEntry differ k t ws s).queues.Ok :=
  foldl_ok _ (fun s w h => by simp [h]) _ _ h

@[simp] theorem reloadTask_ok (differ : List Nat) (t : Fin 256) (n : BasinIx) (s : State) (h : s.queues.Ok) :
    (reloadTask differ t n s).queues.Ok := by
  simp [h, reloadTask]

@[simp] theorem taskReply_ok (k : Fin 4) (c : FwCmd) (s : State) (go : Fin 256 → BasinIx → Reply)
    (ready : Fin 256 → BasinIx → Option Nat) (h : s.queues.Ok) (hgo : ∀ t n, (go t n).2.queues.Ok) :
    (taskReply k c s go ready).2.queues.Ok := by
  unfold taskReply
  split
  · simpa using h
  · split
    · refine withEpoch_ok _ _ _ _ _ h ?_
      split
      · simpa using h
      · split
        · simpa using h
        · split
          · simpa using h
          · exact hgo _ _
    · simpa using h

@[simp] theorem taskStartReply_ok (k : Fin 4) (differ : List Nat) (c : FwCmd) (s : State) (h : s.queues.Ok) :
    (taskStartReply k differ c s).2.queues.Ok :=
  taskReply_ok _ _ _ _ _ h fun t n => by
    repeat' split
    all_goals simp [h]

@[simp] theorem taskStopReply_ok (k : Fin 4) (mismatch : Bool) (c : FwCmd) (s : State) (h : s.queues.Ok) :
    (taskStopReply k mismatch c s).2.queues.Ok :=
  taskReply_ok _ _ _ _ _ h fun t n => by simp [h]

@[simp] theorem keeperCmdReply_ok (k : Fin 4) (mismatch : Bool) (c : FwCmd) (s : State) (h : s.queues.Ok) :
    (keeperCmdReply k mismatch c s).2.queues.Ok := by
  unfold keeperCmdReply
  extract_lets
  repeat' split
  all_goals simp [h]

@[simp] theorem latTolReply_queues (k : Fin 4) (c : FwCmd) (s : State) : (latTolReply k c s).2.queues = s.queues := by
  unfold latTolReply
  extract_lets d t set
  have hset : ∀ s, (set s).queues = s.queues := fun s => by simp [set]
  clear_value set
  split
  · simp
  · split
    · split <;> simp [hset]
    · split <;> simp +zetaDelta [hset]

@[simp] theorem resetResource_queues (kind i : Nat) (s : State) :
    (resetResource kind i s).queues = s.queues := by
  unfold resetResource
  split <;> simp

@[simp] theorem resetReply_ok (k : Fin 4) (c : FwCmd) (s : State) (h : s.queues.Ok) :
    (resetReply k c s).2.queues.Ok := by
  unfold resetReply
  dsimp only
  repeat' split
  all_goals simp [h]

@[simp] theorem eventRouteReply_queues (c : FwCmd) (s : State) :
    (eventRouteReply c s).2.queues = s.queues := by
  unfold eventRouteReply
  dsimp only
  split <;> simp

@[simp] theorem setTimeReply_ok (c : FwCmd) (s : State) (h : s.queues.Ok) : (setTimeReply c s).2.queues.Ok := by
  unfold setTimeReply
  extract_lets set trimmed t put s1
  have hput : ∀ off v s, s.queues.Ok → (put off v s).queues.Ok := fun off v s h =>
    hmWrite_ok _ _ _ _ (fun s h => getD_ok _ s h (crpWrite_ok off v s h)) h
  have h1 : s1.queues.Ok := by
    simp only [s1]
    split
    · exact hput _ _ _ (hput _ _ _ h)
    · exact h
  clear_value put s1
  repeat' split
  all_goals simp [h, h1, hput]

@[simp] theorem resetHostReply_ok (c : FwCmd) (s : State) (h : s.queues.Ok) : (resetHostReply c s).2.queues.Ok :=
  hostScopeReset_ok s h

/-! ### The functions of Machine/Claims -/

@[simp] theorem writeClaim_ok (kind i : Nat) (n : BasinIx) (world : Bool) (ws : List Word) (s : State) (h : s.queues.Ok) :
    (writeClaim kind i n world ws s).queues.Ok :=
  foldl_ok _ (fun s e h => cfgWrite_ok _ _ _ _ _ (by simpa using h)) _ _ (setEn_ok _ _ _ _ h)

theorem enableAll_ok (l : List (Nat × Nat)) (s : State) (h : s.queues.Ok) : ∀ t ∈ enableAll l s, t.queues.Ok := by
  induction l generalizing s with
  | nil => simpa [enableAll] using h
  | cons x rest ih =>
    obtain ⟨kind, i⟩ := x
    unfold enableAll
    split
    · exact ih _ (setEn_ok _ _ _ _ h)
    · simp

@[simp] theorem ballChange_queues (i : Nat) (f : State → State) (s : State) (h : (f s).queues = s.queues) :
    (ballChange i f s).queues = s.queues := by
  unfold ballChange
  split <;> simp [h]

@[simp] theorem noteOwner_queues (kind i : Nat) (o : Option (BasinIx × Bool)) (fo : Bool) (s : State) :
    (noteOwner kind i o fo s).queues = s.queues := by
  unfold noteOwner
  split <;> simp

@[simp] theorem configured_ok (kind i : Nat) (n : BasinIx) (world : Bool) (ws : List Word) (s : State) (h : s.queues.Ok) :
    (configured kind i n world ws s).queues.Ok := by
  unfold configured
  dsimp only
  repeat' split
  all_goals simp [h]

@[simp] theorem grantClaim_queues (kind i : Nat) (n : BasinIx) (s : State) :
    (grantClaim kind i n s).queues = s.queues := by
  simp [grantClaim]

@[simp] theorem claimReply_ok (k : Fin 4) (c : FwCmd) (s : State) (h : s.queues.Ok) : (claimReply k c s).2.queues.Ok := by
  unfold claimReply
  dsimp only
  repeat' split
  all_goals simp [h]
  rename_i s2 hs2 _
  exact enableAll_ok _ _ (configured_ok _ _ _ _ _ _ h) s2 hs2

@[simp] theorem disown_ok (kind i : Nat) (s : State) (h : s.queues.Ok) : (disown kind i s).queues.Ok := by
  unfold disown
  rw [noteOwner_queues]
  refine foldl_ok _ (fun s k h => ?_) _ _ (setEn_ok _ _ _ _ h)
  split <;> simp [h]

@[simp] theorem releaseReply_ok (c : FwCmd) (s : State) (h : s.queues.Ok) : (releaseReply c s).2.queues.Ok := by
  unfold releaseReply
  extract_lets id kind i
  split
  · exact h
  · refine withEpoch_ok _ _ _ _ _ h ?_
    repeat' split
    all_goals simp [h]
    exact foldl_ok _ (fun s r hs => by simp [hs]) _ _ h

/-! ### The functions of Machine/Load -/

@[simp] theorem useKey_queues (j : LoadJob) (s : State) :
    (useKey j s).queues = s.queues := by
  simp [useKey]

@[simp] theorem putLine_queues (n : BasinIx) (key : Nat) (l : Option CodeLine) (s : State) :
    (putLine n key l s).queues = s.queues := by
  simp [putLine]

theorem nvpTx_queues (c : Fin 4) (j : Nat) (v : Word) (f : State → State) (s : State) (hf : ∀ s, (f s).queues = s.queues) :
    (nvpTx c j v f s).queues = s.queues := by
  unfold nvpTx hmWrite hmTx
  extract_lets t q s1 s2
  rw [takeResponse_queues]
  simp only [s2]
  split <;> simp [s1, hf]

@[simp] theorem nvpDone_queues (c : Fin 4) (n : BasinIx) (l : Nat × LineBits) (s : State) :
    (nvpDone c n l s).queues = s.queues := by
  simp [nvpDone]

@[simp] theorem programLine_queues (c : Fin 4) (n : BasinIx) (s : State) (l : Nat × LineBits) :
    (programLine c n s l).queues = s.queues := by
  unfold programLine
  extract_lets place put s1
  have hput : ∀ j v s, (put j v s).queues = s.queues := fun j v s =>
    nvpTx_queues _ _ _ _ _ fun t => getD_queues _ t (nvpWrite_queues _ v t)
  rw [nvpTx_queues _ _ _ _ _ (fun t => nvpDone_queues c n l t), hput]
  simp [s1, hput]

@[simp] theorem cutProgram_queues (n : BasinIx) (l : Nat × LineBits) (s : State) :
    (cutProgram n l s).queues = s.queues := by
  simp [cutProgram]

@[simp] theorem setImage_queues (n : BasinIx) (f : FwImage → FwImage) (s : State) :
    (setImage n f s).queues = s.queues := by
  simp [setImage]

@[simp] theorem writeSome_ok (ch : Fin 4) (j : LoadJob) (m : Nat) (s : State) (h : s.queues.Ok) :
    (writeSome ch j m s).queues.Ok := by
  unfold writeSome
  extract_lets c s1 s2
  have h2 : s2.queues.Ok := by
    simp only [s2]
    split <;> simp [s1, h]
  exact writeRows_ok _ _ _ h2

@[simp] theorem loadTask_ok (j : LoadJob) (usable : Bool) (r : Nat × State) (e : Nat × List Word) (h : r.2.queues.Ok) :
    (loadTask j usable r e).2.queues.Ok := by
  unfold loadTask
  split <;> simp [h]

@[simp] theorem writeAll_ok (ch : Fin 4) (j : LoadJob) (usable : Bool) (s : State) (h : s.queues.Ok) :
    (writeAll ch j usable s).queues.Ok := by
  have tasks : ∀ (l : List (Nat × List Word)) (r : Nat × State), r.2.queues.Ok → (l.foldl (loadTask j usable) r).2.queues.Ok := by
    intro l
    induction l with
    | nil => exact fun _ hr => hr
    | cons e l ih => exact fun r hr => ih _ (loadTask_ok j usable r e hr)
  unfold writeAll
  extract_lets c s1 s2
  have h1 : s1.queues.Ok := by simpa [s1] using h
  have h2 : s2.queues.Ok := applyManifest_ok _ _ _ _ (writeRows_ok _ _ _ h1)
  split
  · exact h2
  · exact tasks _ _ (by simpa using h2)

@[simp] theorem retainImage_queues (j : LoadJob) (s : State) :
    (retainImage j s).queues = s.queues := by
  simp [retainImage]

@[simp] theorem failLoad_queues (n : BasinIx) (a : Answer) (s : State) :
    (failLoad n a s).2.queues = s.queues := by
  simp [failLoad]

@[simp] theorem writingPass_ok (ch : Fin 4) (j : LoadJob) (writes : Option Nat) (how : HostEnd) (c : FwCmd) (s : State) (h : s.queues.Ok) :
    (writingPass ch j writes how c s).2.queues.Ok := by
  unfold writingPass
  dsimp only
  repeat' split
  all_goals simp [h]

@[simp] theorem loadRun_ok (j : LoadJob) (writes : Option Nat) (how : HostEnd) (c : FwCmd) (s0 : State) (h : s0.queues.Ok) :
    (loadRun j writes how c s0).2.queues.Ok := by
  unfold loadRun
  dsimp only
  repeat' split
  all_goals simp [h]

@[simp] theorem startLoad_queues (k : Fin 4) (j : LoadJob) (c : FwCmd) (s : State) :
    (startLoad k j c s).queues = s.queues := by
  simp [startLoad]

@[simp] theorem loadReply_ok (k : Fin 4) (bindings first second key : List Byte) (writes : Option Nat) (how : HostEnd) (differ : List Nat) (c : FwCmd) (s : State) (h : s.queues.Ok) :
    (loadReply k bindings first second key writes how differ c s).2.queues.Ok := by
  unfold loadReply
  dsimp only
  repeat' split
  all_goals simp [h]

end Sys2Proof.Machine
end

section
/-! Every step keeps the queues within their sizes (O58). -/

namespace Sys2Proof.Machine

/-- Every next state of an outcome has its queues within their bounds. -/
def Out.bounded (o : Out) : Prop := ∀ t, o = .next t → t.queues.Ok

section
variable {s : State} {dt : Nat} {f : State → State} (h : s.queues.Ok) (hf : ∀ s, s.queues.Ok → (f s).queues.Ok)
include h hf

theorem actPins_bounded : (actPins s dt f).bounded := by
  rintro t ⟨⟩
  exact hf _ (by simpa using h)

theorem act_bounded : (act s dt f).bounded := by
  intro t ht
  obtain ⟨-, rfl | rfl⟩ := act_cases s t dt f ht
  · simpa using h
  · exact hf _ (by simpa using h)

theorem bargeAct_bounded : (bargeAct s dt f).bounded :=
  act_bounded h fun s h => by simpa using hf s h

theorem keeperAct_bounded : (keeperAct s dt f).bounded :=
  act_bounded h fun s h => by simpa using hf s h

theorem crpAct_bounded : (crpAct s dt f).bounded :=
  act_bounded h fun s h => by simpa using hf s h

theorem registerAct_bounded : (registerAct s dt f).bounded :=
  act_bounded h fun s h => watchTrips_ok _ _ (fun s h => by simpa using hf s h) h

end

theorem gated_ok {c : State → Bool} {f : State → State} {s : State} (hf : ∀ s, s.queues.Ok → (f s).queues.Ok)
    (h : s.queues.Ok) : (gated c f s).queues.Ok := by
  unfold gated
  split
  · exact hf s h
  · exact h

theorem mailboxAct_bounded {s : State} {dt : Nat} {k : Fin 4} {op : BitVec 16} {reply : FwCmd → State → Reply}
    (h : s.queues.Ok) (hr : ∀ c s, s.queues.Ok → (reply c s).2.queues.Ok) :
    (registerAct s dt (runCommand k op reply)).bounded :=
  registerAct_bounded h fun s h => runCommand_ok k op reply s hr h

theorem freshKeeper_ok (p t : Bool) (s : State) (h : s.queues.Ok) :
    ({ s with kp := { powered := p, testHold := t } } : State).queues.Ok := by
  refine ⟨h.barges, h.basins, Nat.zero_le _, h.egress, fun r o ho => ?_⟩
  simp [State.queues, vget_eq] at ho

@[simp] theorem execWeirGroupEnable_bounded (dt : Nat) (g : Fin 48) (en : Bool) (s : State) (h : s.queues.Ok) :
    (execWeirGroupEnable dt g en s).bounded :=
  act_bounded h fun s h => by simp [h]

@[simp] theorem execWeirChannelEnable_bounded (dt : Nat) (n : Fin 384) (en : Bool) (s : State) (h : s.queues.Ok) :
    (execWeirChannelEnable dt n en s).bounded :=
  act_bounded h fun s h => watchTrips_ok _ _ (fun s h => by simp [h]) h

@[simp] theorem execMainSampleReady_bounded (dt : Nat) (n : Fin 384) (bits : List (Bool × Bool)) (upset : Bool) (s : State) (h : s.queues.Ok) :
    (execMainSampleReady dt n bits upset s).bounded :=
  act_bounded h fun s h => by simp [h]

@[simp] theorem execFastSample_bounded (dt : Nat) (n : Fin 384) (bits : List Bool) (s : State) (h : s.queues.Ok) :
    (execFastSample dt n bits s).bounded :=
  act_bounded h fun s h => by simp [h]

@[simp] theorem execDemodOutput_bounded (dt : Nat) (n : Fin 384) (upset : Bool) (s : State) (h : s.queues.Ok) :
    (execDemodOutput dt n upset s).bounded :=
  act_bounded h fun s h => by simp [h]

@[simp] theorem execRecordAccept_bounded (dt : Nat) (n : Fin 384) (s : State) (h : s.queues.Ok) :
    (execRecordAccept dt n s).bounded :=
  act_bounded h fun s h => by simp [h]

@[simp] theorem execWeirFreeze_bounded (dt : Nat) (task : Fin 256) (s : State) (h : s.queues.Ok) :
    (execWeirFreeze dt task s).bounded :=
  act_bounded h fun s h => by simp [h]

@[simp] theorem execHeaderWrite_bounded (dt : Nat) (n : Fin 384) (s : State) (h : s.queues.Ok) :
    (execHeaderWrite dt n s).bounded :=
  act_bounded h fun s h => by simp [h]

@[simp] theorem execStuckStream_bounded (dt : Nat) (n : Fin 384) (bits : List Bool) (s : State) (h : s.queues.Ok) :
    (execStuckStream dt n bits s).bounded :=
  act_bounded h fun s h => by simp [h]

@[simp] theorem execClockLoss_bounded (dt : Nat) (g : Fin 48) (s : State) (h : s.queues.Ok) :
    (execClockLoss dt g s).bounded :=
  act_bounded h fun s h => by simp [h]

@[simp] theorem execGrst_bounded (dt : Nat) (g : Fin 48) (s : State) (h : s.queues.Ok) :
    (execGrst dt g s).bounded :=
  act_bounded h fun s h => by simp [h]

@[simp] theorem execFthrWrite_bounded (dt : Nat) (n : Fin 384) (src : Writer) (value : Word) (s : State) (h : s.queues.Ok) :
    (execFthrWrite dt n src value s).bounded :=
  act_bounded h fun s h => by
    repeat' split
    all_goals simp [h]

@[simp] theorem execHrpwmStgWrite_bounded (dt : Nat) (n : Fin 192) (src : StgWriter) (value : Word) (s : State) (h : s.queues.Ok) :
    (execHrpwmStgWrite dt n src value s).bounded :=
  act_bounded h fun s h => by
    repeat' split
    all_goals simp [h]

@[simp] theorem execHrpwmCommit_bounded (dt : Nat) (disagree : List (Fin 192)) (s : State) (h : s.queues.Ok) :
    (execHrpwmCommit dt disagree s).bounded :=
  act_bounded h fun s h => by
    repeat' split
    all_goals simp [h]

@[simp] theorem execTimebaseEnable_bounded (dt : Nat) (m : Fin 16) (en : Bool) (s : State) (h : s.queues.Ok) :
    (execTimebaseEnable dt m en s).bounded :=
  act_bounded h fun s h => by simp [h]

@[simp] theorem execPeriodBoundary_bounded (dt : Nat) (m : Fin 16) (s : State) (h : s.queues.Ok) :
    (execPeriodBoundary dt m s).bounded :=
  act_bounded h fun s h => by simp [h]

@[simp] theorem execZxmissExpiry_bounded (dt : Nat) (m : Fin 16) (s : State) (h : s.queues.Ok) :
    (execZxmissExpiry dt m s).bounded :=
  act_bounded h fun s h => by simp [h]

@[simp] theorem execHrpwmChannelEnable_bounded (dt : Nat) (n : Fin 192) (en : Bool) (s : State) (h : s.queues.Ok) :
    (execHrpwmChannelEnable dt n en s).bounded :=
  act_bounded h fun s h => by simp [h]

@[simp] theorem execTripZoneChange_bounded (dt : Nat) (z : Fin 32) (s : State) (h : s.queues.Ok) :
    (execTripZoneChange dt z s).bounded :=
  act_bounded h fun s h => by simp [h]

@[simp] theorem execTripclr_bounded (dt : Nat) (n : Fin 192) (src : Writer) (s : State) (h : s.queues.Ok) :
    (execTripclr dt n src s).bounded :=
  act_bounded h fun s h => by
    repeat' split
    all_goals simp [h]

@[simp] theorem execHrpwmReadbackSample_bounded (dt : Nat) (n : Fin 192) (level : Bool) (s : State) (h : s.queues.Ok) :
    (execHrpwmReadbackSample dt n level s).bounded :=
  act_bounded h fun s h => by simp [h]

@[simp] theorem execHrpwmCrst_bounded (dt : Nat) (n : Fin 192) (s : State) (h : s.queues.Ok) :
    (execHrpwmCrst dt n s).bounded :=
  act_bounded h fun s h => by simp [h]

@[simp] theorem execResWrite_bounded (dt : Nat) (value : Bool) (s : State) (h : s.queues.Ok) :
    (execResWrite dt value s).bounded :=
  act_bounded h fun s h => by simp [h]

@[simp] theorem execCalibrationLock_bounded (dt : Nat) (s : State) (h : s.queues.Ok) :
    (execCalibrationLock dt s).bounded :=
  act_bounded h fun s h => by simp [h]

@[simp] theorem execFoStgWrite_bounded (dt : Nat) (n : Fin 128) (src : StgWriter) (value : Word) (s : State) (h : s.queues.Ok) :
    (execFoStgWrite dt n src value s).bounded :=
  act_bounded h fun s h => by
    repeat' split
    all_goals simp [h]

@[simp] theorem execFoCommit_bounded (dt : Nat) (disagree : List (Fin 128)) (s : State) (h : s.queues.Ok) :
    (execFoCommit dt disagree s).bounded :=
  act_bounded h fun s h => by
    repeat' split
    all_goals simp [h]

@[simp] theorem execFiRawChange_bounded (dt : Nat) (n : Fin 128) (pad : Bool) (s : State) (h : s.queues.Ok) :
    (execFiRawChange dt n pad s).bounded :=
  act_bounded h fun s h => by simp [h]

@[simp] theorem execFiAccept_bounded (dt : Nat) (n : Fin 128) (s : State) (h : s.queues.Ok) :
    (execFiAccept dt n s).bounded :=
  act_bounded h fun s h => by simp [h]

@[simp] theorem execFiFreeze_bounded (dt : Nat) (task : Fin 256) (s : State) (h : s.queues.Ok) :
    (execFiFreeze dt task s).bounded :=
  act_bounded h fun s h => by simp [h]

@[simp] theorem execPairDiscrepancy_bounded (dt : Nat) (m : Fin 64) (s : State) (h : s.queues.Ok) :
    (execPairDiscrepancy dt m s).bounded :=
  act_bounded h fun s h => by simp [h]

@[simp] theorem execFret_bounded (dt : Nat) (n : Fin 128) (s : State) (h : s.queues.Ok) :
    (execFret dt n s).bounded :=
  act_bounded h fun s h => by simp [h]

@[simp] theorem execFiCrst_bounded (dt : Nat) (n : Fin 128) (s : State) (h : s.queues.Ok) :
    (execFiCrst dt n s).bounded :=
  act_bounded h fun s h => by simp [h]

@[simp] theorem execFiEnable_bounded (dt : Nat) (n : Fin 128) (en : Bool) (s : State) (h : s.queues.Ok) :
    (execFiEnable dt n en s).bounded :=
  act_bounded h fun s h => by simp [h]

@[simp] theorem execFoEnable_bounded (dt : Nat) (n : Fin 128) (en : Bool) (s : State) (h : s.queues.Ok) :
    (execFoEnable dt n en s).bounded :=
  act_bounded h fun s h => by simp [h]

@[simp] theorem execFoReadbackSample_bounded (dt : Nat) (n : Fin 128) (level : Bool) (s : State) (h : s.queues.Ok) :
    (execFoReadbackSample dt n level s).bounded :=
  act_bounded h fun s h => by simp [h]

@[simp] theorem execOffTestStart_bounded (dt : Nat) (n : Fin 64) (s : State) (h : s.queues.Ok) :
    (execOffTestStart dt n s).bounded :=
  act_bounded h fun s h => by simp [h]

@[simp] theorem execOffTestEnd_bounded (dt : Nat) (n : Fin 64) (level : Bool) (s : State) (h : s.queues.Ok) :
    (execOffTestEnd dt n level s).bounded :=
  act_bounded h fun s h => by simp [h]

@[simp] theorem execFoCrst_bounded (dt : Nat) (n : Fin 128) (s : State) (h : s.queues.Ok) :
    (execFoCrst dt n s).bounded :=
  act_bounded h fun s h => by simp [h]

@[simp] theorem execScrubAccess_bounded (dt : Nat) (bank : ScrubBank) (rivals : List Rival) (s : State) (h : s.queues.Ok) :
    (execScrubAccess dt bank rivals s).bounded :=
  act_bounded h fun s h => by
    repeat' split
    all_goals simp [h]

@[simp] theorem execNvpProgram_bounded (dt : Nat) (c : Fin 4) (s : State) (h : s.queues.Ok) :
    (execNvpProgram dt c s).bounded :=
  act_bounded h fun s h => by simp [h]

@[simp] theorem execNvpBlank_bounded (dt : Nat) (c : Fin 4) (s : State) (h : s.queues.Ok) :
    (execNvpBlank dt c s).bounded :=
  act_bounded h fun s h => by simp [h]

@[simp] theorem execNvpComplete_bounded (dt : Nat) (c : Fin 4) (verified : Bool) (s : State) (h : s.queues.Ok) :
    (execNvpComplete dt c verified s).bounded :=
  act_bounded h fun s h => by simp [h]

@[simp] theorem execWharfAccept_bounded (dt : Nat) (init : Fin 16) (tx : Tx) (s : State) (h : s.queues.Ok) :
    (execWharfAccept dt init tx s).bounded :=
  act_bounded h fun s h => by simp [h]

@[simp] theorem execWharfCntclr_bounded (dt : Nat) (s : State) (h : s.queues.Ok) :
    (execWharfCntclr dt s).bounded :=
  act_bounded h fun s h => by simp [h]

@[simp] theorem execTlStgWrite_bounded (dt : Nat) (l : Fin 16) (slot : Fin 64) (src : StgWriter) (value : Word) (s : State) (h : s.queues.Ok) :
    (execTlStgWrite dt l slot src value s).bounded :=
  act_bounded h fun s h => by
    repeat' split
    all_goals simp [h]

@[simp] theorem execTlCommit_bounded (dt : Nat) (l : Fin 16) (disagree : Bool) (s : State) (h : s.queues.Ok) :
    (execTlCommit dt l disagree s).bounded :=
  act_bounded h fun s h => by
    repeat' split
    all_goals simp [h]

@[simp] theorem execRecordWrite_bounded (dt : Nat) (basin : BasinIx) (bank : Bool) (s : State) (h : s.queues.Ok) :
    (execRecordWrite dt basin bank s).bounded :=
  act_bounded h fun s h => by simp [h]

@[simp] theorem execTlLinkEnable_bounded (dt : Nat) (l : Fin 16) (en : Bool) (s : State) (h : s.queues.Ok) :
    (execTlLinkEnable dt l en s).bounded :=
  act_bounded h fun s h => by simp [h]

@[simp] theorem execRxLock_bounded (dt : Nat) (l : Fin 16) (chars : List Bool) (s : State) (h : s.queues.Ok) :
    (execRxLock dt l chars s).bounded :=
  act_bounded h fun s h => by simp [h]

@[simp] theorem execLockLoss_bounded (dt : Nat) (l : Fin 16) (chars : List Bool) (s : State) (h : s.queues.Ok) :
    (execLockLoss dt l chars s).bounded :=
  act_bounded h fun s h => by simp [h]

@[simp] theorem execCapResend_bounded (dt : Nat) (l : Fin 16) (s : State) (h : s.queues.Ok) :
    (execCapResend dt l s).bounded :=
  act_bounded h fun s h => by simp [h]

@[simp] theorem execFrameReceive_bounded (dt : Nat) (l : Fin 16) (units : List Word) (aborted : Bool) (s : State) (h : s.queues.Ok) :
    (execFrameReceive dt l units aborted s).bounded :=
  act_bounded h fun s h => by simp [h]

@[simp] theorem execAckTimeout_bounded (dt : Nat) (l : Fin 16) (s : State) (h : s.queues.Ok) :
    (execAckTimeout dt l s).bounded :=
  act_bounded h fun s h => by simp [h]

@[simp] theorem execRxtoExpiry_bounded (dt : Nat) (l : Fin 16) (s : State) (h : s.queues.Ok) :
    (execRxtoExpiry dt l s).bounded :=
  act_bounded h fun s h => by simp [h]

@[simp] theorem execOutFrameSend_bounded (dt : Nat) (l : Fin 16) (s : State) (h : s.queues.Ok) :
    (execOutFrameSend dt l s).bounded :=
  act_bounded h fun s h => by simp [h]

@[simp] theorem execSafeFrameSend_bounded (dt : Nat) (l : Fin 16) (s : State) (h : s.queues.Ok) :
    (execSafeFrameSend dt l s).bounded :=
  act_bounded h fun s h => by simp [h]

@[simp] theorem execPoisonRecord_bounded (dt : Nat) (l : Fin 16) (s : State) (h : s.queues.Ok) :
    (execPoisonRecord dt l s).bounded :=
  act_bounded h fun s h => by simp [h]

@[simp] theorem execTlFreeze_bounded (dt : Nat) (task : Fin 256) (s : State) (h : s.queues.Ok) :
    (execTlFreeze dt task s).bounded :=
  act_bounded h fun s h => by simp [h]

@[simp] theorem execTlMtxGo_bounded (dt : Nat) (l : Fin 16) (s : State) (h : s.queues.Ok) :
    (execTlMtxGo dt l s).bounded :=
  act_bounded h fun s h => by simp [h]

@[simp] theorem execLrst_bounded (dt : Nat) (l : Fin 16) (s : State) (h : s.queues.Ok) :
    (execLrst dt l s).bounded :=
  act_bounded h fun s h => by simp [h]

@[simp] theorem execTargetResponse_bounded (dt : Nat) (init : Fin 16) (id : BitVec 5) (s : State) (h : s.queues.Ok) :
    (execTargetResponse dt init id s).bounded :=
  act_bounded h fun s h => by split <;> simp [h]

@[simp] theorem execGroupSafeOrder_bounded (dt : Nat) (block : OutBlock) (s : State) (h : s.queues.Ok) :
    (execGroupSafeOrder dt block s).bounded :=
  act_bounded h fun s h => by
    repeat' split
    all_goals simp [h]

@[simp] theorem execKeeperCycleStart_bounded (dt : Nat) (task : Fin 256) (s : State) (h : s.queues.Ok) :
    (execKeeperCycleStart dt task s).bounded :=
  keeperAct_bounded h fun s h => by simp [h]

@[simp] theorem execSealArrival_bounded (dt : Nat) (g : BargeIx) (crcOk disagree : Bool) (s : State) (h : s.queues.Ok) :
    (execSealArrival dt g crcOk disagree s).bounded :=
  keeperAct_bounded h fun s h => staged_ok _ _ _ h fun s h => by simp [h]

@[simp] theorem execFaultReportArrival_bounded (dt : Nat) (g : BargeIx) (crcOk : Bool) (s : State) (h : s.queues.Ok) :
    (execFaultReportArrival dt g crcOk s).bounded :=
  keeperAct_bounded h fun s h => by simp [h]

@[simp] theorem execResetReportArrival_bounded (dt : Nat) (g : BargeIx) (crcOk : Bool) (s : State) (h : s.queues.Ok) :
    (execResetReportArrival dt g crcOk s).bounded :=
  keeperAct_bounded h fun s h => by simp [h]

@[simp] theorem execDecision_bounded (dt : Nat) (task : Fin 256) (s : State) (h : s.queues.Ok) :
    (execDecision dt task s).bounded :=
  keeperAct_bounded h fun s h => staged_ok _ _ _ h fun s h => by simp [h]

@[simp] theorem execWindowClose_bounded (dt : Nat) (task : Fin 256) (s : State) (h : s.queues.Ok) :
    (execWindowClose dt task s).bounded :=
  keeperAct_bounded h fun s h => gated_ok (fun s h => staged_ok _ _ _ h fun s h => by simp [h]) h

@[simp] theorem execRetryRequest_bounded (dt : Nat) (task : Fin 256) (s : State) (h : s.queues.Ok) :
    (execRetryRequest dt task s).bounded :=
  keeperAct_bounded h fun s h => by simp [h]

@[simp] theorem execLockGateOpen_bounded (dt : Nat) (task : Fin 256) (s : State) (h : s.queues.Ok) :
    (execLockGateOpen dt task s).bounded :=
  keeperAct_bounded h fun s h => by simp [h]

@[simp] theorem execChannelRetirementReport_bounded (dt : Nat) (s : State) (h : s.queues.Ok) :
    (execChannelRetirementReport dt s).bounded :=
  keeperAct_bounded h fun s h => by simp [h]

@[simp] theorem execKeeperSelfTest_bounded (dt : Nat) (pass : Bool) (s : State) (h : s.queues.Ok) :
    (execKeeperSelfTest dt pass s).bounded :=
  keeperAct_bounded h fun s h => by simp [h]

@[simp] theorem execKclkMonitorWindow_bounded (dt : Nat) (count : Nat) (s : State) (h : s.queues.Ok) :
    (execKclkMonitorWindow dt count s).bounded :=
  keeperAct_bounded h fun s h => gated_ok (fun s h => by simp [h]) h

@[simp] theorem execNoCrystalEdge_bounded (dt : Nat) (s : State) (h : s.queues.Ok) :
    (execNoCrystalEdge dt s).bounded :=
  keeperAct_bounded h fun s h => by simp [h]

@[simp] theorem execSafeHalfPeriod_bounded (dt : Nat) (padA padB : Bool) (s : State) (h : s.queues.Ok) :
    (execSafeHalfPeriod dt padA padB s).bounded :=
  keeperAct_bounded h fun s h => by simp [h]

@[simp] theorem execArm_bounded (dt : Nat) (arg : BitVec 8) (hm1 : LoadWrite) (s : State) (h : s.queues.Ok) :
    (execArm dt arg hm1 s).bounded :=
  keeperAct_bounded h fun s h => staged_ok _ _ _ h fun s h => by simp [h]

@[simp] theorem execRun_bounded (dt : Nat) (arg : BitVec 8) (hm1 : LoadWrite) (s : State) (h : s.queues.Ok) :
    (execRun dt arg hm1 s).bounded :=
  keeperAct_bounded h fun s h => staged_ok _ _ _ h fun s h => by simp [h]

@[simp] theorem execStartTask_bounded (dt : Nat) (arg : BitVec 8) (hm1 : LoadWrite) (s : State) (h : s.queues.Ok) :
    (execStartTask dt arg hm1 s).bounded :=
  keeperAct_bounded h fun s h => staged_ok _ _ _ h fun s h => by simp [h]

@[simp] theorem execStopTask_bounded (dt : Nat) (arg : BitVec 8) (hm1 : LoadWrite) (s : State) (h : s.queues.Ok) :
    (execStopTask dt arg hm1 s).bounded :=
  keeperAct_bounded h fun s h => staged_ok _ _ _ h fun s h => by simp [h]

@[simp] theorem execRetireBarge_bounded (dt : Nat) (arg : BitVec 8) (hm1 : LoadWrite) (s : State) (h : s.queues.Ok) :
    (execRetireBarge dt arg hm1 s).bounded :=
  keeperAct_bounded h fun s h => staged_ok _ _ _ h fun s h => by simp [h]

@[simp] theorem execForceSafe_bounded (dt : Nat) (arg : BitVec 8) (hm1 : LoadWrite) (s : State) (h : s.queues.Ok) :
    (execForceSafe dt arg hm1 s).bounded :=
  keeperAct_bounded h fun s h => staged_ok _ _ _ h fun s h => by simp [h]

@[simp] theorem execClearFc_bounded (dt : Nat) (arg : BitVec 8) (hm1 : LoadWrite) (s : State) (h : s.queues.Ok) :
    (execClearFc dt arg hm1 s).bounded :=
  keeperAct_bounded h fun s h => staged_ok _ _ _ h fun s h => by simp [h]

@[simp] theorem execRestoreBarge_bounded (dt : Nat) (arg : BitVec 8) (hm1 : LoadWrite) (s : State) (h : s.queues.Ok) :
    (execRestoreBarge dt arg hm1 s).bounded :=
  keeperAct_bounded h fun s h => staged_ok _ _ _ h fun s h => by simp [h]

@[simp] theorem execClearDegraded_bounded (dt : Nat) (arg : BitVec 8) (hm1 : LoadWrite) (s : State) (h : s.queues.Ok) :
    (execClearDegraded dt arg hm1 s).bounded :=
  keeperAct_bounded h fun s h => staged_ok _ _ _ h fun s h => by simp [h]

@[simp] theorem execKpDseedWrite_bounded (dt : Nat) (hm0 : Word) (hm1 : LoadWrite) (s : State) (h : s.queues.Ok) :
    (execKpDseedWrite dt hm0 hm1 s).bounded :=
  keeperAct_bounded h fun s h => staged_ok _ _ _ h fun s h => by simp [h]

@[simp] theorem execKpCfgWrite_bounded (dt : Nat) (hm0 : Word) (hm1 : LoadWrite) (s : State) (h : s.queues.Ok) :
    (execKpCfgWrite dt hm0 hm1 s).bounded :=
  keeperAct_bounded h fun s h => staged_ok _ _ _ h fun s h => by simp [h]

@[simp] theorem execTaskEntryWrite_bounded (dt : Nat) (task : Fin 256) (word : Fin 16) (hm0 : Word) (hm1 : LoadWrite) (s : State) (h : s.queues.Ok) :
    (execTaskEntryWrite dt task word hm0 hm1 s).bounded :=
  keeperAct_bounded h fun s h => staged_ok _ _ _ h fun s h => by simp [h]

@[simp] theorem execKpLogRead_bounded (dt : Nat) (s : State) (h : s.queues.Ok) :
    (execKpLogRead dt s).bounded :=
  act_bounded h fun s h => gated_ok (fun s h => by simp [h]) h

@[simp] theorem execInstructionIssue_bounded (dt : Nat) (g : BargeIx) (rivals : List Rival) (s : State) (h : s.queues.Ok) :
    (execInstructionIssue dt g rivals s).bounded :=
  bargeAct_bounded h fun s h => by simp [h]

@[simp] theorem execIdleCount_bounded (dt : Nat) (g : BargeIx) (s : State) (h : s.queues.Ok) :
    (execIdleCount dt g s).bounded :=
  bargeAct_bounded h fun s h => by simp [h]

@[simp] theorem execResultDelivery_bounded (dt : Nat) (g : BargeIx) (split : Bool) (s : State) (h : s.queues.Ok) :
    (execResultDelivery dt g split s).bounded :=
  bargeAct_bounded h fun s h => by simp [h]

@[simp] theorem execStoreBufferDrain_bounded (dt : Nat) (g : BargeIx) (rivals : List Rival) (s : State) (h : s.queues.Ok) :
    (execStoreBufferDrain dt g rivals s).bounded :=
  act_bounded h fun s h => gated_ok (fun s h => drainStore_ok g rivals s h) h

@[simp] theorem execXluDepart_bounded (dt : Nat) (g : BargeIx) (s : State) (h : s.queues.Ok) :
    (execXluDepart dt g s).bounded :=
  act_bounded h fun s h => by simp [h]

@[simp] theorem execXluResponse_bounded (dt : Nat) (g : BargeIx) (s : State) (h : s.queues.Ok) :
    (execXluResponse dt g s).bounded :=
  act_bounded h fun s h => gated_ok (fun s h => by simp [h]) h

@[simp] theorem execRptElement_bounded (dt : Nat) (g : BargeIx) (rivals : List Rival) (s : State) (h : s.queues.Ok) :
    (execRptElement dt g rivals s).bounded :=
  bargeAct_bounded h fun s h => by simp [h]

@[simp] theorem execIouComplete_bounded (dt : Nat) (g : BargeIx) (s : State) (h : s.queues.Ok) :
    (execIouComplete dt g s).bounded :=
  act_bounded h fun s h => gated_ok (fun s h => by simp [h]) h

@[simp] theorem execCntWaitEnd_bounded (dt : Nat) (g : BargeIx) (s : State) (h : s.queues.Ok) :
    (execCntWaitEnd dt g s).bounded :=
  act_bounded h fun s h => by simp [h]

@[simp] theorem execGateEntry_bounded (dt : Nat) (g : BargeIx) (s : State) (h : s.queues.Ok) :
    (execGateEntry dt g s).bounded :=
  bargeAct_bounded h fun s h => by simp [h]

@[simp] theorem execGateReturn_bounded (dt : Nat) (g : BargeIx) (s : State) (h : s.queues.Ok) :
    (execGateReturn dt g s).bounded :=
  bargeAct_bounded h fun s h => by simp [h]

@[simp] theorem execSyncEffect_bounded (dt : Nat) (g : BargeIx) (s : State) (h : s.queues.Ok) :
    (execSyncEffect dt g s).bounded :=
  bargeAct_bounded h fun s h => by simp [h]

@[simp] theorem execSealDepart_bounded (dt : Nat) (g : BargeIx) (s : State) (h : s.queues.Ok) :
    (execSealDepart dt g s).bounded :=
  act_bounded h fun s h => by simp [h]

@[simp] theorem execLineReadDeliver_bounded (dt : Nat) (n : BasinIx) (k way : Fin 4) (s : State) (h : s.queues.Ok) :
    (execLineReadDeliver dt n k way s).bounded :=
  act_bounded h fun s h => by simp [h]

@[simp] theorem execPatrolRead_bounded (dt : Nat) (n : BasinIx) (k way : Fin 4) (s : State) (h : s.queues.Ok) :
    (execPatrolRead dt n k way s).bounded :=
  act_bounded h fun s h => by simp [h]

@[simp] theorem execCodeWindowRead_bounded (dt : Nat) (g : BargeIx) (s : State) (h : s.queues.Ok) :
    (execCodeWindowRead dt g s).bounded :=
  act_bounded h fun s h => by simp [h]

@[simp] theorem execInterruptEntry_bounded (dt : Nat) (g : BargeIx) (s : State) (h : s.queues.Ok) :
    (execInterruptEntry dt g s).bounded :=
  bargeAct_bounded h fun s h => by simp [h]

@[simp] theorem execTcmpWrite_bounded (dt : Nat) (g : BargeIx) (k : Fin 4) (value : Word) (s : State) (h : s.queues.Ok) :
    (execTcmpWrite dt g k value s).bounded :=
  bargeAct_bounded h fun s h => by simp [h]

@[simp] theorem execTcmpReached_bounded (dt : Nat) (g : BargeIx) (k : Fin 4) (s : State) (h : s.queues.Ok) :
    (execTcmpReached dt g k s).bounded :=
  act_bounded h fun s h => by simp [h]

@[simp] theorem execIntcSwiWrite_bounded (dt : Nat) (g : BargeIx) (value : Word) (s : State) (h : s.queues.Ok) :
    (execIntcSwiWrite dt g value s).bounded :=
  bargeAct_bounded h fun s h => by simp [h]

@[simp] theorem execBasinDbellWrite_bounded (dt : Nat) (n : BasinIx) (src : Writer) (value : Word) (s : State) (h : s.queues.Ok) :
    (execBasinDbellWrite dt n src value s).bounded :=
  bargeAct_bounded h fun s h => by
    repeat' split
    all_goals simp [h]

@[simp] theorem execBankOwnWrite_bounded (dt : Nat) (n : BasinIx) (b : BankIx) (src : Writer) (value : Word) (s : State) (h : s.queues.Ok) :
    (execBankOwnWrite dt n b src value s).bounded :=
  bargeAct_bounded h fun s h => by
    repeat' split
    all_goals simp [h]

@[simp] theorem execCodemapWrite_bounded (dt : Nat) (n : BasinIx) (p : Fin 4) (src : Writer) (value : Word) (s : State) (h : s.queues.Ok) :
    (execCodemapWrite dt n p src value s).bounded :=
  bargeAct_bounded h fun s h => by
    repeat' split
    all_goals simp [h]

@[simp] theorem execBcPswWrite_bounded (dt : Nat) (g : BargeIx) (value : Word) (s : State) (h : s.queues.Ok) :
    (execBcPswWrite dt g value s).bounded :=
  bargeAct_bounded h fun s h => by simp [h]

@[simp] theorem execUnitContextWrite_bounded (dt : Nat) (g : BargeIx) (word : BitVec 5) (value : Word) (s : State) (h : s.queues.Ok) :
    (execUnitContextWrite dt g word value s).bounded :=
  bargeAct_bounded h fun s h => by simp [h]

@[simp] theorem execDateArrival_bounded (dt : Nat) (g : BargeIx) (s : State) (h : s.queues.Ok) :
    (execDateArrival dt g s).bounded :=
  act_bounded h fun s h => by simp [h]

@[simp] theorem execRetryRequestArrival_bounded (dt : Nat) (g : BargeIx) (s : State) (h : s.queues.Ok) :
    (execRetryRequestArrival dt g s).bounded :=
  act_bounded h fun s h => by simp [h]

@[simp] theorem execDecisionNoticeArrival_bounded (dt : Nat) (g : BargeIx) (s : State) (h : s.queues.Ok) :
    (execDecisionNoticeArrival dt g s).bounded :=
  act_bounded h fun s h => by simp [h]

@[simp] theorem execHaltEntry_bounded (dt : Nat) (g : BargeIx) (s : State) (h : s.queues.Ok) :
    (execHaltEntry dt g s).bounded :=
  bargeAct_bounded h fun s h => by simp [h]

@[simp] theorem execDbgHalt_bounded (dt : Nat) (g : BargeIx) (s : State) (h : s.queues.Ok) :
    (execDbgHalt dt g s).bounded :=
  act_bounded h fun s h => by simp [h]

@[simp] theorem execDbgResume_bounded (dt : Nat) (g : BargeIx) (s : State) (h : s.queues.Ok) :
    (execDbgResume dt g s).bounded :=
  act_bounded h fun s h => by simp [h]

@[simp] theorem execDbgStep_bounded (dt : Nat) (g : BargeIx) (rivals : List Rival) (s : State) (h : s.queues.Ok) :
    (execDbgStep dt g rivals s).bounded :=
  bargeAct_bounded h fun s h => by simp [h]

@[simp] theorem execDbgPcWrite_bounded (dt : Nat) (g : BargeIx) (value : Word) (s : State) (h : s.queues.Ok) :
    (execDbgPcWrite dt g value s).bounded :=
  act_bounded h fun s h => by simp [h]

@[simp] theorem execDbgRegdataWrite_bounded (dt : Nat) (g : BargeIx) (value : Word) (s : State) (h : s.queues.Ok) :
    (execDbgRegdataWrite dt g value s).bounded :=
  act_bounded h fun s h => by simp [h]

@[simp] theorem execPllLock_bounded (dt : Nat) (p : PllIx) (s : State) (h : s.queues.Ok) :
    (execPllLock dt p s).bounded :=
  crpAct_bounded h fun s h => by simp [h]

@[simp] theorem execPllLockLoss_bounded (dt : Nat) (p : PllIx) (s : State) (h : s.queues.Ok) :
    (execPllLockLoss dt p s).bounded :=
  crpAct_bounded h fun s h => by simp [h]

@[simp] theorem execClockMonitorWindow_bounded (dt : Nat) (clk : Clk) (count : Nat) (s : State) (h : s.queues.Ok) :
    (execClockMonitorWindow dt clk count s).bounded :=
  crpAct_bounded h fun s h => by simp [h]

@[simp] theorem execSupplyFault_bounded (dt : Nat) (rail : Rail) (inRange : Bool) (s : State) (h : s.queues.Ok) :
    (execSupplyFault dt rail inRange s).bounded :=
  crpAct_bounded h fun s h => by split <;> simp [h]

@[simp] theorem execKeeperPowerOn_bounded (dt : Nat) (s : State) (h : s.queues.Ok) :
    (execKeeperPowerOn dt s).bounded :=
  actPins_bounded h fun s h => gated_ok (fun s h => freshKeeper_ok _ _ s h) h

@[simp] theorem execKeeperPowerOnReset_bounded (dt : Nat) (s : State) (h : s.queues.Ok) :
    (execKeeperPowerOnReset dt s).bounded :=
  actPins_bounded h fun s h => by
    rw [powersFollow_queues, settle_queues, watchReady_queues, watchKstat_queues, sendGate_queues, dropGates_queues]
    exact freshKeeper_ok _ _ s h

@[simp] theorem execColdReset_bounded (dt : Nat) (pins : Pins) (levels : BitVec 12) (s : State) (h : s.queues.Ok) :
    (execColdReset dt pins levels s).bounded :=
  actPins_bounded h fun s h => by simp [h]

@[simp] theorem execColdResetAssert_bounded (dt : Nat) (rail : Rail) (s : State) (h : s.queues.Ok) :
    (execColdResetAssert dt rail s).bounded :=
  actPins_bounded h fun s h => by simp [h]

@[simp] theorem execResetNPulse_bounded (dt : Nat) (width : Nat) (pins : Pins) (s : State) (h : s.queues.Ok) :
    (execResetNPulse dt width pins s).bounded :=
  actPins_bounded h fun s h => by simp [h]

@[simp] theorem execRstcmdWarm_bounded (dt : Nat) (value : Word) (pins : Pins) (s : State) (h : s.queues.Ok) :
    (execRstcmdWarm dt value pins s).bounded :=
  crpAct_bounded h fun s h => by simp [h]

@[simp] theorem execLockstepMismatch_bounded (dt : Nat) (pins : Pins) (s : State) (h : s.queues.Ok) :
    (execLockstepMismatch dt pins s).bounded :=
  crpAct_bounded h fun s h => by simp [h]

@[simp] theorem execBasinReset_bounded (dt : Nat) (n : BasinIx) (s : State) (h : s.queues.Ok) :
    (execBasinReset dt n s).bounded :=
  act_bounded h fun s h => watchTrips_ok _ _ (fun s h => by simp [h]) h

@[simp] theorem execBargeResetCmd_bounded (dt : Nat) (g : BargeIx) (s : State) (h : s.queues.Ok) :
    (execBargeResetCmd dt g s).bounded :=
  act_bounded h fun s h => by simp [h]

@[simp] theorem execBholdWrite_bounded (dt : Nat) (high : Bool) (value : Word) (s : State) (h : s.queues.Ok) :
    (execBholdWrite dt high value s).bounded :=
  act_bounded h fun s h => by simp [h]

@[simp] theorem execStsetWrite_bounded (dt : Nat) (value : Word) (s : State) (h : s.queues.Ok) :
    (execStsetWrite dt value s).bounded :=
  act_bounded h fun s h => by simp [h]

@[simp] theorem execStationTimeTrim_bounded (dt : Nat) (s : State) (h : s.queues.Ok) :
    (execStationTimeTrim dt s).bounded :=
  act_bounded h fun s h => by simp [h]

@[simp] theorem execBpwrReqWrite_bounded (dt : Nat) (n : BasinIx) (value : Word) (s : State) (h : s.queues.Ok) :
    (execBpwrReqWrite dt n value s).bounded :=
  act_bounded h fun s h => by simp [h]

@[simp] theorem execB1Entry_bounded (dt : Nat) (n : BasinIx) (s : State) (h : s.queues.Ok) :
    (execB1Entry dt n s).bounded :=
  act_bounded h fun s h => by simp [h]

@[simp] theorem execB1Wake_bounded (dt : Nat) (n : BasinIx) (s : State) (h : s.queues.Ok) :
    (execB1Wake dt n s).bounded :=
  act_bounded h fun s h => by simp [h]

@[simp] theorem execPowerTransitionComplete_bounded (dt : Nat) (n : BasinIx) (s : State) (h : s.queues.Ok) :
    (execPowerTransitionComplete dt n s).bounded :=
  crpAct_bounded h fun s h => by simp [h]

@[simp] theorem execThermalConversion_bounded (dt : Nat) (readings : List (BitVec 12 × Bool)) (s : State) (h : s.queues.Ok) :
    (execThermalConversion dt readings s).bounded :=
  crpAct_bounded h fun s h => by simp [h]

@[simp] theorem execBootVerify_bounded (dt : Nat) (firmware sig : List Byte) (s : State) (h : s.queues.Ok) :
    (execBootVerify dt firmware sig s).bounded :=
  crpAct_bounded h fun s h => by simp [h]

@[simp] theorem execMuartRecovery_bounded (dt : Nat) (firmware sig : List Byte) (s : State) (h : s.queues.Ok) :
    (execMuartRecovery dt firmware sig s).bounded :=
  crpAct_bounded h fun s h => by simp [h]

@[simp] theorem execBasinSelfTestComplete_bounded (dt : Nat) (n : BasinIx) (defects : List (Fin 16 × Fin 348)) (s : State) (h : s.queues.Ok) :
    (execBasinSelfTestComplete dt n defects s).bounded :=
  crpAct_bounded h fun s h => by simp [h]

@[simp] theorem execReservoirSelfTestComplete_bounded (dt : Nat) (p : Fin 4) (defects : List (Fin 4 × Fin 348)) (s : State) (h : s.queues.Ok) :
    (execReservoirSelfTestComplete dt p defects s).bounded :=
  crpAct_bounded h fun s h => by simp [h]

@[simp] theorem execHifDbellWrite_bounded (dt : Nat) (value : Dword) (tlp : HostFlags) (s : State) (h : s.queues.Ok) :
    (execHifDbellWrite dt value tlp s).bounded :=
  act_bounded h fun s h => by simp [h]

@[simp] theorem execMailboxWrite_bounded (dt : Nat) (k : Fin 4) (data : HostBytes) (s : State) (h : s.queues.Ok) :
    (execMailboxWrite dt k data s).bounded :=
  act_bounded h fun s h => by simp [h]

@[simp] theorem execHifRciWrite_bounded (dt : Nat) (r : Fin 4) (value : Dword) (tlp : HostFlags) (s : State) (h : s.queues.Ok) :
    (execHifRciWrite dt r value tlp s).bounded :=
  act_bounded h fun s h => by simp [h]

@[simp] theorem execHifRcfgWrite_bounded (dt : Nat) (r : Fin 4) (value : Dword) (tlp : HostFlags) (s : State) (h : s.queues.Ok) :
    (execHifRcfgWrite dt r value tlp s).bounded :=
  act_bounded h fun s h => by simp [h]

@[simp] theorem execBar2Access_bounded (dt : Nat) (write : Bool) (data : HostBytes) (s : State) (h : s.queues.Ok) :
    (execBar2Access dt write data s).bounded :=
  act_bounded h fun s h => by simp [h]

@[simp] theorem execBar4Access_bounded (dt : Nat) (write : Bool) (data : HostBytes) (s : State) (h : s.queues.Ok) :
    (execBar4Access dt write data s).bounded :=
  act_bounded h fun s h => by simp [h]

@[simp] theorem execFlr_bounded (dt : Nat) (s : State) (h : s.queues.Ok) :
    (execFlr dt s).bounded :=
  act_bounded h fun s h => by simp [h]

@[simp] theorem execPerst_bounded (dt : Nat) (s : State) (h : s.queues.Ok) :
    (execPerst dt s).bounded :=
  act_bounded h fun s h => by simp [h]

@[simp] theorem execPcioAccess_bounded (dt : Nat) (data : List Word) (s : State) (h : s.queues.Ok) :
    (execPcioAccess dt data s).bounded :=
  act_bounded h fun s h => by simp [h]

@[simp] theorem execPcioFailure_bounded (dt : Nat) (kind : HostEnd) (s : State) (h : s.queues.Ok) :
    (execPcioFailure dt kind s).bounded :=
  act_bounded h fun s h => by simp [h]

@[simp] theorem execIngressGo_bounded (dt : Nat) (e : Fin 4) (s : State) (h : s.queues.Ok) :
    (execIngressGo dt e s).bounded :=
  act_bounded h fun s h => by simp [h]

@[simp] theorem execIngressDone_bounded (dt : Nat) (e : Fin 4) (data : List Byte) (how : HostEnd) (s : State) (h : s.queues.Ok) :
    (execIngressDone dt e data how s).bounded :=
  act_bounded h fun s h => by simp [h]

@[simp] theorem execEqPush_bounded (dt : Nat) (q : Fin 14) (s : State) (h : s.queues.Ok) :
    (execEqPush dt q s).bounded :=
  act_bounded h fun s h => by simp [h]

@[simp] theorem execFerryStrmWrite_bounded (dt : Nat) (value : Word) (s : State) (h : s.queues.Ok) :
    (execFerryStrmWrite dt value s).bounded :=
  act_bounded h fun s h => by simp [h]

@[simp] theorem execEgressDraw_bounded (dt : Nat) (s : State) (h : s.queues.Ok) :
    (execEgressDraw dt s).bounded :=
  act_bounded h fun s h => by simp [h]

@[simp] theorem execEgressWrite_bounded (dt : Nat) (s : State) (h : s.queues.Ok) :
    (execEgressWrite dt s).bounded :=
  act_bounded h fun s h => by simp [h]

@[simp] theorem execCreditRefill_bounded (dt : Nat) (s : State) (h : s.queues.Ok) :
    (execCreditRefill dt s).bounded :=
  act_bounded h fun s h => by simp [h]

@[simp] theorem execErst_bounded (dt : Nat) (s : State) (h : s.queues.Ok) :
    (execErst dt s).bounded :=
  act_bounded h fun s h => by simp [h]

@[simp] theorem execL1Entry_bounded (dt : Nat) (s : State) (h : s.queues.Ok) :
    (execL1Entry dt s).bounded :=
  act_bounded h fun s h => by simp [h]

@[simp] theorem execLtrSend_bounded (dt : Nat) (s : State) (h : s.queues.Ok) :
    (execLtrSend dt s).bounded :=
  act_bounded h fun s h => by simp [h]

@[simp] theorem execRingEntryWrite_bounded (dt : Nat) (r : Fin 4) (s : State) (h : s.queues.Ok) :
    (execRingEntryWrite dt r s).bounded :=
  act_bounded h fun s h => by simp [h]

@[simp] theorem execConfigSpaceWrite_bounded (dt : Nat) (cfg : ConfigWrite) (s : State) (h : s.queues.Ok) :
    (execConfigSpaceWrite dt cfg s).bounded :=
  act_bounded h fun s h => by simp [h]

@[simp] theorem execDrst_bounded (dt : Nat) (s : State) (h : s.queues.Ok) :
    (execDrst dt s).bounded :=
  act_bounded h fun s h => by simp [h]

@[simp] theorem execNewchal_bounded (dt : Nat) (random : BitVec 256) (s : State) (h : s.queues.Ok) :
    (execNewchal dt random s).bounded :=
  act_bounded h fun s h => by simp [h]

@[simp] theorem execVerify_bounded (dt : Nat) (slot : Fin 4) (s : State) (h : s.queues.Ok) :
    (execVerify dt slot s).bounded :=
  act_bounded h fun s h => by simp [h]

@[simp] theorem execVerifyComplete_bounded (dt : Nat) (key : List Byte) (s : State) (h : s.queues.Ok) :
    (execVerifyComplete dt key s).bounded :=
  act_bounded h fun s h => by simp [h]

@[simp] theorem execRelock_bounded (dt : Nat) (s : State) (h : s.queues.Ok) :
    (execRelock dt s).bounded :=
  act_bounded h fun s h => by simp [h]

@[simp] theorem execFuseLifeAdvance_bounded (dt : Nat) (value : Word) (s : State) (h : s.queues.Ok) :
    (execFuseLifeAdvance dt value s).bounded :=
  act_bounded h fun s h => by simp [h]

@[simp] theorem execFuseKeyProgram_bounded (dt : Nat) (value : Word) (s : State) (h : s.queues.Ok) :
    (execFuseKeyProgram dt value s).bounded :=
  act_bounded h fun s h => by simp [h]

@[simp] theorem execFuseDbgSet_bounded (dt : Nat) (value : Word) (s : State) (h : s.queues.Ok) :
    (execFuseDbgSet dt value s).bounded :=
  act_bounded h fun s h => by simp [h]

@[simp] theorem execFuseRevoke_bounded (dt : Nat) (value : Word) (s : State) (h : s.queues.Ok) :
    (execFuseRevoke dt value s).bounded :=
  act_bounded h fun s h => by simp [h]

@[simp] theorem execFuseArbAdvance_bounded (dt : Nat) (value : Word) (s : State) (h : s.queues.Ok) :
    (execFuseArbAdvance dt value s).bounded :=
  act_bounded h fun s h => by simp [h]

@[simp] theorem execFuseFwcntAdvance_bounded (dt : Nat) (value : Word) (s : State) (h : s.queues.Ok) :
    (execFuseFwcntAdvance dt value s).bounded :=
  act_bounded h fun s h => by simp [h]

@[simp] theorem execFusePfuseBlow_bounded (dt : Nat) (value : Word) (s : State) (h : s.queues.Ok) :
    (execFusePfuseBlow dt value s).bounded :=
  act_bounded h fun s h => by simp [h]

@[simp] theorem execFusePlockBlow_bounded (dt : Nat) (value : Word) (s : State) (h : s.queues.Ok) :
    (execFusePlockBlow dt value s).bounded :=
  act_bounded h fun s h => by simp [h]

@[simp] theorem execFuseOpComplete_bounded (dt : Nat) (s : State) (h : s.queues.Ok) :
    (execFuseOpComplete dt s).bounded :=
  act_bounded h fun s h => by simp [h]

@[simp] theorem execJtagUpdateDr_bounded (dt : Nat) (dr : BitVec 72) (s : State) (h : s.queues.Ok) :
    (execJtagUpdateDr dt dr s).bounded :=
  act_bounded h fun s h => by simp [h]

@[simp] theorem execTapReset_bounded (dt : Nat) (s : State) (h : s.queues.Ok) :
    (execTapReset dt s).bounded :=
  act_bounded h fun s h => by simp [h]

@[simp] theorem execJtagUpdateIr_bounded (dt : Nat) (ir : JtagIr) (s : State) (h : s.queues.Ok) :
    (execJtagUpdateIr dt ir s).bounded :=
  act_bounded h fun s h => by simp [h]

@[simp] theorem execBankOwnHandoverComplete_bounded (dt : Nat) (n : BasinIx) (b : BankIx) (s : State) (h : s.queues.Ok) :
    (execBankOwnHandoverComplete dt n b s).bounded :=
  act_bounded h fun s h => by simp [h]

@[simp] theorem execTargetGrant_bounded (dt : Nat) (target : Fin 20) (rivals : List Rival) (s : State) (h : s.queues.Ok) :
    (execTargetGrant dt target rivals s).bounded :=
  registerAct_bounded h fun s h => by simp [h]

@[simp] theorem execRegisterWrite_bounded (dt : Nat) (path : RegPath) (value : Word) (s : State) (h : s.queues.Ok) :
    (execRegisterWrite dt path value s).bounded :=
  registerAct_bounded h fun s h => by simp [h]

@[simp] theorem execMailboxTake_bounded (dt : Nat) (k : Fin 4) (s : State) (h : s.queues.Ok) :
    (execMailboxTake dt k s).bounded :=
  registerAct_bounded h fun s h => by simp [h]

@[simp] theorem execDeadlineExpiry_bounded (dt : Nat) (k : Fin 4) (s : State) (h : s.queues.Ok) :
    (execDeadlineExpiry dt k s).bounded :=
  registerAct_bounded h fun s h => by simp [h]

@[simp] theorem execEventPost_bounded (dt : Nat) (s : State) (h : s.queues.Ok) :
    (execEventPost dt s).bounded :=
  registerAct_bounded h fun s h => gated_ok (fun s h => by simp [h]) h

@[simp] theorem execHello_bounded (dt : Nat) (k : Fin 4) (s : State) (h : s.queues.Ok) :
    (execHello dt k s).bounded :=
  registerAct_bounded h fun s h => by simp [h]

@[simp] theorem execInfo_bounded (dt : Nat) (k : Fin 4) (s : State) (h : s.queues.Ok) :
    (execInfo dt k s).bounded :=
  mailboxAct_bounded h fun c s h => infoReply_ok k c s h

@[simp] theorem execResetHost_bounded (dt : Nat) (k : Fin 4) (s : State) (h : s.queues.Ok) :
    (execResetHost dt k s).bounded :=
  mailboxAct_bounded h fun c s h => resetHostReply_ok c s h

@[simp] theorem execImageStat_bounded (dt : Nat) (k : Fin 4) (s : State) (h : s.queues.Ok) :
    (execImageStat dt k s).bounded :=
  registerAct_bounded h fun s h => by simp [h]

@[simp] theorem execRole_bounded (dt : Nat) (k : Fin 4) (s : State) (h : s.queues.Ok) :
    (execRole dt k s).bounded :=
  mailboxAct_bounded h fun c s h => roleReply_ok k c s h

@[simp] theorem execTaskStart_bounded (dt : Nat) (k : Fin 4) (differ : List Nat) (s : State) (h : s.queues.Ok) :
    (execTaskStart dt k differ s).bounded :=
  mailboxAct_bounded h fun c s h => taskStartReply_ok k differ c s h

@[simp] theorem execTaskStop_bounded (dt : Nat) (k : Fin 4) (mismatch : Bool) (s : State) (h : s.queues.Ok) :
    (execTaskStop dt k mismatch s).bounded :=
  mailboxAct_bounded h fun c s h => taskStopReply_ok k mismatch c s h

@[simp] theorem execKeeper_bounded (dt : Nat) (k : Fin 4) (mismatch : Bool) (s : State) (h : s.queues.Ok) :
    (execKeeper dt k mismatch s).bounded :=
  mailboxAct_bounded h fun c s h => keeperCmdReply_ok k mismatch c s h

@[simp] theorem execLatTol_bounded (dt : Nat) (k : Fin 4) (s : State) (h : s.queues.Ok) :
    (execLatTol dt k s).bounded :=
  registerAct_bounded h fun s h => by simp [h]

@[simp] theorem execCounters_bounded (dt : Nat) (k : Fin 4) (s : State) (h : s.queues.Ok) :
    (execCounters dt k s).bounded :=
  mailboxAct_bounded h fun c s h => countersReply_ok k c s h

@[simp] theorem execReset_bounded (dt : Nat) (k : Fin 4) (s : State) (h : s.queues.Ok) :
    (execReset dt k s).bounded :=
  mailboxAct_bounded h fun c s h => resetReply_ok k c s h

@[simp] theorem execEventRoute_bounded (dt : Nat) (k : Fin 4) (s : State) (h : s.queues.Ok) :
    (execEventRoute dt k s).bounded :=
  registerAct_bounded h fun s h => by simp [h]

@[simp] theorem execSetTime_bounded (dt : Nat) (k : Fin 4) (s : State) (h : s.queues.Ok) :
    (execSetTime dt k s).bounded :=
  mailboxAct_bounded h fun c s h => setTimeReply_ok c s h

@[simp] theorem execClaim_bounded (dt : Nat) (k : Fin 4) (s : State) (h : s.queues.Ok) :
    (execClaim dt k s).bounded :=
  mailboxAct_bounded h fun c s h => claimReply_ok k c s h

@[simp] theorem execRelease_bounded (dt : Nat) (k : Fin 4) (s : State) (h : s.queues.Ok) :
    (execRelease dt k s).bounded :=
  mailboxAct_bounded h fun c s h => releaseReply_ok c s h

@[simp] theorem execLoadImage_bounded (dt : Nat) (k : Fin 4) (bindings first second key : List Byte) (writes : Option Nat) (how : HostEnd)
    (differ : List Nat) (s : State) (h : s.queues.Ok) :
    (execLoadImage dt k bindings first second key writes how differ s).bounded :=
  mailboxAct_bounded h fun c s h => loadReply_ok k bindings first second key writes how differ c s h

/-- Every command leaves bounded memories bounded. -/
theorem exec_bounded (i : Instr) (s : State) (h : s.queues.Ok) : Out.bounded (exec i s) := by
  unfold exec
  split <;> simp [h]

theorem step_bounded (s : State) (h : s.queues.Ok) : Out.bounded (step s) := by
  unfold step
  split
  · rintro t ⟨⟩
    exact h
  · exact exec_bounded _ _ (by simpa using h)

/-- Settles O58: a queue is lengthened only by a command that has found room in it, or that drops what does not fit; a group gets an
owner only from START_TASK, which makes the task active, and a task that leaves its active state releases the groups that it names. -/
theorem queuesKeepTheirSizes : Obligations.QueuesKeepTheirSizes := by
  intro s t h hstep
  rw [queuesBounded_iff] at h ⊢
  exact step_bounded s h t hstep

end Sys2Proof.Machine
end

section
/-! Unlocking and the reset of the debug block (O54). -/

namespace Sys2Proof.Machine

/-! ### Unlocking (R408) -/

theorem toList_eq_map_get {α : Type} {n : Nat} (v : Vector α n) : v.toList = (List.finRange n).map v.get :=
  List.ext_getElem (by simp) fun i h1 h2 => by simp [vget_eq]

/-- The bytes that a verification hashes and the response it checks (R408). -/
theorem responseVerifies_eq (x : Sec) (slot : Fin 4) (key : List Byte) :
    responseVerifies x slot key = (Config.sha384 key == x.fuses.hash.get slot &&
      Config.ecdsaVerify key (Config.sha384 ((List.range 32).map (fun i => fld x.chal (8 * i) 8) ++
          (List.range 8).map fun i => fld x.loaded.serial (8 * i) 8))
        ((List.finRange 24).flatMap fun i => (List.range 4).map fun j => fld (x.resp.get i) (8 * j) 8)) := by
  rw [responseVerifies, toList_eq_map_get, List.flatMap_map]
  rfl

theorem endVerify_idle {s : State} (h : s.sec.vbusy = none) (key : List Byte) : endVerify key s = s := by
  simp [endVerify, h]

theorem storedKey_noteKey (slot : Fin 4) (key : List Byte) (s : State) :
    storedKey (noteKey slot key s) slot key = storedKey s slot key := by
  simp [storedKey, noteKey]

/-- A verification that succeeds unlocks, but not in the HCLK of a RELOCK. -/
theorem endVerify_good {s : State} {slot : Fin 4} {can : Bool} {key : List Byte} (h : s.sec.vbusy = some (slot, can))
    (hgood : (can && responseVerifies s.sec slot (storedKey s slot key)) = true) :
    endVerify key s = State.mark .secStat 7 { s with sec := { s.sec with
      vbusy := none, keys := vput s.sec.keys slot (some (storedKey s slot key)), vok := true
      unlocked := s.sec.unlocked || !relockedNow s } } := by
  have hv : (noteKey slot key s).sec.vbusy = some (slot, can) := h
  simp only [endVerify, h, Option.elim, hv, storedKey_noteKey]
  exact if_pos hgood

/-- One that fails counts, and the third failure locks out. -/
theorem endVerify_bad {s : State} {slot : Fin 4} {can : Bool} {key : List Byte} (h : s.sec.vbusy = some (slot, can))
    (hbad : (can && responseVerifies s.sec slot (storedKey s slot key)) = false) :
    endVerify key s = State.mark .secStat 8 { s with sec := { s.sec with
      vbusy := none, keys := vput s.sec.keys slot (some (storedKey s slot key)), vfail := true
      failcnt := satInc s.sec.failcnt, lockout := s.sec.lockout || decide (2 ≤ s.sec.failcnt.toNat) } } := by
  have hv : (noteKey slot key s).sec.vbusy = some (slot, can) := h
  simp only [endVerify, h, Option.elim, hv, storedKey_noteKey]
  exact if_neg (Bool.eq_false_iff.1 hbad)

theorem relockedNow_iff (s : State) : relockedNow s = true ↔ ∃ t, s.sec.relockAt = some t ∧ t / 20 = s.now / 20 := by
  simp [relockedNow, Option.any_eq_true, hclkPeriod]

/-! ### The debug block's reset (R413, R421) -/

/-- A barge after the reset of its debug module: the module itself, and, where the barge was not halted, nothing else. -/
structure Undebugged (b c : Barge) : Prop where
  module : c.dbg = { tptr := b.dbg.tptr, wrap := b.dbg.wrap }
  running : b.dbg.halted = false → c = { b with dbg := c.dbg }

theorem Barge.setting_dbg (b : Barge) (kv : SyKey × Word) : (b.setting kv).dbg = b.dbg := by
  obtain ⟨key, v⟩ := kv
  cases key with
  | fps w => cases w <;> rfl
  | fpu w => cases w <;> rfl
  | vbase w => cases w <;> rfl
  | _ => rfl

theorem Barge.settings_dbg (l : List (SyKey × Word)) (b : Barge) : (l.foldl Barge.setting b).dbg = b.dbg := by
  induction l generalizing b with
  | nil => rfl
  | cons kv l ih => rw [List.foldl_cons, ih, Barge.setting_dbg]

/-- From `s` to `t` barge g and code line reads have changed, and no trace pointer. -/
structure TracesKept (g : BargeIx) (s t : State) : Prop where
  state : t = { s with barges := t.barges, basins := t.basins }
  others : ∀ k, k ≠ g → t.barges.get k = s.barges.get k
  tptr : (t.barges.get g).dbg.tptr = (s.barges.get g).dbg.tptr
  wrap : (t.barges.get g).dbg.wrap = (s.barges.get g).dbg.wrap

theorem TracesKept.trans {g : BargeIx} {s t u : State} (h : TracesKept g s t) (k : TracesKept g t u) : TracesKept g s u :=
  ⟨by rw [k.state, h.state], fun j hj => (k.others j hj).trans (h.others j hj), k.tptr.trans h.tptr, k.wrap.trans h.wrap⟩

theorem TracesKept.modBarge (g : BargeIx) (s : State) (f : Barge → Barge) (ht : (f (s.barges.get g)).dbg.tptr = (s.barges.get g).dbg.tptr)
    (hw : (f (s.barges.get g)).dbg.wrap = (s.barges.get g).dbg.wrap) : TracesKept g s (s.modBarge g f) :=
  ⟨rfl, fun k hk => by simp [vmod_get, hk], by simpa using ht, by simpa using hw⟩

theorem TracesKept.of_sameButCode {s t : State} (g : BargeIx) (h : SameButCode s t) : TracesKept g s t := by
  have hb : t.barges = s.barges := by rw [h.state]
  exact ⟨by rw [h.state], fun k _ => by rw [hb], by rw [hb], by rw [hb]⟩

theorem unhalt_tracesKept (g : BargeIx) (s : State) : TracesKept g s (unhalt g false s) := by
  unfold unhalt
  extract_lets b s1
  have hs1 : TracesKept g s s1 := .modBarge g s _ (by dsimp only; rw [Barge.settings_dbg])
    (by dsimp only; rw [Barge.settings_dbg])
  clear_value s1
  split
  · exact hs1.trans ((TracesKept.modBarge g s1 _ rfl rfl).trans (.of_sameButCode g (cancelReads_sameButCode g _)))
  · exact hs1

theorem resetDbg_frame (s : State) (g : BargeIx) :
    resetDbg s g = { s with barges := (resetDbg s g).barges, basins := (resetDbg s g).basins } ∧
      (∀ k, k ≠ g → (resetDbg s g).barges.get k = s.barges.get k) ∧ Undebugged (s.barges.get g) ((resetDbg s g).barges.get g) := by
  unfold resetDbg
  extract_lets s1
  have h1 : TracesKept g s s1 := by
    simp only [s1]
    split
    · exact unhalt_tracesKept g s
    · exact .of_sameButCode g (.refl s)
  have hrun : (s.barges.get g).dbg.halted = false → s1 = s := fun h => if_neg (by simp [h])
  clear_value s1
  refine ⟨?_, fun k hk => ?_, ?_, fun hh => ?_⟩
  · rw [h1.state]
    rfl
  · rw [State.modBarge_barges, vmod_get, if_neg hk]
    exact h1.others k hk
  · rw [State.modBarge_barges, vmod_get_self, h1.tptr, h1.wrap]
  · rw [State.modBarge_barges, vmod_get_self, hrun hh]

/-- Barge by barge. -/
theorem resetDbgs_frame (l : List BargeIx) (hl : l.Nodup) (s : State) :
    l.foldl resetDbg s = { s with barges := (l.foldl resetDbg s).barges, basins := (l.foldl resetDbg s).basins } ∧
      (∀ k, k ∉ l → (l.foldl resetDbg s).barges.get k = s.barges.get k) ∧
      ∀ k ∈ l, Undebugged (s.barges.get k) ((l.foldl resetDbg s).barges.get k) := by
  induction l generalizing s with
  | nil => exact ⟨rfl, fun _ _ => rfl, nofun⟩
  | cons g l ih =>
    obtain ⟨hg, hl⟩ := List.nodup_cons.1 hl
    obtain ⟨hstate, hothers, hown⟩ := resetDbg_frame s g
    obtain ⟨istate, iothers, iown⟩ := ih hl (resetDbg s g)
    rw [List.foldl_cons]
    refine ⟨?_, fun k hk => ?_, fun k hk => ?_⟩
    · rw [istate, hstate]
    · obtain ⟨hkg, hkl⟩ := not_or.1 (mt List.mem_cons.2 hk)
      rw [iothers k hkl, hothers k hkg]
    · by_cases hkg : k = g
      · subst hkg
        rw [iothers k hg]
        exact hown
      · have hkl := (List.mem_cons.1 hk).resolve_left hkg
        have := iown k hkl
        rwa [hothers k hkg] at this

theorem debugReset_frame (s : State) : (debugReset s).sec = { s.sec with jtagStatus := 0, jtagData := 0, dbgWait := none } ∧
    (debugReset s).kp = s.kp ∧ ∀ g, Undebugged (s.barges.get g) ((debugReset s).barges.get g) := by
  have hkp : (s.dropTx 15 fun _ => true).kp = s.kp := rfl
  have hsec : (s.dropTx 15 fun _ => true).sec = s.sec := rfl
  have hbarges : (s.dropTx 15 fun _ => true).barges = s.barges := rfl
  rw [← hkp, ← hsec, ← hbarges, debugReset]
  generalize (s.dropTx 15 fun _ => true) = s1
  obtain ⟨hstate, -, hown⟩ := resetDbgs_frame (List.finRange 48) (List.nodup_finRange 48)
    { s1 with sec := { s1.sec with jtagStatus := 0, jtagData := 0, dbgWait := none } }
  dsimp only
  generalize List.foldl resetDbg _ _ = u at hstate hown ⊢
  refine ⟨by rw [hstate], by rw [hstate], fun g => hown g (List.mem_finRange g)⟩

end Sys2Proof.Machine
end

section
/-! The data registers of the TAP (O54). -/

namespace Sys2Proof.Machine

/-! ### JTAG (R409, R410) -/

theorem bitsN_eq_fld {w : Nat} (x : BitVec w) (lo len : Nat) : bitsN x lo len = (fld x lo len).toNat := by
  simp [bitsN, fld, Nat.shiftRight_eq_div_pow]

theorem idcode_fields : ∀ y : BitVec 4, let x : BitVec 32 := y ++ (0x7240 : BitVec 16) ++ (0x2B5 : BitVec 11) ++ (1 : BitVec 1)
    bitsN x 28 4 = y.toNat ∧ bit x 0 = true := by
  decide

theorem jtagIdcode_bits (s : State) :
    bitsN (jtagIdcode s) 28 4 = s.sec.loaded.step.toNat % 16 ∧ bit (jtagIdcode s) 0 = true := by
  have h := idcode_fields (fld s.sec.loaded.step 0 4)
  have hstep : (fld s.sec.loaded.step 0 4).toNat = s.sec.loaded.step.toNat % 16 := by simp [fld]
  exact ⟨h.1.trans hstep, h.2⟩

theorem inExtest_iff (ir : JtagIr) : inExtest ir = true ↔ ir ∈ ([0, 3, 4, 5, 6] : List JtagIr) := by
  simp [inExtest, or_assoc]

theorem jtagDr_boundary {s : State} (h : s.sec.jtagIr ∈ ([0, 2, 3, 4] : List JtagIr)) : jtagDr s = .boundary := by
  simp only [List.mem_cons, List.not_mem_nil, or_false] at h
  obtain h | h | h | h := h <;> simp [jtagDr, h]

theorem jtagDr_idcode {s : State} (h : s.sec.jtagIr = 1) : jtagDr s = .idcode := by
  simp [jtagDr, h]

theorem jtagDr_dbgacc {s : State} (h : s.sec.jtagIr = 0x10) (ha : debugAllowed s = true) : jtagDr s = .dbgacc := by
  simp [jtagDr, h, ha]

theorem jtagDr_secacc {s : State} (h : s.sec.jtagIr = 0x11) (hl : s.sec.loaded.life ≠ 3) : jtagDr s = .secacc := by
  rw [jtagDr, h]
  exact if_neg hl

theorem jtagIr_eq_of_toNat {ir : JtagIr} {n : Nat} (h : ir.toNat = n) : ir = BitVec.ofNat 6 n := by
  rw [← h, BitVec.ofNat_toNat, BitVec.setWidth_eq]

/-- An instruction without a register of its own, and an access that R407 refuses, select BYPASS. -/
theorem jtagDr_bypass {s : State} (h : (s.sec.jtagIr = 0x10 ∧ debugAllowed s = false) ∨ (s.sec.jtagIr = 0x11 ∧ s.sec.loaded.life = 3) ∨
    s.sec.jtagIr ∉ ([0, 1, 2, 3, 4, 0x10, 0x11] : List JtagIr)) : jtagDr s = .bypass := by
  obtain ⟨hir, ha⟩ | ⟨hir, hl⟩ | hir := h
  · simp [jtagDr, hir, ha]
  · simp [jtagDr, hir, hl]
  · unfold jtagDr
    split
    case h_8 => rfl
    all_goals next hn => exact absurd (by rw [jtagIr_eq_of_toNat hn]; decide) hir

/-! ### DBGACC (R241, R409) -/

/-- The transaction that Update-DR of DBGACC starts. -/
def dbgaccTx (dr : BitVec 72) : Tx :=
  { addr := fld dr 0 32, write := bit dr 68, size := .word, id := 0, world := false, data := if bit dr 68 then [fld dr 32 36] else [] }

/-- A DBGACC access that waits for its port. -/
def dbgaccWaits (dr : BitVec 72) (s : State) : State :=
  { s with sec := { s.sec with jtagStatus := 3, dbgWait := some (dbgaccTx dr) } }

theorem updateDr_dbgacc {s : State} (dr : BitVec 72) (hir : s.sec.jtagIr = 0x10) (ha : debugAllowed s = true)
    (hst : s.sec.jtagStatus ≠ 3) : updateDr dr s = debugPresent (dbgaccWaits dr s) := by
  rw [updateDr, jtagDr_dbgacc hir ha]
  exact if_neg hst

theorem updateDr_busy {s : State} (dr : BitVec 72) (hst : s.sec.jtagStatus = 3)
    (h : (s.sec.jtagIr = 0x10 ∧ debugAllowed s = true) ∨ (s.sec.jtagIr = 0x11 ∧ s.sec.loaded.life ≠ 3)) : updateDr dr s = s := by
  obtain ⟨hir, ha⟩ | ⟨hir, hl⟩ := h
  · rw [updateDr, jtagDr_dbgacc hir ha]
    exact if_pos hst
  · rw [updateDr, jtagDr_secacc hir hl]
    exact if_pos hst

/-- The debug port reaches a word of the Reservoir (R236, R407). -/
theorem decodeTx_dbgacc (s : State) (dr : BitVec 72) (ha : debugAllowed s = true) (h4 : bitsN dr 0 32 % 4 = 0)
    (hlo : 0x10000000 ≤ bitsN dr 0 32) (hhi : bitsN dr 0 32 < 0x10400000) :
    decodeTx s 15 (dbgaccTx dr) = .inr (rvTarget ((bitsN dr 0 32 - 0x10000000) / 4)) := by
  have haddr : (dbgaccTx dr).addr.toNat = bitsN dr 0 32 := (bitsN_eq_fld dr 0 32).symm
  generalize hx : bitsN dr 0 32 = x at *
  have htarget : decodeTarget x = some (rvTarget ((x - 0x10000000) / 4), 0x10000000 + (x - 0x10000000) / 0x100000 * 0x100000,
      0x10100000 + (x - 0x10000000) / 0x100000 * 0x100000) := by
    have hp : (x - 0x10000000) / 4 / 262144 = (x - 0x10000000) / 0x100000 := by omega
    rw [decodeTarget, dif_neg (by omega), if_pos (by omega), rvTarget]
    simp only [hp]
  have hg := rvTarget_val ((x - 0x10000000) / 4) (by omega)
  have hlow : txLo (dbgaccTx dr) = x := haddr
  have hlen : txLen (dbgaccTx dr) = 4 := rfl
  have hcrp : inCrp x = false := by simp [inCrp]; omega
  rw [decodeTx, haddr, htarget]
  dsimp only
  rw [if_neg (by simp [permitted, ha, haddr, hcrp]; omega), if_neg (by omega), if_neg (by simp [sizeAccepted, dbgaccTx] at haddr ⊢; omega)]

theorem debugPresent_full {s : State} {t : Tx} (hw : s.sec.dbgWait = some t) (hcur : 32 ≤ s.wharf.cur.get 15) :
    debugPresent s = noteStall 15 s := by
  rw [debugPresent, hw]
  exact if_pos (by simpa [portFull] using hcur)

theorem debugPresent_place {s : State} {t : Tx} (hw : s.sec.dbgWait = some t) (hcur : s.wharf.cur.get 15 < 32) :
    debugPresent s = acceptTx 15 t 0 (xclk s + 1) { s with sec := { s.sec with dbgWait := none } } := by
  rw [debugPresent, hw]
  dsimp only
  rw [if_neg (by simpa [portFull] using hcur)]
  exact portAccept_presented _ 15 t (by decide) hcur

/-! ### SECACC (R409) -/

theorem updateDr_secacc {s : State} (dr : BitVec 72) (hir : s.sec.jtagIr = 0x11) (hl : s.sec.loaded.life ≠ 3)
    (hst : s.sec.jtagStatus ≠ 3) : updateDr dr s = secAccess (bitsN dr 0 32) (bit dr 68) (fld dr 32 36) s := by
  rw [updateDr, jtagDr_secacc hir hl]
  exact if_neg hst

theorem secRead_stat (s : State) : secRead s 1 = some (secStat s.sec) := rfl

theorem secRead_chal (s : State) (i : Fin 8) : secRead s (0x10 + i.val) = some (put36 0 (fld s.sec.chal (32 * i.val) 32)) := by
  have hi : 0x10 + i.val - 0x10 = i.val := by omega
  simp only [secRead, hi]
  rw [dif_neg (by omega), if_pos (by omega)]

theorem secWrite_resp (s : State) (i : Fin 24) (v : Word) :
    secWrite (0x20 + i.val) v s = some { s with sec := { s.sec with resp := vput s.sec.resp i (fld v 0 32) } } := by
  have hread : secRead s (0x20 + i.val) = some 0 := by
    rw [secRead, dif_neg (by omega), if_neg (by omega), if_pos (by omega)]
  have hput : vmodN s.sec.resp (0x20 + i.val - 0x20) (fun _ => fld v 0 32) = vput s.sec.resp i (fld v 0 32) := by
    rw [Nat.add_sub_cancel_left, vmodN, dif_pos i.isLt]
    exact vget_ext fun j => by by_cases h : j = i <;> simp [h, vmod_get_ne, vput_get_ne]
  rw [secWrite, hread, if_neg (by simp), dif_neg (by omega), if_pos (by omega), hput]

theorem secAccess_read {s : State} {off : Nat} {v w : Word} (hreach : secReach off = true) (hread : secRead s off = some w) :
    secAccess off false v s = { s with sec := { s.sec with jtagStatus := 0, jtagData := w } } := by
  simp [secAccess, hreach, hread]

theorem secAccess_write {s t : State} {off : Nat} {v : Word} (hreach : secReach off = true) (hwrite : secWrite off v s = some t) :
    secAccess off true v s = { t with sec := { t.sec with jtagStatus := 0 } } := by
  simp [secAccess, hreach, hwrite]

theorem secAccess_unreached {s : State} {off : Nat} {v : Word} {write : Bool} (hreach : secReach off = false) :
    secAccess off write v s = { s with sec := { s.sec with jtagStatus := 1 } } := by
  simp [secAccess, hreach]

theorem fld_fld {w : Nat} (x : BitVec w) (lo len m : Nat) (h : m ≤ len) : fld (fld x lo len) 0 m = fld x lo m := by
  refine BitVec.eq_of_getLsbD_eq fun i hi => ?_
  simp only [fld, BitVec.getLsbD_extractLsb', hi, decide_true, Bool.true_and, Nat.zero_add, show i < len by omega]

end Sys2Proof.Machine
end

section
/-! The commands of unlocking and JTAG (O54). -/

namespace Sys2Proof.Machine

/-! ### The arms of the obligation -/

section
variable {s : State} (dt : Nat) (hav : Available s)
include hav

theorem exec_newchal (r : BitVec 256) : exec (.newchal dt r) s = .next { s.elapse dt with
    sec := if s.sec.vbusy = none then { s.sec with chal := r, fresh := true } else s.sec } := by
  refine (act_next s dt _ hav.1 hav.2).trans (congrArg Host.Outcome.next ?_)
  rw [newChallenge, State.elapse_sec]
  cases s.sec.vbusy <;> rfl

theorem exec_verify (slot : Fin 4) : exec (.verify dt slot) s = .next { s.elapse dt with
    sec := if s.sec.vbusy = none then { s.sec with
      vbusy := some (slot, s.sec.fresh && !s.sec.lockout && bit s.sec.fuses.prog slot.val && bit s.sec.fuses.dbg slot.val &&
        !bit s.sec.fuses.rev slot.val)
      fresh := false } else s.sec } := by
  refine (act_next s dt _ hav.1 hav.2).trans (congrArg Host.Outcome.next ?_)
  simp only [startVerify, mayUnlock, State.elapse_sec, Bool.and_assoc]
  cases s.sec.vbusy <;> rfl

theorem exec_verifyComplete (key : List Byte) : exec (.verifyComplete dt key) s = .next (endVerify key (s.elapse dt)) :=
  act_next s dt _ hav.1 hav.2

theorem exec_drst_effect : ∃ t, exec (.drst dt) s = .next t ∧ t.sec = { s.sec with jtagStatus := 0, jtagData := 0, dbgWait := none } ∧
    t.kp = (s.elapse dt).kp ∧ SameMemory s t ∧ ∀ g, Undebugged (s.barges.get g) (t.barges.get g) := by
  obtain ⟨hsec, hkp, hbarges⟩ := debugReset_frame (s.elapse dt)
  have hmems := debugReset_mems (s.elapse dt)
  exact ⟨debugReset (s.elapse dt), act_next s dt _ hav.1 hav.2, hsec, hkp, sameMemory_of_mems hmems, hbarges⟩

theorem exec_jtagUpdateIr (ir : JtagIr) : exec (.jtagUpdateIr dt ir) s = .next (updateIr ir (s.elapse dt)) :=
  act_next s dt _ hav.1 hav.2

theorem exec_jtagUpdateDr (dr : BitVec 72) : exec (.jtagUpdateDr dt dr) s = .next (updateDr dr (s.elapse dt)) :=
  act_next s dt _ hav.1 hav.2

/-- DBGACC where port DEBUG has a place. -/
theorem dbgacc_accepted (dr : BitVec 72) (hst : s.sec.jtagStatus ≠ 3) (hir : s.sec.jtagIr = 0x10) (ha : debugAllowed s = true)
    (hcur : s.wharf.cur.get 15 < 32) (h4 : bitsN dr 0 32 % 4 = 0) (hlo : 0x10000000 ≤ bitsN dr 0 32)
    (hhi : bitsN dr 0 32 < 0x10400000) :
    ∃ t r, exec (.jtagUpdateDr dt dr) s = .next t ∧ t.sec = { s.sec with jtagStatus := 3, dbgWait := none } ∧
      t.wharf.reqs = s.wharf.reqs ++ [r] ∧ r.init = 15 ∧ r.tx = dbgaccTx dr ∧ SameMemory s t := by
  obtain ⟨w, -, hacc⟩ := acceptTx_of_decoded
    { dbgaccWaits dr (s.elapse dt) with sec := { s.sec with jtagStatus := 3, dbgWait := none } } 15 (dbgaccTx dr) 0
    (xclk (s.elapse dt) + 1) _ (decodeTx_dbgacc _ dr ha h4 hlo hhi)
  have hrun := (exec_jtagUpdateDr dt hav dr).trans (congrArg Host.Outcome.next
      ((updateDr_dbgacc (s := s.elapse dt) dr hir ha hst).trans
      ((debugPresent_place (s := dbgaccWaits dr (s.elapse dt)) rfl hcur).trans hacc)))
  exact ⟨_, _, hrun, rfl, rfl, rfl, rfl, sameMemory_of_mems rfl⟩

/-- DBGACC while it waits for a place. -/
theorem dbgacc_waits (dr : BitVec 72) (hst : s.sec.jtagStatus ≠ 3) (hir : s.sec.jtagIr = 0x10) (ha : debugAllowed s = true)
    (hcur : 32 ≤ s.wharf.cur.get 15) : ∃ t, exec (.jtagUpdateDr dt dr) s = .next t ∧
      t.sec = { s.sec with jtagStatus := 3, dbgWait := some (dbgaccTx dr) } ∧ t.wharf.reqs = s.wharf.reqs ∧ SameMemory s t :=
  ⟨noteStall 15 (dbgaccWaits dr (s.elapse dt)),
    (exec_jtagUpdateDr dt hav dr).trans (congrArg Host.Outcome.next ((updateDr_dbgacc (s := s.elapse dt) dr hir ha hst).trans
      (debugPresent_full (s := dbgaccWaits dr (s.elapse dt)) rfl hcur))),
    rfl, rfl, sameMemory_of_mems rfl⟩

end

section
variable {s : State} (dt : Nat) (hav : Available s)
include hav

/-- A verification that succeeds, in the terms of R408. -/
theorem verifyComplete_good {slot : Fin 4} {can : Bool} {key : List Byte} (hv : s.sec.vbusy = some (slot, can))
    (hgood : (can && responseVerifies s.sec slot (storedKey s slot key)) = true) :
    ∃ t, exec (.verifyComplete dt key) s = .next t ∧ Noted { s.elapse dt with sec := { s.sec with
      vbusy := none, keys := vput s.sec.keys slot (some (storedKey s slot key)), vok := true
      unlocked := s.sec.unlocked || !relockedNow (s.elapse dt) } } t :=
  ⟨_, (exec_verifyComplete dt hav key).trans (congrArg Host.Outcome.next (endVerify_good (s := s.elapse dt) hv hgood)), rfl⟩

theorem verifyComplete_bad {slot : Fin 4} {can : Bool} {key : List Byte} (hv : s.sec.vbusy = some (slot, can))
    (hbad : (can && responseVerifies s.sec slot (storedKey s slot key)) = false) :
    ∃ t, exec (.verifyComplete dt key) s = .next t ∧ Noted { s.elapse dt with sec := { s.sec with
      vbusy := none, keys := vput s.sec.keys slot (some (storedKey s slot key)), vfail := true
      failcnt := satInc s.sec.failcnt, lockout := s.sec.lockout || decide (2 ≤ s.sec.failcnt.toNat) } } t :=
  ⟨_, (exec_verifyComplete dt hav key).trans (congrArg Host.Outcome.next (endVerify_bad (s := s.elapse dt) hv hbad)), rfl⟩

theorem jtagUpdateDr_secacc (dr : BitVec 72) (hst : s.sec.jtagStatus ≠ 3) (hir : s.sec.jtagIr = 0x11) (hl : s.sec.loaded.life ≠ 3) :
    exec (.jtagUpdateDr dt dr) s = .next (secAccess (bitsN dr 0 32) (bit dr 68) (fld dr 32 36) (s.elapse dt)) :=
  (exec_jtagUpdateDr dt hav dr).trans (congrArg Host.Outcome.next (updateDr_secacc (s := s.elapse dt) dr hir hl hst))

end

theorem updateIr_extest {s : State} {ir : JtagIr} (h : ir ∈ ([0, 3, 4, 5, 6] : List JtagIr)) (hm : s.kp.mode = .starting) :
    updateIr ir s = { s with sec := { s.sec with jtagIr := ir }, kp := { s.kp with testHold := true } } := by
  rw [updateIr, if_pos ((inExtest_iff ir).2 h), if_pos hm]

theorem updateIr_extest_refused {s : State} {ir : JtagIr} (h : ir ∈ ([0, 3, 4, 5, 6] : List JtagIr)) (hm : s.kp.mode ≠ .starting) :
    updateIr ir s = { s with sec := { s.sec with jtagIr := 0x3F } } := by
  rw [updateIr, if_pos ((inExtest_iff ir).2 h), if_neg hm]

theorem updateIr_other {s : State} {ir : JtagIr} (h : ir ∉ ([0, 3, 4, 5, 6] : List JtagIr)) :
    updateIr ir s = { s with sec := { s.sec with jtagIr := ir } } := by
  rw [updateIr, if_neg (mt (inExtest_iff ir).1 h)]

/-- Settles O54: each command is the model's own update at the time reached, and the debug block's reset and port DEBUG keep what the
statement says they keep. -/
theorem unlockingAndJtagFollowTheLifecycle : Obligations.UnlockingAndJtagFollowTheLifecycle := by
  unfold Obligations.UnlockingAndJtagFollowTheLifecycle
  intro s dt hav u x only noted
  have hup (dr : BitVec 72) := exec_jtagUpdateDr dt hav dr
  refine ⟨exec_newchal dt hav, exec_verify dt hav, fun slot can key hv => ?_, fun hv key => ?_, act_next s dt _ hav.1 hav.2, ?_,
    jtagIdcode_bits s, fun ir hir => ⟨fun hm => ?_, fun hm => ?_⟩, fun ir hir => ?_, act_next s dt _ hav.1 hav.2,
    fun dr hst => ⟨fun hir ha hcur h4 hlo hhi => ?_, fun hir ha hcur => ?_, fun hir hl => ⟨fun hr hoff => ?_, fun i hr hoff => ?_,
      fun i hw hoff => ?_, fun hoff => ?_⟩⟩,
    fun dr => ⟨fun hst h => ?_, fun hir => ?_, fun hir => ?_, fun hir => ?_⟩⟩
  · intro message response stored y good
    have hgood : good = (can && responseVerifies x slot (storedKey s slot key)) := by
      rw [responseVerifies_eq, ← Bool.and_assoc]
      rfl
    refine ⟨fun hg hold => ?_, fun hg t ht hnow => ?_, fun hg => ?_⟩
    · have h := verifyComplete_good dt hav hv (hgood ▸ hg)
      have hrel : relockedNow (s.elapse dt) = false := Bool.eq_false_iff.2 fun h => by
        obtain ⟨t, ht, hnow⟩ := (relockedNow_iff _).1 h
        exact hold t ht hnow
      rwa [hrel, Bool.not_false, Bool.or_true] at h
    · have h := verifyComplete_good dt hav hv (hgood ▸ hg)
      rwa [(relockedNow_iff (s.elapse dt)).2 ⟨t, ht, hnow⟩, Bool.not_true, Bool.or_false] at h
    · exact verifyComplete_bad dt hav hv (hgood ▸ hg)
  · rw [exec_verifyComplete dt hav key, endVerify_idle (s := s.elapse dt) hv]
  · obtain ⟨t, ht, hsec, hkp, hmem, hbarges⟩ := exec_drst_effect dt hav
    exact ⟨t, ht, hsec, hkp, hmem, fun g => ⟨(hbarges g).module, (hbarges g).running⟩⟩
  · exact (exec_jtagUpdateIr dt hav ir).trans (congrArg Host.Outcome.next (updateIr_extest hir hm))
  · exact (exec_jtagUpdateIr dt hav ir).trans (congrArg Host.Outcome.next (updateIr_extest_refused hir hm))
  · exact (exec_jtagUpdateIr dt hav ir).trans (congrArg Host.Outcome.next (updateIr_other hir))
  · obtain ⟨t, r, ht, hsec, hreqs, hinit, htx, hmem⟩ := dbgacc_accepted dt hav dr hst hir ha hcur h4 hlo hhi
    exact ⟨t, r, ht, hsec, hreqs, hinit, by rw [htx]; rfl, by rw [htx]; rfl, by rw [htx]; rfl,
      fun hw => by rw [htx]; exact if_pos hw, hmem⟩
  · obtain ⟨t, ht, hsec, hreqs, hmem⟩ := dbgacc_waits dt hav dr hst hir ha hcur
    exact ⟨t, dbgaccTx dr, ht, hsec, rfl, rfl, hreqs, hmem⟩
  · rw [jtagUpdateDr_secacc dt hav dr hst hir hl, hr, hoff, secAccess_read rfl (secRead_stat _)]
    rfl
  · have hreach : secReach (0x10 + i.val) = true := by simp [secReach]; omega
    rw [jtagUpdateDr_secacc dt hav dr hst hir hl, hr, hoff, secAccess_read hreach (secRead_chal _ i)]
    rfl
  · have hreach : secReach (0x20 + i.val) = true := by simp [secReach]; omega
    rw [jtagUpdateDr_secacc dt hav dr hst hir hl, hw, hoff, secAccess_write hreach (secWrite_resp _ i _), fld_fld dr 32 36 32 (by decide)]
    rfl
  · rw [jtagUpdateDr_secacc dt hav dr hst hir hl, hoff, secAccess_unreached rfl]
    rfl
  · rw [hup, updateDr_busy (s := s.elapse dt) dr hst h]
  · rw [hup, updateDr, jtagDr_boundary (s := s.elapse dt) hir]
    rfl
  · rw [hup, updateDr, jtagDr_idcode (s := s.elapse dt) hir]
  · rw [hup, updateDr, jtagDr_bypass (s := s.elapse dt) hir]
    rfl

end Sys2Proof.Machine
end

section
/-! Bank accesses of a barge that nobody else competes for (R210, R216): what they read and what they leave (O7, O16). -/

namespace Sys2Proof.Machine

/-! ### Grants leave all but the arbitration (R216, R217) -/

/-- A bank whose arbitration alone has gone on. -/
structure ArbitratesAs (b c : Bank) : Prop where
  own : c.own = b.own
  ho : c.ho = b.ho
  scrubLast : c.scrubLast = b.scrubLast

theorem ArbitratesAs.refl (b : Bank) : ArbitratesAs b b := ⟨rfl, rfl, rfl⟩

theorem ArbitratesAs.trans {b c d : Bank} (h : ArbitratesAs b c) (k : ArbitratesAs c d) : ArbitratesAs b d :=
  ⟨k.own.trans h.own, k.ho.trans h.ho, k.scrubLast.trans h.scrubLast⟩

theorem Bank.inTurn_arbitrates (b : Bank) (c : Nat) : ArbitratesAs b (b.inTurn c) := by
  unfold Bank.inTurn
  split
  · split
    · exact .refl b
    · exact ⟨rfl, rfl, rfl⟩
  · exact .refl b

theorem Bank.ask_arbitrates (b : Bank) (c : Nat) (who : Fin 6) (rivals : List (Fin 6)) (wants : Fin 6 → Bool) :
    ArbitratesAs b (b.ask c who rivals wants).2 := by
  have h := b.inTurn_arbitrates c
  unfold Bank.ask
  extract_lets b1
  change ArbitratesAs b b1 at h
  clear_value b1
  split
  · split
    · exact h.trans ⟨rfl, rfl, rfl⟩
    · split
      · exact h
      · exact h.trans ⟨rfl, rfl, rfl⟩
  · exact h.trans ⟨rfl, rfl, rfl⟩

/-- From s to t barge g has made the accesses `new`, at banks of the list `at'`: the arbitration of those banks has gone on, and nothing
else has changed. -/
structure Fetched (g : BargeIx) (at' : List BankIx) (new : List DoneAccess) (s t : State) : Prop where
  state : t = { s with barges := t.barges, basins := t.basins }
  barges : t.barges = vmod s.barges g fun b => { b with done := b.done ++ new }
  others : ∀ m, m ≠ basinOf g → t.basins.get m = s.basins.get m
  basin : t.basins.get (basinOf g) = { s.basins.get (basinOf g) with banks := (t.basins.get (basinOf g)).banks }
  banks : ∀ k, ArbitratesAs ((s.basins.get (basinOf g)).banks.get k) ((t.basins.get (basinOf g)).banks.get k)
  untouched : ∀ k, k ∉ at' → (t.basins.get (basinOf g)).banks.get k = (s.basins.get (basinOf g)).banks.get k

section
variable {g : BargeIx} {at' : List BankIx} {new : List DoneAccess} {s t : State}

theorem Fetched.refl (g : BargeIx) (s : State) : Fetched g [] [] s s where
  state := rfl
  barges := (vmod_same _ _ _ (by simp)).symm
  others := fun _ _ => rfl
  basin := rfl
  banks := fun _ => .refl _
  untouched := fun _ _ => rfl

theorem Fetched.trans {at₂ : List BankIx} {new₂ : List DoneAccess} {u : State} (h : Fetched g at' new s t)
    (k : Fetched g at₂ new₂ t u) : Fetched g (at' ++ at₂) (new ++ new₂) s u where
  state := by rw [k.state, h.state]
  barges := by
    rw [k.barges, h.barges, vmod_vmod]
    simp [List.append_assoc]
  others := fun m hm => (k.others m hm).trans (h.others m hm)
  basin := by rw [k.basin, h.basin]
  banks := fun j => (h.banks j).trans (k.banks j)
  untouched := fun j hj => by
    obtain ⟨h1, h2⟩ := not_or.1 (mt List.mem_append.2 hj)
    rw [k.untouched j h2, h.untouched j h1]

theorem Fetched.barge (h : Fetched g at' new s t) :
    t.barges.get g = { s.barges.get g with done := (s.barges.get g).done ++ new } := by
  rw [h.barges, vmod_get_self]

theorem Fetched.other (h : Fetched g at' new s t) {k : BargeIx} (hk : k ≠ g) : t.barges.get k = s.barges.get k := by
  rw [h.barges, vmod_get_ne _ _ _ _ hk]

theorem Fetched.bclkCount (h : Fetched g at' new s t) (n : BasinIx) : bclkCount t n = bclkCount s n := by
  refine bclkCount_congr (by rw [h.state]) (by rw [h.state]) ?_ ?_ <;>
  · by_cases hn : n = basinOf g
    · rw [hn, h.basin]
    · rw [h.others n hn]

theorem Fetched.mem (h : Fetched g at' new s t) : (t.basins.get (basinOf g)).mem = (s.basins.get (basinOf g)).mem := by
  rw [h.basin]

theorem Fetched.portAMem (h : Fetched g at' new s t) : portAMem t (basinOf g) = portAMem s (basinOf g) := by
  rw [Machine.portAMem, Machine.portAMem, h.bclkCount, h.basin]
  rfl

theorem Fetched.inHandover (h : Fetched g at' new s t) (k : BankIx) :
    inHandover (t.basins.get (basinOf g)) k = inHandover (s.basins.get (basinOf g)) k := by
  rw [Machine.inHandover, Machine.inHandover, (h.banks k).ho]

theorem Fetched.mayPerform (h : Fetched g at' new s t) (r : WharfReq) :
    mayPerform t (basinOf g) r = mayPerform s (basinOf g) r := by
  have hcrp : t.crp = s.crp := by rw [h.state]
  rw [Machine.mayPerform, Machine.mayPerform, (h.banks _).ho, targetClocked, targetClocked, hcrp]

theorem Fetched.stillWants (h : Fetched g at' new s t) (k : BankIx) (who : Fin 6) :
    stillWants t (basinOf g) k who = stillWants s (basinOf g) k who := by
  have htport : (t.basins.get (basinOf g)).tport = (s.basins.get (basinOf g)).tport := by rw [h.basin]
  unfold Machine.stillWants
  split
  · next hw =>
    rw [h.barges, vmod_get]
    split <;> rfl
  · split
    · simp only [targetWaits, htport, h.mayPerform]
    · rw [(h.banks k).scrubLast, h.bclkCount]

theorem Fetched.bankQuiet (h : Fetched g at' new s t) {k : BankIx} (hk : k ∉ at') :
    bankQuiet t (basinOf g) k = bankQuiet s (basinOf g) k := by
  have hw : Machine.stillWants t (basinOf g) k = Machine.stillWants s (basinOf g) k := funext (h.stillWants k)
  rw [Machine.bankQuiet, Machine.bankQuiet, h.untouched k hk, h.bclkCount, hw]

end

/-! ### An access that nobody competes for -/

theorem askBank_of_free (s : State) (n : BasinIx) (b : BankIx) (who : Fin 6) (rivals : List Rival) (h : bankQuiet s n b = true)
    (hr : ∀ r ∈ rivals, r.bank ≠ b) : (askBank s n b who rivals).1 = true := by
  have hnone : (rivals.filter fun r => r.bank == b) = [] := List.filter_eq_nil_iff.2 fun r hm => by simp [hr r hm]
  have hq := askBank_of_quiet s n b who h
  simp only [askBank, hnone, List.filter_nil] at hq ⊢
  exact hq

/-- The grant alone, with what the barge records of its access. -/
theorem askBank_fetched (s : State) (g : BargeIx) (k : BankIx) (who : Fin 6) (rivals : List Rival) (d : DoneAccess) :
    Fetched g [k] [d] s ((askBank s (basinOf g) k who rivals).2.modBarge g fun b => { b with done := b.done ++ [d] }) where
  state := rfl
  barges := rfl
  others := fun m hm => by simp [askBank, State.modBank, vmod_get_ne _ _ _ _ hm]
  basin := by simp [askBank, State.modBank]
  banks := fun j => by
    simp only [askBank, State.modBank, State.modBarge_basins, State.modBasin_basins, vmod_get_self, vmod_get]
    split
    · next hj =>
      subst hj
      exact Bank.ask_arbitrates _ _ _ _ _
    · exact .refl _
  untouched := fun j hj => by
    have hne : j ≠ k := fun e => hj (by simp [e])
    simp [askBank, State.modBank, vmod_get_ne _ _ _ _ hne]

/-- An access as its barge records it, where no word of it is marked (R220). -/
def readDone (m : Mem) (x : Nat × Nat × Nat) : DoneAccess := { place := x.1, addr := x.2.1, raw := m.read x.2.1 x.2.2, ues := [] }

/-- A write access as its barge records it. -/
def writeDone (x : Nat × Nat × Nat) : DoneAccess := { place := x.1, addr := x.2.1, raw := 0, ues := [] }

theorem fetchAccess_free (s : State) (g : BargeIx) (src : Nat) (rivals : List Rival) (x : Nat × Nat × Nat)
    (hq : bankQuiet s (basinOf g) (bankOf x.2.1) = true) (hr : ∀ r ∈ rivals, r.bank ≠ bankOf x.2.1)
    (hm : ∀ w, (portAMem s (basinOf g)).mark w = none) :
    (fetchAccess g src rivals x s).1 = true ∧
      Fetched g [bankOf x.2.1] [readDone (portAMem s (basinOf g)) x] s (fetchAccess g src rivals x s).2 := by
  have hask := askBank_of_free s (basinOf g) _ (whoBarge (posOf g)) rivals hq hr
  have hues : (wordsOf x.2.1 x.2.2).filter (portAMem s (basinOf g)).isUe = [] :=
    List.filter_eq_nil_iff.2 fun w _ => by simp [Mem.isUe_of_unmarked (hm w)]
  rw [fetchAccess]
  dsimp only
  rw [if_neg (by simp [hask]), hues, noteErrorsIn_of_unmarked _ _ _ _ _ fun w _ => hm w]
  exact ⟨rfl, askBank_fetched s g _ _ rivals _⟩

/-! ### All accesses of a list -/

/-- The accesses of a list that a barge has still to make. -/
def Barge.toMake (b : Barge) (xs : List (Nat × Nat × Nat)) : List (Nat × Nat × Nat) := xs.filter fun x => !b.hasDone x

/-- The banks of accesses. -/
def banksOf (xs : List (Nat × Nat × Nat)) : List BankIx := xs.map fun x => bankOf x.2.1

/-- What has been made at one bank makes none of the accesses at others. -/
theorem toMake_done (b : Barge) (xs : List (Nat × Nat × Nat)) (new : List DoneAccess)
    (h : ∀ d ∈ new, ∀ x ∈ b.toMake xs, d.addr ≠ x.2.1) : ({ b with done := b.done ++ new } : Barge).toMake xs = b.toMake xs := by
  refine List.filter_congr fun x hx => ?_
  by_cases hd : b.hasDone x = true
  · have hd' : ({ b with done := b.done ++ new } : Barge).hasDone x = true := by
      unfold Barge.hasDone at hd ⊢
      rw [List.any_append, hd, Bool.true_or]
    rw [hd, hd']
  · have hm : x ∈ b.toMake xs := List.mem_filter.2 ⟨hx, by simp [hd]⟩
    have hnew : (new.any fun d => d.place == x.1 && d.addr == x.2.1) = false :=
      List.any_eq_false.2 fun d hdn => by simp [h d hdn x hm]
    have hd' : ({ b with done := b.done ++ new } : Barge).hasDone x = b.hasDone x := by
      unfold Barge.hasDone
      rw [List.any_append, hnew, Bool.or_false]
    rw [hd']

theorem toMake_cons_done (b : Barge) (x : Nat × Nat × Nat) (xs : List (Nat × Nat × Nat)) (h : b.hasDone x = true) :
    b.toMake (x :: xs) = b.toMake xs := by simp [Barge.toMake, h]

theorem toMake_cons (b : Barge) (x : Nat × Nat × Nat) (xs : List (Nat × Nat × Nat)) (h : b.hasDone x = false) :
    b.toMake (x :: xs) = x :: b.toMake xs := by simp [Barge.toMake, h]

/-- The condition under which a barge makes its accesses at once: the banks are quiet, no rival names them, each is asked once. -/
structure Grantable (g : BargeIx) (rivals : List Rival) (xs : List (Nat × Nat × Nat)) (s : State) : Prop where
  quiet : ∀ k ∈ banksOf ((s.barges.get g).toMake xs), bankQuiet s (basinOf g) k = true
  alone : ∀ k ∈ banksOf ((s.barges.get g).toMake xs), ∀ r ∈ rivals, r.bank ≠ k
  once : (banksOf ((s.barges.get g).toMake xs)).Nodup

/-- After the first access has been made the others still may be. -/
theorem Grantable.rest {g : BargeIx} {rivals : List Rival} {x : Nat × Nat × Nat} {xs : List (Nat × Nat × Nat)} {s t : State}
    {d : DoneAccess} (h : Grantable g rivals (x :: xs) s) (hx : (s.barges.get g).hasDone x = false) (hd : d.addr = x.2.1)
    (ht : Fetched g [bankOf x.2.1] [d] s t) :
    (t.barges.get g).toMake xs = (s.barges.get g).toMake xs ∧ Grantable g rivals xs t := by
  obtain ⟨hquiet, halone, honce⟩ := h
  rw [toMake_cons _ _ _ hx, banksOf, List.map_cons] at hquiet halone honce
  obtain ⟨hnew, honce⟩ := List.nodup_cons.1 honce
  have hsame : (t.barges.get g).toMake xs = (s.barges.get g).toMake xs := by
    rw [ht.barge]
    refine toMake_done _ _ _ fun d' hd' y hy e => hnew ?_
    rw [List.mem_singleton.1 hd', hd] at e
    exact List.mem_map.2 ⟨y, hy, by rw [e]⟩
  refine ⟨hsame, ⟨fun k hk => ?_, fun k hk => ?_, ?_⟩⟩
  · rw [hsame] at hk
    rw [ht.bankQuiet (k := k) (by rintro hm; rw [List.mem_singleton.1 hm] at hk; exact hnew hk)]
    exact hquiet k (List.mem_cons_of_mem _ hk)
  · rw [hsame] at hk
    exact halone k (List.mem_cons_of_mem _ hk)
  · rw [hsame]
    exact honce

/-- All reads of a list are made. -/
theorem fetchAll_free (g : BargeIx) (src : Nat → Nat) (rivals : List Rival) (xs : List (Nat × Nat × Nat)) :
    ∀ s : State, Grantable g rivals xs s → (∀ w, (portAMem s (basinOf g)).mark w = none) →
      (fetchAll g src rivals xs s).1 = true ∧
        Fetched g (banksOf ((s.barges.get g).toMake xs)) (((s.barges.get g).toMake xs).map (readDone (portAMem s (basinOf g)))) s
          (fetchAll g src rivals xs s).2 := by
  induction xs with
  | nil => exact fun s _ _ => ⟨rfl, .refl g s⟩
  | cons x xs ih =>
    intro s h hm
    cases hx : (s.barges.get g).hasDone x with
    | true =>
      have h' : Grantable g rivals xs s := by
        obtain ⟨hquiet, halone, honce⟩ := h
        rw [toMake_cons_done _ _ _ hx] at hquiet halone honce
        exact ⟨hquiet, halone, honce⟩
      rw [toMake_cons_done _ _ _ hx, fetchAll, if_pos hx]
      exact ih s h' hm
    | false =>
      have hhead : bankOf x.2.1 ∈ banksOf ((s.barges.get g).toMake (x :: xs)) := by
        rw [toMake_cons _ _ _ hx]
        exact List.mem_cons_self
      obtain ⟨hgrant, hfetch⟩ := fetchAccess_free s g (src x.1) rivals x (h.quiet _ hhead) (h.alone _ hhead) hm
      obtain ⟨hsame, hrest⟩ := h.rest hx rfl hfetch
      obtain ⟨hall, hfetches⟩ := ih _ hrest (by rw [hfetch.portAMem]; exact hm)
      rw [hsame, hfetch.portAMem] at hfetches
      rw [toMake_cons _ _ _ hx, fetchAll, if_neg (by simp [hx])]
      exact ⟨by simp [hgrant, hall], hfetch.trans hfetches⟩

/-- All write accesses of an RPT element are granted. -/
theorem rptAskWrites_free (g : BargeIx) (rivals : List Rival) (xs : List (Nat × Nat × Nat)) :
    ∀ s : State, Grantable g rivals xs s → (rptAskWrites g rivals xs s).1 = true ∧
      Fetched g (banksOf ((s.barges.get g).toMake xs)) (((s.barges.get g).toMake xs).map writeDone) s (rptAskWrites g rivals xs s).2 := by
  induction xs with
  | nil => exact fun s _ => ⟨rfl, .refl g s⟩
  | cons x xs ih =>
    intro s h
    cases hx : (s.barges.get g).hasDone x with
    | true =>
      have h' : Grantable g rivals xs s := by
        obtain ⟨hquiet, halone, honce⟩ := h
        rw [toMake_cons_done _ _ _ hx] at hquiet halone honce
        exact ⟨hquiet, halone, honce⟩
      rw [toMake_cons_done _ _ _ hx, rptAskWrites, if_pos hx]
      exact ih s h'
    | false =>
      have hhead : bankOf x.2.1 ∈ banksOf ((s.barges.get g).toMake (x :: xs)) := by
        rw [toMake_cons _ _ _ hx]
        exact List.mem_cons_self
      have hgrant := askBank_of_free s (basinOf g) _ (whoBarge (posOf g)) rivals (h.quiet _ hhead) (h.alone _ hhead)
      have hfetch := askBank_fetched s g (bankOf x.2.1) (whoBarge (posOf g)) rivals (writeDone x)
      obtain ⟨hsame, hrest⟩ := h.rest hx rfl hfetch
      obtain ⟨hall, hfetches⟩ := ih _ hrest
      rw [hsame] at hfetches
      rw [toMake_cons _ _ _ hx, rptAskWrites, if_neg (by simp [hx])]
      dsimp only
      rw [if_pos hgrant, hgrant, Bool.true_and]
      exact ⟨hall, hfetch.trans hfetches⟩

end Sys2Proof.Machine
end

section
/-! An element of a block operation, its accesses granted (R77 to R79) (O7). -/

namespace Sys2Proof.Machine

/-! ### The element's accesses, made -/

theorem Mem.read_add (m : Mem) (k j : Nat) : ∀ a, m.read a (k + j) = m.read a k + 512 ^ k * m.read (a + k) j := by
  induction k with
  | zero => simp [Mem.read]
  | succ k ih =>
    intro a
    rw [Nat.add_right_comm, Mem.read, ih, Mem.read, Nat.add_right_comm a 1 k, ← Nat.add_assoc a k 1]
    ring

theorem mem_rowAccesses {p a n : Nat} {y : Nat × Nat × Nat} : y ∈ rowAccesses p a n ↔
    y = (p, a, min n (32 - a % 32)) ∨
      min n (32 - a % 32) < n ∧ y = (p + 1, a + min n (32 - a % 32), n - min n (32 - a % 32)) := by
  unfold rowAccesses
  dsimp only
  split <;> simp [*]

/-- What a barge has made of a list of accesses reads as the memory stands. -/
def Barge.Made (b : Barge) (m : Mem) (xs : List (Nat × Nat × Nat)) : Prop :=
  ∀ d ∈ b.done, d.ues = [] ∧ ∃ y ∈ xs, d.place = y.1 ∧ d.addr = y.2.1 ∧ (y.1 < 4 → d.raw = m.read y.2.1 y.2.2)

theorem readOf_made {b : Barge} {m : Mem} {xs : List (Nat × Nat × Nat)} (hmade : b.Made m xs) {y : Nat × Nat × Nat}
    (hdone : b.hasDone y = true) (honly : ∀ z ∈ xs, z.1 = y.1 → z = y) (hy : y.1 < 4) : (b.readOf y.1).1 = m.read y.2.1 y.2.2 := by
  unfold Barge.readOf
  cases hf : b.done.find? fun d => d.place == y.1 with
  | none =>
    obtain ⟨d, hd, hp⟩ := List.any_eq_true.1 hdone
    rw [Bool.and_eq_true] at hp
    exact absurd hp.1 (List.find?_eq_none.1 hf d hd)
  | some d =>
    obtain ⟨-, z, hz, hplace, -, hraw⟩ := hmade d (List.mem_of_find?_eq_some hf)
    have hzy : z = y := honly z hz (by rw [← hplace]; simpa using List.find?_some hf)
    subst hzy
    exact hraw hy

theorem readOf_absent {b : Barge} {m : Mem} {xs : List (Nat × Nat × Nat)} (hmade : b.Made m xs) {p : Nat}
    (hp : ∀ z ∈ xs, z.1 ≠ p) : (b.readOf p).1 = 0 := by
  have hf : (b.done.find? fun d => d.place == p) = none := List.find?_eq_none.2 fun d hd => by
    obtain ⟨-, z, hz, hplace, -⟩ := hmade d hd
    simpa [hplace] using hp z hz
  rw [Barge.readOf, hf]
  rfl

/-- An element's read over one row or two. -/
theorem rptRead_made {b : Barge} {m : Mem} {xs : List (Nat × Nat × Nat)} (hmade : b.Made m xs) (hall : ∀ y ∈ xs, b.hasDone y = true)
    {p a n : Nat} (hsub : ∀ y ∈ rowAccesses p a n, y ∈ xs) (honly : ∀ y ∈ xs, y.1 = p ∨ y.1 = p + 1 → y ∈ rowAccesses p a n)
    (hp : p + 1 < 4) : rptRead b p a n = m.read a n := by
  have hfirst := mem_rowAccesses (p := p) (a := a) (n := n) |>.2 (.inl rfl)
  have h1 := readOf_made hmade (y := (p, a, min n (32 - a % 32))) (hall _ (hsub _ hfirst)) (fun z hz hzp => by
    obtain rfl | ⟨-, rfl⟩ := mem_rowAccesses.1 (honly z hz (.inl hzp))
    · rfl
    · exact absurd hzp (by simp)) (by simp only; omega)
  simp only at h1
  rw [rptRead, h1]
  by_cases hk : min n (32 - a % 32) < n
  · have hsecond := mem_rowAccesses (p := p) (a := a) (n := n) |>.2 (.inr ⟨hk, rfl⟩)
    have h2 := readOf_made hmade (y := (p + 1, a + min n (32 - a % 32), n - min n (32 - a % 32))) (hall _ (hsub _ hsecond))
      (fun z hz hzp => by
        obtain rfl | ⟨-, rfl⟩ := mem_rowAccesses.1 (honly z hz (.inr hzp))
        · exact absurd hzp (by simp)
        · rfl) hp
    simp only at h2
    rw [h2, ← Mem.read_add, Nat.add_sub_cancel' hk.le]
  · have h2 := readOf_absent hmade (p := p + 1) fun z hz hzp => by
      obtain rfl | ⟨hlt, -⟩ := mem_rowAccesses.1 (honly z hz (.inr hzp))
      · exact absurd hzp (by simp)
      · exact hk hlt
    have hn : min n (32 - a % 32) = n := by omega
    rw [h2, hn, Nat.mul_zero, Nat.add_zero]

theorem rptAccesses_copy (u : Units) (n : Nat) :
    rptAccesses u 0 n = rowAccesses 0 u.rs.toInt.toNat n ++ rowAccesses 4 u.rd.toInt.toNat n := by
  simp [rptAccesses, rptReads, rptWrites]

theorem rptAccesses_compare (u : Units) (n : Nat) :
    rptAccesses u 2 n = rowAccesses 0 u.rs.toInt.toNat n ++ rowAccesses 2 u.rd.toInt.toNat n := by
  simp [rptAccesses, rptReads, rptWrites]

theorem rptAccesses_scan (u : Units) (n : Nat) : rptAccesses u 3 n = rowAccesses 0 u.rs.toInt.toNat n := by
  simp [rptAccesses, rptReads, rptWrites]

theorem rptAccesses_sum (u : Units) (n : Nat) : rptAccesses u 4 n = rowAccesses 0 u.rs.toInt.toNat n := by
  simp [rptAccesses, rptReads, rptWrites]

theorem rowAccesses_place {p a n : Nat} {y : Nat × Nat × Nat} (h : y ∈ rowAccesses p a n) : y.1 = p ∨ y.1 = p + 1 := by
  obtain rfl | ⟨-, rfl⟩ := mem_rowAccesses.1 h
  · exact .inl rfl
  · exact .inr rfl

/-- What the element's source reads, but of a fill, which reads none. -/
theorem rptRead_source {b : Barge} {m : Mem} {u : Units} {op n : Nat} (hop : op ≤ 4) (h1 : op ≠ 1)
    (hmade : b.Made m (rptAccesses u op n)) (hall : ∀ y ∈ rptAccesses u op n, b.hasDone y = true) :
    rptRead b 0 u.rs.toInt.toNat n = m.read u.rs.toInt.toNat n := by
  refine rptRead_made hmade hall (fun y hy => ?_) (fun y hy hp => ?_) (by decide)
  · match op, hop, h1 with
    | 0, _, _ => rw [rptAccesses_copy]; exact List.mem_append_left _ hy
    | 2, _, _ => rw [rptAccesses_compare]; exact List.mem_append_left _ hy
    | 3, _, _ => rw [rptAccesses_scan]; exact hy
    | 4, _, _ => rw [rptAccesses_sum]; exact hy
  · match op, hop, h1 with
    | 0, _, _ =>
      rw [rptAccesses_copy] at hy
      refine (List.mem_append.1 hy).resolve_right fun h => ?_
      have := rowAccesses_place h
      omega
    | 2, _, _ =>
      rw [rptAccesses_compare] at hy
      refine (List.mem_append.1 hy).resolve_right fun h => ?_
      have := rowAccesses_place h
      omega
    | 3, _, _ => rwa [rptAccesses_scan] at hy
    | 4, _, _ => rwa [rptAccesses_sum] at hy

/-- What a compare reads at its other address. -/
theorem rptRead_compared {b : Barge} {m : Mem} {u : Units} {n : Nat} (hmade : b.Made m (rptAccesses u 2 n))
    (hall : ∀ y ∈ rptAccesses u 2 n, b.hasDone y = true) : rptRead b 2 u.rd.toInt.toNat n = m.read u.rd.toInt.toNat n := by
  rw [rptAccesses_compare] at hmade hall
  refine rptRead_made hmade hall (fun y hy => List.mem_append_right _ hy) (fun y hy hp => ?_) (by decide)
  refine (List.mem_append.1 hy).resolve_left fun h => ?_
  have := rowAccesses_place h
  omega

/-! ### Addresses that the range check admits (R62) -/

theorem accessFault_head {x : Basin} {pos : Fin 4} {world sup : Bool} {p : Part} {ps : List Part}
    (h : accessFault x pos world sup (p :: ps) = none) : 0 ≤ p.addr ∧ accessFault x pos world sup ps = none := by
  rw [accessFault] at h
  split at h
  · cases h
  · next hin =>
    split at h
    · cases h
    · rw [Bool.not_eq_true', Bool.not_eq_false] at hin
      exact ⟨(of_decide_eq_true hin).1, h⟩

theorem rptFault_nonneg {x : Basin} {b : Barge} {p : Fin 4} {n : Nat} :
    ∀ {as : List Int}, rptFault x b p n as = none → ∀ a ∈ as, 0 ≤ a := by
  intro as
  induction as with
  | nil => nofun
  | cons a as ih =>
    intro h c hc
    rw [rptFault] at h
    split at h
    · cases h
    · next hacc =>
      have ha : 0 ≤ a := by
        unfold partsOf at hacc
        dsimp only at hacc
        split at hacc <;> exact (accessFault_head hacc).1
      obtain rfl | hc := List.mem_cons.1 hc
      · exact ha
      · exact ih h c hc

theorem toInt_toNat_of_nonneg {w : Nat} (x : BitVec w) (h : 0 ≤ x.toInt) : x.toInt.toNat = x.toNat := by
  have := BitVec.toInt_eq_toNat_cond x
  have hx := x.isLt
  split at this <;> omega

end Sys2Proof.Machine
end

section
/-! An element of a block operation begins, and its accesses are made (R79, R80) (O7). -/

namespace Sys2Proof.Machine

/-! ### The element begins (R79, R80) -/

/-- A running block operation to whose next element nothing comes before (R79, R80). -/
structure RptRuns (s : State) (g : BargeIx) (r : RptRun) : Prop where
  runs : bargeRuns s g = true
  rpt : (s.barges.get g).rpt = some r
  halted : (s.barges.get g).dbg.halted = false
  haltReq : (s.barges.get g).dbg.haltReq = none
  stores : (s.barges.get g).stores = []
  trapDue : (s.barges.get g).trapDue = none
  second : (s.barges.get g).second = none
  flights : (s.barges.get g).flights = []
  interrupts : NoInterrupts s g
  due : max r.next (s.barges.get g).issueFrom ≤ bclkCount s (basinOf g)

/-- The element itself, of a barge at the boundary where it may be processed. -/
def rptWork (g : BargeIx) (rivals : List Rival) (r : RptRun) (s : State) : State :=
  let b := s.barges.get g
  let x := s.basins.get (basinOf g)
  let op := bitsN b.u.rmode 3 3
  let n := rptSize b.u
  let as := rptReads b.u op ++ rptWrites b.u op
  if b.u.rc = 0 then s.modBarge g (rptComplete (bclkCount s (basinOf g)))
  else match rptFault x b (posOf g) n as with
    | some f => if entryWaits s g then s else takeFault g (pswW b.psw) f.1 f.2 b.pc b.irun s
    | none =>
      let all := rptAccesses b.u op n
      if all.any fun y => inHandover x (bankOf y.2.1) then s
      else
        let q := fetchAll g (fun _ => srcRpt) rivals (all.filter fun y => y.1 < 4) s
        let w := rptAskWrites g rivals (all.filter fun y => 4 ≤ y.1) q.2
        if q.1 ∧ w.1 then rptProcess g r w.2 else w.2

theorem rptElement_runs {s : State} {g : BargeIx} {r : RptRun} (h : RptRuns s g r) (rivals : List Rival) :
    rptElement g rivals s = rptWork g rivals r s := by
  obtain ⟨hruns, hrpt, hhalted, hreq, hstores, htrap, hsecond, hflights, hint, hdue⟩ := h
  have hgo : ¬ (!bargeRuns s g ∨ (s.barges.get g).dbg.halted = true ∨
      (((s.barges.get g).gate.isNone && (s.barges.get g).done.isEmpty) = true ∧ (s.barges.get g).dbg.haltReq.isSome) ∨
      !(s.barges.get g).stores.isEmpty ∨ (s.barges.get g).trapDue.isSome ∨
      bclkCount s (basinOf g) < max r.next (s.barges.get g).issueFrom) := by
    rintro (h | h | ⟨-, h⟩ | h | h | h)
    · simp [hruns] at h
    · simp [hhalted] at h
    · simp [hreq] at h
    · simp [hstores] at h
    · simp [htrap] at h
    · omega
  unfold rptElement
  simp only [hrpt]
  rw [if_neg hgo, afterLoad_whole _ _ _ _ hsecond]
  have hd : (if ((s.barges.get g).gate.isNone && (s.barges.get g).done.isEmpty) = true then boundary g false s else (s, true)) =
      (s, true) := by
    rw [boundary_landed g false s hflights, ite_self]
  simp only [hd, interruptDue_disabled s g hint]
  rw [if_neg (by simp), if_neg (by simp)]
  rfl

theorem rptWork_ended {s : State} {g : BargeIx} (rivals : List Rival) (r : RptRun) (h : (s.barges.get g).u.rc = 0) :
    rptWork g rivals r s = s.modBarge g (rptComplete (bclkCount s (basinOf g))) := by
  rw [rptWork]
  exact if_pos h

/-- The element's checks pass, and its accesses are admitted, clean and granted (R78, R79, R81). -/
structure RptGranted (s : State) (g : BargeIx) (all : List (Nat × Nat × Nat)) : Prop where
  going : (s.barges.get g).u.rc ≠ 0
  checked : rptFault (s.basins.get (basinOf g)) (s.barges.get g) (posOf g) (rptSize (s.barges.get g).u)
    (rptReads (s.barges.get g).u (bitsN (s.barges.get g).u.rmode 3 3) ++
      rptWrites (s.barges.get g).u (bitsN (s.barges.get g).u.rmode 3 3)) = none
  accesses : all = rptAccesses (s.barges.get g).u (bitsN (s.barges.get g).u.rmode 3 3) (rptSize (s.barges.get g).u)
  settled : ∀ y ∈ all, inHandover (s.basins.get (basinOf g)) (bankOf y.2.1) = false
  made : (s.barges.get g).Made (s.basins.get (basinOf g)).mem all
  once : (banksOf ((s.barges.get g).toMake all)).Nodup
  free : PortsFree s (basinOf g)
  clean : ∀ w, (s.basins.get (basinOf g)).mem.mark w = none

/-- From s to t barge g has made all accesses of the element. -/
structure RptFetched (s : State) (g : BargeIx) (all : List (Nat × Nat × Nat)) (t : State) : Prop where
  fetched : ∃ banks new, Fetched g banks new s t
  made : (t.barges.get g).Made (s.basins.get (basinOf g)).mem all
  complete : ∀ y ∈ all, (t.barges.get g).hasDone y = true

theorem toMake_filter (b : Barge) (p : Nat × Nat × Nat → Bool) (xs : List (Nat × Nat × Nat)) :
    b.toMake (xs.filter p) = (b.toMake xs).filter p := by
  rw [Barge.toMake, Barge.toMake, List.filter_filter, List.filter_filter]
  exact List.filter_congr fun x _ => Bool.and_comm _ _

theorem Barge.hasDone_of_mem {b : Barge} {d : DoneAccess} {y : Nat × Nat × Nat} (hd : d ∈ b.done) (hp : d.place = y.1)
    (ha : d.addr = y.2.1) : b.hasDone y = true :=
  List.any_eq_true.2 ⟨d, hd, by simp [hp, ha]⟩

/-- Reads and writes not yet made, once made, complete the element's accesses. -/
theorem Fetched.rptFetched {s t : State} {g : BargeIx} {all : List (Nat × Nat × Nat)} {banks : List BankIx}
    (h : Fetched g banks (((s.barges.get g).toMake (all.filter fun y => y.1 < 4)).map (readDone (s.basins.get (basinOf g)).mem) ++
      ((s.barges.get g).toMake (all.filter fun y => 4 ≤ y.1)).map writeDone) s t)
    (hmade : (s.barges.get g).Made (s.basins.get (basinOf g)).mem all) : RptFetched s g all t := by
  refine ⟨⟨_, _, h⟩, fun d hd => ?_, fun y hy => ?_⟩
  · rw [h.barge, List.mem_append, List.mem_append] at hd
    obtain hd | hd | hd := hd
    · exact hmade d hd
    · obtain ⟨y, hy, rfl⟩ := List.mem_map.1 hd
      rw [toMake_filter, List.mem_filter] at hy
      exact ⟨rfl, y, (List.mem_filter.1 hy.1).1, rfl, rfl, fun _ => rfl⟩
    · obtain ⟨y, hy, rfl⟩ := List.mem_map.1 hd
      rw [toMake_filter, List.mem_filter, decide_eq_true_iff] at hy
      exact ⟨rfl, y, (List.mem_filter.1 hy.1).1, rfl, rfl, fun h => absurd h (by omega)⟩
  · rw [h.barge]
    cases hd : (s.barges.get g).hasDone y with
    | true =>
      unfold Barge.hasDone at hd ⊢
      rw [List.any_append, hd, Bool.true_or]
    | false =>
      have hm : y ∈ (s.barges.get g).toMake all := List.mem_filter.2 ⟨hy, by simp [hd]⟩
      by_cases hp : y.1 < 4
      · refine Barge.hasDone_of_mem (d := readDone (s.basins.get (basinOf g)).mem y)
          (List.mem_append_right _ (List.mem_append_left _ (List.mem_map_of_mem ?_))) rfl rfl
        rw [toMake_filter]
        exact List.mem_filter.2 ⟨hm, by simpa using hp⟩
      · refine Barge.hasDone_of_mem (d := writeDone y)
          (List.mem_append_right _ (List.mem_append_right _ (List.mem_map_of_mem ?_))) rfl rfl
        rw [toMake_filter]
        exact List.mem_filter.2 ⟨hm, by simpa using hp⟩

theorem rptWork_granted {s : State} {g : BargeIx} {all : List (Nat × Nat × Nat)} (h : RptGranted s g all) (r : RptRun) :
    ∃ t, rptWork g [] r s = rptProcess g r t ∧ RptFetched s g all t := by
  obtain ⟨hrc, hcheck, hacc, hho, hmade, honce, hfree, hclean⟩ := h
  have hA := portAMem_of_free s (basinOf g) hfree.2
  have hreads : Grantable g [] (all.filter fun y => y.1 < 4) s := by
    refine ⟨fun k _ => hfree.1 k, fun _ _ => nofun, ?_⟩
    rw [toMake_filter]
    exact honce.sublist (List.filter_sublist.map _)
  obtain ⟨hread, hfetch⟩ := fetchAll_free g (fun _ => srcRpt) [] _ s hreads (by rw [hA]; exact hclean)
  generalize hs1 : (fetchAll g (fun _ => srcRpt) [] (all.filter fun y => y.1 < 4) s).2 = s1 at hfetch
  have hdisj : ∀ x ∈ (s.barges.get g).toMake (all.filter fun y => y.1 < 4),
      ∀ y ∈ (s.barges.get g).toMake (all.filter fun y => 4 ≤ y.1), bankOf x.2.1 ≠ bankOf y.2.1 := by
    intro x hx y hy e
    rw [toMake_filter, List.mem_filter, decide_eq_true_iff] at hx hy
    have hxy := List.inj_on_of_nodup_map honce hx.1 hy.1 e
    rw [hxy] at hx
    omega
  have hsame : (s1.barges.get g).toMake (all.filter fun y => 4 ≤ y.1) = (s.barges.get g).toMake (all.filter fun y => 4 ≤ y.1) := by
    rw [hfetch.barge]
    refine toMake_done _ _ _ fun d hd y hy e => ?_
    obtain ⟨x, hx, rfl⟩ := List.mem_map.1 hd
    exact hdisj x hx y hy (congrArg bankOf e)
  have hwrites : Grantable g [] (all.filter fun y => 4 ≤ y.1) s1 := by
    refine ⟨fun k hk => ?_, fun _ _ => nofun, ?_⟩
    · rw [hsame] at hk
      obtain ⟨y, hy, rfl⟩ := List.mem_map.1 hk
      rw [hfetch.bankQuiet]
      · exact hfree.1 _
      · intro hm
        obtain ⟨x, hx, e⟩ := List.mem_map.1 hm
        exact hdisj x hx y hy e
    · rw [hsame, toMake_filter]
      exact honce.sublist (List.filter_sublist.map _)
  obtain ⟨hask, hgrant⟩ := rptAskWrites_free g [] _ s1 hwrites
  rw [hsame] at hgrant
  refine ⟨(rptAskWrites g [] (all.filter fun y => 4 ≤ y.1) s1).2, ?_, ?_⟩
  · rw [rptWork]
    dsimp only
    rw [if_neg hrc, hcheck, ← hacc]
    dsimp only
    rw [if_neg (by simpa using hho), hs1, if_pos ⟨hread, hask⟩]
  · have hall := hfetch.trans hgrant
    rw [hA] at hall
    exact hall.rptFetched hmade

end Sys2Proof.Machine
end

section
/-! The end of a block operation and the effect of each of its elements (R78) (O7). -/

namespace Sys2Proof.Machine

/-! ### The end of a block operation and its next element (R78, R79) -/

theorem bit_pswPut_same (i : Nat) (hi : i < 36) (v : Bool) (p : Word) : bit (pswPut i v p) i = v := by
  have hm : (mask36 i 1).getLsbD i = true := by
    rw [mask36, BitVec.getLsbD_ofNat]
    simp [hi]
  have hb : (bit36 i v).getLsbD i = v := by
    cases v with
    | false => simp [bit36]
    | true =>
      show (BitVec.ofNat 36 (2 ^ i)).getLsbD i = true
      rw [BitVec.getLsbD_ofNat]
      simp [hi]
  simp only [bit, pswPut, mergeBits, BitVec.getLsbD_or, BitVec.getLsbD_and, BitVec.getLsbD_not, hi, decide_true, hm, hb]
  simp

/-- RUN is cleared and RPT.r delivered (R78). -/
def RptEnded (op : Nat) (c : Barge) : Prop :=
  bit c.u.rmode 2 = false ∧ c.u.rptr = (if op ≤ 1 then 0 else if op = 4 then c.u.rd else c.u.rc)

theorem rptValue_eq (u : Units) (op : Nat) : rptValue u op = if op ≤ 1 then 0 else if op = 4 then u.rd else u.rc := by
  match op with
  | 0 | 1 | 2 | 3 | 4 => rfl
  | op + 5 => simp [rptValue]

theorem rptComplete_ended (clk : Nat) {b : Barge} {op : Nat} (hop : bitsN b.u.rmode 3 3 = op) : RptEnded op (rptComplete clk b) := by
  subst hop
  exact ⟨bit_pswPut_same 2 (by decide) false _, rptValue_eq _ _⟩

/-- A barge after an element of its operation, which goes on while RC is not 0. -/
def Barge.rptGoOn (b : Barge) (r : RptRun) (clk op n : Nat) : Barge :=
  { b with
    done := [], rpt := some { r with next := clk + 1 }, dbg := { b.dbg with skipBp := false }
    u := { b.u with
      rc := b.u.rc - 1
      rs := if op = 1 then b.u.rs else rptAdvance b.u.rs (fld b.u.rmode 8 8) n
      rd := if op ≤ 2 then rptAdvance b.u.rd (fld b.u.rmode 16 8) n else b.u.rd } }

def Barge.rptNext (b : Barge) (r : RptRun) (clk op n : Nat) : Barge :=
  if (b.rptGoOn r clk op n).u.rc = 0 then rptComplete clk (b.rptGoOn r clk op n) else b.rptGoOn r clk op n

section
variable (b : Barge) (r : RptRun) (clk op n : Nat)

theorem Barge.rptNext_rpt : (b.rptNext r clk op n).rpt = none ↔ b.u.rc = 1 := by
  have hrc : (b.rptGoOn r clk op n).u.rc = 0 ↔ b.u.rc = 1 := by
    show b.u.rc - 1 = 0 ↔ _
    rw [sub_eq_zero]
  unfold Barge.rptNext
  split
  · next h => exact ⟨fun _ => hrc.1 h, fun _ => rfl⟩
  · next h => exact ⟨nofun, fun h1 => absurd (hrc.2 h1) h⟩

theorem Barge.rptNext_u : (b.rptNext r clk op n).u.rc = b.u.rc - 1 ∧
    (b.rptNext r clk op n).u.rs = (if op = 1 then b.u.rs else rptAdvance b.u.rs (fld b.u.rmode 8 8) n) ∧
    (b.rptNext r clk op n).u.rd = (if op ≤ 2 then rptAdvance b.u.rd (fld b.u.rmode 16 8) n else b.u.rd) := by
  unfold Barge.rptNext
  split <;> exact ⟨rfl, rfl, rfl⟩

/-- What an element leaves of its barge. -/
structure RptKept (b c : Barge) : Prop where
  vital : c.vital = b.vital
  ordinary : c.ordinary = b.ordinary
  pc : c.pc = b.pc

theorem Barge.rptNext_kept : RptKept b (b.rptNext r clk op n) ∧ (b.rptNext r clk op n).sig = b.sig := by
  unfold Barge.rptNext
  split <;> exact ⟨⟨rfl, rfl, rfl⟩, rfl⟩

theorem Barge.rptNext_ended (hop : bitsN b.u.rmode 3 3 = op) (h : (b.rptNext r clk op n).rpt = none) :
    RptEnded op (b.rptNext r clk op n) := by
  unfold Barge.rptNext at h ⊢
  split at h
  · next hrc =>
    rw [if_pos hrc]
    exact rptComplete_ended clk hop
  · cases h

end

/-! ### The element, by its operation (R78) -/

section
variable {s : State} {g : BargeIx} (r : RptRun) {op : Nat}

theorem ues_min_none {b : Barge} (h : ∀ d ∈ b.done, d.ues = []) : (b.done.flatMap fun d => d.ues).min? = none := by
  rw [List.flatMap_eq_nil_iff.2 h]
  rfl

/-- The sum's value, within the 36-bit range with SAT. -/
def rptSum (u : Units) (e : Word) : Int :=
  if bit u.rmode 25 then max (-34359738368) (min 34359738367 (u.rd.toInt + e.toInt)) else u.rd.toInt + e.toInt

/-- A copy or a fill that is processed: the element is written, and a vital one folds (R78, R158). -/
def rptStore (g : BargeIx) (r : RptRun) (op : Nat) (s : State) : State :=
  let b := s.barges.get g
  let n := rptSize b.u
  let raw := if op = 0 then rptRead b 0 b.u.rs.toInt.toNat n else b.u.rs.toNat % 512 ^ n
  let ws := nonetsOf b.u.rd.toInt.toNat raw n
  let m := portAMem s (basinOf g)
  let s1 := noteErrorsIn (basinOf g) srcPartial m s (partialWords ws)
  let s2 := if (partialWords ws).any m.isUe then s1 else
    s1.modBasin (basinOf g) fun x => x.writeBy false (bclkCount s (basinOf g)) ws
  (if r.vital then s2.modBarge g fun b => { b with sig := b.sig.fold (rptResidue n raw) 1 } else s2).modBarge g fun b =>
    b.rptNext r (bclkCount s (basinOf g)) op n

/-- The element that is processed, of the operation `op`: its effect by R78, and RANGE for a sum that does not fit in the vital world. -/
def rptEffect (g : BargeIx) (r : RptRun) (op : Nat) (s : State) : State :=
  let b := s.barges.get g
  let n := rptSize b.u
  let clk := bclkCount s (basinOf g)
  let src := rptRead b 0 b.u.rs.toInt.toNat n
  let next (s : State) : State := s.modBarge g fun b => b.rptNext r clk op n
  match op with
  | 2 => if src = rptRead b 2 b.u.rd.toInt.toNat n then next s else s.modBarge g (rptComplete clk)
  | 3 => if (rptExtend n src == b.u.rd) != bit b.u.rmode 24 then s.modBarge g (rptComplete clk) else next s
  | 4 =>
    let sum := b.u.rd.toInt + (rptExtend n src).toInt
    if decide (sum < -34359738368 ∨ 34359738367 < sum) ∧ !bit b.u.rmode 25 ∧ pswV b.psw then
      if entryWaits s g then s else takeFault g (pswW b.psw) 0x0D (r.pc.setWidth 36) b.pc b.irun s
    else next (s.modBarge g fun c => { c with u := { c.u with rd := BitVec.ofInt 36 (rptSum b.u (rptExtend n src)) } })
  | op => rptStore g r op s

theorem rptProcess_clean (hues : ∀ d ∈ (s.barges.get g).done, d.ues = []) :
    rptProcess g r s = rptEffect g r (bitsN (s.barges.get g).u.rmode 3 3) s := by
  unfold rptProcess
  dsimp only
  rw [ues_min_none hues]
  generalize bitsN (s.barges.get g).u.rmode 3 3 = op
  match op with
  | 0 | 1 | 2 | 3 | 4 => rfl
  | op + 5 => rfl

theorem rptEffect_compare : rptEffect g r 2 s = s.modBarge g
    (if rptRead (s.barges.get g) 0 (s.barges.get g).u.rs.toInt.toNat (rptSize (s.barges.get g).u) =
        rptRead (s.barges.get g) 2 (s.barges.get g).u.rd.toInt.toNat (rptSize (s.barges.get g).u) then
      fun b => b.rptNext r (bclkCount s (basinOf g)) 2 (rptSize (s.barges.get g).u)
    else rptComplete (bclkCount s (basinOf g))) :=
  (apply_ite (s.modBarge g) _ _ _).symm

theorem rptEffect_scan : rptEffect g r 3 s = s.modBarge g
    (if (rptExtend (rptSize (s.barges.get g).u)
        (rptRead (s.barges.get g) 0 (s.barges.get g).u.rs.toInt.toNat (rptSize (s.barges.get g).u)) == (s.barges.get g).u.rd) !=
          bit (s.barges.get g).u.rmode 24 then rptComplete (bclkCount s (basinOf g))
    else fun b => b.rptNext r (bclkCount s (basinOf g)) 3 (rptSize (s.barges.get g).u)) :=
  (apply_ite (s.modBarge g) _ _ _).symm

theorem rptEffect_sum {e : Word} (he : rptExtend (rptSize (s.barges.get g).u)
      (rptRead (s.barges.get g) 0 (s.barges.get g).u.rs.toInt.toNat (rptSize (s.barges.get g).u)) = e)
    (hfits : pswV (s.barges.get g).psw = true → bit (s.barges.get g).u.rmode 25 = false →
      -34359738368 ≤ (s.barges.get g).u.rd.toInt + e.toInt ∧ (s.barges.get g).u.rd.toInt + e.toInt ≤ 34359738367) :
    rptEffect g r 4 s = s.modBarge g fun b =>
      ({ b with u := { b.u with rd := BitVec.ofInt 36 (rptSum (s.barges.get g).u e) } } : Barge).rptNext
        r (bclkCount s (basinOf g)) 4 (rptSize (s.barges.get g).u) := by
  subst he
  refine (if_neg ?_).trans (State.modBarge_modBarge _ _ _ _)
  rintro ⟨hbig, hsat, hv⟩
  have := hfits hv (by simpa using hsat)
  rw [decide_eq_true_iff] at hbig
  omega

/-- A vital element's fold (R158). -/
def Barge.rptFolded (b : Barge) (r : RptRun) (res : Nat) : Barge := if r.vital then { b with sig := b.sig.fold res 1 } else b

theorem rptEffect_writes (h1 : op ≤ 1)
    {raw : Nat} (hraw : raw = if op = 0 then rptRead (s.barges.get g) 0 (s.barges.get g).u.rs.toInt.toNat (rptSize (s.barges.get g).u)
      else (s.barges.get g).u.rs.toNat % 512 ^ rptSize (s.barges.get g).u)
    (hclean : ∀ w, (portAMem s (basinOf g)).mark w = none) :
    rptEffect g r op s = (s.modBasin (basinOf g) fun x => x.writeBy false (bclkCount s (basinOf g))
        (nonetsOf (s.barges.get g).u.rd.toInt.toNat raw (rptSize (s.barges.get g).u))).modBarge g fun b =>
      (b.rptFolded r (rptResidue (rptSize (s.barges.get g).u) raw)).rptNext r (bclkCount s (basinOf g)) op
        (rptSize (s.barges.get g).u) := by
  subst hraw
  have hbad (l : List Nat) : l.any (portAMem s (basinOf g)).isUe = false :=
    List.any_eq_false.2 fun i _ => by simp [Mem.isUe_of_unmarked (hclean i)]
  have hnote (l : List Nat) : noteErrorsIn (basinOf g) srcPartial (portAMem s (basinOf g)) s l = s :=
    noteErrorsIn_of_unmarked _ _ _ _ _ fun i _ => hclean i
  have hstore : rptEffect g r op s = rptStore g r op s := by
    obtain rfl | rfl : op = 0 ∨ op = 1 := by omega
    · rfl
    · rfl
  have hfold (x : State) (res : Nat) : (if r.vital = true then x.modBarge g fun b => { b with sig := b.sig.fold res 1 } else x).modBarge g
      (fun b => b.rptNext r (bclkCount s (basinOf g)) op (rptSize (s.barges.get g).u)) =
      x.modBarge g fun b => (b.rptFolded r res).rptNext r (bclkCount s (basinOf g)) op (rptSize (s.barges.get g).u) := by
    unfold Barge.rptFolded
    split
    · exact State.modBarge_modBarge _ _ _ _
    · rfl
  rw [← hfold, hstore, rptStore, hnote, hbad, if_neg Bool.false_ne_true]

end

end Sys2Proof.Machine
end

section
/-! The state after an element of each operation (R78) (O7). -/

namespace Sys2Proof.Machine

/-! ### What an element leaves of the state -/

/-- From s to t barge g has become c and its basin's memory m; the other barges, the Reservoir and the Harbourmaster's memory stay. -/
structure RptOutcome (s : State) (g : BargeIx) (c : Barge) (m : Mem) (t : State) : Prop where
  barge : t.barges.get g = c
  mem : (t.basins.get (basinOf g)).mem = m
  others : ∀ k, k ≠ g → t.barges.get k = s.barges.get k
  rv : t.rv = s.rv
  hms : t.hms = s.hms
  crp : t.crp = s.crp

theorem RptOutcome.refl (s : State) (g : BargeIx) : RptOutcome s g (s.barges.get g) (s.basins.get (basinOf g)).mem s :=
  ⟨rfl, rfl, fun _ _ => rfl, rfl, rfl, rfl⟩

theorem RptOutcome.modBarge {s t : State} {g : BargeIx} {c : Barge} {m : Mem} (h : RptOutcome s g c m t) (f : Barge → Barge) :
    RptOutcome s g (f c) m (t.modBarge g f) :=
  ⟨by rw [State.modBarge_barges, vmod_get_self, h.barge], h.mem,
    fun k hk => by rw [State.modBarge_barges, vmod_get_ne _ _ _ _ hk, h.others k hk], h.rv, h.hms, h.crp⟩

theorem RptOutcome.modBasin {s t : State} {g : BargeIx} {c : Barge} {m : Mem} (h : RptOutcome s g c m t) {f : Basin → Basin} {m' : Mem}
    (hf : (f (t.basins.get (basinOf g))).mem = m') : RptOutcome s g c m' (t.modBasin (basinOf g) f) :=
  ⟨h.barge, by rw [State.modBasin_basins, vmod_get_self, hf], h.others, h.rv, h.hms, h.crp⟩

theorem Fetched.outcome {g : BargeIx} {at' : List BankIx} {new : List DoneAccess} {s t : State} (h : Fetched g at' new s t) :
    RptOutcome s g (t.barges.get g) (s.basins.get (basinOf g)).mem t :=
  ⟨rfl, h.mem, fun _ hk => h.other hk, by rw [h.state], by rw [h.state], by rw [h.state]⟩

/-- Where a copy or a fill writes. -/
theorem rd_toNat_of_writes {s : State} {g : BargeIx} {all : List (Nat × Nat × Nat)} (hg : RptGranted s g all)
    (h1 : bitsN (s.barges.get g).u.rmode 3 3 ≤ 1) :
    (s.barges.get g).u.rd.toInt.toNat = (s.barges.get g).u.rd.toNat := by
  have hmem : (s.barges.get g).u.rd.toInt ∈ rptWrites (s.barges.get g).u (bitsN (s.barges.get g).u.rmode 3 3) := by
    rw [rptWrites, if_pos h1]
    exact List.mem_singleton_self _
  exact toInt_toNat_of_nonneg _ (rptFault_nonneg hg.checked _ (List.mem_append_right _ hmem))

section
variable {s t : State} {g : BargeIx} {all : List (Nat × Nat × Nat)} (hg : RptGranted s g all) (h : RptFetched s g all t)

section
include h

/-- The barge is as before but for what it has made. -/
theorem RptFetched.barge : ∃ new, t.barges.get g = { s.barges.get g with done := (s.barges.get g).done ++ new } := by
  obtain ⟨⟨_, new, hf⟩, -, -⟩ := h
  exact ⟨new, hf.barge⟩

theorem RptFetched.u : (t.barges.get g).u = (s.barges.get g).u := by
  obtain ⟨new, hb⟩ := h.barge
  rw [hb]

theorem RptFetched.bclkCount : bclkCount t (basinOf g) = bclkCount s (basinOf g) := by
  obtain ⟨⟨_, _, hf⟩, -, -⟩ := h
  exact hf.bclkCount _

theorem RptFetched.process (r : RptRun) :
    rptProcess g r t = rptEffect g r (bitsN (s.barges.get g).u.rmode 3 3) t := by
  rw [rptProcess_clean r fun d hd => (h.made d hd).1, h.u]

theorem RptFetched.outcome : RptOutcome s g (t.barges.get g) (s.basins.get (basinOf g)).mem t := by
  obtain ⟨⟨_, _, hf⟩, -, -⟩ := h
  exact hf.outcome

end

include hg h

theorem RptFetched.portAMem : portAMem t (basinOf g) = (s.basins.get (basinOf g)).mem := by
  obtain ⟨⟨_, _, hf⟩, -, -⟩ := h
  rw [hf.portAMem, portAMem_of_free _ _ hg.free.2]

/-- What the element's source reads. -/
theorem RptFetched.source (h4 : bitsN (s.barges.get g).u.rmode 3 3 ≤ 4) (h1 : bitsN (s.barges.get g).u.rmode 3 3 ≠ 1) :
    rptRead (t.barges.get g) 0 (t.barges.get g).u.rs.toInt.toNat (rptSize (t.barges.get g).u) =
      (s.basins.get (basinOf g)).mem.read (s.barges.get g).u.rs.toNat (rptSize (s.barges.get g).u) := by
  obtain ⟨-, hmade, hall⟩ := id h
  have hmem : (s.barges.get g).u.rs.toInt ∈ rptReads (s.barges.get g).u (bitsN (s.barges.get g).u.rmode 3 3) := by
    generalize bitsN (s.barges.get g).u.rmode 3 3 = op at h4 h1
    match op, h4, h1 with
    | 0, _, _ | 2, _, _ | 3, _, _ | 4, _, _ => exact List.mem_cons_self
  have hpos := rptFault_nonneg hg.checked _ (List.mem_append_left _ hmem)
  rw [hg.accesses] at hmade hall
  rw [h.u, rptRead_source h4 h1 hmade hall, toInt_toNat_of_nonneg _ hpos]

theorem RptFetched.compared (h2 : bitsN (s.barges.get g).u.rmode 3 3 = 2) :
    rptRead (t.barges.get g) 2 (t.barges.get g).u.rd.toInt.toNat (rptSize (t.barges.get g).u) =
      (s.basins.get (basinOf g)).mem.read (s.barges.get g).u.rd.toNat (rptSize (s.barges.get g).u) := by
  obtain ⟨-, hmade, hall⟩ := id h
  have hmem : (s.barges.get g).u.rd.toInt ∈ rptReads (s.barges.get g).u (bitsN (s.barges.get g).u.rmode 3 3) := by
    rw [h2]
    exact List.mem_cons_of_mem _ List.mem_cons_self
  have hpos := rptFault_nonneg hg.checked _ (List.mem_append_left _ hmem)
  rw [hg.accesses, h2] at hmade hall
  rw [h.u, rptRead_compared hmade hall, toInt_toNat_of_nonneg _ hpos]

/-! ### The outcome of each operation -/

theorem rpt_compares (r : RptRun) (h2 : bitsN (s.barges.get g).u.rmode 3 3 = 2) :
    RptOutcome s g (if (s.basins.get (basinOf g)).mem.read (s.barges.get g).u.rs.toNat (rptSize (s.barges.get g).u) =
        (s.basins.get (basinOf g)).mem.read (s.barges.get g).u.rd.toNat (rptSize (s.barges.get g).u) then
      (t.barges.get g).rptNext r (bclkCount s (basinOf g)) 2 (rptSize (s.barges.get g).u)
      else rptComplete (bclkCount s (basinOf g)) (t.barges.get g)) (s.basins.get (basinOf g)).mem (rptProcess g r t) := by
  have hout := h.outcome
  have hsource := h.source hg (by omega) (by omega)
  have hcompared := h.compared hg h2
  rw [h.process r, h2, rptEffect_compare, hsource, hcompared, h.bclkCount, h.u]
  have hall := hout.modBarge (if (s.basins.get (basinOf g)).mem.read (s.barges.get g).u.rs.toNat (rptSize (s.barges.get g).u) =
        (s.basins.get (basinOf g)).mem.read (s.barges.get g).u.rd.toNat (rptSize (s.barges.get g).u) then
      fun b => b.rptNext r (bclkCount s (basinOf g)) 2 (rptSize (s.barges.get g).u)
    else rptComplete (bclkCount s (basinOf g)))
  rwa [ite_apply] at hall

theorem rpt_scans (r : RptRun) (h3 : bitsN (s.barges.get g).u.rmode 3 3 = 3) {e : Word}
    (he : rptExtend (rptSize (s.barges.get g).u)
      ((s.basins.get (basinOf g)).mem.read (s.barges.get g).u.rs.toNat (rptSize (s.barges.get g).u)) = e) :
    RptOutcome s g (if (e == (s.barges.get g).u.rd) != bit (s.barges.get g).u.rmode 24 then
        rptComplete (bclkCount s (basinOf g)) (t.barges.get g)
      else (t.barges.get g).rptNext r (bclkCount s (basinOf g)) 3 (rptSize (s.barges.get g).u))
      (s.basins.get (basinOf g)).mem (rptProcess g r t) := by
  subst he
  have hout := h.outcome
  have hsource := h.source hg (by omega) (by omega)
  rw [h.process r, h3, rptEffect_scan, hsource, h.bclkCount, h.u]
  have hall := hout.modBarge (if (rptExtend (rptSize (s.barges.get g).u)
        ((s.basins.get (basinOf g)).mem.read (s.barges.get g).u.rs.toNat (rptSize (s.barges.get g).u)) == (s.barges.get g).u.rd) !=
          bit (s.barges.get g).u.rmode 24 then rptComplete (bclkCount s (basinOf g))
    else fun b => b.rptNext r (bclkCount s (basinOf g)) 3 (rptSize (s.barges.get g).u))
  rwa [ite_apply] at hall

theorem rpt_sums (r : RptRun) (h4 : bitsN (s.barges.get g).u.rmode 3 3 = 4) {e : Word}
    (he : rptExtend (rptSize (s.barges.get g).u)
      ((s.basins.get (basinOf g)).mem.read (s.barges.get g).u.rs.toNat (rptSize (s.barges.get g).u)) = e)
    (hfits : pswV (s.barges.get g).psw = true → bit (s.barges.get g).u.rmode 25 = false →
      -34359738368 ≤ (s.barges.get g).u.rd.toInt + e.toInt ∧ (s.barges.get g).u.rd.toInt + e.toInt ≤ 34359738367) :
    RptOutcome s g (({ t.barges.get g with u := { (t.barges.get g).u with
        rd := BitVec.ofInt 36 (rptSum (s.barges.get g).u e) } } : Barge).rptNext r (bclkCount s (basinOf g)) 4
          (rptSize (s.barges.get g).u)) (s.basins.get (basinOf g)).mem (rptProcess g r t) := by
  subst he
  have hout := h.outcome
  have hsource := h.source hg (by omega) (by omega)
  obtain ⟨new, hb⟩ := h.barge
  have hu := h.u
  have hpsw : (t.barges.get g).psw = (s.barges.get g).psw := by rw [hb]
  rw [h.process r, h4, rptEffect_sum r (congrArg (rptExtend _) hsource) (by rw [hu, hpsw]; exact hfits), h.bclkCount, hu]
  have hall := hout.modBarge fun b => ({ b with u := { b.u with
      rd := BitVec.ofInt 36 (rptSum (s.barges.get g).u (rptExtend (rptSize (s.barges.get g).u)
        ((s.basins.get (basinOf g)).mem.read (s.barges.get g).u.rs.toNat (rptSize (s.barges.get g).u)))) } } : Barge).rptNext
        r (bclkCount s (basinOf g)) 4 (rptSize (s.barges.get g).u)
  dsimp only at hall
  rw [hu] at hall
  exact hall

theorem rpt_writes (r : RptRun) (h1 : bitsN (s.barges.get g).u.rmode 3 3 ≤ 1) {raw : Nat}
    (hraw : raw = if bitsN (s.barges.get g).u.rmode 3 3 = 0 then
        (s.basins.get (basinOf g)).mem.read (s.barges.get g).u.rs.toNat (rptSize (s.barges.get g).u)
      else (s.barges.get g).u.rs.toNat % 512 ^ rptSize (s.barges.get g).u) :
    RptOutcome s g (((t.barges.get g).rptFolded r (rptResidue (rptSize (s.barges.get g).u) raw)).rptNext r (bclkCount s (basinOf g))
        (bitsN (s.barges.get g).u.rmode 3 3) (rptSize (s.barges.get g).u))
      ((s.basins.get (basinOf g)).mem.write (nonetsOf (s.barges.get g).u.rd.toNat raw (rptSize (s.barges.get g).u)))
      (rptProcess g r t) := by
  have hu := h.u
  have hclk := h.bclkCount
  have hsrc : raw = if bitsN (s.barges.get g).u.rmode 3 3 = 0 then
        rptRead (t.barges.get g) 0 (t.barges.get g).u.rs.toInt.toNat (rptSize (t.barges.get g).u)
      else (t.barges.get g).u.rs.toNat % 512 ^ rptSize (t.barges.get g).u := by
    rw [hraw]
    split
    · next h0 => rw [h.source hg (by omega) (by omega)]
    · rw [hu]
  have hport : ∀ w, (t.basins.get (basinOf g)).portB = some w → w.bclk ≠ bclkCount s (basinOf g) := by
    obtain ⟨⟨_, _, hf⟩, -, -⟩ := h
    rw [hf.basin]
    exact hg.free.2
  have hmem : (t.basins.get (basinOf g)).mem = (s.basins.get (basinOf g)).mem := h.outcome.mem
  rw [h.process r, rptEffect_writes r h1 hsrc (by rw [h.portAMem hg]; exact hg.clean), hu, hclk, rd_toNat_of_writes hg h1]
  refine (h.outcome.modBasin ?_).modBarge fun b => (b.rptFolded r (rptResidue (rptSize (s.barges.get g).u) raw)).rptNext r
    (bclkCount s (basinOf g)) (bitsN (s.barges.get g).u.rmode 3 3) (rptSize (s.barges.get g).u)
  rw [Basin.writeBy_mem_of_free _ _ _ hport, hmem]

end

end Sys2Proof.Machine
end

section
/-! The elements of the block operations as O7 states them. -/

namespace Sys2Proof.Machine

/-! ### What every element does (R78) -/

/-- What an element of operation `op` leaves of its barge and how it advances it. -/
structure RptShared (b c : Barge) (op n : Nat) : Prop where
  kept : RptKept b c
  advance : c.u.rc ≠ b.u.rc →
    c.u.rs = (if op = 1 then b.u.rs else rptAdvance b.u.rs (fld b.u.rmode 8 8) n) ∧
      (op ≤ 2 → c.u.rd = rptAdvance b.u.rd (fld b.u.rmode 16 8) n)
  ended : c.rpt = none → RptEnded op c

theorem RptShared.complete {b c : Barge} {op n : Nat} (clk : Nat) (hk : RptKept b c) (hu : c.u = b.u)
    (hop : bitsN b.u.rmode 3 3 = op) : RptShared b (rptComplete clk c) op n where
  kept := ⟨hk.vital, hk.ordinary, hk.pc⟩
  advance := fun h => absurd (congrArg Units.rc hu) h
  ended := fun _ => rptComplete_ended clk (by rw [hu, hop])

theorem RptShared.next {b c : Barge} {op n : Nat} (r : RptRun) (clk : Nat) (hk : RptKept b c) (hrs : c.u.rs = b.u.rs)
    (hmode : c.u.rmode = b.u.rmode) (hrd : op ≤ 2 → c.u.rd = b.u.rd) (hop : bitsN b.u.rmode 3 3 = op) :
    RptShared b (c.rptNext r clk op n) op n := by
  obtain ⟨⟨hvital, hordinary, hpc⟩, -⟩ := c.rptNext_kept r clk op n
  obtain ⟨-, hrs', hrd'⟩ := c.rptNext_u r clk op n
  refine ⟨⟨hvital.trans hk.vital, hordinary.trans hk.ordinary, hpc.trans hk.pc⟩, fun _ => ⟨?_, fun h2 => ?_⟩,
    c.rptNext_ended r clk op n (by rw [hmode, hop])⟩
  · rw [hrs', hrs, hmode]
  · rw [hrd', if_pos h2, hrd h2, hmode]

theorem RptKept.folded {b c : Barge} (h : RptKept b c) (r : RptRun) (res : Nat) : RptKept b (c.rptFolded r res) := by
  unfold Barge.rptFolded
  split
  · exact ⟨h.vital, h.ordinary, h.pc⟩
  · exact h

theorem Barge.rptFolded_u (b : Barge) (r : RptRun) (res : Nat) : (b.rptFolded r res).u = b.u := by
  unfold Barge.rptFolded
  split <;> rfl

theorem Barge.rptFolded_sig (b : Barge) (r : RptRun) (res : Nat) :
    (b.rptFolded r res).sig = if r.vital then b.sig.fold res 1 else b.sig := by
  unfold Barge.rptFolded
  split <;> rfl

section
variable {s t : State} {g : BargeIx} {all : List (Nat × Nat × Nat)} (hg : RptGranted s g all) (h : RptFetched s g all t)

include h in
theorem RptFetched.kept : RptKept (s.barges.get g) (t.barges.get g) := by
  obtain ⟨new, hb⟩ := h.barge
  rw [hb]
  exact ⟨rfl, rfl, rfl⟩

include hg h

theorem rpt_shared (r : RptRun) {op : Nat} (hop : bitsN (s.barges.get g).u.rmode 3 3 = op) (h4 : op ≤ 4) {e : Word}
    (he : rptExtend (rptSize (s.barges.get g).u)
      ((s.basins.get (basinOf g)).mem.read (s.barges.get g).u.rs.toNat (rptSize (s.barges.get g).u)) = e)
    (hfits : op = 4 → pswV (s.barges.get g).psw = true → bit (s.barges.get g).u.rmode 25 = false →
      -34359738368 ≤ (s.barges.get g).u.rd.toInt + e.toInt ∧ (s.barges.get g).u.rd.toInt + e.toInt ≤ 34359738367) :
    ∃ c m, RptOutcome s g c m (rptProcess g r t) ∧ RptShared (s.barges.get g) c op (rptSize (s.barges.get g).u) ∧
      (2 ≤ op → m = (s.basins.get (basinOf g)).mem) := by
  have hu := h.u
  have hk := h.kept
  obtain h1 | rfl | rfl | rfl : op ≤ 1 ∨ op = 2 ∨ op = 3 ∨ op = 4 := by omega
  · subst hop
    refine ⟨_, _, rpt_writes hg h r h1 rfl, ?_, fun h2 => absurd h2 (by omega)⟩
    exact .next r _ (hk.folded r _) (by rw [Barge.rptFolded_u, hu]) (by rw [Barge.rptFolded_u, hu])
      (fun _ => by rw [Barge.rptFolded_u, hu]) rfl
  · refine ⟨_, _, rpt_compares hg h r hop, ?_, fun _ => rfl⟩
    split
    · exact .next r _ hk (by rw [hu]) (by rw [hu]) (fun _ => by rw [hu]) hop
    · exact .complete _ hk hu hop
  · refine ⟨_, _, rpt_scans hg h r hop he, ?_, fun _ => rfl⟩
    split
    · exact .complete _ hk hu hop
    · exact .next r _ hk (by rw [hu]) (by rw [hu]) (fun _ => by rw [hu]) hop
  · refine ⟨_, _, rpt_sums hg h r hop he (hfits rfl), ?_, fun _ => rfl⟩
    exact .next r _ ⟨hk.vital, hk.ordinary, hk.pc⟩ (by simp only [hu]) (by simp only [hu]) (fun h2 => absurd h2 (by decide)) hop

/-! ### Each operation, in the statement's terms -/

theorem rpt_writes_effect (r : RptRun) {op : Nat} (hop : bitsN (s.barges.get g).u.rmode 3 3 = op) (h1 : op ≤ 1)
    (hwf : (s.basins.get (basinOf g)).mem.wf = true) {n src : Nat} (hn : rptSize (s.barges.get g).u = n)
    (hsrc : (s.basins.get (basinOf g)).mem.read (s.barges.get g).u.rs.toNat n = src) :
    let v := rptProcess g r t
    (∀ k, k < n → (v.basins.get (basinOf g)).mem.nonet ((s.barges.get g).u.rd.toNat + k) =
      BitVec.ofNat 9 ((if op = 0 then src else (s.barges.get g).u.rs.toNat) / 512 ^ k)) ∧
    (∀ a, ¬ ((s.barges.get g).u.rd.toNat ≤ a ∧ a < (s.barges.get g).u.rd.toNat + n) →
      (v.basins.get (basinOf g)).mem.nonet a = (s.basins.get (basinOf g)).mem.nonet a) ∧
    (v.barges.get g).u.rc = (s.barges.get g).u.rc - 1 ∧ ((v.barges.get g).rpt = none ↔ (s.barges.get g).u.rc = 1) ∧
    (v.barges.get g).sig = if r.vital then
        (s.barges.get g).sig.fold (rptResidue n (if op = 0 then src else (s.barges.get g).u.rs.toNat % 512 ^ n)) 1
      else (s.barges.get g).sig := by
  intro v
  subst hop hn hsrc
  obtain ⟨new, hb⟩ := h.barge
  have hsig : (t.barges.get g).sig = (s.barges.get g).sig := by rw [hb]
  obtain ⟨hbarge, hmem, -⟩ := rpt_writes hg h r h1 rfl
  obtain ⟨-, -, hnew, hold⟩ := memoryReadsWhatWasWritten (s.basins.get (basinOf g)).mem (s.barges.get g).u.rd.toNat
    (rptSize (s.barges.get g).u) _ hwf
  refine ⟨fun k hk => ?_, fun a ha => ?_, ?_, ?_, ?_⟩
  · rw [hmem, hnew k hk]
    split
    · rfl
    · refine BitVec.eq_of_toNat_eq ?_
      have hpow : 512 ^ rptSize (s.barges.get g).u = 512 ^ k * 512 ^ (rptSize (s.barges.get g).u - k) := by
        rw [← pow_add, Nat.add_sub_cancel' hk.le]
      have hdvd : 512 ∣ 512 ^ (rptSize (s.barges.get g).u - k) := dvd_pow_self _ (by omega)
      rw [BitVec.toNat_ofNat, BitVec.toNat_ofNat, hpow, Nat.mod_mul_right_div_self]
      exact Nat.mod_mod_of_dvd _ hdvd
  · rw [hmem]
    exact hold a (by omega)
  · rw [hbarge, (Barge.rptNext_u _ r _ _ _).1, Barge.rptFolded_u, h.u]
  · rw [hbarge, Barge.rptNext_rpt, Barge.rptFolded_u, h.u]
  · rw [hbarge, (Barge.rptNext_kept _ r _ _ _).2, Barge.rptFolded_sig, hsig]

theorem rpt_compares_effect (r : RptRun) (hop : bitsN (s.barges.get g).u.rmode 3 3 = 2) {n src : Nat}
    (hn : rptSize (s.barges.get g).u = n) (hsrc : (s.basins.get (basinOf g)).mem.read (s.barges.get g).u.rs.toNat n = src) :
    let v := rptProcess g r t
    let other := (s.basins.get (basinOf g)).mem.read (s.barges.get g).u.rd.toNat n
    ((v.barges.get g).rpt = none ↔ ((s.barges.get g).u.rc = 1 ∨ src ≠ other)) ∧
      (v.barges.get g).u.rc = if src = other then (s.barges.get g).u.rc - 1 else (s.barges.get g).u.rc := by
  intro v other
  subst hn hsrc
  obtain ⟨hbarge, -⟩ := rpt_compares hg h r hop
  rw [hbarge]
  split
  · next heq => exact ⟨by rw [Barge.rptNext_rpt, h.u]; exact (or_iff_left (not_not_intro heq)).symm,
      by rw [(Barge.rptNext_u _ r _ _ _).1, h.u]⟩
  · next hne => exact ⟨⟨fun _ => .inr hne, fun _ => rfl⟩, show (t.barges.get g).u.rc = _ by rw [h.u]⟩

theorem rpt_scans_effect (r : RptRun) (hop : bitsN (s.barges.get g).u.rmode 3 3 = 3) {n src : Nat}
    (hn : rptSize (s.barges.get g).u = n) (hsrc : (s.basins.get (basinOf g)).mem.read (s.barges.get g).u.rs.toNat n = src) :
    let v := rptProcess g r t
    let eq := rptExtend n src == (s.barges.get g).u.rd
    ((v.barges.get g).rpt = none ↔ ((s.barges.get g).u.rc = 1 ∨ eq ≠ bit (s.barges.get g).u.rmode 24)) ∧
      (v.barges.get g).u.rc = if eq = bit (s.barges.get g).u.rmode 24 then (s.barges.get g).u.rc - 1 else (s.barges.get g).u.rc := by
  intro v eq
  subst hn hsrc
  obtain ⟨hbarge, -⟩ := rpt_scans hg h r hop rfl
  rw [hbarge]
  split
  · next hne =>
    have hne : eq ≠ bit (s.barges.get g).u.rmode 24 := bne_iff_ne.1 hne
    exact ⟨⟨fun _ => .inr hne, fun _ => rfl⟩, by rw [if_neg hne]; exact show (t.barges.get g).u.rc = _ by rw [h.u]⟩
  · next heq =>
    have heq : eq = bit (s.barges.get g).u.rmode 24 := by simpa using heq
    exact ⟨by rw [Barge.rptNext_rpt, h.u]; exact (or_iff_left (not_not_intro heq)).symm,
      by rw [(Barge.rptNext_u _ r _ _ _).1, h.u, if_pos heq]⟩

theorem rpt_sums_effect (r : RptRun) (hop : bitsN (s.barges.get g).u.rmode 3 3 = 4) {e : Word}
    (he : rptExtend (rptSize (s.barges.get g).u)
      ((s.basins.get (basinOf g)).mem.read (s.barges.get g).u.rs.toNat (rptSize (s.barges.get g).u)) = e)
    (hfits : pswV (s.barges.get g).psw = true → bit (s.barges.get g).u.rmode 25 = false →
      -34359738368 ≤ (s.barges.get g).u.rd.toInt + e.toInt ∧ (s.barges.get g).u.rd.toInt + e.toInt ≤ 34359738367) :
    let v := rptProcess g r t
    (v.barges.get g).u.rd = BitVec.ofInt 36 (rptSum (s.barges.get g).u e) ∧
      (v.barges.get g).u.rc = (s.barges.get g).u.rc - 1 ∧ ((v.barges.get g).rpt = none ↔ (s.barges.get g).u.rc = 1) := by
  intro v
  obtain ⟨hbarge, -⟩ := rpt_sums hg h r hop he hfits
  have hrc : (t.barges.get g).u.rc = (s.barges.get g).u.rc := congrArg Units.rc h.u
  obtain ⟨hrc', -, hrd'⟩ := Barge.rptNext_u
    ({ t.barges.get g with u := { (t.barges.get g).u with rd := BitVec.ofInt 36 (rptSum (s.barges.get g).u e) } } : Barge) r
    (bclkCount s (basinOf g)) 4 (rptSize (s.barges.get g).u)
  rw [hbarge]
  refine ⟨hrd', ?_, ?_⟩
  · rw [hrc', ← hrc]
  · rw [Barge.rptNext_rpt, ← hrc]

end

end Sys2Proof.Machine
end

section
/-! XLU_DEPART, XLU_RESPONSE, IOU_COMPLETE and RPT_ELEMENT (O7). -/

namespace Sys2Proof.Machine

/-! ### The XLU and the IOU (R66 to R71, R82, R84) -/

theorem exec_xluDepart (s : State) (dt : Nat) (g : BargeIx) (o : XluOp) (rest : List XluOp) (hav : Available s)
    (hrun : basinRuns s (basinOf g) = true) (hq : (s.barges.get g).xluq = o :: rest)
    (hold : ∀ e ∈ (s.barges.get g).stores, o.after ≤ e.seq) :
    exec (.xluDepart dt g) s =
      .next (((s.elapse dt).modBarge g fun b => { b with xluq := rest }).modBasin (basinOf g) fun x =>
        { x with tender := x.tender ++ [(posOf g, o)] }) := by
  show act s dt _ = _
  have hall : ((s.elapse dt).barges.get g).stores.all (fun e => o.after ≤ e.seq) = true := List.all_eq_true.2 fun e he => by
    simpa using hold e he
  rw [act_next s dt _ hav.1 hav.2, gated_of _ _ _ hrun]
  simp only [departXlu, State.elapse_barges, hq]
  exact congrArg Host.Outcome.next (if_pos hall)

theorem exec_xluResponse (s : State) (dt : Nat) (g : BargeIx) (hav : Available s) (hrun : basinRuns s (basinOf g) = true) :
    exec (.xluResponse dt g) s = .next (takeXluResp g (s.elapse dt)) := by
  show act s dt _ = _
  rw [act_next s dt _ hav.1 hav.2, gated_of _ _ _ hrun]

/-- XLU.r once a response has been taken (R69, R71). -/
def Barge.xluData (b : Barge) (r : XluResp) : Word :=
  if r.write = false ∧ b.xluSeen < r.load then (if r.ok then r.data else 0) else b.u.xlur

/-- A barge whose XLU has taken a response. -/
def Barge.responded (b : Barge) (r : XluResp) (rest : List XluResp) : Barge :=
  { b with
    xluResps := rest, xluCredits := b.xluCredits - 1, u := { b.u with xlur := b.xluData r }
    xluSeen := if r.write = false ∧ b.xluSeen < r.load then r.load else b.xluSeen }

theorem takeXluResp_eq (s : State) (g : BargeIx) (r : XluResp) (rest : List XluResp) (h : (s.barges.get g).xluResps = r :: rest) :
    takeXluResp g s = if r.ok then s.modBarge g fun b => b.responded r rest
      else (s.modBarge g fun b => b.responded r rest).pend g 58 := by
  have hf : (fun b : Barge =>
      let b1 := { b with xluResps := rest, xluCredits := b.xluCredits - 1 }
      if !r.write ∧ b.xluSeen < r.load then { b1 with u := { b1.u with xlur := if r.ok then r.data else 0 }, xluSeen := r.load } else b1) =
      fun b => b.responded r rest := by
    funext b
    unfold Barge.responded Barge.xluData
    by_cases hc : r.write = false ∧ b.xluSeen < r.load
    · simp [hc]
    · have hc' : ¬ ((!r.write) = true ∧ b.xluSeen < r.load) := by simpa using hc
      simp only [if_neg hc, if_neg hc']
  unfold takeXluResp
  rw [h, ← hf]

/-- An asserted source pends, and no other field of the barge changes. -/
theorem pend_effect (g : BargeIx) (s : State) (n : Fin 64) : ∃ v, s.pend g n =
      { s with barges := (s.modBarge g fun b => { b with intc := v }).barges, events := (s.pend g n).events } ∧ (v.get n).pend = true ∧
      ∀ m, m ≠ n → v.get m = (s.barges.get g).intc.get m := by
  refine ⟨((s.pend g n).barges.get g).intc, ?_, ?_, fun m hm => ?_⟩
  · have hb : (s.pend g n).barges = (s.modBarge g fun b => { b with intc := ((s.pend g n).barges.get g).intc }).barges := by
      refine vget_ext fun k => ?_
      by_cases hk : k = g
      · subst hk
        simp [State.pend]
      · simp [State.pend, vmod_get_ne _ _ _ _ hk]
    rw [← hb]
    rfl
  · simp only [State.pend, State.mark_barges, State.modBarge_barges, vmod_get_self]
    split
    · next h => exact h
    · rfl
  · simp [State.pend, vmod_get_ne _ _ _ _ hm]

theorem xluResponse_effect (s : State) (g : BargeIx) (r : XluResp) (rest : List XluResp) (h : (s.barges.get g).xluResps = r :: rest) :
    ∃ v e, takeXluResp g s =
        { s with barges := (s.modBarge g fun b => { b.responded r rest with intc := v }).barges, events := e } ∧
      (v.get 58).pend = (!r.ok || ((s.barges.get g).intc.get 58).pend) ∧
      ∀ n : Fin 64, n ≠ 58 → v.get n = (s.barges.get g).intc.get n := by
  rw [takeXluResp_eq s g r rest h]
  cases hok : r.ok with
  | true =>
    refine ⟨(s.barges.get g).intc, s.events, ?_, rfl, fun n _ => rfl⟩
    have hb : (s.modBarge g fun b => b.responded r rest).barges =
        (s.modBarge g fun b => { b.responded r rest with intc := (s.barges.get g).intc }).barges := by
      refine vget_ext fun k => ?_
      by_cases hk : k = g
      · subst hk
        simp only [State.modBarge_barges, vmod_get_self]
        rfl
      · simp [vmod_get_ne _ _ _ _ hk]
    rw [if_pos rfl, ← hb]
    rfl
  | false =>
    obtain ⟨v, hpend, hp, hn⟩ := pend_effect g (s.modBarge g fun b => b.responded r rest) 58
    refine ⟨v, ((s.modBarge g fun b => b.responded r rest).pend g 58).events, ?_, hp, fun n hne => (hn n hne).trans ?_⟩
    · rw [if_neg Bool.false_ne_true, hpend, State.modBarge_modBarge]
      rfl
    · rw [State.modBarge_barges, vmod_get_self]
      rfl

theorem exec_iouComplete (s : State) (dt : Nat) (g : BargeIx) (hav : Available s) (hrun : basinRuns s (basinOf g) = true) :
    exec (.iouComplete dt g) s = .next (completeIou g (s.elapse dt)) := by
  show act s dt _ = _
  rw [act_next s dt _ hav.1 hav.2, gated_of _ _ _ hrun]

/-- The IOU operation's end at its barge (R82, R163). -/
def Barge.iouEnded (b : Barge) : Barge :=
  { b with iou := none, sig := { b.sig with captured := b.sig.captured.map fun c => (c.1, false) } }

theorem completeIou_write (s : State) (g : BargeIx) (o : IouOp) (h : (s.barges.get g).iou = some o) (hw : o.write = true)
    (hold : ∀ e ∈ (s.barges.get g).stores, o.after ≤ e.seq) :
    completeIou g s = (winWrite g o.world o.date o.att o.addr.toNat o.data s).modBarge g Barge.iouEnded := by
  have hnone : ((s.barges.get g).stores.any fun e => decide (e.seq < o.after)) = false :=
    List.any_eq_false.2 fun e he => by simpa using hold e he
  unfold completeIou
  simp only [h, hw, hnone]
  rw [if_neg (by simp)]
  rfl

theorem completeIou_read (s : State) (g : BargeIx) (o : IouOp) (h : (s.barges.get g).iou = some o) (hw : o.write = false)
    (hold : ∀ e ∈ (s.barges.get g).stores, o.after ≤ e.seq)
    (hline : 0x1000 ≤ o.addr.toNat → o.addr.toNat < 0x2000 → o.line ≠ none) :
    completeIou g s = s.modBarge g fun b => ({ b with u := { b.u with iour :=
      (if 0x1000 ≤ o.addr.toNat ∧ o.addr.toNat < 0x2000 then o.line.getD 0
      else (winRead s g o.world o.addr.toNat).getD 0) } } : Barge).iouEnded := by
  have hnone : ((s.barges.get g).stores.any fun e => decide (e.seq < o.after)) = false :=
    List.any_eq_false.2 fun e he => by simpa using hold e he
  unfold completeIou
  simp only [h, hw, hnone, Bool.not_false, Bool.true_and, Bool.and_eq_true, decide_eq_true_eq]
  rw [if_neg, if_neg (by simp), State.modBarge_modBarge]
  · rfl
  · rintro (hf | ⟨⟨hlo, hhi⟩, hl⟩)
    · cases hf
    · exact hline hlo hhi (Option.isNone_iff_eq_none.1 hl)

/-! ### RPT_ELEMENT -/

theorem exec_rptElement (s : State) (dt : Nat) (g : BargeIx) (rivals : List Rival) (hav : Available s)
    (h : (rptElement g rivals (s.elapse dt)).crp = (s.elapse dt).crp) :
    exec (.rptElement dt g rivals) s = .next (rptElement g rivals (s.elapse dt)) := by
  show act s dt _ = _
  rw [act_next s dt _ hav.1 hav.2, holdsFollow_same _ _ (by rw [h])]

/-- Settles O7: the XLU's and the IOU's steps are single updates; an RPT element, whose accesses its quiet banks grant, is the effect of
its operation on what it read, and each operation's outcome is computed once. -/
theorem operationsAdvanceAndComplete : Obligations.OperationsAdvanceAndComplete := by
  unfold Obligations.OperationsAdvanceAndComplete
  refine ⟨⟨fun s dt g o rest hav hrun hq hold => exec_xluDepart s dt g o rest hav hrun hq hold, ?_, ?_, ?_⟩, ?_⟩
  · intro s dt g r rest b hav hrun hr
    obtain ⟨v, e, heq, hpend, hn⟩ := xluResponse_effect (s.elapse dt) g r rest hr
    have hb : ((s.elapse dt).modBarge g fun b => { b.responded r rest with intc := v }).barges.get g =
        { b.responded r rest with intc := v } := by
      rw [State.modBarge_barges, vmod_get_self]
      rfl
    refine ⟨_, (exec_xluResponse s dt g hav hrun).trans (congrArg Host.Outcome.next heq), ⟨rfl, fun k hk => ?_⟩, ?_⟩
    · exact vmod_get_ne _ _ _ _ hk
    · dsimp only
      rw [hb]
      exact ⟨rfl, rfl, rfl, hpend, hn, rfl, rfl, rfl, rfl⟩
  · intro s dt g o hav hrun ho hw hold hline
    rw [exec_iouComplete s dt g hav hrun, completeIou_read (s.elapse dt) g o ho hw hold hline]
    rfl
  · intro s dt g o hav hrun ho hw hold
    rw [exec_iouComplete s dt g hav hrun, completeIou_write (s.elapse dt) g o ho hw hold]
    rfl
  · intro s dt g r b x u op n src all sum hav hcan hruns hrpt hhalt hreq hstores htrap hsecond hflights hint h4 hdue hfree hfits hcheck
      hho hmade honce hclean
    have hR : RptRuns (s.elapse dt) g r := ⟨hruns, hrpt, hhalt, hreq, hstores, htrap, hsecond, hflights, hint, hdue⟩
    have hwork := rptElement_runs hR []
    by_cases hrc : u.rc = 0
    · have hout := (RptOutcome.refl (s.elapse dt) g).modBarge (rptComplete (bclkCount (s.elapse dt) (basinOf g)))
      rw [← rptWork_ended (s := s.elapse dt) [] r hrc, ← hwork] at hout
      have hended : RptEnded op (rptComplete (bclkCount (s.elapse dt) (basinOf g)) b) := rptComplete_ended _ rfl
      refine ⟨_, exec_rptElement s dt g [] hav hout.crp, fun _ => ?_, fun h => absurd hrc h, fun h => absurd hrc h,
        fun h => absurd hrc h, fun h => absurd hrc h, ?_⟩
      · rw [hout.barge, hout.mem]
        exact ⟨rfl, hrc, rfl, rfl, rfl⟩
      · rw [hout.barge, hout.mem]
        exact ⟨fun h => absurd rfl h, fun _ => hended, fun _ => rfl, hout.rv, hout.hms, rfl, rfl, rfl, hout.others⟩
    · have hG : RptGranted (s.elapse dt) g all := ⟨hrc, hcheck, rfl, fun y hy => by simpa using List.all_eq_true.1 hho y hy, hmade,
        honce, hfree, hclean⟩
      obtain ⟨t, hproc, hF⟩ := rptWork_granted hG r
      rw [hproc] at hwork
      obtain ⟨c, m, hout, hshared, hsame⟩ := rpt_shared hG hF r (op := op) rfl h4 rfl hfits
      obtain ⟨⟨hvital, hordinary, hpc⟩, hadvance, hended⟩ := hshared
      have hexec := exec_rptElement s dt g [] hav (by rw [hwork]; exact hout.crp)
      rw [hwork] at hexec
      refine ⟨_, hexec, fun h => absurd h hrc, fun _ h1 => ?_, fun _ h2 => ?_, fun _ h3 => ?_, fun _ h4 => ?_, ?_⟩
      · exact rpt_writes_effect hG hF r rfl h1 (hcan.1 _) rfl rfl
      · exact rpt_compares_effect hG hF r h2 rfl rfl
      · exact rpt_scans_effect hG hF r h3 rfl rfl
      · exact rpt_sums_effect hG hF r h4 rfl (hfits h4)
      · rw [hout.barge, hout.mem]
        exact ⟨hadvance, hended, hsame, hout.rv, hout.hms, hvital, hordinary, hpc, hout.others⟩

end Sys2Proof.Machine
end

section
/-! The issue of one trigger of a unit that reaches memory, the Wharf, a window or the signature (R38 to R45) (O16). -/

namespace Sys2Proof.Machine

/-! ### The parts of a barge that such a unit writes -/

/-- What the LSU, MAC, XLU, IOU and SIG change of their barge. -/
structure Reach where
  flights : List Flight
  u : Units
  sig : Sig
  stores : List StoreEntry
  storeSeq : Nat
  second : Option SecondPart
  xluq : List XluOp
  xluCredits : Nat
  xluIssued : Nat
  iou : Option IouOp

def Barge.reach (b : Barge) : Reach :=
  ⟨b.flights, b.u, b.sig, b.stores, b.storeSeq, b.second, b.xluq, b.xluCredits, b.xluIssued, b.iou⟩

def Barge.withReach (b : Barge) (r : Reach) : Barge :=
  { b with
    flights := r.flights, u := r.u, sig := r.sig, stores := r.stores, storeSeq := r.storeSeq, second := r.second, xluq := r.xluq
    xluCredits := r.xluCredits, xluIssued := r.xluIssued, iou := r.iou }

/-- A barge whose accesses have been made, at its instruction's bookkeeping. -/
def Barge.issuing (b : Barge) (made : List DoneAccess) (lines : List HeldLine) (n : Nat) (line : Option (BitVec 12)) (d : Dbg) : Barge :=
  ({ b with done := made } : Barge).noted lines n line d

theorem IssuesTo.imp {s : State} {dt : Nat} {g : BargeIx} {rivals : List Rival} {pc : BitVec 14} {P Q : Barge → Prop}
    (h : IssuesTo s dt g rivals pc P) (hPQ : ∀ y, P y → Q y) : IssuesTo s dt g rivals pc Q := by
  obtain ⟨t, hexec, ⟨hpc, hcount, hvital, hordinary, hpsw, hflags, hP⟩, hothers, hmem⟩ := h
  exact ⟨t, hexec, ⟨hpc, hcount, hvital, hordinary, hpsw, hflags, hPQ _ hP⟩, hothers, hmem⟩

/-! ### The attempt to issue, its accesses granted -/

theorem Fetched.mems {g : BargeIx} {at' : List BankIx} {new : List DoneAccess} {s t : State} (h : Fetched g at' new s t) :
    t.mems = s.mems := by
  refine (mems_eq_iff t _ _ _).2 ⟨?_, by rw [h.state], by rw [h.state]⟩
  refine Vector.ext fun n hn => ?_
  rw [Vector.getElem_map, Vector.getElem_map]
  have hget : (t.basins.get ⟨n, hn⟩).mem = (s.basins.get ⟨n, hn⟩).mem := by
    by_cases hg : (⟨n, hn⟩ : BasinIx) = basinOf g
    · rw [hg, h.mem]
    · rw [h.others _ hg]
  exact hget

/-- The attempt to issue a ready instruction whose accesses are all granted. -/
theorem issueAt_fetched {s t : State} {g : BargeIx} {i : Insn} (h : Ready s g i) (rivals : List Rival) (c : Ctx) (hplan : plan g s = .go c)
    {at' : List BankIx} {new : List DoneAccess} (hall : fetchAll g placeUnit rivals (c.accesses (s.barges.get g)) s = (true, t))
    (hf : Fetched g at' new s t) : issueAt g rivals false false s = finishTrap g (c.effect (c.bookkeep t)) := by
  obtain ⟨-, -, -, hho, -⟩ := h.boundary
  have hbps : ∀ j, bitsN ((t.barges.get g).dbg.bps.get j).bpa 14 2 ≠ 2 := by
    rw [hf.barge]
    exact h.breakpoints
  have hsy : (t.barges.get g).syPend = [] := by
    rw [hf.barge]
    exact h.syPend
  unfold issueAt
  simp only [hho, hplan, interruptDue_disabled s g h.interrupts, bpStops_unset s g h.breakpoints, hall,
    bpHits_unset g 2 _ t hbps, viewed_synced t g hsy, ite_self]
  simp

/-- What a ready instruction leaves, whose accesses are granted, when its operations and its branch leave y of its barge and no trap. -/
theorem exec_fetched {s t0 : State} {g : BargeIx} {i : Insn} {c : Ctx} {y : Barge} (dt : Nat) (rivals : List Rival) (hav : Available s)
    (h : Ready s g i) (hplan : plan g (s.elapse dt) = .go c) (hg : c.g = g) {at' : List BankIx} {new : List DoneAccess}
    (hall : fetchAll g placeUnit rivals (c.accesses (s.barges.get g)) (s.elapse dt) = (true, t0))
    (hf : Fetched g at' new (s.elapse dt) t0) (hl : Leaves g y t0 (c.bru (c.operate (c.bookkeep t0)))) (htrap : y.trapDue = none) :
    ∃ t, exec (.instructionIssue dt g rivals) s = .next t ∧ Leaves g y t0 t := by
  subst hg
  have ht := hl.trans (effect_leaves c (c.bookkeep t0))
  refine ⟨c.effect (c.bookkeep t0), ?_, ht⟩
  have hend : issueAt c.g rivals false false (s.elapse dt) = c.effect (c.bookkeep t0) := by
    rw [issueAt_fetched (h.elapse dt) rivals c hplan hall hf, finishTrap, ht.own]
    simp only [htrap]
  have hcrp : t0.crp = (s.elapse dt).crp := by rw [hf.state]
  rw [exec_instructionIssue dt rivals hav h, hend, holdsFollow_same _ _ (by rw [ht.crp, hcrp])]

/-- A trigger issues, its accesses granted, that leaves its barge with the parts r. -/
theorem reach_issuesTo {s : State} {dt : Nat} {g : BargeIx} {rivals : List Rival} {i : Insn} {F : Barge → Barge} {r : Reach}
    (hav : Available s) (hr : Ready s g i) (hdone : (s.barges.get g).done = [])
    (hplan : plan g (s.elapse dt) = .go (mkCtx g i (s.barges.get g))) {made : List DoneAccess}
    (hfetch : let c := mkCtx g i (s.barges.get g); ∃ t at', fetchAll g placeUnit rivals (c.accesses (s.barges.get g)) (s.elapse dt) = (true, t) ∧
      Fetched g at' made (s.elapse dt) t)
    (hoperate : let c := mkCtx g i (s.barges.get g)
      ∀ t, bclkCount t (basinOf g) = bclkCount (s.elapse dt) (basinOf g) → (t.pwm = s.pwm ∧ t.fio = s.fio ∧ t.tl = s.tl) →
        (∃ lines n line d, t.barges.get g = (s.barges.get g).issuing made lines n line d) →
        c.bru (c.operate t) = t.modBarge g fun k => c.advance (F k))
    (hF : ∀ lines n line d, let k := (s.barges.get g).issuing made lines n line d; F k = k.withReach r) :
    IssuesTo s dt g rivals ((s.barges.get g).pc + 1) fun y => y.reach = r := by
  obtain ⟨t0, at', hall, hf⟩ := hfetch
  obtain ⟨-, -, htrap, -⟩ := hr.boundary
  have hb : t0.barges.get g = { s.barges.get g with done := made } := by
    rw [hf.barge, State.elapse_barges, hdone, List.nil_append]
  obtain ⟨lines, n, line, d, hk⟩ :=
    (mkCtx g i (s.barges.get g)).kept_eq (bclkCount t0 (basinOf g)) (debugAllowed t0) (t0.barges.get g)
  have hkept : (mkCtx g i (s.barges.get g)).kept (bclkCount t0 (basinOf g)) (debugAllowed t0) (t0.barges.get g) =
      (s.barges.get g).issuing made lines n line d := by rw [hk, hb]; rfl
  have hbook := bookkeep_sameButCode (mkCtx g i (s.barges.get g)) t0
  have hop := hoperate ((mkCtx g i (s.barges.get g)).bookkeep t0) ((bclkCount_bookkeep _ _ _).trans (hf.bclkCount _))
    ⟨by rw [hbook.state, State.modBarge, hf.state]; rfl, by rw [hbook.state, State.modBarge, hf.state]; rfl,
      by rw [hbook.state, State.modBarge, hf.state]; rfl⟩
    ⟨lines, n, line, d, by rw [hbook.barges, State.modBarge_barges, mkCtx_g, vmod_get_self, hkept]⟩
  have hl := leaves_after_bookkeep (c := mkCtx g i (s.barges.get g)) (s := t0)
    (t := (mkCtx g i (s.barges.get g)).bru ((mkCtx g i (s.barges.get g)).operate ((mkCtx g i (s.barges.get g)).bookkeep t0)))
    (fun k => (mkCtx g i (s.barges.get g)).advance (F k)) (by rw [hop]; rfl) (by rw [hop]; simp) (by rw [hop]; rfl)
  rw [mkCtx_g, hkept, hF] at hl
  have hfmt : fmtOf (mkCtx g i (s.barges.get g)).i ≠ 3 := hr.issues
  obtain ⟨t, hexec, hleaves⟩ := exec_fetched dt rivals hav hr hplan rfl hall hf hl htrap
  refine ⟨t, hexec, ⟨?_, ?_, ?_, ?_, ?_, ?_, ?_⟩, fun k hk => ?_, sameMemory_of_mems (hleaves.mems.trans hf.mems)⟩
  · exact (congrArg (·.pc) hleaves.own).trans (if_neg fun e => hfmt e.1)
  · exact congrArg (·.count) hleaves.own
  · exact congrArg (·.vital) hleaves.own
  · exact congrArg (·.ordinary) hleaves.own
  · exact congrArg (·.psw) hleaves.own
  · exact congrArg (·.flags) hleaves.own
  · exact congrArg Barge.reach hleaves.own
  · rw [hleaves.others k hk, hf.other hk]
    rfl

/-- Without an access nothing is fetched. -/
theorem fetch_none {s : State} {g : BargeIx} (rivals : List Rival) {c : Ctx} (h : c.accesses (s.barges.get g) = []) (dt : Nat) :
    ∃ t at', fetchAll g placeUnit rivals (c.accesses (s.barges.get g)) (s.elapse dt) = (true, t) ∧ Fetched g at' [] (s.elapse dt) t := by
  rw [h]
  exact ⟨_, _, rfl, .refl g _⟩

/-- Accesses at banks that are quiet, free of rivals and asked once are all made. -/
theorem fetch_granted {s : State} {g : BargeIx} {rivals : List Rival} {c : Ctx} {xs : List (Nat × Nat × Nat)}
    (hxs : c.accesses (s.barges.get g) = xs) (hdone : (s.barges.get g).done = []) (dt : Nat)
    (hfree : PortsFree (s.elapse dt) (basinOf g)) (halone : ∀ k ∈ banksOf xs, ∀ r ∈ rivals, r.bank ≠ k) (honce : (banksOf xs).Nodup)
    (hclean : ∀ w, (s.basins.get (basinOf g)).mem.mark w = none) :
    ∃ t at', fetchAll g placeUnit rivals (c.accesses (s.barges.get g)) (s.elapse dt) = (true, t) ∧
      Fetched g at' (xs.map (readDone (s.basins.get (basinOf g)).mem)) (s.elapse dt) t := by
  rw [hxs]
  have hmake : ((s.elapse dt).barges.get g).toMake xs = xs := by
    refine List.filter_eq_self.2 fun x _ => ?_
    rw [State.elapse_barges, Barge.hasDone, hdone]
    rfl
  have hA := portAMem_of_free (s.elapse dt) (basinOf g) hfree.2
  obtain ⟨hall, hf⟩ := fetchAll_free g placeUnit rivals xs (s.elapse dt)
    ⟨fun k _ => hfree.1 k, by rw [hmake]; exact halone, by rw [hmake]; exact honce⟩ (by rw [hA]; exact hclean)
  rw [hmake, hA] at hf
  exact ⟨_, _, Prod.ext hall rfl, hf⟩

end Sys2Proof.Machine
end

section
/-! The checks, the operation and the folds of a trigger of the LSU, MAC, XLU, IOU or SIG (R44, R157 to R165, R443) (O16). -/

namespace Sys2Proof.Machine

/-! ### The checks of such a trigger (R44, R443) -/

theorem effBasin_synced (s : State) (g : BargeIx) (h : (s.barges.get g).syPend = []) : effBasin g s = s.basins.get (basinOf g) := by
  simp [effBasin, h]

/-- The units that the statement of O16 triggers. -/
def reachUnits : List TrigUnit := [.lsu, .mac, .xlu, .iou, .sig]

section
variable {s : State} {g : BargeIx} {i : Insn} {u : TrigUnit} {op : Nat} {v : Word} {c : Ctx} {b : Barge}

theorem Ctx.Fires.no_others (h : c.Fires b u op v) (hu : u ∈ reachUnits) :
    ∀ x ∈ [TrigUnit.alu0, .alu1, .mul, .vmul, .vchk, .cnt, .rpt, .bru], c.trig x = none := by
  intro x hx
  refine h.trig_ne ?_
  rintro rfl
  revert hu hx
  cases u <;> decide

/-- A trigger of such a unit passes the checks that its access, its address and its fold pass. -/
theorem plan_reach (hr : Ready s g i) (ht : Triggers s g i u op v) (hu : u ∈ reachUnits) (htag : pswT (s.barges.get g).psw = false)
    (hacc : (mkCtx g i (s.barges.get g)).accessFaults (s.basins.get (basinOf g)) = none)
    (halign : (mkCtx g i (s.barges.get g)).alignFault = none) (hiou : (mkCtx g i (s.barges.get g)).iouFault s = none)
    (hsig : ((mkCtx g i (s.barges.get g)).sigAfter s (s.barges.get g).sig).isSome = true)
    (hsoft : (mkCtx g i (s.barges.get g)).softHold s = false) (hhard : (mkCtx g i (s.barges.get g)).hardHold s = false) :
    plan g s = .go (mkCtx g i (s.barges.get g)) := by
  have h := triggers_fires ht
  obtain ⟨m, hmoves, -, -, -, hxlu, hiousrc⟩ := ht
  have hbru : (mkCtx g i (s.barges.get g)).trig .bru = none := h.no_others hu _ (by decide)
  refine plan_ready hr (interlocked_eq_false fun m' hm' => ?_) ?_ ?_ hsoft hhard
    (wideHold_eq_false (.inl (h.acts_length.trans_le (by decide))))
  · rw [hmoves] at hm'
    obtain rfl := List.mem_singleton.1 (List.mem_filter.1 hm').1
    exact ⟨hxlu, hiousrc⟩
  · simp [Ctx.returnWaits, hbru]
  · have htagged : (mkCtx g i (s.barges.get g)).tagFault = false := by simp [Ctx.tagFault, h.tagMode htag]
    have hret : (mkCtx g i (s.barges.get g)).returnFault s = none := by simp [Ctx.returnFault, hbru]
    have hsome : ((mkCtx g i (s.barges.get g)).sigAfter s (s.barges.get g).sig).isNone = false := by
      rw [← Option.not_isSome, hsig]
      rfl
    simp [Ctx.trigFault, htagged, effBasin_synced s g hr.syPend, hacc, halign, hiou, hret, hsome]

theorem Ctx.Fires.lsuAccess_none (h : c.Fires b u op v) (hu : u ≠ .lsu) : c.lsuAccess = none := by
  simp [Ctx.lsuAccess, h.trig_ne hu]

theorem Ctx.Fires.macFetches_none (h : c.Fires b u op v) (hu : u ≠ .mac) : c.macFetches = false := by
  simp [Ctx.macFetches, h.trig_ne hu]

theorem Ctx.Fires.memLoad_none (h : c.Fires b u op v) (hu : u ≠ .lsu) (k : Barge) : c.memLoad k = none := by
  simp [Ctx.memLoad, h.lsuAccess_none hu]

theorem Ctx.Fires.alignFault_none (h : c.Fires b u op v) (hu : u ≠ .xlu) : c.alignFault = none := by
  simp [Ctx.alignFault, Ctx.xluAccess, h.trig_ne hu]

theorem Ctx.Fires.iouFault_none (h : c.Fires b u op v) (hu : u ≠ .iou) (s : State) : c.iouFault s = none := by
  simp [Ctx.iouFault, Ctx.iouAccess, h.trig_ne hu]

theorem Ctx.Fires.gates_none (h : c.Fires b u op v) (hu : u ∈ reachUnits) : c.gates = false := by
  simp [Ctx.gates, h.no_others hu .bru (by decide)]

/-- No hold of its own but for the XLU's places and the IOU's operation (R44). -/
theorem Ctx.Fires.softHold_none (h : c.Fires b u op v) (hu : u ∈ reachUnits) (hx : u ≠ .xlu) (hi : u ≠ .iou) (s : State) :
    c.softHold s = false := by
  simp [Ctx.softHold, h.trig_ne hx, h.trig_ne hi, h.gates_none hu]

theorem Ctx.Fires.accessFaults_none (h : c.Fires b u op v) (hl : u ≠ .lsu) (hm : u ≠ .mac) (x : Basin) : c.accessFaults x = none := by
  simp [Ctx.accessFaults, h.lsuAccess_none hl, h.macFetches_none hm]

theorem Ctx.Fires.hardHold_none (h : c.Fires b u op v) (hu : u ∈ reachUnits) (hl : u ≠ .lsu) (hm : u ≠ .mac) (s : State) :
    c.hardHold s = false := by
  simp [Ctx.hardHold, h.lsuAccess_none hl, h.memLoad_none hl, h.macFetches_none hm, h.no_others hu .vmul (by decide)]

theorem Ctx.Fires.accesses_none (h : c.Fires b u op v) (hl : u ≠ .lsu) (hm : u ≠ .mac) (k : Barge) : c.accesses k = [] := by
  simp [Ctx.accesses, h.memLoad_none hl, h.macFetches_none hm]

/-! ### Its operation -/

/-- The signature after the instruction's folds, and no other register. -/
theorem Ctx.Fires.moves_sig (h : c.Fires b u op v) (sg : Sig) (k : Barge) : c.moves sg k = { k with sig := sg } := by
  obtain ⟨m, hdst, hacts⟩ := h.acts
  simp only [Ctx.moves, h.writes_flags, Bool.false_eq_true, if_false, hacts, List.foldl_cons, List.foldl_nil, regMove, hdst]
  rfl

/-- The instruction's other units have nothing to do. -/
theorem Ctx.Fires.operate (h : c.Fires b u op v) (hu : u ∈ reachUnits) (t : State) {sg : Sig}
    (hsg : c.sigAfter t (t.barges.get c.g).sig = some sg) :
    c.bru (c.operate t) = (((c.lsu (t.modBarge c.g fun k => { k with sig := sg })).modBarge c.g c.mac).modBarge c.g fun k =>
      c.iou (t.barges.get c.g).storeSeq (c.xlu (t.barges.get c.g).storeSeq k)).modBarge c.g c.advance := by
  have hno := h.no_others hu
  have hbru : ∀ s, c.bru s = s := fun s => by simp [Ctx.bru, hno .bru (by decide)]
  have hcnt : ∀ s, c.cnt s = s := fun s => by simp [Ctx.cnt, hno .cnt (by decide)]
  have hrpt : ∀ n k, c.rpt n k = k := fun n k => by simp [Ctx.rpt, hno .rpt (by decide)]
  have hmul : ∀ k, c.mul k = k := fun k => by simp [Ctx.mul, hno .mul (by decide)]
  have halu : ∀ k n, c.vchk (c.vmul n (c.alu .alu1 c.v.u.alu1o (c.trig .alu1) (c.alu .alu0 c.v.u.alu0o (c.trig .alu0) k))) = k :=
    fun k n => by simp [Ctx.vchk, Ctx.vmul, Ctx.alu, hno .alu0 (by decide), hno .alu1 (by decide), hno .vmul (by decide),
      hno .vchk (by decide)]
  have hmoves : c.moves sg = fun k => { k with sig := sg } := funext (h.moves_sig sg)
  rw [hbru]
  unfold Ctx.operate
  simp only [hsg, Option.getD_some, hmoves, hcnt, hrpt, hmul, halu, State.modBarge_same]

theorem Ctx.Fires.lsu_none (h : c.Fires b u op v) (hu : u ≠ .lsu) (t : State) : c.lsu t = t := by
  simp [Ctx.lsu, h.trig_ne hu]

theorem Ctx.Fires.mac_none (h : c.Fires b u op v) (hu : u ≠ .mac) : c.mac = id := funext fun k => by
  simp [Ctx.mac, h.trig_ne hu]

theorem Ctx.Fires.xlu_none (h : c.Fires b u op v) (hu : u ≠ .xlu) (n : Nat) : c.xlu n = id := funext fun k => by
  simp [Ctx.xlu, Ctx.xluAccess, h.trig_ne hu]

theorem Ctx.Fires.iou_none (h : c.Fires b u op v) (hu : u ≠ .iou) (n : Nat) : c.iou n = id := funext fun k => by
  simp [Ctx.iou, Ctx.iouAccess, h.trig_ne hu]

/-! ### Its folds (R157 to R165) -/

theorem Ctx.Fires.lsuFold_none (h : c.Fires b u op v) (hu : u ≠ .lsu) : c.lsuFold = some := funext fun x => by
  simp [Ctx.lsuFold, h.trig_ne hu]

theorem Ctx.Fires.xluFold_none (h : c.Fires b u op v) (hu : u ≠ .xlu) : c.xluFold = some := funext fun x => by
  simp [Ctx.xluFold, h.trig_ne hu]

theorem Ctx.Fires.iouFold_none (h : c.Fires b u op v) (hu : u ≠ .iou) (t : State) : c.iouFold t = some := funext fun x => by
  simp [Ctx.iouFold, Ctx.iouAccess, h.trig_ne hu]

theorem Ctx.Fires.sigFold_none (h : c.Fires b u op v) (hu : u ≠ .sig) : c.sigFold = some := funext fun x => by
  simp [Ctx.sigFold, h.trig_ne hu]

theorem Ctx.Fires.rptFold_none (h : c.Fires b u op v) (hu : u ∈ reachUnits) : c.rptFold = some := funext fun x => by
  simp [Ctx.rptFold, h.no_others hu .rpt (by decide)]

theorem Ctx.Fires.sigAfter_lsu (h : c.Fires b .lsu op v) (t : State) (x : Sig) : c.sigAfter t x = c.lsuFold x := by
  simp only [Ctx.sigAfter, h.xluFold_none nofun, h.iouFold_none nofun, h.sigFold_none nofun, h.rptFold_none (by decide),
    Option.bind_fun_some]

theorem Ctx.Fires.sigAfter_mac (h : c.Fires b .mac op v) (t : State) (x : Sig) : c.sigAfter t x = some x := by
  simp only [Ctx.sigAfter, h.lsuFold_none nofun, h.xluFold_none nofun, h.iouFold_none nofun, h.sigFold_none nofun,
    h.rptFold_none (by decide), Option.bind_some]

theorem Ctx.Fires.sigAfter_xlu (h : c.Fires b .xlu op v) (t : State) (x : Sig) : c.sigAfter t x = c.xluFold x := by
  simp only [Ctx.sigAfter, h.lsuFold_none nofun, h.iouFold_none nofun, h.sigFold_none nofun, h.rptFold_none (by decide),
    Option.bind_some, Option.bind_fun_some]

theorem Ctx.Fires.sigAfter_iou (h : c.Fires b .iou op v) (t : State) (x : Sig) : c.sigAfter t x = c.iouFold t x := by
  simp only [Ctx.sigAfter, h.lsuFold_none nofun, h.xluFold_none nofun, h.sigFold_none nofun, h.rptFold_none (by decide),
    Option.bind_some, Option.bind_fun_some]

theorem Ctx.Fires.sigAfter_sig (h : c.Fires b .sig op v) (t : State) (x : Sig) : c.sigAfter t x = c.sigFold x := by
  simp only [Ctx.sigAfter, h.lsuFold_none nofun, h.xluFold_none nofun, h.iouFold_none nofun, h.rptFold_none (by decide),
    Option.bind_some, Option.bind_fun_some]

theorem Ctx.Fires.folds (h : c.Fires b u op v) : c.folds = (pswW b.psw && pswV b.psw) := by
  simp [Ctx.folds, Ctx.world, Ctx.vitalMode, h.view]

/-- A fold for which there is room (R165). -/
theorem foldIf_room {x : Sig} {n : Nat} (hroom : x.isOpen = true ∧ x.n.toNat + n ≤ 65535) (r : Nat) : foldIf x r n = some (x.fold r n) :=
  if_pos hroom

end

end Sys2Proof.Machine
end

section
/-! The LSU's access, and what it leaves of its barge (R59 to R65) (O16). -/

namespace Sys2Proof.Machine

/-! ### The LSU's access (R59 to R63) -/

/-- The first part of an access reaches to the next multiple of its size. -/
theorem partsOf_take (a : Int) (n : Nat) : (partsOf a n).take 1 = [{ addr := a, len := n - (a % (n : Int)).toNat }] := by
  unfold partsOf
  extract_lets r
  split
  · next h =>
    have hr : (a % (n : Int)).toNat = 0 := h
    rw [hr]
    rfl
  · rfl

theorem partsOf_length (a : Int) (n : Nat) : (partsOf a n).length = 1 ↔ (a % (n : Int)).toNat = 0 := by
  unfold partsOf
  extract_lets r
  split
  · next h => exact ⟨fun _ => h, fun _ => rfl⟩
  · next h => exact ⟨nofun, fun h' => absurd h' h⟩

theorem partsOf_ne_nil (a : Int) (n : Nat) : ∃ p ps, partsOf a n = p :: ps ∧ p.addr = a := by
  unfold partsOf
  extract_lets r
  split
  · exact ⟨_, _, rfl, rfl⟩
  · exact ⟨_, _, rfl, rfl⟩

theorem accessFault_nonneg {x : Basin} {pos : Fin 4} {world sup : Bool} {a : Int} {n : Nat}
    (h : accessFault x pos world sup (partsOf a n) = none) : 0 ≤ a := by
  obtain ⟨p, ps, hp, rfl⟩ := partsOf_ne_nil a n
  rw [hp] at h
  exact (accessFault_head h).1

/-- The barge with a store in its buffer (R61 to R64). -/
def Barge.stored (k : Barge) (a : Int) (n clk : Nat) (data : BitVec 72) (w : Bool) : Barge :=
  { k with
    stores := k.stores ++ storeEntries a n k.storeSeq clk data w
    storeSeq := k.storeSeq + (storeEntries a n k.storeSeq clk data w).length }

/-- The barge with a load begun (R61, R63, R65). -/
def Ctx.loaded (c : Ctx) (op : Nat) (a : Int) (n clk : Nat) (b : Barge) : Barge :=
  match youngest b a.toNat n with
  | some e => { b with flights := b.flights ++ loadFlights c.tagMode c.v.pc op (b.count + 3) a.toNat n (e.data.toNat % 512 ^ n) [] }
  | none =>
    let r := b.readOf 0
    let b1 := b.giveWay (bankOf a.toNat)
    if (partsOf a n).length = 1 then
      { b1 with flights := b1.flights ++ loadFlights c.tagMode c.v.pc op (b.count + 3) a.toNat n r.1 r.2 }
    else { b1 with second := some { since := clk, op := op, addr := a.toNat, size := n, first := r.1, ues := r.2, due := b.count + 3
                                    tagMode := c.tagMode, pc := c.v.pc } }

/-- A pointer after an op of mode 1 or 2 (R60). -/
def lsuMoved (op n : Nat) (p : Word) : Word := if lsuMode op = 1 then p + BitVec.ofNat 36 n else p - BitVec.ofNat 36 n

/-- The op's mode moves RD of a store, and RS of a load (R60). -/
def Barge.lsuStepped (k : Barge) (op n : Nat) : Barge :=
  if lsuMode op = 1 ∨ lsuMode op = 2 then
    if lsuStore op then { k with u := { k.u with rd := lsuMoved op n k.u.rd } } else { k with u := { k.u with rs := lsuMoved op n k.u.rs } }
  else k

section
variable {s : State} {dt : Nat} {g : BargeIx} {rivals : List Rival} {i : Insn} {op : Nat} {v : Word} {c : Ctx} {b : Barge} {a : Int}

theorem lsuUnits_fires (h : (mkCtx g i b).Fires b .lsu op v) : (mkCtx g i b).lsuUnits = b.u := by
  rw [Ctx.lsuUnits, h.view]
  rfl

theorem lsuAccess_fires (h : (mkCtx g i b).Fires b .lsu op v) (htag : pswT b.psw = false) (ha : lsuAddress false b.u op v = some a) :
    (mkCtx g i b).lsuAccess = some (op, a, lsuSize op) := by
  simp [Ctx.lsuAccess, h.trig, h.tagMode htag, lsuUnits_fires h, ha]

theorem writes_other (h : c.Fires b .lsu op v) {d : Dst} (hd : ∀ u o, d ≠ .trig u o) : c.writes d = false := by
  obtain ⟨m, hdst, hacts⟩ := h.acts
  simp only [Ctx.writes, hacts, List.any_cons, List.any_nil, Bool.or_false, hdst, beq_eq_false_iff_ne]
  exact fun e => hd _ _ e.symm

/-- The LSU's pointer, moved after its access. -/
theorem lsu_steps (h : c.Fires b .lsu op v) (n : Nat) (f : Barge → Barge) (t : State) :
    (if lsuMode op = 1 ∨ lsuMode op = 2 then
      (t.modBarge c.g f).modBarge c.g fun b =>
        if lsuStore op then (if c.writes .rd then b else { b with u := { b.u with rd := lsuMoved op n b.u.rd } })
        else if c.writes .rs then b else { b with u := { b.u with rs := lsuMoved op n b.u.rs } }
    else t.modBarge c.g f) = t.modBarge c.g fun k => (f k).lsuStepped op n := by
  have hrd : c.writes .rd = false := writes_other h (by simp)
  have hrs : c.writes .rs = false := writes_other h (by simp)
  unfold Barge.lsuStepped
  split
  · simp only [State.modBarge_modBarge, hrd, hrs, Bool.false_eq_true, if_false]
  · rfl

theorem lsu_store (h : c.Fires b .lsu op v) {n : Nat} (hacc : c.lsuAccess = some (op, a, n)) (hst : lsuStore op = true) (t : State) :
    c.lsu t = t.modBarge c.g fun k => (k.stored a n (bclkCount t (basinOf c.g))
      (if n = 8 then v ++ b.u.lsud else b.u.lsud.setWidth 72) (pswW b.psw)).lsuStepped op n := by
  rw [← lsu_steps h]
  simp only [Ctx.lsu, h.trig, hacc, hst, if_true, h.view, Ctx.world]
  rfl

theorem lsu_load (h : c.Fires b .lsu op v) {n : Nat} (hacc : c.lsuAccess = some (op, a, n)) (hst : lsuStore op = false) (t : State) :
    c.lsu t = t.modBarge c.g fun k => (c.loaded op a n (bclkCount t (basinOf c.g)) k).lsuStepped op n := by
  have hload : c.load op a n t = t.modBarge c.g (c.loaded op a n (bclkCount t (basinOf c.g))) := rfl
  rw [← lsu_steps h, ← hload]
  simp only [Ctx.lsu, h.trig, hacc, hst, Bool.false_eq_true, if_false]
  rfl

/-- The operation of an LSU trigger. -/
theorem lsu_operate (h : c.Fires b .lsu op v) {sg : Sig} {L : Barge → Barge} (t : State)
    (hsg : c.lsuFold (t.barges.get c.g).sig = some sg)
    (hL : c.lsu (t.modBarge c.g fun k => { k with sig := sg }) = (t.modBarge c.g fun k => { k with sig := sg }).modBarge c.g L) :
    c.bru (c.operate t) = t.modBarge c.g fun k => c.advance (L { k with sig := sg }) := by
  rw [h.operate (by decide) t ((h.sigAfter_lsu t _).trans hsg), hL, h.mac_none nofun, h.xlu_none nofun, h.iou_none nofun]
  simp only [State.modBarge_modBarge, id]

theorem accessFaults_lsu (h : (mkCtx g i b).Fires b .lsu op v) (htag : pswT b.psw = false) (ha : lsuAddress false b.u op v = some a)
    (x : Basin) (hfault : accessFault x (posOf g) (pswW b.psw) (pswL b.psw) (partsOf a (lsuSize op)) = none) :
    (mkCtx g i b).accessFaults x = none := by
  simp [Ctx.accessFaults, lsuAccess_fires h htag ha, h.macFetches_none nofun, Ctx.world, h.view, hfault]

/-- A load that no buffered store meets reads memory (R65). -/
theorem memLoad_lsu {n : Nat} (hacc : c.lsuAccess = some (op, a, n)) (k : Barge) :
    c.memLoad k = if (!lsuStore op && (youngest k a.toNat n).isNone) = true then some (op, a, n) else none := by
  rw [Ctx.memLoad, hacc]
  rfl

/-- The hold of an LSU access: of a store for its places, of a load for what it meets (R44, R64, R65, R214). -/
theorem hardHold_lsu (h : c.Fires b .lsu op v) {n : Nat} (hacc : c.lsuAccess = some (op, a, n)) (s : State)
    (hho : ∀ p ∈ partsOf a n, inHandover (s.basins.get (basinOf c.g)) (bankOf p.addr.toNat) = false)
    (hstore : lsuStore op = true → (s.barges.get c.g).stores.length + (partsOf a n).length ≤ 4)
    (hmeets : lsuStore op = false → ∀ e, youngest (s.barges.get c.g) a.toNat n = some e → e.addr = a.toNat ∧ e.size = n)
    (hfirst : lsuStore op = false → youngest (s.barges.get c.g) a.toNat n = none → storeFirst (s.barges.get c.g) (firstBank a n) = false) :
    c.hardHold s = false := by
  have hbanks : (partBanks a n).any (inHandover (s.basins.get (basinOf c.g))) = false := List.any_eq_false.2 fun k hk => by
    obtain ⟨p, hp, rfl⟩ := List.mem_map.1 (List.mem_dedup.1 hk)
    simp [hho p hp]
  have hvmul : c.trig .vmul = none := h.no_others (by decide) _ (by decide)
  simp only [Ctx.hardHold, memLoad_lsu hacc, hacc, h.macFetches_none nofun, hvmul, hbanks, Bool.false_and, Bool.or_false,
    Option.isSome_none, Bool.or_eq_false_iff]
  by_cases hst : lsuStore op = true
  · simp [hst, hstore hst]
  · rw [Bool.not_eq_true] at hst
    cases hy : youngest (s.barges.get c.g) a.toNat n with
    | none => simpa [hst, hfirst hst hy] using hbanks
    | some e =>
      obtain ⟨haddr, hsize⟩ := hmeets hst e hy
      simp [hst, haddr, hsize]

end

end Sys2Proof.Machine
end

section
/-! The issue of an LSU store (R61 to R64, R157) (O16). -/

namespace Sys2Proof.Machine

section
variable {s : State} {dt : Nat} {g : BargeIx} {rivals : List Rival} {i : Insn} {op : Nat} {v : Word} {a : Int}

/-- An LSU trigger issues that passes its checks and whose accesses, if it makes any, are granted. -/
theorem lsu_issuesTo (hav : Available s) (hr : Ready s g i) (hdone : (s.barges.get g).done = []) (htag : pswT (s.barges.get g).psw = false)
    (ht : Triggers s g i .lsu op v) (ha : lsuAddress false (s.barges.get g).u op v = some a)
    (hfault : accessFault (s.basins.get (basinOf g)) (posOf g) (pswW (s.barges.get g).psw) (pswL (s.barges.get g).psw)
      (partsOf a (lsuSize op)) = none)
    (hho : ∀ p ∈ partsOf a (lsuSize op), inHandover (s.basins.get (basinOf g)) (bankOf p.addr.toNat) = false)
    (hstore : lsuStore op = true → (s.barges.get g).stores.length + (partsOf a (lsuSize op)).length ≤ 4)
    (hmeets : lsuStore op = false → ∀ e, youngest (s.barges.get g) a.toNat (lsuSize op) = some e → e.addr = a.toNat ∧ e.size = lsuSize op)
    (hfirst : lsuStore op = false → youngest (s.barges.get g) a.toNat (lsuSize op) = none →
      storeFirst (s.barges.get g) (firstBank a (lsuSize op)) = false)
    {sg : Sig} (hsg : (mkCtx g i (s.barges.get g)).lsuFold (s.barges.get g).sig = some sg) {made : List DoneAccess}
    (hfetch : ∃ t at', fetchAll g placeUnit rivals ((mkCtx g i (s.barges.get g)).accesses (s.barges.get g)) (s.elapse dt) = (true, t) ∧
      Fetched g at' made (s.elapse dt) t) {L : Barge → Barge} {r : Reach}
    (hL : ∀ t, bclkCount t (basinOf g) = bclkCount (s.elapse dt) (basinOf g) → (mkCtx g i (s.barges.get g)).lsu t = t.modBarge g L)
    (hF : ∀ lines n line d, L { (s.barges.get g).issuing made lines n line d with sig := sg } =
      ((s.barges.get g).issuing made lines n line d).withReach r) :
    IssuesTo s dt g rivals ((s.barges.get g).pc + 1) fun y => y.reach = r := by
  have h := triggers_fires ht
  have hacc := lsuAccess_fires h htag ha
  have hplan : plan g (s.elapse dt) = .go (mkCtx g i (s.barges.get g)) := by
    refine plan_reach (s := s.elapse dt) (hr.elapse dt) ht (by decide) htag (accessFaults_lsu h htag ha _ hfault)
      (h.alignFault_none nofun) (h.iouFault_none nofun _) ?_ (h.softHold_none (by decide) nofun nofun _)
      (hardHold_lsu h hacc (s.elapse dt) hho hstore hmeets hfirst)
    rw [State.elapse_barges, h.sigAfter_lsu]
    exact Option.isSome_of_eq_some hsg
  refine reach_issuesTo (F := fun k => L { k with sig := sg }) hav hr hdone hplan hfetch (fun t hclk _ hb => ?_) hF
  obtain ⟨lines, n, line, d, hb⟩ := hb
  exact lsu_operate h t (by rw [mkCtx_g, hb]; exact hsg) (hL _ hclk)

/-- The fold of a store in the vital state (R157, R158), or of none. -/
theorem lsuFold_store (ht : Triggers s g i .lsu op v) (hst : lsuStore op = true)
    (hroom : (pswW (s.barges.get g).psw && pswV (s.barges.get g).psw) = true →
      (s.barges.get g).sig.isOpen = true ∧ (s.barges.get g).sig.n.toNat + 1 ≤ 65535) :
    (mkCtx g i (s.barges.get g)).lsuFold (s.barges.get g).sig = some
      (if (pswW (s.barges.get g).psw && pswV (s.barges.get g).psw) = true then (s.barges.get g).sig.fold
        (if lsuSize op = 8 then (residue (s.barges.get g).u.lsud + residue v) % 4093 else residue (s.barges.get g).u.lsud) 1
      else (s.barges.get g).sig) := by
  have h := triggers_fires ht
  simp only [Ctx.lsuFold, h.trig, hst, true_and, h.folds, h.view]
  split
  · next hv => exact foldIf_room (hroom hv) _
  · rfl

theorem lsuFold_load (ht : Triggers s g i .lsu op v) (hst : lsuStore op = false) :
    (mkCtx g i (s.barges.get g)).lsuFold (s.barges.get g).sig = some (s.barges.get g).sig := by
  simp [Ctx.lsuFold, (triggers_fires ht).trig, hst]

/-- The units' pointers after an op of its mode (R60). -/
def Units.lsuStepped (u : Units) (op n : Nat) : Units :=
  if lsuMode op = 1 ∨ lsuMode op = 2 then
    if lsuStore op then { u with rd := lsuMoved op n u.rd } else { u with rs := lsuMoved op n u.rs }
  else u

theorem Units.lsuStepped_store {op : Nat} (hst : lsuStore op = true) (u : Units) (n : Nat) :
    u.lsuStepped op n = if lsuMode op = 1 ∨ lsuMode op = 2 then { u with rd := lsuMoved op n u.rd } else u := by
  simp only [Units.lsuStepped, hst, if_true]

theorem Units.lsuStepped_load {op : Nat} (hst : lsuStore op = false) (u : Units) (n : Nat) :
    u.lsuStepped op n = if lsuMode op = 1 ∨ lsuMode op = 2 then { u with rs := lsuMoved op n u.rs } else u := by
  simp only [Units.lsuStepped, hst, Bool.false_eq_true, if_false]

theorem lsuStepped_withReach (k : Barge) (r : Reach) (op n : Nat) :
    (k.withReach r).lsuStepped op n = k.withReach { r with u := r.u.lsuStepped op n } := by
  unfold Barge.lsuStepped Units.lsuStepped
  split
  · split <;> rfl
  · rfl

/-- LSU's stores (R61 to R64, R157). -/
theorem store_issuesTo (hav : Available s) (hr : Ready s g i) (hdone : (s.barges.get g).done = [])
    (htag : pswT (s.barges.get g).psw = false) (ht : Triggers s g i .lsu op v) (ha : lsuAddress false (s.barges.get g).u op v = some a)
    (hfault : accessFault (s.basins.get (basinOf g)) (posOf g) (pswW (s.barges.get g).psw) (pswL (s.barges.get g).psw)
      (partsOf a (lsuSize op)) = none)
    (hho : ∀ p ∈ partsOf a (lsuSize op), inHandover (s.basins.get (basinOf g)) (bankOf p.addr.toNat) = false)
    (hst : lsuStore op = true) (hplace : (s.barges.get g).stores.length + (partsOf a (lsuSize op)).length ≤ 4)
    (hroom : (pswW (s.barges.get g).psw && pswV (s.barges.get g).psw) = true →
      (s.barges.get g).sig.isOpen = true ∧ (s.barges.get g).sig.n.toNat + 1 ≤ 65535) :
    IssuesTo s dt g rivals ((s.barges.get g).pc + 1) fun y =>
      let b := s.barges.get g
      let n := lsuSize op
      y.stores = b.stores ++ storeEntries a n b.storeSeq (bclkCount (s.elapse dt) (basinOf g))
        (if n = 8 then v ++ b.u.lsud else b.u.lsud.setWidth 72) (pswW b.psw) ∧
      y.flights = [] ∧ y.u = (if lsuMode op = 1 ∨ lsuMode op = 2 then { b.u with rd := lsuMoved op n b.u.rd } else b.u) ∧
      y.sig = if (pswW b.psw && pswV b.psw) = true then
          b.sig.fold (if n = 8 then (residue b.u.lsud + residue v) % 4093 else residue b.u.lsud) 1 else b.sig := by
  have h := triggers_fires ht
  have hacc := lsuAccess_fires h htag ha
  have hnone : (mkCtx g i (s.barges.get g)).accesses (s.barges.get g) = [] := by
    simp [Ctx.accesses, memLoad_lsu hacc, hst, h.macFetches_none nofun]
  have hsg := lsuFold_store ht hst hroom
  generalize hsig : (if (pswW (s.barges.get g).psw && pswV (s.barges.get g).psw) = true then (s.barges.get g).sig.fold
        (if lsuSize op = 8 then (residue (s.barges.get g).u.lsud + residue v) % 4093 else residue (s.barges.get g).u.lsud) 1
      else (s.barges.get g).sig) = sg at hsg
  let data := if lsuSize op = 8 then v ++ (s.barges.get g).u.lsud else (s.barges.get g).u.lsud.setWidth 72
  let entries := storeEntries a (lsuSize op) (s.barges.get g).storeSeq (bclkCount (s.elapse dt) (basinOf g)) data (pswW (s.barges.get g).psw)
  refine IssuesTo.imp (lsu_issuesTo hav hr hdone htag ht ha hfault hho (fun _ => hplace) (fun h => absurd (hst.symm.trans h) nofun)
    (fun h => absurd (hst.symm.trans h) nofun) hsg (fetch_none rivals hnone dt)
    (L := fun k => (k.stored a (lsuSize op) (bclkCount (s.elapse dt) (basinOf g)) data (pswW (s.barges.get g).psw)).lsuStepped op
      (lsuSize op))
    (fun t hclk => by rw [lsu_store h hacc hst, mkCtx_g, hclk]) fun lines n line d =>
      lsuStepped_withReach _ { (s.barges.get g).reach with
        sig := sg, stores := (s.barges.get g).stores ++ entries, storeSeq := (s.barges.get g).storeSeq + entries.length } op _)
    fun y hy => ⟨congrArg Reach.stores hy, (congrArg Reach.flights hy).trans hr.flights,
      (congrArg Reach.u hy).trans (Units.lsuStepped_store hst _ _),
      (congrArg Reach.sig hy).trans hsig.symm⟩

end

end Sys2Proof.Machine
end

section
/-! The issue of an LSU load, read from memory or forwarded (R61, R63 to R65) (O16). -/

namespace Sys2Proof.Machine

theorem youngest_of_unmet {b : Barge} {a n : Nat} (h : ∀ e ∈ b.stores, e.meets a n = false) : youngest b a n = none :=
  List.find?_eq_none.2 fun e he => by simp [h e (List.mem_reverse.1 he)]

theorem giveWay_stores {k b : Barge} (h : k.stores = b.stores) (bank : BankIx) : (k.giveWay bank).stores = (b.giveWay bank).stores := by
  unfold Barge.giveWay
  rw [h]
  split
  · split
    · rfl
    · exact h
  · exact h

theorem giveWay_eq (k : Barge) (bank : BankIx) : k.giveWay bank = { k with stores := (k.giveWay bank).stores } := by
  unfold Barge.giveWay
  split
  · split <;> rfl
  · rfl

/-- A store that gives way keeps its place among the stores. -/
theorem giveWay_seqs (k : Barge) (bank : BankIx) : (k.giveWay bank).stores.map (·.seq) = k.stores.map (·.seq) := by
  unfold Barge.giveWay
  split
  · next e rest hs =>
    split
    · rw [hs]
      rfl
    · rfl
  · rfl

theorem toNat_emod_natCast {a : Int} (ha : 0 ≤ a) (n : Nat) : (a % (n : Int)).toNat = a.toNat % n := by
  obtain ⟨m, rfl⟩ := Int.eq_ofNat_of_zero_le ha
  norm_cast

section
variable {s : State} {dt : Nat} {g : BargeIx} {rivals : List Rival} {i : Insn} {op : Nat} {v : Word} {c : Ctx} {b : Barge} {a : Int}

/-- A load that reads memory asks for its first part (R63, R65). -/
theorem accesses_load (h : c.Fires b .lsu op v) {n : Nat} (hacc : c.lsuAccess = some (op, a, n)) (hst : lsuStore op = false) {k : Barge}
    (hy : youngest k a.toNat n = none) (ha : 0 ≤ a) : c.accesses k = [(0, a.toNat, n - a.toNat % n)] := by
  simp [Ctx.accesses, memLoad_lsu hacc, hst, hy, h.macFetches_none nofun, partsOf_take, toNat_emod_natCast ha]

theorem accesses_forwarded (h : c.Fires b .lsu op v) {n : Nat} (hacc : c.lsuAccess = some (op, a, n)) {k : Barge}
    {e : StoreEntry} (hy : youngest k a.toNat n = some e) : c.accesses k = [] := by
  simp [Ctx.accesses, memLoad_lsu hacc, hy, h.macFetches_none nofun]

/-- A load forwarded from the store buffer (R65). -/
theorem loaded_forwarded (h : (mkCtx g i b).Fires b .lsu op v) (htag : pswT b.psw = false) {k : Barge} {n clk : Nat} {e : StoreEntry}
    (hy : youngest k a.toNat n = some e) : (mkCtx g i b).loaded op a n clk k = k.withReach { k.reach with
      flights := k.flights ++ loadFlights false b.pc op (k.count + 3) a.toNat n (e.data.toNat % 512 ^ n) [] } := by
  simp only [Ctx.loaded, hy, h.tagMode htag, h.view]
  rfl

/-- A load read from memory, whole or its first part, for which the barge's oldest store gives way (R63, R64). -/
def Barge.readOn (k : Barge) (op : Nat) (a : Int) (n clk : Nat) (raw : Nat) (pc : BitVec 14) : Reach :=
  { k.reach with
    stores := (k.giveWay (bankOf a.toNat)).stores
    flights := (if (partsOf a n).length = 1 then k.flights ++ loadFlights false pc op (k.count + 3) a.toNat n raw [] else k.flights)
    second := (if (partsOf a n).length = 1 then k.second
      else some { since := clk, op := op, addr := a.toNat, size := n, first := raw, ues := [], due := k.count + 3
                  tagMode := false, pc := pc }) }

theorem loaded_read (h : (mkCtx g i b).Fires b .lsu op v) (htag : pswT b.psw = false) {k : Barge} {n clk : Nat} {raw : Nat}
    (hy : youngest k a.toNat n = none) (hraw : k.readOf 0 = (raw, [])) :
    (mkCtx g i b).loaded op a n clk k = k.withReach (k.readOn op a n clk raw b.pc) := by
  simp only [Ctx.loaded, hy, h.tagMode htag, h.view, hraw]
  rw [giveWay_eq, Barge.readOn]
  split <;> rfl

/-- What a barge at its instruction's bookkeeping reads on is what it would read on before it. -/
theorem readOn_issuing (k : Barge) (made : List DoneAccess) (lines : List HeldLine) (m : Nat) (line : Option (BitVec 12)) (d : Dbg)
    (op : Nat) (a : Int) (n clk raw : Nat) (pc : BitVec 14) :
    (k.issuing made lines m line d).readOn op a n clk raw pc = k.readOn op a n clk raw pc := by
  have hst := giveWay_stores (k := k.issuing made lines m line d) (b := k) rfl (bankOf a.toNat)
  rw [Barge.readOn, hst]
  rfl

/-- LSU's loads from memory (R61, R63, R65). -/
theorem load_issuesTo (hav : Available s) (hr : Ready s g i) (hdone : (s.barges.get g).done = [])
    (htag : pswT (s.barges.get g).psw = false) (ht : Triggers s g i .lsu op v) (ha : lsuAddress false (s.barges.get g).u op v = some a)
    (hfault : accessFault (s.basins.get (basinOf g)) (posOf g) (pswW (s.barges.get g).psw) (pswL (s.barges.get g).psw)
      (partsOf a (lsuSize op)) = none)
    (hho : ∀ p ∈ partsOf a (lsuSize op), inHandover (s.basins.get (basinOf g)) (bankOf p.addr.toNat) = false)
    (hst : lsuStore op = false) (hunmet : ∀ e ∈ (s.barges.get g).stores, e.meets a.toNat (lsuSize op) = false)
    (hfirst : storeFirst (s.barges.get g) (firstBank a (lsuSize op)) = false) (hfree : PortsFree (s.elapse dt) (basinOf g))
    (halone : ∀ r ∈ rivals, r.bank ≠ bankOf a.toNat) (hclean : ∀ k, (s.basins.get (basinOf g)).mem.mark k = none) :
    IssuesTo s dt g rivals ((s.barges.get g).pc + 1) fun y =>
      let b := s.barges.get g
      let n := lsuSize op
      let m := (s.basins.get (basinOf g)).mem
      (if (partsOf a n).length = 1 then
        y.second = none ∧ y.flights = loadFlights false b.pc op (b.count + 3) a.toNat n (m.read a.toNat n) []
      else
        let k := n - a.toNat % n
        y.flights = [] ∧ y.second = some { since := bclkCount (s.elapse dt) (basinOf g), op := op, addr := a.toNat, size := n
                                           first := m.read a.toNat k, ues := [], due := b.count + 3, tagMode := false, pc := b.pc }) ∧
      y.u = (if lsuMode op = 1 ∨ lsuMode op = 2 then { b.u with rs := lsuMoved op n b.u.rs } else b.u) ∧
      y.stores.map (·.seq) = b.stores.map (·.seq) := by
  have h := triggers_fires ht
  have hacc := lsuAccess_fires h htag ha
  have hy := youngest_of_unmet hunmet
  have hnn := accessFault_nonneg hfault
  obtain ⟨-, -, -, -, -, -, hsecond, -⟩ := hr.boundary
  have hacs := accesses_load h hacc hst hy hnn
  have hmod := toNat_emod_natCast hnn (lsuSize op)
  have hlen := partsOf_length a (lsuSize op)
  let made := [readDone (s.basins.get (basinOf g)).mem (0, a.toNat, lsuSize op - a.toNat % lsuSize op)]
  let r := (s.barges.get g).readOn op a (lsuSize op) (bclkCount (s.elapse dt) (basinOf g))
    ((s.basins.get (basinOf g)).mem.read a.toNat (lsuSize op - a.toNat % lsuSize op)) (s.barges.get g).pc
  have hF : ∀ lines n line d, ((mkCtx g i (s.barges.get g)).loaded op a (lsuSize op) (bclkCount (s.elapse dt) (basinOf g))
      ((s.barges.get g).issuing made lines n line d)).lsuStepped op (lsuSize op) =
      ((s.barges.get g).issuing made lines n line d).withReach { r with u := r.u.lsuStepped op (lsuSize op) } := by
    intro lines n line d
    rw [loaded_read (k := (s.barges.get g).issuing made lines n line d) h htag hy rfl, readOn_issuing, lsuStepped_withReach]
    rfl
  refine IssuesTo.imp (lsu_issuesTo hav hr hdone htag ht ha hfault hho (fun h => absurd (hst.symm.trans h) nofun)
    (fun _ e he => absurd (hy.symm.trans he) nofun) (fun _ _ => hfirst) (lsuFold_load ht hst)
    (fetch_granted hacs hdone dt hfree (fun k hk => by
      obtain rfl := List.mem_singleton.1 hk
      exact halone) (List.nodup_singleton _) hclean)
    (fun t hclk => by rw [lsu_load h hacc hst, mkCtx_g, hclk]) hF)
    fun y hy' => ⟨?_, (congrArg Reach.u hy').trans (Units.lsuStepped_load hst _ _), ?_⟩
  · have hfl : y.flights = _ := congrArg Reach.flights hy'
    have hse : y.second = _ := congrArg Reach.second hy'
    rw [hfl, hse]
    simp only [r, Barge.readOn, Barge.reach, hr.flights, hsecond]
    split
    · next h1 =>
      rw [hmod] at hlen
      rw [hlen.1 h1]
      exact ⟨rfl, rfl⟩
    · exact ⟨rfl, rfl⟩
  · exact (congrArg (List.map StoreEntry.seq) (congrArg Reach.stores hy')).trans (giveWay_seqs _ _)

/-- LSU's loads forwarded from the store buffer (R65). -/
theorem forward_issuesTo (hav : Available s) (hr : Ready s g i) (hdone : (s.barges.get g).done = [])
    (htag : pswT (s.barges.get g).psw = false) (ht : Triggers s g i .lsu op v) (ha : lsuAddress false (s.barges.get g).u op v = some a)
    (hfault : accessFault (s.basins.get (basinOf g)) (posOf g) (pswW (s.barges.get g).psw) (pswL (s.barges.get g).psw)
      (partsOf a (lsuSize op)) = none)
    (hho : ∀ p ∈ partsOf a (lsuSize op), inHandover (s.basins.get (basinOf g)) (bankOf p.addr.toNat) = false)
    (hst : lsuStore op = false) {e : StoreEntry} (hy : youngest (s.barges.get g) a.toNat (lsuSize op) = some e)
    (haddr : e.addr = a.toNat) (hsize : e.size = lsuSize op) :
    IssuesTo s dt g rivals ((s.barges.get g).pc + 1) fun y =>
      let b := s.barges.get g
      let n := lsuSize op
      y.flights = loadFlights false b.pc op (b.count + 3) a.toNat n (e.data.toNat % 512 ^ n) [] ∧ y.second = none ∧
      y.u = (if lsuMode op = 1 ∨ lsuMode op = 2 then { b.u with rs := lsuMoved op n b.u.rs } else b.u) ∧ y.stores = b.stores := by
  have h := triggers_fires ht
  have hacc := lsuAccess_fires h htag ha
  obtain ⟨-, -, -, -, -, -, hsecond, -⟩ := hr.boundary
  let r : Reach := { (s.barges.get g).reach with
    flights := (s.barges.get g).flights ++ loadFlights false (s.barges.get g).pc op ((s.barges.get g).count + 3) a.toNat (lsuSize op)
      (e.data.toNat % 512 ^ lsuSize op) [] }
  have hF : ∀ lines n line d, ((mkCtx g i (s.barges.get g)).loaded op a (lsuSize op) (bclkCount (s.elapse dt) (basinOf g))
      ((s.barges.get g).issuing [] lines n line d)).lsuStepped op (lsuSize op) =
      ((s.barges.get g).issuing [] lines n line d).withReach { r with u := r.u.lsuStepped op (lsuSize op) } := by
    intro lines n line d
    rw [loaded_forwarded (k := (s.barges.get g).issuing [] lines n line d) h htag hy, lsuStepped_withReach]
    rfl
  refine IssuesTo.imp (lsu_issuesTo hav hr hdone htag ht ha hfault hho (fun h => absurd (hst.symm.trans h) nofun)
    (fun _ e' he => by
      obtain rfl := Option.some.inj (hy.symm.trans he)
      exact ⟨haddr, hsize⟩) (fun _ hn => absurd (hy.symm.trans hn) nofun) (lsuFold_load ht hst)
    (fetch_none rivals (accesses_forwarded h hacc hy) dt)
    (fun t hclk => by rw [lsu_load h hacc hst, mkCtx_g, hclk]) hF)
    fun y hy' => ?_
  exact ⟨(congrArg Reach.flights hy').trans (by simp only [r, hr.flights, List.nil_append]), (congrArg Reach.second hy').trans hsecond,
    (congrArg Reach.u hy').trans (Units.lsuStepped_load hst _ _), congrArg Reach.stores hy'⟩

end

end Sys2Proof.Machine
end

section
/-! The MAC's operation (R72 to R76) (O16). -/

namespace Sys2Proof.Machine

/-! ### The MAC (R72 to R76) -/

def macPort (v : Word) : ResultPort := if bitsN v 0 2 = 0 then .mac0 else if bitsN v 0 2 = 1 then .mac1 else .mac2

/-- The MAC's registers after an op: its accumulator, and the pointers of an op that fetches (R74, R75). -/
def Units.macStepped (u : Units) (op : Nat) (v : Word) (a : BitVec 84) : Units :=
  { u with
    acc := vmodN u.acc (bitsN v 0 2) fun _ => a
    macxa := (if op ≤ 1 ∧ bit v 3 = false then macAdvance u.macxa u.macxs u.macxm else u.macxa)
    macya := (if op ≤ 1 ∧ bit v 3 = false then macAdvance u.macya u.macys u.macym else u.macya) }

/-- An op that fetches nothing does not depend on the words (R74). -/
theorem macOp_words {op : Nat} (h : ¬ op ≤ 1) (acc : BitVec 84) (x y x' y' t : Word) : macOp op acc x y t = macOp op acc x' y' t := by
  match op, h with
  | 0, h | 1, h => exact absurd (by decide) h
  | 2, _ | 3, _ | _ + 4, _ => simp only [macOp]

theorem word_div {m : Mem} {a : Nat} (h : 4 * (a / 4) = a) : m.word (a / 4) = BitVec.ofNat 36 (m.read a 4) := by
  rw [Mem.word, h]

theorem macAddrs_aligned (u : Units) : 4 * ((macAddrs u).1 / 4) = (macAddrs u).1 ∧ 4 * ((macAddrs u).2 / 4) = (macAddrs u).2 := by
  constructor <;> (simp only [macAddrs]; omega)

section
variable {s : State} {dt : Nat} {g : BargeIx} {rivals : List Rival} {i : Insn} {op : Nat} {v : Word} {b : Barge}

theorem macFetches_fires {c : Ctx} (h : c.Fires b .mac op v) : c.macFetches = decide (op ≤ 1) := by
  simp [Ctx.macFetches, h.trig]

/-- The operation of the MAC, with the words that its fetches read. -/
theorem mac_started (h : (mkCtx g i b).Fires b .mac op v) (hk : bitsN v 0 2 ≠ 3) {k : Barge} (hu : k.u = b.u) {x y : Word}
    (hx : op ≤ 1 → (k.readOf 1).2 = [] ∧ BitVec.ofNat 36 (k.readOf 1).1 = x)
    (hy : op ≤ 1 → (k.readOf 2).2 = [] ∧ BitVec.ofNat 36 (k.readOf 2).1 = y) :
    (mkCtx g i b).mac k = k.withReach { k.reach with
      flights := k.flights ++ [{ port := macPort v, due := k.count + 4, value := some (macOp op (vgetN b.u.acc (bitsN v 0 2) 0) x y v).2 }]
      u := b.u.macStepped op v (macOp op (vgetN b.u.acc (bitsN v 0 2) 0) x y v).1 } := by
  have hm : macOp op (vgetN b.u.acc (bitsN v 0 2) 0) (BitVec.ofNat 36 (k.readOf 1).1) (BitVec.ofNat 36 (k.readOf 2).1) v =
      macOp op (vgetN b.u.acc (bitsN v 0 2) 0) x y v := by
    by_cases hop : op ≤ 1
    · rw [(hx hop).2, (hy hop).2]
    · exact macOp_words hop _ _ _ _ _ _
  have hue : (if (!decide (op ≤ 1)) = true then none else if (!(k.readOf 1).2.isEmpty) = true then some (macAddrs b.u).1
      else if (!(k.readOf 2).2.isEmpty) = true then some (macAddrs b.u).2 else none) = none := by
    by_cases hop : op ≤ 1
    · simp [hop, (hx hop).1, (hy hop).1]
    · simp [hop]
  simp only [Ctx.mac, h.trig, macFetches_fires h, h.view]
  rw [hue]
  simp only [hk, if_false, hu, hm]
  generalize macOp op (vgetN b.u.acc (bitsN v 0 2) 0) x y v = r
  by_cases hadv : op ≤ 1 ∧ bit v 3 = false
  · simp [hadv, hu, Barge.withReach, Barge.reach, Barge.start, Units.macStepped, macPort]
  · simp [hadv, hu, Barge.withReach, Barge.reach, Barge.start, Units.macStepped, macPort]

end

end Sys2Proof.Machine
end

section
/-! The issue of a trigger of the MAC, the XLU, the IOU or SIG, and the MAC's (R72 to R76) (O16). -/

namespace Sys2Proof.Machine

theorem vgetN_vmodN_self {α : Type} {n : Nat} (v : Vector α n) {i : Nat} (h : i < n) (f : α → α) (d : α) :
    vgetN (vmodN v i f) i d = f (vgetN v i d) := by
  simp [vgetN, vmodN, h]

theorem vmodN_get_ne {α : Type} {n : Nat} (v : Vector α n) {i : Nat} (f : α → α) (j : Fin n) (h : j.val ≠ i) :
    (vmodN v i f).get j = v.get j := by
  unfold vmodN
  split
  · exact vmod_get_ne _ _ _ _ fun e => h (congrArg Fin.val e)
  · rfl

section
variable {s : State} {dt : Nat} {g : BargeIx} {rivals : List Rival} {i : Insn} {op : Nat} {v : Word} {b : Barge}

theorem accesses_mac {c : Ctx} (h : c.Fires b .mac op v) (k : Barge) :
    c.accesses k = if op ≤ 1 then [(1, (macAddrs b.u).1, 4), (2, (macAddrs b.u).2, 4)] else [] := by
  simp [Ctx.accesses, h.memLoad_none nofun, macFetches_fires h, h.view]

theorem accessFaults_mac (h : (mkCtx g i b).Fires b .mac op v) (x : Basin)
    (hfault : op ≤ 1 → accessFault x (posOf g) (pswW b.psw) (pswL b.psw)
      [{ addr := (macAddrs b.u).1, len := 4 }, { addr := (macAddrs b.u).2, len := 4 }] = none) :
    (mkCtx g i b).accessFaults x = none := by
  by_cases hop : op ≤ 1
  · simpa [Ctx.accessFaults, h.lsuAccess_none nofun, macFetches_fires h, Ctx.world, h.view] using fun _ => hfault hop
  · simp [Ctx.accessFaults, h.lsuAccess_none nofun, macFetches_fires h, hop]

theorem hardHold_mac {c : Ctx} (h : c.Fires b .mac op v) (s : State)
    (hfree : op ≤ 1 → (∀ e ∈ (s.barges.get c.g).stores, e.meets (macAddrs b.u).1 4 = false ∧ e.meets (macAddrs b.u).2 4 = false) ∧
      inHandover (s.basins.get (basinOf c.g)) (bankOf (macAddrs b.u).1) = false ∧
      inHandover (s.basins.get (basinOf c.g)) (bankOf (macAddrs b.u).2) = false) : c.hardHold s = false := by
  have hvmul : c.trig .vmul = none := h.no_others (by decide) _ (by decide)
  simp only [Ctx.hardHold, h.lsuAccess_none nofun, h.memLoad_none nofun, hvmul, Option.isSome_none, Bool.false_and, Bool.or_false,
    Bool.false_or, macFetches_fires h]
  by_cases hop : op ≤ 1
  · obtain ⟨hmeets, hx, hy⟩ := hfree hop
    have hany : ((s.barges.get c.g).stores.any fun e => e.meets (macAddrs b.u).1 4 || e.meets (macAddrs b.u).2 4) = false :=
      List.any_eq_false.2 fun e he => by simp [hmeets e he]
    have hbanks : c.macBanks.any (inHandover (s.basins.get (basinOf c.g))) = false := List.any_eq_false.2 fun k hk => by
      simp only [Ctx.macBanks, macFetches_fires h, h.view, hop, decide_true, if_true, List.mem_dedup, List.mem_cons, List.not_mem_nil,
        or_false] at hk
      obtain rfl | rfl := hk
      · simp [hx]
      · simp [hy]
    rw [h.view, hany, hbanks]
    simp
  · simp [hop]

/-- A trigger of the MAC, the XLU, the IOU or SIG issues that passes its checks and whose accesses, if it makes any, are granted. -/
theorem reaching_issuesTo {u : TrigUnit} (hav : Available s) (hr : Ready s g i) (hdone : (s.barges.get g).done = [])
    (ht : Triggers s g i u op v) (hu : u ∈ reachUnits) (hl : u ≠ .lsu)
    (hplan : plan g (s.elapse dt) = .go (mkCtx g i (s.barges.get g))) {made : List DoneAccess}
    (hfetch : ∃ t at', fetchAll g placeUnit rivals ((mkCtx g i (s.barges.get g)).accesses (s.barges.get g)) (s.elapse dt) = (true, t) ∧
      Fetched g at' made (s.elapse dt) t) {sg : Sig} {r : Reach}
    (hsg : ∀ t : State, (t.pwm = s.pwm ∧ t.fio = s.fio ∧ t.tl = s.tl) →
      (mkCtx g i (s.barges.get g)).sigAfter t (s.barges.get g).sig = some sg)
    (hF : ∀ lines n line d, (mkCtx g i (s.barges.get g)).iou (s.barges.get g).storeSeq ((mkCtx g i (s.barges.get g)).xlu
      (s.barges.get g).storeSeq ((mkCtx g i (s.barges.get g)).mac { (s.barges.get g).issuing made lines n line d with sig := sg })) =
      ((s.barges.get g).issuing made lines n line d).withReach r) :
    IssuesTo s dt g rivals ((s.barges.get g).pc + 1) fun y => y.reach = r := by
  have h := triggers_fires ht
  refine reach_issuesTo (F := fun k => (mkCtx g i (s.barges.get g)).iou (s.barges.get g).storeSeq ((mkCtx g i (s.barges.get g)).xlu
    (s.barges.get g).storeSeq ((mkCtx g i (s.barges.get g)).mac { k with sig := sg }))) hav hr hdone hplan hfetch (fun t _ hsame hb => ?_) hF
  obtain ⟨lines, n, line, d, hb⟩ := hb
  have hsig : (mkCtx g i (s.barges.get g)).sigAfter t (t.barges.get g).sig = some sg := by
    rw [hb]
    exact hsg t hsame
  rw [h.operate hu t hsig, h.lsu_none hl, mkCtx_g, hb]
  simp only [State.modBarge_modBarge]
  rfl

/-- What the fetches of a MAC op need (R62, R65, R76): words that its world owns, that no buffered store meets, in two banks that are
free and clean. -/
def MacFetchable (s : State) (dt : Nat) (g : BargeIx) (rivals : List Rival) : Prop :=
  let b := s.barges.get g
  let x := s.basins.get (basinOf g)
  let p := macAddrs b.u
  let free (k : BankIx) : Prop := inHandover x k = false ∧ ∀ r ∈ rivals, r.bank ≠ k
  accessFault x (posOf g) (pswW b.psw) (pswL b.psw) [{ addr := p.1, len := 4 }, { addr := p.2, len := 4 }] = none ∧
    (∀ e ∈ b.stores, e.meets p.1 4 = false ∧ e.meets p.2 4 = false) ∧ bankOf p.1 ≠ bankOf p.2 ∧ free (bankOf p.1) ∧
    free (bankOf p.2) ∧ PortsFree (s.elapse dt) (basinOf g) ∧ ∀ k, x.mem.mark k = none

/-- The MAC's fetches are made, if its op makes any. -/
theorem mac_fetched (h : (mkCtx g i (s.barges.get g)).Fires (s.barges.get g) .mac op v) (hdone : (s.barges.get g).done = [])
    (hfetch : op ≤ 1 → MacFetchable s dt g rivals) : ∃ made,
    (∃ t at', fetchAll g placeUnit rivals ((mkCtx g i (s.barges.get g)).accesses (s.barges.get g)) (s.elapse dt) = (true, t) ∧
      Fetched g at' made (s.elapse dt) t) ∧
    (op ≤ 1 → made = [(1, (macAddrs (s.barges.get g).u).1, 4), (2, (macAddrs (s.barges.get g).u).2, 4)].map
      (readDone (s.basins.get (basinOf g)).mem)) := by
  have hacs := accesses_mac h (s.barges.get g)
  by_cases hop : op ≤ 1
  · obtain ⟨-, -, hne, ⟨-, hx⟩, ⟨-, hy⟩, hports, hclean⟩ := hfetch hop
    rw [if_pos hop] at hacs
    refine ⟨_, fetch_granted hacs hdone dt hports (fun k hk => ?_) ?_ hclean, fun _ => rfl⟩
    · simp only [banksOf, List.map_cons, List.map_nil, List.mem_cons, List.not_mem_nil, or_false] at hk
      obtain rfl | rfl := hk
      · exact hx
      · exact hy
    · simpa [banksOf] using hne
  · rw [if_neg hop] at hacs
    exact ⟨[], fetch_none rivals hacs dt, fun h => absurd h hop⟩

/-- The MAC (R72 to R76). -/
theorem mac_issuesTo (hav : Available s) (hr : Ready s g i) (hdone : (s.barges.get g).done = [])
    (htag : pswT (s.barges.get g).psw = false) (ht : Triggers s g i .mac op v) (hk : bitsN v 0 2 ≠ 3)
    (hfetch : op ≤ 1 → MacFetchable s dt g rivals) :
    IssuesTo s dt g rivals ((s.barges.get g).pc + 1) fun y =>
      let b := s.barges.get g
      let m := (s.basins.get (basinOf g)).mem
      let r := macOp op (vgetN b.u.acc (bitsN v 0 2) 0) (m.word ((macAddrs b.u).1 / 4)) (m.word ((macAddrs b.u).2 / 4)) v
      y.flights = [{ port := macPort v, due := b.count + 4, value := some r.2 }] ∧ y.u = b.u.macStepped op v r.1 := by
  have h := triggers_fires ht
  obtain ⟨hX, hY⟩ := macAddrs_aligned (s.barges.get g).u
  have hplan : plan g (s.elapse dt) = .go (mkCtx g i (s.barges.get g)) := by
    refine plan_reach (s := s.elapse dt) (hr.elapse dt) ht (by decide) htag (accessFaults_mac h _ fun hop => (hfetch hop).1)
      (h.alignFault_none nofun) (h.iouFault_none nofun _) ?_ (h.softHold_none (by decide) nofun nofun _)
      (hardHold_mac h (s.elapse dt) fun hop => ?_)
    · rw [State.elapse_barges, h.sigAfter_mac]
      rfl
    · obtain ⟨-, hmeets, -, ⟨hx, -⟩, ⟨hy, -⟩, -, -⟩ := hfetch hop
      exact ⟨hmeets, hx, hy⟩
  obtain ⟨made, hfetched, hmade⟩ := mac_fetched h hdone hfetch
  let r := macOp op (vgetN (s.barges.get g).u.acc (bitsN v 0 2) 0) ((s.basins.get (basinOf g)).mem.word ((macAddrs (s.barges.get g).u).1 / 4))
    ((s.basins.get (basinOf g)).mem.word ((macAddrs (s.barges.get g).u).2 / 4)) v
  refine IssuesTo.imp (reaching_issuesTo hav hr hdone ht (by decide) nofun hplan hfetched (fun t _ => h.sigAfter_mac t _) (r :=
    { (s.barges.get g).reach with
      flights := (s.barges.get g).flights ++ [{ port := macPort v, due := (s.barges.get g).count + 4, value := some r.2 }]
      u := (s.barges.get g).u.macStepped op v r.1 }) fun lines n line d => ?_) fun y hy =>
    ⟨(congrArg Reach.flights hy).trans (by rw [hr.flights]; rfl), congrArg Reach.u hy⟩
  rw [h.xlu_none nofun, h.iou_none nofun]
  refine mac_started h hk (k := (s.barges.get g).issuing made lines n line d) rfl (fun hop => ?_) fun hop => ?_
  · rw [hmade hop]
    exact ⟨rfl, (word_div hX).symm⟩
  · rw [hmade hop]
    exact ⟨rfl, (word_div hY).symm⟩

end

end Sys2Proof.Machine
end

section
/-! The issue of an XLU trigger (R68 to R70) (O16). -/

namespace Sys2Proof.Machine

/-! ### The ops of the IOU (R27, R28) -/

theorem triggerPort_iou {n op : Nat} (h : triggerPort n = some (.iou, op)) : op ≤ 1 := by
  simp only [triggerPort, Option.orElse_eq_or, Option.or_eq_some_iff, Option.ite_none_right_eq_some, Option.some.injEq, Prod.mk.injEq,
    reduceCtorEq, false_and, and_false, false_or, or_false, true_and] at h
  omega

theorem dstPort_trig {id : BitVec 9} {u : TrigUnit} {op : Nat} (h : dstPort id = some (.trig u op)) :
    triggerPort id.toNat = some (u, op) := by
  unfold dstPort at h
  dsimp only at h
  split at h
  · exact absurd h nofun
  · split at h
    iterate 8 exact absurd h nofun
    split at h
    · exact absurd h nofun
    · obtain ⟨p, hp, he⟩ := Option.map_eq_some_iff.1 h
      obtain ⟨rfl, rfl⟩ := (Dst.trig.injEq _ _ _ _).mp he
      exact hp

theorem movesOf_dst {i : Insn} {m : Move} (h : m ∈ movesOf i) : ∃ id, dstPort id = some m.dst := by
  obtain ⟨slot, -, hs⟩ := List.mem_filterMap.1 h
  split at hs
  · next a d ha hd =>
    obtain rfl := Option.some.inj hs
    exact ⟨slot.dst, hd⟩
  · exact absurd hs nofun

section
variable {s : State} {dt : Nat} {g : BargeIx} {rivals : List Rival} {i : Insn} {op : Nat} {v : Word} {b : Barge}

theorem iou_op_le (ht : Triggers s g i .iou op v) : op ≤ 1 := by
  obtain ⟨m, hmoves, hdst, -⟩ := ht
  obtain ⟨id, hid⟩ := movesOf_dst (i := i) (m := m) (by simp [hmoves])
  rw [hdst] at hid
  exact triggerPort_iou (dstPort_trig hid)

/-! ### The XLU (R68 to R70) -/

theorem xluAccess_fires (h : (mkCtx g i b).Fires b .xlu op v) : (mkCtx g i b).xluAccess = some (op, (b.u.xlua + v).setWidth 32) := by
  simp only [Ctx.xluAccess, h.trig, h.view]
  rfl

theorem alignFault_xlu (h : (mkCtx g i b).Fires b .xlu op v)
    (halign : ((b.u.xlua + v).setWidth 32).toNat % sizeNonets (xluSize op) = 0) : (mkCtx g i b).alignFault = none := by
  simp only [Ctx.alignFault, xluAccess_fires h]
  rw [if_neg (not_not.2 halign)]

theorem xluFold_fires (h : (mkCtx g i b).Fires b .xlu op v) {x : Sig}
    (hroom : (op % 2 == 1) = true → (pswW b.psw && pswV b.psw) = true → x.isOpen = true ∧ x.n.toNat + 1 ≤ 65535) :
    (mkCtx g i b).xluFold x = some (if (op % 2 == 1) = true ∧ (pswW b.psw && pswV b.psw) = true then x.fold (residue b.u.xlud) 1 else x) := by
  simp only [Ctx.xluFold, h.trig, h.folds, h.view]
  split
  · next hf =>
    have hw : (op % 2 == 1) = true := by simpa using hf.1
    rw [if_pos ⟨hw, hf.2⟩]
    exact foldIf_room (hroom hw hf.2) _
  · next hf =>
    rw [if_neg fun hw => hf ⟨by simpa using hw.1, hw.2⟩]

/-- The barge with the XLU's transaction in its queue (R66 to R70). -/
def Barge.xluQueued (b : Barge) (op : Nat) (v : Word) : Reach :=
  let write := op % 2 == 1
  { b.reach with
    xluq := b.xluq ++ [{ write := write, size := xluSize op, addr := (b.u.xlua + v).setWidth 32, data := b.u.xlud, world := pswW b.psw
                         after := b.storeSeq, load := if write then 0 else b.xluIssued + 1 }]
    xluCredits := b.xluCredits + 1
    xluIssued := if write then b.xluIssued else b.xluIssued + 1 }

theorem xlu_started (h : (mkCtx g i b).Fires b .xlu op v) (made : List DoneAccess) (lines : List HeldLine) (n : Nat)
    (line : Option (BitVec 12)) (d : Dbg) (sg : Sig) :
    (mkCtx g i b).xlu b.storeSeq { b.issuing made lines n line d with sig := sg } =
      (b.issuing made lines n line d).withReach { b.xluQueued op v with sig := sg } := by
  simp only [Ctx.xlu, xluAccess_fires h, Ctx.world, h.view, Barge.xluQueued]
  cases op % 2 == 1 <;> rfl

/-- The XLU. -/
theorem xlu_issuesTo (hav : Available s) (hr : Ready s g i) (hdone : (s.barges.get g).done = [])
    (htag : pswT (s.barges.get g).psw = false) (ht : Triggers s g i .xlu op v)
    (halign : (((s.barges.get g).u.xlua + v).setWidth 32).toNat % sizeNonets (xluSize op) = 0) (hown : (s.barges.get g).xluCredits < 8)
    (htotal : ((List.finRange 4).map fun p => (s.barges.get (bargeOf (basinOf g) p)).xluCredits).sum < 32)
    (hroom : (op % 2 == 1) = true → (pswW (s.barges.get g).psw && pswV (s.barges.get g).psw) = true →
      (s.barges.get g).sig.isOpen = true ∧ (s.barges.get g).sig.n.toNat + 1 ≤ 65535) :
    IssuesTo s dt g rivals ((s.barges.get g).pc + 1) fun y =>
      let b := s.barges.get g
      let write := op % 2 == 1
      y.xluq = b.xluq ++ [{ write := write, size := xluSize op, addr := (b.u.xlua + v).setWidth 32, data := b.u.xlud, world := pswW b.psw
                            after := b.storeSeq, load := if write then 0 else b.xluIssued + 1 }] ∧
      y.xluCredits = b.xluCredits + 1 ∧ y.xluIssued = (if write then b.xluIssued else b.xluIssued + 1) ∧ y.u = b.u ∧
      y.sig = if write ∧ (pswW b.psw && pswV b.psw) then b.sig.fold (residue b.u.xlud) 1 else b.sig := by
  have h := triggers_fires ht
  have hsg := fun t => (h.sigAfter_xlu t _).trans (xluFold_fires h hroom)
  have hsoft : (mkCtx g i (s.barges.get g)).softHold (s.elapse dt) = false := by
    have htotal' : ((List.finRange 4).map fun p => ((s.elapse dt).barges.get (bargeOf (basinOf g) p)).xluCredits).sum < 32 := htotal
    simp only [Ctx.softHold, h.trig_ne (x := .iou) nofun, h.gates_none (by decide), mkCtx_g, State.elapse_barges]
    simp only [h.trig, Option.isSome_some, Option.isSome_none, Bool.true_and, Bool.false_and, Bool.or_false, Bool.or_eq_false_iff]
    exact ⟨decide_eq_false (by omega), decide_eq_false (by omega)⟩
  have hplan : plan g (s.elapse dt) = .go (mkCtx g i (s.barges.get g)) :=
    plan_reach (s := s.elapse dt) (hr.elapse dt) ht (by decide) htag (h.accessFaults_none nofun nofun _)
      (alignFault_xlu h halign) (h.iouFault_none nofun _) (Option.isSome_of_eq_some (hsg _)) hsoft (h.hardHold_none (by decide) nofun nofun _)
  refine IssuesTo.imp (reaching_issuesTo hav hr hdone ht (by decide) nofun hplan
    (fetch_none rivals (h.accesses_none nofun nofun _) dt) (fun t _ => hsg t) (r := { (s.barges.get g).xluQueued op v with sig := _ })
    fun lines n line d => ?_) fun y hy =>
    ⟨congrArg Reach.xluq hy, congrArg Reach.xluCredits hy, congrArg Reach.xluIssued hy, congrArg Reach.u hy, congrArg Reach.sig hy⟩
  rw [h.mac_none nofun, h.iou_none nofun]
  exact xlu_started h [] lines n line d _

end

end Sys2Proof.Machine
end

section
/-! The issue of an IOU or SIG trigger (R82, R157 to R165) (O16). -/

namespace Sys2Proof.Machine

/-! ### The IOU (R82) -/

theorem vitalStaging_congr {s t : State} (h : t.pwm = s.pwm ∧ t.fio = s.fio ∧ t.tl = s.tl) (w : Bool) (a : Nat) :
    vitalStaging t w a = vitalStaging s w a := by
  obtain ⟨hpwm, hfio, htl⟩ := h
  simp only [vitalStaging, hpwm, hfio, htl]

/-- A write of a vital staging register by the vital world folds (R157). -/
def stagesVital (s : State) (b : Barge) (op : Nat) (v : Word) : Prop :=
  op = 1 ∧ pswW b.psw = true ∧ vitalStaging s (pswW b.psw) (b.u.ioua + v).toNat = true

section
variable {s : State} {dt : Nat} {g : BargeIx} {rivals : List Rival} {i : Insn} {op : Nat} {v : Word} {b : Barge}

theorem iouAccess_fires (h : (mkCtx g i b).Fires b .iou op v) : (mkCtx g i b).iouAccess = some (op, b.u.ioua + v) := by
  simp only [Ctx.iouAccess, h.trig, h.view]
  rfl

theorem iouFault_fires (h : (mkCtx g i b).Fires b .iou op v) (hop : op ≤ 1) (s : State) (ha : (b.u.ioua + v).toNat < 0x10000)
    (hread : op = 0 → winRead s g (pswW b.psw) (b.u.ioua + v).toNat ≠ none)
    (hwrite : op = 1 → winWriteFaults s g (pswW b.psw) (pswL b.psw) (b.u.ioua + v).toNat b.u.ioud = false) :
    (mkCtx g i b).iouFault s = none := by
  simp only [Ctx.iouFault, iouAccess_fires h, Ctx.world, h.view, mkCtx_g]
  refine if_neg ?_
  rintro (hhigh | hbad)
  · omega
  · obtain rfl | rfl : op = 0 ∨ op = 1 := by omega
    · rw [if_pos rfl] at hbad
      exact hread rfl (Option.isNone_iff_eq_none.1 hbad)
    · rw [if_neg (by decide), hwrite rfl] at hbad
      exact absurd hbad (by decide)

theorem iouFold_fires (h : (mkCtx g i b).Fires b .iou op v) {s t : State} (hsame : t.pwm = s.pwm ∧ t.fio = s.fio ∧ t.tl = s.tl) {sg : Sig}
    (hstages : stagesVital s b op v → pswV b.psw = true ∧ (b.sig.isOpen = true ∧ b.sig.n.toNat + 1 ≤ 65535) ∧
      sg = b.sig.fold (residue b.u.ioud) 1)
    (hnot : ¬ stagesVital s b op v → sg = b.sig) : (mkCtx g i b).iouFold t b.sig = some sg := by
  simp only [Ctx.iouFold, iouAccess_fires h, Ctx.world, Ctx.vitalMode, h.view, vitalStaging_congr hsame]
  by_cases hst : stagesVital s b op v
  · obtain ⟨hv, hroom, rfl⟩ := hstages hst
    obtain ⟨hop, hw, hvs⟩ := hst
    rw [if_pos ⟨hop, hvs, hw⟩, if_pos hv]
    exact foldIf_room hroom _
  · rw [if_neg fun hc => hst ⟨hc.1, hc.2.2, hc.2.1⟩, hnot hst]

/-- The barge with the IOU's operation in progress (R82, R192). -/
def Barge.iouBegun (b : Barge) (op : Nat) (v : Word) : Reach :=
  { b.reach with
    iou := some { write := op == 1, addr := (b.u.ioua + v).setWidth 16, data := b.u.ioud, world := pswW b.psw, sup := pswL b.psw
                  after := b.storeSeq, date := (stagingTag b).1, att := (stagingTag b).2 } }

theorem iou_started (h : (mkCtx g i b).Fires b .iou op v) (made : List DoneAccess) (lines : List HeldLine) (n : Nat)
    (line : Option (BitVec 12)) (d : Dbg) (sg : Sig) :
    (mkCtx g i b).iou b.storeSeq { b.issuing made lines n line d with sig := sg } =
      (b.issuing made lines n line d).withReach { b.iouBegun op v with sig := sg } := by
  simp only [Ctx.iou, iouAccess_fires h, Ctx.world, h.view]
  rfl

theorem iou_issuesTo (hav : Available s) (hr : Ready s g i) (hdone : (s.barges.get g).done = [])
    (htag : pswT (s.barges.get g).psw = false) (ht : Triggers s g i .iou op v) (hidle : (s.barges.get g).iou = none)
    (ha : ((s.barges.get g).u.ioua + v).toNat < 0x10000)
    (hread : op = 0 → winRead (s.elapse dt) g (pswW (s.barges.get g).psw) ((s.barges.get g).u.ioua + v).toNat ≠ none)
    (hwrite : op = 1 → winWriteFaults (s.elapse dt) g (pswW (s.barges.get g).psw) (pswL (s.barges.get g).psw)
      ((s.barges.get g).u.ioua + v).toNat (s.barges.get g).u.ioud = false) {sg : Sig}
    (hstages : stagesVital (s.elapse dt) (s.barges.get g) op v → pswV (s.barges.get g).psw = true ∧
      ((s.barges.get g).sig.isOpen = true ∧ (s.barges.get g).sig.n.toNat + 1 ≤ 65535) ∧
      sg = (s.barges.get g).sig.fold (residue (s.barges.get g).u.ioud) 1)
    (hnot : ¬ stagesVital (s.elapse dt) (s.barges.get g) op v → sg = (s.barges.get g).sig) :
    IssuesTo s dt g rivals ((s.barges.get g).pc + 1) fun y =>
      y.iou = ((s.barges.get g).iouBegun op v).iou ∧ y.u = (s.barges.get g).u ∧ y.flights = [] ∧ y.sig = sg := by
  have h := triggers_fires ht
  have hsg : ∀ t : State, (t.pwm = s.pwm ∧ t.fio = s.fio ∧ t.tl = s.tl) →
      (mkCtx g i (s.barges.get g)).sigAfter t (s.barges.get g).sig = some sg := fun t hsame =>
    (h.sigAfter_iou t _).trans (iouFold_fires (s := s.elapse dt) h hsame hstages hnot)
  have hsoft : (mkCtx g i (s.barges.get g)).softHold (s.elapse dt) = false := by
    simp [Ctx.softHold, h.trig_ne (x := .xlu) nofun, h.gates_none (by decide), hidle]
  have hplan : plan g (s.elapse dt) = .go (mkCtx g i (s.barges.get g)) :=
    plan_reach (s := s.elapse dt) (hr.elapse dt) ht (by decide) htag (h.accessFaults_none nofun nofun _)
      (h.alignFault_none nofun) (iouFault_fires h (iou_op_le ht) _ ha hread hwrite) (Option.isSome_of_eq_some (hsg _ ⟨rfl, rfl, rfl⟩)) hsoft
      (h.hardHold_none (by decide) nofun nofun _)
  refine IssuesTo.imp (reaching_issuesTo hav hr hdone ht (by decide) nofun hplan
    (fetch_none rivals (h.accesses_none nofun nofun _) dt) hsg (r := { (s.barges.get g).iouBegun op v with sig := sg })
    fun lines n line d => ?_) fun y hy =>
    ⟨congrArg Reach.iou hy, congrArg Reach.u hy, (congrArg Reach.flights hy).trans hr.flights, congrArg Reach.sig hy⟩
  rw [h.mac_none nofun, h.xlu_none nofun]
  exact iou_started h [] lines n line d _

/-! ### SIG (R162 to R165) -/

theorem sigFold_fires (h : (mkCtx g i b).Fires b .sig 0 v) (hen : b.sig.en = true)
    (hroom : (pswW b.psw && pswV b.psw) = true → b.sig.isOpen = true ∧ b.sig.n.toNat + 1 ≤ 65535) :
    (mkCtx g i b).sigFold b.sig = some (if (pswW b.psw && pswV b.psw) = true then b.sig.fold (residue v) 1 else b.sig) := by
  simp only [Ctx.sigFold, h.trig, h.view, h.folds, hen, Bool.not_true, Bool.false_eq_true, if_false]
  split
  · next hv => exact foldIf_room (hroom hv) _
  · rfl

theorem sigFoldN_fires (h : (mkCtx g i b).Fires b .sig 1 v) (hen : b.sig.en = true) (hr : bitsN v 0 12 ≤ 4092) (hn : bitsN v 12 8 ≠ 0)
    (hroom : (pswW b.psw && pswV b.psw) = true → b.sig.isOpen = true ∧ b.sig.n.toNat + bitsN v 12 8 ≤ 65535) :
    (mkCtx g i b).sigFold b.sig =
      some (if (pswW b.psw && pswV b.psw) = true then b.sig.fold (bitsN v 0 12) (bitsN v 12 8) else b.sig) := by
  simp only [Ctx.sigFold, h.trig, h.view, h.folds, hen, Bool.not_true, Bool.false_eq_true, if_false]
  rw [if_neg (not_or.2 ⟨hn, not_lt.2 hr⟩)]
  split
  · next hv => exact foldIf_room (hroom hv) _
  · rfl

theorem sigSeal_fires (h : (mkCtx g i b).Fires b .sig 2 v) (hen : b.sig.en = true) (hopen : b.sig.isOpen = true)
    (htask : b.sig.tchk = true → v.setWidth 8 = b.sig.task) :
    (mkCtx g i b).sigFold b.sig = some { b.sig with
      isOpen := false, retry := false, captured := some (.seal b.sig.s b.sig.task b.sig.n, iouWriting b) } := by
  simp only [Ctx.sigFold, h.trig, h.trig_ne (x := .iou) nofun, h.view, hen, hopen, Bool.not_true, Bool.false_eq_true, if_false, false_or]
  rw [if_neg fun hc => hc.2 (htask hc.1)]
  simp

/-- A SIG trigger issues that folds or seals. -/
theorem sig_issuesTo (hav : Available s) (hr : Ready s g i) (hdone : (s.barges.get g).done = [])
    (htag : pswT (s.barges.get g).psw = false) (ht : Triggers s g i .sig op v) {sg : Sig}
    (hsig : (mkCtx g i (s.barges.get g)).sigFold (s.barges.get g).sig = some sg) :
    IssuesTo s dt g rivals ((s.barges.get g).pc + 1) fun y => y.u = (s.barges.get g).u ∧ y.sig = sg := by
  have h := triggers_fires ht
  have hsg := fun t => (h.sigAfter_sig t _).trans hsig
  have hplan : plan g (s.elapse dt) = .go (mkCtx g i (s.barges.get g)) :=
    plan_reach (s := s.elapse dt) (hr.elapse dt) ht (by decide) htag (h.accessFaults_none nofun nofun _)
      (h.alignFault_none nofun) (h.iouFault_none nofun _) (Option.isSome_of_eq_some (hsg _)) (h.softHold_none (by decide) nofun nofun _)
      (h.hardHold_none (by decide) nofun nofun _)
  refine IssuesTo.imp (reaching_issuesTo hav hr hdone ht (by decide) nofun hplan
    (fetch_none rivals (h.accesses_none nofun nofun _) dt) (fun t _ => hsg t) (r := { (s.barges.get g).reach with sig := sg })
    fun lines n line d => ?_) fun y hy => ⟨congrArg Reach.u hy, congrArg Reach.sig hy⟩
  rw [h.mac_none nofun, h.xlu_none nofun, h.iou_none nofun]
  rfl

end

end Sys2Proof.Machine
end

section
/-! The triggers of the LSU, MAC, XLU, IOU and SIG start their operations (O16). -/

namespace Sys2Proof.Machine

/-- Settles O16, a unit at a time: what its trigger's checks, fetches, operation and fold leave of its barge. -/
theorem memoryTriggersStartTheirOperations : Obligations.MemoryTriggersStartTheirOperations := by
  unfold Obligations.MemoryTriggersStartTheirOperations
  intro s dt g rivals i v b x u w sup vital clk next room free hav hn hints htag
  have hr := nextInsn_ready hn hints
  obtain ⟨-, -, -, hdone, -⟩ := hn
  refine ⟨fun op a ht ha => ?_, fun op ht hk => ?_, fun op ht => ?_, fun op ht hidle => ?_, fun hen => ⟨fun ht hroom => ?_, ?_, ?_⟩⟩
  · intro n parts moved steps hfault hho
    refine ⟨fun hst hplace hroom => ?_, fun hst hunmet hfirst hports hfree hclean => ?_, fun hst e hy haddr hsize => ?_⟩
    · exact store_issuesTo hav hr hdone htag ht ha hfault hho hst hplace hroom
    · exact load_issuesTo hav hr hdone htag ht ha hfault hho hst hunmet hfirst hports hfree.2 hclean
    · exact forward_issuesTo hav hr hdone htag ht ha hfault hho hst hy haddr hsize
  · intro p k port acc r hfetch
    have hlt : k < 3 := by
      have : k < 4 := Nat.mod_lt _ (by decide)
      omega
    refine IssuesTo.imp (mac_issuesTo hav hr hdone htag ht hk hfetch) fun y hy => ?_
    obtain ⟨hfl, hu⟩ := hy
    refine ⟨hfl, ?_, ?_, ?_, ?_, fun j hj => ?_⟩
    · rw [hu]
      exact vgetN_vmodN_self _ hlt _ _
    · rw [hu]
      rfl
    · rw [hu]
      rfl
    · rw [hu]
      rfl
    · rw [hu]
      exact vmodN_get_ne _ _ j hj
  · intro a write halign hown htotal hroom
    exact xlu_issuesTo hav hr hdone htag ht halign hown htotal hroom
  · intro a stages' ha hread hwrite hfold
    by_cases hst : stages'
    · obtain ⟨hv, hroom⟩ := hfold hst
      refine IssuesTo.imp (iou_issuesTo hav hr hdone htag ht hidle ha hread hwrite (fun _ => ⟨hv, hroom, rfl⟩) fun hno => absurd hst hno)
        fun y ⟨hiou, hu, hfl, hsig⟩ => ⟨hiou, hu, hfl, fun _ => hsig, fun hno => absurd hst hno⟩
    · refine IssuesTo.imp (iou_issuesTo hav hr hdone htag ht hidle ha hread hwrite (fun h => absurd h hst) fun _ => rfl)
        fun y ⟨hiou, hu, hfl, hsig⟩ => ⟨hiou, hu, hfl, fun h => absurd h hst, fun _ => hsig⟩
  · exact sig_issuesTo hav hr hdone htag ht (sigFold_fires (triggers_fires ht) hen hroom)
  · exact fun ht hlow hcount hroom => sig_issuesTo hav hr hdone htag ht (sigFoldN_fires (triggers_fires ht) hen hlow hcount hroom)
  · exact fun ht hopen htask => sig_issuesTo hav hr hdone htag ht (sigSeal_fires (triggers_fires ht) hen hopen htask)

end Sys2Proof.Machine
end
